-- ==== Sys2Proof/Word.lean ====
section
/-! DEFINITION. The word types of the model: bytes, 32-bit words, byte strings and sparse numbered tables. -/

namespace Sys2Proof

/-- One byte. -/
abbrev Byte := BitVec 8

/-- A 32-bit word: a path word (R2), a configuration word (R465), an epoch number (R476). -/
abbrev Word := BitVec 32

/-- A string of bytes, lowest address or first transmitted byte first. -/
abbrev Bytes := List Byte

/-- A sparse array: entries by rising number, each number at most once. -/
abbrev Tab (α : Type) := List (Nat × α)

end Sys2Proof
end

