-- ==== Sys2Proof/Syntax.lean ====
section
/-! DEFINITION. The commands of the block: one constructor of `Instr` per row of spec/opcode_table.json, with the operands the
row's rules use, and the types of those operands. -/

namespace Sys2Proof

/-- A PCI Express function: host link 0-3, half 0-1, pool 0 (PF0 and its VFs) or 1 (PF1 and its VFs), and number: 0 the PF,
1-128 VF number - 1 (R270, R302). -/
structure Fn where
  link : Nat
  half : Nat
  pool : Nat
  num : Nat
  deriving DecidableEq, Repr

/-- What a received MKA PDU says (R209): sender's SCI and key-server priority, suites it advertises (bits as
PORT_MACSEC_CFG.suites), the transmit PN it reports, the AN of the latest SAK it has installed, and a SAK it distributes as key
server (suite as PORT_MACSEC_STATUS, AN, the SAK unwrapped). -/
structure Mkpdu where
  sci : Nat
  priority : Nat
  suites : Nat
  pn : Nat
  installed : Option Nat
  sak : Option (Nat × Nat × Bytes)
  deriving DecidableEq, Repr

/-- A port as an LACPDU gives it (IEEE 802.1AX): port priority, port number and state bits, of which [3] is Synchronization. -/
structure LacpPort where
  prio : Nat
  num : Nat
  state : Nat
  deriving DecidableEq, Repr

/-- What the line brings with a received frame (R93, R113): no FCS error and no PCS error inside it, and the invalid PCS blocks and the
FEC codewords corrected and not correctable since the frame before. -/
structure RxLine where
  fcsOk : Bool
  pcs : Nat
  fecFixed : Nat
  fecLost : Nat
  deriving DecidableEq, Repr

/-- How the transmission of a frame goes: the SAK passes its integrity check (R207), and the transmit FIFO underruns (R71). -/
structure TxLine where
  keyOk : Bool
  underrun : Bool
  deriving DecidableEq, Repr

/-- The queues that carry command packets (R438). -/
inductive QueueId where
  /-- Queue `q` (0-15) of the PF of a pool of a host link or half. -/
  | pf (link half pool q : Nat)
  /-- The queue of VF `vf` of that pool. -/
  | vf (link half pool vf : Nat)
  /-- Out-of-band queue 0-3. -/
  | oob (q : Nat)
  /-- Twin queue 0 or 1. -/
  | twin (q : Nat)
  /-- The queue of service cluster `s` (0-84) of a bed. -/
  | bed (s : Nat)
  /-- Management firmware in G0 (requester 64 of R615). -/
  | mgmt
  /-- The IEEE 1149.1 boot mailbox (requester 70 of R615), which carries commands in recovery (R611). -/
  | jtag
  /-- A queue before its reset or loss: its commands run to their end, and their replies are discarded (R298, R450). -/
  | lost (q : QueueId)
  deriving DecidableEq, Repr

/-- A command packet whose opcode is the constructor that carries it (R431): the fields of slot 0, and the parameter bytes
of all its slots; `slotAt` is the index of its first slot in the ring it came from (0 without a ring). -/
structure Cmd where
  queue : QueueId
  tag : BitVec 16
  target : Word
  epoch : Word
  flags : BitVec 8
  slots : Nat
  rsvd : BitVec 16
  params : Bytes
  slotAt : Nat
  deriving DecidableEq, Repr

/-- What the owner section of a firmware image carries (R608): PROT_REQ by requester code, PROT_MBX by channel and the range entries of
each die by number, as written; the base of the port MAC addresses; and the subsystem IDs (R276, R685). -/
structure Owner where
  req : Tab Nat := []
  mbx : Tab Nat := []
  ranges : Tab (Tab Nat) := []
  macBase : Option Nat := none
  subVendor : Nat := 0
  subsystem : Nat := 0
  deriving DecidableEq, Repr

/-- A life-cycle request in the boot mailbox (R620, R621): whether it names this package's serial, the present and the new state as
DEV_LIFECYCLE codes them, who signed it (1 manufacturing root, 2 owner provisioning root), whether the signature verifies, and the owner
KEK that a request to PROVISIONED installs. -/
structure LcReq where
  serial : Bool
  old : Nat
  new : Nat
  signer : Nat
  signed : Bool
  kek : Bytes
  deriving DecidableEq, Repr

/-- What the start finds on a DDR5 channel (R496, R498): the DIMM of slot 0 and of slot 1 (GiB, ranks, whether it meets R495), and
the code of the fastest speed that training reaches, 0 none. -/
structure MemSpd where
  slot0 : Option (Nat × Nat × Bool)
  slot1 : Option (Nat × Nat × Bool)
  speed : Nat
  deriving DecidableEq, Repr

/-- What the time-to-digital converters of a unit read in a scan (R539): its place, the local junction temperature in 0.1 °C, and the
sum of the 256 readings of each canary and of each matched delay, in the order of the unit's fuses. -/
structure CanaryRead where
  unit : Nat
  temp : Int
  canaries : List Nat
  delays : List Nat
  deriving DecidableEq, Repr

/-- What a cartridge's signed response and capability block say (R518, R519): power class, working-laser mask, I_max in mA, and its
life record: lit and alone hours, first light, and per laser the samples, oldest first. -/
structure CartCap where
  cls : Nat
  mask : Nat
  iMax : Nat
  lit : Nat
  alone : Nat
  firstLit : Nat
  samples : List (List (Nat × Nat))
  deriving DecidableEq, Repr

/-- What the governor measures of a die for a contact sheet (R542, R556): mean and highest junction of the last 24 h in 0.1 °C, projected
power at maximum load in 0.1 W at each rail from 700 mV to 900 mV in steps of 5 mV. -/
structure SheetDie where
  mean : Int
  peak : Int
  powers : List Nat
  deriving DecidableEq, Repr

/-- What the governor measures for a contact sheet: the dies, each sampled laser's
I80 and bias at share in 0.01 mA (R532), the twin's projection, and the sheets found lost (R558). -/
structure SheetIn where
  dies : List SheetDie
  lasers : List (Nat × Nat × Nat × Nat)
  twin : Option Nat
  lost : List Nat
  deriving DecidableEq, Repr

/-- A live object of the leader's tables as a join copies it (R599 step 3, R683), with the epochs that its born and died marks name: kind 0
rule-pool entry (index the table; data the key length, the key, the program and the 32 action bytes), 1 action program (8-byte primitives),
2 header template, 3 multicast group (total, prune flag, 8-byte members), 4 link-aggregation group (4-byte members), 5 namespace key,
wrapped under the pair key, 6 IPsec SA (flags: inbound, esn, tunnel, udp_encap, exhausted, soft event raised; SPI, salt, sequence number,
replay window, soft_seq, seen window; key wrapped under the pair key). -/
structure JoinObj where
  kind : Nat
  index : Nat
  born : Option Nat
  died : Option Nat
  data : Bytes
  deriving DecidableEq, Repr

/-- Fields of a function's PCI Express configuration space that no row of their own sets (R271, R276, R277, R288, R290-R295, R302, R303).
The first group is writable, the second read-only. -/
inductive PcieField where
  /-- MSI-X Enable. -/
  | msixEnable
  /-- Interrupt Disable of the Command register. -/
  | intDisable
  /-- Enable Relaxed Ordering, Enable No Snoop and IDO Request Enable. -/
  | relaxedOrdering
  | noSnoop
  | idOrdering
  /-- Max Payload Size and Max Read Request Size. -/
  | maxPayload
  | maxReadRequest
  /-- Completion Timeout Value of Device Control 2. -/
  | completionTimeout
  /-- The host's enables of L0p and of ASPM L1 on the link. -/
  | l0pEnable
  | aspmL1Enable
  /-- Uncorrectable and correctable error status. -/
  | aerStatus
  | aerCorrectable
  /-- Base address register 0 to 5, and the expansion ROM's as 6. -/
  | bar (n : Nat)
  /-- VF base address register 0 to 5 of a PF. -/
  | vfBar (n : Nat)
  | vendorId
  | deviceId
  | subsystemVendor
  | subsystemId
  | revisionId
  | classCode
  /-- 1 INTA, 2 INTB, 0 none. -/
  | interruptPin
  /-- Routing ID relative to that of PF0 of the link or half. -/
  | routingOffset
  | firstVfOffset
  | vfStride
  | vfDeviceId
  | totalVfs
  | initialVfs
  | numVfs
  | supportedPageSizes
  | vfMigrationCapable
  | msixTableSize
  /-- Completion Timeout Ranges Supported. -/
  | timeoutRanges
  /-- FLR time and VF Enable time of Readiness Time Reporting, in milliseconds. -/
  | flrTime
  | vfEnableTime
  | l1ExitLatency
  /-- First error pointer and header log. -/
  | aerFirstError
  | aerHeaderLog
  /-- Are ACS and ARI present; No_Soft_Reset. -/
  | acs
  | ari
  | noSoftReset
  deriving DecidableEq, Repr

/-- Where a register lies: an offset of a function's BAR0, a field of its configuration space, or an internal address reached by a
requester of R615. -/
inductive RegAt where
  | bar0 (f : Fn) (off : Nat)
  /-- Anywhere in a function's BARs, by a write that arrives poisoned (R294). -/
  | poisoned (f : Fn)
  | pcie (f : Fn) (field : PcieField)
  | internal (code addr : Nat)
  deriving DecidableEq, Repr

/-- What a target reports of a namespace of its subsystem at Identify Namespace (R360, R364): NSID, LBA data size, protection information
(0 none, else its type), and NSZE. -/
structure NsIdent where
  nsid : Nat
  lbaSize : Nat
  pi : Nat
  nsze : Nat
  deriving DecidableEq, Repr

/-- A record of an overlay slot of the leader (R599 step 2). -/
structure JoinSlot where
  slot : Nat
  prio : Nat
  active : Bool
  recs : List (Nat × Word × Word)
  deriving DecidableEq, Repr
/-- The commands and events of the block, one constructor per row of the opcode table; each docstring names the row's rule. -/
inductive Instr where
  /-- R451. Does nothing and replies. -/
  | sysNop (c : Cmd)
  /-- R451. Returns part, revision, life-cycle, serial, system, package and twin state. -/
  | sysInfo (c : Cmd)
  /-- R451. Returns current and oldest live epochs and the stage. -/
  | sysEpochRead (c : Cmd)
  /-- R451. Returns the service status and ledger state of an element. -/
  | sysPathQuery (c : Cmd)
  /-- R452. Takes a die's or region's ports out of their groups, or returns them. -/
  | sysDrain (c : Cmd)
  /-- R453. Restarts a fabric die in service, or the whole package. -/
  | sysReset (c : Cmd)
  /-- R613. Writes bytes into the image that is not running. -/
  | sysFwLoad (c : Cmd)
  /-- R614. Selects an image and optionally restarts dies one at a time. -/
  | sysFwActivate (c : Cmd)
  /-- R470. Opens a stage and reserves the next pipeline tag on each package. -/
  | cfgStage (c : Cmd)
  /-- R472. Freezes the stage, validates it and starts the two-phase fix. -/
  | cfgFix (c : Cmd)
  /-- R471. Discards the open stage and frees its staged entries and tags. -/
  | cfgDiscard (c : Cmd)
  /-- R466. Writes staged word values or masks into the base or an overlay layer. -/
  | cfgWrite (c : Cmd)
  /-- R468. Clears, reprioritises, activates or deactivates an overlay slot in the stage. -/
  | cfgOverlay (c : Cmd)
  /-- R455. Reads a configuration word in a chosen view. -/
  | cfgRead (c : Cmd)
  /-- R138. Inserts an entry into a table, relocating, stashing or reseeding as needed. -/
  | tblInsert (c : Cmd)
  /-- R144. Marks an entry died at the operation's tag. -/
  | tblDelete (c : Cmd)
  /-- R144. Writes a new version and marks the old one died. -/
  | tblModify (c : Cmd)
  /-- R458. Returns the visible version of a key, optionally clearing its hit bit. -/
  | tblLookup (c : Cmd)
  /-- R160. Writes a new version of an action program. -/
  | tblProgramSet (c : Cmd)
  /-- R170. Writes a new version of a header template. -/
  | tblTemplateSet (c : Cmd)
  /-- R459. Writes members of a multicast group version. -/
  | tblGroupSet (c : Cmd)
  /-- R195. Writes a link-aggregation group's members. -/
  | tblLagSet (c : Cmd)
  /-- R457. Reads, and optionally clears, a region counter. -/
  | tblCounterRead (c : Cmd)
  /-- R181. Writes a region meter record. -/
  | tblMeterSet (c : Cmd)
  /-- R460. Reads registers of one port's block. -/
  | portRead (c : Cmd)
  /-- R461. Makes a port go down and search again, or restart its search. -/
  | portRestart (c : Cmd)
  /-- R461. Writes the counters of a range of ports to memory. -/
  | portSnapshot (c : Cmd)
  /-- R460. Writes the partner's last LLDPDU to memory. -/
  | portPartnerRead (c : Cmd)
  /-- R205. Loads a KEK slot wrapped under slot 0. -/
  | cryKekLoad (c : Cmd)
  /-- R208. Installs the pre-shared CAK of a range of ports. -/
  | cryCakSet (c : Cmd)
  /-- R216. Clears the CAK of a range of ports and closes them. -/
  | cryCakClear (c : Cmd)
  /-- R234. Returns a port's MKA state. -/
  | cryMkaRead (c : Cmd)
  /-- R214. Requests a new SAK on a port. -/
  | cryMkaRekey (c : Cmd)
  /-- R223. Installs an IPsec SA and mirrors it to the twin. -/
  | crySaInstall (c : Cmd)
  /-- R223. Removes an SA once no packet uses it. -/
  | crySaRemove (c : Cmd)
  /-- R234. Returns an SA's state and sequence number. -/
  | crySaRead (c : Cmd)
  /-- R234. Installs or replaces a TLS session half. -/
  | cryTlsInstall (c : Cmd)
  /-- R227. Resynchronises a TLS receive half at a record start. -/
  | cryTlsResync (c : Cmd)
  /-- R234. Removes a TLS session. -/
  | cryTlsRemove (c : Cmd)
  /-- R234. Returns a TLS half's state. -/
  | cryTlsRead (c : Cmd)
  /-- R267. Inserts a flow entry, with its NAT pair. -/
  | flowInsert (c : Cmd)
  /-- R267. Deletes a flow entry or pair. -/
  | flowDelete (c : Cmd)
  /-- R267. Returns a flow's summary or counters. -/
  | flowRead (c : Cmd)
  /-- R267. Changes a flow's drop, mark or timeout. -/
  | flowModify (c : Cmd)
  /-- R267. Starts removing flows of a zone or profile. -/
  | flowFlush (c : Cmd)
  /-- R323. Returns a VF's state and shares. -/
  | vfQuery (c : Cmd)
  /-- R319. Starts freezing an ACTIVE VF. -/
  | vfSuspend (c : Cmd)
  /-- R321. Makes a STOPPED VF ACTIVE and acts on recorded doorbells. -/
  | vfResume (c : Cmd)
  /-- R315. Starts a dirty-page log for a function. -/
  | vfLogStart (c : Cmd)
  /-- R317. Swaps the live bitmap and starts writing the snapshot. -/
  | vfLogHarvest (c : Cmd)
  /-- R318. Stops a dirty-page log. -/
  | vfLogStop (c : Cmd)
  /-- R320. Starts writing a STOPPED VF's image. -/
  | vfSave (c : Cmd)
  /-- R321. Starts loading an image into a DISABLED VF. -/
  | vfRestore (c : Cmd)
  /-- R329. Writes a STOPPED queue pair's context. -/
  | dmaQpSet (c : Cmd)
  /-- R330. Sets a queue pair RUNNING at its heads. -/
  | dmaQpStart (c : Cmd)
  /-- R330. Stops fetching and finishes packets begun. -/
  | dmaQpStop (c : Cmd)
  /-- R338. Starts flushing a queue pair's descriptors. -/
  | dmaQpFlush (c : Cmd)
  /-- R349. Returns a queue pair's indices and state. -/
  | dmaQpRead (c : Cmd)
  /-- R339. Lends a direct channel to a function or bed. -/
  | dmaChAssign (c : Cmd)
  /-- R341. Writes a direct channel's program registers. -/
  | dmaChProgram (c : Cmd)
  /-- R341. Runs or drops a direct channel's program. -/
  | dmaChEnable (c : Cmd)
  /-- R349. Returns a channel's status and count. -/
  | dmaChRead (c : Cmd)
  /-- R378. Sets an NQN table entry. -/
  | stoNqnSet (c : Cmd)
  /-- R360. Adds a path and starts its connect sequence. -/
  | stoPathAdd (c : Cmd)
  /-- R378. Removes a path not named by a namespace. -/
  | stoPathRemove (c : Cmd)
  /-- R363. Adds or replaces a namespace. -/
  | stoNsAdd (c : Cmd)
  /-- R378. Removes an unattached namespace. -/
  | stoNsRemove (c : Cmd)
  /-- R370. Attaches a namespace to a controller or bed. -/
  | stoNsAttach (c : Cmd)
  /-- R371. Starts detaching an attachment. -/
  | stoNsDetach (c : Cmd)
  /-- R376. Installs a LOCKED namespace's at-rest key after its check value. -/
  | stoNsKey (c : Cmd)
  /-- R378. Returns a path's or namespace's state. -/
  | stoRead (c : Cmd)
  /-- R418. Starts loading a service image into a slot. -/
  | svcImageLoad (c : Cmd)
  /-- R420. Starts a bed from an image slot. -/
  | svcStart (c : Cmd)
  /-- R421. Starts stopping a bed with grace. -/
  | svcStop (c : Cmd)
  /-- R422. Stops a bed and starts it from another image of the same service. -/
  | svcReplace (c : Cmd)
  /-- R429. Returns a bed's state and image. -/
  | svcBedQuery (c : Cmd)
  /-- R429. Returns an image slot's contents. -/
  | svcSlotRead (c : Cmd)
  /-- R406. Halts a thread before its next instruction. -/
  | dbgHalt (c : Cmd)
  /-- R411. Resumes a halted thread, optionally at a new pc. -/
  | dbgResume (c : Cmd)
  /-- R407. Discards a halted thread's staged message. -/
  | dbgAbandonMessage (c : Cmd)
  /-- R408. Observes a thread without changing it. -/
  | dbgObserve (c : Cmd)
  /-- R411. Reads a halted thread's register. -/
  | dbgReadReg (c : Cmd)
  /-- R625. Opens a debug session on a valid token. -/
  | dbgOpen (c : Cmd)
  /-- R625. Closes a session and resumes its halted threads. -/
  | dbgClose (c : Cmd)
  /-- R566. Starts an exposure or test on a unit or cluster. -/
  | testRun (c : Cmd)
  /-- R577. Returns a unit's result record. -/
  | testResult (c : Cmd)
  /-- R575. Sets the test period of the package or a cluster. -/
  | testSchedule (c : Cmd)
  /-- R553. Returns an element's life projection, rail and lowest margin. -/
  | ageReport (c : Cmd)
  /-- R558. Writes a contact sheet to memory. -/
  | ageSheetRead (c : Cmd)
  /-- R555. Sets the daily contact-sheet time. -/
  | ageSheetTime (c : Cmd)
  /-- R537. Returns a cartridge slot's state, class, lasers, hours and margin. -/
  | cartRead (c : Cmd)
  /-- R526. Starts moving a slot's light to its partner so it can be removed. -/
  | cartPrepareSwap (c : Cmd)
  /-- R528. Ramps a slot back to share. -/
  | cartCancelSwap (c : Cmd)
  /-- R604. Returns twin state, version, heartbeat age and witness path. -/
  | twinStatus (c : Cmd)
  /-- R604. Stages the witness address and paths into flash. -/
  | twinWitnessSet (c : Cmd)
  /-- R598. Hands this package's work to the twin, or takes it back. -/
  | twinHandover (c : Cmd)
  /-- R659. Writes event-log records to memory. -/
  | logRead (c : Cmd)
  /-- R662. Clears and arms, or freezes, a cluster trace buffer. -/
  | logTraceArm (c : Cmd)
  /-- R662. Writes a trace buffer's entries to memory. -/
  | logTraceRead (c : Cmd)
  /-- R37. A unit reports a fault (illegal dual-rail code, ECC or similar); it is cloched and its work grafted to the spare under a SUSPECT claim. -/
  | unitFault (p : Nat)
  /-- R51. A unit with a token at its input and room at its output completes no handshake for 10 µs and is declared hung. -/
  | unitHang (p : Nat)
  /-- R582. A graft finishes: the state has been copied, requests are steered to the target and the source is released. -/
  | graftComplete (sp : Nat)
  /-- R584. A graft that exceeds four times its bound fails; the work stays on or returns to a healthy source, or is claimed at the next level. -/
  | graftTimeout (sp : Nat)
  /-- R585. An element without a spare (L0, C0, a fabric die, a host-link cluster, T0, G0, B0, the hub or power) is lost and contained within its bound. -/
  | elementLoss (p : Nat)
  /-- R194. A die-link quarter fails; packets in flight on it are lost and the other quarters carry its traffic. -/
  | dieLinkQuarterFail (p n : Nat)
  /-- R75. A searching receiver's 2 ms lock attempt at one rate ends and it tries the next rate. -/
  | rateHuntTimeout (p : Nat)
  /-- R75. The receiver locks at a rate; the transmitter moves its candidate to it, or both enter SETTLING. -/
  | receiverLock (p r : Nat)
  /-- R76. The candidate rate has been offered for 500 ms without lock and moves to the next lower enabled rate. -/
  | candidateDwellExpiry (p : Nat)
  /-- R77. In SETTLING at 25 Gbit/s the port identifies the partner's FEC and moves down to it or keeps its own. -/
  | fecPartnerIdentified (p f : Nat)
  /-- R77. After 2 s without the partner changing FEC, the port returns to SEARCHING. -/
  | fecMismatchWaitExpiry (p : Nat)
  /-- R78. Lock has been held for 10 ms without fault and the port enters UP. -/
  | lockHoldExpiry (p : Nat)
  /-- R79. A port loses lock; from UP it goes down and searches again, and from SETTLING it returns to step 1 silently. -/
  | lockLost (p : Nat)
  /-- R79. Local fault, remote fault or high BER persists for 100 µs and the port in UP goes down. -/
  | linkFaultPersist (p : Nat)
  /-- R80. The 10 s HELD period ends and the port returns to SEARCHING. -/
  | heldExpiry (p : Nat)
  /-- R93. The MAC receives a whole frame, checks and counts it, removes tags, stamps the epoch and priority and holds it for parsing. -/
  | frameReceived (p : Nat) (frame : Bytes) (line : RxLine) (overflow keyOk icvOk : Bool) (plain : Bytes)
  /-- R102. Every half pause time while use stays at or above the low watermark, the XOFF frame is repeated. -/
  | pfcRefreshTimer (p : Nat)
  /-- R105. A received PFC frame stops dequeue of the named egress queues for its time, in PFC mode only. -/
  | pfcFrameReceived (p vector : Nat) (times : List Nat)
  /-- R105. A received PAUSE frame stops all eight queues of the port, in pause mode only. -/
  | pauseFrameReceived (p time : Nat)
  /-- R105. The time of a received PAUSE or PFC frame ends and the paused queues resume. -/
  | pauseTimeExpiry (p mask : Nat)
  /-- R83. An LLDP frame is received and counted, and its TLVs feed DCBX, loop detection and the frame-size check. -/
  | lldpFrameReceived (p : Nat) (raw : Bytes)
  /-- R83. An LLDP frame is sent on its schedule or after a TLV change. -/
  | lldpTransmitTimer (p : Nat)
  /-- R84. No partner PFC TLV arrives within 5 s of link up. -/
  | dcbxAbsentTimeout (p : Nat)
  /-- R85. The partner's LLDP information ages out; DCBX is recomputed and a loop HELD ends. -/
  | lldpPartnerAgeout (p : Nat)
  /-- R108. At the end of a second in which synchroniser overflows or underruns increased, the port raises the event. -/
  | portSyncOverflow (p dir : Nat)
  /-- R209. An MKA PDU is received; peers, key-server election and SAK installation proceed. -/
  | mkpduReceived (p : Nat) (valid : Bool) (d : Mkpdu)
  /-- R209. The 2 s MKA hello time elapses and an MKPDU is sent. -/
  | mkaHelloTimer (p : Nat)
  /-- R216. The 6 s MKA life time expires without a live peer and the controlled port closes. -/
  | mkaLifeExpiry (p sci : Nat)
  /-- R123. A packet at its parse-unit input takes one pass: parsing, lookups, action programs, flow request and enqueue or recirculation. -/
  | parsePass (g n : Nat) (ecc : Option (Nat × Nat × Nat))
  /-- R151. A fragment held 2 ms goes to the exception path with reason 3. -/
  | fragmentHoldTimeout (g : Nat) (key : Bytes)
  /-- R153. A fragment entry untouched for timeout_ms is freed. -/
  | fragmentEntryTimeout (g : Nat) (key : Bytes)
  /-- R175. A packet in a delivery queue is delivered to its service channel as an external message, or dropped for want of credit. -/
  | channelDelivery (d c prio : Nat) (exc : Bool)
  /-- R186. A port's scheduler selects a packet and the egress rewrite unit and MAC transmit it. -/
  | egressDequeue (p : Nat) (tx : TxLine)
  /-- R198. A packet from the twin is admitted to a local member under the local tag of its epoch, or dropped. -/
  | twinPacketReceived (g q : Nat) (prog : Option Nat) (epoch : Nat) (frame : Bytes)
  /-- R218. A crypto unit encrypts a packet with an ESP SA and sends it to the buffer. -/
  | cryptoEncrypt (g : Nat) (keyOk : Bool)
  /-- R219. A crypto unit checks and decrypts an ESP packet and returns it as an extra pass. -/
  | cryptoDecrypt (g : Nat) (keyOk icvOk : Bool) (plain : Bytes)
  /-- R226. A transmitted TLS segment is encrypted, re-encrypted from history or dropped as stale. -/
  | tlsTxSegment (g : Nat) (keyOk : Bool)
  /-- R227. A received TLS segment is decrypted in place and its record tags verified. -/
  | tlsRxSegment (g : Nat) (keyOk : Bool) (plain : Bytes) (ends : List (Bool × Nat))
  /-- R221. An SA or session record is fetched from DDR5 or taken over from another cluster and waiting packets proceed. -/
  | cryptoRecordFetch (g : Nat)
  /-- R251. A lookup engine serves a parked miss from DDR5 and the parked packets proceed. -/
  | flowMissService (g : Nat) (ecc : Option Bool)
  /-- R258. Once per second each engine visits every entry and removes those past their timeout. -/
  | flowIdleSweep (e : Nat)
  /-- R248. Counters and last_seen of held entries are written back at least once per second. -/
  | flowWriteBack (g : Nat)
  /-- R263. A flow change from the twin is merged into the local store. -/
  | flowDeltaMerge (kind : Nat) (record : Bytes)
  /-- R264. The mirroring lag exceeds 10 ms. -/
  | flowTwinLag (ms : Nat)
  /-- R264. The resend of every created entry to the twin completes. -/
  | flowTwinResyncDone
  /-- R273. A host link finishes training. -/
  | hostLinkTrained (link half rate width : Nat) (flit : Bool)
  /-- R299. PERST# resets a host link or half as an FLR of every function. -/
  | perstAssert (link half : Nat)
  /-- R299. A hot reset acts on a host link as an FLR of every function. -/
  | hotReset (link half : Nat)
  /-- R299. A host link goes down and its functions are reset. -/
  | hostLinkLoss (link half : Nat)
  /-- R294. A malformed TLP or protocol error retrains the link and resets its functions. -/
  | hostFatalError (link half status : Nat)
  /-- R298. An FLR abandons tags, disables channels and returns the function's registers to reset values. -/
  | functionLevelReset (f : Fn)
  /-- R298. The FLR completes within 10 ms and the function is ready again. -/
  | flrComplete (f : Fn)
  /-- R297. Clearing Bus Master Enable stops requests, aborts channels and quarantines outstanding tags. -/
  | busMasterEnableClear (f : Fn)
  /-- R297. Setting Bus Master Enable releases held interrupts, or is deferred during a VF shut-down. -/
  | busMasterEnableSet (f : Fn)
  /-- R296. A device read's completion does not arrive within the timeout. -/
  | completionTimeout (f : Fn) (tag : Nat)
  /-- R294. A completion arrives for a device read, or is discarded as unexpected or quarantined. -/
  | hostCompletionReceived (f : Fn) (tag status : Nat) (data : Bytes)
  /-- R278. A BAR0 access that is not an aligned 4- or 8-byte access completes with Unsupported Request. -/
  | bar0UnsupportedAccess (f : Fn) (write : Bool)
  /-- R285. A BAR2 TLP is translated through its window's active entry or refused. -/
  | bar2Access (f : Fn) (off len : Nat) (data : Option Bytes)
  /-- R287. A write to WIN_COMMIT copies selected shadow window entries to active ones, or refuses them all. -/
  | winCommit (f : Fn) (mask : Nat)
  /-- R286. Writes translated under the old versions have been delivered and busy clears. -/
  | winCommitComplete (f : Fn)
  /-- R281. A write of a command-queue tail publishes new command slots for fetching. -/
  | pfCqDb (f : Fn) (q tail : Nat) (data : Bytes) (ok : Bool)
  /-- R281. Setting enable starts fetching and clears a queue error. -/
  | pfCqEnable (f : Fn) (q cfg : Nat) (data : Bytes) (ok : Bool)
  /-- R281. Clearing enable stops fetching; fetched commands complete. -/
  | pfCqDisable (f : Fn) (q cfg : Nat)
  /-- R281. The host advances the reply head, freeing reply room. -/
  | pfCqRqHead (f : Fn) (q index : Nat) (data : Bytes) (ok : Bool)
  /-- R289. Reading PF_INTX_CAUSE clears its bits and deasserts the INTx pin. -/
  | pfIntxCauseRead (f : Fn)
  /-- R291. After 100 µs of light traffic the device requests a quarter link width. -/
  | l0pNarrow (link half : Nat)
  /-- R292. After 32 µs idle with nothing pending the device requests L1. -/
  | aspmL1Entry (link half : Nat)
  /-- R293. The host moves a function between D0 and D3hot. -/
  | powerStateChange (f : Fn) (d3 : Bool)
  /-- R302. A write of NumVFs takes effect unless VF Enable is set. -/
  | numvfsWrite (f : Fn) (n : Nat)
  /-- R303. Setting VF Enable creates NumVFs VFs and recomputes shares, or is deferred during a reset. -/
  | vfEnableSet (f : Fn)
  /-- R310. Clearing VF Enable resets every VF of the PF. -/
  | vfEnableClear (f : Fn)
  /-- R310. Setting VF_CTRL.enable makes the VF ACTIVE, or is deferred. -/
  | vfCtrlEnableSet (f : Fn)
  /-- R311. Clearing VF_CTRL.enable starts a shut-down. -/
  | vfCtrlEnableClear (f : Fn)
  /-- R311. The last transfer finishes and every tag has returned; the VF becomes DISABLED or applies a deferred enable. -/
  | vfShutdownDone (f : Fn)
  /-- R319. A suspended VF reaches STOPPED and VF_SUSPEND replies. -/
  | vfSuspendComplete (f : Fn)
  /-- R317. The snapshot bitmap has been written and the harvest completion is written. -/
  | vfLogHarvestComplete (f : Fn) (ok : Bool)
  /-- R320. The VF image has been written to host memory. -/
  | vfSaveComplete (f : Fn) (ok : Bool)
  /-- R321. An image has been loaded into a DISABLED VF, which is left STOPPED. -/
  | vfRestored (f : Fn) (image : Bytes) (access : Bool)
  /-- R331. A transmit doorbell publishes a new tx_tail. -/
  | qpDbTx (f : Fn) (n index : Nat)
  /-- R331. A receive doorbell publishes a new rx_tail. -/
  | qpDbRx (f : Fn) (n index : Nat)
  /-- R331. A completion doorbell publishes a new cq_head. -/
  | qpDbCq (f : Fn) (n index : Nat)
  /-- R333. The device takes a transmit packet from host memory and injects it into the pipeline of inject_port. -/
  | hostTxFetch (f : Fn) (n : Nat) (descs : List Bytes) (data : Bytes)
  /-- R336. A packet for a queue pair is written into receive buffers, or dropped for want of descriptors. -/
  | hostRxDelivery (d link prio : Nat) (exc : Bool) (descs : List Bytes)
  /-- R337. The moderation timer expires with entries unread and the vector is signalled. -/
  | interruptModerationTimer (f : Fn) (n : Nat)
  /-- R338. A flush reaches STOPPED and DMA_QP_FLUSH completes. -/
  | dmaQpFlushed (f : Fn) (n : Nat)
  /-- R343. An engine serves the highest-priority ready channel for one beat. -/
  | dmaBeat (e : Nat)
  /-- R347. A paced channel finds its request line asserted at a burst boundary and moves one burst. -/
  | dmaRequestLineAssert (n line : Nat)
  /-- R357. A write to an NVMe submission-queue doorbell publishes new commands. -/
  | nvmeSqDoorbell (f : Fn) (q tail : Nat)
  /-- R356. CC.EN set brings the controller ready. -/
  | nvmeCcEnable (f : Fn) (cc : Nat)
  /-- R358. CC.EN cleared stops fetching and clears CSTS.RDY; remote results are discarded. -/
  | nvmeCcDisable (f : Fn) (cc : Nat)
  /-- R358. CC.SHN completes fetched commands before reporting shut-down complete. -/
  | nvmeCcShutdown (f : Fn) (cc : Nat)
  /-- R356. Admin Identify returns controller or namespace data. -/
  | nvmeIdentify (f : Fn) (entry list : Bytes)
  /-- R354. Admin Get Log Page returns error, SMART or changed-namespace logs. -/
  | nvmeGetLogPage (f : Fn) (entry list : Bytes)
  /-- R357. Admin Set Features sets queue count, interrupt coalescing or async events. -/
  | nvmeSetFeatures (f : Fn) (entry : Bytes)
  /-- R357. Admin Get Features reports a supported feature. -/
  | nvmeGetFeatures (f : Fn) (entry : Bytes)
  /-- R357. Admin command creating an I/O submission queue. -/
  | nvmeCreateIoSq (f : Fn) (entry : Bytes)
  /-- R357. Admin command creating an I/O completion queue. -/
  | nvmeCreateIoCq (f : Fn) (entry : Bytes)
  /-- R357. Admin command deleting an I/O submission queue. -/
  | nvmeDeleteIoSq (f : Fn) (entry : Bytes)
  /-- R357. Admin command deleting an I/O completion queue. -/
  | nvmeDeleteIoCq (f : Fn) (entry : Bytes)
  /-- R354. Admin Abort of an outstanding command. -/
  | nvmeAbort (f : Fn) (entry : Bytes)
  /-- R354. Admin Asynchronous Event Request armed for later events. -/
  | nvmeAsyncEventRequest (f : Fn) (entry : Bytes)
  /-- R373. An I/O Read is sent on a live path and its data checked and delivered. -/
  | nvmeRead (f : Fn) (q : Nat) (entry list : Bytes)
  /-- R368. An I/O Write is checked, encrypted if needed and sent, waiting behind overlapping unknown writes. -/
  | nvmeWrite (f : Fn) (q : Nat) (entry list : Bytes) (data : Option Bytes)
  /-- R354. An I/O Flush is sent to the target. -/
  | nvmeFlush (f : Fn) (q : Nat) (entry : Bytes)
  /-- R368. An I/O Write Zeroes is sent under the overlap rule. -/
  | nvmeWriteZeroes (f : Fn) (q : Nat) (entry : Bytes)
  /-- R368. An I/O deallocate is sent under the overlap rule. -/
  | nvmeDatasetManagement (f : Fn) (q : Nat) (entry : Bytes) (data : Option Bytes)
  /-- R354. An I/O Compare is sent to the target. -/
  | nvmeCompare (f : Fn) (q : Nat) (entry list : Bytes) (data : Option Bytes)
  /-- R427. A bed writes an NVMe submission entry as a message to its storage channel. -/
  | bedStorageSubmit (b : Nat) (entry : Bytes)
  /-- R369. A target's response completes a command to its submitter. -/
  | targetResponse (id dw0 status : Nat) (data plain : Bytes) (ecc : Bool)
  /-- R360. Every connection of a path is established and the path becomes LIVE. -/
  | stoPathUp (p : Nat) (ids : List NsIdent)
  /-- R361. A TCP or RDMA connection of a LIVE path fails and the path goes DOWN. -/
  | pathConnectionError (p : Nat)
  /-- R361. No reply within KATO takes the path DOWN. -/
  | keepAliveTimeout (p : Nat)
  /-- R361. A command without response within io_timeout_ms takes the path DOWN. -/
  | ioTimeout (p : Nat)
  /-- R361. RoCEv2 retries are exhausted and the path goes DOWN. -/
  | roceRetryExhausted (p : Nat)
  /-- R361. The target reports fatal status or disconnects. -/
  | targetFatalStatus (p : Nat)
  /-- R362. A DOWN path attempts to reconnect at doubling intervals up to 32 s. -/
  | pathReconnectTimer (p : Nat)
  /-- R367. hold_s expires in HELD; waiting commands fail and the namespace becomes UNAVAILABLE. -/
  | namespaceHoldExpiry (i : Nat)
  /-- R371. A detached attachment's outstanding commands are done and STO_NS_DETACH completes. -/
  | nsDetachComplete (i : Nat) (who : Option Nat) (f : Fn)
  /-- R383. A service or management thread issues one base-ISA instruction. -/
  | instructionIssue (n t : Nat)
  /-- R388. A thread stages one word of a channel message, claiming staging area and credit at the first. -/
  | chWr (n t rd rs1 rs2 : Nat)
  /-- R388. A thread stages its final word and publishes the message, locally or to another cluster. -/
  | chWre (n t rd rs1 rs2 : Nat)
  /-- R391. A thread takes the head message into its read buffer, blocking while the channel is empty. -/
  | chRdh (n t rd rs1 : Nat)
  /-- R391. A thread takes a message without blocking. -/
  | chTry (n t rd rs1 : Nat)
  /-- R391. A thread reads a word of its read buffer. -/
  | chRdw (n t rd rs1 : Nat)
  /-- R388. A thread discards its staged message and releases staging area and credit. -/
  | chAbt (n t rs1 : Nat)
  /-- R384. A thread reads the count of visible messages. -/
  | chCnt (n t rd rs1 : Nat)
  /-- R394. A thread returns an external message buffer and its credit. -/
  | chFree (n t rs1 rs2 : Nat)
  /-- R396. A thread acquires a lock, blocking while it is held. -/
  | lkAcq (n t rd rs1 : Nat)
  /-- R396. A thread acquires a free lock or learns it is held. -/
  | lkTry (n t rd rs1 : Nat)
  /-- R396. A thread releases a lock and the next waiter is granted it. -/
  | lkRel (n t rs1 : Nat)
  /-- R395. A thread starts, restarts or cancels a timer. -/
  | tmSet (n t rs1 rs2 : Nat)
  /-- R400. A thread requests service from its supervisor through a fault of cause 8. -/
  | ecall (n t : Nat)
  /-- R406. A thread halts under a debug session, or faults with cause 9. -/
  | ebreak (n t : Nat)
  /-- R395. A timer's delay ends and it delivers a timer message. -/
  | svcTimerExpiry (n k : Nat)
  /-- R397. A lock held longer than lock_limit_us triggers one notice. -/
  | lockLimitExpiry (n l : Nat)
  /-- R405. Every blocked thread has been stuck for stall_us and the supervisor is notified. -/
  | stallTimeout (n : Nat)
  /-- R398. A write to SVC_LOCK release frees a lock by force. -/
  | svcLockRelease (n l : Nat)
  /-- R403. Setting run starts a STOPPED or FAULTED thread at its pc. -/
  | svcThreadRun (n t : Nat)
  /-- R393. Setting a channel's enable starts it, or is refused for a bad slot range. -/
  | svcChanEnable (n ch cfg : Nat)
  /-- R393. Clearing enable discards messages, returns credits and faults blocked threads. -/
  | svcChanDisable (n ch cfg : Nat)
  /-- R420. A supervisor sets ready; when every cluster is ready the bed becomes RUNNING. -/
  | svcReadySet (n : Nat)
  /-- R421. A supervisor clears ready; when all have cleared the stop proceeds. -/
  | svcReadyClear (n : Nat)
  /-- R420. A bed not ready within its start timeout is stopped and FAILED. -/
  | startTimeout (b : Nat)
  /-- R421. The stop grace elapses and the device stops the bed. -/
  | stopGraceExpiry (b : Nat)
  /-- R426. A bed supervisor publishes new command slots. -/
  | svcCmdqDb (n tail : Nat)
  /-- R426. Setting a bed queue's enable starts fetching. -/
  | svcCmdqEnable (n cfg : Nat)
  /-- R426. Clearing a bed queue's enable stops fetching. -/
  | svcCmdqDisable (n cfg : Nat)
  /-- R418. A loaded service image is verified in B0 and stored or refused. -/
  | svcImageVerified (slot : Nat) (data : Bytes) (access signed : Bool)
  /-- R439. An MCTP message carrying a command arrives on an out-of-band queue. -/
  | oobCommandMessage (q : Nat) (body : Bytes)
  /-- R448. A command forwarded by the twin arrives on twin queue 0 and is executed. -/
  | twinForwardedCommand (op : Nat) (tag : Nat) (flags : Nat) (target epoch : Word) (params : Bytes)
  /-- R452. The drained ports' egress queues are empty, or 100 ms passed, and SYS_DRAIN completes. -/
  | sysDrained (p : Nat)
  /-- R453. 10 ms after the OK reply the package restart begins. -/
  | packageRestartBegin
  /-- R613. A fully written image is verified and SYS_FW_LOAD completes or is refused. -/
  | fwImageVerified (q : QueueId) (tag : Nat) (ok : Bool) (data : Bytes) (oroarnin : Bool) (owner : Option Owner) (digests : List Nat)
  /-- R473. The twin validates, loads its banks, journals and replies PREPARED or REFUSED. -/
  | prepareReceived (e : Nat)
  /-- R473. The coordinator makes the epoch current and sends COMMIT. -/
  | preparedReceived (e : Nat)
  /-- R474. The twin refuses to prepare and the fix ends ABORTED or BUSY with the stage open. -/
  | refusedReceived (e : Nat) (noTag : Bool) (addr : Nat)
  /-- R473. The twin makes the epoch current and replies COMMITTED. -/
  | commitReceived (e : Nat)
  /-- R473. The coordinator completes CFG_FIX with OK. -/
  | committedReceived (e : Nat)
  /-- R474. The twin discards its loaded banks. -/
  | abortReceived (e : Nat)
  /-- R474. No reply to PREPARE in 100 ms; the fix ends TIMEOUT and ABORT is sent. -/
  | prepareReplyTimeout
  /-- R471. No staged operation arrives for stage_timeout_s and the stage is discarded. -/
  | stageTimeout
  /-- R479. hold_ms elapses after an epoch stopped being current; remaining packets are dropped and it retires. -/
  | epochHoldExpiry (e : Nat)
  /-- R139. The reseed finishes, the entry is placed and the insertion completes. -/
  | tblReseedDone (t : Nat)
  /-- R267. The flush ends and completes with the count removed. -/
  | flowFlushComplete
  /-- R625. A session reaches its token's not_after and ends. -/
  | debugTokenExpiry (k : Nat)
  /-- R598. The handover's drain ends and the package becomes HANDED_OVER. -/
  | handoverDrained
  /-- R488. Delivers the staged message to an empty channel, or refuses it. -/
  | mbxSend (c len : Nat)
  /-- R489. A receiver read covering byte 63 clears full and signals the sender. -/
  | mbxMsgRead (c off len : Nat)
  /-- R490. Sets doorbell bits and signals the receiver. -/
  | mbxDbSet (c : Nat) (bits : Word)
  /-- R490. The receiver clears pending doorbell bits. -/
  | mbxDbClear (c : Nat) (bits : Word)
  /-- R490. Writes the doorbell mask; unmasking a pending bit signals. -/
  | mbxDbMaskWrite (c : Nat) (mask : Word)
  /-- R498. DDR5 training ends and every channel in use runs at the common speed. -/
  | memTrained (chs : List MemSpd)
  /-- R503. Patrol scrub reads a line and writes back a corrected word. -/
  | patrolScrubRead (a outcome slot sub dev : Nat) (last : Bool)
  /-- R506. Each second the DIMM sensor is read and refresh and request rates adjusted. -/
  | dimmThermalRead (c slot temp : Nat)
  /-- R507. A channel in use is lost by retries, DIMM fault or uncorrectable errors. -/
  | memoryChannelFailure (c cause : Nat)
  /-- R518. A cartridge is inserted and settlement begins. -/
  | cartPresenceAssert (sl : Nat) (id : Option (Nat × Bool))
  /-- R518. The cartridge's signed response is verified and its capability read and settled. -/
  | cartChallengeResponse (sl : Nat) (sig : Bool) (k : CartCap)
  /-- R518. Settlement does not end within 2 s and the cartridge is refused. -/
  | cartSettleTimeout (sl : Nat)
  /-- R526. Each 31.25 ms the ramping slots move 0.625 mW per laser. -/
  | cartRampStep (sl : Nat)
  /-- R525. A lit cartridge's latch opens and its mates step up within 100 µs. -/
  | cartLatchOpen (sl : Nat)
  /-- R525. A cartridge's presence opens and the slot becomes EMPTY. -/
  | cartPresenceOpen (sl : Nat)
  /-- R522. A laser's low light or maximum bias persists 10 µs; it is unbiased and its mate steps up. -/
  | laserFailure (sl j : Nat)
  /-- R524. An engine fault darkens its 32 lanes. -/
  | opticalEngineFault (e cause : Nat)
  /-- R517. A lit cartridge is unreachable for 1 s. -/
  | cartBusSilence (sl : Nat)
  /-- R534. Every 7 days a cartridge due for replacement is reported again. -/
  | cartReplaceReminder (sl : Nat)
  /-- R539. Every 60 s the governor reads canaries and acts on units needing margin. -/
  | governorScan (d : Nat) (l : List CanaryRead) (secs : Nat)
  /-- R543. The governor steps a die's rail by 5 mV, at most once per 10 ms. -/
  | governorRailStep (d : Nat)
  /-- R543. 5 ms after a step the rail monitor is read and compared. -/
  | railMonitorCheck (d mv : Nat)
  /-- R555. Daily the governor takes a contact sheet and writes it to both flash devices. -/
  | contactSheet (i : SheetIn)
  /-- R575. The scheduler starts a unit's periodic exposure. -/
  | scheduledExposure (p bank : Nat)
  /-- R576. One hour after a refused claim the scheduler tries again. -/
  | claimRetryTimer (p : Nat)
  /-- R566. A test inside a cloche ends; the work is grafted back or the ledger moves to FAULT. -/
  | exposureTestEnd (p : Nat) (pass : Bool) (applied : Nat) (fails : List (Nat × Nat)) (second : Bool) (cause : Nat)
  /-- R575. Hourly each monitor is compared with its reference. -/
  | referenceCheck (p mon : Nat) (light : Bool) (dev : Int)
  /-- R591. Every 100 µs the mirroring engine sends a heartbeat. -/
  | heartbeatSend
  /-- R591. A heartbeat arrives; a SUSPECT package returns to PROTECTED. -/
  | heartbeatReceived (seq state epoch : Nat) (lost : List Word)
  /-- R592. Three heartbeats are missed and a PROTECTED package enters SUSPECT and claims. -/
  | heartbeatMissed
  /-- R592. Every 10 ms a SUSPECT package resends its claim. -/
  | witnessClaimResend
  /-- R593. Every 10 ms the package reports to the witness. -/
  | witnessReport
  /-- R595. A SUSPECT package receives a grant and enters SOLE. -/
  | witnessGrant (path seq : Nat) (valid : Bool)
  /-- R595. A SUSPECT package receives a refusal and enters FENCED. -/
  | witnessRefusal (path seq : Nat) (valid : Bool)
  /-- R595. No verdict in 100 ms: package A enters SOLE and B FENCED. -/
  | verdictTimeout
  /-- R605. The witness becomes unreachable while PROTECTED. -/
  | twinWitnessLost (path : Nat)
  /-- R598. The twin's leave message puts this package into SOLE without the witness. -/
  | leaveMessageReceived
  /-- R586. A twin-link lane fails and is dropped; fewer than 16 lanes take the link down. -/
  | twinLaneFailure (lane : Nat)
  /-- R587. The twin link comes up, the version is settled and the pair key exchanged. -/
  | twinLinkUp (versions system package : Nat) (chain : Bool) (time : Option (Nat × Nat × Bool))
  /-- R599. The joiner has taken the leader's configuration and epoch. -/
  | joinConfigApplied (epoch : Nat) (base : List (Nat × Word)) (slots : List JoinSlot)
  /-- R599. Rule pool, objects, SAs and keys are copied and the flow resend starts. -/
  | joinStateCopied (objs : List JoinObj)
  /-- R590. An LACPDU updates a port's partner information and is sent to the twin. -/
  | lacpduReceived (p system key : Nat) (port : LacpPort)
  /-- R635. PWR_OK rises and B0 starts booting. -/
  | pwrOkRise (tkRefSel resetN shdnReqN : Bool)
  /-- R630. PWR_OK falls and the package is lost. -/
  | pwrOkFall
  /-- R642. RESET_N falls; DIMMs enter self-refresh for a package restart. -/
  | resetNAssert
  /-- R635. RESET_N is released and boot code runs from mask ROM. -/
  | resetNRelease (shdnReqN : Bool)
  /-- R610. At management's request a fabric die's boot window opens for its map. -/
  | fabricBootWindowOpen (d : Nat)
  /-- R617. Boot code sets locked and closes the die's boot window. -/
  | protCtrlLock (d : Nat)
  /-- R617. A boot window closes after 50 ms and the die stays out of service. -/
  | bootWindowTimeout (d : Nat)
  /-- R636. A die's start test ends and failing units are spared. -/
  | startTestEnd (d : Nat) (fails : List Nat) (ok : Bool)
  /-- R640. The start reaches full service and autostart beds are started. -/
  | fullService (rootstock full : Nat)
  /-- R639. A paired package without heartbeats 10 s after full service acts as SUSPECT. -/
  | twinAbsentAtStart
  /-- R643. An orderly shut-down begins: leave message, commands aborted, beds stopped. -/
  | shdnReqNAssert
  /-- R643. Beds are LOADED; flash records are written and DIMMs enter self-refresh. -/
  | shutdownBedsStopped
  /-- R643. Lasers are dark and OFF_SAFE is released. -/
  | shutdownLasersDark
  /-- R626. A restarting fabric die is drained and reset. -/
  | dieRestartDrained (d : Nat)
  /-- R626. The restarted die has copied its state and enables its ports. -/
  | dieRestartReady (d : Nat)
  /-- R649. TK_REF is lost and the timekeeper runs on REFCLK_MEM in holdover. -/
  | tkRefLoss
  /-- R649. TK_PPS is absent for 2 s under source 2 and the timekeeper enters holdover. -/
  | tkPpsLoss
  /-- R649. The PTP master is lost under source 3. -/
  | ptpMasterLoss
  /-- R649. The source returns and the timekeeper slews out of holdover. -/
  | timeSourceReturn (which : Nat) (off : Int)
  /-- R648. The lock condition of the source has held for its period. -/
  | timeLockAchieved
  /-- R654. A PTP message on a boundary-clock port is diverted to management. -/
  | ptpMessageReceived (p : Nat) (slave : Bool) (type domain sec ns : Nat) (off : Int)
  /-- R651. Hourly the time is written to flash. -/
  | timeFlashWrite
  /-- R654. A read of PORT_PTP_TXTS removes one transmit stamp from its queue. -/
  | portPtpTxtsRead (p : Nat)
  /-- R658. The log writer appends an unmasked event as one record. -/
  | logAppend
  /-- R674. A junction or engine-case sensor reading is acted on. -/
  | thermalReading (which : Nat) (temp : Int) (power : Nat)
  /-- R675. A die at 105 °C for 1 ms or an engine case at 85 °C trips the package. -/
  | firmwareTrip (d : Nat) (temp : Int)
  /-- R674. A die at 115 °C asserts THERMTRIP_N without firmware. -/
  | hardwareTrip (d : Nat) (temp : Int)
  /-- R18. A write to a register with no row of its own acts by its access code. -/
  | registerWrite (r : RegAt) (len v : Nat)
  /-- R74. A port's receiver detects local fault or high BER, or begins receiving remote fault, and starts sending remote fault and stops transmitting frames. -/
  | linkFaultDetected (p kind : Nat)
  /-- R74. The received stream is free of local and remote fault again, so the port stops sending remote fault and may transmit frames. -/
  | linkFaultCleared (p kind : Nat)
  /-- R634. PERST# of a host link or half is deasserted and the link begins training. -/
  | perstDeassert (link half : Nat)
  /-- R291. The host-link partner requests an L0p width change, and the device accepts it. -/
  | l0pPartnerRequest (link half : Nat) (narrow : Bool)
  /-- R586. A twin-link lane finishes training while the link is up and joins the lane set, and TWIN_LANES is raised. -/
  | twinLaneUp (lane : Nat)
  /-- R449. The final reply from the twin's execution of a forwarded or system-wide command arrives, and the command sends its single reply. -/
  | twinReplyReceived (tag : Nat) (isAccepted : Bool) (status detail : Nat) (result : Bytes)
  /-- R590. Partner information for a port, sent by the twin in class 3, arrives and decides whether members join their group's bucket table. -/
  | twinLacpInfoReceived (p system key : Nat)
  /-- R222. Mirrored IPsec SA state from the twin arrives and updates the local copy that a takeover starts from. -/
  | twinSaStateReceived (sa seq seen : Nat)
  /-- R450. An out-of-band MCTP endpoint is lost; its replies are discarded, its open stage is discarded and its debug sessions close. -/
  | oobEndpointLoss (q : Nat)
  /-- R18. A read of an RC register field returns its value and clears it. -/
  | registerReadClear (r : RegAt) (len : Nat)
  /-- R357. A write to an NVMe completion-queue head doorbell frees completion entries and restarts interrupt moderation. -/
  | nvmeCqDoorbell (f : Fn) (q head : Nat)
  /-- R517. A cartridge that was unreachable answers on its I3C bus again, and CART_PREPARE_SWAP on its pair is accepted again. -/
  | cartBusRestored (sl : Nat)
  /-- R521. A cartridge reports a fatal fault and its slot enters FAILED. -/
  | cartFatalFault (sl : Nat)
  /-- R524. A single optical-engine lane faults and darkens its own lane only. -/
  | laneFault (p : Nat)
  /-- R621. A record, such as a signed life-cycle request or a recovery command, is written through the IEEE 1149.1 boot mailbox. -/
  | bootMailboxWrite (lc : Option LcReq) (cmd : Option (Nat × Cmd))
  /-- R461. The counter blocks of a PORT_SNAPSHOT have been written, and the command completes with the bytes written or with FAULT. -/
  | portSnapshotComplete (q : QueueId) (tag : Nat) (ok : Bool)
  /-- R558. A contact sheet has been written to the buffer, and AGE_SHEET_READ completes. -/
  | ageSheetReadComplete (q : QueueId) (tag : Nat) (ok : Bool)
  /-- R659. The event-log records have been written, and LOG_READ completes with the next sequence and the lost-record count. -/
  | logReadComplete (q : QueueId) (tag : Nat) (ok : Bool)
  /-- R662. A trace buffer's entries have been written, and LOG_TRACE_READ completes. -/
  | logTraceReadComplete (q : QueueId) (tag : Nat) (ok : Bool)
  deriving DecidableEq, Repr

end Sys2Proof
end

