-- ==== Sys2Proof/Machine/Bits.lean ====
section
/-! DEFINITION. Bit fields, byte order and sparse-table operations that every family uses (R16: little-endian device
fields, network order inside network headers). -/

namespace Sys2Proof.Machine

/-- Bits `[lo + len - 1 : lo]` of a number. -/
def fld (w lo len : Nat) : Nat := w / 2 ^ lo % 2 ^ len

/-- One bit of a number as a Bool. -/
def bit (w i : Nat) : Bool := fld w i 1 == 1

/-- `w` with bits `[lo + len - 1 : lo]` replaced by the low bits of `v`. -/
def putFld (w lo len v : Nat) : Nat := w - fld w lo len * 2 ^ lo + v % 2 ^ len * 2 ^ lo

/-- `w` with bit `i` set. -/
def setBit (w i : Nat) : Nat := putFld w i 1 1

/-- `w` with bit `i` clear. -/
def clrBit (w i : Nat) : Nat := putFld w i 1 0

/-- A Bool as one bit. -/
def b2n (b : Bool) : Nat := if b then 1 else 0

/-- The number as a byte. -/
def byte (n : Nat) : Byte := BitVec.ofNat 8 n

/-- `n` bytes of a number, low byte first (R16). -/
def le : Nat → Nat → Bytes
  | 0, _ => []
  | n + 1, v => byte v :: le n (v / 256)

/-- `n` bytes of a number, high byte first (network order, R16). -/
def be (n v : Nat) : Bytes := (le n v).reverse

/-- The number a byte string spells, low byte first. -/
def ofLe : Bytes → Nat
  | [] => 0
  | b :: r => b.toNat + 256 * ofLe r

/-- The number a byte string spells, high byte first. -/
def ofBe (b : Bytes) : Nat := ofLe b.reverse

/-- `len` bytes from byte `off`, zero past the end. -/
def slice (b : Bytes) (off len : Nat) : Bytes :=
  let t := (b.drop off).take len
  t ++ List.replicate (len - t.length) 0

/-- The little-endian number in `len` bytes from byte `off`. -/
def rd (b : Bytes) (off len : Nat) : Nat := ofLe (slice b off len)

/-- The network-order number in `len` bytes from byte `off`. -/
def rdN (b : Bytes) (off len : Nat) : Nat := ofBe (slice b off len)

/-- `b` with the bytes of `d` written from byte `off` on; a part beyond the end is not written. -/
def splice (b : Bytes) (off : Nat) (d : Bytes) : Bytes :=
  b.take off ++ (d.take (b.length - off)) ++ b.drop (off + d.length)

/-- `b` cut or filled with zeros to `n` bytes. -/
def fitTo (n : Nat) (b : Bytes) : Bytes := slice b 0 n

/-- Every byte of the string is zero. -/
def allZero (b : Bytes) : Bool := b.all (· == 0)

/-- The 32-bit two's-complement reading of the low 32 bits. -/
def signed32 (n : Nat) : Int := (BitVec.ofNat 32 n).toInt

/-- The low `len` bits of an integer. -/
def wrap (len : Nat) (i : Int) : Nat := (i % (2 ^ len : Int)).toNat

/-- Saturating count: the smaller of `n` and the largest value of `len` bits. -/
def sat (len n : Nat) : Nat := min n (2 ^ len - 1)

/-- Ceiling of a division. -/
def ceilDiv (a b : Nat) : Nat := (a + b - 1) / b

/-- The entry numbered `k`. -/
def tget {α : Type} : Tab α → Nat → Option α
  | [], _ => none
  | (i, a) :: r, k => if i = k then some a else tget r k

/-- The entry numbered `k`, or the default. -/
def tgetD {α : Type} (t : Tab α) (k : Nat) (d : α) : α := (tget t k).getD d

/-- The table with entry `k` written, numbers kept rising. -/
def tput {α : Type} : Tab α → Nat → α → Tab α
  | [], k, v => [(k, v)]
  | (i, a) :: r, k, v =>
    if k < i then (k, v) :: (i, a) :: r
    else if k = i then (k, v) :: r
    else (i, a) :: tput r k v

/-- The table without entry `k`. -/
def tdel {α : Type} (t : Tab α) (k : Nat) : Tab α := t.filter (fun e => e.1 != k)

/-- Is there an entry numbered `k`? -/
def thas {α : Type} (t : Tab α) (k : Nat) : Bool := (tget t k).isSome

/-- Apply a function to entry `k` (the default where it is absent). -/
def tmod {α : Type} (t : Tab α) (k : Nat) (d : α) (f : α → α) : Tab α := tput t k (f (tgetD t k d))

/-- Add to a counter of a table of counters. -/
def tadd (t : Tab Nat) (k n : Nat) : Tab Nat := tput t k (tgetD t k 0 + n)

/-- Apply a function to every entry held. -/
def tmap {α : Type} (t : Tab α) (f : Nat → α → α) : Tab α := t.map (fun e => (e.1, f e.1 e.2))

/-- The numbers `lo, lo + 1, …, lo + n - 1`. -/
def span (lo n : Nat) : List Nat := (List.range n).map (lo + ·)

end Sys2Proof.Machine
end

