-- ==== Sys2Proof/Config.lean ====
section
/-! DEFINITION. What one part fixes and the free values: constants without a body, of which no proof knows a value. -/

namespace Sys2Proof.Config

/-- FREE VALUE. The n-th 32-bit draw of B0's random source (table seeds R137, flow seed R242, table key R206, SAKs R209,
cartridge challenges R518). Notes: assumption 2. -/
opaque random : Nat → BitVec 32

/-- FREE VALUE. Byte `i` of the output of the cited cipher (AES-GCM, AES-GMAC, AES-XTS, key wrap) on the input that the first
argument spells. The spec names the standards and gives no arithmetic. Notes: assumption 3. -/
opaque cipherByte : List (BitVec 8) → Nat → BitVec 8

/-- FREE VALUE. The verdict of a cited verification (an ECDSA signature R607, a key unwrap with its integrity check R205, an
authentication tag R203) under the key of a number on the bytes given. Notes: assumption 3. -/
opaque verifies : Nat → List (BitVec 8) → Bool

/-- FREE VALUE. A value the spec calls undefined or leaves unstated, by the model's running index. Notes: assumption 4. -/
opaque free : Nat → BitVec 64

/-- Fixed per part: package serial (DEV_ID, R279). -/
opaque packageSerial : BitVec 64

/-- Fixed per part: silicon revision (DEV_ID, R279; SYS_INFO, R451). -/
opaque siliconRev : BitVec 8

/-- Fixed per part: what the boot code derives from the package serial for its default base of the port MAC addresses (R685). -/
opaque bootMacBits : BitVec 48

/-- Fixed by the maker: Oroarnin's organisational identifier in its LLDP TLV (R86), which the spec does not state. -/
opaque oroarninOui : BitVec 24

/-- Fixed per part: the LLDP chassis identifier, which the spec does not state (R83). -/
opaque chassisId : BitVec 48

/-- Fixed by the firmware: byte `i` of the content of the ETS Recommendation TLV, which the spec does not state (R84). -/
opaque etsByte : Nat → BitVec 8

/-- Fixed by the owner: system priority and identifier of the LACP actor that both packages present (R199), which the spec does not
state. -/
opaque lacpSystem : BitVec 64

/-- Fixed by the firmware: LACP key of a link-aggregation group (R199), which the spec does not state. -/
opaque lacpKey : Nat → BitVec 16

/-- Fixed at MANUFACTURING: patterns planned for a test kind on a unit of a cluster number and unit number (R563). -/
opaque plannedPatterns : Nat → Nat → Nat → BitVec 32

/-- FREE VALUE. The set of a region's fragment table in which a key lies (R148 gives the sets and not the function). Notes:
assumption 23. -/
opaque fragSet : List (BitVec 8) → BitVec 12

/-- FREE VALUE. The set of a region's flow cache in which a key lies (R247 gives the sets and not the function). Notes:
assumption 32. -/
opaque flowSet : List (BitVec 8) → BitVec 12

/-- Fixed by the firmware: byte `i` of the Identify Controller data that the spec does not state (serial, model, firmware, OUI, controller
identifier, limits), R356. Notes: assumption 34. -/
opaque identifyByte : Nat → BitVec 8

/-- Fixed by the firmware: the hub service cluster (0-3) that serves a storage object, and the channel on which it receives a path's
traffic (R353, R379), which the spec does not state. -/
opaque stoCluster : Nat → BitVec 2
opaque stoChannel : Nat → BitVec 8

/-- FREE VALUE. Does a key-encryption key or CAK pass its integrity check at a use (R207), by the model's running index? Notes:
assumption 70. -/
opaque keyIntact : Nat → Bool

/-- FREE VALUE. The frames by which the cited transports (NVMe/TCP, RoCEv2: R354) carry a capsule: path, connection, the model's running
index, the capsule. Notes: assumption 38. -/
opaque fabricFrames : Nat → Nat → Nat → List (BitVec 8) → List (List (BitVec 8))

/-- Fixed by the firmware: the NVMe-oF host identifier (R360), which the spec does not state. -/
opaque stoHostId : BitVec 128

end Sys2Proof.Config
end

