-- ==== Sys2Proof/Machine/State.lean ====
section
/-! DEFINITION. The state of one Lorwaend package as plain data, group by group, and the state at power-up. Every field names
the rule of spec/ it comes from; reset values are those of the spec's register tables, or of a numbered assumption. -/

namespace Sys2Proof.Machine

/-! ## Faults and refusals -/

/-- Why the block stops. -/
inductive Fault where
  /-- An operand names a port, cluster, slot, function, session or other element that the package does not have (R20, R23).
  Raised by every row with an element operand. Safe: the hardware has no such element on which the event could happen. -/
  | noSuchElement
  deriving DecidableEq, Repr

/-- Why the model refuses a command. -/
inductive Refusal where
  /-- The row has no meaning yet. Safe. Raised by the dispatch only. -/
  | notModelled (mnemonic : String)
  deriving DecidableEq, Repr

/-! ## What leaves the block -/

/-- The body of a reply (R435): status, detail and result bytes. -/
structure Rep where
  status : Nat
  detail : Nat
  result : Bytes
  deriving DecidableEq, Repr

/-- Messages to the twin package (R589). -/
inductive TwinMsg where
  | heartbeat (seq state epoch : Nat) (lost : List Word)
  | prepare (epoch : Nat)
  | prepared (epoch : Nat)
  | refusedPrepare (epoch : Nat) (noTag : Bool) (addr : Nat)
  | commit (epoch : Nat)
  | committed (epoch : Nat)
  | abort (epoch : Nat)
  | forward (opcode tag : Nat) (flags : Nat) (target epoch : Word) (params : Bytes)
  | reply (opcode tag : Nat) (rep : Rep) (accepted : Bool)
  | stageDiscard (epoch cause : Nat)
  | leave
  | handover (on : Bool)
  | lacpInfo (port : Nat) (info : Bytes)
  | saState (sa : Nat) (record : Bytes)
  | flowDelta (record : Bytes)
  | joinStep (step : Nat)
  /-- An object that a join copies (R599 step 3). -/
  | copy (o : JoinObj)
  /-- The leader's layers at a join (R599 step 2): base words, and slots with priority, active flag and records. -/
  | config (epoch : Nat) (base : List (Nat × Word)) (slots : List JoinSlot)
  deriving DecidableEq, Repr

/-- Attributes of a memory request (R271, R290, R300): Relaxed Ordering, No Snoop and ID-Based Ordering. -/
structure TlpAttr where
  relaxed : Bool := false
  noSnoop : Bool := false
  ido : Bool := false
  deriving DecidableEq, Repr

/-- What leaves the block, in the order it leaves. -/
inductive Out where
  /-- A reply to a queue (R435): kind is byte [5]. -/
  | reply (q : QueueId) (tag opcode kind epoch : Nat) (rep : Rep)
  /-- A frame transmitted by the MAC of a port, destination address to the byte before the FCS (R91). -/
  | frame (port : Nat) (bytes : Bytes)
  /-- A frame that the MAC of a port ended with an invalid FCS (R71). -/
  | badFrame (port : Nat) (bytes : Bytes)
  /-- A port begins or stops transmitting remote fault (R74, R80). -/
  | remoteFault (port : Nat) (on : Bool)
  /-- A memory write request of a function. -/
  | hostWrite (f : Fn) (addr : Nat) (data : Bytes) (attr : TlpAttr)
  /-- A memory read request of a function with its tag. -/
  | hostRead (f : Fn) (addr len tag : Nat) (attr : TlpAttr)
  /-- An error message of a function (R294): class 1 correctable, 2 non-fatal, 3 fatal, and the status bits it reports. -/
  | aer (f : Fn) (cls status : Nat)
  /-- An MSI-X message of a function (R289). -/
  | msix (f : Fn) (vector : Nat)
  /-- The INTx pin of a PF (R289). -/
  | intx (f : Fn) (asserted : Bool)
  /-- A completion to the host: status 0 successful with data, 1 Unsupported Request, 2 Completer Abort. -/
  | completion (link status : Nat) (data : Bytes)
  /-- The return value of a register read. -/
  | readValue (addr value : Nat)
  /-- A message to the twin, of a class of R589. -/
  | twin (m : TwinMsg)
  /-- A packet to the twin (R198): group, queue, egress program, epoch number and bytes. -/
  | twinPacket (group queue : Nat) (program : Option Nat) (epoch : Nat) (bytes : Bytes)
  /-- A 64-byte message to the witness on a path (R593). -/
  | witness (path : Nat) (bytes : Bytes)
  /-- An output pin: 0 OFF_SAFE released, 1 THERMTRIP_N asserted (R633, R667). -/
  | pin (n : Nat) (on : Bool)
  /-- A capsule that the storage engine hands to the transport of a path's connection: path, connection, bytes. -/
  | target (path conn : Nat) (bytes : Bytes)
  /-- Report of a capacity loss to management: the pipeline cluster that nothing carries (R42). -/
  | capacityLoss (path : Word)
  /-- Bytes for the IEEE 1149.1 port: the public part of the package identity key (R620). -/
  | jtag (bytes : Bytes)
  /-- A request on a cartridge bus: slot, kind and bytes. -/
  | cart (slot kind : Nat) (bytes : Bytes)
  /-- A signal to a requester's end of a mailbox or a management notice. -/
  | signal (requester kind value : Nat)
  /-- The rail of a die commanded to a voltage in mV (R543). -/
  | rail (die mv : Nat)
  /-- A record written to the flash runtime store: kind, key and bytes. -/
  | flash (kind key : Nat) (bytes : Bytes)
  deriving DecidableEq, Repr

/-! ## Events, log, trace buffers and time (24) -/

/-- An event as it reaches the log writer (R657). -/
structure EvRec where
  code : Nat
  path : Word
  words : List Nat
  deriving DecidableEq, Repr

/-- A record of the event log (R657). -/
structure LogRec where
  seq : Nat
  sec : Nat
  ns : Nat
  code : Nat
  path : Word
  flags : Nat
  words : List Nat
  deriving DecidableEq, Repr

/-- One trace entry (R661). -/
structure TraceEntry where
  time : Nat
  code : Nat
  unit : Nat
  datum : Nat
  deriving DecidableEq, Repr

/-- A cluster's trace buffer (R661). -/
structure Trace where
  armed : Bool := false
  entries : List TraceEntry := []
  deriving DecidableEq, Repr

/-- The event log (R657-R660). -/
structure LogS where
  /-- Sequence of the next record (TIME_LOG.next). -/
  next : Nat := 0
  /-- Lost-record count (TIME_LOG.lost). -/
  lost : Nat := 0
  /-- Sequence of the oldest record of the ring in DDR5, and of the first record of this start (R658). -/
  oldest : Nat := 0
  base : Nat := 0
  /-- The ring of 1,024 records in G0 while DDR5 is not in use, oldest first (R660). -/
  g0 : List LogRec := []
  /-- The log writer's intake queue, oldest first (R658). -/
  intake : List EvRec := []
  /-- Records discarded at intake in the present second (R658). -/
  drops : Nat := 0
  /-- Trace buffers by cluster index (R661). -/
  traces : Tab Trace := []
  deriving DecidableEq, Repr

/-- The timekeeper (R647-R651). -/
structure TimeS where
  /-- The source that `locked` speaks of (R648). -/
  lockedTo : Nat := 0
  sec : Nat := 0
  ns : Nat := 0
  frac : Nat := 0
  /-- Microseconds since power-up: the model's elapsed count of the 1 µs tick. -/
  up : Nat := 0
  refPresent : Bool := false
  ppsPresent : Bool := false
  /-- A port is in SLAVE state with a master (R648, R649). -/
  masterPresent : Bool := false
  locked : Bool := false
  holdover : Bool := false
  /-- The timekeeper has been locked in this start (R653). -/
  wasLocked : Bool := false
  todSet : Bool := false
  /-- Latest measured offset in ns, signed 32 bits (TIME_OFFSET). -/
  offset : BitVec 32 := 0
  /-- Offset still to be slewed, in 1/65,536 ns, signed (R650). -/
  slew : Int := 0
  deriving DecidableEq, Repr

/-! ## Commands (14) -/

/-- A command that still owes its final reply (R436): the key names what its completion row is about. -/
structure Owed where
  queue : QueueId
  tag : Nat
  opcode : Nat
  epoch : Nat
  key : Nat
  /-- An ACCEPTED reply has been sent. -/
  accepted : Bool
  deriving DecidableEq, Repr

/-- A command executed on both packages that replies once (R449). -/
structure Joint where
  queue : QueueId
  tag : Nat
  opcode : Nat
  epoch : Nat
  /-- Tag of the forwarded copy on twin queue 0. -/
  twinTag : Nat
  /-- Forwarded to the twin alone (R448). -/
  only : Bool
  here : Option Rep
  there : Option Rep
  acceptedSent : Bool
  deriving DecidableEq, Repr

/-- Command handling. -/
structure CmdS where
  owed : List Owed := []
  joint : List Joint := []
  /-- Tag of the next copy forwarded on twin queue 0. -/
  nextTwinTag : Nat := 0
  /-- Targets that SYS_DRAIN holds drained, as path words (R452). -/
  drained : List Word := []
  deriving DecidableEq, Repr

/-! ## Configuration (15) -/

/-- One word record of an overlay slot (R466). -/
structure OvRec where
  addr : Nat
  value : Word
  mask : Word
  deriving DecidableEq, Repr

/-- An overlay slot. -/
structure OvSlot where
  active : Bool := false
  prio : Nat := 0
  recs : List OvRec := []
  deriving DecidableEq, Repr

/-- The base layer and the overlay slots (R464). -/
structure Layers where
  base : Tab Word := []
  slots : Tab OvSlot := []
  deriving DecidableEq, Repr

/-- A live epoch (R478): its number, pipeline tag, effective words and when it stopped being current. -/
structure Epoch where
  num : Nat
  tag : Nat
  words : Tab Word
  stopped : Option Nat
  deriving DecidableEq, Repr

/-- The open stage (R454, R470). -/
structure Stage where
  owner : QueueId
  epoch : Nat
  tag : Nat
  layers : Layers
  frozen : Bool
  last : Nat
  deriving DecidableEq, Repr

/-- A fix in progress at the coordinator after PREPARE was sent (R473). -/
structure Fix where
  queue : QueueId
  tag : Nat
  startEpoch : Nat
  epoch : Nat
  /-- Step 3 is done, or not needed: only immediate TBL operations in progress hold the commit (step 4). -/
  ready : Bool
  /-- The epoch has been made current here and COMMIT sent (step 4 done). -/
  committed : Bool
  deriving DecidableEq, Repr

/-- Configuration state of the package. -/
structure CfgS where
  /-- The layers as last fixed (R469; in flash and in the staging area). -/
  layers : Layers := {}
  /-- Live epochs, newest first; the head is current. Empty until the configuration is loaded (R477). -/
  live : List Epoch := []
  stage : Option Stage := none
  /-- The epoch this package has prepared and not committed, with the layers it would fix (R473 step 3). -/
  prepared : Option (Epoch × Layers) := none
  fix : Option Fix := none
  /-- The last fixed epoch number in flash, 0 none (R469, R477). -/
  flashEpoch : Nat := 0
  /-- CFG_CNT_n (R481). -/
  cnt : Tab Nat := []
  deriving DecidableEq, Repr

/-! ## Protection, boot and life cycle (22), power and reset (23) -/

/-- The PROT block of one die (R619). -/
structure DieProt where
  windowOpen : Bool := false
  locked : Bool := false
  timedOut : Bool := false
  /-- PROT_RANGE_i, 128 bits each. -/
  ranges : Tab Nat := []
  violCount : Nat := 0
  violReq : Nat := 0
  violKind : Nat := 0
  violAddr : Nat := 0
  /-- Timekeeper microsecond of the last PROT_VIOLATION event (R628). -/
  violRaised : Option Nat := none
  deriving DecidableEq, Repr

/-- The protection map. -/
structure ProtS where
  /-- PROT_REQ_c, 64 bits each. -/
  req : Tab Nat := []
  /-- PROT_MBX_m. -/
  mbx : Tab Nat := []
  dies : Tab DieProt := []
  deriving DecidableEq, Repr

/-- Life-cycle states (R620), numbered as DEV_LIFECYCLE gives (R279). -/
inductive Lifecycle where
  | blank | manufacturing | provisioned | deployed | returned | retired
  deriving DecidableEq, Repr

/-- The protection map before any owner section is written, and mask ROM's where the owner section is ignored (R609): every class and die for the PFs, the beds, the out-of-band queues and
the twin; SYS, VF and DMA for the VFs (DESIGN CHOICE, assumption 22). -/
def defaultReq : Tab Nat :=
  ((List.range 70).filter fun c => c != 64).map fun c => (c, if 16 ≤ c && c < 32 then 0x1F000181 else 0x1F01FFFF)

/-- A firmware image in a flash device (R608, R613). -/
structure FwImage where
  /-- Bytes written so far, by offset ranges (offset, length) of loads since the last verification. -/
  written : List (Nat × Nat) := []
  /-- The 512-byte header as written. -/
  header : Bytes := []
  verified : Bool := false
  /-- Why the image is not valid: 1 format, 2 signature (R611). -/
  bad : Nat := 1
  version : Nat := 0
  svn : Nat := 0
  /-- The five digests of R609, as numbers. -/
  digests : List Nat := []
  /-- The owner section, and whether it is present with a chain and a signature that verify (R609). -/
  owner : Owner := {}
  ownerOk : Bool := false
  deriving DecidableEq, Repr

/-- A debug session (R625). -/
structure Session where
  queue : QueueId
  kind : Nat
  seq : Nat
  notAfter : Nat
  deriving DecidableEq, Repr

/-- Where a die stands in its start or restart (R610, R617, R626, R636). -/
inductive DiePhase where
  | inReset | windowOpen | locked | starting | inService | outOfService | draining | copying
  deriving DecidableEq, Repr

/-- Boot and life-cycle state. -/
structure BootS where
  lifecycle : Lifecycle := .deployed
  /-- Rollback fuses blown (R612). -/
  fuses : Nat := 0
  imageA : FwImage := { verified := true, digests := [0, 0, 0, 0, 0], owner := { req := defaultReq }, ownerOk := true }
  imageB : FwImage := {}
  /-- Image the selector names and the sequence number of its copies (R610). -/
  selected : Nat := 0
  selSeq : Nat := 0
  /-- Image this start runs from. -/
  running : Nat := 0
  /-- Boot steps 1 to 5 of R610 have ended in this start. -/
  romDone : Bool := false
  /-- The hub die is in recovery (R611). -/
  recovery : Bool := false
  /-- Management firmware runs (R610 step 7). -/
  mgmtRuns : Bool := false
  /-- Phase of each die (0 hub, 1-4 fabric). -/
  phase : Tab DiePhase := []
  /-- A life-cycle request written to the boot mailbox (R621). -/
  lcRequest : Option LcReq := none
  /-- Image refused at this start and why, to be reported once management runs (R611). -/
  fallback : Option (Nat × Nat) := none
  /-- Owner material is in the key store (R620, R622). -/
  ownerKeys : Bool := true
  sessions : Tab Session := []
  nextSession : Nat := 1
  /-- Sequence of the last debug token accepted, kept in flash (R623). -/
  tokenSeq : Nat := 0
  deriving DecidableEq, Repr

/-- Pins and the start (R633-R646). -/
structure PowerS where
  pwrOk : Bool := false
  resetN : Bool := false
  /-- PERST# deasserted, by 2 × link + half (R633). -/
  perstHigh : Tab Bool := []
  shdnReqN : Bool := true
  offSafe : Bool := false
  thermtrip : Bool := false
  /-- Strap TK_REF_SEL (R633). -/
  tkRefSel : Bool := false
  /-- Cause of the present start as SYS_START codes it (R646). -/
  cause : Nat := 1
  /-- Microsecond at which boot code began. -/
  startAt : Nat := 0
  /-- Every die in service, DDR5 in use, configuration copied (R637). -/
  fullService : Bool := false
  /-- Microsecond of full service. -/
  fullAt : Nat := 0
  /-- Orderly shut-down step reached (R643): 0 none, 3, 5, 6. -/
  shutdown : Nat := 0
  /-- A package restart is owed after the reply of SYS_RESET (R453), and its cause. -/
  restartDue : Option Nat := none
  /-- Die whose SYS_RESET restart runs, with its phase. -/
  dieRestart : Option Nat := none
  /-- Fabric dies still to be restarted by SYS_FW_ACTIVATE (R614). -/
  restartList : List Nat := []
  /-- DIMMs in self-refresh (R642). -/
  selfRefresh : Bool := false
  /-- Service area and event log kept through this restart (R642). -/
  areaKept : Bool := false
  deriving DecidableEq, Repr

/-! ## The twin pair (21) -/

/-- TWIN_STATE.state (R606). -/
inductive TwinState where
  | alone | joining | protectedSt | suspect | sole | fenced | handedOver
  deriving DecidableEq, Repr

/-- Availability and twin state. -/
structure TwinS where
  state : TwinState := .alone
  since : Nat := 0
  version : Nat := 0
  /-- Lanes up, as a mask of 32 (R586). -/
  lanes : BitVec 32 := 0
  linkUp : Bool := false
  witnessPath : Nat := 0
  witnessReachable : Bool := true
  /-- TWIN_CFG and TWIN_WITNESS_ADDR, from flash (R606). -/
  paired : Bool := false
  witnessMgmt : Bool := false
  witnessPort0 : Nat := 0
  witnessPort1 : Nat := 0
  witnessAddr : Nat := 0
  /-- Values TWIN_WITNESS_SET staged into flash, in force at the next report (R604): kind, ports, address. -/
  witnessStaged : Option (Nat × Nat × Nat × Nat) := none
  /-- TWIN_CNT_n (R606). -/
  cnt : Tab Nat := []
  hbSent : Nat := 0
  /-- Microsecond at which the last heartbeat arrived (R592). -/
  hbAt : Option Nat := none
  missed : Nat := 0
  peerState : Nat := 0
  peerEpoch : Nat := 0
  peerSeq : Nat := 0
  peerLost : List Word := []
  /-- Sequence numbers of R593: last sent, last accepted from the witness. -/
  witSent : Nat := 0
  witSeen : Nat := 0
  claimOut : Bool := false
  /-- Join step reached 1-5 (R599), 0 none, and whether this package leads. -/
  joinStep : Nat := 0
  leads : Bool := false
  /-- State a joiner returns to when the link is lost (R599). -/
  before : TwinState := .alone
  /-- The pair key of this join, empty without one (R588). -/
  pairKey : Bytes := []
  /-- Handover in progress: 0 none, 1 to the twin, 2 back (R598). -/
  handover : Nat := 0
  deriving DecidableEq, Repr

/-! ## Spares, grafts and loss of elements (01, 21) -/

/-- Ledger states (R36). -/
inductive SpareState where
  | free | test | suspect | fault | age | failed
  deriving DecidableEq, Repr

/-- A spare ledger entry (R36). -/
structure Spare where
  standsFor : Word := 0
  state : SpareState := .free
  claims : Nat := 0
  since : Nat := 0
  deriving DecidableEq, Repr

/-- A graft in progress (R582): from source to target, returning work to a unit or moving it onto a spare. -/
structure Graft where
  source : Word
  target : Word
  returning : Bool
  /-- The source still runs (R584). -/
  healthy : Bool
  deriving DecidableEq, Repr

/-- Spares, cloches and losses. -/
structure SpareS where
  /-- Ledger by the spare's place (path word without system and package). -/
  ledger : Tab Spare := []
  grafts : List Graft := []
  /-- Units and clusters behind a cloche, by place. -/
  cloched : List Nat := []
  /-- Elements lost (clusters, regions, dies), by place (R32, R585). -/
  lost : List Nat := []
  /-- Units retired by a prune or held in FAULT, by place (R451). -/
  retired : List Nat := []
  /-- Ledger states and counts of claims stored in flash, by place (R36, R44). -/
  flash : Tab Spare := []
  deriving DecidableEq, Repr

/-! ## Ports (03) -/

/-- PORT_STATUS.state (R111). -/
inductive LinkState where
  | disabled | searching | settling | up | held
  deriving DecidableEq, Repr

/-- What a port knows of its partner from LLDP (R83-R88). -/
structure Partner where
  /-- The last LLDPDU (PORT_PARTNER_READ, R460). -/
  raw : Bytes
  /-- Microsecond at which it arrived. -/
  at_ : Nat
  /-- Willing bit and enabled priorities of the partner's PFC TLV, when present. -/
  pfc : Option (Bool × Nat)
  /-- Path word, max_frame, mirror_version and flags of the Oroarnin TLV, when present (R86). -/
  oro : Option (Word × Nat × Nat × Nat)
  deriving DecidableEq, Repr

/-- A port's link, MAC and flow-control state. -/
structure Port where
  st : LinkState := .disabled
  /-- Settled rate and FEC, coded as PORT_STATUS codes them. -/
  rate : Nat := 0
  fec : Nat := 0
  /-- Candidate rate of the transmitter and rate the receiver hunts at (R75). -/
  cand : Nat := 0
  hunt : Nat := 0
  /-- Rate at which the receiver holds lock. -/
  lock : Option Nat := none
  /-- Waiting for the partner to change its FEC (R77). -/
  fecWait : Bool := false
  /-- HELD without the 10 s limit, for a loop (R87). -/
  loopHeld : Bool := false
  /-- Times of transitions out of UP that count in the flap rule (R80). -/
  downs : List Nat := []
  localFault : Bool := false
  highBer : Bool := false
  remoteFault : Bool := false
  partner : Option Partner := none
  /-- LLDP frames of the first burst still to send (R83). -/
  burst : Nat := 0
  /-- The partner's PFC TLV has been found absent since link up (R84). -/
  dcbxAbsent : Bool := false
  pfcOper : Nat := 0
  xoff : Nat := 0
  /-- Egress queues a received PAUSE or PFC frame stops, as a mask (R105). -/
  paused : Nat := 0
  secured : Bool := false
  use : Tab Nat := []
  peak : Tab Nat := []
  /-- Times of the headroom drops of the last second by priority, and time of the last overrun event (R107, R108). -/
  hrDrops : Tab (List Nat) := []
  hrRaised : Option Nat := none
  /-- Synchroniser overflows and underruns of the present second (R108). -/
  syncRx : Nat := 0
  syncTx : Nat := 0
  /-- PORT_CNT_n (R113). -/
  cnt : Tab Nat := []
  /-- PORT_QCNT_q_n, by 8q + n (R202). -/
  qcnt : Tab Nat := []
  /-- PTP transmit stamps waiting: sequenceId, seconds, ns (R654). -/
  txts : List (Nat × Nat × Nat) := []
  txtsDrops : Nat := 0
  tcUncorrected : Nat := 0
  linkDelay : Nat := 0
  /-- What the shaper buckets lack, in bits: 0-7 the queues, 8 the port, and at 16 + i the microsecond of that reading (R187). -/
  tokens : Tab Nat := []
  /-- DWRR deficit of each queue (R186), the queue whose turn it is, and the next die of each queue (R188). -/
  deficit : Tab Nat := []
  turn : Nat := 0
  dieTurn : Tab Nat := []
  /-- LACP partner information: system, key, and the partner's port (R590). -/
  lacp : Option (Nat × Nat × LacpPort) := none
  /-- Partner information of the same group's members on the twin, last received (R590). -/
  lacpTwin : Option (Nat × Nat) := none
  deriving DecidableEq, Repr

/-! ## Packets, tables and buffers (04, 05) -/

/-- The IP header that the fixed front end recognised outermost in a frame, and the TCP or UDP header behind it, by their positions
(R98, R116). -/
structure FrontAt where
  v6 : Bool
  ip : Nat
  l4 : Option Nat
  udp : Bool
  frag : Bool
  deriving DecidableEq, Repr

/-- A packet inside the device (R114, R115). -/
structure Packet where
  /-- The frame without its FCS, after tag removal. -/
  bytes : Bytes
  inPort : Nat
  /-- The stamped epoch, as its number (R94). -/
  epoch : Nat
  prio : Nat
  /-- The 64-byte metadata block. -/
  md : Bytes
  /-- Recorded header slots: offset and capture. -/
  slots : Tab (Nat × Bytes) := []
  base : Nat := 0
  /-- Node at which a forced pass resumes, with the header's start (R124). -/
  resume : Option (Nat × Nat) := none
  /-- The next pass is an extra pass that starts the front end again (R166, R64). -/
  extra : Nat := 0
  /-- Cells held in use of the ingress port-priority (R101, R183). -/
  cells : Nat := 0
  /-- Microsecond of arrival, and receive stamp: seconds and ns (R652). -/
  arrived : Nat := 0
  stamp : Nat × Nat := (0, 0)
  /-- Fields of the first pass that give the entropy (R171). -/
  entropyKey : Option Bytes := none
  /-- The last protocol or Next Header value that the front end read in this pass, or in the pass that it resumes (R171, R218, R239). -/
  lastNh : Nat := 0
  /-- L4 bytes taken from the fragment table for a later fragment (R150). -/
  fragL4 : Option Bytes := none
  /-- What the front end recognised, at its present place in the frame (R98). -/
  front : Option FrontAt := none
  /-- It crossed the twin link: no receive stamp of this timekeeper (R655), never sent back (R198). -/
  fromTwin : Bool := false
  /-- Mirror sessions that have copied it (R164). -/
  mirrors : List Nat := []
  /-- Fragment table: 0 not consulted, 1 released from hold and consulted without being counted again, 2 done, 3 recirculated, after which
  it is consulted no more and flag [2] keeps its value (R149-R151, R166). -/
  frag : Nat := 0
  /-- Key of the entry that this first fragment resolves when its program completes (R149). -/
  fragKey : Option Bytes := none
  /-- What the completion entry says of TLS: flags [6], record ends [7], offset after the first failed end [9:8] (R335). -/
  tls : Nat × Nat × Nat := (0, 0, 0)
  deriving DecidableEq, Repr

/-- The disposition of a packet (R163): queue and egress program of a port or link-aggregation group, host link, pool, function and queue
pair, channel and cluster, multicast group, or recirculation. -/
inductive Fwd where
  | port (p q : Nat) (prog : Option Nat)
  | lag (g q : Nat) (prog : Option Nat)
  | host (link pool func qp : Nat)
  | chan (ch : Nat) (cluster : Word)
  | group (g : Nat)
  | recirc
  deriving DecidableEq, Repr

/-- Where a copy goes (R160). -/
inductive Dest where
  | port (p q : Nat)
  | host (f : Fn) (qp : Nat)
  | chan (ch : Nat) (cluster : Word)
  | twin (group q : Nat)
  deriving DecidableEq, Repr

/-- What kind of packet a copy is (R184). -/
inductive CopyKind where
  | normal | exception (reason : Nat) | mirror
  deriving DecidableEq, Repr

/-- One copy in a queue. -/
structure QCopy where
  /-- Number of the stored packet. -/
  id : Nat
  dest : Dest
  prog : Option Nat
  kind : CopyKind
  cells : Nat
  /-- Cells of the shared pool that it draws (R184). -/
  shared : Nat
  deriving DecidableEq, Repr

/-- A packet stored once in the buffer of a fabric die (R182, R178). -/
structure Stored where
  die : Nat
  pkt : Packet
  copies : Nat
  cells : Nat
  /-- Cells that it holds of the shared pool. -/
  shared : Nat
  deriving DecidableEq, Repr

/-- A version mark: the epoch it names, or unset (R133). -/
abbrev Mark := Option Nat

/-- An entry of the rule pool (R133), identical on the four dies (R27). -/
structure Entry where
  table : Nat
  key : Bytes
  program : Nat
  data : Bytes
  born : Mark
  died : Mark
  hit : Bool
  /-- Bucket and first slot, or stash position (R131, R135). -/
  place : Nat × Nat
  stash : Bool
  deriving DecidableEq, Repr

/-- A versioned object (R158). -/
structure Version (α : Type) where
  born : Mark
  died : Mark
  val : α
  deriving DecidableEq, Repr

/-- A multicast group version (R177). -/
structure Group where
  total : Nat
  srcPrune : Bool
  members : Tab Bytes
  deriving DecidableEq, Repr

/-- A link-aggregation group version: members (port, package) and the bucket table of 256 local ports, 1,024 for the twin
(R195, R196). -/
structure Lag where
  members : List (Nat × Nat)
  table : List Nat
  deriving DecidableEq, Repr

/-- A reseed in progress (R139). -/
structure Reseed where
  entry : Entry
  started : Nat
  queue : QueueId
  tag : Nat
  opcode : Nat
  deriving DecidableEq, Repr

/-- A fragment-table entry (R148-R153): state 0 PENDING, 1 RESOLVED, 2 EXCEPTION. -/
structure FragEntry where
  region : Nat
  key : Bytes
  st : Nat
  l4 : Bytes
  drop : Bool
  held : List (Packet × Nat)
  touched : Nat
  deriving DecidableEq, Repr

/-- Rule pool, stash, programs, templates, groups and parse state. -/
structure TblS where
  entries : List Entry := []
  /-- seed_t by table (R137). -/
  seeds : Tab Word := []
  /-- Descriptor words and key template under which a table's entries were placed, by table (R132). -/
  shapes : Tab (List Nat) := []
  loadHigh : Tab Bool := []
  reseed : Tab Reseed := []
  programs : Tab (List (Version (List (BitVec 64)))) := []
  templates : Tab (List (Version Bytes)) := []
  groups : Tab (List (Version Group)) := []
  lags : Tab (List (Version Lag)) := []
  frags : List FragEntry := []
  /-- Times of the fragments refused in the last second by region, and times of the events raised (R154). -/
  fragFull : Tab (List Nat) := []
  fragRaised : Tab Nat := []
  /-- TBL_RCNT, TBL_ACNT, TBL_CRY_CNT and TBL_FLOW_CNT by 64 × region + n (R156, R201, R237, R270). -/
  rcnt : Tab Nat := []
  acnt : Tab Nat := []
  ccnt : Tab Nat := []
  fcnt : Tab Nat := []
  /-- COUNT counters by 65,536 × region + index: packets and bytes (R181). -/
  counters : Tab (Nat × Nat) := []
  /-- Meter records by 32,768 × region + index, 256 bits (R181). -/
  meters : Tab Nat := []
  deriving DecidableEq, Repr

/-- The packet path between ports. -/
structure BufS where
  /-- Frames at the ports not yet parsed, in order of arrival. -/
  fresh : List Packet := []
  /-- Packets waiting at a parse unit for an extra pass, with 5 × region + cluster (R63). -/
  again : List (Nat × Packet) := []
  store : Tab Stored := []
  nextId : Nat := 0
  queues : Tab (List QCopy) := []
  /-- TBL_BUF_STATUS.shared_free_min by die. -/
  freeMin : Tab Nat := []
  /-- Next time at which a packet of a reason may pass its rate limit, by reason, in ns (R176). -/
  excNext : Tab Nat := []
  deriving DecidableEq, Repr

/-! ## Encryption (06) -/

/-- A key encryption key slot (R205). -/
structure Kek where
  key : Bytes
  /-- It failed its integrity check and is unusable until it is loaded again (R207). -/
  faulty : Bool := false
  deriving DecidableEq, Repr

/-- A live peer of an MKA participant (R209). -/
structure MkaPeer where
  sci : Nat
  priority : Nat
  suites : Nat
  heard : Nat
  pn : Nat
  deriving DecidableEq, Repr

/-- A MACsec secure association: next (transmit) or lowest acceptable (receive) PN. -/
structure MacSa where
  pn : Nat
  /-- The SAK, which no read returns (R204, R206). -/
  key : Bytes := []
  /-- The SA has used or accepted its last PN (R215). -/
  spent : Bool := false
  deriving DecidableEq, Repr

/-- The MKA participant and SAs of a port (R208-R216). -/
structure Mka where
  /-- Pre-shared CAK and CKN. -/
  cak : Option (Bytes × Bytes) := none
  peers : List MkaPeer := []
  keyServer : Bool := false
  /-- Settled suite, as PORT_MACSEC_STATUS codes it. -/
  suite : Nat := 0
  txAn : Nat := 0
  /-- Transmit SAs by AN. -/
  tx : Tab MacSa := []
  /-- Receive SAs by 4 × receive channel + AN, and the SCI of each receive channel. -/
  rx : Tab MacSa := []
  rxSci : Tab Nat := []
  /-- A SAK has been distributed and waits for the peer; its suite and the SAK (R209, R213). -/
  rekeying : Bool := false
  nextSuite : Nat := 0
  nextSak : Bytes := []
  keyFault : Bool := false
  /-- PORT_MSEC_CNT_n (R236). -/
  cnt : Tab Nat := []
  deriving DecidableEq, Repr

/-- An IPsec SA (R217-R223). -/
structure Sa where
  inbound : Bool
  esn : Bool
  tunnel : Bool
  udpEncap : Bool
  /-- The key, wrapped under the table key (R206). -/
  key : Bytes
  spi : Nat
  salt : Nat
  /-- Next outbound, or highest inbound, sequence number. -/
  seq : Nat
  window : Nat
  /-- Sequence numbers seen within the window, as a mask counted down from the highest. -/
  seen : Nat
  softSeq : Nat
  softRaised : Bool
  exhausted : Bool
  keyFault : Bool
  deriving DecidableEq, Repr

/-- A record of a TLS half's history (R226). -/
structure TlsHist where
  start : Nat
  len : Nat
  seq : Nat
  tag : Bytes
  deriving DecidableEq, Repr

/-- One half of a TLS session (R224-R228): st 1 in sync, 2 UNSYNCED, 3 PAUSED, 4 limit. -/
structure TlsHalf where
  /-- The key, wrapped under the table key (R206). -/
  key : Bytes
  iv : Bytes
  nextTcp : Nat
  recSeq : Nat
  st : Nat
  history : List TlsHist
  octets : Nat
  softRaised : Bool
  staleRaised : Option Nat
  keyFault : Bool
  /-- Bytes of the record in progress still expected after its header, and its length. -/
  left : Nat
  recLen : Nat
  /-- Header bytes and plaintext of the record in progress, and the TCP sequence number of its start. -/
  hdr : Bytes
  acc : Bytes
  recStart : Nat
  deriving DecidableEq, Repr

/-- Work waiting at a crypto cluster (R230). -/
structure CryptJob where
  pkt : Packet
  decrypt : Bool
  tls : Bool
  index : Nat
  /-- Host link of a TLS session (R225). -/
  link : Nat
  /-- Disposition of an encrypting packet. -/
  fwd : Option Fwd
  deriving DecidableEq, Repr

/-- Key store and crypto clusters. -/
structure CryS where
  keks : Tab Kek := [(0, { key := List.replicate 32 0 })]
  /-- The table key of this start, under which the records in DDR5 hold their keys wrapped (R206). -/
  tableKey : Bytes := []
  mka : Tab Mka := []
  sas : Tab Sa := []
  /-- TLS halves by 2 × (1,048,576 × link + session) + half. -/
  tls : Tab TlsHalf := []
  /-- Region that holds a record in its cache, by SA index or 2^21 + TLS session number (R221). -/
  holder : Tab Nat := []
  /-- Packets at each region's crypto input, oldest first. -/
  inputs : Tab (List CryptJob) := []
  /-- What the TLS token bucket of each region lacks, in bytes, and the microsecond of that reading (R230). -/
  tlsBucket : Tab (Nat × Nat) := []
  /-- IPsec SA state mirrored from the twin: next sequence number and record (R222). -/
  mirror : Tab Bytes := []
  deriving DecidableEq, Repr

/-! ## Stateful flows (07) -/

/-- A flow entry (R241) with its place; counts of the twin are kept apart (R263). -/
structure Flow where
  index : Nat
  key : Bytes
  natReply : Bool
  drop : Bool
  origA : Bool
  st : Nat
  profile : Nat
  region : Nat
  peer : Nat
  natAddr : Nat
  natPort : Nat
  mark : Nat
  created : Nat
  lastSeen : Nat
  timeout : Nat
  pktsAB : Nat
  bytesAB : Nat
  pktsBA : Nat
  bytesBA : Nat
  /-- The twin's contributions to the four counters. -/
  twin : Nat × Nat × Nat × Nat
  /-- Counters and last_seen as last written back (R248). -/
  saved : Nat × Nat × Nat × Nat × Nat
  /-- Direction of the first FIN: from a (R256). -/
  finA : Option Bool
  /-- Created by this package (R264). -/
  own : Bool
  /-- Fields changed since the last write-back (R248). -/
  dirty : Bool
  /-- Seconds that the engine adds to last_seen at its next sweep visit, after a step of the time (R651). -/
  owe : Int := 0
  deriving DecidableEq, Repr

/-- A packet parked in a region's miss queue (R249). -/
structure Parked where
  key : Bytes
  op : Nat
  profile : Nat
  /-- It comes from endpoint a; TCP flags; length at the start of its pass, FCS included. -/
  fromA : Bool
  flags : Nat
  len : Nat
  /-- The packet with its pass's edits applied. -/
  pkt : Packet
  /-- What the pass had decided: disposition, and the crypto request: decrypt, TLS, index. -/
  fwd : Option Fwd
  crypt : Option (Bool × Bool × Nat)
  deriving DecidableEq, Repr

/-- The flow store, caches and queues. -/
structure FlowS where
  seed : Word := 0
  entries : List Flow := []
  high : Bool := false
  /-- Region cache contents, most recently used first: region and entry index (R247). -/
  cache : Tab (List Nat) := []
  miss : Tab (List Parked) := []
  /-- Times of the overflows of the last second by region, and of the failures by pool, with the times of the events raised (R249, R260). -/
  missOver : Tab (List Nat) := []
  missRaised : Tab Nat := []
  natFail : Tab (List Nat) := []
  natRaised : Tab Nat := []
  /-- Deltas waiting for the twin (R263), and whether a resend runs. -/
  deltas : List Bytes := []
  /-- Microsecond at which the oldest of them was queued. -/
  deltaAt : Nat := 0
  lag : Nat := 0
  resync : Bool := false
  resent : Nat := 0
  /-- A flush in progress: zone, match flags, profile (R267). -/
  flush : Option (Nat × Nat × Nat) := none
  deriving DecidableEq, Repr

/-! ## Host links and functions (08, 09) -/

/-- One host link or half (R271-R275). -/
structure HalfLink where
  up : Bool := false
  /-- Trained rate in GT/s, width and flit mode; configured width. -/
  rate : Nat := 0
  width : Nat := 0
  flit : Bool := false
  degraded : Bool := false
  /-- The narrow width of L0p is in use (R291); the link is in L1 (R292). -/
  narrow : Bool := false
  inL1 : Bool := false
  /-- The host's enables of L0p and of ASPM L1 (R291, R292). -/
  l0pEnable : Bool := false
  l1Enable : Bool := false
  deriving DecidableEq, Repr

/-- VF states (R310); a PF stays `active`. -/
inductive VfState where
  | reset | disabled | active | shuttingDown | stopped
  deriving DecidableEq, Repr

/-- What a read in flight serves (R296-R298). -/
inductive ReadUse where
  | cmdQueue (q : Nat)
  | qpTx (qp : Nat)
  | qpRx (qp : Nat)
  | channel (ch : Nat)
  | other
  deriving DecidableEq, Repr

/-- A read in flight, or a quarantined or abandoned tag (R296-R298). -/
structure Read where
  tag : Nat
  use : ReadUse
  addr : Nat
  len : Nat
  /-- 0 in flight, 1 quarantined (completions discarded without error), 2 abandoned and quarantined by an FLR. -/
  st : Nat
  deriving DecidableEq, Repr

/-- A command queue of a function or cluster (R280, R281, R426). -/
structure CmdQueue where
  sqBase : Nat := 0
  rqBase : Nat := 0
  /-- PF_CQ_CFG or SVC_CMDQ_CFG low word: enable, no_snoop, size_log2, irq_en, vector. -/
  cfg : Nat := 0x40
  tail : Nat := 0
  head : Nat := 0
  running : Bool := false
  error : Bool := false
  cause : Nat := 0
  rqHead : Nat := 0
  rqTail : Nat := 0
  /-- Replies that wait for room in the reply ring (R281), and slots fetched of a command not yet complete. -/
  backlog : List Bytes := []
  deriving DecidableEq, Repr

/-- An MSI-X table entry (R288): address, data, mask, and its PBA bit. -/
structure Msix where
  addr : Nat := 0
  data : Nat := 0
  masked : Bool := true
  pending : Bool := false
  deriving DecidableEq, Repr

/-- A direct or queue pair context (R329): the fields the device uses, bytes [31:0] and [47:44] kept as written. -/
structure Qp where
  /-- Context bytes [31:0] as DMA_QP_SET wrote them. -/
  ctx : Bytes := []
  txHead : Nat := 0
  txTail : Nat := 0
  rxHead : Nat := 0
  rxTail : Nat := 0
  cqTail : Nat := 0
  cqHead : Nat := 0
  /-- 0 STOPPED, 1 RUNNING, 2 ERROR, 3 FLUSHING. -/
  st : Nat := 0
  phase : Bool := true
  cause : Nat := 0
  modCount : Nat := 0
  modTime : Nat := 0
  /-- Entries written since the last signal, and the moderation timer runs (R337). -/
  since : Nat := 0
  timer : Bool := false
  deriving DecidableEq, Repr

/-- A function of a host link (R276, R288-R299, R308). -/
structure Func where
  bme : Bool := false
  msixEnable : Bool := false
  intDisable : Bool := false
  /-- Device Control (R271): Enable Relaxed Ordering, Enable No Snoop, IDO Request Enable, and the codes n of Max Payload Size and Max Read
  Request Size, 128 × 2^n bytes. -/
  relaxed : Bool := true
  noSnoop : Bool := true
  ido : Bool := false
  maxPayload : Nat := 0
  maxRead : Nat := 2
  /-- Address bits of the base address registers 0 to 5 of a PF, and of VF BAR0 and VF BAR1 as 6 and 7 (R277, R302). -/
  bars : Tab Nat := []
  /-- AER (R271, R294): uncorrectable and correctable status, the first uncorrectable error's bit, and its header log. -/
  aerStatus : Nat := 0
  aerCorr : Nat := 0
  aerFirst : Nat := 0
  aerHeader : Nat := 0
  d3 : Bool := false
  /-- An FLR or reset of the function is running (R298). -/
  resetting : Bool := false
  /-- Device Control 2 completion timeout value (R295). -/
  ctoValue : Nat := 0
  /-- Vectors, and memory writes before them, held while the function may issue no request (R293, R297). -/
  held : List Nat := []
  heldWrites : List (Nat × Bytes × TlpAttr) := []
  msix : Tab Msix := []
  reads : List Read := []
  queues : Tab CmdQueue := []
  /-- PF_CTRL or VF_CTRL. -/
  ctrl : Nat := 0
  /-- PF_INTX_CAUSE and PF_INTX_MASK. -/
  intxCause : Nat := 0
  intxMask : Nat := 0
  /-- WIN_SHADOW_n, WIN_ACTIVE_n, old active entries of a running commit, and WIN_STATUS (R284-R287). -/
  shadow : Tab Nat := []
  active : Tab Nat := []
  winBusy : Bool := false
  winRefused : Bool := false
  winFirst : Nat := 0
  /-- SR-IOV of a PF: NumVFs, VF Enable, a deferred VF Enable (R302-R304). -/
  numVfs : Nat := 0
  vfEnable : Bool := false
  vfDeferred : Bool := false
  /-- State of a VF (R310) and its pending bits (R312). -/
  vf : VfState := .disabled
  enablePending : Bool := false
  bmePending : Bool := false
  /-- A VF_SUSPEND runs (R319); doorbells were recorded while STOPPED. -/
  suspending : Bool := false
  /-- Queue pairs by local number. -/
  qps : Tab Qp := []
  deriving DecidableEq, Repr

/-- A dirty-page log (R314-R318). -/
structure DirtyLog where
  fn : Fn
  bitmap : Nat
  base : Nat
  len : Nat
  /-- Page numbers marked in the live bitmap and in the snapshot being written, rising. -/
  live : List Nat
  snap : List Nat
  overflow : Bool
  reported : Bool
  harvesting : Bool
  deriving DecidableEq, Repr

/-- A direct DMA channel (R339-R348), by device channel number. -/
structure DmaCh where
  /-- DMA_CH_CTRL and the program registers at +0x08 to +0x47 as bytes. -/
  ctrl : Nat := 0
  prog : Bytes := []
  /-- The program in action: the registers as the enable found them. -/
  act : Bytes := []
  st : Nat := 5
  refused : Bool := false
  dirty : Nat := 0xFF
  count : Nat := 0
  assigned : Bool := false
  /-- 0 function, 1 bed. -/
  ownerKind : Nat := 0
  owner : Fn := { link := 0, half := 0, pool := 0, num := 0 }
  bed : Nat := 0
  /-- Holding register, source bytes read, and read data landed but not consumed (R327). -/
  hold : Bytes := []
  srcPos : Nat := 0
  landed : Bytes := []
  /-- Bytes of the destination's merged request that is not emitted yet (R342). -/
  merge : Bytes := []
  /-- Destination bytes left in the burst of a paced channel (R347). -/
  burst : Nat := 0
  deriving DecidableEq, Repr

/-- Hosts: links, functions, DMA. -/
structure HostS where
  /-- Bifurcation of each link, from flash (R275). -/
  bifurcated : Tab Bool := []
  /-- WIN_CFG.size_log2 from flash (R284). -/
  winLog2 : Nat := 24
  links : Tab HalfLink := []
  /-- Functions by link, half, pool and number (`fnKey`). -/
  funcs : Tab Func := []
  /-- QP_CNT_n by ((2 × link + pool) × 2048 + k) × 8 + n (R351). -/
  qpCnt : Tab Nat := []
  logs : Tab DirtyLog := []
  chans : Tab DmaCh := []
  /-- Next tag number of each link or half. -/
  nextTag : Tab Nat := []
  /-- Request lines asserted: 16 × cluster + line (R347). -/
  reqLines : List Nat := []
  /-- Channel last served of each engine, for the round robin (R326). -/
  lastServed : Tab Nat := []
  /-- Queue pair last started on each engine: function key × 512 + local number, for the round robin (R328). -/
  lastQp : Tab Nat := []
  /-- Generation of the resource directory, and the entries last published to each PF by requester code (R282, R283). -/
  dirGen : Nat := 0
  dir : Tab (List Bytes) := []
  deriving DecidableEq, Repr

/-! ## Storage (11) -/

/-- Path states (R360). -/
inductive PathState where
  | connecting | live | down
  deriving DecidableEq, Repr

/-- A storage path (R359-R362, R378). -/
structure StoPath where
  transport : Nat
  flags : Nat
  hostNqn : Nat
  subNqn : Nat
  conns : Nat
  depth : Nat
  inject : Nat
  remotePort : Nat
  ioTimeout : Nat
  localAddr : Bytes
  remoteAddr : Bytes
  kato : Nat
  st : PathState
  liveConns : Nat
  attempts : Nat
  /-- Seconds to the next reconnection attempt (R362). -/
  interval : Nat
  nextConn : Nat
  /-- The namespaces its subsystem reported when it became LIVE. -/
  idents : List NsIdent
  deriving DecidableEq, Repr

/-- A namespace (R363-R376): st as R365 codes it. -/
structure Ns where
  format : Nat
  flags : Nat
  paths : List Nat
  remoteNsid : Nat
  hold : Nat
  st : Nat
  capacity : Nat
  key : Option Bytes
  /-- Turn of the round robin (R366). -/
  turn : Nat
  deriving DecidableEq, Repr

/-- Who submits storage commands (R370, R377). -/
inductive Submitter where
  | controller (f : Fn)
  | bed (b : Nat)
  deriving DecidableEq, Repr

/-- An attachment (R370). -/
structure Attach where
  ns : Nat
  who : Submitter
  nsid : Nat
  write : Bool
  shared : Bool
  detaching : Bool
  deriving DecidableEq, Repr

/-- An I/O submission queue and completion queue of a controller (R357). -/
structure NvmeSq where
  base : Nat
  size : Nat
  cq : Nat
  tail : Nat
  head : Nat
  deriving DecidableEq, Repr

structure NvmeCq where
  base : Nat
  size : Nat
  vector : Nat
  ien : Bool
  tail : Nat
  head : Nat
  phase : Bool
  since : Nat
  timer : Bool
  deriving DecidableEq, Repr

/-- An NVMe controller (R355-R358). -/
structure Nvme where
  cc : Nat := 0
  ready : Bool := false
  /-- CSTS.SHST: 0 normal, 1 in progress, 2 complete. -/
  shst : Nat := 0
  aqa : Nat := 0
  asq : Nat := 0
  acq : Nat := 0
  intMask : Nat := 0
  /-- Submission and completion queues by number, 0 the admin pair. -/
  sqs : Tab NvmeSq := []
  cqs : Tab NvmeCq := []
  /-- Interrupt coalescing: threshold and time in 100 µs; asynchronous event configuration. -/
  coalesce : Nat := 0
  asyncCfg : Nat := 0
  /-- Command identifiers of armed Asynchronous Event Requests. -/
  aers : List Nat := []
  /-- Local NSIDs whose attachment changed, for the Changed Namespace List, and whether an event has announced it. -/
  changed : List Nat := []
  noticed : Bool := false
  /-- Completion entries that wait for room: completion queue and bytes (R357). -/
  held : List (Nat × Bytes) := []
  deriving DecidableEq, Repr

/-- A storage command that has not completed (R366-R368). -/
structure StoCmd where
  id : Nat
  who : Submitter
  /-- Submission queue and command identifier of the submitter. -/
  sq : Nat
  cid : Nat
  ns : Nat
  opc : Nat
  /-- LBA ranges: first and count. -/
  ranges : List (Nat × Nat)
  path : Nat
  conn : Nat
  /-- Outstanding at a target; its outcome on a path that went down is unknown and its reissue has not completed (R368). -/
  sent : Bool
  unknown : Bool
  /-- The result will be discarded (R358). -/
  orphan : Bool
  /-- The 64-byte submission entry, the data for the target, where the submitter's data lies, and its metadata pointer. -/
  entry : Bytes
  data : Bytes
  segs : List (Nat × Nat)
  md : Nat
  deriving DecidableEq, Repr

/-- Storage offload. -/
structure StoS where
  nqns : Tab Bytes := []
  paths : Tab StoPath := []
  nss : Tab Ns := []
  attach : List Attach := []
  nvme : Tab Nvme := []
  cmds : List StoCmd := []
  nextId : Nat := 0
  /-- At-rest key check values kept in flash (R376). -/
  checks : Tab Bytes := []
  deriving DecidableEq, Repr

/-! ## Service clusters (12, 13) -/

/-- Thread states (R409). -/
inductive ThState where
  | stopped | running | blockedRead | blockedStage | blockedCredit | blockedLock | faulted | halted
  deriving DecidableEq, Repr

/-- A blocked channel or lock instruction, executed again when it can go on: 0 CH.WR, 1 CH.WRE, 2 CH.RDH, 3 LK.ACQ; rd, rs1
value, rs2 value. -/
structure Blocked where
  op : Nat
  rd : Nat
  a : Nat
  b : Nat
  deriving DecidableEq, Repr

/-- A hardware thread (R380-R391, R400). -/
structure Thread where
  regs : Tab (BitVec 64) := []
  pc : BitVec 64 := 0
  st : ThState := .stopped
  object : Nat := 0
  cause : Nat := 0
  detail : Nat := 0
  instret : Nat := 0
  /-- Read buffer: message bytes, none when no message was taken. -/
  buf : Option Bytes := none
  /-- Outbound words staged for another cluster: target and words (R389). -/
  outbound : Option (Word × Nat × List (BitVec 64)) := none
  /-- Channel whose message DBG_ABANDON_MESSAGE discarded, plus 256 for one of another cluster (R407). -/
  abandoned : Option Nat := none
  /-- Load reservation: address and width (R383). -/
  resv : Option (Nat × Nat) := none
  /-- What the thread waits to execute again. -/
  waits : Option Blocked := none
  /-- State before a halt, to be taken again at DBG_RESUME (R406), and the session that halted it. -/
  haltedBy : Option Nat := none
  deriving DecidableEq, Repr

/-- A visible message: its bytes, whether it came from an external source, and its buffer index (R391, R394). -/
structure Msg where
  bytes : Bytes
  ext : Bool
  buffer : Option Nat
  deriving DecidableEq, Repr

/-- A channel (R387-R394). -/
structure Chan where
  cfg : Nat := 0
  writers : Nat := 0
  readers : Nat := 0
  bufReg : Nat := 0x8000000000000
  msgs : List Msg := []
  /-- Holder of the staging area and its words. -/
  stage : Option (Nat × List (BitVec 64)) := none
  /-- External buffers not returned. -/
  held : List Nat := []
  extDrops : Nat := 0
  cfgRefused : Bool := false
  /-- Threads blocked reading, staging and for credit, in order; remote writers wait as (cluster, thread). -/
  readersQ : List Nat := []
  stagersQ : List Nat := []
  creditQ : List Nat := []
  remoteQ : List (Nat × Nat) := []
  deriving DecidableEq, Repr

/-- A lock (R396-R399): holder and waiters as (cluster index, thread). -/
structure Lock where
  holder : Option (Nat × Nat) := none
  waiters : List (Nat × Nat) := []
  since : Nat := 0
  notified : Bool := false
  deriving DecidableEq, Repr

/-- A service cluster, or G0 (R380-R409, R426). -/
structure Clust where
  threads : Tab Thread := []
  chans : Tab Chan := []
  locks : Tab Lock := []
  /-- Running timers: channel and expiry microsecond (R395). -/
  timers : Tab (Nat × Nat) := []
  /-- SVC_CFG. -/
  cfg : Nat := 1000
  /-- Notices waiting for room on channel 255: thread, kind, bytes (R401). -/
  notices : List (Nat × Nat × Bytes) := []
  /-- A stall notice was sent and no thread has run since (R405). -/
  stallSent : Bool := false
  /-- SVC_READY and the command queue (R426). -/
  readyReg : Bool := false
  cmdq : CmdQueue := {}
  deriving DecidableEq, Repr

/-- Bed states (R419). -/
inductive BedState where
  | empty | loaded | starting | running | stopping | failed
  deriving DecidableEq, Repr

/-- What a stopping bed does next (R421-R424). -/
inductive AfterStop where
  /-- Completes SVC_STOP. -/
  | stop
  /-- SVC_REPLACE: starts the slot (R422). -/
  | replace (slot : Nat)
  /-- Device stop: FAILED with a cause, or an automatic restart (R423). -/
  | fail (cause : Nat)
  | restart
  /-- Orderly shut-down (R643) or a thermal or reset path: nothing further. -/
  | shutdown
  deriving DecidableEq, Repr

/-- A bed (R412-R425). -/
structure Bed where
  st : BedState := .empty
  slot : Option Nat := none
  after : AfterStop := .stop
  failCause : Nat := 0
  /-- Times of automatic restarts, in seconds of elapsed time (R423). -/
  restarts : List Nat := []
  deriving DecidableEq, Repr

/-- A service image in a slot (R417, R418). -/
structure Image where
  service : Nat
  iface : Nat
  version : Nat
  minClusters : Nat
  flags : Nat
  startTimeout : Nat
  window0 : Nat
  entry : Nat
  body : Bytes
  deriving DecidableEq, Repr

/-- Service clusters, G0, beds and images. -/
structure SvcS where
  /-- Clusters by s of R409; 85 is G0. -/
  clusters : Tab Clust := []
  beds : Tab Bed := []
  images : Tab Image := []
  /-- Version floor of each service (R418). -/
  floors : Tab Nat := []
  /-- An image load in progress: slot (R418). -/
  loading : Tab Bytes := []
  deriving DecidableEq, Repr

/-! ## Mailboxes (16) -/

/-- A mailbox channel (R487-R493). -/
structure Mbx where
  staging : Bytes := []
  msg : Bytes := []
  full : Bool := false
  refused : Bool := false
  aborted : Bool := false
  senderReset : Bool := false
  /-- MBX_IRQ of the sender and receiver ends. -/
  irqS : Nat := 0
  irqR : Nat := 0
  db : BitVec 32 := 0
  mask : BitVec 32 := 0xFFFFFFFF
  /-- The receiver end is in reset (R491). -/
  recvReset : Bool := false
  deriving DecidableEq, Repr

/-! ## DDR5 (17) -/

/-- A DDR5 channel (R496-R511): st 0 absent, 1 in use, 2 excluded, 3 lost. -/
structure MemCh where
  st : Nat := 0
  dimms : Nat := 0
  cause : Nat := 0
  gib : Nat := 0
  degraded : Nat := 0
  cnt : Tab Nat := []
  /-- Elapsed seconds of the corrected errors of each DIMM, and of its last MEM_CE_HIGH (R505). -/
  ce : Tab (List Nat) := []
  ceRaised : Tab Nat := []
  /-- Lines in which a device of a DIMM yielded corrected errors: DIMM, device, line, elapsed second. -/
  lines : List (Nat × Nat × Nat × Nat) := []
  /-- Elapsed seconds of the uncorrectable errors of each DIMM in the last 24 h (R556). -/
  ue : Tab (List Nat) := []
  /-- Elapsed microseconds of the channel's uncorrectable errors within the last second (R507). -/
  ueAt : List Nat := []
  /-- Double refresh (1) and halved request rate (2) per DIMM, and its sensor's highest reading since the last sheet (R506, R556). -/
  hot : Tab Nat := []
  tmax : Tab Nat := []
  /-- Mark of a lost channel in flash (R496). -/
  mark : Bool := false
  deriving DecidableEq, Repr

/-- Memory system. -/
structure MemS where
  /-- DDR5 and scratch bytes by internal address. -/
  cells : List Host.Cell := []
  autoHandover : Bool := true
  scrubHours : Nat := 24
  ceLimit : Nat := 1000
  /-- DDR5 is in use, speed code and channels (R497, R510). -/
  speed : Nat := 0
  chans : Tab MemCh := []
  /-- Channels in use when training ended, rising: the interleave (R500). -/
  trained : List Nat := []
  /-- Speed and channels (number, DIMMs, GiB) before the restart (R642). -/
  before : Nat × List (Nat × Nat × Nat) := (0, [])
  /-- Poisoned 64-byte lines by internal line address (R504), and those scrub has reported. -/
  poison : List Nat := []
  reported : List Nat := []
  deriving DecidableEq, Repr

/-! ## Optics (18) -/

/-- Slot states (R521). -/
inductive SlotState where
  | empty | settling | refused | sharing | alone | rampingDown | readyToRemove | rampingUp | failed
  deriving DecidableEq, Repr

/-- A laser of a slot (R535): target in 1/32 mW, measured light in mW, bias in mA, latest I80 in 0.01 mA, and failure. -/
structure Laser where
  target : Nat := 0
  monitor : Nat := 0
  bias : Nat := 0
  i80 : Nat := 0
  failed : Bool := false
  deriving DecidableEq, Repr

/-- A life record (R530): per laser the samples (I80 and bias at share, 0.01 mA), oldest first, at most 90; the second of its last
light. -/
structure LifeRec where
  serial : Nat
  litHours : Nat
  aloneHours : Nat
  firstLit : Nat
  working : Nat
  cls : Nat
  inserted : Bool
  adopted : Bool
  iMax : Nat
  samples : List (List (Nat × Nat))
  /-- Days on which its lasers were sampled: the next sample's place in the ring of 90. -/
  taken : Nat
  lastLit : Nat
  deriving DecidableEq, Repr

/-- A cartridge slot (R516-R529). -/
structure Slot where
  st : SlotState := .empty
  presence : Bool := false
  /-- The latch contact of a lit cartridge has opened (R525). -/
  latch : Bool := false
  cls : Nat := 0
  /-- Lasers of the settled mask that have not failed. -/
  working : Nat := 0
  serial : Nat := 0
  iMax : Nat := 0
  margin : Nat := 0
  lasers : Tab Laser := []
  /-- Steps of the present ramp taken (R526), of 64. -/
  step : Nat := 0
  busLost : Bool := false
  /-- The ramp up follows a settlement, so that it ends with CART_SWAP_DONE (R520, R526 step 8). -/
  swapping : Bool := false
  /-- CART_REPLACE_DUE has been raised: second of the last (R534). -/
  dueAt : Option Nat := none
  /-- Seconds of the present hours lit and in ALONE that the life record does not yet hold. -/
  litSec : Nat := 0
  aloneSec : Nat := 0
  deriving DecidableEq, Repr

/-- An optical engine (R524). -/
structure Engine where
  fault : Bool := false
  cause : Nat := 0
  /-- Lanes with a fault of their own. -/
  laneFault : Nat := 0
  deriving DecidableEq, Repr

/-- Optics. -/
structure CartS where
  slots : Tab Slot := []
  engines : Tab Engine := []
  lives : List LifeRec := []
  deriving DecidableEq, Repr

/-! ## Ageing (19), self-test (20), thermal (25) -/

/-- A canary as it was fused at manufacture (R538): its delay at 0.75 V and 70 °C, and its temperature coefficient in parts per million
per °C. Delays are in the unit of the time-to-digital converter. -/
structure CanaryFuse where
  dRef : Nat
  k : Int
  deriving DecidableEq, Repr

/-- A matched delay as it was fused (R538): its delay at tap 0, its temperature coefficient, and the canaries of the datapath that it
covers and of the handshake loop that contains it. -/
structure DelayFuse where
  tap0 : Nat
  k : Int
  covers : Nat
  loop : Nat
  deriving DecidableEq, Repr

/-- The fused values of a unit, never rewritten (R538). Those of a unit that the table does not list are this default: a datapath
canary, a loop canary and one matched delay (DESIGN CHOICE, assumption 114). -/
structure UnitFuse where
  canaries : List CanaryFuse := [{ dRef := 1000000, k := 0 }, { dRef := 2500000, k := 0 }]
  delays : List DelayFuse := [{ tap0 := 1200000, k := 0, covers := 0, loop := 1 }]
  deriving DecidableEq, Repr

/-- What a contact sheet adds to a unit's history (R549): hours in service, slowdown in 0.01 %, and the shrinkage of the guard of each
matched delay in 0.01 %. -/
structure AgePoint where
  hours : Nat
  slowdown : Nat
  shrink : List Nat
  deriving DecidableEq, Repr

/-- What the governor knows of a unit (R539-R560). -/
structure UnitAge where
  slowdown : Nat := 0
  /-- Tap of each matched delay (R48). -/
  taps : List Nat := []
  /-- Guard − 1 of each matched delay in 0.01 %. -/
  guards : List Nat := []
  /-- Margin in 0.01 %, signed. -/
  margin : Int := 0
  /-- Projection of R550 in 0.01 year, once a sheet has made one. -/
  years : Option Nat := none
  stale : Bool := false
  /-- Seconds in service, and the history over the contact sheets, oldest first (R549). -/
  served : Nat := 0
  past : List AgePoint := []
  /-- AGE_MARGIN_LOW has been raised: its guaranteed rate no longer holds (R546). -/
  low : Bool := false
  deriving DecidableEq, Repr

/-- A die's rail (R542-R547). -/
structure DieAge where
  rail : Nat := 720
  ceiling : Nat := 900
  lowMargin : Int := 0
  /-- A rail fault holds the rail (R543). -/
  held : Bool := false
  /-- What the governor wants of the rail: 0 nothing, 1 to raise it, 2 to lower it. -/
  want : Nat := 0
  /-- A step awaits its monitor reading; rail at the start of the present run of steps. -/
  awaiting : Bool := false
  runStart : Option Nat := none
  /-- Lowering is permitted after a prune (R544). -/
  lowering : Bool := false
  deriving DecidableEq, Repr

/-- Ageing state. -/
structure AgeS where
  active : Bool := false
  /-- Sheets written so far; the latest has sequence one less (R555). -/
  sheets : Nat := 0
  /-- Sheets whose CRC fails on both devices, by sequence (R558). -/
  lost : List Nat := []
  /-- Sheet contents in flash by slot of the ring. -/
  ring : Tab Bytes := []
  sheetTime : Nat := 10800
  lastSheet : Nat := 0
  dies : Tab DieAge := []
  /-- Units by place, and what was fused for them. -/
  units : Tab UnitAge := []
  fuses : Tab UnitFuse := []
  /-- The governor has been active since the previous sheet (R556). -/
  steady : Bool := false
  /-- Units whose prune waits for an exposure of their spare (R41). -/
  waiting : List Nat := []
  /-- Package projection in 0.01 year at the last report of AGE_PROJECTION_LOW. -/
  projReported : Option Nat := none
  projection : Nat := 65535
  deriving DecidableEq, Repr

/-- A test result record (R577, R579). -/
structure TestRec where
  outcome : Nat
  kind : Nat
  duration : Nat
  time : Nat
  applied : Nat
  planned : Nat
  fail : Nat
  deriving DecidableEq, Repr

/-- An exposure in progress (R566). -/
structure Exposure where
  target : Word
  kind : Nat
  /-- Place of the claimed spare, when the route uses one. -/
  spare : Option Nat
  /-- Claim under which it runs: 0 TEST, 1 SUSPECT retest, 2 a spare's own. -/
  why : Nat
  /-- Memory bank of an array. -/
  bank : Nat
  /-- The graft of step 2 has completed. -/
  begun : Bool
  started : Nat
  /-- The test has ended, with its record and the cause of a cut-short one; the work is being grafted back. -/
  result : Option (TestRec × Nat) := none
  deriving DecidableEq, Repr

/-- Self-test state. -/
structure TestS where
  running : List Exposure := []
  /-- Result records, newest first, and seconds of the last pass, by place of the unit. -/
  records : Tab (List TestRec) := []
  period : Nat := 7
  cperiod : Tab Nat := []
  /-- Units overdue, with the periods reported (R576), and the second from which a unit that never passed counts. -/
  overdue : Tab Nat := []
  since : Option Nat := none
  lastPass : Tab Nat := []
  /-- Spare rows used and memory banks retired, by 16 × place + bank (R570). -/
  rowsUsed : Tab Nat := []
  retired : List Nat := []
  /-- Exposures are inhibited by temperature, or by a rail fault, by die (R568). -/
  hot : Bool := false
  railHold : List Nat := []
  /-- Claims to be tried again: unit places (R576). -/
  retry : List Nat := []
  deriving DecidableEq, Repr

/-- Thermal readings (R674, R678). -/
structure ThermS where
  junction : Tab Int := []
  peak : Tab Int := []
  power : Tab Nat := []
  cases : Tab Int := []
  high : Bool := false
  /-- Trip record in flash: die, kind, temperature (R675). -/
  trip : Option (Nat × Nat × Int) := none
  tripReported : Bool := false
  deriving DecidableEq, Repr

/-- Values in flash that the owner section or other chapters keep there (R608). -/
structure FlashS where
  /-- System number and package bit (R2, DEV_ID). -/
  system : Nat := 0
  package : Nat := 0
  /-- Seconds of the timekeeper at the last flash write (R651). -/
  time : Nat := 0
  deriving DecidableEq, Repr

/-! ## The state of the block -/

/-- The state of one Lorwaend package and the commands that wait for it. -/
structure State where
  /-- Commands waiting, first in, first out. -/
  pending : List Instr
  /-- Command packets fetched or received that have not started, with their opcodes (R436, R443, R434). -/
  waiting : List (Nat × Cmd)
  /-- What has left the block, oldest first. -/
  out : List Out
  /-- The model's own running index of free values. -/
  freeIx : Nat
  /-- Event, mask and other plain registers by internal address, where no typed field holds them. -/
  regs : Tab Word
  time : TimeS
  log : LogS
  cmd : CmdS
  cfg : CfgS
  prot : ProtS
  boot : BootS
  power : PowerS
  twin : TwinS
  spare : SpareS
  ports : Tab Port
  tbl : TblS
  buf : BufS
  cry : CryS
  flow : FlowS
  host : HostS
  sto : StoS
  svc : SvcS
  mbx : Tab Mbx
  mem : MemS
  cart : CartS
  age : AgeS
  test : TestS
  therm : ThermS
  flash : FlashS
  deriving DecidableEq, Repr

/-- The machine before its first start: PWR_OK and RESET_N low, nothing booted, every register at its After reset value
(R635, R641). The values that the spec does not state are those of assumption 1. -/
def State.reset : State where
  pending := []
  waiting := []
  out := []
  freeIx := 0
  regs := []
  time := {}
  log := {}
  cmd := {}
  cfg := {}
  prot := {}
  boot := {}
  power := {}
  twin := {}
  spare := {}
  ports := []
  tbl := {}
  buf := {}
  cry := {}
  flow := {}
  host := {}
  sto := {}
  svc := {}
  mbx := []
  mem := {}
  cart := {}
  age := {}
  test := {}
  therm := {}
  flash := {}

end Sys2Proof.Machine
end

