-- ==== Sys2Proof/Machine/Paths.lean ====
section
/-! DEFINITION. Path words, the elements a package has, and where ports, lanes, clusters and units lie (R2-R12, R20-R25, R409,
R557). A place is a path word without its system and package fields. -/

namespace Sys2Proof.Machine

def pSystem (w : Nat) : Nat := fld w 28 4
def pPackage (w : Nat) : Nat := fld w 27 1
def pDie (w : Nat) : Nat := fld w 24 3
def pRegion (w : Nat) : Nat := fld w 20 4
def pCluster (w : Nat) : Nat := fld w 15 5
def pUnit (w : Nat) : Nat := fld w 8 7
def pReserved (w : Nat) : Nat := fld w 0 8

/-- The place of a path word. -/
def place (w : Nat) : Nat := w % 2 ^ 27

/-- The place with the given fields. -/
def mkPlace (die region cluster unit : Nat) : Nat := die * 2 ^ 24 + region * 2 ^ 20 + cluster * 2 ^ 15 + unit * 2 ^ 8

def clusterPlace (die region cluster : Nat) : Nat := mkPlace die region cluster 127
def regionPlace (die region : Nat) : Nat := mkPlace die region 31 127
def diePlace (die : Nat) : Nat := mkPlace die 15 31 127
/-- Target P, the package (R451). -/
def packagePlace : Nat := mkPlace 7 15 31 127

/-- The place of the cluster, region or die that holds a place. -/
def clusterOf (p : Nat) : Nat := clusterPlace (pDie p) (pRegion p) (pCluster p)
def regionOf (p : Nat) : Nat := regionPlace (pDie p) (pRegion p)
def dieOf (p : Nat) : Nat := diePlace (pDie p)

/-- The path word of a place in this package (R2). -/
def pathOf (s : State) (p : Nat) : Word := BitVec.ofNat 32 (s.flash.system * 2 ^ 28 + s.flash.package * 2 ^ 27 + p % 2 ^ 27)

/-- Clusters of fabric regions, hub region 0 and hub region 1 (R7, R20). -/
def fabricClusters : List Nat := [0, 1, 2, 3, 4, 8, 9, 10, 11, 12, 16, 17]
def hub0Clusters : List Nat := [8, 9, 10, 11, 12, 20, 21, 22, 23]
def hub1Clusters : List Nat := [24, 25, 26, 28, 29, 30]

/-- Clusters of a region of a die. -/
def clustersIn (die region : Nat) : List Nat :=
  if die == 0 then (if region == 0 then hub0Clusters else if region == 1 then hub1Clusters else [])
  else if die ≤ 4 && region < 4 then fabricClusters else []

/-- Regions of a die. -/
def regionsIn (die : Nat) : List Nat := if die == 0 then [0, 1] else if die ≤ 4 then [0, 1, 2, 3] else []

/-- Units of a cluster, ascending (R23). -/
def unitsOf (region cluster : Nat) : List Nat :=
  if cluster < 5 then span 0 10
  else if 8 ≤ cluster && cluster ≤ 12 then span 0 9 ++ [16, 17, 18, 19]
  else if cluster == 16 then span 0 5
  else if cluster == 17 then
    span 0 66 ++ (if region % 2 == 0 then [96, 97] else []) ++ span 112 9
  else if 20 ≤ cluster && cluster ≤ 23 then span 0 10
  else if 24 ≤ cluster && cluster ≤ 26 then span 0 4 ++ [8]
  else if cluster == 28 then span 0 9 ++ span 120 6
  else if cluster == 29 then span 0 4
  else if cluster == 30 then [0, 1]
  else []

def hasDie (die : Nat) : Bool := die ≤ 4
def hasRegion (die region : Nat) : Bool := (regionsIn die).contains region
def hasCluster (die region cluster : Nat) : Bool := (clustersIn die region).contains cluster
def hasUnit (die region cluster unit : Nat) : Bool :=
  hasCluster die region cluster && (unitsOf region cluster).contains unit

/-- The level a place names (R4-R6). -/
inductive Level where
  | package | die | region | cluster | unit | broadcast | absent
  deriving DecidableEq, Repr

/-- A specific field below an all-ones field makes a broadcast path (R6). -/
def isBroadcast (p : Nat) : Bool :=
  (pDie p == 7 && (pRegion p != 15 || pCluster p != 31 || pUnit p != 127)) ||
  (pRegion p == 15 && (pCluster p != 31 || pUnit p != 127)) ||
  (pCluster p == 31 && pUnit p != 127)

/-- Do the specific fields match, an all-ones field matching every value? -/
def fieldMatch (f ones v : Nat) : Bool := f == ones || f == v

/-- Every unit the package has, by ascending place: die, region, cluster, unit. -/
def allClusters : List Nat :=
  (span 0 5).flatMap fun d => (regionsIn d).flatMap fun r => (clustersIn d r).map fun c => clusterPlace d r c

def unitPlaces (cl : Nat) : List Nat := (unitsOf (pRegion cl) (pCluster cl)).map fun u => mkPlace (pDie cl) (pRegion cl) (pCluster cl) u

def allUnits : List Nat := allClusters.flatMap unitPlaces

/-- Units with a record in the contact sheet (R557): all but the cartridge-slot units. -/
def sheetUnits : List Nat := allUnits.filter fun p => !(pCluster p == 17 && (pUnit p == 96 || pUnit p == 97))

/-- Index of a unit in the order of R557. -/
def unitIndex (p : Nat) : Nat := sheetUnits.idxOf p

/-- Index of a cluster in ascending path word (TEST_CPERIOD_i, trace buffers). -/
def clusterIndex (cl : Nat) : Nat := allClusters.idxOf cl

/-- Does some unit of the package match the broadcast place? (R6) -/
def broadcastHits (p : Nat) : Bool :=
  allClusters.any fun cl => fieldMatch (pDie p) 7 (pDie cl) && fieldMatch (pRegion p) 15 (pRegion cl) &&
    fieldMatch (pCluster p) 31 (pCluster cl) && (pUnit p == 127 || (unitsOf (pRegion cl) (pCluster cl)).contains (pUnit p))

/-- What a place names (R3-R6). -/
def levelOf (p : Nat) : Level :=
  if isBroadcast p then (if broadcastHits p then .broadcast else .absent)
  else if pDie p == 7 then .package
  else if !hasDie (pDie p) then .absent
  else if pRegion p == 15 then .die
  else if !hasRegion (pDie p) (pRegion p) then .absent
  else if pCluster p == 31 then .region
  else if !hasCluster (pDie p) (pRegion p) (pCluster p) then .absent
  else if pUnit p == 127 then .cluster
  else if (unitsOf (pRegion p) (pCluster p)).contains (pUnit p) then .unit
  else .absent

/-- Die, region and global region number of a port (R11). -/
def portDie (p : Nat) : Nat := p / 256 + 1
def portRegion (p : Nat) : Nat := p / 64 % 4
def gRegion (die region : Nat) : Nat := 4 * (die - 1) + region
def portG (p : Nat) : Nat := p / 64
def gDie (g : Nat) : Nat := g / 4 + 1
def gReg (g : Nat) : Nat := g % 4

/-- The MAC unit of a port (R9). -/
def macPlace (p : Nat) : Nat := mkPlace (portDie p) (portRegion p) 17 (p % 64)

/-- The port of a MAC unit's place. -/
def macPort (p : Nat) : Nat := 256 * (pDie p - 1) + 64 * pRegion p + pUnit p

/-- A unit of region g's port cluster. -/
def l0Place (g unit : Nat) : Nat := mkPlace (gDie g) (gReg g) 17 unit

/-- The interface of an engine, and the unit of a cartridge slot (R23). -/
def enginePlace (e : Nat) : Nat := mkPlace (e / 8 + 1) (e % 8 / 2) 17 (64 + e % 2)
def slotPlace (sl : Nat) : Nat := mkPlace (sl / 4 + 1) (2 * (sl % 4 / 2)) 17 (96 + sl % 2)

/-- Place of service cluster s of R409; 85 is G0. -/
def svcPlace (n : Nat) : Nat :=
  if n == 85 then clusterPlace 0 1 28
  else if 80 ≤ n then clusterPlace 0 0 (8 + (n - 80))
  else clusterPlace (n / 20 + 1) (n / 5 % 4) (8 + n % 5)

/-- The service cluster number of a cluster's place, 86 when it is none (G0 is 85). -/
def svcIndex (p : Nat) : Nat :=
  if pCluster p == 28 then 85
  else if 8 ≤ pCluster p && pCluster p ≤ 12 then
    (if pDie p == 0 then 80 + (pCluster p - 8) else 5 * (4 * (pDie p - 1) + pRegion p) + (pCluster p - 8))
  else 86

/-- Place of the PCIe controller, of an engine and of the queue manager of a link (R23). -/
def pciePlace (q : Nat) : Nat := mkPlace 0 0 (20 + q) 8
def dmaPlace (e : Nat) : Nat := mkPlace 0 0 (20 + e / 8) (e % 8)
def qmPlace (q : Nat) : Nat := mkPlace 0 0 (20 + q) 9

def g0Place : Nat := clusterPlace 0 1 28
def b0Place : Nat := clusterPlace 0 1 29
def t0Place : Nat := clusterPlace 0 1 30
def timePlace : Nat := mkPlace 0 1 28 120
def memPlace (ch : Nat) : Nat := mkPlace 0 1 (24 + ch / 4) (ch % 4)
def lookupPlace (g : Nat) : Nat := mkPlace 0 1 (24 + g) 8

end Sys2Proof.Machine
end

