-- ==== Sys2Proof/Machine/Regmap.lean ====
section
/-! DEFINITION. The configuration words (R465): for each internal address the mask of its RW bits and its After reset value, from
the register tables of R111, R155, R200, R235, R269, R413, R481, R665 and R681. -/

namespace Sys2Proof.Machine

/-- Base addresses of the blocks. -/
def portBase : Nat := 0x00C000000000
def tblBase : Nat := 0x00C400000000
def cfgBase : Nat := 0x00C800000000
def bedBase : Nat := 0x00C800010000

/-- Internal address of a register of port `p` (R110). -/
def portAddr (p off : Nat) : Nat := portBase + p * 0x1000 + off

/-- Is `off` one of `n` words at `base`, `base + stride`, …? -/
def inRow (off base stride n : Nat) : Bool :=
  base ≤ off && (off - base) % stride == 0 && (off - base) / stride < n

/-- RW mask and reset value of a word of the port block. -/
def portWord (off : Nat) : Nat × Nat :=
  if off == 0x000 then (0x7FF7F, 0x5007E)
  else if off == 0x008 then (0x3FFF, 9600)
  else if off == 0x00C then (0xFFFFFF, 0xFFFF00)
  else if off == 0x010 then (0xF, 0)
  else if off == 0x014 then (0xFFFFFFFF, 0x810088A8)
  else if off == 0x018 then (0xFFFFFFFF, 0)
  else if off == 0x024 then (0x1FF, 0)
  else if off == 0x030 then (0x1FFF, 0)
  else if off == 0x038 then (0xFFFFFFFF, 0)
  else if inRow off 0x040 4 8 then (0xFFFFFF, 0)
  else if inRow off 0x060 4 24 then (0x7FFFF, 0)
  else if off == 0x100 then (0xFF03FF, 0x10032F)
  else if off == 0x104 then (0xFFFF, 0)
  else if off == 0x140 then (0xFFFF003F, 0x1C)
  else if inRow off 0x400 8 8 then (0xFFFF07FF, 2)
  else if inRow off 0x404 8 8 then (0xFFFFFFFF, 0)
  else (0, 0)

/-- RW mask and reset value of word `k` of a flow profile (R269). -/
def profileWord (k : Nat) : Nat × Nat :=
  match k with
  | 0 => (0x7FFF1F1F, 0x150703)
  | 1 => (0x1FFFF, 30)
  | 2 => (0x1FFFF, 7200)
  | 3 => (0x1FFFF, 60)
  | 4 => (0x1FFFF, 10)
  | 5 => (0x1FFFF, 30)
  | 6 => (0x1FFFF, 180)
  | _ => (0, 0)

/-- RW mask and reset value of a word of the TBL block (F1 copy). -/
def tblWord (off : Nat) : Nat × Nat :=
  if inRow off 0x000 8 16 then (0x3FFFF3F, 0)
  else if inRow off 0x004 8 16 then (0x73F, 0)
  else if off == 0x204 then (0x1F, 0)
  else if off == 0x210 then (0xF, 6)
  else if inRow off 0x220 4 6 then (0x1FF, 0)
  else if inRow off 0x240 4 8 then (0xFF03FFFF, 0)
  else if 0x400 ≤ off && off < 0x800 && off % 4 == 0 && off % 0x40 < 0x30 then (0x3F3F7F, 0)
  else if inRow off 0x800 0x800 4 then (0xFFFF, 2000)
  else if 0x3000 ≤ off && off < 0x3400 && off % 4 == 0 then
    if off % 0x40 == 0 then (0x1FFF, 0) else if 0x20 ≤ off % 0x40 then (0xFFFFFFFF, 0) else (0, 0)
  else if inRow off 0x3400 8 16 then (0x1FFF9FFF, 0)
  else if inRow off 0x3404 8 16 then (0x3FFF, 0)
  else if inRow off 0x3800 8 64 then (0xFFFFFF03, 0)
  else if inRow off 0x3804 8 64 then (0xFFFFFF, 0)
  else if off == 0x3A00 then (0xFFFFFF, 0x101000)
  else if off == 0x5804 then (0x3F, 0)
  else if off == 0x6000 then (0xFFFFFF01, 0)
  else if off == 0x6004 then (0xFF, 0)
  else if off == 0x6014 then (0x1F, 0)
  else if 0x6100 ≤ off && off < 0x6300 && off % 4 == 0 then profileWord (off % 0x20 / 4)
  else if inRow off 0x6400 16 64 then (0xFFFFFFFF, 0)
  else if inRow off 0x6404 16 64 then (0xFF, 0)
  else if inRow off 0x6408 16 64 then (0xFFFFFFFF, 0xFFFF0400)
  else if inRow off 0x640C 16 64 then (1, 0)
  else if 0x10000 ≤ off && off < 0x1C000 && off % 4 == 0 then
    let k := (off - 0x10000) % 0xC0
    (0xFFFFFFFF, if k == 0 then 0xFF else if k == 8 then 0x100 else 0)
  else (0, 0)

/-- RW mask and reset value of a word of the CFG block (R481, R665). -/
def cfgWord (off : Nat) : Nat × Nat :=
  if off == 0x000 then (0xFFF03FF, 0x3C0064)
  else if off == 0x204 then (0xF, 0)
  else if off == 0x300 then (0xFFFFFF03, 0x80800002)
  else (0, 0)

/-- RW mask and reset value of word `k` of a bed record (R413). -/
def bedWord (k : Nat) : Nat × Nat :=
  if k == 0 then (0xFFFF0FFF, 0)
  else if k < 4 then (0xFFFFFFFF, 0)
  else if k == 4 then (0xFF, 0)
  else if k < 8 then (0, 0)
  else if k % 4 == 3 then (0x7, 0)
  else (0xFFFFFFFF, 0)

/-- RW mask and reset value of the configuration word at an internal address; mask 0 where the address names none. -/
def wordDef (a : Nat) : Nat × Nat :=
  if a % 4 != 0 then (0, 0)
  else if portBase ≤ a && a < portBase + 1024 * 0x1000 then portWord (a % 0x1000)
  else if tblBase ≤ a && a < tblBase + 0x20000 then tblWord (a - tblBase)
  else if cfgBase ≤ a && a < cfgBase + 0x1000 then cfgWord (a - cfgBase)
  else if bedBase ≤ a && a < bedBase + 32 * 0xA0 then bedWord ((a - bedBase) % 0xA0 / 4)
  else (0, 0)

/-- RW mask of a configuration word. -/
def rwMask (a : Nat) : Nat := (wordDef a).1

/-- After reset value of a configuration word. -/
def resetWord (a : Nat) : Nat := (wordDef a).2

/-- Bitwise and, as a number, of 32-bit values. -/
def and32 (a b : Nat) : Nat := (BitVec.ofNat 32 a &&& BitVec.ofNat 32 b).toNat

/-- Bits of `v` where `mask` is set, of `w` elsewhere. -/
def mix32 (w v mask : Word) : Word := (w &&& ~~~mask) ||| (v &&& mask)

/-- The effective word of a bank: what the layers set, or the After reset value (R465, R467). -/
def bankWord (words : Tab Word) (a : Nat) : Nat :=
  match tget words a with
  | some w => w.toNat
  | none => resetWord a

end Sys2Proof.Machine
end

