-- ==== Sys2Proof/Machine/Ops.lean ====
section
/-! DEFINITION. The operations every family shares: the answer of a row, time, memory, the configuration in force, free values,
events and the trace buffers. -/

namespace Sys2Proof.Machine

/-- What a row answers. -/
abbrev Res := Host.Outcome State Fault Refusal

/-- A row about an element: the package has it, and the row has its effect; or it does not exist (R20, R23), and nothing could
happen there. -/
def onElem (exists_ : Bool) (t : State) : Res :=
  if exists_ then .next t else .fault .noSuchElement

/-! ## Time (R647) -/

/-- Low 32 bits of the timekeeper's seconds. -/
def now32 (s : State) : Nat := s.time.sec % 2 ^ 32

/-- The time CSR: nanoseconds since the timekeeper's epoch, low 64 bits (R383). -/
def timeCsr (s : State) : Nat := (s.time.sec * 1000000000 + s.time.ns) % 2 ^ 64

/-- Elapsed microseconds: the 1 µs tick (R51, R647). -/
def nowUs (s : State) : Nat := s.time.up

/-- Has a second passed since the last raising? (events raised at most once per second, R107) -/
def secondPassed (s : State) (last : Option Nat) : Bool :=
  match last with
  | none => true
  | some t => t + 1000000 ≤ s.time.up

/-- Times of what has happened within the last second, with what happens now. -/
def lastSecond (s : State) (l : List Nat) : List Nat := (l ++ [s.time.up]).filter fun t => decide (s.time.up < t + 1000000)

/-! ## Memory: DDR5 and scratch by internal address (R415, R500) -/

/-- What an address that the list does not hold reads as (assumption 6). -/
def Memory.empty : Byte := 0

/-- The canonical form: addresses strictly rising, no entry that equals what an unlisted address reads as. -/
def Memory.wf : List Host.Cell → Bool
  | [] => true
  | [(_, b)] => b != Memory.empty
  | (a, b) :: (a', b') :: r => b != Memory.empty && decide (a < a') && Memory.wf ((a', b') :: r)

/-- Read of one byte. -/
def Memory.read : List Host.Cell → Nat → Byte
  | [], _ => Memory.empty
  | (i, b) :: r, a => if a = i then b else if a < i then Memory.empty else Memory.read r a

/-- An entry, unless it holds what an unlisted address reads as. -/
def Memory.cell (a : Nat) (b : Byte) (r : List Host.Cell) : List Host.Cell :=
  if b = Memory.empty then r else (a, b) :: r

/-- Write of one byte. -/
def Memory.write : List Host.Cell → Nat → Byte → List Host.Cell
  | [], a, b => Memory.cell a b []
  | (i, x) :: r, a, b =>
    if a < i then Memory.cell a b ((i, x) :: r)
    else if a = i then Memory.cell a b r
    else (i, x) :: Memory.write r a b

/-- Write of a byte string from an address on. -/
def Memory.writeAll (m : List Host.Cell) : Nat → Bytes → List Host.Cell
  | _, [] => m
  | a, b :: r => Memory.writeAll (Memory.write m a b) (a + 1) r

/-- `n` bytes from an address on. -/
def Memory.readAll (m : List Host.Cell) (a n : Nat) : Bytes := (List.range n).map fun k => Memory.read m (a + k)

/-- The range of `len` bytes from `lo` set to what an unlisted address reads as. -/
def Memory.clear (m : List Host.Cell) (lo len : Nat) : List Host.Cell :=
  m.filter fun c => !(decide (lo ≤ c.1) && decide (c.1 < lo + len))

def memRead (s : State) (a n : Nat) : Bytes := Memory.readAll s.mem.cells a n

/-- Load reservations on an overlapping range are lost (R383). -/
def breakResv (a n : Nat) (s : State) : State :=
  { s with svc := { s.svc with clusters := tmap s.svc.clusters fun _ c => { c with threads := tmap c.threads fun _ t =>
    { t with resv := match t.resv with
      | some (b, w) => if a < b + w && b < a + n then none else some (b, w)
      | none => none } } } }

/-- Poisoned lines left by a write of `n` bytes at `a`: a write of the whole line clears the poison (R504). -/
def stillPoisoned (a n : Nat) (l : List Nat) : List Nat := l.filter fun x => !(decide (a ≤ x) && decide (x + 64 ≤ a + n))

/-- The channel on which an address of DDR5 lies: the 256-byte block number modulo the channels in use (R500). -/
def channelAt (s : State) (a : Nat) : Nat :=
  s.mem.trained.getD ((a - 0x400000000000) / 256 % max 1 s.mem.trained.length) 12

/-- Lies the line on a channel lost in service, so that every access to it returns poison (R507)? -/
def lineLost (s : State) (x : Nat) : Bool :=
  decide (0x400000000000 ≤ x) && (match tget s.mem.chans (channelAt s x) with | some c => c.st == 3 | none => false)

def anyLost (s : State) : Bool := s.mem.chans.any fun e => e.2.st == 3

/-- The 64-byte lines that `n` bytes at `a` touch. -/
def linesOf (a n : Nat) : List Nat := if n == 0 then [] else (span (a / 64) ((a + n - 1) / 64 + 1 - a / 64)).map (64 * ·)

/-- The first poisoned line that a read of `n` bytes at `a` meets (R504). -/
def poisonHit (s : State) (a n : Nat) : Option Nat :=
  match s.mem.poison.find? fun x => decide (x < a + n) && decide (a < x + 64) with
  | some x => some x
  | none => if anyLost s then (linesOf a n).find? (lineLost s) else none

/-- Would a write of `n` bytes at `a` be discarded: a partial write of a poisoned line, or a write to a lost channel (R504, R507)? -/
def poisonBlocks (s : State) (a n : Nat) : Bool :=
  (s.mem.poison.any fun x => decide (x < a + n) && decide (a < x + 64) && !(decide (a ≤ x) && decide (x + 64 ≤ a + n))) ||
  (anyLost s && (linesOf a n).any (lineLost s))

/-- The channels after counter `k` (0 line reads, 1 line writes) has counted the DDR5 lines that `n` bytes at `a` touch, each once (R511,
assumption 94). -/
def lineCounts (s : State) (k a n : Nat) : Tab MemCh :=
  if s.mem.trained.isEmpty || a < 0x400000000000 then s.mem.chans
  else (linesOf a n).foldl (fun t x => tmod t (channelAt s x) {} fun c => { c with cnt := tadd c.cnt k 1 }) s.mem.chans

/-- A read of `n` bytes at `a` counts its lines. -/
def countReads (a n : Nat) (s : State) : State := { s with mem := { s.mem with chans := lineCounts s 0 a n } }

/-- A write to memory: bytes, poison of the whole lines it covers, line counts, reservations on what it touches. -/
def memWrite (s : State) (a : Nat) (b : Bytes) : State :=
  breakResv a b.length { s with mem := { s.mem with
    cells := Memory.writeAll s.mem.cells a b, poison := stillPoisoned a b.length s.mem.poison, chans := lineCounts s 1 a b.length } }

/-- The channels after counter `k` has counted the lines of `len` bytes from `a` on, whole blocks of 256 bytes: of the blocks below x, channel number i of C has
(x + C − 1 − i) ÷ C (R500). -/
def blockCounts (s : State) (k a len : Nat) : Tab MemCh :=
  let n := s.mem.trained.length
  if a < 0x400000000000 then s.mem.chans
  else
    let o := a - 0x400000000000
    let upTo := fun (x i : Nat) => (x / 256 + n - 1 - i) / n
    s.mem.trained.zipIdx.foldl (fun t e => tmod t e.1 {} fun c =>
      { c with cnt := tadd c.cnt k (4 * (upTo (o + len) e.2 - upTo o e.2)) }) s.mem.chans

/-- A read of a long range. -/
def countBulk (a n : Nat) (s : State) : State := { s with mem := { s.mem with chans := blockCounts s 0 a n } }

/-- A range of memory is zeroed. -/
def memClear (s : State) (a len : Nat) : State :=
  breakResv a len { s with mem := { s.mem with
    cells := Memory.clear s.mem.cells a len, poison := stillPoisoned a len s.mem.poison, chans := blockCounts s 1 a len } }

/-- A read of an area of the device's own data that spans every channel: does it meet poison (R504, R507)? -/
def areaPoisoned (s : State) (a n : Nat) : Bool := (s.mem.poison.any fun x => decide (a ≤ x) && decide (x < a + n)) || anyLost s

/-- The lines of an area are written again. -/
def areaRewritten (a n : Nat) (s : State) : State := { s with mem := { s.mem with poison := stillPoisoned a n s.mem.poison } }

/-! ## The configuration in force (R464-R480) -/

/-- Number of the current epoch; 0 until the configuration is loaded (R477). -/
def curEpoch (s : State) : Nat :=
  match s.cfg.live with
  | [] => 0
  | e :: _ => e.num

def curTag (s : State) : Nat :=
  match s.cfg.live with
  | [] => 0
  | e :: _ => e.tag

/-- Effective words of the current epoch. -/
def curWords (s : State) : Tab Word :=
  match s.cfg.live with
  | [] => []
  | e :: _ => e.words

/-- The live epoch of a number. -/
def epochOf (s : State) (num : Nat) : Option Epoch := s.cfg.live.find? fun e => e.num == num

/-- Effective words of a live epoch: the bank of its tag (R95). -/
def wordsAt (s : State) (num : Nat) : Tab Word :=
  match epochOf s num with
  | some e => e.words
  | none => match s.cfg.prepared with
    | some (e, _) => if e.num == num then e.words else []
    | none => []

/-- A configuration word under the current epoch. -/
def cfgNow (s : State) (a : Nat) : Nat := bankWord (curWords s) a

/-- A configuration word under a stamped epoch. -/
def cfgAt (s : State) (num a : Nat) : Nat := bankWord (wordsAt s num) a

/-- A port register word under the current epoch, and under a stamped one. -/
def portNow (s : State) (p off : Nat) : Nat := cfgNow s (portAddr p off)
def portAt (s : State) (num p off : Nat) : Nat := cfgAt s num (portAddr p off)
/-- A word of the TBL block under the current epoch, and under a stamped one. -/
def tblNow (s : State) (off : Nat) : Nat := cfgNow s (tblBase + off)
def tblAt (s : State) (num off : Nat) : Nat := cfgAt s num (tblBase + off)

/-- The number after an epoch number (R432, R476). -/
def nextEpoch (e : Nat) : Nat := if (e + 1) % 2 ^ 32 == 0 then 1 else (e + 1) % 2 ^ 32

/-- Is `a` a later epoch than `b` (R476)? -/
def later (a b : Nat) : Bool := a % 2 ^ 32 != b % 2 ^ 32 && (a + 2 ^ 32 - b % 2 ^ 32) % 2 ^ 32 < 2 ^ 31

/-- Is `a` the same epoch as `b` or a later one? -/
def notBefore (a b : Nat) : Bool := a == b || later a b

/-- The oldest live epoch, 0 when none is live. -/
def oldestEpoch (s : State) : Nat :=
  match s.cfg.live.getLast? with
  | some e => e.num
  | none => 0

/-! ## Free values and random draws (assumptions 2 and 4) -/

/-- One free value, and the state that has used it. -/
def drawFree (s : State) : Nat × State := ((Config.free s.freeIx).toNat, { s with freeIx := s.freeIx + 1 })

/-- One 32-bit draw of B0's random source. -/
def drawRandom (s : State) : Word × State := (Config.random s.freeIx, { s with freeIx := s.freeIx + 1 })

/-- Output of the cited cipher on an input, `n` bytes (assumption 3). -/
def cipher (input : Bytes) (n : Nat) : Bytes := (List.range n).map fun i => Config.cipherByte input i

/-- A key wrapped under another (RFC 3394), and unwrapped to `n` bytes. -/
def wrapKey (under key : Bytes) : Bytes := cipher (under ++ key) (key.length + 8)
def unwrapKey (under field : Bytes) (n : Nat) : Bytes := cipher (under ++ field) n

/-- The key of a record of the DDR5 tables, as a crypto unit holds it (R206). -/
def recordKey (s : State) (wrapped : Bytes) : Bytes := unwrapKey s.cry.tableKey wrapped (wrapped.length - 8)

/-! ## What leaves -/

def emit (o : Out) (s : State) : State := { s with out := s.out ++ [o] }

def emitAll (l : List Out) (s : State) : State := { s with out := s.out ++ l }

def sendTwin (m : TwinMsg) (s : State) : State := emit (.twin m) s

/-- A record into the flash runtime store (R608): kind 1 fix journal, 2 spare ledger, 3 rails and taps, 4 contact sheet, 5 cartridge
life, 6 array repairs, 7 image selector, 8 life cycle, 9 debug token sequence, 10 witness, 11 test periods and sheet time, 12 lost
channels, 13 time, 14 trip record. -/
def toFlash (kind key : Nat) (b : Bytes) (s : State) : State := emit (.flash kind key b) s

/-! ## Events and trace buffers (R15, R657, R661) -/

/-- Event bits of the classes that have an EVENT register, by event number minus one (R108, R154, R233, R268, R482, R535, R560,
R579, R605, R664). -/
def eventBits (cls : Nat) : List Nat :=
  match cls with
  | 1 => [0, 1, 2, 3]
  | 2 => [0, 1, 2, 2, 3, 4]
  | 3 => [0, 1, 2, 3, 3, 3, 4, 4, 5, 6, 6, 7, 8]
  | 4 => [0, 1, 2, 3, 3, 4, 5]
  | 5 => [0, 1, 2, 3, 3, 4]
  | 11 => [0, 1, 2, 2, 3, 4]
  | 12 => [0, 0, 1, 2, 3, 3, 4, 4, 5, 6]
  | 13 => [0, 0, 1, 2, 2, 3, 4, 4, 5, 6, 6]
  | 14 => [0, 1, 1, 2, 3, 3]
  | 15 => [0, 0, 1, 1, 2, 3]
  | _ => []

/-- Internal address of the EVENT register of a class, for a record that carries the given place: the port's own block, the
block of the die (F1's for places of the hub, assumption 7), or the class's one block. -/
def eventReg (cls p : Nat) : Nat :=
  let die := if pDie p == 0 || 4 < pDie p then 1 else pDie p
  match cls with
  | 1 => cfgBase + 0x200
  | 2 => tblBase + 0x20000 * (die - 1) + 0x200
  | 3 => portAddr (macPort p) 0x20
  | 4 => tblBase + 0x20000 * (die - 1) + 0x5800
  | 5 => tblBase + 0x20000 * (die - 1) + 0x6010
  | 11 => 0x00DC00000200
  | 12 => 0x00D800000200
  | 13 => 0x00D400020000
  | 14 => 0x00E000000200
  | _ => 0x00E800000200

/-- The mask word of that register: a configuration word of the classes 1 to 5 (the F1 copy in the TBL block), else the plain
register behind it. -/
def eventMask (s : State) (cls p : Nat) : Nat :=
  match cls with
  | 1 => cfgNow s (cfgBase + 0x204)
  | 2 => tblNow s 0x204
  | 3 => portNow s (macPort p) 0x24
  | 4 => tblNow s 0x5804
  | 5 => tblNow s 0x6014
  | c => (tgetD s.regs (eventReg c p + 4) 0).toNat

/-- Number of an event within its class, from 1. -/
def eventNo (code : Nat) : Nat := code % 1024

/-- The event bit of a code, where its class gives one. -/
def eventBit (code : Nat) : Option Nat :=
  if eventNo code == 0 then none else (eventBits (code / 1024))[eventNo code - 1]?

/-- The event bit is set, whether or not the record is masked (R108). -/
def setEventBit (code p : Nat) (s : State) : State :=
  match eventBit code with
  | none => s
  | some b =>
    let r := eventReg (code / 1024) p
    { s with regs := tput s.regs r (tgetD s.regs r 0 ||| (1#32 <<< b)) }

/-- Is the record of an event suppressed by its mask bit (R108)? -/
def eventMasked (s : State) (code p : Nat) : Bool :=
  match eventBit code with
  | none => false
  | some b => bit (eventMask s (code / 1024) p) b

/-- An event reaches the log writer's intake queue of 4,096 records; one that finds it full is discarded and counted (R658). -/
def intake (code p : Nat) (words : List Nat) (s : State) : State :=
  if 4096 ≤ s.log.intake.length then
    { s with log := { s.log with drops := s.log.drops + 1, lost := s.log.lost + 1 } }
  else
    { s with log := { s.log with intake := s.log.intake ++ [{ code := code, path := pathOf s p, words := words }] } }

/-! ## Spares (R24, R25) -/

/-- The spare of a cluster's units (R25): stage unit 9, core 8, crypto unit 4. -/
def unitSpare (cl : Nat) : Option Nat :=
  let c := pCluster cl
  if c < 5 then some (mkPlace (pDie cl) (pRegion cl) c 9)
  else if (8 ≤ c && c ≤ 12) || c == 28 then some (mkPlace (pDie cl) (pRegion cl) c 8)
  else if c == 16 then some (mkPlace (pDie cl) (pRegion cl) c 4)
  else none

/-- The spare cluster that can stand in for a cluster (R25): P4, S4. -/
def clusterSpare (cl : Nat) : Option Nat :=
  let c := pCluster cl
  if c < 4 then some (clusterPlace (pDie cl) (pRegion cl) 4)
  else if 8 ≤ c && c < 12 then some (clusterPlace (pDie cl) (pRegion cl) 12)
  else none

/-- Ledger entry of a spare. -/
def ledger (s : State) (sp : Nat) : Spare := tgetD s.spare.ledger sp {}

/-- Is the place a spare unit or a spare cluster (R25)? -/
def isSpare (p : Nat) : Bool :=
  if pUnit p == 127 then pCluster p == 4 || pCluster p == 12 else unitSpare (clusterOf p) == some p

/-- The subject of an event about work that a spare carries: the path word of the unit or cluster that the spare at a place stands in
for, or, for a unit of a spare cluster, of that unit in the cluster that this stands in for (R24). -/
def subjectOf (s : State) (p : Nat) : List Nat :=
  let work := fun (sp : Nat) => isSpare sp && (ledger s sp).state != .free && (ledger s sp).state != .failed && (ledger s sp).standsFor != 0
  if work p then [(ledger s p).standsFor.toNat]
  else if pUnit p != 127 && work (clusterOf p) then
    let who := place (ledger s (clusterOf p)).standsFor.toNat
    [(pathOf s (mkPlace (pDie who) (pRegion who) (pCluster who) (pUnit p))).toNat]
  else []

/-- The words of a record: those of the event, then the subject (R24). R657 gives the subject no field of its own; the model makes it
the last word (DESIGN CHOICE, assumption 115). -/
def recordWords (s : State) (p : Nat) (words : List Nat) : List Nat := (words ++ subjectOf s p).take 9

/-- The event without its trace record. -/
def raiseQuiet (code p : Nat) (words : List Nat) (s : State) : State :=
  let s := setEventBit code p s
  if eventMasked s code p then s else intake code p (recordWords s p words) s

/-- Freeze of a trace buffer, with its event (R662): causes 1 full, 2 command, 3 graft. -/
def traceFreeze (cl cause : Nat) (s : State) : State :=
  let t := tgetD s.log.traces (clusterIndex cl) {}
  if t.armed then
    raiseQuiet 0x3C06 cl [cause, t.entries.length]
      { s with log := { s.log with traces := tput s.log.traces (clusterIndex cl) { t with armed := false } } }
  else s

/-- One entry in the trace buffer of a cluster while it is armed; the 256th freezes it (R661, R662). -/
def traceAdd (cl code unit datum : Nat) (s : State) : State :=
  let t := tgetD s.log.traces (clusterIndex cl) {}
  if t.armed then
    let e : TraceEntry := { time := timeCsr s, code := code, unit := unit, datum := datum }
    let s := { s with log := { s.log with
      traces := tput s.log.traces (clusterIndex cl) { t with entries := t.entries ++ [e] } } }
    if 256 ≤ t.entries.length + 1 then traceFreeze cl 1 s else s
  else s

/-- An event of a class at a place, with its words: event bit, trace record, log intake (R108, R657, R661). -/
def raise (code p : Nat) (words : List Nat) (s : State) : State :=
  let s := traceAdd (clusterOf p) code (pUnit p) (words.headD 0) s
  raiseQuiet code p words s

/-- A value of up to 64 bits as two words, low first (R657). -/
def two (v : Nat) : List Nat := [v % 2 ^ 32, v / 2 ^ 32 % 2 ^ 32]

/-- A signed value as one 32-bit word, and as two. -/
def sw (i : Int) : Nat := wrap 32 i
def sw2 (i : Int) : List Nat := two (wrap 64 i)

/-! ## DDR5 (R497) -/

/-- Channels in use. -/
def memInUse (s : State) : List Nat := (s.mem.chans.filter fun e => e.2.st == 1).map fun e => e.1
/-- The device uses DDR5: training ended with three channels or more in use. -/
def ddr5Up (s : State) : Bool := !s.mem.trained.isEmpty

/-! ## Firmware images -/

def fwImage (s : State) (i : Nat) : FwImage := if i == 0 then s.boot.imageA else s.boot.imageB

/-- Is the owner section of images used (R609)? -/
def ownerUsed (s : State) : Bool := s.boot.lifecycle == .provisioned || s.boot.lifecycle == .deployed

/-- The owner section of an image as boot code uses it, or the defaults of mask ROM (R609; DESIGN CHOICE, assumption 22). -/
def ownerOf (s : State) (i : Nat) : Owner := if ownerUsed s then (fwImage s i).owner else { req := defaultReq }

/-! ## Elements in service -/

/-- Is the unit or cluster at a place behind a cloche, lost or retired? -/
def outOfService (s : State) (p : Nat) : Bool :=
  s.spare.cloched.contains p || s.spare.retired.contains p || s.spare.lost.contains p ||
  s.spare.lost.contains (clusterOf p) || s.spare.cloched.contains (clusterOf p) ||
  s.spare.lost.contains (regionOf p) || s.spare.lost.contains (dieOf p)

/-- Phase of a die in its start or restart. -/
def diePhase (s : State) (d : Nat) : DiePhase := tgetD s.boot.phase d .inReset

def dieUp (s : State) (d : Nat) : Bool := diePhase s d == .inService && !s.spare.lost.contains (diePlace d)

/-- A fabric region that is in service. -/
def regionUp (s : State) (d r : Nat) : Bool := dieUp s d && !s.spare.lost.contains (regionPlace d r)

/-- The place that carries a cluster's work: itself, or its spare cluster while that stands in for it. -/
def carrierOf (s : State) (cl : Nat) : Nat :=
  match clusterSpare cl with
  | some sp =>
    let l := ledger s sp
    if l.state != .free && l.state != .failed && place l.standsFor.toNat == cl then sp else cl
  | none => cl

/-- Does a pipeline, service or crypto cluster carry its work somewhere? -/
def clusterServes (s : State) (cl : Nat) : Bool :=
  !outOfService s (carrierOf s cl) && dieUp s (pDie cl)

/-- Does a graft from or to a place run (R582)? -/
def grafting (s : State) (p : Nat) : Bool :=
  s.spare.grafts.any fun g => place g.source.toNat == p || place g.target.toNat == p

/-- The work of core `c` of the cluster at a place stands still: a graft of the core, or of its cluster, runs (R582). -/
def coreStill (s : State) (home c : Nat) : Bool :=
  let cl := carrierOf s home
  grafting s home || grafting s cl || grafting s (mkPlace (pDie cl) (pRegion cl) (pCluster cl) c)

/-! ## Tables of counters -/

/-- Add to counter `n` of a port (R113). -/
def portMod (p : Nat) (f : Port → Port) (s : State) : State := { s with ports := tmod s.ports p {} f }
def portGet (s : State) (p : Nat) : Port := tgetD s.ports p {}
def countPort (p n k : Nat) (s : State) : State := portMod p (fun x => { x with cnt := tadd x.cnt n k }) s
def countTwin (n k : Nat) (s : State) : State := { s with twin := { s.twin with cnt := tadd s.twin.cnt n k } }
def countCfg (n k : Nat) (s : State) : State := { s with cfg := { s.cfg with cnt := tadd s.cfg.cnt n k } }
/-- TBL_RCNT, TBL_ACNT, TBL_CRY_CNT and TBL_FLOW_CNT of region `g` (R156, R201, R237, R270). -/
def countR (g n k : Nat) (s : State) : State := { s with tbl := { s.tbl with rcnt := tadd s.tbl.rcnt (64 * g + n) k } }
def countA (g n k : Nat) (s : State) : State := { s with tbl := { s.tbl with acnt := tadd s.tbl.acnt (64 * g + n) k } }
def countC (g n k : Nat) (s : State) : State := { s with tbl := { s.tbl with ccnt := tadd s.tbl.ccnt (64 * g + n) k } }
def countF (g n k : Nat) (s : State) : State := { s with tbl := { s.tbl with fcnt := tadd s.tbl.fcnt (64 * g + n) k } }

/-! ## Twin state -/

/-- PF_STATUS.twin_protected (R596). -/
def twinProtected (s : State) : Bool := s.twin.state == .protectedSt

/-- Does the twin link carry traffic: it is up, and a version is settled (R33, R587)? -/
def twinSettled (s : State) : Bool := s.twin.linkUp && s.twin.version != 0

/-- Can a message reach the twin: the link is up and the pair has settled (R448). DEDUCED, assumption 8. -/
def twinReachable (s : State) : Bool :=
  twinSettled s && (s.twin.state == .protectedSt || s.twin.state == .handedOver || s.twin.state == .joining ||
    ((s.twin.state == .sole || s.twin.state == .alone) && s.twin.joinStep != 0))

/-- State code of TWIN_STATE.state (R606). -/
def twinCode : TwinState → Nat
  | .alone => 0
  | .joining => 1
  | .protectedSt => 2
  | .suspect => 3
  | .sole => 4
  | .fenced => 5
  | .handedOver => 6

/-- Code of a life-cycle state (R279). -/
def lifeCode : Lifecycle → Nat
  | .blank => 0
  | .manufacturing => 1
  | .provisioned => 2
  | .deployed => 3
  | .returned => 4
  | .retired => 5

end Sys2Proof.Machine
end

