-- ==== Sys2Proof/Machine/Fit.lean ====
section
/-! DEFINITION. What the governor computes from canary readings and from the contact sheets: slowdown, delay guard, rate margin, the
fits of R549 and the projections that rest on them (R48, R53-R55, R538-R541, R549, R550). Slowdowns, margins and guards less one are in
0.01 %, rails in mV, temperatures in 0.1 °C. -/

namespace Sys2Proof.Machine

def ageMod (f : AgeS → AgeS) (s : State) : State := { s with age := f s.age }
def unitAge (s : State) (p : Nat) : UnitAge := tgetD s.age.units p {}
def unitFuse (s : State) (p : Nat) : UnitFuse := tgetD s.age.fuses p {}
def unitAgeMod (p : Nat) (f : UnitAge → UnitAge) (s : State) : State := ageMod (fun a => { a with units := tmod a.units p {} f }) s

/-! ## Readings (R539) -/

/-- Slowdown of a canary whose 256 readings sum to `sum` at a rail and a temperature: 1 − d_ref / (d_meas × v(V) × t(T)), not below
zero. -/
def canarySlow (mv : Nat) (temp : Int) (c : CanaryFuse) (sum : Nat) : Nat :=
  let t := (111200 - 16 * temp).toNat
  10000 - c.dRef * 256 * 675 * 100000 * 10000 / max 1 (sum * (mv - 75) * t)

/-- The greatest slowdown of the unit's canaries. -/
def unitSlow (mv : Nat) (temp : Int) (f : UnitFuse) (l : List Nat) : Nat :=
  (f.canaries.zip l).foldl (fun m e => max m (canarySlow mv temp e.1 e.2)) 0

/-- A delay read at a temperature, referred to 95 °C, times 10^7. -/
def at95 (k temp : Int) (d : Nat) : Nat := d * (10000000 + k * (950 - temp)).toNat

/-- Guard less one: the matched delay over the canary of the datapath that it covers, both referred to 95 °C. -/
def guardOf (temp : Int) (f : UnitFuse) (l : List Nat) (m : DelayFuse) (sum : Nat) : Nat :=
  match f.canaries[m.covers]? with
  | some c => at95 m.k temp sum * 10000 / max 1 (at95 c.k temp (l.getD m.covers 0)) - 10000
  | none => 0

/-- The guard (not less one) that the fused values give a matched delay at a tap on new silicon; a tap adds 1/16 of the tap-0 delay
(R48). -/
def newGuard (f : UnitFuse) (m : DelayFuse) (tap : Nat) : Nat :=
  match f.canaries[m.covers]? with
  | some c => at95 m.k 700 (m.tap0 * (16 + tap)) * 10000 / max 1 (16 * at95 c.k 700 c.dRef)
  | none => 0

/-- How much of its new value a guard has lost: the shrinkage that R549 fits. -/
def shrinkage (f : UnitFuse) (m : DelayFuse) (tap guard : Nat) : Nat :=
  10000 - (10000 + guard) * 10000 / max 1 (newGuard f m tap)

/-- The shrinkage of each matched delay of a unit. -/
def shrinkages (f : UnitFuse) (u : UnitAge) : List Nat :=
  (List.range f.delays.length).map fun j =>
    match f.delays[j]? with
    | some m => shrinkage f m (u.taps.getD j 0) (u.guards.getD j 0)
    | none => 0

/-! ## Margin (R55) -/

/-- Margin of a unit of a slowdown at a rail: 1.2 × v(V) × t(95 °C) × (1 − s) − 1. -/
def marginAt (mv slow : Nat) : Int := Int.ofNat (1152 * (mv - 75) * (10000 - slow) / 675000) - 10000

/-- The slowdown at which the margin at a rail reaches 10 % (s_limit of R550), and at which it reaches zero (R58). -/
def slowLimit (mv : Nat) : Nat := 10000 - 11000 * 675000 / max 1 (1152 * (mv - 75))
def slowZero (mv : Nat) : Nat := 10000 - 10000 * 675000 / max 1 (1152 * (mv - 75))

/-! ## Logarithms to base 2 in units of 2^-20 -/

/-- `n` more bits of the logarithm of a mantissa from 1 to 2 in units of 2^-32, after `a`. -/
def lgBits : Nat → Nat → Nat → Nat
  | 0, _, a => a
  | n + 1, m, a =>
    let q := m * m / 2 ^ 32
    if 2 ^ 33 ≤ q then lgBits n (q / 2) (2 * a + 1) else lgBits n q (2 * a)

/-- Logarithm of a number, 0 of 0. -/
def lg (x : Nat) : Nat :=
  let e := Nat.log2 x
  e * 2 ^ 20 + lgBits 20 (x * 2 ^ 32 / 2 ^ e) 0

/-- The greatest number below 2^n above `a` in its low bits whose logarithm is at most `y`. -/
def pwBits : Nat → Nat → Int → Nat
  | 0, a, _ => a
  | n + 1, a, y => if Int.ofNat (lg (a + 2 ^ n)) ≤ y then pwBits n (a + 2 ^ n) y else pwBits n a y

/-- The number whose logarithm is `y`, rounded down, below 2^40. -/
def pw (y : Int) : Nat := if y < 0 then 0 else pwBits 40 0 y

/-! ## The fit of R549 -/

/-- s(h) = a × h^n: n, and the logarithm of a in 0.01 %, both in units of 2^-20. -/
structure Fit where
  n : Int
  a : Int
  deriving DecidableEq, Repr

/-- n held to 0.15 to 0.50. -/
def clampN (n : Int) : Int := max 157286 (min 524288 n)

/-- The fit over points (hours, value) of at least 0.5 %; with fewer than 30, n is 0.25 and a comes from the latest. The least squares
are those of the logarithms (DESIGN CHOICE, assumption 114). -/
def fitOf (pts : List (Nat × Nat)) : Option Fit :=
  let l := (pts.filter fun e => decide (50 ≤ e.2)).map fun e => (Int.ofNat (lg (max 1 e.1)), Int.ofNat (lg e.2))
  match l.getLast? with
  | none => none
  | some (x, y) =>
    if l.length < 30 then some { n := 262144, a := y - x / 4 }
    else
      let k := Int.ofNat l.length
      let sx := l.foldl (fun t e => t + e.1) 0
      let sy := l.foldl (fun t e => t + e.2) 0
      let sxx := l.foldl (fun t e => t + e.1 * e.1) 0
      let sxy := l.foldl (fun t e => t + e.1 * e.2) 0
      let den := k * sxx - sx * sx
      let n := if den == 0 then 262144 else clampN ((k * sxy - sx * sy) * 2 ^ 20 / den)
      some { n := n, a := (sy - n * sx / 2 ^ 20) / k }

/-- Value of a fit at hours `h`, in 0.0001 %. -/
def fitAt (f : Fit) (h : Nat) : Nat := pw (f.a + Int.ofNat (lg 100) + f.n * Int.ofNat (lg (max 1 h)) / 2 ^ 20)

/-- Growth of a fit over the 7 days after hours `h`, in 0.0001 %. -/
def fitWeek (f : Fit) (h : Nat) : Nat := fitAt f (h + 168) - fitAt f h

/-- Hours after `h` at which a fit reaches a value; none when the unit shows no ageing yet. -/
def fitReach (f : Option Fit) (h limit : Nat) : Option Nat :=
  f.map fun f => if limit == 0 then 0 else pw ((Int.ofNat (lg limit) - f.a) * 2 ^ 20 / f.n) - h

/-! ## A unit's projections (R541, R549, R550, R58) -/

def unitHours (u : UnitAge) : Nat := u.served / 3600

def slowFit (u : UnitAge) : Option Fit := fitOf (u.past.map fun e => (e.hours, e.slowdown))
def guardFit (u : UnitAge) (j : Nat) : Option Fit := fitOf (u.past.map fun e => (e.hours, e.shrink.getD j 0))

/-- δ: the margin lost over the next 7 days at a rail, rounded up. -/
def marginLoss (mv : Nat) (u : UnitAge) : Nat :=
  match slowFit u with
  | some f => ceilDiv (1152 * (mv - 75) * fitWeek f (unitHours u)) 67500000
  | none => 0

/-- δg of matched delay `j`: the guard lost over the next 7 days, rounded up. -/
def guardLoss (f : UnitFuse) (u : UnitAge) (j : Nat) : Nat :=
  match guardFit u j, f.delays[j]? with
  | some g, some m => ceilDiv (newGuard f m (u.taps.getD j 0) * fitWeek g (unitHours u)) 1000000
  | _, _ => 0

/-- Hours as 0.01 year of 8,766 h, saturating at 655.35 years. -/
def hoursYears (h : Option Nat) : Nat := match h with | some h => min 65535 (h * 100 / 8766) | none => 65535

/-- Years to margin exhaustion at a die ceiling (R550): the slowdown reaches s_limit, or a guard needs a tap beyond 15. -/
def exhaustion (ceiling : Nat) (f : UnitFuse) (u : UnitAge) : Nat :=
  let h := unitHours u
  let guard := fun j => match f.delays[j]? with
    | some m => hoursYears (fitReach (guardFit u j) h (10000 - 11000 * 10000 / max 1 (newGuard f m 15)))
    | none => 65535
  (List.range f.delays.length).foldl (fun m j => min m (guard j)) (hoursYears (fitReach (slowFit u) h (slowLimit ceiling)))

/-! ## Supply and service (R31, R540) -/

def exposureOf (s : State) (p : Nat) : Option Exposure := s.test.running.find? fun e => place e.target.toNat == p

/-- Is the supply of a spare gated: FREE, and not under its own exposure? A graft onto it runs under a claim, so it is not FREE. -/
def gated (s : State) (sp : Nat) : Bool := isSpare sp && (ledger s sp).state == .free && (exposureOf s sp).isNone

/-- Is a unit without supply: a gated spare, or a unit of a gated spare cluster (R31)? -/
def dark (s : State) (p : Nat) : Bool := gated s p || gated s (clusterOf p)

/-- Is the unit powered and read (R540)? -/
def unitRead (s : State) (p : Nat) : Bool := !outOfService s p && !dark s p

/-- Does the unit carry work: in service, neither a FREE spare nor a unit of one? -/
def inServiceUnit (s : State) (p : Nat) : Bool :=
  !outOfService s p && !(isSpare p && (ledger s p).state == .free) &&
  !(isSpare (clusterOf p) && (ledger s (clusterOf p)).state == .free)

/-- Timekeeper second at which the first margin is projected to fall below zero at the present rails (R58). -/
def zeroTime (s : State) : Nat :=
  let t := fun (e : Nat × UnitAge) =>
    match fitReach (slowFit e.2) (unitHours e.2) (slowZero (tgetD s.age.dies (pDie e.1) {}).rail) with
    | some h => s.time.sec + 3600 * h
    | none => 2 ^ 32 - 1
  (s.age.units.filter fun e => inServiceUnit s e.1).foldl (fun m e => min m (t e)) (2 ^ 32 - 1)

end Sys2Proof.Machine
end

