-- ==== Sys2Proof/Machine/Channels.lean ====
section
/-! DEFINITION. Service clusters: beds and address spaces, threads, channels, external messages, notices, locks and thread faults
(R380-R405, R412-R416). Clusters are numbered by s of R409; 85 is G0. -/

namespace Sys2Proof.Machine

/-! ## Beds (R412, R413) -/

/-- `n` configuration bytes of the current epoch from an internal address on. -/
def cfgBytes (s : State) (a n : Nat) : Bytes :=
  (List.range n).map fun k => byte (cfgNow s ((a + k) / 4 * 4) / 256 ^ ((a + k) % 4))

/-- Address of the record of a bed. -/
def bedAddr (b : Nat) : Nat := bedBase + 0xA0 * b

/-- The little-endian field of a bed record. -/
def bedField (s : State) (b off len : Nat) : Nat := ofLe (cfgBytes s (bedAddr b + off) len)

def bedDefined (s : State) (b : Nat) : Bool := bit (bedField s b 1 1) 0
def bedMask (s : State) (b : Nat) : Nat := bedField s b 2 8
def bedRights (s : State) (b : Nat) : Nat := bedField s b 10 4

/-- Bit of a fabric service cluster in a bed's cluster mask, from its number s (R413); none for S4 and the hub. -/
def bedBit (n : Nat) : Option Nat := if n < 80 && n % 5 < 4 then some (4 * (n / 5) + n % 5) else none

/-- Number s of the cluster of a mask bit. -/
def bedCluster (i : Nat) : Nat := 5 * (i / 4) + i % 4

/-- The bed a cluster belongs to. -/
def bedOf (s : State) (n : Nat) : Option Nat :=
  match bedBit n with
  | none => none
  | some i => (List.range 32).find? fun b => bedDefined s b && bit (bedMask s b) i

/-- Clusters of a bed, rising. -/
def bedClusters (s : State) (b : Nat) : List Nat :=
  ((List.range 64).filter fun i => bit (bedMask s b) i).map bedCluster

/-- Window `k` of a bed: base, size in bytes, rights (bit 0 read, 1 write, 2 execute). -/
def bedWindow (s : State) (b k : Nat) : Nat × Nat × Nat :=
  let o := 32 + 16 * k
  (bedField s b o 8, bedField s b (o + 8) 4 * 0x100000, bedField s b (o + 12) 1)

/-- Do `n` bytes at `a` lie within one window of the bed with the right of bit `r`? -/
def inBedWindow (s : State) (b a n r : Nat) : Bool :=
  (List.range 8).any fun k =>
    let (base, size, rights) := bedWindow s b k
    decide (base ≤ a) && decide (a + n ≤ base + size) && bit rights r

/-- Internal address of a cluster's scratch memory (R415). -/
def scratchBase (n : Nat) : Nat := 0x009800000000 + 0x200000 * n

def inScratch (n a len : Nat) : Bool := decide (scratchBase n ≤ a) && decide (a + len ≤ scratchBase n + 0x200000)

/-- May a thread of cluster `n` access `len` bytes at `a`: bit `r` 0 read, 1 write, 2 execute (R383, R415)? G0 reaches DDR5 and its
own scratch-free space only through its map; its firmware is given all of DDR5 (assumption 9). -/
def threadMayAccess (s : State) (n a len r : Nat) : Bool :=
  if n == 85 then true
  else inScratch n a len || match bedOf s n with
    | some b => inBedWindow s b a len r
    | none => false

/-! ## Clusters, threads, channels -/

def clust (s : State) (n : Nat) : Clust := tgetD s.svc.clusters n {}
def clustMod (n : Nat) (f : Clust → Clust) (s : State) : State :=
  { s with svc := { s.svc with clusters := tmod s.svc.clusters n {} f } }

/-- Channel 255 as the device fixes it (R387): enabled, 64 slots from 4,032, read by the supervisor only. -/
def noticeChan : Chan := { cfg := 0x0FC03F01, writers := 0, readers := 1 }

def chanOf (s : State) (n ch : Nat) : Chan := tgetD (clust s n).chans ch (if ch == 255 then noticeChan else {})
def chanMod (n ch : Nat) (f : Chan → Chan) (s : State) : State :=
  clustMod n (fun c => { c with chans := tmod c.chans ch (if ch == 255 then noticeChan else {}) f }) s

def threadOf (s : State) (n t : Nat) : Thread := tgetD (clust s n).threads t {}
def threadMod (n t : Nat) (f : Thread → Thread) (s : State) : State :=
  clustMod n (fun c => { c with threads := tmod c.threads t {} f }) s

/-- Register x0 to x31 of a thread. -/
def regGet (th : Thread) (r : Nat) : BitVec 64 := if r == 0 then 0 else tgetD th.regs r 0
def regPut (th : Thread) (r : Nat) (v : BitVec 64) : Thread := if r == 0 then th else { th with regs := tput th.regs r v }

/-- State code of a thread (R409). -/
def thCode : ThState → Nat
  | .stopped => 0
  | .running => 1
  | .blockedRead => 2
  | .blockedStage => 3
  | .blockedCredit => 4
  | .blockedLock => 5
  | .faulted => 6
  | .halted => 7

def isBlocked (st : ThState) : Bool :=
  st == .blockedRead || st == .blockedStage || st == .blockedCredit || st == .blockedLock

/-- Path place of the core that carries a thread: core 8 while it stands in, in S4 while that stands in (R24, R381). -/
def corePlace (s : State) (n t : Nat) : Nat :=
  let home := svcPlace n
  let cl := carrierOf s home
  let own := mkPlace (pDie cl) (pRegion cl) (pCluster cl) (t / 8)
  match unitSpare cl with
  | some sp =>
    let l := ledger s sp
    if l.state != .free && l.state != .failed && place l.standsFor.toNat == own then sp else own
  | none => own

/-- Channel fields of SVC_CHAN_CFG_n. -/
def chDepth (c : Chan) : Nat := fld c.cfg 8 8 + 1
def chExt (c : Chan) : Nat := fld c.cfg 32 9
def chEnabled (c : Chan) : Bool := bit c.cfg 0

/-- Local credits in use: visible local messages, and the staged one once it has taken its credit (R388). -/
def localUsed (c : Chan) : Nat :=
  (c.msgs.filter fun m => !m.ext).length + (match c.stage with | some (_, _ :: _) => 1 | _ => 0)

def localFree (c : Chan) : Nat := (chDepth c - chExt c) - localUsed c

/-- External credits in use: visible external messages and buffers not returned (R394). -/
def extUsed (c : Chan) : Nat := (c.msgs.filter fun m => m.ext).length + c.held.length

def extFree (c : Chan) : Nat := chExt c - extUsed c

/-- The lowest external buffer that is neither visible nor held. -/
def freeBuffer (c : Chan) : Nat :=
  ((List.range (chExt c)).find? fun k => !c.held.contains k && !c.msgs.any (fun m => m.buffer == some k)).getD 0

/-- Staged words as bytes, little-endian. -/
def wordBytes (ws : List (BitVec 64)) : Bytes := ws.flatMap fun w => le 8 w.toNat

/-- The instruction of a thread completes: result in rd, pc past it, one more retired (R383); a thread of the cluster has run
(R405). -/
def retire (n t rd : Nat) (v : BitVec 64) (len : Nat) (s : State) : State :=
  threadMod n t (fun th =>
    let th := regPut th rd v
    { th with pc := th.pc + BitVec.ofNat 64 len, st := .running, instret := th.instret + 1, waits := none })
    (clustMod n (fun c => { c with stallSent := false }) s)

/-- Locks held by a thread, over every cluster's lock unit (R401). -/
def locksHeld (s : State) (n t : Nat) : Nat :=
  s.svc.clusters.foldl (fun a e => a + (e.2.locks.filter fun l => l.2.holder == some (n, t)).length) 0

/-- Local channel on which a thread stages, or on which it is blocked (R401): 0xFFFF where none. -/
def stagedChannel (s : State) (n t : Nat) : Nat :=
  match (clust s n).chans.find? fun e => match e.2.stage with | some (h, _) => h == t | none => false with
  | some e => e.1
  | none => match (threadOf s n t).outbound with
    | some (_, ch, _) => ch
    | none =>
      let th := threadOf s n t
      if th.st == .blockedRead || th.st == .blockedStage || th.st == .blockedCredit then th.object % 256 else 0xFFFF

/-! ## Making and taking messages (R388-R394) -/

/-- A reader takes the head message: into its read buffer, credit returned unless a buffer goes with it (R391). -/
def takeHead (n ch t : Nat) (s : State) : State :=
  let c := chanOf s n ch
  match c.msgs with
  | [] => s
  | m :: r =>
    let held := match m.buffer with | some k => c.held ++ [k] | none => c.held
    let s := chanMod n ch (fun c => { c with msgs := r, held := held }) s
    threadMod n t (fun th => { th with buf := some m.bytes }) s

/-- A message becomes visible on a channel. -/
def publish (n ch : Nat) (m : Msg) (s : State) : State := chanMod n ch (fun c => { c with msgs := c.msgs ++ [m] }) s

/-- Length field of a channel operand (R385). -/
def opLen (a : Nat) : Nat := fld a 8 7

/-- A thread that holds the staging area of its channel stages one word, taking the credit at the first; CH.WRE publishes. The
thread blocks for credit when none is free (R388). -/
def stageWord (n ch t : Nat) (b : Blocked) (s : State) : State :=
  let c := chanOf s n ch
  match c.stage with
  | none => s
  | some (_, ws) =>
    if ws.isEmpty && localFree c == 0 then
      let s := chanMod n ch (fun c => { c with creditQ := c.creditQ ++ [t] }) s
      threadMod n t (fun th => { th with st := .blockedCredit, object := ch, waits := some b }) s
    else
      let ws' := ws ++ [BitVec.ofNat 64 b.b]
      if b.op == 1 then
        let s := chanMod n ch (fun c => { c with stage := none }) s
        retire n t b.rd 0 4 (publish n ch { bytes := (wordBytes ws').take (opLen b.a), ext := false, buffer := none } s)
      else
        retire n t b.rd (BitVec.ofNat 64 ws'.length) 4 (chanMod n ch (fun c => { c with stage := some (t, ws') }) s)

/-- The next waiting remote write is delivered when an external credit is free (R389). -/
def settleRemote (n ch : Nat) (s : State) : Option State :=
  let c := chanOf s n ch
  match c.remoteQ with
  | [] => none
  | (rn, rt) :: q =>
    if extFree c == 0 then none
    else
      let s := chanMod n ch (fun c => { c with remoteQ := q }) s
      let th := threadOf s rn rt
      some (match th.waits, th.outbound with
        | some b, some (_, _, ws) =>
          let ws' := ws ++ [BitVec.ofNat 64 b.b]
          let s := publish n ch { bytes := (wordBytes ws').take (opLen b.a), ext := true, buffer := none } s
          retire rn rt b.rd 0 4 (threadMod rn rt (fun th => { th with outbound := none }) s)
        | _, _ => s)

/-- The stager that waits for a local credit takes one that is free (R388). -/
def settleCredit (n ch : Nat) (s : State) : Option State :=
  let c := chanOf s n ch
  match c.creditQ with
  | [] => none
  | t :: q =>
    if localFree c == 0 then none
    else
      let s := chanMod n ch (fun c => { c with creditQ := q }) s
      some (match (threadOf s n t).waits with
        | some b => stageWord n ch t b s
        | none => s)

/-- One thing a channel can do now: give the head message to the longest-blocked reader, give the staging area to the next
claimant, give a freed local credit to the stager that waits for one, deliver a waiting remote write (R388-R391). -/
def settleOnce (n ch : Nat) (s : State) : Option State :=
  let c := chanOf s n ch
  match c.msgs, c.readersQ with
  | m :: _, t :: q =>
    let s := takeHead n ch t (chanMod n ch (fun c => { c with readersQ := q }) s)
    some (match (threadOf s n t).waits with
      | some b => retire n t b.rd (BitVec.ofNat 64 m.bytes.length) 4 s
      | none => s)
  | _, _ =>
    match c.stage, c.stagersQ with
    | none, t :: q =>
      let s := chanMod n ch (fun c => { c with stagersQ := q, stage := some (t, []) }) s
      some (match (threadOf s n t).waits with
        | some b => stageWord n ch t b s
        | none => chanMod n ch (fun c => { c with stage := none }) s)
    | _, _ => (settleCredit n ch s).orElse fun _ => settleRemote n ch s

/-- A channel does everything it can do now: at most one action for each waiting thread and each message that such an action
makes visible. -/
def settle (n ch : Nat) : Nat → State → State
  | 0, s => s
  | k + 1, s => match settleOnce n ch s with
    | some s' => settle n ch k s'
    | none => s

/-- Bound on the actions of `settle`: 64 threads of a cluster and the remote writers, each acting at most twice. -/
def settleAll (n ch : Nat) (s : State) : State :=
  let c := chanOf s n ch
  settle n ch (2 * (c.readersQ.length + c.stagersQ.length + c.creditQ.length + c.remoteQ.length) + c.msgs.length + 2) s

/-! ## Notices (R401) -/

/-- A notice of 64 bytes. -/
def noticeBytes (s : State) (n t kind cause detail addr lock mask : Nat) (ch : Nat) : Bytes :=
  [byte kind, byte (if kind == 2 || kind == 6 then 0xFF else t), byte cause, byte detail] ++ le 4 (pathOf s (corePlace s n t)).toNat ++
  le 8 addr ++ le 8 (threadOf s n t).pc.toNat ++ le 2 ch ++ le 2 lock ++ [byte (locksHeld s n t)] ++ [0, 0, 0] ++
  le 8 mask ++ List.replicate 24 0

/-- Pending notices in local thread order. -/
def insertNotice (x : Nat × Nat × Bytes) : List (Nat × Nat × Bytes) → List (Nat × Nat × Bytes)
  | [] => [x]
  | y :: r =>
    if y.1 == x.1 && y.2.1 == x.2.1 then x :: r
    else if x.1 < y.1 then x :: y :: r
    else y :: insertNotice x r

/-- Delivery of pending notices to channel 255 as its slots free. -/
def pumpNotices (n : Nat) : Nat → State → State
  | 0, s => s
  | k + 1, s =>
    match (clust s n).notices with
    | [] => s
    | x :: r =>
      if (chanOf s n 255).msgs.length < 64 then
        let s := clustMod n (fun c => { c with notices := r }) s
        let s := publish n 255 { bytes := x.2.2, ext := false, buffer := none } s
        pumpNotices n k (settleAll n 255 s)
      else s

/-- A notice to the supervisor: held as a pending bit per thread and kind, delivered as slots free, and recorded in the trace
buffer (R401, R661). -/
def notice (n t kind : Nat) (b : Bytes) (s : State) : State :=
  let s := traceAdd (carrierOf s (svcPlace n)) (0xFE00 + kind) (t / 8) t s
  let s := clustMod n (fun c => { c with notices := insertNotice (t, kind, b) c.notices }) s
  pumpNotices n ((clust s n).notices.length + 1) s

/-! ## Thread faults (R400, R403) -/

/-- The staged words of a thread are discarded, the staging area and the credit released (R388, R400). -/
def dropStaged (n t : Nat) (s : State) : State :=
  let s := threadMod n t (fun th => { th with outbound := none }) s
  (clust s n).chans.foldl (fun s e =>
    match e.2.stage with
    | some (h, _) =>
      if h == t then
        settleAll n e.1 (chanMod n e.1 (fun c => { c with stage := none, creditQ := c.creditQ.filter (· != t) }) s)
      else s
    | none => s) s

/-- A thread leaves every queue in which it waits; a staging area that it claimed without a staged word is released. -/
def withdraw (n t : Nat) (s : State) : State :=
  let s := { s with svc := { s.svc with clusters := tmap s.svc.clusters fun _ c =>
    { c with
      locks := tmap c.locks fun _ l => { l with waiters := l.waiters.filter (· != (n, t)) }
      chans := tmap c.chans fun _ x => { x with remoteQ := x.remoteQ.filter (· != (n, t)) } } } }
  let s := (clust s n).chans.foldl (fun s e =>
    let mine := match e.2.stage with | some (h, []) => h == t | _ => false
    let touched := mine || e.2.readersQ.contains t || e.2.stagersQ.contains t || e.2.creditQ.contains t
    if touched then
      settleAll n e.1 (chanMod n e.1 (fun c => { c with
        readersQ := c.readersQ.filter (· != t), stagersQ := c.stagersQ.filter (· != t)
        creditQ := c.creditQ.filter (· != t), stage := if mine then none else c.stage }) s)
    else s) s
  s

/-- A thread commits a fault: it stops at its pc in FAULTED, loses its staged message, keeps its read buffer and locks; notice of
kind 1, SVC_THREAD_FAULT, and SVC_SUPERVISOR_FAULT when it is the supervisor (R400, R403). G0 has no channel unit, so its threads
send no notice. -/
def threadFault (n t cause detail addr : Nat) (s : State) : State :=
  let ch := stagedChannel s n t
  let s := dropStaged n t (withdraw n t s)
  let s := threadMod n t (fun th => { th with st := .faulted, cause := cause, detail := detail, object := 0, waits := none }) s
  let s := if n == 85 then s
    else notice n t 1 (noticeBytes s n t 1 cause detail addr 0xFFFF 0 ch) s
  let s := raise 0x2801 (corePlace s n t) ([t, cause, detail] ++ two addr) s
  if t == 0 then raise 0x2805 (corePlace s n t) [cause, detail] s else s

/-! ## External messages (R392, R394) -/

/-- How an external write ended. -/
inductive ExtEnd where
  /-- The channel does not accept that kind: not enabled, ext clear, or the kind's bit clear. -/
  | closed
  /-- No external credit was free: dropped and counted in ext_drops. -/
  | noCredit
  | delivered
  deriving DecidableEq, Repr

/-- Does a channel accept an external kind: bit 2 packet path, 3 DMA completion, 4 timer, 5 another cluster or management? -/
def acceptsExt (c : Chan) (kind : Nat) : Bool := chEnabled c && bit c.cfg 1 && bit c.cfg kind

/-- An external write of a message without a buffer (sources 4, 5 and 6). -/
def extMessage (n ch kind : Nat) (b : Bytes) (s : State) : State × ExtEnd :=
  let c := chanOf s n ch
  if !acceptsExt c kind then (s, .closed)
  else if extFree c == 0 then
    (chanMod n ch (fun c => { c with extDrops := sat 16 (c.extDrops + 1) }) s, .noCredit)
  else (settleAll n ch (publish n ch { bytes := b.take 64, ext := true, buffer := none } s), .delivered)

/-- The header of a buffered external message (R394): 40 bytes and 24 reserved ones. -/
def extHeader (len : Nat) (index : Nat) (source reason : Nat) (trunc : Bool) (md : Bytes) : Bytes :=
  le 2 len ++ le 2 index ++ [byte source, byte reason, byte (b2n trunc), 0] ++ fitTo 32 md ++ List.replicate 24 0

/-- An external write of the packet path: the item goes to the lowest free buffer, truncated to its size, before its message becomes
visible (R394). -/
def extItem (n ch source reason : Nat) (item md : Bytes) (s : State) : State × ExtEnd :=
  let c := chanOf s n ch
  if !acceptsExt c 2 then (s, .closed)
  else if extFree c == 0 then
    (chanMod n ch (fun c => { c with extDrops := sat 16 (c.extDrops + 1) }) s, .noCredit)
  else
    let k := freeBuffer c
    let size := 2 ^ (min 14 (max 8 (fld c.bufReg 48 4)))
    let s := memWrite s (fld c.bufReg 0 48 + k * size) (item.take size)
    let m : Msg := { bytes := extHeader item.length k source reason (decide (size < item.length)) md, ext := true, buffer := some k }
    (settleAll n ch (publish n ch m s), .delivered)

/-- A message of a source without a buffer, with the 8 header bytes (sources 4 and 5). -/
def extEventBytes (source : Nat) (words : Bytes) : Bytes := extHeader 0 0xFFFF source 0 false words

/-- Room for one more external message of a kind: what the command queue of a cluster asks of its reply channel (R426). -/
def extRoom (s : State) (n ch kind : Nat) : Bool := acceptsExt (chanOf s n ch) kind && 0 < extFree (chanOf s n ch)

end Sys2Proof.Machine
end

