-- ==== Sys2Proof/Machine/Flags.lean ====
section
/-! DEFINITION. Status and detail codes of replies (R447), the checks that give one bit or number of a byte string: CRC-32C (R680),
the Internet checksum (R98), and the reply bytes (R435). -/

namespace Sys2Proof.Machine

/-! ## Status major codes (R447) -/

def stOk : Nat := 0x00
def stAccepted : Nat := 0x01
def stBadOpcode : Nat := 0x10
def stBadParam : Nat := 0x11
def stBadPath : Nat := 0x12
def stDenied : Nat := 0x20
def stLifecycle : Nat := 0x21
def stBusy : Nat := 0x30
def stNoResource : Nat := 0x31
def stAborted : Nat := 0x40
def stTimeout : Nat := 0x41
def stFault : Nat := 0x50
def stIncomplete : Nat := 0x60

/-! ## Detail codes (R447) -/

def dReserved : Nat := 0x01
def dSlotCount : Nat := 0x02
def dRange : Nat := 0x03
def dTagInUse : Nat := 0x04
def dKeyExists : Nat := 0x10
def dNoEntry : Nat := 0x11
def dUnwrapFailed : Nat := 0x12
def dSaInUse : Nat := 0x13
def dNotActive : Nat := 0x14
def dNotStopped : Nat := 0x15
def dFormat : Nat := 0x16
def dShareMismatch : Nat := 0x17
def dNvmePool : Nat := 0x18
def dWriterExists : Nat := 0x19
def dPathInUse : Nat := 0x1A
def dKeyMismatch : Nat := 0x1B
def dKeySet : Nat := 0x1C
def dNotHalted : Nat := 0x1D
def dNoMessage : Nat := 0x1E
def dServiceId : Nat := 0x1F
def dNoStage : Nat := 0x20
def dTableOff : Nat := 0x21
def dPartMismatch : Nat := 0x22
def dClass : Nat := 0x30
def dProtection : Nat := 0x31
def dSignature : Nat := 0x32
def dRollback : Nat := 0x33
def dNotOwn : Nat := 0x34
def dShutdownPending : Nat := 0x40
def dLogActive : Nat := 0x41
def dSlotInUse : Nat := 0x42
def dStageOpen : Nat := 0x43
def dEpochsLive : Nat := 0x44
def dReseeding : Nat := 0x45
def dVersions : Nat := 0x46
def dChangeList : Nat := 0x47
def dUnprotected : Nat := 0x48
def dInUse : Nat := 0x49
def dQueueFull : Nat := 0x4A
def dTableFull : Nat := 0x50
def dReservations : Nat := 0x51
def dOverlayLimit : Nat := 0x52
def dBufferShort : Nat := 0x54
def dEpochMismatch : Nat := 0x60
def dSuperseded : Nat := 0x61
def dQueueReset : Nat := 0x62
def dTwinRefused : Nat := 0x63
def dTwinAbsent : Nat := 0x64
def dTwin : Nat := 0x70
def dPartner : Nat := 0x71
def dElement : Nat := 0x80
def dEcc : Nat := 0x81
def dHostAccess : Nat := 0x82
def dCutShort : Nat := 0x90
def dState : Nat := 0xA0
def dTwinLost : Nat := 0xB0

/-- A reply body without result, and with one. -/
def rep (status detail : Nat) : Rep := { status := status, detail := detail, result := [] }
def repOk (result : Bytes) : Rep := { status := stOk, detail := 0, result := result }
def badParam (detail : Nat) : Rep := rep stBadParam detail
def busy (detail : Nat) : Rep := rep stBusy detail
def noResource (detail : Nat) : Rep := rep stNoResource detail
def denied (detail : Nat) : Rep := rep stDenied detail
def aborted (detail : Nat) : Rep := rep stAborted detail
/-- A FAULT reply carries the path word of the element that failed (R447). -/
def faultRep (detail path : Nat) : Rep := { status := stFault, detail := detail, result := le 4 path }

/-- The 32 bytes of a reply (R435). -/
def replyBytes (tag opcode kind epoch : Nat) (r : Rep) : Bytes :=
  le 2 tag ++ le 2 opcode ++ [byte r.status, byte kind] ++ le 2 r.detail ++ le 4 epoch ++ [0, 0, 0, 0] ++ fitTo 16 r.result

/-! ## CRC-32C (R680) -/

/-- One bit of the reflected CRC with polynomial 0x1EDC6F41 (reversed 0x82F63B78). -/
def crcBit (c : BitVec 32) : BitVec 32 := if c.getLsbD 0 then (c >>> 1) ^^^ 0x82F63B78#32 else c >>> 1

/-- One byte into the CRC register. -/
def crcByte (c : BitVec 32) (b : Byte) : BitVec 32 :=
  crcBit (crcBit (crcBit (crcBit (crcBit (crcBit (crcBit (crcBit (c ^^^ b.setWidth 32))))))))

/-- The CRC-32C of a byte string with an init value taken as given, and the final inversion (R680). -/
def crc32c (init : BitVec 32) (d : Bytes) : Nat := ((d.foldl crcByte init) ^^^ 0xFFFFFFFF#32).toNat

/-! ## The Internet checksum (R98) -/

/-- Sum of the 16-bit network-order words of a byte string; an odd last byte is padded with zero. -/
def sum16 : Bytes → Nat
  | [] => 0
  | [a] => a.toNat * 256
  | a :: b :: r => a.toNat * 256 + b.toNat + sum16 r

/-- Folding of the carries into 16 bits. -/
def fold16 (n : Nat) : Nat :=
  let f := fun k => k % 65536 + k / 65536
  f (f (f (f n)))

/-- The one's-complement checksum of a byte string plus an initial sum. -/
def inetSum (init : Nat) (d : Bytes) : Nat := (65535 - fold16 (init + sum16 d)) % 65536

/-- A checksum adjusted for a 16-bit word that changes (RFC 1624). -/
def inetAdjust (sum old new : Nat) : Nat :=
  (65535 - fold16 ((65535 - sum % 65536) + (65535 - old % 65536) + new % 65536)) % 65536

end Sys2Proof.Machine
end

