-- ==== Sys2Proof/Machine/HostOps.lean ====
section
/-! DEFINITION. Functions of the host links: which exist, their shares, their interrupts, and the writes the device issues for
them (R276, R288-R290, R305, R306, R316, R323). -/

namespace Sys2Proof.Machine

/-- Table key of a function. -/
def fnKey (f : Fn) : Nat := ((f.link * 2 + f.half) * 2 + f.pool) * 256 + f.num

/-- Table key of a link or half. -/
def linkKey (link half : Nat) : Nat := 2 * link + half

/-- Key of a pool: link, half, pool. -/
def poolKey (f : Fn) : Nat := (f.link * 2 + f.half) * 2 + f.pool

def isBifurcated (s : State) (link : Nat) : Bool := tgetD s.host.bifurcated link false

/-- The link or half exists (R275). -/
def halfExists (s : State) (link half : Nat) : Bool :=
  decide (link < 4) && (half == 0 || (half == 1 && isBifurcated s link))

def linkOf (s : State) (link half : Nat) : HalfLink := tgetD s.host.links (linkKey link half) {}
def linkMod (link half : Nat) (f : HalfLink → HalfLink) (s : State) : State :=
  { s with host := { s.host with links := tmod s.host.links (linkKey link half) {} f } }

def funcOf (s : State) (f : Fn) : Func := tgetD s.host.funcs (fnKey f) {}
def funcMod (f : Fn) (g : Func → Func) (s : State) : State :=
  { s with host := { s.host with funcs := tmod s.host.funcs (fnKey f) {} g } }

/-- The PF of a function's pool. -/
def pfOf (f : Fn) : Fn := { f with num := 0 }

/-- VFs enabled in a pool: N of R305. -/
def poolN (s : State) (f : Fn) : Nat :=
  let p := funcOf s (pfOf f)
  if p.vfEnable then p.numVfs else 0

/-- Does the function exist (R276, R302)? -/
def fnExists (s : State) (f : Fn) : Bool :=
  halfExists s f.link f.half && decide (f.pool < 2) && (f.num == 0 || decide (f.num ≤ poolN s f))

/-- Q of R305. -/
def shareQ (s : State) (f : Fn) : Nat :=
  let t := if isBifurcated s f.link then 1024 else 2048
  min 512 (2 ^ Nat.log2 (t / (poolN s f + 1)))

/-- V of R305. -/
def shareV (s : State) (f : Fn) : Nat :=
  let t := if isBifurcated s f.link then 512 else 1024
  min 512 (2 ^ Nat.log2 (t / (poolN s f + 1)))

/-- The 4-byte function reference of R323. -/
def fnRef (f : Fn) : Nat := f.link + 4 * f.half + 8 * f.pool + 256 * f.num

/-- The function a reference names, when its reserved bits are zero (R323). -/
def refFn (r : Nat) : Fn := { link := fld r 0 2, half := fld r 2 1, pool := fld r 3 1, num := fld r 8 8 }
def refOk (r : Nat) : Bool := fld r 4 4 == 0 && fld r 16 16 == 0

/-- INTx is asserted: a cause bit is set whose mask bit is clear (R289). -/
def intxOn (g : Func) : Bool := and32 g.intxCause (2 ^ 32 - 1 - g.intxMask % 2 ^ 32) != 0

/-- A link in L1 leaves it when the device has traffic to send (R292). -/
def leaveL1 (link half : Nat) (s : State) : State :=
  if (linkOf s link half).inL1 then linkMod link half (fun x => { x with inL1 := false }) s else s

/-- Something a link sends for a function. -/
def toHost (f : Fn) (o : Out) (s : State) : State := emit o (leaveL1 f.link f.half s)

/-- May the function issue requests: Bus Master Enable set, and in D0 (R293, R297)? -/
def canIssue (s : State) (f : Fn) : Bool := (funcOf s f).bme && !(funcOf s f).d3

/-- Signal of a vector of a function; one that may issue nothing holds it (R288, R289, R293, R297). -/
def signalVector (f : Fn) (v : Nat) (s : State) : State :=
  let g := funcOf s f
  let e := tgetD g.msix v {}
  if shareV s f ≤ v || (!g.msixEnable && (f.num != 0 || g.intDisable)) then s
  else if g.msixEnable && e.masked then funcMod f (fun g => { g with msix := tput g.msix v { e with pending := true } }) s
  else if !canIssue s f then funcMod f (fun g => { g with held := g.held ++ [v] }) s
  else if g.msixEnable then toHost f (.msix f v) s
  else
    let g' := { g with intxCause := setBit g.intxCause (v % 32) }
    let s := funcMod f (fun _ => g') s
    if intxOn g' && !intxOn g then toHost f (.intx f true) s else s

/-- Signal on the event vector of a function, when PF_CTRL or VF_CTRL enables it (R279, R308). -/
def signalEvent (f : Fn) (s : State) : State :=
  let c := (funcOf s f).ctrl
  if bit c 8 then signalVector f (fld c 16 9) s else s

/-- A HOST or VF event of a function: record at the PCIe controller, and the event vectors (R301, R324). -/
def raiseFn (code : Nat) (f : Fn) (words : List Nat) (s : State) : State :=
  let s := raise code (pciePlace f.link) words s
  let s := if f.num != 0 then signalEvent f s else s
  signalEvent (pfOf f) s

/-- Page numbers that a write touches, relative to a log's base. -/
def logPages (l : DirtyLog) (addr n : Nat) : List Nat :=
  if n == 0 then [] else
    let lo := (max addr l.base - l.base) / 4096
    let hi := (min (addr + n) (l.base + l.len) - 1 - l.base) / 4096
    if addr < l.base + l.len && l.base < addr + n then span lo (hi + 1 - lo) else []

/-- A rising list with a number added. -/
def insertNat : List Nat → Nat → List Nat
  | [], n => [n]
  | a :: r, n => if n < a then n :: a :: r else if n = a then a :: r else a :: insertNat r n

/-- Marking of the dirty-page logs of a function for one memory write, before the write is emitted (R316). -/
def markLogs (f : Fn) (addr n : Nat) (s : State) : State :=
  s.host.logs.foldl (fun s e =>
    let l := e.2
    if l.fn == f then
      let outside := addr < l.base || l.base + l.len < addr + n
      let l' := { l with
        live := (logPages l addr n).foldl insertNat l.live
        overflow := l.overflow || outside
        reported := l.reported || outside }
      let s := { s with host := { s.host with logs := tput s.host.logs e.1 l' } }
      if outside && !l.reported then
        raiseFn 0x1C04 f (fnRef f :: two (if addr < l.base then addr else l.base + l.len)) s
      else s
    else s) s

/-- Max Payload Size and Max Read Request Size of a function in bytes: 128 to 512 and 128 to 4,096 (R271). -/
def payloadMax (g : Func) : Nat := 128 * 2 ^ min g.maxPayload 2
def readMax (g : Func) : Nat := 128 * 2 ^ min g.maxRead 5

/-- Attributes of a request: Relaxed Ordering and No Snoop only where the context allows them and the function enables them (R290, R300). -/
def attrOf (g : Func) (relaxed noSnoop : Bool) : TlpAttr :=
  { relaxed := relaxed && g.relaxed, noSnoop := noSnoop && g.noSnoop, ido := g.ido }

/-- The requests of one write: none longer than Max Payload Size, none across a 4 KiB boundary (R271). -/
def writeTlps (f : Fn) (attr : TlpAttr) (most : Nat) : Nat → Nat → Bytes → State → State
  | 0, _, _, s => s
  | n + 1, a, b, s =>
    if b.isEmpty then s
    else
      let k := min most (4096 - a % 4096)
      writeTlps f attr most n (a + k) (b.drop k) (toHost f (.hostWrite f a (b.take k) attr) s)

/-- A memory write leaves: marked in the function's logs before it is emitted (R316). -/
def sendWrite (f : Fn) (attr : TlpAttr) (addr : Nat) (data : Bytes) (s : State) : State :=
  writeTlps f attr (payloadMax (funcOf s f)) data.length addr data (markLogs f addr data.length s)

/-- A memory write the device issues for a function, with the Relaxed Ordering and No Snoop bits of its context; one that the function may
not issue now is held (R290, R293, R297). -/
def hostWriteAs (relaxed noSnoop : Bool) (f : Fn) (addr : Nat) (data : Bytes) (s : State) : State :=
  let attr := attrOf (funcOf s f) relaxed noSnoop
  if canIssue s f then sendWrite f attr addr data s
  else funcMod f (fun g => { g with heldWrites := g.heldWrites ++ [(addr, data, attr)] }) s

/-- A write that never passes another: a completion entry, a reply, a bitmap or an image. -/
def hostWrite (f : Fn) (addr : Nat) (data : Bytes) (s : State) : State := hostWriteAs false false f addr data s

/-- Ring entries of a command queue: 2^size_log2, 0 to 3 treated as 4 (R280). -/
def cqSize (cfg : Nat) : Nat := 2 ^ max 4 (fld cfg 4 4)

/-- Command queue `q` of a function. -/
def cqOf (s : State) (f : Fn) (q : Nat) : CmdQueue := tgetD (funcOf s f).queues q {}
def cqMod (f : Fn) (q : Nat) (g : CmdQueue → CmdQueue) (s : State) : State :=
  funcMod f (fun x => { x with queues := tmod x.queues q {} g }) s

/-- Replies are written while (RQ_TAIL − RQ_HEAD) mod 65,536 is below the ring size (R281). -/
def rqRoom (c : CmdQueue) : Bool := (c.rqTail + 65536 - c.rqHead) % 65536 < cqSize c.cfg

/-- Write of the replies that wait in the backlog, as far as there is room and the function may issue requests; each signals the queue's vector when irq_en is set
(R280, R281). -/
def flushReplies (f : Fn) (q : Nat) : Nat → State → State
  | 0, s => s
  | n + 1, s =>
    let c := cqOf s f q
    match c.backlog with
    | [] => s
    | b :: r =>
      if rqRoom c && canIssue s f then
        let s := hostWriteAs false (bit c.cfg 1) f (c.rqBase + 32 * (c.rqTail % cqSize c.cfg)) b s
        let s := cqMod f q (fun c => { c with rqTail := (c.rqTail + 1) % 65536, backlog := r }) s
        let s := if bit c.cfg 8 then signalVector f (fld c.cfg 9 9) s else s
        flushReplies f q n s
      else s

/-- A reply of 32 bytes on the ring of a function's queue. A queue that is neither enabled nor running has been reset, and its
replies are discarded (R298, R450). -/
def ringReply (f : Fn) (q : Nat) (b : Bytes) (s : State) : State :=
  let c := cqOf s f q
  if bit c.cfg 0 || c.running then
    flushReplies f q (c.backlog.length + 1) (cqMod f q (fun c => { c with backlog := c.backlog ++ [b] }) s)
  else s

/-- A function may issue requests again: what it held leaves in its order, then its replies, then the interrupts still unmasked (R290, R293,
R297). -/
def resumeIssue (f : Fn) (s : State) : State :=
  if !canIssue s f then s
  else
    let g := funcOf s f
    let s := funcMod f (fun g => { g with held := [], heldWrites := [] }) s
    let s := g.heldWrites.foldl (fun s w => sendWrite f w.2.2 w.1 w.2.1 s) s
    let s := g.queues.foldl (fun s e => flushReplies f e.1 (e.2.backlog.length + 1) s) s
    g.held.foldl (fun s v => signalVector f v s) s

end Sys2Proof.Machine
end

