-- ==== Sys2Proof/Machine/Operands.lean ====
section
/-! DEFINITION. The operand forms of the command rows: parameter fields, target paths, requester codes and grants, and the two address
spaces of a data buffer (R431-R433, R615, R616). -/

/-! ## Parameters (R431) -/

namespace Sys2Proof

open Sys2Proof.Machine

/-- Little-endian parameter field: `len` bytes from parameter byte `off`. -/
def Cmd.prm (c : Cmd) (off len : Nat) : Nat := rd c.params off len

/-- Parameter bytes. -/
def Cmd.prmBytes (c : Cmd) (off len : Nat) : Bytes := slice c.params off len

def Cmd.both (c : Cmd) : Bool := c.flags.getLsbD 0
def Cmd.anySystem (c : Cmd) : Bool := c.flags.getLsbD 1
def Cmd.staged (c : Cmd) : Bool := c.flags.getLsbD 2
def Cmd.fence (c : Cmd) : Bool := c.flags.getLsbD 3

/-- Class of an opcode (R13). -/
def opClass (opcode : Nat) : Nat := fld opcode 10 6

/-- Place of the target path word. -/
def Cmd.place (c : Cmd) : Nat := c.target.toNat % 2 ^ 27

end Sys2Proof

namespace Sys2Proof.Machine

/-! ## Target forms -/

/-- What a command may name as its target. -/
inductive Target where
  /-- The package: P of R451. -/
  | package
  /-- A fabric die or fabric region. -/
  | dieOrRegion
  /-- A die or the package. -/
  | dieOrPackage
  /-- A fabric region: R of R457. -/
  | region
  /-- A single MAC unit: M of R460. -/
  | mac
  /-- A MAC unit or a broadcast path. -/
  | macs
  | unit
  | unitOrCluster
  | cluster
  | clusterOrPackage
  | cartSlot
  /-- Any element; a broadcast path is none. -/
  | anyElement
  deriving DecidableEq, Repr

def isMac (p : Nat) : Bool := levelOf p == .unit && pCluster p == 17 && decide (pUnit p < 64)
def isCartSlot (p : Nat) : Bool := levelOf p == .unit && pCluster p == 17 && (pUnit p == 96 || pUnit p == 97)

/-- Does a place have the form? -/
def Target.takes (t : Target) (p : Nat) : Bool :=
  match t with
  | .package => levelOf p == .package
  | .dieOrRegion => (levelOf p == .die || levelOf p == .region) && pDie p != 0
  | .dieOrPackage => levelOf p == .die || levelOf p == .package
  | .region => levelOf p == .region && pDie p != 0
  | .mac => isMac p
  | .macs => isMac p || levelOf p == .broadcast
  | .unit => levelOf p == .unit
  | .unitOrCluster => levelOf p == .unit || levelOf p == .cluster
  | .cluster => levelOf p == .cluster
  | .clusterOrPackage => levelOf p == .cluster || levelOf p == .package
  | .cartSlot => isCartSlot p
  | .anyElement => levelOf p != .broadcast && levelOf p != .absent

/-! ## Requesters (R615) -/

/-- The queue itself, whether or not it has been lost since. -/
def origin : QueueId → QueueId
  | .lost q => origin q
  | q => q

/-- Requester code of a queue (R615); a bed's cluster counts for its bed. -/
def requester (s : State) (q : QueueId) : Nat :=
  match origin q with
  | .pf l h p _ => 4 * l + 2 * h + p
  | .vf l h p _ => 16 + 4 * l + 2 * h + p
  | .oob n => 65 + n
  | .twin _ => 69
  | .mgmt => 64
  | .jtag => 70
  | .lost _ => 255
  | .bed n => match bedOf s n with
    | some b => 32 + b
    | none => 255

/-- The function that submits on a queue. -/
def queueFn (q : QueueId) : Option Fn :=
  match origin q with
  | .pf l h p _ => some { link := l, half := h, pool := p, num := 0 }
  | .vf l h p v => some { link := l, half := h, pool := p, num := v }
  | _ => none

/-- Kind code of a queue in SYS_QUEUE_ERROR (R463). -/
def queueKind (q : QueueId) : Nat :=
  match q with
  | .pf .. => 1
  | .vf .. => 2
  | .oob _ => 3
  | .twin _ => 4
  | .bed _ => 5
  | .mgmt => 0
  | .jtag => 0
  | .lost _ => 0

/-- PROT_REQ entry of a requester code. -/
def protReq (s : State) (code : Nat) : Nat := tgetD s.prot.req code 0

/-- Class bit of the requester's entry (R616). -/
def grantsClass (s : State) (code cls : Nat) : Bool := bit (protReq s code) cls

/-- Dies that a target names: all five for die field 7 (R616). -/
def grantsDies (s : State) (code p : Nat) : Bool :=
  if pDie p == 7 then fld (protReq s code) 24 5 == 31 else bit (protReq s code) (24 + pDie p)

/-- Classes a queue kind may carry (R440); the opcode of a VF queue is checked by itself. -/
def queueCarries (q : QueueId) (opcode : Nat) : Bool :=
  let cls := opClass opcode
  match origin q with
  | .pf .. => true
  | .vf .. => opcode == 0x0001 || opcode == 0x0002 || opcode == 0x0003 || opcode == 0x1C01 ||
      (decide (0x2001 ≤ opcode) && decide (opcode ≤ 0x2005))
  | .oob _ => true
  | .mgmt => true
  | .jtag => true
  | .lost _ => false
  | .twin _ => cls != 0x07 && cls != 0x08 && cls != 0x0A && cls != 0x10
  | .bed _ => cls != 0x07 && cls != 0x0A && cls != 0x10

/-- A command of a VF queue names that VF (R309, R441): VF_QUERY and the queue-pair opcodes carry a reference. A PF queue names
functions of its own pool (R323). -/
def namesOwn (c : Cmd) (opcode : Nat) : Bool :=
  match origin c.queue with
  | .pf l h p _ =>
    if opClass opcode == 0x07 || (decide (0x2001 ≤ opcode) && decide (opcode ≤ 0x2005)) then
      let f := refFn (c.prm 0 4)
      !refOk (c.prm 0 4) || (f.link == l && f.half == h && f.pool == p)
    else true
  | .vf l h p v =>
    if opcode == 0x1C01 || opClass opcode == 0x08 then
      refOk (c.prm 0 4) && refFn (c.prm 0 4) == { link := l, half := h, pool := p, num := v }
    else true
  | _ => true

/-! ## Internal addresses: who owns them, who may reach them (R616, R619) -/

/-- The die that owns an internal address: fabric port blocks, TBL copies, scratch and SVC registers by cluster, PROT blocks by
die; everything else is the hub's. -/
def ownerDie (a : Nat) : Nat :=
  if 0x00C000000000 ≤ a && a < 0x00C000400000 then portDie ((a - 0x00C000000000) / 0x1000)
  else if 0x00C400000000 ≤ a && a < 0x00C400080000 then (a - 0x00C400000000) / 0x20000 + 1
  else if 0x009800000000 ≤ a && a < 0x009800000000 + 0x200000 * 85 then pDie (svcPlace ((a - 0x009800000000) / 0x200000))
  else if 0x009000000000 ≤ a && a < 0x009000000000 + 0x10000 * 85 then pDie (svcPlace ((a - 0x009000000000) / 0x10000))
  else if 0x00E400000000 ≤ a && a < 0x00E405000000 then (a - 0x00E400000000) / 0x1000000
  else 0

/-- Protection state of a die. -/
def dieProt (s : State) (d : Nat) : DieProt := tgetD s.prot.dies d {}
def dieProtMod (d : Nat) (f : DieProt → DieProt) (s : State) : State :=
  { s with prot := { s.prot with dies := tmod s.prot.dies d {} f } }

/-- Does one range entry of the owning die grant the pages of `[a, a + n)` to the requester (R616)? -/
def rangeGrants (s : State) (code a n : Nat) (write : Bool) : Bool :=
  (dieProt s (ownerDie a)).ranges.any fun e =>
    let r := e.2
    bit r 0 && bit r (if write then 2 else 1) && fld r 8 8 == code &&
    decide (fld r 16 36 ≤ a / 4096) && decide ((a + (n - 1)) / 4096 ≤ fld r 64 36)

/-- A refusal of the protection map on a die: counted, latched, and reported at most once per second per die (R616, R619, R628). -/
def violation (d code kind addr : Nat) (s : State) : State :=
  let x := dieProt s d
  let due := secondPassed s x.violRaised
  let s := dieProtMod d (fun x => { x with
    violCount := sat 16 (x.violCount + 1), violReq := code, violKind := kind, violAddr := addr % 2 ^ 48
    violRaised := if due then some s.time.up else x.violRaised }) s
  if due then raise 0x4001 (diePlace d) ([code, kind] ++ two addr) s else s

/-! ## Data buffers of commands: host memory of the submitting function, or internal (R451, R460) -/

/-- Is an internal range plain memory: DDR5 or scratch (R415, R500)? -/
def isMemory (a n : Nat) : Bool :=
  (decide (0x400000000000 ≤ a) && decide (a + n ≤ 0x500000000000)) ||
  (decide (0x009800000000 ≤ a) && decide (a + n ≤ 0x009800000000 + 0x200000 * 85))

/-- May a command use this data buffer: `none` when it may, else the refusal. Space 0 needs a submitting function; space 1 needs a
grant of the protection map (assumption 10). -/
def bufferRefusal (s : State) (q : QueueId) (space a n : Nat) (write : Bool) : Option Rep :=
  if space == 0 then (if (queueFn q).isSome then none else some (badParam dRange))
  else if space == 1 then
    if !isMemory a n then some (badParam dRange)
    else if rangeGrants s (requester s q) a n write then none else some (denied dProtection)
  else some (badParam dRange)

/-- Write of a command's data; none when the host access fails (R461). -/
def bufferWrite (q : QueueId) (space a : Nat) (d : Bytes) (s : State) : Option State :=
  if space == 0 then
    match queueFn q with
    | some f =>
      let g := funcOf s f
      if !g.bme || g.d3 || !fnExists s f then none else some (hostWrite f a d s)
    | none => none
  else some (memWrite s a d)

end Sys2Proof.Machine
end

