-- ==== Sys2Proof/Machine/Runner.lean ====
section
/-! DEFINITION. How a command packet is answered: the checks in their order (R446), staged, system-wide and forwarded commands
(R434, R448, R449, R682), replies and completions (R435, R436, R450). -/

namespace Sys2Proof.Machine

/-- How the execution of an opcode ends. -/
inductive Done where
  /-- Refused: no effect (R446). -/
  | refuse (r : Rep)
  /-- Executed, with a final reply. -/
  | reply (r : Rep) (s : State)
  /-- ACCEPTED: the completion is owed under a key (R436). What the command does once the ACCEPTED reply has left comes last. -/
  | accept (key : Nat) (s : State) (after : State → State := id)
  /-- The one reply comes later, without an ACCEPTED before it (R319): owed under a key. -/
  | later (key : Nat) (s : State)

/-- Executed with OK and result bytes. -/
def Done.ok (result : Bytes) (s : State) : Done := .reply (repOk result) s

/-- How an opcode is executed when the package has a twin (R449, R470). -/
inductive Reach where
  | here
  /-- A change that replies after the twin has applied it (R449, R682). -/
  | systemWide
  /-- An act of both packages' stage (R454, R470, R471). -/
  | stage
  /-- CFG_FIX, which has its own exchange with the twin (R473). -/
  | fix
  deriving DecidableEq, Repr

/-- The entries a count or length field covers: none for a value outside its range, which the opcode refuses. -/
def counted (lo hi n : Nat) : Nat := if lo ≤ n && n ≤ hi then n else 0

/-- An opcode: what it needs, where it acts, what it does. -/
structure Op where
  code : Nat
  /-- Parameter bytes needed (R433). -/
  need : Bytes → Nat
  /-- Reserved fields within them: offset and length. -/
  zeros : List (Nat × Nat)
  target : Target
  /-- Takes the staged flag (R434). -/
  stageable : Bool
  reach : Reach
  /-- Allowed in this life-cycle state (check 5). -/
  life : State → Cmd → Bool
  body : Cmd → State → Done
  /-- The parameters that go to the twin with a command executed on both packages. -/
  send : Cmd → State → Bytes := fun c _ => c.params

/-- An opcode of a fixed number of parameter bytes. -/
def mkOp (code n : Nat) (zeros : List (Nat × Nat)) (target : Target) (body : Cmd → State → Done) : Op :=
  { code := code, need := fun _ => n, zeros := zeros, target := target, stageable := false, reach := .here
    life := fun _ _ => true, body := body }

/-! ## Replies -/

/-- A reply on its queue (none on a lost one): the ring of a function, a message of a bed's reply channel, an MCTP message, or a message to the twin
(R426, R435, R438, R439). -/
def sendReply (q : QueueId) (tag opcode kind epoch : Nat) (r : Rep) (s : State) : State :=
  let b := replyBytes tag opcode kind epoch r
  match q with
  | .pf l h p n =>
    ringReply { link := l, half := h, pool := p, num := 0 } n b (emit (.reply q tag opcode kind epoch r) s)
  | .vf l h p v =>
    ringReply { link := l, half := h, pool := p, num := v } 0 b (emit (.reply q tag opcode kind epoch r) s)
  | .lost _ => s
  | .oob _ => emit (.reply q tag opcode kind epoch r) s
  | .mgmt => emit (.reply q tag opcode kind epoch r) s
  | .jtag => emit (.reply q tag opcode kind epoch r) s
  | .twin _ => sendTwin (.reply opcode tag r (r.status == stAccepted)) s
  | .bed n =>
    let c := (clust s n).cmdq
    (extMessage n (fld c.cfg 48 8) 5 b (emit (.reply q tag opcode kind epoch r) s)).1

/-- Is the tag in use on the queue (R442)? -/
def tagInUse (s : State) (q : QueueId) (tag : Nat) : Bool :=
  s.cmd.owed.any (fun o => o.queue == q && o.tag == tag) || s.cmd.joint.any (fun j => j.queue == q && j.tag == tag)

/-- Does the queue still owe a final reply (R434, fence)? -/
def owes (s : State) (q : QueueId) : Bool :=
  s.cmd.owed.any (fun o => o.queue == q) || s.cmd.joint.any (fun j => j.queue == q)

def dropOwed (q : QueueId) (tag : Nat) (s : State) : State :=
  { s with cmd := { s.cmd with owed := s.cmd.owed.filter fun o => !(o.queue == q && o.tag == tag) } }

def dropJoint (q : QueueId) (tag : Nat) (s : State) : State :=
  { s with cmd := { s.cmd with joint := s.cmd.joint.filter fun j => !(j.queue == q && j.tag == tag) } }

/-- The answer of a command executed on both packages: OK only when both succeed, otherwise the first failure with kind [1]
naming the package that reported it, and TWIN_LOST where the twin was lost meanwhile (R449). -/
def jointAnswer (here there : Rep) : Rep × Nat :=
  if here.status != stOk then (here, 0)
  else if there.status != stOk then (there, 2)
  else if there.detail == dTwinLost then ({ here with detail := dTwinLost }, 0)
  else (here, 0)

/-- A joint command that has both final replies sends its own (R449). -/
def closeJoint (j : Joint) (s : State) : State :=
  match j.here, j.there with
  | some h, some t =>
    let (r, k) := if j.only then (t, 2) else jointAnswer h t
    sendReply j.queue j.tag j.opcode (b2n j.acceptedSent + k) j.epoch r (dropJoint j.queue j.tag s)
  | _, _ => { s with cmd := { s.cmd with joint := s.cmd.joint.map fun x =>
      if x.queue == j.queue && x.tag == j.tag then j else x } }

def findJoint (s : State) (q : QueueId) (tag : Nat) : Option Joint :=
  s.cmd.joint.find? fun j => j.queue == q && j.tag == tag

/-- The final reply of a command that was ACCEPTED here (R436); one that waits for the twin too records it (R449). -/
def finish (o : Owed) (r : Rep) (s : State) : State :=
  let s := dropOwed o.queue o.tag s
  match findJoint s o.queue o.tag with
  | some j => closeJoint { j with here := some r } s
  | none => sendReply o.queue o.tag o.opcode (b2n o.accepted) o.epoch r s

/-- The owed command of an opcode and key. -/
def owedBy (s : State) (opcode key : Nat) : Option Owed :=
  s.cmd.owed.find? fun o => o.opcode == opcode && o.key == key

/-- Completion of the owed command of an opcode and key, where one is owed. -/
def finishKey (opcode key : Nat) (r : Rep) (s : State) : State :=
  match owedBy s opcode key with
  | some o => finish o r s
  | none => s

/-! ## Checks (R446) -/

/-- Check 8, the parts common to every opcode: slots needed and reserved fields (R433), and the staged flag (R434). -/
def paramRefusal (o : Op) (c : Cmd) : Option Rep :=
  if c.staged && !o.stageable then some (badParam dReserved)
  else if c.slots * 64 < 16 + o.need c.params then some (badParam dSlotCount)
  else if o.zeros.any (fun z => !allZero (slice c.params z.1 (min z.2 (o.need c.params - z.1)))) then
    some (badParam dReserved)
  else none

/-- The state in which the package refuses changes: FENCED for classes CFG, TBL and FLOW (R597), and R682 for system-wide ones. -/
def twinRefusal (o : Op) (c : Cmd) (s : State) : Option Rep :=
  let cls := opClass o.code
  let wide := (o.reach != .here || c.both) && (match origin c.queue with | .twin _ => false | _ => true)
  if s.twin.state == .fenced && (cls == 1 || cls == 2 || cls == 5) then some (busy dUnprotected)
  else if wide && (s.twin.state == .joining || s.twin.state == .fenced ||
      (s.twin.state == .sole && s.twin.leads && decide (2 ≤ s.twin.joinStep)) ||
      (o.reach == .fix && s.twin.leads && decide (2 ≤ s.twin.joinStep))) then some (busy dUnprotected)
  else none

/-- Checks 1 to 6 (R446): the first that fails, with a refusal of the protection map named so that it is counted. -/
def rightsRefusal (o : Op) (c : Cmd) (s : State) : Option (Rep × Bool) :=
  let code := requester s c.queue
  let cls := opClass o.code
  let p := c.place
  if c.slots == 0 || 16 < c.slots then some (badParam dSlotCount, false)
  else if fld c.flags.toNat 4 4 != 0 || c.rsvd != 0 then some (badParam dReserved, false)
  else if c.staged && cls != 1 && cls != 2 then some (badParam dReserved, false)
  else if tagInUse s c.queue c.tag.toNat then some (badParam dTagInUse, false)
  else if !queueCarries c.queue o.code then some (denied dClass, false)
  else if (match origin c.queue with
      | .bed n => match bedOf s n with | some b => !bit (bedRights s b) cls | none => true
      | _ => false) then some (denied 0, false)
  else if !s.boot.recovery && !grantsClass s code cls then some (denied dProtection, true)
  else if !namesOwn c o.code then some (denied dNotOwn, false)
  else if s.boot.lifecycle == .retired && o.code != 0x0002 then some (rep stLifecycle dState, false)
  else if s.boot.recovery && !((o.code == 0x0002 || o.code == 0x0007 || o.code == 0x0008) &&
      (match origin c.queue with | .oob _ => true | .jtag => true | _ => false)) then
    some (rep stLifecycle dState, false)
  else if !o.life s c then some (rep stLifecycle dState, false)
  else if pReserved c.target.toNat != 0 then some (rep stBadPath 0, false)
  else if !c.anySystem && pSystem c.target.toNat != s.flash.system then some (rep stBadPath 0, false)
  else if levelOf p == .absent || !o.target.takes p then some (rep stBadPath 0, false)
  else if !s.boot.recovery && !grantsDies s code p then some (denied dProtection, true)
  else none

/-- The target names the other package of the pair and this package alone is not asked (R448). -/
def namesTwin (c : Cmd) (s : State) : Bool := !c.both && pPackage c.target.toNat != s.flash.package

/-- Does the opcode act on both packages now (R449, R682): 0 here only, 1 on both, 2 here only with OK TWIN_LOST. -/
def reachNow (o : Op) (c : Cmd) (s : State) : Nat :=
  match origin c.queue with
  | .twin _ => 0
  | _ =>
    if (o.reach == .here && !c.both) || o.reach == .fix then 0
    else if s.twin.state == .protectedSt || s.twin.state == .handedOver then 1
    else if s.twin.state == .sole && (o.reach == .systemWide || c.both) then 2
    else 0

/-- Forwarding of a command to the twin over twin queue 0: the copy carries neither the both-packages flag nor a fence. -/
def forward (o : Op) (c : Cmd) (params : Bytes) (tag : Nat) (s : State) : State :=
  sendTwin (.forward o.code tag (c.flags.toNat - b2n c.both - 8 * b2n c.fence) c.target c.epoch params) s

/-- A joint record, under a fresh tag of twin queue 0. -/
def openJoint (o : Op) (c : Cmd) (only : Bool) (here : Option Rep) (accepted : Bool) (s : State) : State :=
  let t := s.cmd.nextTwinTag
  let j : Joint := { queue := c.queue, tag := c.tag.toNat, opcode := o.code, epoch := curEpoch s, twinTag := t
                     only := only, here := here, there := none, acceptedSent := accepted }
  forward o c (if only then c.params else o.send c s) t { s with cmd := { s.cmd with joint := s.cmd.joint ++ [j], nextTwinTag := (t + 1) % 65536 } }

/-- A command waits: it has not started. -/
def park (o : Op) (c : Cmd) (s : State) : State := { s with waiting := s.waiting ++ [(o.code, c)] }

/-- Must the command wait: management does not answer yet (R611, R637), a fence holds it (R434), or a system-wide act finds the
pair in SUSPECT (R682)? -/
def mustWait (o : Op) (c : Cmd) (s : State) : Bool :=
  (!s.boot.mgmtRuns && !s.boot.recovery) || (c.fence && owes s c.queue) ||
  (s.twin.state == .suspect && (o.reach != .here || c.both) && (match origin c.queue with | .twin _ => false | _ => true))

/-- The final reply of a command that ends at once. -/
def answer (o : Op) (c : Cmd) (r : Rep) (s : State) : State :=
  sendReply c.queue c.tag.toNat o.code 0 (curEpoch s) r s

/-- Does a refusal of an opcode's own checks come before check 9 (R446)? -/
def beforeState (r : Rep) : Bool := !(r.status == stBusy || r.status == stNoResource)

/-- Checks 8 and 9 (R446): the common parts of the parameters, the opcode's own refusal of them, the twin's state, the opcode's own check of
the state. -/
def refusalOf (o : Op) (c : Cmd) (d : Done) (s : State) : Option Rep :=
  match paramRefusal o c with
  | some r => some r
  | none => match d, twinRefusal o c s with
    | .refuse x, some r => some (if beforeState x then x else r)
    | .refuse x, none => some x
    | _, t => t

/-- A command starts: the answer of an orderly shut-down (R643), checks in order, execution here, on the twin or on both, and its reply. -/
def runCmd (o : Op) (c : Cmd) (s : State) : State :=
  if 3 ≤ s.power.shutdown then answer o c (aborted dQueueReset) s
  else if mustWait o c s then park o c s
  else
    match rightsRefusal o c s with
    | some (r, viol) =>
      let s' := answer o c r s
      if viol then violation 0 (requester s c.queue) 2 o.code s' else s'
    | none =>
      if namesTwin c s then
        if twinReachable s then openJoint o c true (some (repOk [])) false s
        else answer o c (aborted dTwinAbsent) s
      else if !c.staged && c.epoch != 0 && c.epoch.toNat != curEpoch s then answer o c (aborted dEpochMismatch) s
      else
        match refusalOf o c (o.body c s) s with
        | some r => answer o c r s
        | none =>
          let e := curEpoch s
          match o.body c s with
          | .refuse r => answer o c r s
          | .reply r s' =>
            if r.status != stOk then sendReply c.queue c.tag.toNat o.code 0 e r s'
            else if reachNow o c s == 1 then openJoint o c false (some r) false s'
            else if reachNow o c s == 2 then
              sendReply c.queue c.tag.toNat o.code 0 e { r with detail := dTwinLost } s'
            else sendReply c.queue c.tag.toNat o.code 0 e r s'
          | .accept key s' after =>
            let s' := { s' with cmd := { s'.cmd with owed := s'.cmd.owed ++
              [{ queue := c.queue, tag := c.tag.toNat, opcode := o.code, epoch := e, key := key, accepted := true }] } }
            let s' := sendReply c.queue c.tag.toNat o.code 0 e (rep stAccepted 0) s'
            after (if reachNow o c s == 1 then openJoint o c false none true s' else s')
          | .later key s' =>
            { s' with cmd := { s'.cmd with owed := s'.cmd.owed ++
              [{ queue := c.queue, tag := c.tag.toNat, opcode := o.code, epoch := e, key := key, accepted := false }] } }

end Sys2Proof.Machine
end

