-- ==== Sys2Proof/Machine/Tables.lean ====
section
/-! DEFINITION. The table state machine: rule-pool placement, versions and sweeps, the stores of programs, templates, groups and
link-aggregation groups, and the TBL commands (R131-R147, R157-R160, R169, R170, R177, R181, R195-R197, R457-R459). -/

namespace Sys2Proof.Machine

/-! ## Layers (R464-R468) -/

/-- Does slot `a` come before slot `b`, lowest precedence first (R467)? -/
def slotBefore (a b : Nat × OvSlot) : Bool := decide (a.2.prio < b.2.prio) || (a.2.prio == b.2.prio && decide (b.1 < a.1))

def insertSlot (x : Nat × OvSlot) : List (Nat × OvSlot) → List (Nat × OvSlot)
  | [] => [x]
  | y :: r => if slotBefore x y then x :: y :: r else y :: insertSlot x r

/-- Active slots, lowest precedence first. -/
def activeSlots (l : Layers) : List (Nat × OvSlot) := (l.slots.filter fun e => e.2.active).foldr insertSlot []

/-- One record over the words below it. -/
def overlayWord (t : Tab Word) (r : OvRec) : Tab Word :=
  tput t r.addr (mix32 (tgetD t r.addr (BitVec.ofNat 32 (resetWord r.addr))) r.value r.mask)

/-- Effective words of the layers, of every address that a layer sets; bits outside the RW fields keep their After reset value
(R465, R467). -/
def effective (l : Layers) : Tab Word :=
  tmap ((activeSlots l).foldl (fun t e => e.2.recs.foldl overlayWord t) l.base)
    fun a w => mix32 (BitVec.ofNat 32 (resetWord a)) w (BitVec.ofNat 32 (rwMask a))

/-! ## Staged operations (R454) -/

/-- The refusal of a staged operation, CFG_FIX or CFG_DISCARD of a queue. -/
def stageRefusal (s : State) (c : Cmd) : Option Rep :=
  match s.cfg.stage with
  | none => some (badParam dNoStage)
  | some g =>
    if c.staged && c.epoch != 0 && c.epoch.toNat != g.epoch then some (badParam dNoStage)
    else if g.owner != c.queue then some (busy dStageOpen)
    else if g.frozen then some (busy 0)
    else none

/-- A staged operation or CFG_FIX has arrived: the timeout of R471 starts again. -/
def touchStage (s : State) : State :=
  { s with cfg := { s.cfg with stage := s.cfg.stage.map fun g => { g with last := s.time.up } } }

/-- Refusal of a command that may be staged. -/
def opRefusal (c : Cmd) (s : State) : Option Rep := if c.staged then stageRefusal s c else none

/-- The epoch a TBL command acts on (R144, R458). -/
def opEpoch (c : Cmd) (s : State) : Nat :=
  if c.staged then (match s.cfg.stage with | some g => g.epoch | none => 0) else curEpoch s

/-- Effective words at that epoch. -/
def opWords (c : Cmd) (s : State) : Tab Word :=
  if c.staged then (match s.cfg.stage with | some g => effective g.layers | none => []) else curWords s

/-- The state in which the command acts. -/
def opState (c : Cmd) (s : State) : State := if c.staged then touchStage s else s

/-- Number of the open stage's epoch. -/
def stageEpoch (s : State) : Option Nat := s.cfg.stage.map fun g => g.epoch

/-! ## Table descriptors (R131, R155) -/

def tdWord (w : Tab Word) (t : Nat) : Nat := bankWord w (tblBase + 8 * t)
def tdHigh (w : Tab Word) (t : Nat) : Nat := bankWord w (tblBase + 8 * t + 4)
def tdEnable (w : Tab Word) (t : Nat) : Bool := bit (tdWord w t) 0
def tdSizeLog (w : Tab Word) (t : Nat) : Nat := fld (tdWord w t) 1 5
def tdSize (w : Tab Word) (t : Nat) : Nat := 2 ^ tdSizeLog w t
def tdBase (w : Tab Word) (t : Nat) : Nat := fld (tdWord w t) 8 18
def tdKeyLen (w : Tab Word) (t : Nat) : Nat := fld (tdHigh w t) 0 6
def tdStage (w : Tab Word) (t : Nat) : Nat := fld (tdHigh w t) 8 3

/-! ## Visibility (R143) -/

def visible (born died : Mark) (x : Nat) : Bool :=
  (match born with | none => true | some b => notBefore x b) && (match died with | none => true | some d => later d x)

def Entry.visibleAt (e : Entry) (x : Nat) : Bool := visible e.born e.died x

/-- Is a version visible at `x` or at some later epoch (R141)? -/
def visibleFrom (born died : Mark) (x : Nat) : Bool :=
  match died with
  | none => true
  | some d => later d x && (match born with | none => true | some b => later d b)

def sameKey (t : Nat) (key : Bytes) (e : Entry) : Bool := e.table == t && e.key == key

/-- Of two visible entries the later-born one (R135). -/
def laterBorn (a b : Entry) : Entry :=
  match a.born, b.born with
  | _, none => a
  | none, some _ => b
  | some x, some y => if later y x then b else a

/-- The entry of a table that a key matches at an epoch (R135). -/
def lookupEntry (s : State) (t : Nat) (key : Bytes) (x : Nat) : Option Entry :=
  match s.tbl.entries.filter fun e => sameKey t key e && e.visibleAt x with
  | [] => none
  | e :: r => some (r.foldl laterBorn e)

/-! ## Placement (R133, R134, R138) -/

def Entry.wide (e : Entry) : Bool := decide (24 < e.key.length)
def Entry.slots (e : Entry) : Nat := if e.wide then 2 else 1

/-- The two candidate buckets of a key under a seed (R134). -/
def candidates (w : Tab Word) (t : Nat) (seed : Word) (key : Bytes) : Nat × Nat :=
  let b0 := tdBase w t + crc32c seed key % tdSize w t
  let b1 := tdBase w t + crc32c (seed ^^^ 0x5A5A5A5A#32) key % tdSize w t
  (b0, if b1 == b0 then (if b0 % 2 == 0 then b0 + 1 else b0 - 1) else b1)

/-- Does an entry occupy slot `k` of bucket `b`? -/
def Entry.occupies (e : Entry) (b k : Nat) : Bool := !e.stash && e.place.1 == b && (e.place.2 == k || (e.wide && e.place.2 + 1 == k))

/-- First free position of a bucket for an entry of one or two slots. -/
def freeIn (es : List Entry) (wide : Bool) (b : Nat) : Option (Nat × Nat) :=
  ((if wide then [0, 2] else [0, 1, 2, 3]).find? fun k =>
    !es.any fun e => e.occupies b k || (wide && e.occupies b (k + 1))).map fun k => (b, k)

def samePlace (a b : Entry) : Bool := a.table == b.table && a.stash == b.stash && a.place == b.place

/-- Breadth-first search over at most `n` candidate entries for a chain of at most four relocations that frees a position; a chain
is held last entry first (R138 case 2). -/
def findChain (es : List Entry) (alt : Entry → Nat) (wide : Bool) : Nat → List (List Entry) → Option (List Entry × (Nat × Nat))
  | 0, _ => none
  | _, [] => none
  | n + 1, [] :: q => findChain es alt wide n q
  | n + 1, (e :: r) :: q =>
    match freeIn es wide (alt e) with
    | some p => some (e :: r, p)
    | none =>
      let next := if r.length < 3 then
          (es.filter fun x => !x.stash && x.place.1 == alt e && !(e :: r).any (samePlace x)).map fun x => x :: e :: r
        else []
      findChain es alt wide n (q ++ next)

/-- The moves of a chain, its last entry into the free position first; answers the position that comes free. -/
def moveChain : List Entry → Nat × Nat → List Entry → List Entry × (Nat × Nat)
  | [], p, es => (es, p)
  | e :: r, p, es => moveChain r e.place (es.map fun x => if samePlace x e then { x with place := p } else x)

/-- Stash positions of a table in use. -/
def stashUsed (es : List Entry) (t : Nat) : List Nat := (es.filter fun e => e.table == t && e.stash).map fun e => e.place.1

/-- Placement of a new entry by the three cases of R138; none when all fail. -/
def placeEntry (w : Tab Word) (seed : Word) (es : List Entry) (e : Entry) : Option (List Entry × Entry) :=
  let cands := fun (x : Entry) => candidates w x.table seed x.key
  let (b0, b1) := cands e
  let put := fun (l : List Entry) (p : Nat × Nat) =>
    let e' := { e with place := p, stash := false }
    some (l ++ [e'], e')
  match freeIn es e.wide b0 with
  | some p => put es p
  | none => match freeIn es e.wide b1 with
    | some p => put es p
    | none =>
      let alt := fun (x : Entry) => let (c0, c1) := cands x; if x.place.1 == c0 then c1 else c0
      let first := fun b => (es.filter fun x => !x.stash && x.table == e.table && x.place.1 == b).map fun x => [x]
      match findChain es alt e.wide 128 (first b0 ++ first b1) with
      | some (ch, p) =>
        let (es', q) := moveChain ch p es
        put es' q
      | none =>
        let used := stashUsed es e.table
        match (List.range 64).find? fun k => !used.contains k with
        | some k =>
          let e' := { e with place := (k, 0), stash := true }
          some (es ++ [e'], e')
        | none => none

/-- Pool slots and stash entries that a table's entries hold (R139). -/
def slotsUsed (es : List Entry) (t : Nat) : Nat :=
  (es.filter fun e => e.table == t && !e.stash).foldl (fun n e => n + e.slots) 0
def loadOf (es : List Entry) (t : Nat) : Nat := slotsUsed es t + (stashUsed es t).length

/-- Load above `pc` per cent of 4 × 2^size_log2 slots. -/
def loadAbove (w : Tab Word) (t load pc : Nat) : Bool := decide (pc * 4 * tdSize w t < 100 * load)

/-- The rule-pool bank that an event of a table names: that of the table's first bucket, on F1. -/
def bankPlace (b : Nat) : Nat := l0Place (b % 4) 113

/-- Load events after an insertion (R140, R154), with the stash count before it. -/
def loadEvents (w : Tab Word) (t stashBefore : Nat) (s : State) : State :=
  let load := loadOf s.tbl.entries t
  let stash := (stashUsed s.tbl.entries t).length
  let s := if loadAbove w t load 85 && !tgetD s.tbl.loadHigh t false then
      raise 0x0801 (bankPlace (tdBase w t)) [t, slotsUsed s.tbl.entries t]
        { s with tbl := { s.tbl with loadHigh := tput s.tbl.loadHigh t true } }
    else s
  if stashBefore < 48 && 48 ≤ stash then raise 0x0802 (bankPlace (tdBase w t)) [t, stash] s else s

/-- LOAD_HIGH is armed again once the load has fallen below 80 % (R140). -/
def rearmLoads (s : State) : State :=
  { s with tbl := { s.tbl with loadHigh := tmap s.tbl.loadHigh fun t h =>
    h && !(decide (100 * loadOf s.tbl.entries t < 80 * 4 * tdSize (curWords s) t)) } }

/-- The seed of a table, drawn when it is first needed after the table came into use (R137). -/
def seedOf (t : Nat) (s : State) : Word × State :=
  match tget s.tbl.seeds t with
  | some w => (w, s)
  | none => let (w, s) := drawRandom s; (w, { s with tbl := { s.tbl with seeds := tput s.tbl.seeds t w } })

/-- Records of a bank's change list: the marks set on its entries (R147). An entry in the stash lies in no bank and takes none (the rule
keeps the lists per bank: DESIGN CHOICE, assumption 45). -/
def bankChanges (es : List Entry) (bank : Nat) : Nat :=
  (es.filter fun e => !e.stash && e.place.1 % 4 == bank).foldl (fun n e => n + b2n e.born.isSome + b2n e.died.isSome) 0

/-- Do the change lists hold the records of these entries? -/
def changeRoom (es : List Entry) : Bool := (List.range 4).all fun b => decide (bankChanges es b ≤ 65536)

/-! ## Operations on entries (R138-R144) -/

/-- Words of a table that R132 protects while it holds entries: the descriptor and the key template. -/
def tableWords (t : Nat) : List Nat :=
  [tblBase + 8 * t, tblBase + 8 * t + 4] ++ (List.range 12).map fun k => tblBase + 0x400 + 0x40 * t + 4 * k

/-- The values of these words in a bank. -/
def shapeOf (w : Tab Word) (t : Nat) : List Nat := (tableWords t).map (bankWord w)

/-- The entries after one of table `t` is placed under a bank; the first entry of a table fixes the shape its entries lie under. -/
def putEntries (w : Tab Word) (t : Nat) (es : List Entry) (s : State) : State :=
  { s with tbl := { s.tbl with
    entries := es
    shapes := if s.tbl.entries.any fun e => e.table == t then s.tbl.shapes else tput s.tbl.shapes t (shapeOf w t) } }

/-- Result bytes [5:0] of an insertion (R457). -/
def placeResult (e : Entry) : Bytes := le 4 e.place.1 ++ [byte (if e.stash then 0 else e.place.2), byte (b2n e.stash)]

/-- The died mark set on the version of a key that is visible at an epoch. -/
def markDied (e : Entry) (x : Nat) (es : List Entry) : List Entry :=
  es.map fun y => if samePlace y e && y.key == e.key then { y with died := some x } else y

/-- Start of a reseed for an entry that found no place (R139). -/
def startReseed (w : Tab Word) (c : Cmd) (opcode : Nat) (e : Entry) (s : State) : Done :=
  let r : Reseed := { entry := e, started := s.time.up, queue := c.queue, tag := c.tag.toNat, opcode := opcode }
  let s := { s with tbl := { s.tbl with reseed := tput s.tbl.reseed e.table r } }
  .accept e.table (raise 0x0803 (bankPlace (tdBase w e.table)) [e.table, 1000 * loadOf s.tbl.entries e.table / (4 * tdSize w e.table)] s)

/-- Insertion of an entry, replacing `old` when it is a modification (R138-R144). -/
def insertEntry (w : Tab Word) (c : Cmd) (opcode : Nat) (e : Entry) (old : Option Entry) (s : State) : Done :=
  let t := e.table
  let x := e.born.getD 0
  let (seed, s) := seedOf t s
  let es := s.tbl.entries
  let kill := fun l => match old with | some o => markDied o x l | none => l
  match placeEntry w seed es e with
  | some (es', e') =>
    let keep := match old with
      | some o => match es'.find? fun y => y.table == t && y.key == o.key && y.born == o.born && y.died == o.died with
        | some y => some y
        | none => none
      | none => none
    let es'' := match keep with | some o => markDied o x es' | none => kill es'
    if !changeRoom es'' then .refuse (busy dChangeList)
    else
      let n := (stashUsed es t).length
      .ok (placeResult e') (loadEvents w t n (putEntries w t es'' s))
  | none =>
    if loadAbove w t (loadOf es t + e.slots) 85 then .refuse (noResource dTableFull)
    else startReseed w c opcode e s

/-- Every entry of a table placed again under a new seed (R139); none when one finds no place. -/
def replaceAll (w : Tab Word) (seed : Word) (others : List Entry) : List Entry → Option (List Entry)
  | [] => some others
  | e :: r => match placeEntry w seed others e with
    | some (l, _) => replaceAll w seed l r
    | none => none

/-- What an entry command names: the table, and a key of its length; refusals in order (R457, R458). -/
def entryRefusal (c : Cmd) (s : State) : Option Rep :=
  let t := c.prm 0 1
  if 15 < t then some (badParam dRange)
  else match opRefusal c s with
    | some r => some r
    | none =>
      if !tdEnable (opWords c s) t then some (badParam dTableOff)
      else if thas s.tbl.reseed t then some (busy dReseeding)
      else none

def entryKey (c : Cmd) (s : State) (off : Nat) : Bytes := c.prmBytes off (tdKeyLen (opWords c s) (c.prm 0 1))

/-- The entry that TBL_INSERT or TBL_MODIFY writes. -/
def newEntry (c : Cmd) (s : State) : Entry :=
  { table := c.prm 0 1, key := entryKey c s 36, program := c.prm 2 2, data := c.prmBytes 4 32
    born := some (opEpoch c s), died := none, hit := false, place := (0, 0), stash := false }

def opTblInsert : Op := { mkOp 0x0801 84 [(1, 1)] .package (fun c s =>
    if 4095 < c.prm 2 2 then .refuse (badParam dRange)
    else match entryRefusal c s with
      | some r => .refuse r
      | none =>
        let e := newEntry c s
        if (s.tbl.entries.any fun y => sameKey e.table e.key y && visibleFrom y.born y.died (opEpoch c s)) then
          .refuse (badParam dKeyExists)
        else insertEntry (opWords c s) c 0x0801 e none (opState c s)) with
  stageable := true, reach := .systemWide }

def execTblInsert (c : Cmd) (s : State) : Res := .next (runCmd opTblInsert c s)

def opTblDelete : Op := { mkOp 0x0802 52 [(1, 3)] .package (fun c s =>
    match entryRefusal c s with
    | some r => .refuse r
    | none =>
      match lookupEntry s (c.prm 0 1) (entryKey c s 4) (opEpoch c s) with
      | none => .refuse (badParam dNoEntry)
      | some e =>
        let es := markDied e (opEpoch c s) s.tbl.entries
        if !changeRoom es then .refuse (busy dChangeList)
        else
          let s := opState c s
          .ok [] { s with tbl := { s.tbl with entries := es } }) with
  stageable := true, reach := .systemWide }

def execTblDelete (c : Cmd) (s : State) : Res := .next (runCmd opTblDelete c s)

def opTblModify : Op := { mkOp 0x0803 84 [(1, 1)] .package (fun c s =>
    if 4095 < c.prm 2 2 then .refuse (badParam dRange)
    else match entryRefusal c s with
      | some r => .refuse r
      | none =>
        let e := newEntry c s
        match lookupEntry s e.table e.key (opEpoch c s) with
        | none => .refuse (badParam dNoEntry)
        | some o => insertEntry (opWords c s) c 0x0803 e (some o) (opState c s)) with
  stageable := true, reach := .systemWide }

def execTblModify (c : Cmd) (s : State) : Res := .next (runCmd opTblModify c s)

/-- The hit bit of an entry written (R133). -/
def hitBit (e : Entry) (on : Bool) (s : State) : State :=
  let put := fun (y : Entry) => if samePlace y e && y.key == e.key then { y with hit := on } else y
  { s with tbl := { s.tbl with entries := s.tbl.entries.map put } }

def opTblLookup : Op := { mkOp 0x0804 52 [(3, 1)] .package (fun c s =>
    if 1 < c.prm 1 1 then .refuse (badParam dReserved)
    else if 2 < c.prm 2 1 then .refuse (badParam dRange)
    else match entryRefusal c s with
      | some r => .refuse r
      | none =>
        match lookupEntry s (c.prm 0 1) (entryKey c s 4) (opEpoch c s) with
        | none => .ok [] (opState c s)
        | some e =>
          let st := 1 + 2 * b2n e.stash + 4 * b2n e.born.isSome + 8 * b2n e.died.isSome + 16 * b2n e.hit
          let s := opState c s
          let s := if bit (c.prm 1 1) 0 then hitBit e false s else s
          .ok (le 2 e.program ++ [byte st, 0] ++ slice e.data (12 * c.prm 2 1) 12) s) with
  stageable := true }

def execTblLookup (c : Cmd) (s : State) : Res := .next (runCmd opTblLookup c s)

/-! ## Versioned objects (R158) -/

/-- The version visible at an epoch. -/
def versionAt {α : Type} (l : List (Version α)) (x : Nat) : Option α := (l.find? fun v => visible v.born v.died x).map fun v => v.val

/-- Epochs at which a packet may look: the live ones and a prepared one (R478). -/
def lookEpochs (s : State) : List Nat :=
  (s.cfg.live.map fun e => e.num) ++ (match s.cfg.prepared with | some (e, _) => [e.num] | none => [])

/-- Is a version slot in use: visible at an epoch at which a packet may look? -/
def slotInUse {α : Type} (s : State) (v : Version α) : Bool := (lookEpochs s).any fun y => visible v.born v.died y

/-- A new version of epoch `x`, with died set on the one it follows; none when both slots are in use. -/
def setVersion {α : Type} (s : State) (x : Nat) (val : α) (l : List (Version α)) : Option (List (Version α)) :=
  let keep := l.filter (slotInUse s)
  if 2 ≤ keep.length then none
  else some ((keep.map fun v => if visible v.born v.died x then { v with died := some x } else v) ++
    [{ born := some x, died := none, val := val }])

/-- The versions left when the stage of an epoch is discarded (R146). -/
def discardVersions {α : Type} (x : Nat) (l : List (Version α)) : List (Version α) :=
  (l.filter fun v => v.born != some x).map fun v => if v.died == some x then { v with died := none } else v

/-- Does the mark name an epoch not after `oldest`? -/
def markSwept (m : Mark) (oldest : Nat) : Bool :=
  match m with
  | some e => notBefore oldest e
  | none => false

/-- The versions left by the sweep when `oldest` has become the oldest live epoch (R147). -/
def sweepVersions {α : Type} (oldest : Nat) (l : List (Version α)) : List (Version α) :=
  (l.filter fun v => !markSwept v.died oldest).map fun v => if markSwept v.born oldest then { v with born := none } else v

/-- Discard of everything staged at an epoch (R146). -/
def tblDiscard (x : Nat) (s : State) : State :=
  let t := s.tbl
  rearmLoads { s with tbl := { t with
    entries := (t.entries.filter fun e => e.born != some x).map fun e => if e.died == some x then { e with died := none } else e
    programs := tmap t.programs fun _ l => discardVersions x l
    templates := tmap t.templates fun _ l => discardVersions x l
    groups := tmap t.groups fun _ l => discardVersions x l
    lags := tmap t.lags fun _ l => discardVersions x l } }

/-- The sweep of R147. -/
def tblSweep (oldest : Nat) (s : State) : State :=
  let t := s.tbl
  rearmLoads { s with tbl := { t with
    entries := (t.entries.filter fun e => !markSwept e.died oldest).map fun e =>
      if markSwept e.born oldest then { e with born := none } else e
    programs := tmap t.programs fun _ l => sweepVersions oldest l
    templates := tmap t.templates fun _ l => sweepVersions oldest l
    groups := tmap t.groups fun _ l => sweepVersions oldest l
    lags := tmap t.lags fun _ l => sweepVersions oldest l } }

/-! ## Primitives (R160) -/

def prOp (p : Nat) : Nat := fld p 0 6
def prA (p : Nat) : Nat := fld p 8 8
def prB (p : Nat) : Nat := fld p 16 8
def prC (p : Nat) : Nat := fld p 24 8
def prD (p : Nat) : Nat := fld p 32 16
def prE (p : Nat) : Nat := fld p 48 16

/-- Metadata bytes that SET and COPY may write (R162). -/
def metaWritable (off len : Nat) : Bool :=
  (decide (4 ≤ off) && decide (off + len ≤ 8)) || (decide (16 ≤ off) && decide (off + len ≤ 32))

def fwdOk (p : Nat) : Bool := decide (prA p ≤ 7) && decide (prB p ≤ 1) && (prE p == 0xFFFF || decide (prE p ≤ 4095))

/-- Path place of a FWD_CHAN. -/
def prPath (p : Nat) : Nat := (prD p * 65536 + prE p) % 2 ^ 27

/-- Is a primitive admissible (R160, R162)? Whether operand bits outside a named bit field must be zero no rule says: the model refuses them
in FWD_PORT, FWD_LAG and FWD_HOST, where the operand byte is the range, and ignores them in METER a, DEC_TTL c, CRYPT e and SET e, where
the rule names single bits (DESIGN CHOICE, assumption 43). -/
def primitiveOk (p : Nat) : Bool :=
  fld p 6 2 == 0 &&
  match prOp p with
  | 0x00 => true
  | 0x01 => decide (prA p ≤ 32) && decide (1 ≤ prC p) && decide (prC p ≤ 16) && decide (prB p + prC p ≤ 64) &&
      (if bit (prE p) 0 then decide (prC p ≤ 2) else decide (prD p + prC p ≤ 32)) &&
      (prA p != 32 || metaWritable (prB p) (prC p))
  | 0x02 => decide (prA p ≤ 32) && decide (1 ≤ prC p) && decide (prC p ≤ 16) && decide (prB p + prC p ≤ 64) &&
      decide (fld (prD p) 0 8 ≤ 32) && decide (fld (prD p) 8 8 + prC p ≤ 64) && (prA p != 32 || metaWritable (prB p) (prC p))
  | 0x03 => (decide (prA p ≤ 31) || prA p == 0xFE) && decide (prD p ≤ 4095)
  | 0x04 => decide (prA p ≤ 31) && (prB p == 0 || (prB p == 1 && decide (1 ≤ prC p) && decide (prC p ≤ 64)))
  | 0x05 => decide (prA p ≤ 31) && decide (prB p ≤ 63)
  | 0x06 => true
  | 0x07 => decide (prD p ≤ 32767) && decide (prB p ≤ 1) && decide (16 ≤ prC p) && decide (prC p ≤ 31)
  | 0x08 => decide (prA p ≤ 15)
  | 0x09 => decide (prA p ≤ 1) && decide (prB p ≤ 1)
  | 0x0A => decide (prD p ≤ 1023) && fwdOk p
  | 0x0B => decide (prD p ≤ 511) && fwdOk p
  | 0x0C => decide (prA p ≤ 7) && decide (prD p ≤ 128)
  | 0x0D => levelOf (prPath p) == .cluster && decide (svcIndex (prPath p) < 85)
  | 0x0E => true
  | 0x0F => true
  | 0x10 => true
  | 0x11 => decide (16 ≤ prA p) && decide (prA p ≤ 63)
  | _ => false

/-- The words of a byte string, 8 bytes each. -/
def words64 (b : Bytes) (n : Nat) : List (BitVec 64) := (List.range n).map fun k => BitVec.ofNat 64 (rd b (8 * k) 8)

/-- What a versioned store command ends with. -/
def storeVersion {α : Type} (c : Cmd) (s : State) (l : List (Version α)) (v : α) (put : List (Version α) → State → State) : Done :=
  match setVersion s (opEpoch c s) v l with
  | none => .refuse (busy dVersions)
  | some l' => .ok [] (put l' (opState c s))

def opTblProgramSet : Op := { mkOp 0x0805 8 [(3, 5)] .package (fun c s =>
    let i := c.prm 0 2
    let n := c.prm 2 1
    let ws := words64 (c.params.drop 8) n
    if 4095 < i || n == 0 || 16 < n then .refuse (badParam dRange)
    else if !(ws.all fun w => primitiveOk w.toNat) then .refuse (badParam 0)
    else match opRefusal c s with
      | some r => .refuse r
      | none => storeVersion c s (tgetD s.tbl.programs i []) ws fun l s =>
          { s with tbl := { s.tbl with programs := tput s.tbl.programs i l } }) with
  need := fun p => 8 + 8 * counted 1 16 (rd p 2 1), stageable := true, reach := .systemWide }

def execTblProgramSet (c : Cmd) (s : State) : Res := .next (runCmd opTblProgramSet c s)

/-! ## Templates (R169, R170) -/

def tpLen (b : Bytes) : Nat := rd b 64 1
def tpIp (b : Bytes) : Nat := rd b 65 1
def tpFlags (b : Bytes) : Nat := rd b 66 1
def tpUdp (b : Bytes) : Nat := rd b 67 1
def tpV6 (b : Bytes) : Bool := bit (tpFlags b) 0
/-- Substitution `k`: template offset, length, action-data offset. -/
def tpSub (b : Bytes) (k : Nat) : Nat × Nat × Nat :=
  let w := rd b (68 + 2 * k) 2
  (fld w 0 6, fld w 6 5, fld w 11 5)

/-- Bytes of the label words of flag [3]. -/
def tpLabels (b : Bytes) : Nat := if tpIp b == 0xFF then tpLen b else tpIp b

/-- Template offsets that the device fixes up (R170). -/
def tpFixed (b : Bytes) : List Nat :=
  let ip := tpIp b
  let udp := tpUdp b
  (if ip == 0xFF then [] else if tpV6 b then span (ip + 4) 2 else span (ip + 2) 2 ++ span (ip + 10) 2) ++
  (if udp == 0xFF then [] else span (udp + 4) 4) ++
  (if bit (tpFlags b) 1 then span udp 2 else []) ++
  (if bit (tpFlags b) 2 then span (ip + 1) 3 else []) ++
  (if bit (tpFlags b) 3 then (List.range (tpLabels b / 4)).map fun k => 4 * k + 3 else [])

/-- Is a template record admissible (R170)? -/
def templateOk (b : Bytes) : Bool :=
  let len := tpLen b
  let ip := tpIp b
  let udp := tpUdp b
  let ipLen := if tpV6 b then 40 else 20
  decide (1 ≤ len) && decide (len ≤ 64) && fld (tpFlags b) 4 4 == 0 && allZero (slice b 72 8) &&
  ([0, 1].all fun k =>
    let (o, n, _) := tpSub b k
    n == 0 || (decide (n ≤ 16) && decide (o + n ≤ len) && !(span o n).any fun x => (tpFixed b).contains x)) &&
  (ip == 0xFF || decide (ip + ipLen ≤ len)) &&
  (udp == 0xFF || (decide (udp + 8 ≤ len) && (ip == 0xFF || decide (udp + 8 ≤ ip) || decide (ip + ipLen ≤ udp)))) &&
  (!bit (tpFlags b) 1 || udp != 0xFF) &&
  (!bit (tpFlags b) 2 || (ip != 0xFF && tpV6 b)) &&
  (!bit (tpFlags b) 3 || (tpLabels b != 0 && tpLabels b % 4 == 0))

def opTblTemplateSet : Op := { mkOp 0x0806 88 [(2, 6)] .package (fun c s =>
    let i := c.prm 0 2
    let b := c.prmBytes 8 80
    if 4095 < i then .refuse (badParam dRange)
    else if !templateOk b then .refuse (badParam 0)
    else match opRefusal c s with
      | some r => .refuse r
      | none => storeVersion c s (tgetD s.tbl.templates i []) b fun l s =>
          { s with tbl := { s.tbl with templates := tput s.tbl.templates i l } }) with
  stageable := true, reach := .systemWide }

def execTblTemplateSet (c : Cmd) (s : State) : Res := .next (runCmd opTblTemplateSet c s)

/-! ## Multicast groups (R177, R459) -/

/-- Target and kind of a group member: port or group number, or fields a, d and e of the FWD primitive (R177). -/
def memKind (m : Nat) : Nat := fld m 0 2
def memTarget (m : Nat) : Nat := fld m 2 40
def memQueue (m : Nat) : Nat := fld m 42 3
def memProgram (m : Nat) : Option Nat := if bit m 57 then some (fld m 45 12) else none

def memberOk (m : Nat) : Bool :=
  fld m 58 6 == 0 &&
  match memKind m with
  | 0 => decide (memTarget m ≤ 1023)
  | 1 => decide (memTarget m ≤ 511)
  | 2 => decide (fld (memTarget m) 0 8 ≤ 7) && decide (fld (memTarget m) 8 16 ≤ 128)
  | _ =>
    let p := (fld (memTarget m) 8 16 * 65536 + fld (memTarget m) 24 16) % 2 ^ 27
    levelOf p == .cluster && decide (svcIndex p < 85)

/-- The members of a command laid into the version from `first` on. -/
def putMembers (first : Nat) : List (BitVec 64) → Tab Bytes → Tab Bytes
  | [], t => t
  | m :: r, t => putMembers (first + 1) r (tput t first (le 8 m.toNat))

def opTblGroupSet : Op := { mkOp 0x0807 8 [] .package (fun c s =>
    let i := c.prm 0 2
    let total := c.prm 2 2
    let first := c.prm 4 2
    let n := c.prm 6 1
    let prune := bit (c.prm 7 1) 0
    let ms := words64 (c.params.drop 8) n
    if 1 < c.prm 7 1 then .refuse (badParam dReserved)
    else if total == 0 || 1024 < total || n == 0 || 120 < n || total < first + n then .refuse (badParam dRange)
    else if !c.staged && (first != 0 || n != total) then .refuse (badParam dRange)
    else if ms.any (fun m => fld m.toNat 58 6 != 0) then .refuse (badParam dReserved)
    else if !(ms.all fun m => memberOk m.toNat) then .refuse (badParam 0)
    else match opRefusal c s with
      | some r => .refuse r
      | none =>
        let l := tgetD s.tbl.groups i []
        let put := fun (l : List (Version Group)) (s : State) => { s with tbl := { s.tbl with groups := tput s.tbl.groups i l } }
        match (if c.staged then l.find? fun v => v.born == some (opEpoch c s) else none) with
        | some v =>
          if v.val.total != total || v.val.srcPrune != prune then .refuse (badParam dPartMismatch)
          else
            let g := { v.val with members := putMembers first ms v.val.members }
            .ok [] (put (l.map fun y => if y.born == v.born then { y with val := g } else y) (opState c s))
        | none => storeVersion c s l { total := total, srcPrune := prune, members := putMembers first ms [] } put) with
  need := fun p => 8 + 8 * counted 1 120 (rd p 6 1), stageable := true, reach := .systemWide }

def execTblGroupSet (c : Cmd) (s : State) : Res := .next (runCmd opTblGroupSet c s)

/-! ## Link-aggregation groups (R195-R197, R590) -/

/-- Is the port drained by SYS_DRAIN, a die restart or a handover (R452)? -/
def portDrained (s : State) (p : Nat) : Bool :=
  s.cmd.drained.any fun w => place w.toNat == diePlace (portDie p) || place w.toNat == regionPlace (portDie p) (portRegion p)

/-- The local port can take part: UP, its region and die in service, not drained, its partner in synchronization (R197, R452;
IEEE 802.1AX for the last, PRESUMED). -/
def memberReady (s : State) (p : Nat) : Bool :=
  let x := portGet s p
  x.st == .up && regionUp s (portDie p) (portRegion p) && !portDrained s p && (match x.lacp with | some (_, _, y) => bit y.state 3 | none => true)

/-- Partner system and key of a port. -/
def partnerOf (x : Port) : Option (Nat × Nat) := x.lacp.map fun (a, b, _) => (a, b)

/-- Active members of a group on this package: ready, and with the partner system and key of the first ready member, here or on
the twin (R196, R590). -/
def activeMembers (s : State) (ms : List (Nat × Nat)) : List Nat :=
  let own := (ms.filter fun m => m.2 == s.flash.package).map fun m => m.1
  let ready := own.filter (memberReady s)
  let known := (ready.filterMap fun p => partnerOf (portGet s p)) ++
    ((ms.filter fun m => m.2 != s.flash.package).filterMap fun m => (portGet s m.1).lacpTwin)
  match known.head? with
  | none => ready
  | some k => ready.filter fun p => partnerOf (portGet s p) == some k

/-- Buckets of a table that a member holds. -/
def held (table : List Nat) (p : Nat) : Nat := (table.filter (· == p)).length

/-- The member with the fewest, and the one with the most buckets, the first of them. -/
def fewest (table : List Nat) : List Nat → Nat
  | [] => 1024
  | p :: r => let q := fewest table r; if r.isEmpty || held table p ≤ held table q then p else q
def most (table : List Nat) : List Nat → Nat
  | [] => 1024
  | p :: r => let q := most table r; if r.isEmpty || held table q ≤ held table p then p else q

/-- Buckets whose member is not active go to the active member that holds fewest. -/
def fillBuckets (active : List Nat) : List Nat → List Nat → List Nat
  | done, [] => done
  | done, b :: r => fillBuckets active (done ++ [if active.contains b then b else fewest (done ++ (b :: r)) active]) r

/-- One bucket moves from the fullest to the emptiest member while they differ by two or more. -/
def evenBuckets (active : List Nat) : Nat → List Nat → List Nat
  | 0, t => t
  | n + 1, t =>
    let a := fewest t active
    let b := most t active
    if held t b < held t a + 2 then t
    else evenBuckets active n (t.take (t.idxOf b) ++ a :: t.drop (t.idxOf b + 1))

/-- The bucket table of a group for its active members (R196, R197): an entry moves only when its member went down or another came
up; without an active member here, the twin (1,024). -/
def refill (active : List Nat) (old : List Nat) : List Nat :=
  if active.isEmpty then List.replicate 256 1024
  else evenBuckets active 256 (fillBuckets active [] (fitTable old))
where
  fitTable (l : List Nat) : List Nat := l.take 256 ++ List.replicate (256 - l.length) 1024

/-- Bucket tables after any change of the ports (R197). -/
def refillGroups (s : State) : State :=
  { s with tbl := { s.tbl with lags := tmap s.tbl.lags fun _ l => l.map fun v =>
    { v with val := { v.val with table := refill (activeMembers s v.val.members) v.val.table } } } }

/-- Members of a TBL_LAG_SET: 4 bytes each. -/
def lagMembers (b : Bytes) (n : Nat) : List (Nat × Nat) :=
  (List.range n).map fun k => (rd b (4 + 4 * k) 2, rd b (6 + 4 * k) 1)

def opTblLagSet : Op := { mkOp 0x0808 4 [(3, 1)] .package (fun c s =>
    let i := c.prm 0 2
    let n := c.prm 2 1
    let ms := lagMembers c.params n
    if 511 < i || 16 < n then .refuse (badParam dRange)
    else if ((List.range n).any fun k => c.prm (7 + 4 * k) 1 != 0) then .refuse (badParam dReserved)
    else if (ms.any fun m => 1023 < m.1 || 1 < m.2) then .refuse (badParam 0)
    else match opRefusal c s with
      | some r => .refuse r
      | none => storeVersion c s (tgetD s.tbl.lags i []) { members := ms, table := refill (activeMembers s ms) [] } fun l s =>
          { s with tbl := { s.tbl with lags := tput s.tbl.lags i l } }) with
  need := fun p => 4 + 4 * counted 0 16 (rd p 2 1), stageable := true, reach := .systemWide }

def execTblLagSet (c : Cmd) (s : State) : Res := .next (runCmd opTblLagSet c s)

/-! ## Counters and meters (R181) -/

/-- Region number 0 to 15 of a region's place. -/
def regionNo (p : Nat) : Nat := gRegion (pDie p) (pRegion p)

def opTblCounterRead : Op := mkOp 0x0809 3 [] .region fun c s =>
  let k := 65536 * regionNo c.place + c.prm 0 2
  let (p, b) := tgetD s.tbl.counters k (0, 0)
  if 1 < c.prm 2 1 then .refuse (badParam dReserved)
  else .ok (le 8 p ++ le 8 b)
    (if bit (c.prm 2 1) 0 then { s with tbl := { s.tbl with counters := tput s.tbl.counters k (0, 0) } } else s)

def execTblCounterRead (c : Cmd) (s : State) : Res := .next (runCmd opTblCounterRead c s)

def opTblMeterSet : Op := mkOp 0x080A 36 [(2, 2)] .region fun c s =>
  let m := c.prm 4 32
  if 32767 < c.prm 0 2 then .refuse (badParam dRange)
  else if 781250 < fld m 2 20 || 781250 < fld m 22 20 then .refuse (badParam 0)
  else if fld m 90 166 != 0 then .refuse (badParam dReserved)
  else .ok [] { s with tbl := { s.tbl with meters := tput s.tbl.meters (32768 * regionNo c.place + c.prm 0 2) m } }

def execTblMeterSet (c : Cmd) (s : State) : Res := .next (runCmd opTblMeterSet c s)

end Sys2Proof.Machine
end

