-- ==== Sys2Proof/Machine/Validate.lean ====
section
/-! DEFINITION. What a fix checks (R472): every value that a rule binds, with the internal address or object name at which it fails
(R107, R112, R130, R132, R136, R185, R235, R269, R414, R455, R459, R481, R684). -/

namespace Sys2Proof.Machine

/-- A check that failed: internal address or object name, and the refusal. -/
abbrev Fail := Nat × Rep

/-- A failure when the condition holds. -/
def failIf (b : Bool) (a : Nat) (r : Rep) : List Fail := if b then [(a, r)] else []

/-- The numbers named in the words of an address range, each once: (address − base) / stride. -/
def namedIn (words : Tab Word) (base stride n : Nat) : List Nat :=
  words.foldl (fun l e => if base ≤ e.1 && e.1 < base + stride * n then insertNat l ((e.1 - base) / stride) else l) []

/-! ## Ports -/

/-- Priorities in flow-control use as configured: PFC's, or 0 for the whole port in pause mode (R103, R112). -/
def fcInUse (w : Tab Word) (p : Nat) : List Nat :=
  let ctrl := bankWord w (portAddr p 0x000)
  if fld ctrl 14 2 == 2 then (List.range 8).filter fun n => bit (bankWord w (portAddr p 0x00C)) n
  else if fld ctrl 14 2 == 1 then [0] else []

def portFails (w : Tab Word) (p : Nat) : List Fail :=
  let r := fun off => bankWord w (portAddr p off)
  let a := fun off => portAddr p off
  let bad := badParam 0
  let ctrl := r 0x000
  failIf ((bit ctrl 0 && fld ctrl 1 3 == 0) || (bit ctrl 2 && fld ctrl 4 3 == 0)) (a 0x000) bad ++
  failIf (fld (r 0x008) 0 14 < 1518 || 9600 < fld (r 0x008) 0 14) (a 0x008) bad ++
  failIf (fld (r 0x00C) 8 16 == 0) (a 0x00C) bad ++
  failIf (50000 < fld (r 0x038) 0 16 || (fld (r 0x038) 0 16 != 0 && fld (r 0x038) 16 16 == 0)) (a 0x038) bad ++
  (fcInUse w p).flatMap (fun n =>
    failIf (r (0x060 + 4 * n) == 0) (a (0x060 + 4 * n)) bad ++
    failIf (r (0x060 + 4 * n) ≤ r (0x080 + 4 * n)) (a (0x080 + 4 * n)) bad ++
    failIf (r (0x0A0 + 4 * n) == 0) (a (0x0A0 + 4 * n)) bad) ++
  failIf (bit ctrl 16 && fld (r 0x100) 0 4 == 0) (a 0x100) bad ++
  (List.range 8).flatMap (fun q =>
    failIf (fld (r (0x400 + 8 * q)) 1 7 == 0) (a (0x400 + 8 * q)) bad ++
    failIf (fld (r (0x404 + 8 * q)) 0 16 != 0 && fld (r (0x404 + 8 * q)) 16 16 == 0) (a (0x404 + 8 * q)) bad)

/-- Headroom cells of a port's priorities (R107). -/
def portHeadroom (w : Tab Word) (p : Nat) (l : List Nat) : Nat := l.foldl (fun n q => n + bankWord w (portAddr p (0x0A0 + 4 * q))) 0

/-- Cells that a port's queues reserve on every die (R185). -/
def portMinCells (w : Tab Word) (p : Nat) : Nat :=
  (List.range 8).foldl (fun n q => n + fld (bankWord w (portAddr p (0x400 + 8 * q))) 16 16) 0

/-- Cells reserved on a fabric die, where `use` names the priorities of a port for which headroom is reserved (R185). -/
def reservedFor (w : Tab Word) (die : Nat) (use : Nat → List Nat) : Nat :=
  (namedIn w portBase 0x1000 1024).foldl (fun n p => n + portMinCells w p + if portDie p == die then portHeadroom w p (use p) else 0)
    (fld (bankWord w (tblBase + 0x3A00)) 0 16)

/-- The lossless priorities of a port that are operational now (R107): PFC's operational set, or the whole port in pause mode. -/
def operational (w : Tab Word) (s : State) (p : Nat) : List Nat :=
  let m := fld (bankWord w (portAddr p 0x000)) 14 2
  if m == 2 then (List.range 8).filter fun n => bit (portGet s p).pfcOper n else if m == 1 then [0] else []

/-- Cells reserved now on a fabric die (R107, R185). -/
def dieReserved (s : State) (die : Nat) : Nat := reservedFor (curWords s) die (operational (curWords s) s)

/-- Cells that the words of a fix would reserve on a fabric die: R107 counts operational priorities, and a fix is checked before they
settle, so that the model counts the configured ones and those operational now (DESIGN CHOICE, assumption 116). -/
def fixReserved (w : Tab Word) (s : State) (die : Nat) : Nat :=
  reservedFor w die fun p => (operational w s p).foldl insertNat (fcInUse w p)

/-! ## Tables, nodes, profiles -/

/-- Does table `t` overlap an enabled table of a lower number? -/
def tableOverlaps (w : Tab Word) (t : Nat) : Bool :=
  (List.range t).any fun u => tdEnable w u && decide (tdBase w u < tdBase w t + tdSize w t) &&
    decide (tdBase w t < tdBase w u + tdSize w u)

/-- Extract `k` of a table's template: source, optional, offset, length. -/
def extractOf (w : Tab Word) (t k : Nat) : Nat × Bool × Nat × Nat :=
  let x := bankWord w (tblBase + 0x400 + 0x40 * t + 4 * k)
  (fld x 0 6, bit x 6, fld x 8 6, fld x 16 6)

/-- Template failures; the sum fails at the extract that passes key_len (R130). -/
def templateFails (w : Tab Word) (t : Nat) : Nat → Nat → List Fail
  | 0, _ => []
  | n + 1, sum =>
    let k := 12 - (n + 1)
    let (src, _, off, len) := extractOf w t k
    let a := tblBase + 0x400 + 0x40 * t + 4 * k
    failIf (32 < src || 64 < off + len || (tdKeyLen w t < sum + len && sum ≤ tdKeyLen w t && len != 0)) a (badParam 0) ++
    templateFails w t n (sum + len)

def tableFails (old w : Tab Word) (s : State) (t : Nat) : List Fail :=
  let a := tblBase + 8 * t
  let on := tdEnable w t
  let fifth := 4 < ((List.range (t + 1)).filter fun u => tdEnable w u && tdStage w u == tdStage w t).length
  failIf (on && (tdSizeLog w t < 8 || 18 < tdSizeLog w t || tdBase w t % tdSize w t != 0 || 262144 < tdBase w t + tdSize w t ||
    tableOverlaps w t)) a (badParam 0) ++
  failIf (on && (tdKeyLen w t < 8 || 48 < tdKeyLen w t || tdStage w t == 0 || tdStage w t == 7 || fifth)) (a + 4) (badParam 0) ++
  templateFails w t 12 0 ++
  (if s.tbl.entries.any fun e => e.table == t then
    let held := (tget s.tbl.shapes t).getD (shapeOf old t)
    ((tableWords t).zip held).flatMap fun x => failIf (bankWord w x.1 != x.2) x.1 (busy dInUse)
  else [])

/-- Byte `k` of a graph node of a bank (R120). -/
def nodeByte (w : Tab Word) (n k : Nat) : Nat := fld (bankWord w (tblBase + 0x10000 + 0xC0 * n + k / 4 * 4)) (8 * (k % 4)) 8
def nodeLe (w : Tab Word) (n k len : Nat) : Nat := (List.range len).foldl (fun v i => v + nodeByte w n (k + i) * 256 ^ i) 0

/-- An action of a node that R684 refuses. -/
def actionBad (a : Nat) : Bool := 2 ≤ fld a 8 2 && fld a 10 6 < 16

def nodeBad (w : Tab Word) (n : Nat) : Bool :=
  let b := nodeByte w n
  let sel := b 3
  let valid := nodeLe w n 10 2
  (32 ≤ b 0 && b 0 != 255) || 64 < b 1 || 4 < fld sel 0 3 || (bit sel 3 && fld sel 0 3 != 1 && fld sel 0 3 != 2) || fld sel 4 4 != 0 ||
  bit (b 4) 1 || fld (b 4) 4 4 != 0 || nodeLe w n 12 4 != 0 || nodeLe w n 176 16 != 0 || actionBad (nodeLe w n 8 2) ||
  (List.range 16).any fun k => bit valid k && actionBad (nodeLe w n (16 + 10 * k + 8) 2)

def profileFails (w : Tab Word) (n : Nat) : List Fail :=
  let a := tblBase + 0x6100 + 0x20 * n
  let x := bankWord w a
  failIf (bit x 30 && !bit (bankWord w (tblBase + 0x640C + 16 * fld x 24 6)) 0) a (badParam 0) ++
  (List.range 6).flatMap fun k =>
    let t := bankWord w (a + 4 * (k + 1))
    failIf (t == 0 || 86400 < t) (a + 4 * (k + 1)) (badParam 0)

def poolFails (w : Tab Word) (n : Nat) : List Fail :=
  let x := bankWord w (tblBase + 0x6408 + 16 * n)
  failIf (fld x 16 16 < fld x 0 16) (tblBase + 0x6408 + 16 * n) (badParam 0)

def tblFails (old w : Tab Word) (s : State) : List Fail :=
  (List.range 16).flatMap (tableFails old w s) ++
  (List.range 4).flatMap (fun r =>
    let a := tblBase + 0x800 + 0x800 * r
    failIf (bankWord w a < 100 || 60000 < bankWord w a) a (badParam 0)) ++
  (List.range 16).flatMap (fun m =>
    let a := tblBase + 0x3404 + 8 * m
    let t := fld (bankWord w a) 0 14
    failIf (t != 0 && (t < 64 || 9600 < t)) a (badParam 0)) ++
  failIf ([1, 2, 3, 4].any fun d => 196608 < fixReserved w s d) (tblBase + 0x3A00) (noResource dReservations) ++
  (List.range 16).flatMap (profileFails w) ++ (List.range 64).flatMap (poolFails w) ++
  (namedIn w (tblBase + 0x10000) 0xC0 256).flatMap fun n => failIf (nodeBad w n) (tblBase + 0x10000 + 0xC0 * n) (badParam 0)

/-! ## CFG block and bed records -/

def cfgFails (w : Tab Word) : List Fail :=
  let x := bankWord w cfgBase
  failIf (fld x 0 10 < 10 || 1000 < fld x 0 10 || fld x 16 12 < 10 || 3600 < fld x 16 12) cfgBase (badParam 0)

/-- A field of a bed record of a bank. -/
def bedLe (w : Tab Word) (b off len : Nat) : Nat :=
  (List.range len).foldl (fun v i => v + fld (bankWord w (bedAddr b + (off + i) / 4 * 4)) (8 * ((off + i) % 4)) 8 * 256 ^ i) 0

def bedOn (w : Tab Word) (b : Nat) : Bool := bit (bedLe w b 1 1) 0

/-- Bytes of DDR5 in use (R500). -/
def memBytes (s : State) : Nat :=
  s.mem.chans.foldl (fun n e => n + if e.2.st == 1 then e.2.dimms * e.2.gib * 2 ^ 30 else 0) 0

/-- Window `k` of a record: base and size in bytes. -/
def recWindow (w : Tab Word) (b k : Nat) : Nat × Nat := (bedLe w b (32 + 16 * k) 8, bedLe w b (40 + 16 * k) 4 * 0x100000)

def windowOverlaps (w : Tab Word) (b k : Nat) : Bool :=
  let (base, size) := recWindow w b k
  (List.range 32).any fun c => c != b && bedOn w c && (List.range 8).any fun j =>
    let (x, n) := recWindow w c j
    n != 0 && size != 0 && decide (x < base + size) && decide (base < x + n)

def bedBusy (s : State) (b : Nat) : Bool :=
  let st := (tgetD s.svc.beds b {}).st
  st == .starting || st == .running || st == .stopping

def bedFails (old w : Tab Word) (s : State) (b : Nat) : List Fail :=
  let a := bedAddr b
  let on := bedOn w b
  let mask := bedLe w b 2 8
  let rights := bedLe w b 10 4
  let shared := (List.range b).any fun c => bedOn w c && (BitVec.ofNat 64 (bedLe w c 2 8) &&& BitVec.ofNat 64 mask) != 0
  failIf (on && shared) a (badParam 0) ++
  failIf (on && (bit rights 0x0A || bit rights 0x10 || fld rights 17 15 != 0)) (a + 8) (badParam 0) ++
  (List.range 8).flatMap (fun k =>
    let (base, size) := recWindow w b k
    failIf (on && size != 0 && (base % 0x200000 != 0 || size % 0x200000 != 0 || 0x1000000000 < size || windowOverlaps w b k ||
      base < 0x400800000000 || 0x400000000000 + memBytes s < base + size)) (a + 32 + 16 * k) (badParam 0)) ++
  (if bedBusy s b then (List.range 40).flatMap fun k => failIf (bankWord w (a + 4 * k) != bankWord old (a + 4 * k)) (a + 4 * k) (busy 0)
   else [])

/-! ## Objects -/

/-- Object name of a multicast group (R455). -/
def groupName (i : Nat) : Nat := 0xFFFF00000000 + 0x10000 * 3 + i

/-- Groups of the stage that lack a member (R459). -/
def groupFails (s : State) (e : Nat) : List Fail :=
  s.tbl.groups.flatMap fun g => g.2.flatMap fun v =>
    failIf (v.born == some e && v.val.members.length < v.val.total) (groupName g.1) (badParam 0)

/-! ## The whole check -/

def allFails (old w : Tab Word) (e : Nat) (s : State) : List Fail :=
  (namedIn w portBase 0x1000 1024).flatMap (portFails w) ++ tblFails old w s ++ cfgFails w ++
  (List.range 32).flatMap (bedFails old w s) ++ groupFails s e

/-- The failure at the lowest address. -/
def lowestFail : List Fail → Option Fail
  | [] => none
  | x :: r => match lowestFail r with
    | none => some x
    | some y => if x.1 ≤ y.1 then some x else some y

/-- Would a fix of these effective words at epoch `e` be refused, and where (R456, R472)? The result bytes hold the address. -/
def fixRefusal (w : Tab Word) (e : Nat) (s : State) : Option (Nat × Rep) :=
  (lowestFail (allFails (curWords s) w e s)).map fun f => (f.1, { f.2 with result := le 6 f.1 })

end Sys2Proof.Machine
end

