-- ==== Sys2Proof/Machine/Regs.lean ====
section
/-! DEFINITION. Reads of the configuration areas: the port block, the TBL copies, the CFG block and the bed records, with the effect
of reading an RC field (R110, R111, R155, R200, R235, R269, R481, R665). -/

namespace Sys2Proof.Machine

/-- The half of a 64-bit value that an offset of a field at `base` names. -/
def half64 (off base v : Nat) : Nat := if off == base then v % 2 ^ 32 else v / 2 ^ 32 % 2 ^ 32

/-- Words of a wider value, low first. -/
def wordN (v k : Nat) : Nat := v / 2 ^ (32 * k) % 2 ^ 32

/-! ## Ports -/

/-- The boot default of the base: locally administered, unicast, its low 10 bits zero (R685). -/
def bootMac : Nat :=
  let x := Config.bootMacBits.toNat
  x / 2 ^ 42 * 2 ^ 42 + 2 ^ 41 + x % 2 ^ 40 / 1024 * 1024

/-- Base of the port MAC addresses in force (R609, R685). -/
def macBase (s : State) : Nat :=
  (ownerOf s s.boot.running).macBase.getD bootMac

def portMac (s : State) (p : Nat) : Nat := macBase s + p

def linkCode : LinkState → Nat
  | .disabled => 0
  | .searching => 1
  | .settling => 2
  | .up => 3
  | .held => 4

def mkaOf (s : State) (p : Nat) : Mka := tgetD s.cry.mka p {}
def mkaMod (p : Nat) (f : Mka → Mka) (s : State) : State := { s with cry := { s.cry with mka := tmod s.cry.mka p {} f } }

/-- MKA state code of PORT_MACSEC_STATUS. -/
def mkaState (s : State) (p : Nat) : Nat :=
  let m := mkaOf s p
  if m.cak.isNone then 0 else if m.rekeying && m.suite != 0 then 4 else if (portGet s p).secured && m.suite != 0 then 3
  else if !m.peers.isEmpty then 2 else 1

def portStatus (s : State) (p : Nat) : Nat :=
  let x := portGet s p
  b2n (x.st == .up) + 2 * linkCode x.st + 16 * x.rate + 64 * x.fec +
  256 * b2n (x.partner.any fun q => q.pfc.isSome) + 512 * b2n (x.partner.any fun q => q.oro.isSome) + 1024 * b2n x.secured +
  2048 * b2n (x.localFault || x.highBer) + 4096 * b2n x.remoteFault + 65536 * x.pfcOper + 2 ^ 24 * x.xoff

/-- Counter `n` of a port (R113). -/
def portCnt (s : State) (p n : Nat) : Nat := tgetD (portGet s p).cnt n 0

/-- The next PN of the transmit SA (R235): 32 bits long for the suites 1 and 2, so that it has no successor of the last. -/
def txPn (m : Mka) : Nat :=
  let v := (tgetD m.tx m.txAn { pn := 0 }).pn
  if 3 ≤ m.suite then v % 2 ^ 64 else v % 2 ^ 32

/-- A word of the port block (R111, R112, R200, R235, R665). -/
def portReg (s : State) (p off : Nat) : Nat :=
  let x := portGet s p
  let m := mkaOf s p
  if off == 0x004 then portStatus s p
  else if off == 0x020 then (tgetD s.regs (portAddr p 0x20) 0).toNat
  else if off == 0x028 || off == 0x02C then half64 off 0x028 (portMac s p)
  else if inRow off 0x0C0 4 8 then tgetD x.use ((off - 0x0C0) / 4) 0
  else if inRow off 0x0E0 4 8 then tgetD x.peak ((off - 0x0E0) / 4) 0
  else if off == 0x108 then m.suite + 8 * b2n m.keyServer + 16 * m.txAn + 64 * min 3 m.peers.length + 256 * mkaState s p
  else if off == 0x110 || off == 0x114 then half64 off 0x110 (txPn m)
  else if off == 0x148 then sat 16 x.txtsDrops + 65536 * sat 16 x.tcUncorrected
  else if off == 0x14C then x.linkDelay
  else if 0x150 ≤ off && off < 0x160 then
    (match x.txts with
     | [] => 0
     | (id, sec, ns) :: _ => wordN (1 + id * 2 ^ 16 + sec % 2 ^ 48 * 2 ^ 32 + ns * 2 ^ 80) ((off - 0x150) / 4))
  else if 0x200 ≤ off && off < 0x400 then wordN (portCnt s p ((off - 0x200) / 8)) (off / 4 % 2)
  else if 0x500 ≤ off && off < 0x700 then
    let k := (off - 0x500) / 8
    let v := tgetD x.qcnt k 0
    wordN (if k % 8 == 1 then v else v % 2 ^ 48) (off / 4 % 2)
  else if 0x800 ≤ off && off < 0x900 then wordN (tgetD m.cnt ((off - 0x800) / 8) 0) (off / 4 % 2)
  else portNow s p off

/-- The effect of reading a word of the port block (RC fields; a read of the first word of PORT_PTP_TXTS removes the entry). R18 has a read
clear PORT_BUF_PEAK and its table calls it the highest use since the last read: the peak starts again at the present use (DESIGN CHOICE,
assumption 129). -/
def portRegRead (p off : Nat) (s : State) : State :=
  if inRow off 0x0E0 4 8 then
    portMod p (fun x => { x with peak := tput x.peak ((off - 0x0E0) / 4) (tgetD x.use ((off - 0x0E0) / 4) 0) }) s
  else if off == 0x148 then portMod p (fun x => { x with txtsDrops := 0, tcUncorrected := 0 }) s
  else if off == 0x150 then portMod p (fun x => { x with txts := x.txts.drop 1 }) s
  else s

/-! ## TBL block -/

/-- Memory banks of an array unit that are retired or under test (R570). -/
def banksOut (s : State) (p : Nat) : Nat :=
  (s.test.retired.filter fun k => k / 16 == p).length +
  (s.test.running.filter fun e => e.kind == 2 && place e.target.toNat == p).length

/-- Cells of a fabric die's buffer banks in service (R20, R570, R585). -/
def dieCells (s : State) (d : Nat) : Nat :=
  ((List.range 4).filter fun r => regionUp s d r).foldl (fun n r => n + (98304 - 6144 * banksOut s (mkPlace d r 17 112))) 0

/-- Cells of the shared pool: banks less reservations (R185). -/
def sharedPool (s : State) (d : Nat) : Nat := dieCells s d - dieReserved s d

/-- Shared cells in use on a die. -/
def sharedUsed (s : State) (d : Nat) : Nat :=
  s.buf.store.foldl (fun n e => n + if e.2.die == d then e.2.shared else 0) 0

def sharedFree (s : State) (d : Nat) : Nat := sharedPool s d - sharedUsed s d

/-- The lowest free count of a die's pool since it was last read (R200). -/
def freeMinOf (s : State) (d : Nat) : Nat := min (tgetD s.buf.freeMin d (sharedFree s d)) (sharedFree s d)

/-- A fall of the free count is noted, for a die and for all four. -/
def noteFree (d : Nat) (s : State) : State := { s with buf := { s.buf with freeMin := tput s.buf.freeMin d (freeMinOf s d) } }
def noteFrees (s : State) : State := [1, 2, 3, 4].foldl (fun s d => noteFree d s) s

/-- Crypto units in service of a region's cluster (TBL_CRY_STATUS): a mask of units 0 to 4. -/
def cryUnits (s : State) (g : Nat) : Nat :=
  (List.range 5).foldl (fun m u =>
    let p := mkPlace (gDie g) (gReg g) 16 u
    let on := !outOfService s p && dieUp s (gDie g) &&
      (u < 4 || ((ledger s p).state != .free && (ledger s p).state != .failed && (ledger s p).standsFor != 0))
    if on then m + 2 ^ u else m) 0

/-- Records held in the cache of region `g`. -/
def cryCached (s : State) (g : Nat) : Nat := (s.cry.holder.filter fun e => e.2 == g).length

def flowLoad (s : State) : Nat := s.flow.entries.length

/-- Present mirroring lag in ms (R269): as FLOW_TWIN_LAG last gave it, and at least the wait of the oldest queued change. -/
def twinLag (s : State) : Nat := max s.flow.lag (if s.flow.deltas.isEmpty then 0 else (nowUs s - s.flow.deltaAt) / 1000)

/-- A word of the TBL block of fabric die `d`. -/
def tblReg (s : State) (d off : Nat) : Nat :=
  let g := 4 * (d - 1)
  if 0x080 ≤ off && off < 0x100 then
    let t := (off - 0x080) / 8
    if off % 8 == 0 then slotsUsed s.tbl.entries t
    else (stashUsed s.tbl.entries t).length + 256 * b2n (thas s.tbl.reseed t)
  else if 0x100 ≤ off && off < 0x140 then
    if s.boot.lifecycle == .manufacturing || s.boot.lifecycle == .returned then (tgetD s.tbl.seeds ((off - 0x100) / 4) 0).toNat else 0
  else if off == 0x200 || off == 0x5800 || off == 0x6010 then (tgetD s.regs (tblBase + 0x20000 * (d - 1) + off) 0).toNat
  else if 0x900 ≤ off && off < 0x2900 && (off - 0x800) % 0x800 < 0x300 && 0x100 ≤ (off - 0x800) % 0x800 then
    let r := (off - 0x900) / 0x800
    wordN (tgetD s.tbl.rcnt (64 * (g + r) + (off - 0x900) % 0x800 / 8) 0) (off / 4 % 2)
  else if off == 0x3A08 then sharedFree s d
  else if off == 0x3A0C then freeMinOf s d
  else if 0x4000 ≤ off && off < 0x4800 then wordN (tgetD s.tbl.acnt (64 * g + (off - 0x4000) / 8) 0) (off / 4 % 2)
  else if 0x5000 ≤ off && off < 0x5800 then wordN (tgetD s.tbl.ccnt (64 * g + (off - 0x5000) / 8) 0) (off / 4 % 2)
  else if 0x5810 ≤ off && off < 0x5830 then
    let r := (off - 0x5810) / 8
    if off % 8 == 0 then min 4096 (cryCached s (g + r)) + 65536 * cryUnits s (g + r) else (tgetD s.cry.inputs (g + r) []).length
  else if off == 0x6008 then flowLoad s
  else if off == 0x600C then 1000 * flowLoad s / 33554432 + 65536 * sat 16 (twinLag s)
  else if 0x6800 ≤ off && off < 0x7000 then wordN (tgetD s.tbl.fcnt (64 * g + (off - 0x6800) / 8) 0) (off / 4 % 2)
  else tblNow s off

/-- The effect of reading a word of a TBL copy: the lowest free count starts again (RC). -/
def tblRegRead (d off : Nat) (s : State) : State :=
  if off == 0x3A0C then { s with buf := { s.buf with freeMin := tput s.buf.freeMin d (sharedFree s d) } } else s

/-! ## CFG block -/

def overlaysActive (s : State) : Nat := (s.cfg.layers.slots.filter fun e => e.2.active).length

def cfgReg (s : State) (off : Nat) : Nat :=
  if off == 0x008 then curEpoch s
  else if off == 0x00C then
    curTag s + 16 * s.cfg.live.foldl (fun m e => setBit m e.tag) 0 + 256 * b2n s.cfg.stage.isSome + 512 * b2n s.cfg.prepared.isSome +
    1024 * (match s.cfg.stage with | some g => g.tag | none => 0) + 65536 * overlaysActive s
  else if off == 0x010 then oldestEpoch s
  else if inRow off 0x040 4 64 then
    let o := tgetD s.cfg.layers.slots ((off - 0x040) / 4) {}
    o.prio + 16 * b2n o.active + 65536 * o.recs.length
  else if off == 0x200 then (tgetD s.regs (cfgBase + 0x200) 0).toNat
  else if 0x400 ≤ off && off < 0x440 then wordN (tgetD s.cfg.cnt ((off - 0x400) / 8) 0) (off / 4 % 2)
  else cfgNow s (cfgBase + off)

/-! ## Any configuration area -/

def isPortArea (a : Nat) : Bool := decide (portBase ≤ a) && decide (a < portBase + 1024 * 0x1000)
def isTblArea (a : Nat) : Bool := decide (tblBase ≤ a) && decide (a < tblBase + 0x80000)
def isCfgArea (a : Nat) : Bool := decide (cfgBase ≤ a) && decide (a < cfgBase + 0x1000)
def isBedArea (a : Nat) : Bool := decide (bedBase ≤ a) && decide (a < bedBase + 32 * 0xA0)

/-- The word at an aligned internal address of a configuration area; reserved words read zero. -/
def areaReg (s : State) (a : Nat) : Nat :=
  if isPortArea a then portReg s ((a - portBase) / 0x1000) (a % 0x1000)
  else if isTblArea a then tblReg s ((a - tblBase) / 0x20000 + 1) ((a - tblBase) % 0x20000)
  else if isCfgArea a then cfgReg s (a - cfgBase)
  else if isBedArea a then cfgNow s a
  else 0

def areaRead (a : Nat) (s : State) : State :=
  if isPortArea a then portRegRead ((a - portBase) / 0x1000) (a % 0x1000) s
  else if isTblArea a then tblRegRead ((a - tblBase) / 0x20000 + 1) ((a - tblBase) % 0x20000) s
  else s

end Sys2Proof.Machine
end

