-- ==== Sys2Proof/Machine/TimeOps.lean ====
section
/-! DEFINITION. The timekeeper and the event log: steps, offsets, the 1 µs advance, and records (R647-R660, R665). -/

namespace Sys2Proof.Machine

def timeMod (f : TimeS → TimeS) (s : State) : State := { s with time := f s.time }
def evlogMod (f : LogS → LogS) (s : State) : State := { s with log := f s.log }

/-! ## The timekeeper (R647-R651) -/

/-- CFG_TIME.source. -/
def timeSource (s : State) : Nat := fld (cfgNow s (cfgBase + 0x300)) 0 2

/-- Nanoseconds and fractions added to the time. -/
def advance (t : TimeS) (fr : Nat) : TimeS :=
  let f := t.frac + fr
  let n := t.ns + f / 65536
  { t with frac := f % 65536, ns := n % 1000000000, sec := (t.sec + n / 1000000000) % 2 ^ 48 }

/-- One tick of 1 µs: time advances, an offset is slewed by at most 500 ppm, which is half a nanosecond (R650). -/
def tickTime (t : TimeS) : TimeS :=
  let d := max (-32768) (min 32768 t.slew)
  { advance t (65536000 + d).toNat with up := t.up + 1, slew := t.slew - d }

/-- Time of day steps to a value: reported, and owed to last_seen of every flow when the step falls after full service (R651). -/
def stepTime (sec ns : Nat) (s : State) : State :=
  let ds := Int.ofNat sec - Int.ofNat s.time.sec
  let dn := Int.ofNat ns - Int.ofNat s.time.ns
  let s := timeMod (fun t => { t with sec := sec % 2 ^ 48, ns := ns % 1000000000, frac := 0, slew := 0 }) s
  let s := if s.power.fullService then
      { s with flow := { s.flow with entries := s.flow.entries.map fun f => { f with owe := f.owe + ds } } }
    else s
  raise 0x3C03 timePlace (sw2 ds ++ [sw dn]) s

/-- A measured offset in ns is corrected by slewing; one above 10 s is reported (R650). -/
def slewOffset (off : Int) (s : State) : State :=
  let s := timeMod (fun t => { t with slew := off * 65536 }) s
  if 10000000000 < off.natAbs then raise 0x3C04 timePlace [sw (off / 1000000)] s else s

/-- The latest measured offset, saturating (TIME_OFFSET). -/
def measured (off : Int) (s : State) : State :=
  timeMod (fun t => { t with offset := BitVec.ofInt 32 (max (-2147483648) (min 2147483647 off)) }) s

/-- The time is written to the flash runtime store (R651). -/
def writeTime (s : State) : State :=
  toFlash 13 0 (le 8 s.time.sec) { s with flash := { s.flash with time := s.time.sec } }

/-- Is the timekeeper locked to the source that CFG_TIME now selects (R648)? -/
def timeLocked (s : State) : Bool := s.time.locked && s.time.lockedTo == timeSource s

/-- TIME_STATUS.clock_class (R653). -/
def clockClass (s : State) : Nat :=
  if timeSource s == 2 && timeLocked s then 6 else if s.time.holdover && s.time.wasLocked then 7 else 248

/-- A 32-bit word of the TIME block (R665). -/
def timeReg (s : State) (off : Nat) : Nat :=
  let t := s.time
  if off < 0x010 then wordN (t.frac + 2 ^ 16 * t.ns + 2 ^ 48 * t.sec) (off / 4)
  else if off == 0x010 then
    b2n t.refPresent + 2 * b2n t.ppsPresent + 4 * b2n (timeLocked s) + 8 * b2n t.holdover + 16 * b2n t.todSet + 256 * clockClass s
  else if off == 0x018 then t.offset.toNat
  else if 0x020 ≤ off && off < 0x030 then wordN (s.log.next % 2 ^ 64 + 2 ^ 64 * s.log.lost) ((off - 0x020) / 4)
  else 0

/-! ## The event log (R657-R660) -/

/-- The event-log area of R501. -/
def logBase : Nat := 0x400104000000

/-- The 64 bytes of a record. -/
def recordBytes (r : LogRec) : Bytes :=
  le 8 r.seq ++ le 6 r.sec ++ le 4 r.ns ++ le 2 r.code ++ le 4 r.path.toNat ++ [byte r.flags, byte r.words.length, 0, 0] ++
  fitTo 36 (r.words.flatMap fun w => le 4 w)

/-- A record into the ring in DDR5: one that overwrites another counts it lost. A line of a lost channel takes nothing (R507). -/
def logToDdr5 (r : LogRec) (s : State) : State :=
  let a := logBase + 64 * (r.seq % 65536)
  let s := if poisonBlocks s a 64 then s else memWrite s a (recordBytes r)
  if s.log.oldest + 65536 ≤ r.seq then evlogMod (fun l => { l with oldest := l.oldest + 1, lost := l.lost + 1 }) s else s

/-- A record into the ring of 1,024 in G0, while DDR5 is not in use (R660). -/
def logToG0 (r : LogRec) (s : State) : State :=
  evlogMod (fun l => if l.g0.length < 1024 then { l with g0 := l.g0 ++ [r] } else { l with g0 := l.g0.drop 1 ++ [r], lost := l.lost + 1 }) s

/-- An event is appended as the next record (R657, R658). -/
def logAppend (e : EvRec) (s : State) : State :=
  let r : LogRec := {
    seq := s.log.next, sec := s.time.sec, ns := s.time.ns, code := e.code, path := e.path
    flags := b2n (!s.time.todSet), words := e.words.take 9 }
  let s := evlogMod (fun l => { l with next := (l.next + 1) % 2 ^ 64 }) s
  if ddr5Up s then logToDdr5 r s else logToG0 r s

/-- When DDR5 enters use, the ring in G0 is appended to the log there, in order, each record marked (R660). -/
def logIntoDdr5 (s : State) : State :=
  let l := s.log.g0
  let s := evlogMod (fun l => { l with g0 := [] }) s
  let s := match l with
    | [] => s
    | r :: _ => if s.log.oldest < s.log.base then s else evlogMod (fun x => { x with oldest := r.seq }) s
  l.foldl (fun s r => logToDdr5 { r with flags := setBit r.flags 1 } s) s

/-- Sequence of the oldest record held. -/
def oldestRecord (s : State) : Nat :=
  if ddr5Up s then s.log.oldest
  else match s.log.g0 with
    | r :: _ => r.seq
    | [] => s.log.next

/-- The bytes of record `n`, none where its line is poisoned or lost (R504). -/
def recordAt (s : State) (n : Nat) : Option Bytes :=
  if ddr5Up s then
    let a := logBase + 64 * (n % 65536)
    if (poisonHit s a 64).isSome then none else some (memRead s a 64)
  else (s.log.g0.find? fun r => r.seq == n).map recordBytes

end Sys2Proof.Machine
end

