-- ==== Sys2Proof/Machine/Mailbox.lean ====
section
/-! DEFINITION. Mailbox channels (R483-R494): ends, sending, reading, doorbells, and resets of an end. -/

namespace Sys2Proof.Machine

def mbxOf (s : State) (c : Nat) : Mbx := tgetD s.mbx c { staging := [], msg := [] }
def mbxMod (c : Nat) (f : Mbx → Mbx) (s : State) : State := { s with mbx := tmod s.mbx c {} f }

/-- PROT_MBX entry of a channel (R619). -/
def mbxEntry (s : State) (c : Nat) : Nat := tgetD s.prot.mbx c 0
/-- May a requester hold this end: a secure channel takes a PF only with secure access (R485)? -/
def mbxHolds (s : State) (c code : Nat) : Bool := decide (c < 16) || decide (32 ≤ code) || bit (tgetD s.prot.req code 0) 18
/-- The requester of an end, 0 the sender's and 1 the receiver's; none while the channel has no ends (R484). -/
def mbxEnd (s : State) (c k : Nat) : Option Nat :=
  let code := fld (mbxEntry s c) (8 * k) 8
  if bit (mbxEntry s c) 16 && mbxHolds s c code then some code else none
def mbxSender (s : State) (c : Nat) : Option Nat := mbxEnd s c 0
def mbxReceiver (s : State) (c : Nat) : Option Nat := mbxEnd s c 1

/-- The role of a requester on a channel: 0 sender, 1 receiver. -/
def mbxRole (s : State) (c code : Nat) : Option Nat :=
  if mbxSender s c == some code then some 0 else if mbxReceiver s c == some code then some 1 else none

/-- Requester code of a PF, and the function behind a code. -/
def pfCode (f : Fn) : Nat := 4 * f.link + 2 * f.half + f.pool
def codeFn (code : Nat) : Option Fn :=
  if code < 16 then some { link := code / 4, half := code / 2 % 2, pool := code % 2, num := 0 } else none

/-- Signal of an end (R490): MSI-X or INTx of a PF; an 8-byte external message on the channel in MBX_IRQ.target of a bed's first
cluster; other ends (management, key store) take it as a signal. -/
def mbxSignal (c code irq cause : Nat) (s : State) : State :=
  if !bit irq 0 then s
  else match codeFn code with
    | some f => signalVector f (fld irq 1 9) s
    | none =>
      if 32 ≤ code && code < 64 then
        match (bedClusters s (code - 32)).head? with
        | some n => (extMessage n (fld irq 1 8) 5 [byte c, byte cause, 0, 0, 0, 0, 0, 0] s).1
        | none => s
      else emit (.signal code c cause) s

def signalReceiver (c cause : Nat) (s : State) : State :=
  match mbxReceiver s c with
  | some r => mbxSignal c r (mbxOf s c).irqR cause s
  | none => s

def signalSender (c cause : Nat) (s : State) : State :=
  match mbxSender s c with
  | some r => mbxSignal c r (mbxOf s c).irqS cause s
  | none => s

/-- A write of MBX_SEND (R488, R491). -/
def mbxSend (c len : Nat) (s : State) : State :=
  let m := mbxOf s c
  if m.recvReset then signalSender c 5 (mbxMod c (fun m => { m with aborted := true }) s)
  else if len == 0 || 64 < len || m.full then
    signalSender c 4 (mbxMod c (fun m => { m with refused := true }) s)
  else
    signalReceiver c 1 (mbxMod c (fun m => { m with msg := fitTo len m.staging, full := true }) s)

/-- A read by the receiver that covers byte 63 (R489). -/
def mbxRead63 (c : Nat) (s : State) : State :=
  if (mbxOf s c).full then signalSender c 3 (mbxMod c (fun m => { m with full := false }) s) else s

/-- Doorbell bits set by the sender (R490). -/
def mbxDbSet (c : Nat) (bits : Word) (s : State) : State :=
  let s := mbxMod c (fun m => { m with db := m.db ||| bits }) s
  if bits &&& ~~~(mbxOf s c).mask != 0 then signalReceiver c 2 s else s

/-- Doorbell bits cleared by the receiver. -/
def mbxDbClear (c : Nat) (bits : Word) (s : State) : State := mbxMod c (fun m => { m with db := m.db &&& ~~~bits }) s

/-- A write of the doorbell mask (R490): a mask bit cleared over a pending bit signals. -/
def mbxDbMask (c : Nat) (mask : Word) (s : State) : State :=
  let old := (mbxOf s c).mask
  let s := mbxMod c (fun m => { m with mask := mask }) s
  if (old &&& ~~~mask) &&& (mbxOf s c).db != 0 then signalReceiver c 2 s else s

/-- Reset of a receiver end; it stays in reset while `held` (R491). -/
def mbxResetReceiver (c : Nat) (held : Bool) (s : State) : State :=
  signalSender c 5 (mbxMod c (fun m => { m with
    full := false, msg := [], db := 0, mask := 0xFFFFFFFF, aborted := true, irqR := 0, senderReset := false, recvReset := held }) s)

/-- Reset of a sender end (R492). -/
def mbxResetSender (c : Nat) (s : State) : State :=
  let m := mbxOf s c
  let s := mbxMod c (fun m => { m with staging := [], refused := false, aborted := false, irqS := 0 }) s
  if m.full then signalReceiver c 6 (mbxMod c (fun m => { m with senderReset := true }) s) else s

/-- The ends that a requester holds are reset, receiver ends first (R491, R492, R494). -/
def mbxResetEnds (code : Nat) (held : Bool) (s : State) : State :=
  let s := (List.range 32).foldl (fun s c =>
    if mbxReceiver s c == some code then mbxResetReceiver c held s else s) s
  (List.range 32).foldl (fun s c => if mbxSender s c == some code then mbxResetSender c s else s) s

/-- The receiver ends of a requester leave reset. -/
def mbxRelease (code : Nat) (s : State) : State :=
  (List.range 32).foldl (fun s c =>
    if mbxReceiver s c == some code then mbxMod c (fun m => { m with recvReset := false }) s else s) s

/-! ## Rows -/

/-- MBX_SEND (R488): the sender of channel `c` writes a length. A channel without ends takes no send. -/
def execMbxSend (c len : Nat) (s : State) : Res :=
  onElem (decide (c < 32)) (if (mbxSender s c).isSome then mbxSend c len s else s)

/-- MBX_MSG_READ (R489): the receiver's read of bytes `off` to `off + len − 1` of MBX_MSG. -/
def execMbxMsgRead (c off len : Nat) (s : State) : Res :=
  onElem (decide (c < 32))
    (let s := emit (.readValue (0x00CC00000000 + 0x100 * c + off) (rd (fitTo 64 (mbxOf s c).msg) off len)) s
     if off ≤ 63 && 63 < off + len then mbxRead63 c s else s)

/-- MBX_DB_SET (R490). -/
def execMbxDbSet (c : Nat) (bits : Word) (s : State) : Res :=
  onElem (decide (c < 32)) (if (mbxSender s c).isSome then mbxDbSet c bits s else s)

/-- MBX_DB_CLEAR (R490). -/
def execMbxDbClear (c : Nat) (bits : Word) (s : State) : Res :=
  onElem (decide (c < 32)) (if (mbxReceiver s c).isSome then mbxDbClear c bits s else s)

/-- MBX_DB_MASK_WRITE (R490). -/
def execMbxDbMaskWrite (c : Nat) (mask : Word) (s : State) : Res :=
  onElem (decide (c < 32)) (if (mbxReceiver s c).isSome then mbxDbMask c mask s else s)

end Sys2Proof.Machine
end

