-- ==== Sys2Proof/Machine/Directory.lean ====
section
/-! DEFINITION. The resource directory (R282, R283): its entries, and their publication. -/

namespace Sys2Proof.Machine

def dirEntry (type inst owner bar off len param : Nat) : Bytes :=
  le 2 type ++ le 2 inst ++ le 4 owner ++ [byte bar, 0, 0, 0] ++ le 8 off ++ le 8 len ++ le 4 param

/-- The bed in one of whose memory windows a BAR2 window of a PF lies. -/
def lentTo (s : State) (e : Nat) : Option Nat :=
  if bit e 0 then (List.range 32).find? fun b => bedDefined s b && inBedWindow s b (fld e 12 36 * 4096) (2 ^ s.host.winLog2) 0 else none

/-- Path word of a bed: that of its first cluster. -/
def bedPath (s : State) (b : Nat) : Nat := (pathOf s (svcPlace ((bedClusters s b).headD 84))).toNat

/-- Entries of the directory of a PF: its queue pairs, its BAR2 windows lent to beds, the interfaces of running services, its mailbox
channels, and the running firmware image (assumption 36). -/
def dirEntries (s : State) (f : Fn) : List Bytes :=
  let q := shareQ s f
  let qps := if f.pool == 0 then [dirEntry 1 0 (pathOf s (qmPlace f.link)).toNat 0 0x1000000 (0x1000 * q) (2 ^ 16 * q)] else []
  let k := 2 ^ s.host.winLog2
  let wins := (funcOf s f).active.filterMap fun e => (lentTo s e.2).map fun b => dirEntry 2 b (bedPath s b) 2 (k * e.1) k e.1
  let running := s.svc.beds.filter fun e => e.2.st == .running
  let svcs := running.filterMap fun e => (e.2.slot.bind fun k => tget s.svc.images k).map fun i =>
    dirEntry 3 e.1 (bedPath s e.1) 0xFF 0 0 (i.service % 256 + 256 * i.iface)
  let mine := (List.range 32).filter fun c => (mbxRole s c (pfCode f)).isSome
  let boxes := mine.map fun c => dirEntry 4 c (pathOf s g0Place).toNat 0 (0x200000 + 0x100 * c) 0x100 c
  let fw := dirEntry 5 0 (pathOf s g0Place).toNat 0xFF 0 0 (if s.boot.running == 0 then s.boot.imageA else s.boot.imageB).version
  qps ++ wins ++ svcs ++ boxes ++ [fw]

/-- The directory as a PF reads it: what firmware published last. -/
def directory (s : State) (f : Fn) : Bytes :=
  let es := tgetD s.host.dir (pfCode f) []
  le 4 0x5244574C ++ le 2 1 ++ le 2 es.length ++ le 8 s.host.dirGen ++ le 4 (crc32c 0xFFFFFFFF es.flatten) ++ List.replicate 12 0 ++ es.flatten

/-- The PFs of the package. -/
def allPfs (s : State) : List Fn :=
  ((List.range 16).map fun k => ({ link := k / 4, half := k / 2 % 2, pool := k % 2, num := 0 } : Fn)).filter fun f => fnExists s f

/-- Firmware rewrites the directory: the generation passes an odd value and ends even, and every PF is told (R283). -/
def dirChanged (s : State) : State :=
  let s := { s with host := { s.host with
    dirGen := s.host.dirGen + 2, dir := (allPfs s).foldl (fun t f => tput t (pfCode f) (dirEntries s f)) s.host.dir } }
  (allPfs s).foldl (fun s f => raiseFn 0x1807 f [s.host.dirGen % 2 ^ 32] s) s

end Sys2Proof.Machine
end

