-- ==== Sys2Proof/Machine/Optics.lean ====
section
/-! DEFINITION. The light path: slots, lasers, the light of a laser pair and which lanes are dark (R513-R515, R519-R522, R535). -/

namespace Sys2Proof.Machine

def cartMod (f : CartS → CartS) (s : State) : State := { s with cart := f s.cart }
def slotOf (s : State) (sl : Nat) : Slot := tgetD s.cart.slots sl {}
def slotMod (sl : Nat) (f : Slot → Slot) (s : State) : State := cartMod (fun c => { c with slots := tmod c.slots sl {} f }) s
def engineOf (s : State) (e : Nat) : Engine := tgetD s.cart.engines e {}
def laserOf (s : State) (sl j : Nat) : Laser := tgetD (slotOf s sl).lasers j {}

/-- The other slot of the cartridge pair (R12). -/
def mateSlot (sl : Nat) : Nat := if sl % 2 == 0 then sl + 1 else sl - 1

/-- Does the slot supply light, or ramp towards doing so (R521)? A latch that opens ends it (R525). -/
def supplies (x : Slot) : Bool := !x.latch && (x.st == .sharing || x.st == .alone || x.st == .rampingUp)

/-- Is any light of the slot on (R521)? -/
def slotLit (x : Slot) : Bool := x.st == .sharing || x.st == .alone || x.st == .rampingUp || x.st == .rampingDown

/-- The light of a laser that supplies its pair alone: 80 mW of class 2, 50 mW of class 1 (R514), in 1/32 mW. -/
def aloneLight (x : Slot) : Nat := if x.cls == 2 then 2560 else 1600

/-- The light that laser `j` of a slot supplies once no ramp runs: 40 mW beside a working mate, otherwise what it supplies alone
(R514). -/
def finalLight (s : State) (sl j : Nat) : Nat :=
  let x := slotOf s sl
  let m := slotOf s (mateSlot sl)
  if !(supplies x && bit x.working j) then 0
  else if supplies m && bit m.working j then 1280
  else aloneLight x

/-- Combined light of laser pair `j` of cartridge pair `k`, in 1/32 mW. -/
def pairLight (s : State) (k j : Nat) : Nat := (laserOf s (2 * k) j).target + (laserOf s (2 * k + 1) j).target

/-- Is the light of a laser pair below 30 mW (R515)? -/
def pairDark (s : State) (k j : Nat) : Bool := decide (pairLight s k j < 960)

/-- Is the lane of a port dark: no light from its laser pair, or a fault of its engine or of the lane (R515, R524)? -/
def laneDark (s : State) (p : Nat) : Bool :=
  let e := engineOf s (p / 32)
  pairDark s (p / 128) (p % 16) || e.fault || bit e.laneFault (p % 32)

/-- Ports of laser pair `j` of cartridge pair `k` (R513). -/
def pairPorts (k j : Nat) : List Nat := (List.range 4).flatMap fun i => [128 * k + 32 * i + j, 128 * k + 32 * i + j + 16]

/-- A laser takes a target: its measured light lies within ±0.5 dB of it, its bias does not exceed I_max (R514, R522); both are free
values. -/
def setTarget (sl j v : Nat) (s : State) : State :=
  if v == 0 then slotMod sl (fun x => { x with lasers := tmod x.lasers j {} fun l => { l with target := 0, monitor := 0, bias := 0 } }) s
  else
    let (m, s) := drawFree s
    let (b, s) := drawFree s
    let lo := (v * 891 + 31999) / 32000
    let hi := max lo (v * 1122 / 32000)
    slotMod sl (fun x => { x with lasers := tmod x.lasers j {} fun l => { l with
      target := v, monitor := lo + m % (hi - lo + 1), bias := b % (x.iMax + 1) } }) s

def stateCode : SlotState → Nat
  | .empty => 0
  | .settling => 1
  | .refused => 2
  | .sharing => 3
  | .alone => 4
  | .rampingDown => 5
  | .readyToRemove => 6
  | .rampingUp => 7
  | .failed => 8

/-- Lasers of a slot that are biased, as a mask. -/
def litMask (x : Slot) : Nat := (x.lasers.filter fun l => 0 < l.2.target).foldl (fun m l => setBit m l.1) 0
def litCount (x : Slot) : Nat := (x.lasers.filter fun l => 0 < l.2.target).length

def lifeOf (s : State) (serial : Nat) : Option LifeRec := s.cart.lives.find? fun r => r.serial == serial

/-- Life record of the cartridge in a slot. -/
def slotLife (s : State) (sl : Nat) : Option LifeRec :=
  let x := slotOf s sl
  if slotLit x || x.st == .readyToRemove || x.st == .failed then lifeOf s x.serial else none

def litHours (s : State) (sl : Nat) : Nat := match slotLife s sl with | some r => r.litHours | none => 0
def aloneHours (s : State) (sl : Nat) : Nat := match slotLife s sl with | some r => r.aloneHours | none => 0

/-- A 32-bit word of the CART block (R535). -/
def cartReg (s : State) (off : Nat) : Nat :=
  if off < 0x10000 then
    let sl := off / 0x1000
    let x := slotOf s sl
    let o := off % 0x1000
    if o < 0x008 then
      wordN (stateCode x.st + 2 ^ 8 * min 3 x.cls + 2 ^ 16 * (x.working % 65536) + 2 ^ 32 * litMask x + 2 ^ 48 * min 65535 x.margin) (o / 4)
    else if 0x010 ≤ o && o < 0x020 then wordN x.serial ((o - 0x010) / 4)
    else if o == 0x020 then litHours s sl
    else if o == 0x024 then aloneHours s sl
    else if 0x100 ≤ o && o < 0x180 then
      let l := laserOf s sl ((o - 0x100) / 8)
      wordN (l.target / 32 % 256 + 2 ^ 8 * (l.monitor % 256) + 2 ^ 16 * (l.bias % 512) + 2 ^ 32 * (l.i80 / 100 % 512) + 2 ^ 48 * b2n l.failed) (o / 4 % 2)
    else 0
  else if off < 0x12000 then
    let e := (off - 0x10000) / 0x100
    let o := off % 0x100
    if o < 8 then
      let dark := (List.range 32).foldl (fun m l => if laneDark s (32 * e + l) then setBit m l else m) 0
      wordN (b2n (engineOf s e).fault + 2 * (engineOf s e).cause + 2 ^ 8 * dark) (o / 4)
    else 0
  else 0

end Sys2Proof.Machine
end

