-- ==== Sys2Proof/Machine/Link.lean ====
section
/-! DEFINITION. Ports: what the MAC sends of itself, flow control, rate search and link state, and LLDP with DCBX
(R73-R90, R102-R109). -/

namespace Sys2Proof.Machine

/-- Does the port transmit remote fault: it detects a local fault or a high bit error rate, or it is held (R74, R80)? -/
def sendsFault (s : State) (p : Nat) : Bool :=
  let x := portGet s p
  x.st == .held || (x.st != .disabled && (x.localFault || x.highBer))

/-- What the line shows of a change from `was`: remote fault begins or stops. -/
def faultSignal (p : Nat) (was : Bool) (s : State) : State :=
  if sendsFault s p == was then s else emit (.remoteFault p (!was)) s

/-- A row about a port of a region in service. The MAC units of a lost region raise nothing (R585). -/
def onPort (p : Nat) (s t : State) : Res :=
  onElem (decide (p < 1024)) (if regionUp s (portDie p) (portRegion p) then faultSignal p (sendsFault s p) t else s)

/-! ## Settings that follow the current epoch (R95) -/

def pCtrl (s : State) (p : Nat) : Nat := portNow s p 0x000
def pEnabled (s : State) (p : Nat) : Bool := bit (pCtrl s p) 0
/-- Is a rate (1 10G, 2 25G, 3 50G) enabled? -/
def rateOn (s : State) (p r : Nat) : Bool := decide (1 ≤ r) && decide (r ≤ 3) && bit (pCtrl s p) r
def secRequired (s : State) (p : Nat) : Bool := bit (pCtrl s p) 16
def lldpOn (s : State) (p : Nat) : Bool := bit (pCtrl s p) 18
/-- Flow-control mode: 0 none, 1 pause, 2 PFC. -/
def fcMode (s : State) (p : Nat) : Nat := let m := fld (pCtrl s p) 14 2; if m == 3 then 0 else m
/-- Configured PFC priorities (PORT_PFC.pfc_enable). -/
def pfcSet (s : State) (p : Nat) : Nat := fld (portNow s p 0x00C) 0 8
def quanta (s : State) (p : Nat) : Nat := fld (portNow s p 0x00C) 8 16
def wmHi (s : State) (p n : Nat) : Nat := portNow s p (0x060 + 4 * n)
def wmLo (s : State) (p n : Nat) : Nat := portNow s p (0x080 + 4 * n)
def headroom (s : State) (p n : Nat) : Nat := portNow s p (0x0A0 + 4 * n)
def maxFrame (s : State) (p : Nat) : Nat := fld (portNow s p 0x008) 0 14

/-! ## Frames that the MAC originates (R91, R92, R685) -/

/-- May the port transmit frames: UP, no local fault or high bit error rate, no remote fault (R74)? -/
def macUp (s : State) (p : Nat) : Bool :=
  let x := portGet s p
  x.st == .up && !x.localFault && !x.highBer && !x.remoteFault

/-- A frame leaves the MAC: padding to 60 bytes before the FCS, and the transmit counters with the FCS included (R92, R113). -/
def macSend (p : Nat) (b : Bytes) (s : State) : State :=
  let s := if b.length < 60 then countPort p 44 1 s else s
  let b := b ++ List.replicate (60 - b.length) 0
  let s := countPort p 24 (b.length + 4) (countPort p 25 1 s)
  let s := if b.take 6 == List.replicate 6 0xFF then countPort p 27 1 s
    else if bit (rd b 0 1) 0 then countPort p 26 1 s else s
  emit (.frame p b) s

/-- A control frame of the port itself, unsecured (R211); nothing while the MAC may not transmit. -/
def originate (p : Nat) (b : Bytes) (s : State) : State :=
  if macUp s p then mkaMod p (fun m => { m with cnt := tadd m.cnt 4 1 }) (macSend p b s) else s

/-- Destination, source and EtherType of a frame that the port originates. -/
def ownHeader (s : State) (p dest etype : Nat) : Bytes := be 6 dest ++ be 6 (portMac s p) ++ be 2 etype

/-! ## Flow control (R101-R106) -/

def inMask (m n : Nat) : Bool := bit m n
def maskOf (l : List Nat) : Nat := l.foldl setBit 0

/-- Use that a priority's watermarks see: its own, or the whole port's in pause mode (R103). -/
def fcUse (s : State) (p n : Nat) : Nat :=
  let x := portGet s p
  if fcMode s p == 1 then (List.range 8).foldl (fun a k => a + tgetD x.use k 0) 0 else tgetD x.use n 0

/-- Priorities in flow-control use now: the operational set, or 0 for the whole port. -/
def fcPrios (s : State) (p : Nat) : List Nat :=
  match fcMode s p with
  | 1 => [0]
  | 2 => (List.range 8).filter fun n => bit (portGet s p).pfcOper n
  | _ => []

/-- A PFC frame with bits for the priorities given, time `quanta` for those in `on` and zero for the others; 60 bytes. -/
def pfcFrame (s : State) (p : Nat) (prios : List Nat) (on : Nat → Bool) : Bytes :=
  ownHeader s p 0x0180C2000001 0x8808 ++ be 2 0x0101 ++ be 2 (maskOf prios) ++
  (List.range 8).flatMap (fun n => be 2 (if prios.contains n && on n then quanta s p else 0)) ++ List.replicate 26 0

def pauseFrame (s : State) (p : Nat) (on : Bool) : Bytes :=
  ownHeader s p 0x0180C2000001 0x8808 ++ be 2 0x0001 ++ be 2 (if on then quanta s p else 0) ++ List.replicate 42 0

/-- One flow-control frame for the priorities given (R102, R103), counted (R113). -/
def fcSend (p : Nat) (pauseMode : Bool) (prios : List Nat) (on : Nat → Bool) (s : State) : State :=
  if prios.isEmpty || !macUp s p then s
  else if pauseMode then originate p (pauseFrame s p (on 0)) (countPort p 28 1 s)
  else
    let s := (prios.filter on).foldl (fun s n => countPort p (32 + n) 1 s) s
    originate p (pfcFrame s p prios on) s

/-- Use compared with the watermarks: XOFF where it has reached the high one, XON where it has fallen below the low one; changes of
several priorities share one frame (R102, R103, R106). -/
def fcCheck (p : Nat) (s : State) : State :=
  let x := portGet s p
  let prios := fcPrios s p
  let off := prios.filter fun n => !bit x.xoff n && decide (wmHi s p n ≤ fcUse s p n)
  let on := prios.filter fun n => bit x.xoff n && decide (fcUse s p n < wmLo s p n)
  if x.st != .up || (off.isEmpty && on.isEmpty) then s
  else
    let s := fcSend p (fcMode s p == 1) ((List.range 8).filter fun n => off.contains n || on.contains n) (fun n => off.contains n) s
    portMod p (fun x => { x with xoff := on.foldl clrBit (off.foldl setBit x.xoff) }) s

/-- Zero-time frames for every priority in XOFF among those given, which leave XOFF (R85, R106). -/
def fcRelease (p : Nat) (pauseMode : Bool) (prios : List Nat) (s : State) : State :=
  let l := prios.filter fun n => bit (portGet s p).xoff n
  portMod p (fun x => { x with xoff := l.foldl clrBit x.xoff }) (fcSend p pauseMode l (fun _ => false) s)

/-- Cells of a port-priority taken into use or released, with the peak and the watermarks (R101, R102). -/
def useAdd (p prio n : Nat) (s : State) : State :=
  portMod p (fun x =>
    let u := tgetD x.use prio 0 + n
    { x with use := tput x.use prio u, peak := tput x.peak prio (max u (tgetD x.peak prio 0)) }) s
def useSub (p prio n : Nat) (s : State) : State :=
  fcCheck p (portMod p (fun x => { x with use := tput x.use prio (tgetD x.use prio 0 - n) }) s)

/-- PFC_REFRESH_TIMER (R102): half a pause time has passed since the XOFF frame of a priority; it is repeated while use stays at or above
the low watermark. -/
def execPfcRefreshTimer (p : Nat) (s : State) : Res :=
  onPort p s
    (let s := fcCheck p s
     let l := (fcPrios s p).filter fun n => bit (portGet s p).xoff n
     if (portGet s p).st == .up then fcSend p (fcMode s p == 1) l (fun _ => true) s else s)

/-- A control frame of `n` bytes with its FCS is accepted by the MAC (R93, R113). -/
def countRx (p n : Nat) (group broadcast : Bool) (s : State) : State :=
  let s := countPort p 0 n (countPort p 1 1 s)
  if broadcast then countPort p 3 1 s else if group then countPort p 2 1 s else s

/-- Effect of a received PFC frame with an enable vector and times (R105). -/
def pfcReceived (p vector : Nat) (times : List Nat) (s : State) : State :=
  let named := (List.range 8).filter fun n => bit vector n
  let stop := named.filter fun n => times.getD n 0 != 0
  let s := stop.foldl (fun s n => countPort p (16 + n) 1 s) s
  if fcMode s p == 2 then
    portMod p (fun x => { x with paused := stop.foldl setBit (named.foldl clrBit x.paused) }) s
  else s

/-- Effect of a received PAUSE frame (R105). -/
def pauseReceived (p time : Nat) (s : State) : State :=
  let s := countPort p 10 1 s
  if fcMode s p == 1 then portMod p (fun x => { x with paused := if time == 0 then 0 else 255 }) s else s

/-- PFC_FRAME_RECEIVED: a PFC frame of 64 bytes with its enable vector and eight times. -/
def execPfcFrameReceived (p vector : Nat) (times : List Nat) (s : State) : Res :=
  onPort p s (if (portGet s p).st == .up then pfcReceived p vector times (countRx p 64 true false s) else s)

def execPauseFrameReceived (p time : Nat) (s : State) : Res :=
  onPort p s (if (portGet s p).st == .up then pauseReceived p time (countRx p 64 true false s) else s)

/-- PAUSE_TIME_EXPIRY (R105): the stated time of the queues of a mask has passed. -/
def execPauseTimeExpiry (p mask : Nat) (s : State) : Res :=
  onPort p s (portMod p (fun x => { x with paused := ((List.range 8).filter fun n => bit mask n).foldl clrBit x.paused }) s)

/-! ## The controlled port (R89, R90, R216) -/

/-- Is the controlled port open: secured, or in clear where MACsec is not required? -/
def portOpen (s : State) (p : Nat) : Bool := (portGet s p).st == .up && (!secRequired s p || (portGet s p).secured)

/-- The SAs of a port are deleted and MKA starts again. -/
def mkaRestart (p : Nat) (s : State) : State :=
  mkaMod p (fun m => { m with
    peers := [], keyServer := false, suite := 0, txAn := 0, tx := [], rx := [], rxSci := [], rekeying := false, nextSuite := 0
    nextSak := [] }) s

/-- The controlled port closes, with its cause (R216). -/
def secureLost (p cause : Nat) (s : State) : State :=
  if (portGet s p).secured && secRequired s p then
    raise 0x0C08 (macPlace p) [cause] (portMod p (fun x => { x with secured := false }) s)
  else portMod p (fun x => { x with secured := false }) s

/-! ## LLDP frames (R83-R86) -/

/-- One TLV. -/
def tlv (type : Nat) (b : Bytes) : Bytes := be 2 (type * 512 + b.length) ++ b

/-- The LLDPDU of a port: chassis, port and TTL, the DCBX PFC Configuration and ETS Recommendation TLVs, the Oroarnin TLV, end. -/
def lldpdu (s : State) (p : Nat) : Bytes :=
  tlv 1 (4 :: be 6 Config.chassisId.toNat) ++ tlv 2 (3 :: be 6 (portMac s p)) ++ tlv 3 (be 2 120) ++
  tlv 127 (be 3 0x0080C2 ++ [0x0B, byte (128 * b2n (bit (pCtrl s p) 17) + 8), byte (pfcSet s p)]) ++
  tlv 127 (be 3 0x0080C2 ++ [0x0A, 0] ++ (List.range 20).map Config.etsByte) ++
  tlv 127 (be 3 Config.oroarninOui.toNat ++ [1] ++ le 4 (pathOf s (macPlace p)).toNat ++ le 2 (maxFrame s p) ++ le 2 2 ++
    [byte (b2n (secRequired s p))]) ++
  tlv 0 []

def lldpSend (p : Nat) (s : State) : State :=
  if lldpOn s p then originate p (ownHeader s p 0x0180C200000E 0x88CC ++ lldpdu s p) s else s

/-! ## Link state (R75-R82) -/

/-- Highest enabled rate at or below `r`, 0 where none is. -/
def rateFrom (s : State) (p : Nat) : Nat → Nat
  | 0 => 0
  | r + 1 => if rateOn s p (r + 1) then r + 1 else rateFrom s p r

/-- The next lower enabled rate, from the lowest back to the highest (R76). -/
def rateBelow (s : State) (p r : Nat) : Nat :=
  let n := rateFrom s p (r - 1)
  if n == 0 then rateFrom s p 3 else n

/-- Step 1 of R75. -/
def startSearch (p : Nat) (s : State) : State :=
  let top := rateFrom s p 3
  portMod p (fun x => { x with
    st := .searching, cand := top, hunt := top, lock := none, rate := 0, fec := 0, fecWait := false, loopHeld := false }) s

/-- The port carries nothing: settled rate, flow control and the partner's TLVs in force end (R89, R106, R35). -/
def dropLink (p : Nat) (s : State) : State :=
  portMod p (fun x => { x with
    rate := 0, fec := 0, lock := none, fecWait := false, pfcOper := 0, xoff := 0, paused := 0, secured := false, burst := 0
    dcbxAbsent := false, partner := x.partner.map fun q => { q with pfc := none, oro := none } }) s

/-- Times of transitions out of UP within the last 60 s. -/
def recentDowns (s : State) (l : List Nat) : List Nat := l.filter fun t => s.time.up < t + 60000000

/-- A port in UP goes down with a cause: event, count, secured state lost, buckets moved (R79, R89, R197). -/
def goDown (p cause : Nat) (s : State) : State :=
  let s := raise 0x0C02 (macPlace p) [cause] (countPort p 40 1 s)
  let s := mkaRestart p (secureLost p 6 s)
  dropLink p s

/-- After a transition out of UP that counts in the flap rule: HELD when there were more than five in 60 s, else a new search (R79,
R80). -/
def flapOrSearch (p : Nat) (s : State) : State :=
  let downs := recentDowns s ((portGet s p).downs ++ [s.time.up])
  let s := portMod p (fun x => { x with downs := downs }) s
  if 5 < downs.length then
    raise 0x0C0A (macPlace p) [downs.length] (portMod p (fun x => { x with st := .held, loopHeld := false }) s)
  else startSearch p s

/-- A port in UP declares the link down and searches again, or is held (R79, R80). -/
def linkDown (p cause : Nat) (s : State) : State :=
  refillGroups (flapOrSearch p (goDown p cause (portMod p (fun x => { x with st := .searching }) s)))

/-- A port becomes DISABLED (R79, R82). -/
def linkDisable (p : Nat) (s : State) : State :=
  let s := if (portGet s p).st == .up then
      let s := goDown p 5 (portMod p (fun x => { x with st := .disabled }) s)
      portMod p (fun x => { x with downs := recentDowns s (x.downs ++ [s.time.up]) }) s
    else dropLink p s
  refillGroups (portMod p (fun x => { x with st := .disabled, cand := 0, hunt := 0, loopHeld := false }) s)

/-- FEC codes at 25 Gbit/s in rising preference are 0 none, 1 BASE-R, 2 RS(528,514): is one enabled (R77)? -/
def fecOn (s : State) (p f : Nat) : Bool := bit (pCtrl s p) (match f with | 2 => 4 | 1 => 5 | _ => 6)

/-- The most preferred enabled FEC of 25 Gbit/s. -/
def fecBest (s : State) (p : Nat) : Nat := if fecOn s p 2 then 2 else if fecOn s p 1 then 1 else 0

/-- The FEC with which a port enters SETTLING at a rate (R73, R77). -/
def fecFirst (s : State) (p r : Nat) : Nat := if r == 3 then 3 else if r == 2 then fecBest s p else 0

/-- PORT_LINK_UP (R78): LLDP and MKA start, the port opens in clear where MACsec is not required. -/
def linkUp (p : Nat) (s : State) : State :=
  let x := portGet s p
  let s := portMod p (fun x => { x with st := .up, burst := 3, secured := !secRequired s p }) s
  let s := raise 0x0C01 (macPlace p) [x.rate, x.fec] s
  refillGroups (lldpSend p s)

/-- RATE_HUNT_TIMEOUT (R75): 2 ms at the hunted rate have brought no lock. -/
def execRateHuntTimeout (p : Nat) (s : State) : Res :=
  onPort p s (if (portGet s p).st == .searching then portMod p (fun x => { x with hunt := rateBelow s p x.hunt }) s else s)

/-- RECEIVER_LOCK (R75): the receiver locks at an enabled rate; the candidate moves to it and the port enters SETTLING. A port whose
lane is dark stays in SEARCHING (R515). -/
def execReceiverLock (p r : Nat) (s : State) : Res :=
  onPort p s
    (if (portGet s p).st == .searching && rateOn s p r && !laneDark s p then
      portMod p (fun x => { x with
        st := .settling, lock := some r, cand := r, rate := r, fec := fecFirst s p r, fecWait := false }) s
    else s)

/-- CANDIDATE_DWELL_EXPIRY (R76). -/
def execCandidateDwellExpiry (p : Nat) (s : State) : Res :=
  onPort p s
    (if (portGet s p).st == .searching && (portGet s p).lock.isNone then
      portMod p (fun x => { x with cand := rateBelow s p x.cand }) s
    else s)

/-- FEC_PARTNER_IDENTIFIED (R77): `f` is the partner's FEC at 25 Gbit/s. -/
def execFecPartnerIdentified (p f : Nat) (s : State) : Res :=
  onPort p s
    (let x := portGet s p
     if x.st == .settling && x.rate == 2 && f < 3 then
       if fecOn s p f then portMod p (fun x => { x with fec := min x.fec f, fecWait := false }) s
       else raise 0x0C03 (macPlace p) [x.fec, f] (portMod p (fun x => { x with fecWait := true }) s)
     else s)

/-- FEC_MISMATCH_WAIT_EXPIRY (R77): the partner has not changed within 2 s. -/
def execFecMismatchWaitExpiry (p : Nat) (s : State) : Res :=
  onPort p s (if (portGet s p).st == .settling && (portGet s p).fecWait then startSearch p s else s)

/-- Has the port a local or remote fault or a high bit error rate? -/
def hasFault (x : Port) : Bool := x.localFault || x.highBer || x.remoteFault

/-- LOCK_LOST (R78, R79); a port in HELD ignores lock. -/
def execLockLost (p : Nat) (s : State) : Res :=
  onPort p s
    (match (portGet s p).st with
     | .up => linkDown p 1 s
     | .settling => startSearch p s
     | _ => s)

/-- LINK_FAULT_DETECTED (R74): kind 0 local fault, 1 remote fault, 2 high bit error rate. -/
def execLinkFaultDetected (p kind : Nat) (s : State) : Res :=
  onPort p s (portMod p (fun x =>
    if kind == 0 then { x with localFault := true } else if kind == 1 then { x with remoteFault := true } else { x with highBer := true }) s)

def execLinkFaultCleared (p kind : Nat) (s : State) : Res :=
  onPort p s (portMod p (fun x =>
    if kind == 0 then { x with localFault := false } else if kind == 1 then { x with remoteFault := false }
    else { x with highBer := false }) s)

/-- LINK_FAULT_PERSIST (R79): a fault has lasted 100 µs. -/
def execLinkFaultPersist (p : Nat) (s : State) : Res :=
  onPort p s
    (let x := portGet s p
     if x.st == .up && hasFault x then linkDown p (if x.localFault then 2 else if x.remoteFault then 3 else 4) s else s)

/-- HELD_EXPIRY (R80); a port held for a loop has no such limit (R87). -/
def execHeldExpiry (p : Nat) (s : State) : Res :=
  onPort p s (if (portGet s p).st == .held && !(portGet s p).loopHeld then startSearch p s else s)

/-! ## DCBX, loop detection, frame size (R84-R88) -/

/-- Operational PFC priorities for a partner's TLV, and whether the sets mismatch (R84). -/
def dcbxSet (willing : Bool) (own reserved : Nat) (partner : Option (Bool × Nat)) : Nat × Bool :=
  let both := fun a b => and32 a b
  match partner with
  | none => (0, false)
  | some (w, set) =>
    if w && !willing then (own, false)
    else if willing && !w then (both set reserved, false)
    else if set == own then (own, false)
    else (both own set, true)

/-- Priorities that have a headroom reservation. -/
def reservedPrios (s : State) (p : Nat) : Nat := maskOf ((List.range 8).filter fun n => headroom s p n != 0)

/-- The operational set is computed again; priorities that leave it are released; the outcome is reported (R85). -/
def dcbxApply (p : Nat) (s : State) : State :=
  let x := portGet s p
  let tlv := x.partner.bind fun q => q.pfc
  let (set, mismatch) := dcbxSet (bit (pCtrl s p) 17) (pfcSet s p) (reservedPrios s p) tlv
  let set := if fcMode s p == 2 then set else 0
  let gone := (List.range 8).filter fun n => bit x.pfcOper n && !bit set n
  let s := if fcMode s p == 2 then fcRelease p false gone s else s
  let s := noteFrees (portMod p (fun x => { x with pfcOper := set }) s)
  let s := if mismatch then raise 0x0C06 (macPlace p) [pfcSet s p, (tlv.map fun t => t.2).getD 0] s else s
  let s := if tlv.isSome then raise 0x0C04 (macPlace p) [set] s else raise 0x0C05 (macPlace p) [] s
  fcCheck p s

/-- TLVs of an LLDPDU: type and value, to the end TLV. -/
def tlvs : Nat → Bytes → List (Nat × Bytes)
  | 0, _ => []
  | n + 1, b =>
    let h := rdN b 0 2
    if b.length < 2 || h == 0 then []
    else (h / 512, slice b 2 (h % 512)) :: tlvs n (b.drop (2 + h % 512))

/-- The partner's PFC TLV: willing and enabled priorities. -/
def pfcTlv (l : List (Nat × Bytes)) : Option (Bool × Nat) :=
  (l.find? fun t => t.1 == 127 && rdN t.2 0 4 == 0x0080C20B).map fun t => (bit (rd t.2 4 1) 7, rd t.2 5 1)

/-- The partner's Oroarnin TLV: path word, max_frame, mirror_version and flags (R86). -/
def oroTlv (l : List (Nat × Bytes)) : Option (Word × Nat × Nat × Nat) :=
  (l.find? fun t => t.1 == 127 && rdN t.2 0 3 != 0x0080C2 && rdN t.2 0 3 == Config.oroarninOui.toNat && rd t.2 3 1 == 1).map
    fun t => (BitVec.ofNat 32 (rd t.2 4 4), rd t.2 8 2, rd t.2 10 2, rd t.2 12 1)

/-- Does a path word name this system and package? -/
def ownPackage (s : State) (w : Word) : Bool := pSystem w.toNat == s.flash.system && pPackage w.toNat == s.flash.package

/-- The frame-size check (R88). -/
def frameCheck (p mf : Nat) (s : State) : State :=
  if mf == maxFrame s p then s else raise 0x0C0C (macPlace p) [maxFrame s p, mf] s

/-- What an LLDPDU of the partner brings (R83-R88): DCBX, the frame-size check, loop detection. A port held for a loop has no link, so that
nothing of the partner is in force but what the hold waits on; DCBX and the checks begin again at the next link up. -/
def lldpApply (p : Nat) (raw : Bytes) (pfc : Option (Bool × Nat)) (oro : Option (Word × Nat × Nat × Nat)) (s : State) : State :=
  let x := portGet s p
  let before := x.partner
  let s := portMod p (fun x => { x with
    partner := some { raw := raw, at_ := s.time.up, pfc := pfc, oro := oro }, dcbxAbsent := x.dcbxAbsent && pfc.isNone }) s
  let oldPfc := before.bind fun q => q.pfc
  let oldOro := before.bind fun q => q.oro
  if x.loopHeld then
    let s := portMod p (fun x => { x with
      partner := x.partner.map fun q => { q with pfc := none, oro := if oro == oldOro then oro else none } }) s
    if oro == oldOro then s else startSearch p s
  else if x.st != .up then s
  else
    let s := if pfc == oldPfc then s else dcbxApply p s
    match oro with
    | none => s
    | some (path, mf, _, _) =>
      let s := if oro == oldOro then s else frameCheck p mf s
      if ownPackage s path then
        let keep := (portGet s p).partner.map fun q => { q with pfc := none }
        let s := goDown p 6 (portMod p (fun x => { x with st := .held }) s)
        let s := portMod p (fun x => { x with st := .held, loopHeld := true, partner := keep }) s
        refillGroups (raise 0x0C0B (macPlace p) [path.toNat] s)
      else s

/-- A received LLDPDU: counted; discarded where LLDP is off (R83). -/
def lldpReceived (p : Nat) (raw : Bytes) (s : State) : State :=
  let s := countPort p 43 1 s
  if lldpOn s p then
    let l := tlvs raw.length raw
    lldpApply p raw (pfcTlv l) (oroTlv l) s
  else s

/-- LLDP_FRAME_RECEIVED: an LLDPDU on a port that is UP, or held for a loop. -/
def execLldpFrameReceived (p : Nat) (raw : Bytes) (s : State) : Res :=
  onPort p s
    (let x := portGet s p
     if x.st == .up || x.loopHeld then lldpReceived p raw (countRx p (max 64 (raw.length + 18)) true false s) else s)

/-- LLDP_TRANSMIT_TIMER (R83): 1 s apart for the first burst, then 30 s. -/
def execLldpTransmitTimer (p : Nat) (s : State) : Res :=
  onPort p s (if (portGet s p).st == .up then lldpSend p (portMod p (fun x => { x with burst := x.burst - 1 }) s) else s)

/-- DCBX_ABSENT_TIMEOUT (R84): 5 s after link up without the partner's PFC TLV. -/
def execDcbxAbsentTimeout (p : Nat) (s : State) : Res :=
  onPort p s
    (let x := portGet s p
     if x.st == .up && !x.dcbxAbsent && ((x.partner.bind fun q => q.pfc).isNone) then
       dcbxApply p (portMod p (fun x => { x with dcbxAbsent := true }) s)
     else s)

/-- LLDP_PARTNER_AGEOUT (R85, R87): the partner's TTL has passed. -/
def execLldpPartnerAgeout (p : Nat) (s : State) : Res :=
  onPort p s
    (let x := portGet s p
     let had := (x.partner.bind fun q => q.pfc).isSome
     let s := portMod p (fun x => { x with partner := none }) s
     if x.loopHeld then startSearch p s
     else if had && x.st == .up then dcbxApply p s else s)

/-- PORT_SYNC_OVERFLOW (R71, R108): the end of a second in which a direction (1 receive, 2 transmit) lost frames; the count starts again. -/
def execPortSyncOverflow (p dir : Nat) (s : State) : Res :=
  onPort p s
    (let x := portGet s p
     let n := if dir == 1 then x.syncRx else x.syncTx
     if n == 0 || dir == 0 || 2 < dir then s
     else raise 0x0C0D (macPlace p) [dir, n]
       (portMod p (fun x => if dir == 1 then { x with syncRx := 0 } else { x with syncTx := 0 }) s))

end Sys2Proof.Machine
end

