-- ==== Sys2Proof/Machine/MkaOps.lean ====
section
/-! DEFINITION. MKA on the ports: peers, key-server election, SAKs and the controlled port (R208-R216), and how a fix acts on the
settings of a port that follow the current epoch (R79, R81, R85, R95, R106, R189, R213). -/

namespace Sys2Proof.Machine

/-! ## Frames -/

/-- The CAK of a port fails its integrity check (R207): reported, the controlled port closes and MKA stops until a CAK is installed
again. -/
def cakFault (p : Nat) (s : State) : State :=
  raise 0x1007 (macPlace p) [2, p] (mkaMod p (fun m => { m with keyFault := true }) (secureLost p 5 s))

/-- A use of a port's CAK, whose integrity check is a free value (assumption 70). -/
def withCak (p : Nat) (f : State → State) (s : State) : State :=
  let t := { s with freeIx := s.freeIx + 1 }
  if Config.keyIntact s.freeIx then f t else cakFault p t

/-- What an MKPDU of the port says, under its CAK: who it is, its settings, the SA in use with the PN it transmits next (R214), the peers,
and, from the key server, the SAK it distributes with its suite (R209). -/
def mkaSays (s : State) (p : Nat) (m : Mka) : Bytes :=
  (match m.cak with | some c => c.1 ++ c.2 | none => []) ++ be 8 (portMac s p) ++ le 4 (portNow s p 0x100) ++
  [byte m.txAn, byte m.peers.length] ++ be 8 (tgetD m.tx m.txAn { pn := 1 }).pn ++
  (if m.rekeying then byte m.nextSuite :: m.nextSak else [])

/-- An MKPDU of the port. The standard's body is not given by the spec: its bytes are cipher output (assumption 12). -/
def mkaSend (p : Nat) (s : State) : State :=
  let m := mkaOf s p
  if m.cak.isNone || m.keyFault || !macUp s p then s
  else withCak p (fun s =>
    let body := cipher (mkaSays s p m) 64
    originate p (ownHeader s p 0x0180C2000003 0x888E ++ [3, 5] ++ be 2 64 ++ body) (mkaMod p (fun m => { m with cnt := tadd m.cnt 21 1 }) s)) s

/-! ## Election and suites (R209) -/

/-- SCI of a port: its MAC address and port identifier 1. -/
def portSci (s : State) (p : Nat) : Nat := portMac s p * 65536 + 1
def ownPriority (s : State) (p : Nat) : Nat := fld (portNow s p 0x100) 16 8
def ownSuites (s : State) (p : Nat) : Nat := fld (portNow s p 0x100) 0 4

/-- This port is elected: its priority and SCI are below every live peer's. -/
def isKeyServer (s : State) (p : Nat) (peers : List MkaPeer) : Bool :=
  peers.all fun q => decide (ownPriority s p < q.priority) ||
    (ownPriority s p == q.priority && decide (portSci s p < q.sci))

/-- The first suite of R33 that is enabled here and advertised by every live peer: 4 XPN-256, 3 XPN-128, 2 256, 1 128; 0 none. -/
def chooseSuite (s : State) (p : Nat) (peers : List MkaPeer) : Nat :=
  ([4, 3, 2, 1].find? fun k => bit (ownSuites s p) (k - 1) && peers.all fun q => bit q.suites (k - 1)).getD 0

def isXpn (suite : Nat) : Bool := 3 ≤ suite
/-- Transmit PN at which a new SAK is due, and the last PN (R214, R215). -/
def pnThreshold (suite : Nat) : Nat := if isXpn suite then 0xC000000000000000 else 0xC0000000
def pnLast (suite : Nat) : Nat := if isXpn suite then 2 ^ 64 - 1 else 2 ^ 32 - 1

/-! ## SAKs (R209, R210, R214) -/

/-- The AN that the next SAK takes. -/
def pendingAn (m : Mka) : Nat := if m.tx.isEmpty then 0 else (m.txAn + 1) % 4

/-- The receive channel of a peer: the one it has, else the first of the three that is free (R210). -/
def rxChannel (m : Mka) (sci : Nat) : Option Nat :=
  match m.rxSci.find? fun e => e.2 == sci with
  | some e => some e.1
  | none => [0, 1, 2].find? fun k => (tget m.rxSci k).isNone

/-- Receive SAs of an AN, with their SAK, for every live peer. -/
def installRx (an : Nat) (sak : Bytes) (m : Mka) : Mka :=
  m.peers.foldl (fun m q => match rxChannel m q.sci with
    | some k => { m with rxSci := tput m.rxSci k q.sci, rx := tput m.rx (4 * k + an) { pn := 1, key := sak } }
    | none => m) m

/-- A peer that is no longer live gives up its receive channel. -/
def dropRx (sci : Nat) (m : Mka) : Mka :=
  match m.rxSci.find? fun e => e.2 == sci with
  | some e => { m with rxSci := tdel m.rxSci e.1, rx := m.rx.filter fun x => x.1 / 4 != e.1 }
  | none => m

/-- A SAK of 256 bits from B0's random source (R209). -/
def drawSak (s : State) : Bytes × State :=
  ((List.range 8).flatMap (fun i => le 4 (Config.random (s.freeIx + i)).toNat), { s with freeIx := s.freeIx + 8 })

/-- As key server, a new SAK of 256 bits is drawn and distributed; it carries traffic, under its suite, once the peer reports it (R213,
R214). -/
def distributeSak (p : Nat) (s : State) : State :=
  let m := mkaOf s p
  let suite := chooseSuite s p m.peers
  if m.peers.isEmpty || suite == 0 then s
  else
    let (sak, s) := drawSak s
    mkaSend p (mkaMod p (fun m => installRx (pendingAn m) sak { m with rekeying := true, nextSuite := suite, nextSak := sak }) s)

/-- The transmit SA moves to an AN: the port is secured, or has rekeyed (R89, R233). -/
def moveTx (p suite an : Nat) (sak : Bytes) (s : State) : State :=
  let first := !(portGet s p).secured
  let s := mkaMod p (fun m => { m with
    txAn := an, suite := suite, rekeying := false, nextSuite := 0, nextSak := [], tx := tput m.tx an { pn := 1, key := sak }
    cnt := tadd m.cnt 23 1 }) s
  if first then raise 0x0C07 (macPlace p) [suite] (portMod p (fun x => { x with secured := true }) s)
  else raise 0x1006 (macPlace p) [p, an] s

/-- Does the port run MKA? -/
def runsMka (s : State) (p : Nat) : Bool := (portGet s p).st == .up && secRequired s p && (mkaOf s p).cak.isSome && !(mkaOf s p).keyFault

/-- A live peer's PDU: heard again, or new when fewer than three are live. -/
def putPeer (q : MkaPeer) (l : List MkaPeer) : List MkaPeer :=
  if l.any fun x => x.sci == q.sci then l.map fun x => if x.sci == q.sci then q else x else l ++ [q]

/-- Effect of a valid MKPDU (R209, R210, R214). A live peer that offers other suites than before is negotiated with again (R35). -/
def mkpduApply (p : Nat) (d : Mkpdu) (s : State) : State :=
  let m := mkaOf s p
  let known := m.peers.any fun x => x.sci == d.sci
  let same := m.peers.any fun x => x.sci == d.sci && x.suites == d.suites
  if !known && 3 ≤ m.peers.length then mkaMod p (fun m => { m with cnt := tadd m.cnt 22 1 }) s
  else
    let q : MkaPeer := { sci := d.sci, priority := d.priority, suites := d.suites, heard := s.time.up, pn := d.pn }
    let peers := putPeer q m.peers
    let ks := isKeyServer s p peers
    let s := mkaMod p (fun m => { m with peers := peers, keyServer := ks }) s
    let m := mkaOf s p
    if ks then
      if !known || (!m.rekeying && pnThreshold m.suite ≤ d.pn && m.suite != 0) ||
          (!same && chooseSuite s p peers != (if m.rekeying then m.nextSuite else m.suite)) then distributeSak p s
      else if m.rekeying && d.installed == some (pendingAn m) then moveTx p m.nextSuite (pendingAn m) m.nextSak s
      else s
    else match d.sak with
      | some (suite, an, sak) =>
        if suite == 0 || 4 < suite || !bit (ownSuites s p) (suite - 1) then s
        else if (portGet s p).secured && an == m.txAn && suite == m.suite then s
        else mkaSend p (moveTx p suite (an % 4) sak (mkaMod p (installRx (an % 4) sak) s))
      | none => s

/-- MKA_HELLO_TIMER (R209). -/
def execMkaHelloTimer (p : Nat) (s : State) : Res := onPort p s (if runsMka s p then mkaSend p s else s)

/-- MKA_LIFE_EXPIRY (R214, R216): 6 s without a PDU of the peer `sci`. Without a live peer the port closes. -/
def execMkaLifeExpiry (p sci : Nat) (s : State) : Res :=
  onPort p s
    (let m := mkaOf s p
     if !(m.peers.any fun x => x.sci == sci) then s
     else
       let s := mkaMod p (dropRx sci) s
       let peers := m.peers.filter fun x => x.sci != sci
       if peers.isEmpty then mkaRestart p (secureLost p 1 s)
       else
         let s := mkaMod p (fun m => { m with peers := peers, keyServer := isKeyServer s p peers }) s
         if (mkaOf s p).keyServer then distributeSak p s else s)

/-! ## A fix acts on a port -/

/-- The settings of a port before and after a fix. -/
structure PortChange where
  ctrl : Nat
  ctrl' : Nat
  mac : Nat
  mac' : Nat
  pfc : Nat
  pfc' : Nat
  frame : Nat
  frame' : Nat
  deriving DecidableEq, Repr

def portChange (old new : Tab Word) (p : Nat) : PortChange :=
  let a := fun off => bankWord old (portAddr p off)
  let b := fun off => bankWord new (portAddr p off)
  { ctrl := a 0, ctrl' := b 0, mac := a 0x100, mac' := b 0x100, pfc := a 0x0C, pfc' := b 0x0C, frame := a 8, frame' := b 8 }

/-- Flow control after the change of a port that is UP (R85, R106): out of PFC or pause mode every XOFF is released first. -/
def applyFlow (p : Nat) (c : PortChange) (s : State) : State :=
  let oldMode := fld c.ctrl 14 2
  let newMode := fcMode s p
  let s := if (oldMode == 1 || oldMode == 2) && oldMode != newMode then
      portMod p (fun x => { x with paused := 0, pfcOper := 0, xoff := 0 }) (fcRelease p (oldMode == 1) (List.range 8) s)
    else s
  let pfcChanged := oldMode != newMode || c.pfc != c.pfc' || bit c.ctrl 17 != bit c.ctrl' 17
  if pfcChanged && ((portGet s p).dcbxAbsent || (portGet s p).partner.any fun q => q.pfc.isSome) then dcbxApply p s else fcCheck p s

/-- MACsec after the change of a port that is UP (R90, R213). -/
def applyMacsec (p : Nat) (c : PortChange) (s : State) : State :=
  let m := mkaOf s p
  if bit c.ctrl 16 && !bit c.ctrl' 16 then mkaRestart p (portMod p (fun x => { x with secured := true }) s)
  else if !bit c.ctrl 16 && bit c.ctrl' 16 then portMod p (fun x => { x with secured := false }) s
  else if bit c.ctrl' 16 && m.suite != 0 && !bit c.mac' (m.suite - 1) then mkaRestart p (secureLost p 4 s)
  else if bit c.ctrl' 16 && m.keyServer && fld c.mac 0 10 / 64 * 64 + fld c.mac 0 4 != fld c.mac' 0 10 / 64 * 64 + fld c.mac' 0 4 then
    distributeSak p s
  else s

/-- Do the TLVs that the port advertises change, or does its LLDP agent start (R83, R84, R86)? -/
def advertises (c : PortChange) : Bool :=
  bit c.ctrl 16 != bit c.ctrl' 16 || bit c.ctrl 17 != bit c.ctrl' 17 || bit c.ctrl 18 != bit c.ctrl' 18 || fld c.pfc 0 8 != fld c.pfc' 0 8 ||
  fld c.frame 0 14 != fld c.frame' 0 14

/-- The port's own max_frame has changed while the partner's TLV is in force (R88). -/
def ownFrame (p : Nat) (c : PortChange) (s : State) : State :=
  if fld c.frame 0 14 == fld c.frame' 0 14 then s
  else match (portGet s p).partner.bind fun q => q.oro with
    | some (_, mf, _, _) => frameCheck p mf s
    | none => s

/-- A fix's new values act on a port (R79, R81, R83). -/
def applyPort (old new : Tab Word) (p : Nat) (s : State) : State :=
  let c := portChange old new p
  let x := portGet s p
  faultSignal p (sendsFault s p) <|
  if !bit c.ctrl' 0 then (if x.st == .disabled then s else linkDisable p s)
  else if x.st == .disabled then (if regionUp s (portDie p) (portRegion p) then startSearch p s else s)
  else
    let moved := fld c.ctrl 1 6 != fld c.ctrl' 1 6
    match x.st with
    | .searching => if moved then startSearch p s else s
    | .settling => if moved then startSearch p s else s
    | .up =>
      if moved && (!rateOn s p x.rate || (x.rate == 2 && !fecOn s p x.fec)) then linkDown p 5 s
      else
        let s := ownFrame p c (applyMacsec p c (applyFlow p c s))
        if advertises c then lldpSend p s else s
    | _ => s

/-- Every port that the words before or after name. -/
def applyPorts (old new : Tab Word) (s : State) : State :=
  ((namedIn new portBase 0x1000 1024).foldl insertNat (namedIn old portBase 0x1000 1024)).foldl (fun s p => applyPort old new p s) s

end Sys2Proof.Machine
end

