-- ==== Sys2Proof/Machine/BufOps.lean ====
section
/-! DEFINITION. Packets held in the device: queues of the shared buffer, release of copies and cells, and the packets of an epoch
(R101, R175, R179, R182, R183, R479). -/

namespace Sys2Proof.Machine

/-! ## Queues (R175, R182) -/

/-- The virtual output queue of port `p`, egress queue `q`, on die `d`. -/
def voqKey (d p q : Nat) : Nat := (d - 1) * 8192 + 8 * p + q

/-- Destination cluster of a delivery queue: 0-3 the host links, 4 + s service cluster s, 90 T0. -/
def destCluster (x : Dest) : Nat :=
  match x with
  | .port _ _ => 0
  | .host f _ => f.link
  | .chan _ w => 4 + svcIndex (place w.toNat)
  | .twin _ _ => 90

/-- The delivery queue of a destination cluster and priority on die `d`. -/
def deliveryKey (d c prio : Nat) : Nat := 32768 + ((d - 1) * 128 + c) * 8 + prio

/-- The exception queue of die `d`. -/
def exceptionKey (d : Nat) : Nat := 36864 + d

/-- The queue of a copy. -/
def queueOf (d prio : Nat) (x : Dest) (k : CopyKind) : Nat :=
  match k, x with
  | .exception _, _ => exceptionKey d
  | _, .port p q => voqKey d p q
  | _, .twin _ q => deliveryKey d 90 q
  | _, x => deliveryKey d (destCluster x) prio

def queueGet (s : State) (k : Nat) : List QCopy := tgetD s.buf.queues k []
def queueSet (k : Nat) (l : List QCopy) (s : State) : State :=
  { s with buf := { s.buf with queues := if l.isEmpty then tdel s.buf.queues k else tput s.buf.queues k l } }

/-- Cells of 256 bytes that a frame of `n` bytes without FCS holds (R101, R183). -/
def cellsOf (n : Nat) : Nat := ceilDiv (n + 4) 256

/-! ## Release (R101, R179) -/

/-- Ingress port of a packet, as its metadata gives it: the receiving port, or inject_port (R115, R333). -/
def pktPort (k : Packet) : Nat := rd k.md 0 2

/-- Region whose pipelines process the packet. -/
def pktG (k : Packet) : Nat := portG (pktPort k)

/-- Was the packet received on a port of this package, so that its port-priority holds cells? -/
def hasUse (k : Packet) : Bool := decide (k.inPort < 1024) && !k.fromTwin

/-- The packet leaves the device: its port-priority's cells come free. -/
def releasePacket (k : Packet) (s : State) : State := if hasUse k then useSub k.inPort k.prio k.cells s else s

def storedOf (s : State) (id : Nat) : Option Stored := tget s.buf.store id

/-- One copy of a stored packet has left or been dropped; with the last, its cells come free (R179). -/
def dropCopy (id : Nat) (s : State) : State :=
  match storedOf s id with
  | none => s
  | some x =>
    if x.copies ≤ 1 then releasePacket x.pkt { s with buf := { s.buf with store := tdel s.buf.store id } }
    else { s with buf := { s.buf with store := tput s.buf.store id { x with copies := x.copies - 1 } } }

/-- Add to counter `n` of egress queue `q` of a port (R202). -/
def countQ (p q n k : Nat) (s : State) : State := portMod p (fun x => { x with qcnt := tadd x.qcnt (8 * q + n) k }) s

/-! ## Packets of an epoch (R479) -/

def stamped (e : Nat) (k : Packet) : Bool := k.epoch == e

/-- Packets of an epoch outside the buffer's queues: at a parse unit, held as fragments, in a crypto input or a miss queue. -/
def loosePackets (s : State) (e : Nat) : List Packet :=
  (s.buf.fresh ++ s.buf.again.map (fun x => x.2) ++ s.tbl.frags.flatMap (fun f => f.held.map fun h => h.1) ++
   s.cry.inputs.flatMap (fun x => x.2.map fun j => j.pkt) ++ s.flow.miss.flatMap (fun x => x.2.map fun j => j.pkt)).filter (stamped e)

def packetsOf (s : State) (e : Nat) : Nat :=
  (loosePackets s e).length + (s.buf.store.filter fun x => stamped e x.2.pkt).length

/-- How a packet dropped with its epoch is counted: in twin_epoch_drops when a prepared epoch is discarded (R478), else in
expired_drops of its egress queue or in hold_drops (R479). -/
def countEpochDrop (prepared : Bool) (queue : Option (Nat × Nat)) (s : State) : State :=
  if prepared then countA 0 17 1 s
  else match queue with
    | some (p, q) => countQ p q 3 1 s
    | none => countCfg 6 1 s

/-- The packets of an epoch are dropped where they wait; answers how many (R478, R479). -/
def dropEpoch (prepared : Bool) (e : Nat) (s : State) : Nat × State :=
  let loose := loosePackets s e
  let keep := fun k => !stamped e k
  let n := packetsOf s e
  let s := { s with
    buf := { s.buf with fresh := s.buf.fresh.filter keep, again := s.buf.again.filter fun x => keep x.2 }
    tbl := { s.tbl with frags := s.tbl.frags.map fun f => { f with held := f.held.filter fun h => keep h.1 } }
    cry := { s.cry with inputs := tmap s.cry.inputs fun _ l => l.filter fun j => keep j.pkt }
    flow := { s.flow with miss := tmap s.flow.miss fun _ l => l.filter fun j => keep j.pkt } }
  let s := loose.foldl (fun s k => releasePacket k (countEpochDrop prepared none s)) s
  let ids := (s.buf.store.filter fun x => stamped e x.2.pkt).map fun x => x.1
  let s := s.buf.queues.foldl (fun s q =>
    let dead := q.2.filter fun c => ids.contains c.id
    if dead.isEmpty then s
    else
      let s := queueSet q.1 (q.2.filter fun c => !ids.contains c.id) s
      dead.foldl (fun s c =>
        let at_ := match c.dest, c.kind with
          | .port p q, .normal => some (p, q)
          | .port p q, .mirror => some (p, q)
          | _, _ => none
        dropCopy c.id (countEpochDrop prepared at_ s)) s) s
  (n, s)

end Sys2Proof.Machine
end

