-- ==== Sys2Proof/Machine/EpochOps.lean ====
section
/-! DEFINITION. Epochs and the stage: what makes an epoch current, retirement, discard, and the two-phase fix (R454, R470-R480). -/

namespace Sys2Proof.Machine

def cfgMod (f : CfgS → CfgS) (s : State) : State := { s with cfg := f s.cfg }

/-! ## Retirement (R147, R479) -/

/-- The oldest live epoch retires: its waiting packets are dropped, its tag comes free, the tables are swept. -/
def retire1 (byLimit : Bool) (e : Epoch) (s : State) : State :=
  let (n, s) := dropEpoch false e.num s
  let s := cfgMod (fun c => { c with live := c.live.filter fun x => x.num != e.num }) s
  let s := countCfg 4 1 (if byLimit then countCfg 5 1 s else s)
  raise 0x0404 g0Place [e.num, e.tag, n] (tblSweep (oldestEpoch s) s)

/-- Non-current epochs that hold no packet retire, oldest first (R479). -/
def retireIdle : Nat → State → State
  | 0, s => s
  | n + 1, s =>
    match s.cfg.live.getLast? with
    | some e => if e.num != curEpoch s && packetsOf s e.num == 0 then retireIdle n (retire1 false e s) else s
    | none => s

/-! ## Making an epoch current (R475) -/

/-- Seeds of the tables follow their enables: drawn for a table that comes into use, gone with one that is disabled (R137). -/
def applySeeds (w : Tab Word) (s : State) : State :=
  (List.range 16).foldl (fun s t =>
    if tdEnable w t then (seedOf t s).2
    else { s with tbl := { s.tbl with seeds := tdel s.tbl.seeds t, loadHigh := tdel s.tbl.loadHigh t } }) s

/-- A bed whose record is no longer defined is EMPTY (R413, R419). -/
def dropBeds (s : State) : State :=
  { s with svc := { s.svc with beds := s.svc.beds.filter fun e => bit (bedField s e.1 1 1) 0 } }

/-- An epoch becomes current with its tag and layers: banks, settings that are not banked, and the layers as last fixed (R475). -/
def makeCurrent (num tag : Nat) (layers : Layers) (s : State) : State :=
  let old := curWords s
  let new := effective layers
  let live := match s.cfg.live with
    | [] => []
    | e :: r => { e with stopped := some s.time.up } :: r
  let s := cfgMod (fun c => { c with
    layers := layers, live := { num := num, tag := tag, words := new, stopped := none } :: live, flashEpoch := num
    stage := none, prepared := none }) s
  noteFrees (retireIdle 4 (dropBeds (refillGroups (applyPorts old new (applySeeds new s)))))

/-! ## The stage (R454, R470, R471) -/

/-- The next tag in rotation, when no live or prepared epoch has it. -/
def freeTagOf (s : State) : Option Nat :=
  let t := (curTag s + 1) % 4
  if s.cfg.live.any (fun e => e.tag == t) || s.cfg.prepared.any (fun p => p.1.tag == t) then none else some t

/-- The open stage is discarded, with its cause (R146, R471). -/
def discardStage (cause : Nat) (s : State) : State :=
  match s.cfg.stage with
  | none => s
  | some g =>
    let s := tblDiscard g.epoch (cfgMod (fun c => { c with stage := none }) s)
    raise 0x0403 g0Place [g.epoch, cause] (countCfg 3 1 s)

/-- The stage of this package is discarded and, when this package owns it, the twin is told (R471). -/
def discardBoth (cause : Nat) (s : State) : State :=
  match s.cfg.stage with
  | none => s
  | some g =>
    let told := twinProtected s || s.twin.state == .handedOver
    let own := match g.owner with | .twin _ => false | _ => true
    let s := discardStage cause s
    if told && own then sendTwin (.stageDiscard g.epoch cause) s else s

/-- The stage of a queue that is lost (R450, R471); a frozen one is left to its fix. -/
def stageOwnerLost (q : QueueId) (s : State) : State :=
  match s.cfg.stage with
  | some g => if g.owner == q && !g.frozen then discardBoth 3 s else s
  | none => s

def freezeStage (on : Bool) (s : State) : State :=
  cfgMod (fun c => { c with stage := c.stage.map fun g => { g with frozen := on, last := s.time.up } }) s

/-! ## The fix (R472-R474) -/

/-- Completion of CFG_FIX: key 0. -/
def finishFix (k : Nat) (r : Rep) (s : State) : State :=
  match s.cfg.fix with
  | none => s
  | some f =>
    let s := cfgMod (fun c => { c with fix := none }) s
    if s.cmd.owed.any (fun o => o.queue == f.queue && o.tag == f.tag) then
      sendReply f.queue f.tag 0x0402 (1 + k) f.startEpoch r (dropOwed f.queue f.tag s)
    else s

/-- A fix that does not commit: the stage stays open, loaded banks are dropped (R456, R474). -/
def refuseFix (k : Nat) (r : Rep) (addr : Nat) (s : State) : State :=
  let s := raise 0x0402 g0Place ([r.status, r.detail] ++ two addr) (countCfg 1 1 (freezeStage false s))
  finishFix k r s

/-- The fixed epoch's layers: the stage's. -/
def stageLayers (s : State) : Option (Nat × Nat × Layers) := s.cfg.stage.map fun g => (g.epoch, g.tag, g.layers)

/-- The fix ends with OK (R473 step 6, R474). -/
def endFix (epoch : Nat) (lost : Bool) (s : State) : State :=
  let s := countCfg 0 1 (if lost then countCfg 2 1 s else s)
  let tag := match epochOf s epoch with | some e => e.tag | none => 0
  let s := raise 0x0401 g0Place [epoch, tag, b2n lost] s
  finishFix 0 { status := stOk, detail := if lost then dTwinLost else 0, result := le 4 epoch } s

/-- Does a reseed of an immediate operation hold the commit (R473 step 4)? -/
def immediateRuns (s : State) : Bool := s.tbl.reseed.any fun r => r.2.entry.born != stageEpoch s

/-- Step 4 of R473 when nothing holds it: the epoch becomes current here; with a twin COMMIT goes out, alone the fix ends. -/
def commitFix (alone lost : Bool) (s : State) : State :=
  match s.cfg.fix, stageLayers s with
  | some f, some (e, tag, layers) =>
    if f.committed then s
    else if immediateRuns s then cfgMod (fun c => { c with fix := some { f with ready := true } }) s
    else
      let s := makeCurrent e tag layers s
      if alone then endFix e lost s
      else sendTwin (.commit e) (cfgMod (fun c => { c with fix := some { f with ready := true, committed := true } }) s)
  | _, _ => s

/-- Has the package a twin that takes part in fixes (R473)? -/
def fixesPaired (s : State) : Bool := s.twin.state == .protectedSt || s.twin.state == .handedOver

/-- The held commit goes on when the last immediate operation ends. -/
def resumeFix (s : State) : State :=
  match s.cfg.fix with
  | some f => if f.ready && !f.committed then commitFix (!fixesPaired s) (s.twin.state == .sole) s else s
  | none => s

/-- The twin is declared lost while a fix runs here, or this package is fenced (R474). -/
def fixTwinLost (s : State) : State :=
  match s.cfg.fix with
  | none => s
  | some f =>
    if f.committed then endFix f.epoch true s
    else if s.twin.state == .fenced then refuseFix 0 (busy dUnprotected) 0 s
    else commitFix true true s

/-- A prepared epoch is discarded (R474, R478). -/
def dropPrepared (s : State) : State :=
  match s.cfg.prepared with
  | none => s
  | some (e, _) =>
    freezeStage false (cfgMod (fun c => { c with prepared := none }) (dropEpoch true e.num s).2)

/-- The pair has split: a prepared epoch and the twin's stage are discarded (R471, R474). -/
def splitStage (s : State) : State :=
  let s := dropPrepared s
  match s.cfg.stage with
  | some g => (match g.owner with | .twin _ => discardStage 3 s | _ => s)
  | none => s

end Sys2Proof.Machine
end

