-- ==== Sys2Proof/Machine/StoOps.lean ====
section
/-! DEFINITION. The storage engine: completion queues, namespace states, sending and reissue, protection information, and the ends of a
command (R337, R352-R375, R427). Layouts of the NVMe structures are PRESUMED from NVM Express Base 2.0 (assumption 34). -/

namespace Sys2Proof.Machine

def stoMod (f : StoS → StoS) (s : State) : State := { s with sto := f s.sto }

/-- Path word place of the hub service cluster that serves a storage object. -/
def stoPlace (i : Nat) : Nat := svcPlace (80 + (Config.stoCluster i).toNat)

/-- The storage engine can work: DDR5 in use, a hub service cluster in service (R353). -/
def storageUp (s : State) : Bool := ddr5Up s && (span 80 4).any fun n => !outOfService s (svcPlace n)

/-! ## Controllers and completion queues (R337, R355-R358) -/

def nvmeOf (s : State) (f : Fn) : Nvme := tgetD s.sto.nvme (fnKey f) {}
def nvmeMod (f : Fn) (g : Nvme → Nvme) (s : State) : State := stoMod (fun x => { x with nvme := tmod x.nvme (fnKey f) {} g }) s

def sqMod (f : Fn) (q : Nat) (g : NvmeSq → NvmeSq) (s : State) : State :=
  nvmeMod f (fun n => { n with sqs := match tget n.sqs q with | some x => tput n.sqs q (g x) | none => n.sqs }) s
def ncqMod (f : Fn) (q : Nat) (g : NvmeCq → NvmeCq) (s : State) : State :=
  nvmeMod f (fun n => { n with cqs := match tget n.cqs q with | some x => tput n.cqs q (g x) | none => n.cqs }) s

/-- Signal of a completion queue's vector: the count clears and the timer restarts; a masked pin vector does not signal. -/
def ncqSignal (f : Fn) (q : Nat) (s : State) : State :=
  match tget (nvmeOf s f).cqs q with
  | none => s
  | some c =>
    if !(funcOf s f).msixEnable && bit (nvmeOf s f).intMask (c.vector % 32) then s
    else signalVector f c.vector (ncqMod f q (fun c => { c with since := 0, timer := c.head != c.tail }) s)

/-- Entries that make a signal: Interrupt Coalescing's threshold for an I/O queue, one for the admin queue (R357). -/
def ncqCount (n : Nvme) (q : Nat) : Nat := if q == 0 then 1 else fld n.coalesce 0 8 + 1

/-- One completion entry written; `b` is the entry with its phase bit clear. -/
def ncqWrite (f : Fn) (q : Nat) (b : Bytes) (c : NvmeCq) (s : State) : State :=
  let b := splice b 14 (le 2 (rd b 14 2 + b2n c.phase))
  let s := hostWrite f (c.base + 16 * c.tail) b s
  let t := (c.tail + 1) % c.size
  let s := ncqMod f q (fun c => { c with tail := t, phase := if t == 0 then !c.phase else c.phase, since := c.since + 1, timer := true }) s
  if c.ien && ncqCount (nvmeOf s f) q ≤ c.since + 1 then ncqSignal f q s else s

/-- A completion entry for a completion queue: it waits while the queue is full. -/
def ncqPost (f : Fn) (q : Nat) (b : Bytes) (s : State) : State :=
  match tget (nvmeOf s f).cqs q with
  | none => s
  | some c =>
    if (c.tail + 1) % c.size == c.head || (nvmeOf s f).held.any (fun e => e.1 == q) then
      nvmeMod f (fun n => { n with held := n.held ++ [(q, b)] }) s
    else ncqWrite f q b c s

/-- Waiting entries go out as far as there is room. -/
def ncqFlush (f : Fn) (q : Nat) (s : State) : State :=
  let l := (nvmeOf s f).held.filter fun e => e.1 == q
  l.foldl (fun s e => ncqPost f q e.2 s) (nvmeMod f (fun n => { n with held := n.held.filter fun e => e.1 != q }) s)

/-- Completion of a command of a submission queue: result dword 0 and the 15-bit status field. -/
def nvmeComplete (f : Fn) (sq cid dw0 status : Nat) (s : State) : State :=
  match tget (nvmeOf s f).sqs sq with
  | none => s
  | some q => ncqPost f q.cq (le 4 dw0 ++ [0, 0, 0, 0] ++ le 2 q.head ++ le 2 sq ++ le 2 cid ++ le 2 (2 * status)) s

/-- A shut-down completes with the last command already fetched (R358). -/
def settleShn (f : Fn) (s : State) : State :=
  if (nvmeOf s f).shst == 1 && !s.sto.cmds.any (fun c => c.who == .controller f && !c.orphan) then
    nvmeMod f (fun n => { n with shst := 2 }) s
  else s

/-- A Changed Namespace List event, when the controller has enabled it, none is outstanding and a request is armed (R370). -/
def nsNotice (f : Fn) (s : State) : State :=
  let n := nvmeOf s f
  match n.aers with
  | cid :: r =>
    if bit n.asyncCfg 8 && !n.changed.isEmpty && !n.noticed then
      nvmeComplete f 0 cid 0x00040002 0 (nvmeMod f (fun n => { n with aers := r, noticed := true }) s)
    else s
  | [] => s

/-- An attachment under a local NSID changes at a controller. -/
def nsChanged (f : Fn) (nsid : Nat) (s : State) : State :=
  if (nvmeOf s f).ready then nsNotice f (nvmeMod f (fun n => { n with changed := insertNat n.changed nsid }) s) else s

/-- The submitter is gone: commands already sent finish at their targets and their results are discarded, those not sent go (R358). -/
def orphanCmds (who : Submitter) (s : State) : State :=
  stoMod (fun x => { x with cmds := (x.cmds.filter fun c => c.who != who || c.sent || c.unknown).map fun c =>
    if c.who == who then { c with orphan := true } else c }) s

/-! ## The end of a command (R369, R427) -/

/-- The 16-byte completion of a bed, to its sto_channel, with SQ Head and SQ Identifier zero. -/
def bedComplete (b cid dw0 status : Nat) (s : State) : State :=
  match bedClusters s b with
  | [] => s
  | n :: _ => (extMessage n (bedField s b 16 1) 5 (le 4 dw0 ++ List.replicate 8 0 ++ le 2 cid ++ le 2 (2 * status)) s).1

def stoAnswer (who : Submitter) (sq cid dw0 status : Nat) (s : State) : State :=
  match who with
  | .controller f => settleShn f (nvmeComplete f sq cid dw0 status s)
  | .bed b => bedComplete b cid dw0 status s

/-- A held command ends: it leaves the list, and its submitter hears of it unless its result is discarded. -/
def endCmd (c : StoCmd) (dw0 status : Nat) (s : State) : State :=
  let s := stoMod (fun x => { x with cmds := x.cmds.filter fun y => y.id != c.id }) s
  if c.orphan then s else stoAnswer c.who c.sq c.cid dw0 status s

/-! ## Namespaces (R363-R367) -/

def pathLive (s : State) (p : Nat) : Bool := match tget s.sto.paths p with | some x => x.st == .live | none => false
def livePaths (s : State) (n : Ns) : List Nat := n.paths.filter (pathLive s)

/-- LBA data size of a format, and whether it has PI (R363). -/
def lbaSize (format : Nat) : Nat := if format % 2 == 0 then 512 else 4096
def hasPi (n : Ns) : Bool := decide (2 ≤ n.format)
def piType (n : Ns) : Nat := if hasPi n then (if bit n.flags 0 then 3 else 1) else 0
def isXts (n : Ns) : Bool := bit n.flags 1

/-- The state a package presents: UNAVAILABLE while FENCED (R597). -/
def nsShown (s : State) (n : Ns) : Nat := if s.twin.state == .fenced then 3 else n.st

def nsMod (i : Nat) (f : Ns → Ns) (s : State) : State :=
  stoMod (fun x => { x with nss := match tget x.nss i with | some n => tput x.nss i (f n) | none => x.nss }) s

/-- A change of state, reported. -/
def nsSet (i st : Nat) (s : State) : State :=
  match tget s.sto.nss i with
  | none => s
  | some n => if n.st == st then s else raise 0x2403 (stoPlace i) [i, n.st, st] (nsMod i (fun n => { n with st := st }) s)

/-- READY or HELD, as a path is live or not. -/
def nsServe (s : State) (n : Ns) : Nat := if (livePaths s n).isEmpty then 2 else 1

/-- The at-rest key arrives: LOCKED ends (R376). -/
def nsUnlock (i : Nat) (key : Bytes) (s : State) : State :=
  match tget s.sto.nss i with
  | none => s
  | some n =>
    let s := nsMod i (fun n => { n with key := some key }) s
    if n.st == 4 then nsSet i (nsServe s n) s else s

/-! ## Sending (R366-R368) -/

/-- Write, Write Zeroes and Dataset Management are kept in order over their LBA ranges (R368). -/
def ordered (opc : Nat) : Bool := opc == 0x01 || opc == 0x08 || opc == 0x09

def overlaps (a b : List (Nat × Nat)) : Bool :=
  a.any fun x => b.any fun y => decide (x.1 < y.1 + y.2) && decide (y.1 < x.1 + x.2)

/-- Does an earlier command of unknown outcome hold this one back? -/
def heldBack (s : State) (c : StoCmd) : Bool :=
  ordered c.opc && s.sto.cmds.any fun e =>
    decide (e.id < c.id) && e.unknown && e.ns == c.ns && ordered e.opc && overlaps e.ranges c.ranges

def sentTo (s : State) (p k : Nat) : Nat := (s.sto.cmds.filter fun c => c.sent && c.path == p && c.conn == k).length
def nsSent (s : State) (i : Nat) : Nat := (s.sto.cmds.filter fun c => c.sent && c.ns == i).length
def pathSent (s : State) (p : Nat) : Nat := (s.sto.cmds.filter fun c => c.sent && c.path == p).length

/-- An I/O connection with room, from the turn on under round robin, else the lowest (assumption 35). -/
def freeConn (s : State) (p : Nat) (x : StoPath) : Option Nat :=
  let start := if bit x.flags 3 then x.nextConn else 0
  ((List.range x.conns).map fun k => (start + k) % x.conns).find? fun k => decide (sentTo s p k < x.depth)

/-- The capsule of a command: its entry for the remote namespace, and its data. PRACT stays with the device. -/
def capsule (n : Ns) (c : StoCmd) : Bytes :=
  let e := splice (splice c.entry 1 [0x40]) 2 (le 2 c.id)
  let e := splice (splice e 4 (le 4 n.remoteNsid)) 16 (List.replicate 24 0)
  splice e 48 (le 4 (clrBit (rd e 48 4) 29)) ++ c.data

/-- A frame of fabric traffic as it enters the pipeline: the metadata of R353. -/
def fabricPacket (s : State) (path : Nat) (frame : Bytes) : Packet :=
  let port := match tget s.sto.paths path with | some x => x.inject | none => 0
  { bytes := frame, inPort := 1028, epoch := curEpoch s, prio := 0
    md := le 2 port ++ List.replicate 14 0 ++ le 2 path ++ List.replicate 5 0 ++ [0x40] ++ List.replicate 40 0
    arrived := nowUs s, stamp := (s.time.sec, s.time.ns) }

/-- A capsule goes to the transport of a connection, whose frames enter the pipeline as host packets do (R353, R354); a FENCED package
drops them as it drops those (R597). What the frames hold is left open (assumption 38). -/
def toTransport (path conn : Nat) (b : Bytes) (s : State) : State :=
  let ix := s.freeIx
  let s := emit (.target path conn b) { s with freeIx := ix + 1 }
  if s.twin.state == .fenced then s
  else { s with buf := { s.buf with fresh := s.buf.fresh ++ (Config.fabricFrames path conn ix b).map (fabricPacket s path) } }

/-- Sending of a waiting command when the namespace is READY; false where it must wait. -/
def sendCmd (c : StoCmd) (s : State) : Bool × State :=
  match tget s.sto.nss c.ns with
  | none => (false, s)
  | some n =>
    let live := livePaths s n
    let pick := if bit n.flags 2 then live.getD (n.turn % live.length) 0 else live.headD 0
    if live.isEmpty || n.st != 1 || heldBack s c || 4096 ≤ nsSent s c.ns then (false, s)
    else match tget s.sto.paths pick with
      | none => (false, s)
      | some x => match freeConn s pick x with
        | none => (false, s)
        | some k =>
          let s := stoMod (fun y => { y with
            cmds := y.cmds.map fun d => if d.id == c.id then { d with sent := true, path := pick, conn := k } else d
            nss := tput y.nss c.ns { n with turn := n.turn + 1 }
            paths := tput y.paths pick { x with nextConn := (k + 1) % x.conns } }) s
          (true, toTransport pick (k + 1) (capsule n c) s)

/-- Waiting commands of a namespace in order; a reissue that must wait holds later reissues (R368). -/
def pumpList : List StoCmd → Bool → State → State
  | [], _, s => s
  | c :: r, stop, s =>
    if c.unknown && stop then pumpList r stop s
    else
      let (done, s) := sendCmd c s
      pumpList r (stop || (c.unknown && !done)) s

def pumpNs (i : Nat) (s : State) : State := pumpList (s.sto.cmds.filter fun c => c.ns == i && !c.sent) false s
def pumpAll (s : State) : State := s.sto.nss.foldl (fun s e => pumpNs e.1 s) s

/-! ## Protection information (R373, R375) -/

/-- One bit and one byte of the CRC-16 with polynomial 0x8BB7. -/
def t10Bit (c : BitVec 16) : BitVec 16 := if c.getLsbD 15 then (c <<< 1) ^^^ 0x8BB7#16 else c <<< 1
def t10Byte (c : BitVec 16) (b : Byte) : BitVec 16 :=
  t10Bit (t10Bit (t10Bit (t10Bit (t10Bit (t10Bit (t10Bit (t10Bit (c ^^^ (b.setWidth 16 <<< 8)))))))))
/-- The guard of a block (CRC-16 T10-DIF). -/
def t10 (d : Bytes) : Nat := (d.foldl t10Byte 0).toNat

/-- Fields of a submission entry: opcode, identifier, NSID, first LBA, blocks, PRACT, PRCHK, tags. -/
def enOpc (e : Bytes) : Nat := rd e 0 1
def enCid (e : Bytes) : Nat := rd e 2 2
def enNsid (e : Bytes) : Nat := rd e 4 4
def enDw (e : Bytes) (k : Nat) : Nat := rd e (4 * k) 4
def enLba (e : Bytes) : Nat := rd e 40 8
def enBlocks (e : Bytes) : Nat := rd e 48 2 + 1
def enPract (e : Bytes) : Bool := bit (enDw e 12) 29
def enChk (e : Bytes) : Nat := fld (enDw e 12) 26 3

/-- Reference tag expected or generated for block `k`. -/
def refTag (n : Ns) (e : Bytes) (k : Nat) : Nat := if piType n == 3 then enDw e 14 else (enDw e 14 + k) % 2 ^ 32

/-- The status of a failed check of a block against its 8 bytes of PI; `chk` bits: 0 reference, 1 application, 2 guard. -/
def piBad (n : Ns) (e : Bytes) (chk k : Nat) (blk pi : Bytes) : Option Nat :=
  let app := rdN pi 2 2
  let ref := rdN pi 4 4
  let mask := fld (enDw e 15) 16 16
  if app == 0xFFFF && (piType n == 1 || ref == 0xFFFFFFFF) then none
  else if bit chk 2 && rdN pi 0 2 != t10 blk then some 0x282
  else if bit chk 1 && and32 app mask != and32 (fld (enDw e 15) 0 16) mask then some 0x283
  else if bit chk 0 && piType n == 1 && ref != refTag n e k then some 0x284
  else none

/-- The first failing block and its status. -/
def piScan (n : Ns) (e : Bytes) (chk : Nat) : List (Bytes × Bytes) → Nat → Option (Nat × Nat)
  | [], _ => none
  | (b, p) :: r, k => match piBad n e chk k b p with
    | some st => some (k, st)
    | none => piScan n e chk r (k + 1)

/-- PI generated for a block. -/
def piMake (n : Ns) (e : Bytes) (k : Nat) (blk : Bytes) : Bytes :=
  be 2 (t10 blk) ++ be 2 (fld (enDw e 15) 0 16) ++ be 4 (refTag n e k)

def piError (i side : Nat) (e : Bytes) (k st : Nat) (s : State) : State :=
  raise 0x2404 (stoPlace i) ([i, side] ++ two (enLba e + k) ++ [st]) s

/-- Pieces of `n` bytes. -/
def pieces (b : Bytes) (n k : Nat) : List Bytes := (List.range k).map fun i => slice b (n * i) n

/-- A block as it goes to the target: AES-XTS-256 with the LBA as tweak (R374). -/
def toTarget (n : Ns) (lba : Nat) (b : Bytes) : Bytes :=
  match n.key with
  | some key => if isXts n then cipher (key ++ le 8 lba ++ b) b.length else b
  | none => b

/-- The bytes that a Write or Compare sends, with the PI of each block after it; or the block and status of a failed host check. -/
def writeData (n : Ns) (e data : Bytes) : Bytes ⊕ (Nat × Nat) :=
  let size := lbaSize n.format
  let nb := enBlocks e
  let blks := pieces data size nb
  if !hasPi n then .inl ((blks.mapIdx fun k b => toTarget n (enLba e + k) b).flatten)
  else
    let given := pieces (data.drop (size * nb)) 8 nb
    let chk := if isXts n then (if bit (enChk e) 2 then enChk e else enChk e + 4) else enChk e
    match (if enPract e then none else piScan n e chk (blks.zip given) 0) with
    | some x => .inr x
    | none =>
      let pis := if enPract e then blks.mapIdx fun k b => piMake n e k b else given
      .inl (((blks.zip pis).mapIdx fun k x =>
        let c := toTarget n (enLba e + k) x.1
        c ++ (if isXts n then be 2 (t10 c) ++ x.2.drop 2 else x.2)).flatten)

/-- What a Read delivers of the target's bytes: data and PI for the submitter; or the block and status of a failed check. `plain` holds the
decrypted blocks where the namespace is encrypted. -/
def readData (n : Ns) (e data plain : Bytes) : (Bytes × Bytes) ⊕ (Nat × Nat) :=
  let size := lbaSize n.format
  let nb := enBlocks e
  let step := if hasPi n then size + 8 else size
  let got := pieces data step nb
  let blks := got.map fun b => b.take size
  let out := if isXts n then pieces plain size nb else blks
  if !hasPi n then .inl (out.flatten, [])
  else
    let pis := got.map fun b => b.drop size
    let chk := if isXts n || enPract e then (if bit (enChk e) 2 then enChk e else enChk e + 4) else enChk e
    match piScan n e chk (blks.zip pis) 0 with
    | some x => .inr x
    | none =>
      let pis := if isXts n then (out.zip pis).map fun x => be 2 (t10 x.1) ++ x.2.drop 2 else pis
      .inl (out.flatten, if enPract e then [] else pis.flatten)

/-! ## Where the submitter's data lies (R354, R427) -/

/-- Data pieces of a PRP list: pages of `page` bytes for `len` bytes. -/
def prpPages (page : Nat) : List Nat → Nat → Option (List (Nat × Nat))
  | _, 0 => some []
  | [], _ => none
  | a :: r, len => (prpPages page r (len - page)).map fun l => (a, min page len) :: l

/-- Numbers of `n` bytes each in a list as read. -/
def wordsOf (b : Bytes) (n : Nat) : List Bytes := (List.range (b.length / n)).map fun i => slice b (n * i) n

/-- The host addresses of a command's data: PRP, or SGL where allowed. `list` holds the PRP entries or SGL descriptors beyond the entry that
the device reads, chain pointers left out. Left: the status of a pointer that does not serve. -/
def dataSegs (page : Nat) (e list : Bytes) (len : Nat) : Nat ⊕ List (Nat × Nat) :=
  let p1 := rd e 24 8
  let p2 := rd e 32 8
  match fld (rd e 1 1) 6 2 with
  | 0 =>
    let first := min len (page - p1 % page)
    let rest := len - first
    let l := if rest == 0 then some [] else if rest ≤ page then some [(p2, rest)] else prpPages page ((wordsOf list 8).map ofLe) rest
    match l with
    | some l => .inr ((p1, first) :: l)
    | none => .inl 0x04
  | 3 => .inl 0x02
  | _ =>
    let ds := if fld (rd e 39 1) 4 4 == 0 then [slice e 24 16] else wordsOf list 16
    if ds.any fun d => fld (rd d 15 1) 4 4 != 0 then .inl 0x11
    else
      let l := ds.map fun d => (rd d 0 8, rd d 8 4)
      if (l.foldl (fun a x => a + x.2) 0) < len then .inl 0x0F else .inr l

/-- Bytes written to host pieces. -/
def fillSegs (f : Fn) : List (Nat × Nat) → Bytes → State → State
  | [], _, s => s
  | (a, n) :: r, b, s => if b.isEmpty then s else fillSegs f r (b.drop n) (hostWrite f a (b.take n) s)

/-- Data and PI delivered; false when a bed's buffer cannot take them. -/
def deliver (c : StoCmd) (d pi : Bytes) (s : State) : Bool × State :=
  match c.who with
  | .controller f =>
    let s := fillSegs f c.segs d s
    (true, if pi.isEmpty then s else hostWrite f c.md pi s)
  | .bed _ =>
    let a := (c.segs.headD (0, 0)).1
    if poisonBlocks s a d.length || (!pi.isEmpty && poisonBlocks s c.md pi.length) then (false, s)
    else
      let s := memWrite s a d
      (true, if pi.isEmpty then s else memWrite s c.md pi)

end Sys2Proof.Machine
end

