-- ==== Sys2Proof/Machine/DmaOps.lean ====
section
/-! DEFINITION. Queue pairs and direct DMA channels: contexts, errors, completion entries, moderation, disabling (R325-R348). -/

namespace Sys2Proof.Machine

/-! ## Queue pairs (R329-R337) -/

def qpOf (s : State) (f : Fn) (n : Nat) : Qp := tgetD (funcOf s f).qps n {}
def qpMod (f : Fn) (n : Nat) (g : Qp → Qp) (s : State) : State :=
  funcMod f (fun x => { x with qps := tmod x.qps n {} g }) s

def qpTxSize (q : Qp) : Nat := 2 ^ fld (rd q.ctx 24 1) 0 4
def qpRxSize (q : Qp) : Nat := 2 ^ fld (rd q.ctx 24 1) 4 4
def qpCqSize (q : Qp) : Nat := 2 ^ fld (rd q.ctx 25 1) 0 4
def qpEngine (q : Qp) : Nat := fld (rd q.ctx 26 1) 0 3
def qpNoSnoop (q : Qp) : Bool := bit (rd q.ctx 26 1) 3
def qpRelaxed (q : Qp) : Bool := bit (rd q.ctx 26 1) 4
def qpPrio (q : Qp) : Nat := fld (rd q.ctx 25 1) 4 2
def qpIrqEn (q : Qp) : Bool := bit (rd q.ctx 26 1) 5
def qpVector (q : Qp) : Nat := rd q.ctx 28 2
def qpInject (q : Qp) : Nat := rd q.ctx 30 2

/-- Index of the first pool queue pair of a function, and of a local queue pair in the counter table (R306, R350). -/
def poolQp (s : State) (f : Fn) (n : Nat) : Nat := f.num * shareQ s f + n
def qpCntKey (s : State) (f : Fn) (n : Nat) : Nat :=
  ((2 * f.link + f.pool) * 2048 + 1024 * f.half + poolQp s f n) * 8

/-- Add to QP_CNT_k of a queue pair (R351). -/
def countQp (f : Fn) (n k v : Nat) (s : State) : State :=
  { s with host := { s.host with qpCnt := tadd s.host.qpCnt (qpCntKey s f n + k) v } }

/-- Is the local queue pair one of the function's share (R306)? -/
def qpExists (s : State) (f : Fn) (n : Nat) : Bool := fnExists s f && decide (n < shareQ s f)

/-- A queue pair enters ERROR with a cause (R330). -/
def qpError (f : Fn) (n cause : Nat) (s : State) : State :=
  raise 0x2001 (qmPlace f.link) [fnRef f, n, cause]
    (qpMod f n (fun q => { q with st := 2, cause := cause }) s)

/-- Free entries of the completion ring (R336). -/
def cqFree (q : Qp) : Nat := qpCqSize q - (q.cqTail + 65536 - q.cqHead) % 65536

/-- Signal of a queue pair's vector: the count clears and the timer restarts (R337). -/
def qpSignal (f : Fn) (n : Nat) (s : State) : State :=
  let q := qpOf s f n
  signalVector f (qpVector q) (qpMod f n (fun q => { q with since := 0, timer := q.cqHead != q.cqTail }) s)

/-- A completion entry of 32 bytes is written with the current phase, which inverts when cq_tail wraps the ring; moderation counts
it and signals (R335, R337). -/
def writeCompletion (f : Fn) (n : Nat) (b : Bytes) (s : State) : State :=
  let q := qpOf s f n
  let b := b.take 31 ++ [byte (b2n q.phase * 128)]
  let size := qpCqSize q
  let s := hostWriteAs false (qpNoSnoop q) f (rd q.ctx 16 8 + 32 * (q.cqTail % size)) b s
  let t := (q.cqTail + 1) % 65536
  let s := qpMod f n (fun q => { q with
    cqTail := t, phase := if t % size == 0 then !q.phase else q.phase, since := q.since + 1, timer := true }) s
  let q := qpOf s f n
  if qpIrqEn q && max 1 q.modCount ≤ q.since then qpSignal f n s else s

/-- The 32 bytes of a completion entry before the phase (R335). -/
def completionEntry (index ring used status len flags records failed : Nat) (md : Bytes) (sec ns : Nat) : Bytes :=
  le 2 index ++ [byte (ring + 2 * (used - 1)), byte status] ++ le 2 len ++ [byte flags, byte (min 255 records)] ++ le 2 failed ++
  [0, 0] ++ fitTo 12 md ++ le 2 sec ++ le 4 ns ++ [0, 0]

/-- The reads in flight of one user become quarantined: their completions are discarded without error. -/
def quarantine (u : ReadUse) (l : List Read) : List Read :=
  l.map fun r => if r.st == 0 && r.use == u then { r with st := 1 } else r

/-- Has the user a read in flight? -/
def readPending (s : State) (f : Fn) (u : ReadUse) : Bool := (funcOf s f).reads.any fun r => r.st == 0 && r.use == u

/-- A queue pair that still runs is disabled: the error cause 6 and its transfers dropped and counted (R307, R313, R330). -/
def qpCut (f : Fn) (n : Nat) (s : State) : State :=
  let q := qpOf s f n
  if q.st == 1 || q.st == 3 then
    let s := if readPending s f (.qpTx n) then countQp f n 7 1 s else s
    qpError f n 6 (funcMod f (fun g => { g with reads := quarantine (.qpTx n) g.reads }) s)
  else s

/-! ## Direct channels (R339-R348) -/

/-- Device channel number (R325). -/
def chNo (e c : Nat) : Nat := 64 * e + c

def dmaOf (s : State) (k : Nat) : DmaCh := tgetD s.host.chans k {}
def dmaMod (k : Nat) (f : DmaCh → DmaCh) (s : State) : State :=
  { s with host := { s.host with chans := tmod s.host.chans k {} f } }

/-- One side of a program: address, space, width, line length, lines, stride. -/
structure Side where
  addr : Nat
  space : Nat
  width : Nat
  lineLen : Nat
  lines : Nat
  stride : Int

/-- A side that program bytes give from `o` on: the registers of 24 bytes at +0x08 (source) and +0x20 (destination) (R340). -/
def sideOf (p : Bytes) (o : Nat) : Side :=
  { addr := rd p o 8, space := fld (rd p (o + 8) 8) 0 2, width := fld (rd p (o + 8) 8) 8 7
    lineLen := fld (rd p (o + 8) 8) 16 25, lines := fld (rd p (o + 8) 8) 48 16, stride := signed32 (rd p (o + 16) 4) }

/-- The source and destination sides of the program in action, and whether their host requests carry No Snoop. -/
def srcSide (d : DmaCh) : Side := sideOf d.act 0
def dstSide (d : DmaCh) : Side := sideOf d.act 24
def srcNoSnoop (d : DmaCh) : Bool := bit (rd d.act 8 1) 2
def dstNoSnoop (d : DmaCh) : Bool := bit (rd d.act 32 1) 2

def Side.total (x : Side) : Nat := x.lineLen * x.lines

/-- Address of stream byte `pos` of a side (R342). -/
def Side.at (x : Side) (pos : Nat) : Nat :=
  wrap 64 (x.addr + x.stride * ((pos / x.lineLen : Nat) : Int) + ((pos % x.lineLen : Nat) : Int))

/-- Swap word in bytes, and whether half-words move (R344). -/
def swapWord (m : Nat) : Nat :=
  match m with
  | 1 => 2
  | 2 => 4
  | 3 => 8
  | 4 => 4
  | _ => 1

/-- One swap word of the stream swapped. -/
def swapBytes (m : Nat) (b : Bytes) : Bytes := if m == 4 then b.drop 2 ++ b.take 2 else b.reverse

def swapOf (p : Bytes) : Nat := fld (rd p 44 4) 0 3
def swapMode (d : DmaCh) : Nat := swapOf d.act

/-- Enable bit, priority and paced bit of DMA_CH_CTRL. -/
def chPrio (d : DmaCh) : Nat := fld d.ctrl 1 2
def chPaced (d : DmaCh) : Bool := bit d.ctrl 3
def chBurst (d : DmaCh) : Nat := fld d.ctrl 16 13

/-- Is a side well formed (R341)? -/
def sideOk (x : Side) : Bool :=
  decide (x.space ≤ 1) && (x.space == 0 || decide (x.addr < 2 ^ 48)) && decide (1 ≤ x.width) && decide (x.width ≤ 64) &&
  decide (1 ≤ x.lineLen) && decide (x.lineLen ≤ 16777216) && decide (1 ≤ x.lines) && x.lineLen % x.width == 0

/-- Would an enable of the channel with a control word be carried out (R341)? -/
def enableOk (d : DmaCh) (ctrl : Nat) : Bool :=
  let a := sideOf d.prog 0
  let b := sideOf d.prog 24
  (d.dirty == 0) && !(d.st == 1 || d.st == 2 || d.st == 3) && sideOk a && sideOk b && a.total == b.total &&
  decide (swapOf d.prog ≤ 4) && a.total % swapWord (swapOf d.prog) == 0 &&
  (!bit ctrl 3 || (decide (1 ≤ fld ctrl 16 13) && decide (fld ctrl 16 13 ≤ 4096))) && (d.ownerKind == 0 || (a.space == 1 && b.space == 1))

/-- Setting enable: the program runs from its start with the count cleared; refused, enable_refused is set (R341, R347). -/
def chEnable (k ctrl : Nat) (s : State) : State :=
  let d := dmaOf s k
  if enableOk d ctrl then
    dmaMod k (fun d => { d with
      ctrl := setBit ctrl 0, act := d.prog, st := if bit ctrl 3 then 1 else 2, count := 0, hold := [], srcPos := 0, landed := [], merge := [], burst := 0 }) s
  else dmaMod k (fun d => { d with refused := true }) s

/-- Clearing enable before DONE: register, landed reads and positions discarded, outstanding reads quarantined; DISABLED_DIRTY
(R346). The count is undefined there: a free value. -/
def chDisable (k : Nat) (s : State) : State :=
  let (v, s) := drawFree s
  let d := dmaOf s k
  let s := dmaMod k (fun d => { d with
    ctrl := clrBit d.ctrl 0, st := 5, dirty := 0xFF, hold := [], srcPos := 0, landed := [], merge := [], burst := 0, count := v }) s
  if d.ownerKind == 0 then
    funcMod d.owner (fun g => { g with reads := quarantine (ReadUse.channel k) g.reads }) s
  else s

/-- A channel ends in an aborted state: 6 CTO, 7 BME, 8 FAULT (R341, R350). -/
def chAbort (k st : Nat) (s : State) : State :=
  let s := dmaMod k (fun d => { d with
    ctrl := clrBit d.ctrl 0, st := st, dirty := 0xFF, hold := [], srcPos := 0, landed := [], merge := [], burst := 0 }) s
  raise 0x2003 (dmaPlace (k / 64)) [k / 64, k % 64, st] s

/-- Destination bytes whose write has been emitted: DMA_CH_COUNT (R340, R342). -/
def chCount (d : DmaCh) : Nat := d.count - d.merge.length

/-- Does the channel run or wait to run? -/
def chActive (d : DmaCh) : Bool := d.st == 1 || d.st == 2 || d.st == 3

/-- Direct channels of an owner that are lent. -/
def channelsOf (s : State) (p : DmaCh → Bool) : List Nat :=
  (s.host.chans.filter fun e => e.2.assigned && p e.2).map fun e => e.1

end Sys2Proof.Machine
end

