-- ==== Sys2Proof/Machine/Dma.lean ====
section
/-! DEFINITION. The DMA family: queue-pair commands and doorbells, moderation, flushes, and the direct channels beat by beat
(R325-R351). -/

namespace Sys2Proof.Machine

/-! ## Reads of host memory (R271, R274) -/

/-- Reads a link or half may keep in flight, and its first tag value (R274). -/
def readCap (s : State) (f : Fn) : Nat × Nat :=
  if (linkOf s f.link f.half).flit then (if isBifurcated s f.link then 2048 else 4096, 0) else (768, 256)

/-- Tags held by the functions of a link or half. -/
def tagsHeld (s : State) (link half : Nat) : List Nat :=
  (s.host.funcs.filter fun e => e.1 / 512 == linkKey link half).flatMap fun e => e.2.reads.map fun r => r.tag

/-- The first tag from `base + k` on that is not held, at most `n` tries. -/
def freeTag (held : List Nat) (base cap : Nat) : Nat → Nat → Option Nat
  | 0, _ => none
  | n + 1, k => if held.contains (base + k % cap) then freeTag held base cap n (k + 1) else some (base + k % cap)

/-- Reads outstanding on a link or half. -/
def readsOut (s : State) (link half : Nat) : Nat :=
  (s.host.funcs.filter fun e => e.1 / 512 == linkKey link half).foldl (fun n e => n + (e.2.reads.filter fun r => r.st == 0).length) 0

/-- Full width is asked for (R291). -/
def widen (link half : Nat) (s : State) : State :=
  if (linkOf s link half).narrow then linkMod link half (fun x => { x with narrow := false }) s else s

/-- A read request of a function, when it may issue one and a tag is free (R274, R297); with more than 64 outstanding the link widens
(R291). -/
def issueRead (f : Fn) (u : ReadUse) (addr len : Nat) (noSnoop : Bool) (s : State) : State :=
  let (cap, base) := readCap s f
  let held := tagsHeld s f.link f.half
  if !canIssue s f || cap ≤ held.length then s
  else match freeTag held base cap (held.length + 1) (tgetD s.host.nextTag (linkKey f.link f.half) 0) with
    | none => s
    | some t =>
      let s := { s with host := { s.host with nextTag := tput s.host.nextTag (linkKey f.link f.half) (t - base + 1) } }
      let s := funcMod f (fun g => { g with reads := g.reads ++ [{ tag := t, use := u, addr := addr, len := len, st := 0 }] }) s
      let s := if 64 < readsOut s f.link f.half then widen f.link f.half s else s
      toHost f (.hostRead f addr len t (attrOf (funcOf s f) false noSnoop)) s

/-- Is the function able to run queue pairs: not in reset, a VF ACTIVE (R310, R330)? -/
def fnRuns (s : State) (f : Fn) : Bool :=
  let g := funcOf s f
  !g.resetting && !g.suspending && (f.num == 0 || g.vf == .active)

/-! ## Queue channels (R328) -/

/-- The engine that a queue pair's context names (R325, R329). -/
def qpEngineNo (f : Fn) (q : Qp) : Nat := 8 * f.link + 4 * f.half + qpEngine q

/-- Does a transmit packet wait to be begun: running, a tail ahead, a free completion entry, none begun (R300, R328, R336)? -/
def qpWaits (s : State) (f : Fn) (n : Nat) : Bool :=
  let q := qpOf s f n
  q.st == 1 && fnRuns s f && canIssue s f && q.txHead != q.txTail && decide (0 < cqFree q) && !readPending s f (.qpTx n)

/-- Queue pairs of the functions of a link or half, as function key × 512 + local number, rising. -/
def qpKeys (s : State) (link half : Nat) : List Nat :=
  (s.host.funcs.filter fun e => e.1 / 512 == linkKey link half).flatMap fun e => e.2.qps.map fun q => 512 * e.1 + q.1

/-- The queue pair of such a key. -/
def keyFn (k : Nat) : Fn := { link := k / 1024, half := k / 512 % 2, pool := k / 256 % 2, num := k % 256 }
def keyQp (k : Nat) : Fn × Nat := (keyFn (k / 512), k % 512)

/-- Queue channels of an engine bound to transmit packets. -/
def channelsBound (s : State) (e : Nat) : Nat :=
  ((qpKeys s (e / 8) 0 ++ qpKeys s (e / 8) 1).filter fun k =>
    let (f, n) := keyQp k
    qpEngineNo f (qpOf s f n) == e && readPending s f (.qpTx n)).length

/-- The waiting queue pair that an engine takes next: the highest priority, round robin after the one last taken. -/
def chosenQp (s : State) (e : Nat) : Option Nat :=
  let l := (qpKeys s (e / 8) 0 ++ qpKeys s (e / 8) 1).filter fun k =>
    let (f, n) := keyQp k
    qpEngineNo f (qpOf s f n) == e && qpWaits s f n
  let prio := fun k => let (f, n) := keyQp k; qpPrio (qpOf s f n)
  let top := l.foldl (fun m k => max m (prio k)) 0
  let best := l.filter fun k => prio k == top
  match best.find? fun k => tgetD s.host.lastQp e 0 < k with
  | some k => some k
  | none => best.head?

/-- Free queue channels of an engine are bound to queue pairs that wait: the next transmit descriptor of each is read. -/
def serveQps (e : Nat) : Nat → State → State
  | 0, s => s
  | n + 1, s =>
    match chosenQp s e with
    | none => s
    | some k =>
      if 56 ≤ channelsBound s e then s
      else
        let (f, m) := keyQp k
        let q := qpOf s f m
        let s := { s with host := { s.host with lastQp := tput s.host.lastQp e k } }
        serveQps e n (issueRead f (.qpTx m) (rd q.ctx 0 8 + 32 * (q.txHead % qpTxSize q)) 32 (qpNoSnoop q) s)

/-- The queue pair's engine takes what waits for it. -/
def qpFetch (f : Fn) (n : Nat) (s : State) : State := serveQps (qpEngineNo f (qpOf s f n)) 56 s

/-- Every engine of a link or half takes what waits. -/
def serveLink (link half : Nat) (s : State) : State :=
  (List.range 8).foldl (fun s e => serveQps (8 * link + 4 * half + e) 56 s) s

/-! ## Queue-pair commands (R329, R330, R349) -/

/-- What a queue-pair command names: a function that exists and a queue pair of its share. -/
def qpNamed (c : Cmd) (s : State) : Option Rep :=
  let r := c.prm 0 4
  if !refOk r then some (badParam dReserved)
  else if !fnExists s (refFn r) then some (badParam dRange)
  else if shareQ s (refFn r) ≤ c.prm 4 2 then some (badParam dRange)
  else none

/-- Is a context refused (R329)? -/
def ctxRefused (s : State) (f : Fn) (x : Bytes) : Bool :=
  let sizes := rd x 24 1
  let cq := rd x 25 1
  let flags := rd x 26 1
  let log := fun v => v < 6 || 15 < v
  log (fld sizes 0 4) || log (fld sizes 4 4) || log (fld cq 0 4) || fld cq 6 2 != 0 || fld flags 6 2 != 0 || rd x 27 1 != 0 ||
  (isBifurcated s f.link && 4 ≤ fld flags 0 3) || shareV s f ≤ rd x 28 2 || 1024 ≤ rd x 30 2 ||
  fld (rd x 0 8) 0 5 != 0 || fld (rd x 8 8) 0 5 != 0 || fld (rd x 16 8) 0 5 != 0 ||
  !allZero (slice x 48 16) || (rd x 46 2 == 0 && 1 < rd x 45 1)

def opDmaQpSet : Op := mkOp 0x2001 72 [(6, 2)] .package fun c s =>
  match qpNamed c s with
  | some r => .refuse r
  | none =>
    let f := refFn (c.prm 0 4)
    let n := c.prm 4 2
    let x := c.prmBytes 8 64
    if f.pool == 1 then .refuse (badParam dNvmePool)
    else if ctxRefused s f x then .refuse (badParam 0)
    else if (qpOf s f n).st != 0 then .refuse (busy 0)
    else .ok [] (qpMod f n (fun q => { q with
      ctx := x.take 32, modCount := rd x 45 1, modTime := rd x 46 2 }) s)

def execDmaQpSet (c : Cmd) (s : State) : Res := .next (runCmd opDmaQpSet c s)

def opDmaQpStart : Op := mkOp 0x2002 6 [] .package fun c s =>
  match qpNamed c s with
  | some r => .refuse r
  | none =>
    let f := refFn (c.prm 0 4)
    let n := c.prm 4 2
    let q := qpOf s f n
    if f.num != 0 && (funcOf s f).vf == .shuttingDown then .refuse (busy dShutdownPending)
    else if q.st == 0 || q.st == 2 then .ok [] (qpFetch f n (qpMod f n (fun q => { q with st := 1, cause := 0 }) s))
    else .ok [] s

def execDmaQpStart (c : Cmd) (s : State) : Res := .next (runCmd opDmaQpStart c s)

/-- DMA_QP_STOP: packets already begun are finished by their own rows; the queue pair fetches no further descriptor. -/
def opDmaQpStop : Op := mkOp 0x2003 6 [] .package fun c s =>
  match qpNamed c s with
  | some r => .refuse r
  | none =>
    let f := refFn (c.prm 0 4)
    let n := c.prm 4 2
    if (qpOf s f n).st == 1 then
      .ok [] (qpFetch f n (funcMod f (fun g => { g with reads := quarantine (.qpTx n) g.reads }) (qpMod f n (fun q => { q with st := 0 }) s)))
    else .ok [] s

def execDmaQpStop (c : Cmd) (s : State) : Res := .next (runCmd opDmaQpStop c s)

def opDmaQpFlush : Op := mkOp 0x2004 6 [] .package fun c s =>
  match qpNamed c s with
  | some r => .refuse r
  | none =>
    let f := refFn (c.prm 0 4)
    let n := c.prm 4 2
    .accept (fnKey f * 512 + n) (qpMod f n (fun q => { q with st := 3 }) s)

def execDmaQpFlush (c : Cmd) (s : State) : Res := .next (runCmd opDmaQpFlush c s)

/-- Context bytes [44:32] of a queue pair (R329). -/
def qpIndices (q : Qp) : Bytes :=
  le 2 q.txHead ++ le 2 q.txTail ++ le 2 q.rxHead ++ le 2 q.rxTail ++ le 2 q.cqTail ++ le 2 q.cqHead ++
  [byte (q.st + 8 * b2n q.phase + 16 * q.cause)]

/-- The 64 bytes of a context (R320, R329). -/
def qpRecord (q : Qp) : Bytes := fitTo 32 q.ctx ++ qpIndices q ++ [byte q.modCount] ++ le 2 q.modTime ++ List.replicate 16 0

def opDmaQpRead : Op := mkOp 0x2005 6 [] .package fun c s =>
  match qpNamed c s with
  | some r => .refuse r
  | none => .ok (qpIndices (qpOf s (refFn (c.prm 0 4)) (c.prm 4 2))) s

def execDmaQpRead (c : Cmd) (s : State) : Res := .next (runCmd opDmaQpRead c s)

/-- DMA_QP_FLUSHED (R338): the packets in transfer have finished. Each later transmit descriptor completes with FLUSHED, the unused
receive descriptors with one FLUSHED entry; STOPPED, and the command completes. Entries are written as far as the ring has room. -/
def flushTx (f : Fn) (n : Nat) : Nat → State → State
  | 0, s => s
  | k + 1, s =>
    let q := qpOf s f n
    if q.txHead == q.txTail || cqFree q == 0 then s
    else
      let s := qpMod f n (fun q => { q with txHead := (q.txHead + 1) % 65536 }) s
      flushTx f n k (writeCompletion f n (completionEntry (q.txHead % qpTxSize q) 0 1 1 0 0 0 0 [] 0 0) s)

def execDmaQpFlushed (f : Fn) (n : Nat) (s : State) : Res :=
  onElem (qpExists s f n)
    (let q := qpOf s f n
     if q.st != 3 then s
     else
       let nTx := (q.txTail + 65536 - q.txHead) % 65536
       let nRx := (q.rxTail + 65536 - q.rxHead) % 65536
       let s := flushTx f n nTx s
       let s := if nRx == 0 then s else
         qpMod f n (fun q => { q with rxHead := q.rxTail })
           (writeCompletion f n (completionEntry ((q.rxTail + 65535) % 65536 % qpRxSize q) 1 1 1 0 0 0 0 [] 0 0) s)
       let s := qpMod f n (fun q => { q with st := 0 }) s
       let s := raise 0x2002 (qmPlace f.link) [fnRef f, n, nTx + nRx] s
       finishKey 0x2004 (fnKey f * 512 + n) (repOk []) s)

/-! ## Doorbells (R331) -/

/-- Does a doorbell act: the function exists, is in pool 0 (R357), and the queue pair is one of its share (R308)? -/
def dbActs (s : State) (f : Fn) (n : Nat) : Bool := qpExists s f n && f.pool == 0

def execQpDbTx (f : Fn) (n index : Nat) (s : State) : Res :=
  onElem (fnExists s f)
    (if !dbActs s f n then s
     else
       let i := index % 65536
       let s := qpMod f n (fun q => { q with txTail := i }) s
       let q := qpOf s f n
       if q.st == 1 && qpTxSize q < (i + 65536 - q.txHead) % 65536 then qpError f n 1 s
       else qpFetch f n s)

def execQpDbRx (f : Fn) (n index : Nat) (s : State) : Res :=
  onElem (fnExists s f)
    (if !dbActs s f n then s
     else
       let i := index % 65536
       let s := qpMod f n (fun q => { q with rxTail := i }) s
       let q := qpOf s f n
       if q.st == 1 && qpRxSize q < (i + 65536 - q.rxHead) % 65536 then qpError f n 1 s else s)

/-- QP_DB_CQ: the timer restarts when entries stay unread, and stops when none does (R331, R337). A freed entry lets the next
transmit packet be read (R336). -/
def execQpDbCq (f : Fn) (n index : Nat) (s : State) : Res :=
  onElem (fnExists s f)
    (if !dbActs s f n then s
     else
       let i := index % 65536
       let q := qpOf s f n
       let s := qpMod f n (fun q => { q with cqHead := i, timer := i != q.cqTail }) s
       if q.st == 1 && qpCqSize q < (q.cqTail + 65536 - i) % 65536 then qpError f n 1 s
       else qpFetch f n s)

/-- INTERRUPT_MODERATION_TIMER (R337): of a queue pair, or of a completion queue of an NVMe controller (R357). -/
def execInterruptModerationTimer (f : Fn) (n : Nat) (s : State) : Res :=
  onElem (qpExists s f n || (fnExists s f && f.pool == 1 && n == shareQ s f))
    (if f.pool == 1 then
       match tget (nvmeOf s f).cqs n with
       | some c => if c.timer && c.ien && c.head != c.tail && fld (nvmeOf s f).coalesce 8 8 != 0 then ncqSignal f n s else s
       | none => s
     else
       let q := qpOf s f n
       if q.timer && qpIrqEn q && q.cqHead != q.cqTail then qpSignal f n s else s)

/-! ## Direct channels (R339-R348) -/

/-- The channel that a command names: a direct channel 56 to 63 of engine 0 to 31. -/
def chNamed (e c : Nat) : Bool := decide (e < 32) && decide (56 ≤ c) && decide (c < 64)

/-- May the submitting queue use the channel: its owner, or management (R339)? -/
def chOwnedBy (s : State) (q : QueueId) (d : DmaCh) : Bool :=
  match q with
  | .mgmt => true
  | .bed n => d.assigned && d.ownerKind == 1 && bedOf s n == some d.bed
  | _ => match queueFn q with
    | some f => d.assigned && d.ownerKind == 0 && d.owner == f
    | none => false

def opDmaChAssign : Op := mkOp 0x2006 8 [] .package fun c s =>
  let e := c.prm 0 1
  let ch := c.prm 1 1
  let kind := c.prm 2 1
  let r := c.prm 4 4
  let f := refFn r
  if c.queue != .mgmt then .refuse (denied 0)
  else if !chNamed e ch || 1 < kind || (kind == 1 && 32 ≤ c.prm 3 1) then .refuse (badParam dRange)
  else if kind == 0 && !refOk r then .refuse (badParam dReserved)
  else if kind == 0 && (!fnExists s f || f.link != e / 8 || (isBifurcated s f.link && f.half != e % 8 / 4)) then
    .refuse (badParam dRange)
  else
    let d := dmaOf s (chNo e ch)
    if d.st != 4 && d.st != 5 && d.st != 6 && d.st != 7 && d.st != 8 then .refuse (busy 0)
    else .ok [] (dmaMod (chNo e ch) (fun d => { d with
      assigned := true, ownerKind := kind, owner := if kind == 0 then f else d.owner, bed := if kind == 1 then c.prm 3 1 else d.bed
      st := 5, dirty := 0xFF, ctrl := 0, hold := [], srcPos := 0, landed := [], merge := [], burst := 0 }) s)

def execDmaChAssign (c : Cmd) (s : State) : Res := .next (runCmd opDmaChAssign c s)

/-- DMA_CH_PROGRAM writes the programmable registers: every dirty bit clears (R341). A program in action goes on as enabled. -/
def opDmaChProgram : Op := mkOp 0x2007 68 [(2, 2)] .package fun c s =>
  let e := c.prm 0 1
  let ch := c.prm 1 1
  if !chNamed e ch then .refuse (badParam dRange)
  else if !chOwnedBy s c.queue (dmaOf s (chNo e ch)) then .refuse (denied dNotOwn)
  else .ok [] (dmaMod (chNo e ch) (fun d => { d with prog := c.prmBytes 4 64, dirty := 0 }) s)

def execDmaChProgram (c : Cmd) (s : State) : Res := .next (runCmd opDmaChProgram c s)

def opDmaChEnable : Op := mkOp 0x2008 5 [] .package fun c s =>
  let e := c.prm 0 1
  let ch := c.prm 1 1
  let k := chNo e ch
  let d := dmaOf s k
  let ctrl := c.prm 2 1 % 16 + c.prm 3 2 % 2 ^ 13 * 2 ^ 16
  if !chNamed e ch then .refuse (badParam dRange)
  else if !chOwnedBy s c.queue d then .refuse (denied dNotOwn)
  else if bit ctrl 0 then
    if enableOk d ctrl then .ok [] (chEnable k ctrl s) else .reply (badParam 0) (chEnable k ctrl s)
  else if chActive d then .ok [] (chDisable k s)
  else .ok [] (dmaMod k (fun d => { d with ctrl := ctrl }) s)

def execDmaChEnable (c : Cmd) (s : State) : Res := .next (runCmd opDmaChEnable c s)

/-- DMA_CH_STATUS of a channel (R340). -/
def chStatus (d : DmaCh) : Nat := d.st + 16 * b2n d.refused + 256 * d.dirty

def opDmaChRead : Op := mkOp 0x2009 2 [] .package fun c s =>
  let e := c.prm 0 1
  let ch := c.prm 1 1
  let d := dmaOf s (chNo e ch)
  if !chNamed e ch then .refuse (badParam dRange)
  else if !chOwnedBy s c.queue d then .refuse (denied dNotOwn)
  else .ok (le 4 (chStatus d) ++ le 8 (chCount d)) s

def execDmaChRead (c : Cmd) (s : State) : Res := .next (runCmd opDmaChRead c s)

/-- Bytes of the holding register whose swap words are complete (R344). -/
def readyBytes (d : DmaCh) : Nat := d.hold.length - d.srcPos % swapWord (swapMode d)

/-- Bytes appended to the holding register, each swap word swapped when it is complete. -/
def pushBytes (d : DmaCh) : Bytes → DmaCh
  | [] => d
  | b :: r =>
    let w := swapWord (swapMode d)
    let h := d.hold ++ [b]
    let p := d.srcPos + 1
    let h := if w != 1 && p % w == 0 then h.take (h.length - w) ++ swapBytes (swapMode d) (h.drop (h.length - w)) else h
    pushBytes { d with hold := h, srcPos := p } r

/-- Can the destination side move: a whole element is ready, within the burst of a paced channel (R343, R347)? -/
def dstReady (d : DmaCh) : Bool := decide ((dstSide d).width ≤ readyBytes d) && decide (d.count < (dstSide d).total)

/-- Can the source side move: elements are left and fit the 128-byte register (R343)? -/
def srcRoom (d : DmaCh) : Bool := decide (d.srcPos < (srcSide d).total) && decide (d.hold.length + (srcSide d).width ≤ 128)

/-- May a side move: internal memory always, host memory while the owner may issue requests (R293)? -/
def sideOpen (s : State) (d : DmaCh) (x : Side) : Bool := x.space == 1 || canIssue s d.owner

/-- Can the destination, and the source, make a beat now? A host source waits for its read data. -/
def dstBeat (s : State) (d : DmaCh) : Bool := dstReady d && sideOpen s d (dstSide d)
def srcBeat (s : State) (k : Nat) (d : DmaCh) : Bool :=
  srcRoom d && ((srcSide d).space == 1 || decide ((srcSide d).width ≤ d.landed.length) ||
    (!readPending s d.owner (.channel k) && canIssue s d.owner))

/-- Can the channel make a beat now? -/
def chReady (s : State) (k : Nat) : Bool :=
  let d := dmaOf s k
  (d.st == 2 || d.st == 3) && (dstBeat s d || srcBeat s k d)

/-- Does the protection map, or the bed's own memory, grant an internal access of the channel (R339, R415)? -/
def chGranted (s : State) (d : DmaCh) (a n : Nat) (write : Bool) : Bool :=
  isMemory a n &&
  if d.ownerKind == 0 then
    rangeGrants s (if d.owner.num == 0 then 4 * d.owner.link + 2 * d.owner.half + d.owner.pool
      else 16 + 4 * d.owner.link + 2 * d.owner.half + d.owner.pool) a n write
  else
    rangeGrants s (32 + d.bed) a n write || inBedWindow s d.bed a n (if write then 1 else 0) ||
    (bedClusters s d.bed).any fun c => inScratch c a n

/-- Bytes of the merged request that begins at stream byte `pos` of a host side: up to the line's end, a 4 KiB boundary and `most`, the Max
Payload Size or Max Read Request Size (R342). -/
def mergedRun (x : Side) (pos most : Nat) : Nat :=
  min (min (x.lineLen - pos % x.lineLen) (4096 - x.at pos % 4096)) most

/-- Merged destination requests are emitted: those that are complete, and at the end of a program or burst what is left (R342). -/
def flushMerge (k : Nat) (stop : Bool) : Nat → State → State
  | 0, s => s
  | n + 1, s =>
    let d := dmaOf s k
    let x := dstSide d
    let p := chCount d
    let run := mergedRun x p (payloadMax (funcOf s d.owner))
    if d.merge.isEmpty || (!stop && d.merge.length < run) then s
    else
      let s := dmaMod k (fun d => { d with merge := d.merge.drop run }) s
      flushMerge k stop n (hostWriteAs false (dstNoSnoop d) d.owner (x.at p) (d.merge.take run) s)

/-- The channel after a destination write: DONE at the last, ARMED or the next burst for a paced one (R345, R347). -/
def afterWrite (k : Nat) (s : State) : State :=
  let d := dmaOf s k
  let last := d.count == (dstSide d).total
  let pause := chPaced d && d.burst == 0
  let s := flushMerge k (last || pause) (d.merge.length + 1) s
  if last then dmaMod k (fun d => { d with st := 4, ctrl := clrBit d.ctrl 0, hold := [], landed := [], merge := [], burst := 0 }) s
  else if pause then dmaMod k (fun d => { d with st := 1 }) s
  else s

/-- One beat of a channel: a destination write when an element is ready, else a source read (R343). -/
def chBeat (k : Nat) (s : State) : State :=
  let d := dmaOf s k
  if dstBeat s d then
    let x := dstSide d
    let w := if chPaced d then min x.width (max 1 d.burst) else x.width
    let a := x.at d.count
    let b := d.hold.take w
    let s' := dmaMod k (fun d => { d with hold := d.hold.drop w, count := d.count + w, burst := d.burst - w }) s
    if x.space == 0 then afterWrite k (dmaMod k (fun d => { d with merge := d.merge ++ b }) s')
    else if chGranted s d a w true && !poisonBlocks s a w then afterWrite k (memWrite s' a b)
    else chAbort k 8 s
  else if srcBeat s k d then
    let x := srcSide d
    let a := x.at d.srcPos
    if x.space == 1 then
      if chGranted s d a x.width false && (poisonHit s a x.width).isNone then dmaMod k (fun d => pushBytes d (memRead s a x.width)) (countReads a x.width s)
      else chAbort k 8 s
    else if x.width ≤ d.landed.length then
      dmaMod k (fun d => pushBytes { d with landed := d.landed.drop x.width } (d.landed.take x.width)) s
    else
      let p := d.srcPos + d.landed.length
      issueRead d.owner (.channel k) (x.at p) (mergedRun x p (readMax (funcOf s d.owner))) (srcNoSnoop d) s
  else s

/-- The channel an engine serves for the next beat: the highest priority that is ready; the one last served goes on while its chain
or burst lasts, else the next in rotation (R326). -/
def chosenChannel (s : State) (e : Nat) : Option Nat :=
  let ready := (span 56 8).filter fun c => chReady s (chNo e c)
  let top := ready.foldl (fun m c => max m (chPrio (dmaOf s (chNo e c)))) 0
  let best := ready.filter fun c => chPrio (dmaOf s (chNo e c)) == top
  let last := tgetD s.host.lastServed e 55
  if best.contains last && (dmaOf s (chNo e last)).st == 2 && (dmaOf s (chNo e last)).srcPos != 0 then some last
  else match best.find? fun c => last < c with
    | some c => some c
    | none => best.head?

/-- DMA_BEAT (R343): engine `e` serves one beat; a running channel of lower priority that it passes over reads PREEMPTED (R327). -/
def execDmaBeat (e : Nat) (s : State) : Res :=
  onElem (decide (e < 32))
    (match chosenChannel s e with
     | none => s
     | some c =>
       let k := chNo e c
       let s := (span 56 8).foldl (fun s c' =>
         let k' := chNo e c'
         if k' != k && (dmaOf s k').st == 2 && (dmaOf s k').srcPos != 0 && chPrio (dmaOf s k') < chPrio (dmaOf s k) then
           dmaMod k' (fun d => { d with st := 3 }) s
         else s) s
       let s := { s with host := { s.host with lastServed := tput s.host.lastServed e c } }
       chBeat k (dmaMod k (fun d => { d with st := 2 }) s))

/-- Service cluster and line of a channel's DMA_CH_REQ. -/
def chLine (d : DmaCh) : Nat := 16 * svcIndex (fld (rd d.act 52 4) 0 24 * 256 % 2 ^ 27) + fld (rd d.act 52 4) 24 4

/-- ARMED channels whose line is asserted begin a burst (R347). -/
def armBursts (s : State) : State :=
  s.host.chans.foldl (fun s e =>
    let d := dmaOf s e.1
    if d.st == 1 && s.host.reqLines.contains (chLine d) then
      dmaMod e.1 (fun d => { d with st := 2, burst := min (chBurst d) ((dstSide d).total - d.count) }) s
    else s) s

/-- DMA_REQUEST_LINE_ASSERT (R347): line `line` of service cluster `n`'s DMA port is asserted; channels that wait for it at a burst
boundary move one burst. The line is withdrawn again once they have started, so the next assertion is a row of its own. -/
def execDmaRequestLineAssert (n line : Nat) (s : State) : Res :=
  onElem (decide (n < 85) && decide (line < 16))
    (let s := armBursts { s with host := { s.host with reqLines := [16 * n + line] } }
     { s with host := { s.host with reqLines := [] } })

end Sys2Proof.Machine
end

