-- ==== Sys2Proof/Machine/Submit.lean ====
section
/-! DEFINITION. How command packets reach the device: slots of a ring, out-of-band messages, forwarded commands (R280, R281, R308,
R426, R431, R434, R438, R439, R443, R448). A packet taken here waits in its queue's order and is started by the step. -/

namespace Sys2Proof.Machine

/-- Opcode and fields of a command whose first slot has index `i` in its ring (R431). -/
def cmdOf (q : QueueId) (i : Nat) (b : Bytes) : Nat × Cmd :=
  (rd b 0 2,
   { queue := q, tag := BitVec.ofNat 16 (rd b 2 2), target := BitVec.ofNat 32 (rd b 4 4), epoch := BitVec.ofNat 32 (rd b 8 4)
     flags := byte (rd b 12 1), slots := rd b 13 1, rsvd := BitVec.ofNat 16 (rd b 14 2)
     params := slice b 16 (64 * max 1 (min 16 (rd b 13 1)) - 16), slotAt := i })

/-- Slots that a command with that count field occupies: a count outside 1 to 16 is refused and taken as one slot. -/
def slotsTaken (n : Nat) : Nat := if n == 0 || 16 < n then 1 else n

/-- The commands in `avail` slots: those taken, the slots they occupy, and whether a slot count runs past the tail (R281 cause 3). -/
def ringTake (q : QueueId) : Nat → Nat → Bytes → Nat → List (Nat × Cmd) × Nat × Bool
  | 0, _, _, _ => ([], 0, false)
  | k + 1, i, b, avail =>
    if avail == 0 then ([], 0, false)
    else
      let m := slotsTaken (rd b 13 1)
      if avail < m then ([], 0, true)
      else
        let (l, c, e) := ringTake q k (i + m) (b.drop (64 * m)) (avail - m)
        (cmdOf q i (b.take (64 * m)) :: l, c + m, e)

/-- Commands wait in the order of their queue. -/
def submit (l : List (Nat × Cmd)) (s : State) : State := { s with waiting := s.waiting ++ l }

/-- Does the queue hold commands that wait or owe a final reply (R281 running, R439)? -/
def queueBusy (s : State) (q : QueueId) : Nat :=
  (s.waiting.filter fun w => w.2.queue == q).length + (s.cmd.owed.filter fun o => o.queue == q).length +
  (s.cmd.joint.filter fun j => j.queue == q && !s.cmd.owed.any fun o => o.queue == q && o.tag == j.tag).length

/-! ## Rings in host memory (R280, R281, R308) -/

def fnQueue (f : Fn) (q : Nat) : QueueId :=
  if f.num == 0 then .pf f.link f.half f.pool q else .vf f.link f.half f.pool f.num

/-- Queue numbers of a function: 16 of a PF, one of a VF. -/
def fnQueueOk (f : Fn) (q : Nat) : Bool := if f.num == 0 then decide (q < 16) else q == 0

/-- PF_CQ_STATUS.running. -/
def cqRunning (s : State) (f : Fn) (q : Nat) : Bool :=
  let c := cqOf s f q
  bit c.cfg 0 || (c.running && (decide (0 < queueBusy s (fnQueue f q)) || !c.backlog.isEmpty))

/-- A command queue of a function stops with an error (R281, R463). -/
def cqError (f : Fn) (q cause : Nat) (s : State) : State :=
  raise 0x0001 g0Place [if f.num == 0 then 1 else 2, fnRef f, q, cause]
    (cqMod f q (fun c => { c with error := true, cause := cause }) s)

/-- Fetch of the slots up to the tail, when the queue runs and has reply room. `data` is what the ring holds from the head on; `ok` is
false when the read fails. -/
def cqFetch (f : Fn) (q : Nat) (data : Bytes) (ok : Bool) (s : State) : State :=
  let c := cqOf s f q
  let n := (c.tail + 65536 - c.head) % 65536
  if !bit c.cfg 0 || c.error then s
  else if cqSize c.cfg < n then cqError f q 1 s
  else if n == 0 || !rqRoom c || !fnRuns s f || !canIssue s f then s
  else if !ok then cqError f q 2 s
  else
    let (l, m, past) := ringTake (fnQueue f q) n c.head data n
    let s := submit l (cqMod f q (fun c => { c with head := (c.head + m) % 65536 }) s)
    if past then cqError f q 3 s else s

/-- PF_CQ_DB (R280): the tail is written; the slots it publishes are fetched. A doorbell of a disabled queue keeps its tail. -/
def execPfCqDb (f : Fn) (q tail : Nat) (data : Bytes) (ok : Bool) (s : State) : Res :=
  onElem (fnExists s f && fnQueueOk f q)
    (cqFetch f q data ok (cqMod f q (fun c => { c with tail := tail % 65536 }) s))

/-- May PF_CQ_CFG take a value: its vector lies below the function's share (R288)? -/
def cqCfgOk (s : State) (f : Fn) (cfg : Nat) : Bool := decide (fld cfg 9 9 < shareV s f)

/-- PF_CQ_ENABLE (R280, R281): PF_CQ_CFG is written with enable set. -/
def execPfCqEnable (f : Fn) (q cfg : Nat) (data : Bytes) (ok : Bool) (s : State) : Res :=
  onElem (fnExists s f && fnQueueOk f q)
    (if cqRunning s f q || !cqCfgOk s f cfg then s
     else cqFetch f q data ok (cqMod f q (fun c => { c with
       cfg := setBit (and32 cfg 0x3FFF3) 0, running := true, error := false, cause := 0 }) s))

/-- PF_CQ_DISABLE (R281): commands already fetched complete and their replies are written. -/
def execPfCqDisable (f : Fn) (q cfg : Nat) (s : State) : Res :=
  onElem (fnExists s f && fnQueueOk f q)
    (if bit (cqOf s f q).cfg 0 && cqCfgOk s f cfg then
       cqMod f q (fun c => { c with cfg := clrBit (and32 cfg 0x3FFF3) 0, running := true }) s
     else s)

/-- PF_CQ_RQ_HEAD (R280, R281): room for replies; those that waited are written, and fetching goes on. -/
def execPfCqRqHead (f : Fn) (q index : Nat) (data : Bytes) (ok : Bool) (s : State) : Res :=
  onElem (fnExists s f && fnQueueOk f q)
    (let s := cqMod f q (fun c => { c with rqHead := index % 65536 }) s
     cqFetch f q data ok (flushReplies f q ((cqOf s f q).backlog.length + 1) s))

/-! ## Rings in a bed window (R426) -/

/-- SVC_CMDQ_CFG: slots, base and reply channel. A size below 4 is treated as 4 (R281), one above 10 as 10 (assumption 13). -/
def cmdqSize (c : CmdQueue) : Nat := 2 ^ min 10 (max 4 (fld c.cfg 4 4))
def cmdqBase (c : CmdQueue) : Nat := fld c.cfg 8 40 * 256
def cmdqReply (c : CmdQueue) : Nat := fld c.cfg 48 8

def cmdqMod (n : Nat) (f : CmdQueue → CmdQueue) (s : State) : State := clustMod n (fun x => { x with cmdq := f x.cmdq }) s

def cmdqError (n cause : Nat) (s : State) : State :=
  raise 0x0001 g0Place [5, (pathOf s (svcPlace n)).toNat, 0, cause]
    (cmdqMod n (fun c => { c with error := true, cause := cause }) s)

/-- The slots of a bed's ring from the head on. -/
def cmdqData (s : State) (c : CmdQueue) (n : Nat) : Bytes :=
  (List.range n).flatMap fun k => memRead s (cmdqBase c + 64 * ((c.head + k) % cmdqSize c)) 64

/-- Fetch by the queue of cluster `n`: nothing while the reply channel has no external credit. -/
def bedFetch (n : Nat) (s : State) : State :=
  let c := (clust s n).cmdq
  let k := (c.tail + 65536 - c.head) % 65536
  if !bit c.cfg 0 || c.error || k == 0 then s
  else if cmdqSize c < k then cmdqError n 1 s
  else if !extRoom s n (cmdqReply c) 5 then s
  else if !(match bedOf s n with | some b => inBedWindow s b (cmdqBase c) (64 * cmdqSize c) 0 | none => false) then cmdqError n 2 s
  else
    let (l, m, past) := ringTake (.bed n) k c.head (cmdqData s c k) k
    let s := (List.range k).foldl (fun s j => countReads (cmdqBase c + 64 * ((c.head + j) % cmdqSize c)) 64 s) s
    let s := submit l (cmdqMod n (fun c => { c with head := (c.head + m) % 65536 }) s)
    if past then cmdqError n 3 s else s

def cmdqDb (n tail : Nat) (s : State) : State := bedFetch n (cmdqMod n (fun c => { c with tail := tail % 65536 }) s)

/-- A write of SVC_CMDQ_CFG (R426 with R281). -/
def cmdqCfg (n cfg : Nat) (s : State) : State :=
  let c := (clust s n).cmdq
  let v := cfg % 2 ^ 56 - fld cfg 1 3 * 2
  if bit v 0 then
    if bit c.cfg 0 || (c.running && 0 < queueBusy s (.bed n)) then s
    else bedFetch n (cmdqMod n (fun c => { c with cfg := v, running := true, error := false, cause := 0 }) s)
  else cmdqMod n (fun c => { c with cfg := v, running := c.running || bit c.cfg 0 }) s

/-- SVC_CMDQ_DB, SVC_CMDQ_ENABLE and SVC_CMDQ_DISABLE of service cluster `n` (R426). -/
def execSvcCmdqDb (n tail : Nat) (s : State) : Res := onElem (decide (n < 85)) (cmdqDb n tail s)

def execSvcCmdqEnable (n cfg : Nat) (s : State) : Res := onElem (decide (n < 85)) (cmdqCfg n (setBit cfg 0) s)

def execSvcCmdqDisable (n cfg : Nat) (s : State) : Res := onElem (decide (n < 85)) (cmdqCfg n (clrBit cfg 0) s)

/-! ## Out-of-band and twin queues (R438, R439, R448) -/

/-- OOB_COMMAND_MESSAGE (R439): one MCTP message with the slots of one command. A 17th command without final reply is refused; a slot
count that runs past the message is refused at check 1. -/
def execOobCommandMessage (q : Nat) (body : Bytes) (s : State) : Res :=
  onElem (decide (q < 4))
    (let (op, c) := cmdOf (.oob q) 0 body
     if 16 ≤ queueBusy s (.oob q) then
       sendReply (.oob q) c.tag.toNat op 0 (curEpoch s) (busy dQueueFull) s
     else if body.length < 64 * slotsTaken c.slots then
       sendReply (.oob q) c.tag.toNat op 0 (curEpoch s) (badParam dSlotCount) s
     else submit [(op, c)] s)

/-- TWIN_FORWARDED_COMMAND (R448, R449): a command that the twin forwards on twin queue 0. -/
def execTwinForwardedCommand (op : Nat) (tag : Nat) (flags : Nat) (target epoch : Word) (params : Bytes) (s : State) : Res :=
  .next (submit [(op, { queue := .twin 0, tag := BitVec.ofNat 16 tag, target := target, epoch := epoch, flags := byte flags
                        slots := max 1 (min 16 (ceilDiv (16 + params.length) 64)), rsvd := 0, params := params, slotAt := 0 })] s)

/-- The name under which what queue `q` still has to do goes on after its loss. -/
def gone (q x : QueueId) : QueueId := if x == q then .lost q else x

/-- A queue's requester is reset or lost (R298, R450): the commands it holds run to their end, and their replies are discarded. -/
def queueLost (q : QueueId) (s : State) : State :=
  { s with
    waiting := s.waiting.map fun w => (w.1, { w.2 with queue := gone q w.2.queue })
    cmd := { s.cmd with
      owed := s.cmd.owed.map fun o => { o with queue := gone q o.queue }
      joint := s.cmd.joint.map fun j => { j with queue := gone q j.queue } }
    cfg := { s.cfg with fix := s.cfg.fix.map fun f => { f with queue := gone q f.queue } } }

end Sys2Proof.Machine
end

