-- ==== Sys2Proof/Machine/Services.lean ====
section
/-! DEFINITION. Beds and services: states, starts, stops and failures of beds, images, locks, channels and registers of service
clusters (R385-R409, R412-R430). -/

namespace Sys2Proof.Machine

/-! ## Beds (R419) -/

def bedCode : BedState → Nat
  | .empty => 0
  | .loaded => 1
  | .starting => 2
  | .running => 3
  | .stopping => 4
  | .failed => 5

def bedGet (s : State) (b : Nat) : Bed := tgetD s.svc.beds b {}
def bedMod (b : Nat) (f : Bed → Bed) (s : State) : State :=
  { s with svc := { s.svc with beds := tmod s.svc.beds b {} f } }

/-- Place of a bed's first cluster (R430); G0 for a bed without clusters. -/
def bedPlace (s : State) (b : Nat) : Nat :=
  match (bedClusters s b).head? with
  | some n => svcPlace n
  | none => g0Place

/-- A bed changes its state (R430). -/
def setBed (b : Nat) (st : BedState) (s : State) : State :=
  let old := (bedGet s b).st
  raise 0x2808 (bedPlace s b) [b, bedCode old, bedCode st] (bedMod b (fun x => { x with st := st }) s)

/-- Elapsed seconds. -/
def upSec (s : State) : Nat := s.time.up / 1000000

/-- Automatic restarts of a bed in the last 3,600 s (R423). -/
def bedRestarts (s : State) (b : Nat) : Nat := ((bedGet s b).restarts.filter fun t => upSec s < t + 3600).length

/-! ## Locks (R396-R399) -/

def lockOf (s : State) (n l : Nat) : Lock := tgetD (clust s n).locks l {}
def lockMod (n l : Nat) (f : Lock → Lock) (s : State) : State :=
  clustMod n (fun c => { c with locks := tmod c.locks l {} f }) s

/-- A lock named as rs1 [11:0] of R386: the lock and k of its cluster. -/
def lockName (n l : Nat) : Nat := l + 1024 * (n % 5 % 4)

/-- A freed lock goes to the thread whose request reached the unit first (R396). -/
def grantLock (n l : Nat) (s : State) : State :=
  match (lockOf s n l).waiters with
  | [] => lockMod n l (fun x => { x with holder := none, notified := false }) s
  | (m, t) :: r =>
    let s := lockMod n l (fun x => { x with holder := some (m, t), waiters := r, since := s.time.up, notified := false }) s
    match (threadOf s m t).waits with
    | some b => retire m t b.rd 0 4 s
    | none => s

/-- Release by force (R398). -/
def forceLock (n l : Nat) (s : State) : State := if (lockOf s n l).holder.isSome then grantLock n l s else s

/-! ## Halting the clusters of a bed (R420 step 3, R421 step 3) -/

/-- Every thread stopped, channels but 255 disabled and empty, locks free, timers cancelled. -/
def haltedClust (c : Clust) : Clust :=
  { c with
    threads := tmap c.threads fun _ th => { th with st := .stopped, outbound := none, waits := none, resv := none, haltedBy := none }
    chans := tmap c.chans fun k x =>
      if k == 255 then { x with readersQ := [] }
      else { x with cfg := clrBit x.cfg 0, msgs := [], stage := none, held := [], readersQ := [], stagersQ := [], creditQ := [], remoteQ := [] }
    locks := []
    timers := [] }

/-- The bed's clusters are halted, its direct DMA channels disabled, its storage results discarded, its queues and mailbox ends
lost (R421, R450, R491). -/
def haltBed (b : Nat) (s : State) : State :=
  let s := (bedClusters s b).foldl (fun s n => clustMod n haltedClust s) s
  let s := (channelsOf s fun d => d.ownerKind == 1 && d.bed == b && chActive d).foldl (fun s k => chDisable k s) s
  let s := orphanCmds (.bed b) s
  let s := (bedClusters s b).foldl (fun s n => stageOwnerLost (.bed n) (queueLost (.bed n) s)) s
  mbxResetEnds (32 + b) true s

/-! ## Starting (R420) -/

/-- Step 1: the image fits the bed. -/
def bedFits (s : State) (b : Nat) (i : Image) : Bool :=
  let cs := bedClusters s b
  let (_, size, rights) := bedWindow s b 0
  bedDefined s b && !cs.isEmpty && decide (i.minClusters ≤ cs.length) && cs.all (fun n => clusterServes s (svcPlace n)) &&
  decide (i.window0 * 0x100000 ≤ size) && bit rights 2 && decide (i.body.length ≤ size)

/-- Steps 2 to 4: memory, channels, threads; state STARTING. Starting a security update raises the service's floor (R418). -/
def launchBed (b slot : Nat) (keep : Bool) (i : Image) (s : State) : State :=
  let s := if bit i.flags 0 then
      { s with svc := { s.svc with floors := tput s.svc.floors i.service (max (tgetD s.svc.floors i.service 0) i.version) } }
    else s
  let cs := bedClusters s b
  let s := cs.foldl (fun s n => clustMod n haltedClust (memClear s (scratchBase n) 0x200000)) s
  let s := if keep then s else
    (List.range 8).foldl (fun s k => let (base, size, _) := bedWindow s b k; memClear s base size) s
  let (base, _, _) := bedWindow s b 0
  let s := memWrite s base i.body
  let s := cs.foldl (fun s n =>
    threadMod n 0 (fun th => { th with pc := BitVec.ofNat 64 (base + i.entry), st := .running })
      (clustMod n (fun c => { c with readyReg := false }) s)) s
  setBed b .starting (bedMod b (fun x => { x with slot := some slot }) (mbxRelease (32 + b) s))

/-- Steps 1 to 4 from a slot; none when step 1 refuses. -/
def startBed (b slot : Nat) (keep : Bool) (s : State) : Option State :=
  match tget s.svc.images slot with
  | some i => if bedFits s b i then some (launchBed b slot keep i s) else none
  | none => none

/-- Completion of the start owed by SVC_START or SVC_REPLACE. -/
def finishStart (b : Nat) (r : Rep) (s : State) : State := finishKey 0x2804 b r (finishKey 0x2802 b r s)

/-- Is a graft of one of the bed's clusters running (R424)? -/
def bedGrafting (s : State) (b : Nat) : Bool :=
  (bedClusters s b).any fun n =>
    s.spare.grafts.any fun g => place g.source.toNat == svcPlace n || place g.target.toNat == svcPlace n

/-- Step 5: every cluster of a starting bed is ready. A graft of one holds the step (R424). -/
def bedReady (b : Nat) (s : State) : State :=
  if (bedGet s b).st == .starting && !bedGrafting s b && (bedClusters s b).all (fun n => (clust s n).readyReg) then
    finishStart b (repOk []) (dirChanged (setBed b .running s))
  else s

/-! ## Stopping (R421-R423) -/

/-- A bed left FAILED by the device. -/
def failBed (b cause : Nat) (s : State) : State :=
  let s := setBed b .failed (bedMod b (fun x => { x with failCause := cause }) s)
  raise 0x280A (bedPlace s b) [b, cause, bedRestarts s b] s

/-- The stop's end: step 3, step 4, and what the stop was for. -/
def bedStopped (b : Nat) (s : State) : State :=
  let was := (bedGet s b).after
  let s := dirChanged (haltBed b s)
  match was with
  | .stop => finishKey 0x2803 b (repOk []) (setBed b .loaded s)
  | .shutdown => setBed b .loaded s
  | .replace slot =>
    let s := setBed b .loaded s
    match startBed b slot true s with
    | some s => s
    | none => finishKey 0x2804 b (noResource 0) s
  | .fail cause => failBed b cause s
  | .restart =>
    let s := bedMod b (fun x => { x with restarts := x.restarts ++ [upSec s] }) s
    match startBed b ((bedGet s b).slot.getD 64) true s with
    | some s => s
    | none => failBed b (bedGet s b).failCause s

/-- Step 2 of a stop ends: every cluster's ready is clear. A graft of one holds it (R424). -/
def bedQuiet (b : Nat) (s : State) : State :=
  if (bedGet s b).st == .stopping && !bedGrafting s b && (bedClusters s b).all (fun n => !(clust s n).readyReg) then bedStopped b s else s

/-- Starts and stops that waited for a graft go on (R424). -/
def resumeBeds (s : State) : State := (List.range 32).foldl (fun s b => bedQuiet b (bedReady b s)) s

/-- Step 1: notices to the supervisors, state STOPPING; with every cluster's ready clear, or without grace, the stop ends at
once. -/
def stopBed (b : Nat) (after : AfterStop) (grace : Bool) (s : State) : State :=
  let s := (bedClusters s b).foldl (fun s n => notice n 0 6 (noticeBytes s n 0 6 0 0 0 0xFFFF 0 0xFFFF) s) s
  let s := setBed b .stopping (bedMod b (fun x => { x with after := after }) s)
  if !grace then bedStopped b s else bedQuiet b s

/-- The device stops a bed without grace (R423). A stop that runs already completes as it began (R424). -/
def deviceStop (b cause : Nat) (s : State) : State :=
  let x := bedGet s b
  if x.st == .starting || x.st == .running then
    let again := (cause == 2 || cause == 3) && bit (bedField s b 1 1) 2 && decide (bedRestarts s b < 3)
    let s := finishStart b (aborted 0) s
    stopBed b (if again then .restart else .fail cause) false (bedMod b (fun x => { x with failCause := cause }) s)
  else s

/-- A fault of a thread with what follows for its bed when it is the supervisor (R400, R403, R423 cause 2). -/
def threadFaults (n t cause detail addr : Nat) (s : State) : State :=
  let s := threadFault n t cause detail addr s
  if t == 0 then
    match bedOf s n with
    | some b => deviceStop b 2 s
    | none => s
  else s

/-- Beds with a cluster that nothing carries any more (R423 cause 4), and with a window in DDR5 that is not in use (cause 5). -/
def stopLostBeds (s : State) : State :=
  (List.range 32).foldl (fun s b =>
    if bedDefined s b && (bedClusters s b).any (fun n => !clusterServes s (svcPlace n)) then deviceStop b 4 s else s) s

def stopWindowBeds (s : State) : State :=
  (List.range 32).foldl (fun s b =>
    if bedDefined s b && (List.range 8).any (fun k => 0 < (bedWindow s b k).2.1) then deviceStop b 5 s else s) s

/-! ## Channels (R387, R393) -/

/-- Slots of a channel: first, number. -/
def chanSlots (cfg : Nat) : Nat × Nat := (fld cfg 16 12, fld cfg 8 8 + 1)

/-- Would a configuration word enable its channel (R393)? Channel 255 holds slots 4,032 on. -/
def chanFits (s : State) (n ch cfg : Nat) : Bool :=
  let (b, k) := chanSlots cfg
  let apart := fun (c : Nat) => let (b', k') := chanSlots c; decide (b + k ≤ b') || decide (b' + k' ≤ b)
  decide (b + k ≤ 4096) && decide (fld cfg 32 9 ≤ k) && apart noticeChan.cfg &&
  ((clust s n).chans.all fun e => e.1 == ch || e.1 == 255 || !chEnabled e.2 || apart e.2.cfg)

/-- RW bits of SVC_CHAN_CFG. -/
def chanCfgBits (v : Nat) : Nat := fld v 0 6 + fld v 8 8 * 2 ^ 8 + fld v 16 12 * 2 ^ 16 + fld v 32 9 * 2 ^ 32

/-- Clearing enable (R393). -/
def chanDisable (n ch cfg : Nat) (s : State) : State :=
  let c := chanOf s n ch
  let s := chanMod n ch (fun c => { c with
    cfg := clrBit cfg 0, msgs := [], stage := none, held := [], readersQ := [], stagersQ := [], creditQ := [], remoteQ := [] }) s
  let s := (c.readersQ ++ c.stagersQ ++ c.creditQ).foldl (fun s t => threadFaults n t 6 1 0 s) s
  c.remoteQ.foldl (fun s x => threadFaults x.1 x.2 6 1 0 s) s

/-- A write of SVC_CHAN_CFG_n (R393). -/
def chanCfgWrite (n ch v : Nat) (s : State) : State :=
  let v := chanCfgBits v
  let c := chanOf s n ch
  if ch == 255 then s
  else if chEnabled c then (if bit v 0 then s else chanDisable n ch v s)
  else if !bit v 0 then chanMod n ch (fun c => { c with cfg := v }) s
  else if chanFits s n ch v then chanMod n ch (fun c => { c with cfg := v }) s
  else chanMod n ch (fun c => { c with cfg := clrBit v 0, cfgRefused := true }) s

/-! ## Threads (R403, R409) -/

/-- SVC_THREAD_STATE_t.run. -/
def threadRun (n t : Nat) (s : State) : State :=
  let th := threadOf s n t
  if th.st == .stopped || th.st == .faulted then
    clustMod n (fun c => { c with stallSent := false }) (threadMod n t (fun th => { th with st := .running }) s)
  else s

/-! ## Readiness (R420 step 5, R421 step 2) -/

def readySet (n : Nat) (s : State) : State :=
  let s := clustMod n (fun c => { c with readyReg := true }) s
  match bedOf s n with
  | some b => bedReady b s
  | none => s

def readyClear (n : Nat) (s : State) : State :=
  let s := clustMod n (fun c => { c with readyReg := false }) s
  match bedOf s n with
  | some b => bedQuiet b s
  | none => s

/-! ## The registers of a cluster (R409, R426) -/

/-- A register of cluster `n` as the number it holds, with its width in bytes; offset of its first byte. -/
def svcReg (s : State) (n off : Nat) : Nat × Nat × Nat :=
  let c := clust s n
  if off < 0x4000 then
    let ch := off / 0x40
    let x := chanOf s n ch
    let at_ := off / 8 * 8
    (at_, 8,
     match off % 0x40 / 8 with
     | 0 => x.cfg
     | 1 => x.writers
     | 2 => x.readers
     | 3 => x.bufReg
     | 4 =>
       min 256 x.msgs.length + 2 ^ 9 * b2n x.stage.isSome + 2 ^ 10 * (match x.stage with | some (t, _) => t | none => 0) +
       2 ^ 16 * localFree x + 2 ^ 32 * x.extDrops + 2 ^ 48 * b2n x.cfgRefused
     | _ => 0)
  else if off < 0x4008 then (0x4000, 8, c.cfg)
  else if off == 0x4010 then (0x4010, 4, b2n c.readyReg)
  else if 0x4020 ≤ off && off < 0x4028 then (0x4020, 8, c.cmdq.cfg)
  else if off == 0x402C then (0x402C, 4, c.cmdq.head + 2 ^ 16 * b2n c.cmdq.error + 2 ^ 17 * c.cmdq.cause)
  else if 0x4100 ≤ off && off < 0x4500 then
    let t := (off - 0x4100) / 16
    let th := threadOf s n t
    if off % 16 < 8 then
      (off / 8 * 8, 8,
       thCode th.st + 2 ^ 16 * th.object + 2 ^ 32 * th.cause + 2 ^ 40 * th.detail + 2 ^ 48 * min 255 (locksHeld s n t))
    else (off / 8 * 8, 8, th.pc.toNat)
  else if 0x5000 ≤ off && off < 0x6000 then
    let l := lockOf s n ((off - 0x5000) / 4)
    (off / 4 * 4, 4, match l.holder with | some (m, t) => 1 + 2 * t + 2 ^ 7 * (m % 5 % 4) | none => 0)
  else (off / 4 * 4, 4, 0)

/-- A read of `len` bytes at an offset: the bytes of the registers there. -/
def svcRegRead (s : State) (n off len : Nat) : Nat :=
  let (b, _, v) := svcReg s n off
  v / 256 ^ (off - b) % 256 ^ len

/-- The effect of a read: ext_drops is RC. -/
def svcRegReadEffect (n off len : Nat) (s : State) : State :=
  if off < 0x4000 && off % 0x40 / 8 == 4 && off % 8 < 6 && 4 < off % 8 + len then
    chanMod n (off / 0x40) (fun c => { c with extDrops := 0 }) s
  else s

/-- A register's value with `len` bytes of it written. -/
def svcMerged (s : State) (n off len v : Nat) : Nat :=
  let (b, _, w) := svcReg s n off
  putFld w (8 * (off - b)) (8 * len) v

/-- A write of `len` bytes at an offset, by the supervisor or management (R393, R409, R426). -/
def svcRegWrite (n off len v : Nat) (s : State) : State :=
  let w := svcMerged s n off len v
  if off < 0x4000 then
    let ch := off / 0x40
    let x := chanOf s n ch
    let open_ := ch != 255 && !chEnabled x
    match off % 0x40 / 8 with
    | 0 => chanCfgWrite n ch w s
    | 1 => if open_ then chanMod n ch (fun c => { c with writers := w }) s else s
    | 2 => if open_ then chanMod n ch (fun c => { c with readers := w }) s else s
    | 3 => if open_ then chanMod n ch (fun c => { c with bufReg := w % 2 ^ 52 }) s else s
    | 4 => if off % 8 ≤ 6 && 6 < off % 8 + len && bit v (8 * (6 - off % 8)) then
        chanMod n ch (fun c => { c with cfgRefused := false }) s
      else s
    | _ => s
  else if off < 0x4008 then clustMod n (fun c => { c with cfg := fld w 0 16 + fld w 32 24 * 2 ^ 32 }) s
  else if off == 0x4010 then (if bit v 0 then readySet n s else readyClear n s)
  else if 0x4020 ≤ off && off < 0x4028 then cmdqCfg n w s
  else if off == 0x4028 then cmdqDb n (v % 65536) s
  else if 0x4100 ≤ off && off < 0x4500 then
    let t := (off - 0x4100) / 16
    let th := threadOf s n t
    if off % 16 == 0 then (if bit v 4 then threadRun n t s else s)
    else if 8 ≤ off % 16 && (th.st == .stopped || th.st == .faulted) then
      threadMod n t (fun th => { th with pc := BitVec.ofNat 64 w }) s
    else s
  else if 0x5000 ≤ off && off < 0x6000 then
    (if off % 4 ≤ 2 && 2 < off % 4 + len && bit v (8 * (2 - off % 4)) then forceLock n ((off - 0x5000) / 4) s else s)
  else s

/-! ## Rows on a cluster's registers -/

def execSvcLockRelease (n l : Nat) (s : State) : Res := onElem (decide (n < 85) && decide (l < 1024)) (forceLock n l s)

def execSvcThreadRun (n t : Nat) (s : State) : Res := onElem (decide (n < 85) && decide (t < 64)) (threadRun n t s)

def execSvcChanEnable (n ch cfg : Nat) (s : State) : Res :=
  onElem (decide (n < 85) && decide (ch < 256)) (chanCfgWrite n ch (setBit cfg 0) s)

def execSvcChanDisable (n ch cfg : Nat) (s : State) : Res :=
  onElem (decide (n < 85) && decide (ch < 256)) (chanCfgWrite n ch (clrBit cfg 0) s)

def execSvcReadySet (n : Nat) (s : State) : Res := onElem (decide (n < 85)) (readySet n s)

def execSvcReadyClear (n : Nat) (s : State) : Res := onElem (decide (n < 85)) (readyClear n s)

/-- SVC_TIMER_EXPIRY (R395): the timer's message of source 5 with the time CSR. -/
def execSvcTimerExpiry (n k : Nat) (s : State) : Res :=
  onElem (decide (n < 85) && decide (k < 64))
    (match tget (clust s n).timers k with
     | none => s
     | some (ch, _) =>
       let s := clustMod n (fun c => { c with timers := tdel c.timers k }) s
       (extMessage n ch 4 (extEventBytes 5 (le 8 (timeCsr s))) s).1)

/-- LOCK_LIMIT_EXPIRY (R397): lock `l` of cluster `n`. -/
def execLockLimitExpiry (n l : Nat) (s : State) : Res :=
  onElem (decide (n < 85) && decide (l < 1024))
    (let x := lockOf s n l
     match x.holder with
     | some (m, t) =>
       if x.notified || fld (clust s n).cfg 32 24 == 0 then s
       else
         let s := lockMod n l (fun x => { x with notified := true }) s
         let s := notice m t 3 (noticeBytes s m t 3 0 0 0 (lockName n l) 0 (stagedChannel s m t)) s
         raise 0x2803 (corePlace s m t) [lockName n l, t, s.time.up - x.since] s
     | none => s)

/-! ## Quiescence (R404, R405) -/

/-- Can a thread of the cluster act: RUNNING or HALTED? -/
def canAct (s : State) (n t : Nat) : Bool := (threadOf s n t).st == .running || (threadOf s n t).st == .halted

/-- Is an external source of a channel armed (R404)? The spec gives a DMA transfer no channel to report to: a transfer of the bed's
direct channels that runs counts (assumption 14). -/
def extArmed (s : State) (n ch : Nat) : Bool :=
  let c := chanOf s n ch
  bit c.cfg 1 && (bit c.cfg 2 || bit c.cfg 5 ||
    (bit c.cfg 4 && (clust s n).timers.any (fun k => k.2.1 == ch)) ||
    (bit c.cfg 3 && (s.host.chans.any fun e => e.2.assigned && e.2.ownerKind == 1 && chActive e.2 && bedOf s n == some e.2.bed)))

/-- Is a blocked thread stuck (R404)? -/
def isStuck (s : State) (n t : Nat) : Bool :=
  let th := threadOf s n t
  let ch := th.object % 256
  let among := fun (m : Nat) => (List.range 64).any fun i => bit m i && canAct s n i
  match th.st with
  | .blockedRead => !(ch == 255) && !among (chanOf s n ch).writers && !extArmed s n ch
  | .blockedStage => (match (chanOf s n ch).stage with | some (h, _) => !canAct s n h | none => false)
  | .blockedCredit => th.outbound.isNone && !among (chanOf s n ch).readers
  | .blockedLock =>
    (match (clust s n).locks.find? fun l => l.2.waiters.contains (n, t) with
     | some (_, l) => (match l.holder with | some (m, h) => m == n && !canAct s n h | none => false)
     | none => false)
  | _ => false

/-- Mask of the blocked threads of a cluster. -/
def blockedMask (s : State) (n : Nat) : Nat :=
  (List.range 64).foldl (fun m t => if isBlocked (threadOf s n t).st then m + 2 ^ t else m) 0

/-- STALL_TIMEOUT (R405): the condition has held for stall_us. -/
def execStallTimeout (n : Nat) (s : State) : Res :=
  onElem (decide (n < 85))
    (let others := span 1 63
     let blocked := others.filter fun t => isBlocked (threadOf s n t).st
     if (clust s n).stallSent || blocked.isEmpty || (others.any fun t => canAct s n t) || !(blocked.all fun t => isStuck s n t) then s
     else
       let m := blockedMask s n
       let supStuck := isStuck s n 0
       let s := clustMod n (fun c => { c with stallSent := true }) s
       let s := notice n 0 2 (noticeBytes s n 0 2 0 0 0 0xFFFF m 0xFFFF) s
       let s := raise 0x2802 (svcPlace n) (two m) s
       if supStuck then
         let th := threadOf s n 0
         let s := raise 0x2806 (svcPlace n) [if th.st == .blockedLock then th.object else 0xFFFF] s
         match bedOf s n with
         | some b => deviceStop b 3 s
         | none => s
       else s)

/-! ## Timers of starts and stops (R420, R421) -/

/-- START_TIMEOUT: the bed is stopped with zero grace and is FAILED with cause 1. While one of its clusters is grafted the time is extended
(R424), and so is the grace. -/
def execStartTimeout (b : Nat) (s : State) : Res :=
  onElem (decide (b < 32)) (if (bedGet s b).st == .starting && !bedGrafting s b then deviceStop b 1 s else s)

def execStopGraceExpiry (b : Nat) (s : State) : Res :=
  onElem (decide (b < 32)) (if (bedGet s b).st == .stopping && !bedGrafting s b then bedStopped b s else s)

/-! ## SVC commands (R429) -/

def bedBusyState (x : BedState) : Bool := x == .starting || x == .running || x == .stopping

def opSvcImageLoad : Op := mkOp 0x2801 20 [(2, 6)] .package fun c s =>
  let slot := c.prm 0 1
  let len := c.prm 16 4
  if 64 ≤ slot || 1 < c.prm 1 1 then .refuse (badParam dRange)
  else if thas s.svc.loading slot then .refuse (busy dSlotInUse)
  else match bufferRefusal s c.queue (c.prm 1 1) (c.prm 8 8) len false with
    | some r => .refuse r
    | none =>
      let d := if c.prm 1 1 == 1 then memRead s (c.prm 8 8) (min len 0x1010000) else []
      .accept slot (countBulk (c.prm 8 8) d.length { s with svc := { s.svc with loading := tput s.svc.loading slot d } })

def execSvcImageLoad (c : Cmd) (s : State) : Res := .next (runCmd opSvcImageLoad c s)

/-- The image of a header and body (R417). -/
def imageOf (d : Bytes) : Image :=
  { service := rd d 6 2, iface := rd d 8 4, version := rd d 12 4, minClusters := rd d 16 1, flags := rd d 17 1
    startTimeout := rd d 18 2, window0 := rd d 20 4, entry := rd d 24 8, body := slice d 64 (rd d 32 4) }

/-- Magic, version, service, lengths and reserved fields (R417, R418). -/
def imageFormat (d : Bytes) : Bool :=
  rd d 0 4 == 0x5653574C && rd d 4 2 == 1 && ((1 ≤ rd d 6 2 && rd d 6 2 ≤ 4) || 0x100 ≤ rd d 6 2) &&
  1 ≤ rd d 16 1 && rd d 16 1 ≤ 64 && rd d 17 1 ≤ 1 && 1 ≤ rd d 18 2 && rd d 32 4 ≤ 16 * 1048576 - 64 &&
  allZero (slice d 36 28) && decide (64 + rd d 32 4 + 98 ≤ d.length)

/-- Does the slot hold the image of a bed that is not LOADED, EMPTY or FAILED? -/
def slotBusy (s : State) (slot : Nat) : Bool :=
  s.svc.beds.any fun e => e.2.slot == some slot && bedBusyState e.2.st

/-- SVC_IMAGE_VERIFIED (R418): B0 has read the image (`data`, for host memory; none when the access failed) and judged its
signature and chain. -/
def execSvcImageVerified (slot : Nat) (data : Bytes) (access signed : Bool) (s : State) : Res :=
  onElem (decide (slot < 64))
    (match tget s.svc.loading slot with
     | none => s
     | some d0 =>
       let d := if d0.isEmpty then data else d0
       let s := { s with svc := { s.svc with loading := tdel s.svc.loading slot } }
       let i := imageOf d
       let refused := fun (r : Rep) =>
         finishKey 0x2801 slot r (raise 0x2809 b0Place [slot, r.status, r.detail] s)
       if !access then finishKey 0x2801 slot (faultRep dHostAccess (pathOf s b0Place).toNat) s
       else if !imageFormat d then refused (badParam dFormat)
       else if !signed then refused (denied dSignature)
       else if i.version < tgetD s.svc.floors i.service 0 then refused (denied dRollback)
       else if slotBusy s slot then refused (busy dSlotInUse)
       else finishKey 0x2801 slot (repOk []) { s with svc := { s.svc with images := tput s.svc.images slot i } })

/-- SVC_START (R420). A slot without image is refused with NO_ENTRY (assumption 15). -/
def opSvcStart : Op := mkOp 0x2802 3 [] .package fun c s =>
  let b := c.prm 0 1
  let slot := c.prm 1 1
  if 1 < c.prm 2 1 then .refuse (badParam dReserved)
  else if 32 ≤ b || 64 ≤ slot then .refuse (badParam dRange)
  else if !thas s.svc.images slot then .refuse (badParam dNoEntry)
  else if bedBusyState (bedGet s b).st then .refuse (busy 0)
  else .accept b s fun s =>
    match startBed b slot (c.prm 2 1 == 1) s with
    | some s => s
    | none => finishKey 0x2802 b (noResource 0) s

def execSvcStart (c : Cmd) (s : State) : Res := .next (runCmd opSvcStart c s)

/-- SVC_STOP (R421, R424). A second stop while one runs is BUSY (assumption 15). -/
def opSvcStop : Op := mkOp 0x2803 1 [] .package fun c s =>
  let b := c.prm 0 1
  if 32 ≤ b then .refuse (badParam dRange)
  else match (bedGet s b).st with
    | .stopping => .refuse (busy 0)
    | .starting => .accept b s fun s => stopBed b .stop true (finishStart b (aborted 0) s)
    | .running => .accept b s fun s => stopBed b .stop true s
    | _ => .ok [] s

def execSvcStop (c : Cmd) (s : State) : Res := .next (runCmd opSvcStop c s)

/-- SVC_REPLACE (R422, R424): on a bed that is not running the stop has nothing to do and the start follows. -/
def opSvcReplace : Op := mkOp 0x2804 2 [] .package fun c s =>
  let b := c.prm 0 1
  let slot := c.prm 1 1
  if 32 ≤ b || 64 ≤ slot then .refuse (badParam dRange)
  else match tget s.svc.images slot with
    | none => .refuse (badParam dNoEntry)
    | some i =>
      let old := (bedGet s b).slot.bind fun k => tget s.svc.images k
      if !(match old with | some j => j.service == i.service | none => false) then .refuse (badParam dServiceId)
      else if (bedGet s b).st == .starting || (bedGet s b).st == .stopping then .refuse (busy 0)
      else if (bedGet s b).st == .running then .accept b s fun s => stopBed b (.replace slot) true s
      else .accept b s fun s =>
        match startBed b slot true s with
        | some s => s
        | none => finishKey 0x2804 b (noResource 0) s

def execSvcReplace (c : Cmd) (s : State) : Res := .next (runCmd opSvcReplace c s)

def opSvcBedQuery : Op := mkOp 0x2805 1 [] .package fun c s =>
  let b := c.prm 0 1
  if 32 ≤ b then .refuse (badParam dRange)
  else
    let x := bedGet s b
    let i := x.slot.bind fun k => tget s.svc.images k
    .ok ([byte (bedCode x.st), byte (x.slot.getD 0)] ++
      le 2 (match i with | some i => i.service | none => 0) ++ le 4 (match i with | some i => i.version | none => 0) ++
      [byte (bedRestarts s b), byte x.failCause]) s

def execSvcBedQuery (c : Cmd) (s : State) : Res := .next (runCmd opSvcBedQuery c s)

def opSvcSlotRead : Op := mkOp 0x2806 1 [] .package fun c s =>
  if 64 ≤ c.prm 0 1 then .refuse (badParam dRange)
  else match tget s.svc.images (c.prm 0 1) with
    | some i => .ok (le 2 i.service ++ le 4 i.version ++ le 4 i.iface ++ [1]) s
    | none => .ok (List.replicate 11 0) s

def execSvcSlotRead (c : Cmd) (s : State) : Res := .next (runCmd opSvcSlotRead c s)

end Sys2Proof.Machine
end

