-- ==== Sys2Proof/Machine/Threads.lean ====
section
/-! DEFINITION. Threads: the base instruction set RV64IMAC (R383; encodings of the RISC-V unprivileged ISA 20191213, which the spec
cites: assumption 17), the Oroarnin instructions (R384-R399), ECALL, EBREAK and debug halts (R400, R406). -/

namespace Sys2Proof.Machine

/-! ## Fields of an instruction -/

abbrev X := BitVec 64

def iRd (w : Nat) : Nat := fld w 7 5
def iF3 (w : Nat) : Nat := fld w 12 3
def iRs1 (w : Nat) : Nat := fld w 15 5
def iRs2 (w : Nat) : Nat := fld w 20 5
def iF7 (w : Nat) : Nat := fld w 25 7

/-- The low `n` bits of a number, sign-extended to 64. -/
def sext (n v : Nat) : X := (BitVec.ofNat n v).signExtend 64

def immI (w : Nat) : X := sext 12 (fld w 20 12)
def immS (w : Nat) : X := sext 12 (fld w 25 7 * 32 + fld w 7 5)
def immB (w : Nat) : X := sext 13 (fld w 31 1 * 4096 + fld w 7 1 * 2048 + fld w 25 6 * 32 + fld w 8 4 * 2)
def immU (w : Nat) : X := sext 32 (fld w 12 20 * 4096)
def immJ (w : Nat) : X := sext 21 (fld w 31 1 * 1048576 + fld w 12 8 * 4096 + fld w 20 1 * 2048 + fld w 21 10 * 2)

/-! ## Compressed instructions, as the 32-bit word they stand for (RV64C) -/

def encI (op f3 rd rs1 imm : Nat) : Nat := op + rd * 2 ^ 7 + f3 * 2 ^ 12 + rs1 * 2 ^ 15 + imm % 4096 * 2 ^ 20
def encS (op f3 rs1 rs2 imm : Nat) : Nat :=
  op + fld imm 0 5 * 2 ^ 7 + f3 * 2 ^ 12 + rs1 * 2 ^ 15 + rs2 * 2 ^ 20 + fld imm 5 7 * 2 ^ 25
def encR (op f3 f7 rd rs1 rs2 : Nat) : Nat := op + rd * 2 ^ 7 + f3 * 2 ^ 12 + rs1 * 2 ^ 15 + rs2 * 2 ^ 20 + f7 * 2 ^ 25
def encB (f3 rs1 imm : Nat) : Nat :=
  0x63 + fld imm 11 1 * 2 ^ 7 + fld imm 1 4 * 2 ^ 8 + f3 * 2 ^ 12 + rs1 * 2 ^ 15 + fld imm 5 6 * 2 ^ 25 + fld imm 12 1 * 2 ^ 31
def encJ (rd imm : Nat) : Nat :=
  0x6F + rd * 2 ^ 7 + fld imm 12 8 * 2 ^ 12 + fld imm 11 1 * 2 ^ 20 + fld imm 1 10 * 2 ^ 21 + fld imm 20 1 * 2 ^ 31

/-- A `n`-bit immediate sign-extended, as a number of 32 bits. -/
def sx (n v : Nat) : Nat := ((BitVec.ofNat n v).signExtend 32).toNat

/-- Quadrant 0. -/
def expand0 (h : Nat) : Option Nat :=
  let rd := 8 + fld h 2 3
  let rs := 8 + fld h 7 3
  let w4 := fld h 10 3 * 8 + fld h 6 1 * 4 + fld h 5 1 * 64
  let w8 := fld h 10 3 * 8 + fld h 5 2 * 64
  match fld h 13 3 with
  | 0 =>
    let imm := fld h 11 2 * 16 + fld h 7 4 * 64 + fld h 6 1 * 4 + fld h 5 1 * 8
    if imm == 0 then none else some (encI 0x13 0 rd 2 imm)
  | 2 => some (encI 0x03 2 rd rs w4)
  | 3 => some (encI 0x03 3 rd rs w8)
  | 6 => some (encS 0x23 2 rs rd w4)
  | 7 => some (encS 0x23 3 rs rd w8)
  | _ => none

/-- Quadrant 1. -/
def expand1 (h : Nat) : Option Nat :=
  let r := fld h 7 5
  let i6 := fld h 12 1 * 32 + fld h 2 5
  let imm := sx 6 i6
  let rd := 8 + fld h 7 3
  let rs := 8 + fld h 2 3
  match fld h 13 3 with
  | 0 => some (encI 0x13 0 r r imm)
  | 1 => if r == 0 then none else some (encI 0x1B 0 r r imm)
  | 2 => some (encI 0x13 0 r 0 imm)
  | 3 =>
    if i6 == 0 then none
    else if r == 2 then
      some (encI 0x13 0 2 2 (sx 10 (fld h 12 1 * 512 + fld h 6 1 * 16 + fld h 5 1 * 64 + fld h 3 2 * 128 + fld h 2 1 * 32)))
    else some (0x37 + r * 2 ^ 7 + sx 6 i6 % 2 ^ 20 * 2 ^ 12)
  | 4 =>
    match fld h 10 2 with
    | 0 => some (encI 0x13 5 rd rd i6)
    | 1 => some (encI 0x13 5 rd rd (i6 + 0x400))
    | 2 => some (encI 0x13 7 rd rd imm)
    | _ =>
      match fld h 12 1, fld h 5 2 with
      | 0, 0 => some (encR 0x33 0 0x20 rd rd rs)
      | 0, 1 => some (encR 0x33 4 0 rd rd rs)
      | 0, 2 => some (encR 0x33 6 0 rd rd rs)
      | 0, _ => some (encR 0x33 7 0 rd rd rs)
      | _, 0 => some (encR 0x3B 0 0x20 rd rd rs)
      | _, 1 => some (encR 0x3B 0 0 rd rd rs)
      | _, _ => none
  | 5 =>
    let off := fld h 12 1 * 2048 + fld h 11 1 * 16 + fld h 9 2 * 256 + fld h 8 1 * 1024 + fld h 7 1 * 64 + fld h 6 1 * 128 +
      fld h 3 3 * 2 + fld h 2 1 * 32
    some (encJ 0 (sx 12 off))
  | k =>
    let off := fld h 12 1 * 256 + fld h 10 2 * 8 + fld h 5 2 * 64 + fld h 3 2 * 2 + fld h 2 1 * 32
    some (encB (if k == 6 then 0 else 1) rd (sx 9 off))

/-- Quadrant 2. -/
def expand2 (h : Nat) : Option Nat :=
  let r := fld h 7 5
  let rs := fld h 2 5
  match fld h 13 3 with
  | 0 => some (encI 0x13 1 r r (fld h 12 1 * 32 + rs))
  | 2 => if r == 0 then none else some (encI 0x03 2 r 2 (fld h 12 1 * 32 + fld h 4 3 * 4 + fld h 2 2 * 64))
  | 3 => if r == 0 then none else some (encI 0x03 3 r 2 (fld h 12 1 * 32 + fld h 5 2 * 8 + fld h 2 3 * 64))
  | 4 =>
    if fld h 12 1 == 0 then
      if rs == 0 then (if r == 0 then none else some (encI 0x67 0 0 r 0)) else some (encR 0x33 0 0 r 0 rs)
    else if rs == 0 then (if r == 0 then some 0x00100073 else some (encI 0x67 0 1 r 0))
    else some (encR 0x33 0 0 r r rs)
  | 6 => some (encS 0x23 2 2 rs (fld h 9 4 * 4 + fld h 7 2 * 64))
  | 7 => some (encS 0x23 3 2 rs (fld h 10 3 * 8 + fld h 7 3 * 64))
  | _ => none

/-- The 32-bit instruction that a 16-bit one stands for; none where it is illegal in RV64IMAC. -/
def expand (h : Nat) : Option Nat :=
  match h % 4 with
  | 0 => expand0 h
  | 1 => expand1 h
  | 2 => expand2 h
  | _ => none

/-! ## Integer arithmetic -/

/-- The low 32 bits, sign-extended. -/
def word (x : X) : X := (x.setWidth 32).signExtend 64

/-- OP with funct7 0 and 0x20. -/
def alu (f3 : Nat) (alt : Bool) (a b : X) : X :=
  match f3 with
  | 0 => if alt then a - b else a + b
  | 1 => a <<< (b.toNat % 64)
  | 2 => if a.slt b then 1 else 0
  | 3 => if a.ult b then 1 else 0
  | 4 => a ^^^ b
  | 5 => if alt then a.sshiftRight (b.toNat % 64) else a >>> (b.toNat % 64)
  | 6 => a ||| b
  | _ => a &&& b

/-- OP-32 with funct7 0 and 0x20. -/
def aluW (f3 : Nat) (alt : Bool) (a b : X) : X :=
  let x := a.setWidth 32
  let y := b.setWidth 32
  let r : BitVec 32 := match f3 with
    | 0 => if alt then x - y else x + y
    | 1 => x <<< (y.toNat % 32)
    | _ => if alt then x.sshiftRight (y.toNat % 32) else x >>> (y.toNat % 32)
  r.signExtend 64

/-- Quotient and remainder of the M extension, with its results for a zero divisor and for overflow. -/
def divS {n : Nat} (a b : BitVec n) : BitVec n := if b = 0 then BitVec.allOnes n else BitVec.ofInt n (a.toInt.tdiv b.toInt)
def remS {n : Nat} (a b : BitVec n) : BitVec n := if b = 0 then a else BitVec.ofInt n (a.toInt.tmod b.toInt)
def divU {n : Nat} (a b : BitVec n) : BitVec n := if b = 0 then BitVec.allOnes n else BitVec.ofNat n (a.toNat / b.toNat)
def remU {n : Nat} (a b : BitVec n) : BitVec n := if b = 0 then a else BitVec.ofNat n (a.toNat % b.toNat)

/-- OP with funct7 1. -/
def mulDiv (f3 : Nat) (a b : X) : X :=
  match f3 with
  | 0 => a * b
  | 1 => BitVec.ofInt 64 (a.toInt * b.toInt / 2 ^ 64)
  | 2 => BitVec.ofInt 64 (a.toInt * (b.toNat : Int) / 2 ^ 64)
  | 3 => BitVec.ofNat 64 (a.toNat * b.toNat / 2 ^ 64)
  | 4 => divS a b
  | 5 => divU a b
  | 6 => remS a b
  | _ => remU a b

/-- OP-32 with funct7 1. -/
def mulDivW (f3 : Nat) (a b : X) : Option X :=
  let x := a.setWidth 32
  let y := b.setWidth 32
  match f3 with
  | 0 => some ((x * y).signExtend 64)
  | 4 => some ((divS x y).signExtend 64)
  | 5 => some ((divU x y).signExtend 64)
  | 6 => some ((remS x y).signExtend 64)
  | 7 => some ((remU x y).signExtend 64)
  | _ => none

def taken (f3 : Nat) (a b : X) : Option Bool :=
  match f3 with
  | 0 => some (a == b)
  | 1 => some (a != b)
  | 4 => some (a.slt b)
  | 5 => some (!a.slt b)
  | 6 => some (a.ult b)
  | 7 => some (!a.ult b)
  | _ => none

/-! ## Memory as a thread sees it (R383, R409, R415, R504) -/

/-- Is the range within the registers of a service cluster that the thread may access: its own cluster's for a supervisor, every
cluster's for management (R409)? -/
def svcRegAccess (n t a len : Nat) : Option (Nat × Nat) :=
  if 0x009000000000 ≤ a && a + len ≤ 0x009000000000 + 0x10000 * 85 then
    let m := (a - 0x009000000000) / 0x10000
    if n == 85 || (m == n && t == 0) then some (m, a % 0x10000) else none
  else none

/-- Fault cause of an access of `len` bytes: misaligned, outside the address space, poisoned; with the address to report. -/
def accessFault (s : State) (n t a len r outside : Nat) : Option (Nat × Nat) :=
  if a % len != 0 then some (5, a)
  else if (svcRegAccess n t a len).isSome then none
  else if !threadMayAccess s n a len r then some (outside, a)
  else match poisonHit s a len with
    | some l => some (10, l)
    | none => none

/-- A load that its checks allow. -/
def loadValue (s : State) (n t a len : Nat) : Nat :=
  match svcRegAccess n t a len with
  | some (m, off) => svcRegRead s m off len
  | none => ofLe (memRead s a len)

def loadEffect (n t a len : Nat) (s : State) : State :=
  match svcRegAccess n t a len with
  | some (m, off) => svcRegReadEffect m off len s
  | none => countReads a len s

/-- A store that its checks allow. -/
def storeValue (n t a len v : Nat) (s : State) : State :=
  match svcRegAccess n t a len with
  | some (m, off) => svcRegWrite m off len v s
  | none => memWrite s a (le len v)

/-- An illegal instruction (R400 cause 1). -/
def illegal (n t : Nat) (s : State) : State := threadFaults n t 1 0 0 s

/-- An instruction that computes a value completes. -/
def result (n t rd : Nat) (v : X) (len : Nat) (s : State) : State := retire n t rd v len s

/-- A taken jump or branch. -/
def jumpTo (n t rd : Nat) (link target : X) (s : State) : State :=
  threadMod n t (fun th => { th with pc := target }) (retire n t rd link 0 s)

/-! ## Atomics -/

/-- Value an AMO writes. -/
def amoOp {k : Nat} (f5 : Nat) (old b : BitVec k) : Option (BitVec k) :=
  match f5 with
  | 0x01 => some b
  | 0x00 => some (old + b)
  | 0x04 => some (old ^^^ b)
  | 0x0C => some (old &&& b)
  | 0x08 => some (old ||| b)
  | 0x10 => some (if old.slt b then old else b)
  | 0x14 => some (if old.slt b then b else old)
  | 0x18 => some (if old.ult b then old else b)
  | 0x1C => some (if old.ult b then b else old)
  | _ => none

def setResv (n t : Nat) (r : Option (Nat × Nat)) (s : State) : State := threadMod n t (fun th => { th with resv := r }) s

/-- An AMO, LR or SC of `k` bytes (4 or 8). -/
def atomic (n t w len k : Nat) (s : State) : State :=
  let th := threadOf s n t
  let a := (regGet th (iRs1 w)).toNat
  let b := regGet th (iRs2 w)
  let f5 := fld w 27 5
  let old := loadValue s n t a k
  let ext := fun (v : Nat) => if k == 4 then sext 32 v else BitVec.ofNat 64 v
  if f5 == 0x02 then
    if iRs2 w != 0 then illegal n t s
    else match accessFault s n t a k 0 3 with
      | some (c, x) => threadFaults n t c 0 x s
      | none => result n t (iRd w) (ext old) len (setResv n t (some (a, k)) s)
  else if f5 == 0x03 then
    match accessFault s n t a k 1 4 with
    | some (c, x) => threadFaults n t c 0 x s
    | none =>
      if th.resv == some (a, k) then
        storeValue n t a k (b.toNat % 2 ^ (8 * k)) (result n t (iRd w) 0 len (setResv n t none s))
      else result n t (iRd w) 1 len (setResv n t none s)
  else
    let new : Option Nat :=
      if k == 4 then (amoOp f5 (BitVec.ofNat 32 old) (b.setWidth 32)).map (·.toNat)
      else (amoOp f5 (BitVec.ofNat 64 old) b).map (·.toNat)
    match new with
    | none => illegal n t s
    | some v =>
      match accessFault s n t a k 1 4 with
      | some (c, x) => threadFaults n t c 0 x s
      | none =>
        if (svcRegAccess n t a k).isNone && !threadMayAccess s n a k 0 then threadFaults n t 4 0 a s
        else storeValue n t a k v (result n t (iRd w) (ext old) len s)

/-! ## CSRs (R383) -/

/-- Value of a readable CSR: time, instret, svcid. -/
def csrRead (s : State) (n t csr : Nat) : Option Nat :=
  if csr == 0xC01 then some (timeCsr s)
  else if csr == 0xC02 then some ((threadOf s n t).instret % 2 ^ 64)
  else if csr == 0xCC0 then some (t + (pathOf s (svcPlace n)).toNat / 256 * 256)
  else none

/-- A Zicsr instruction: the CSRs are read-only, so one that writes is illegal. -/
def csrInstr (n t w len : Nat) (s : State) : State :=
  let f := iF3 w % 4
  match csrRead s n t (fld w 20 12) with
  | some v => if f == 1 || iRs1 w != 0 then illegal n t s else result n t (iRd w) (BitVec.ofNat 64 v) len s
  | none => illegal n t s

/-! ## Debug halts (R406) -/

/-- The bed of a thread is released for debug, and the thread is no supervisor (R408). -/
def released (s : State) (n t : Nat) : Bool :=
  match bedOf s n with
  | some b => bit (bedField s b 1 1) 3 && t != 0
  | none => false

/-- May a session of a kind (1 intrusive, 2 safelight) alter a thread (R408)? -/
def mayAlter (s : State) (kind n t : Nat) : Bool :=
  match s.boot.lifecycle with
  | .deployed => released s n t
  | .blank => false
  | .retired => false
  | _ => kind == 1 || released s n t

/-- The open session that covers a thread (R406). -/
def coveringSession (s : State) (n t : Nat) : Option Nat :=
  (s.boot.sessions.find? fun e => mayAlter s e.2.kind n t).map fun e => e.1

/-- Channel and words that a thread has staged, and whether for another cluster. -/
def stagedWords (s : State) (n t : Nat) : Option (Nat × Nat × Bool) :=
  match (clust s n).chans.find? fun e => match e.2.stage with | some (h, _ :: _) => h == t | _ => false with
  | some (ch, c) => some (ch, (match c.stage with | some (_, ws) => ws.length | none => 0), false)
  | none => match (threadOf s n t).outbound with
    | some (_, ch, w :: ws) => some (ch, (w :: ws).length, true)
    | _ => none

/-- DBG_HALT and EBREAK (R406): a blocked operation is withdrawn, to be executed again on resumption; staged words stay. -/
def haltThread (n t session : Nat) (s : State) : State :=
  let ch := stagedChannel s n t
  let own := match stagedWords s n t with | some x => x.1 | none => 0xFFFF
  let lock := if (threadOf s n t).st == .blockedLock then (threadOf s n t).object else 0xFFFF
  let s := withdraw n t s
  let s := threadMod n t (fun th => { th with st := .halted, waits := none, object := 0, haltedBy := some session }) s
  let s := if n == 85 then s else notice n t 4 (noticeBytes s n t 4 0 0 0 lock 0 ch) s
  raise 0x2804 (corePlace s n t) [t, own, locksHeld s n t] s

/-! ## Channel instructions (R385-R392) -/

/-- Channel misuse with a detail. -/
def misuse (n t detail : Nat) (s : State) : State := threadFaults n t 6 detail 0 s

/-- A thread blocks on a channel. -/
def blockOn (n t : Nat) (st : ThState) (object : Nat) (b : Blocked) (s : State) : State :=
  threadMod n t (fun th => { th with st := st, object := object, waits := some b }) s

/-- The cluster that an operand targets: its own, another of the package, or none that exists (R385). -/
def opTarget (s : State) (n a : Nat) : Option Nat :=
  let w := fld a 16 24 * 256
  if w == 0 then some n
  else if pSystem w != s.flash.system || pPackage w != s.flash.package then none
  else if levelOf (place w) != .cluster then none
  else if svcIndex (place w) < 85 then some (svcIndex (place w)) else none

/-- May a thread of cluster `n` write to cluster `m`: one of its bed, or a hub cluster of the storage engine (R389, R416)? -/
def mayTarget (s : State) (n m : Nat) : Bool :=
  match bedOf s n with
  | some b => bedOf s m == some b || (80 ≤ m && m < 85)
  | none => 80 ≤ n && 80 ≤ m

/-- Is the length consistent with `k` staged words (R388)? -/
def lengthFits (a k : Nat) : Bool := decide (8 * (k - 1) + 1 ≤ opLen a) && decide (opLen a ≤ 8 * k)

/-- CH.WR (op 0) and CH.WRE (op 1) to a channel of the own cluster (R388). -/
def writeLocal (n t : Nat) (b : Blocked) (s : State) : State :=
  let ch := b.a % 256
  let c := chanOf s n ch
  let mine := match c.stage with | some (h, ws) => if h == t then ws else [] | none => []
  let held := match c.stage with | some (h, _) => h == t | none => false
  if !chEnabled c then misuse n t 1 s
  else if !bit c.writers t then misuse n t 2 s
  else if (threadOf s n t).abandoned == some ch then misuse n t 7 (threadMod n t (fun th => { th with abandoned := none }) s)
  else if mine.length == 8 then misuse n t 3 s
  else if b.op == 1 && !lengthFits b.a (mine.length + 1) then misuse n t 4 s
  else
    let wouldBlock := (!held && c.stage.isSome) || (mine.isEmpty && localFree c == 0)
    if t == 0 && wouldBlock && !bit c.cfg 1 then misuse n t 6 s
    else if !held && c.stage.isSome then
      blockOn n t .blockedStage ch b (chanMod n ch (fun c => { c with stagersQ := c.stagersQ ++ [t] }) s)
    else
      let s := if held then s else chanMod n ch (fun c => { c with stage := some (t, []) }) s
      settleAll n ch (stageWord n ch t b s)

/-- CH.WR and CH.WRE to another cluster (R389). -/
def writeRemote (n t m : Nat) (b : Blocked) (s : State) : State :=
  let ch := b.a % 256
  let c := chanOf s m ch
  let ws := match (threadOf s n t).outbound with | some (_, _, ws) => ws | none => []
  if !mayTarget s n m || !acceptsExt c 5 then misuse n t 8 s
  else if (threadOf s n t).abandoned == some (256 + ch) then misuse n t 7 (threadMod n t (fun th => { th with abandoned := none }) s)
  else if ws.length == 8 then misuse n t 3 s
  else if b.op == 1 && !lengthFits b.a (ws.length + 1) then misuse n t 4 s
  else if b.op == 0 then
    let ws' := ws ++ [BitVec.ofNat 64 b.b]
    result n t b.rd (BitVec.ofNat 64 ws'.length) 4
      (threadMod n t (fun th => { th with outbound := some (pathOf s (svcPlace m), ch, ws') }) s)
  else
    let s := threadMod n t (fun th => { th with outbound := some (pathOf s (svcPlace m), ch, ws) }) s
    settleAll m ch (blockOn n t .blockedCredit ch b (chanMod m ch (fun c => { c with remoteQ := c.remoteQ ++ [(n, t)] }) s))

def chanWrite (n t op rd a v : Nat) (s : State) : State :=
  let b : Blocked := { op := op, rd := rd, a := a, b := v }
  match opTarget s n a with
  | none => misuse n t 8 s
  | some m => if m == n then writeLocal n t b s else writeRemote n t m b s

/-- Checks of the instructions that act on a local channel: target zero, channel enabled, thread in the set. -/
def localMisuse (s : State) (n t a : Nat) (set : Chan → Nat) : Option Nat :=
  let c := chanOf s n (a % 256)
  if fld a 16 24 != 0 then some 8
  else if !chEnabled c then some 1
  else if !bit (set c) t then some 2
  else none

/-- What a channel that gave up a message can do now, with pending notices and the cluster's command queue (R401, R426). -/
def afterTake (n ch : Nat) (s : State) : State :=
  let s := settleAll n ch s
  let s := if ch == 255 then pumpNotices n ((clust s n).notices.length + 1) s else s
  bedFetch n s

/-- CH.RDH (R391, R402). -/
def chanRead (n t rd a : Nat) (s : State) : State :=
  let ch := a % 256
  let c := chanOf s n ch
  match localMisuse s n t a Chan.readers with
  | some d => misuse n t d s
  | none =>
    match c.msgs with
    | m :: _ => afterTake n ch (result n t rd (BitVec.ofNat 64 m.bytes.length) 4 (takeHead n ch t s))
    | [] =>
      if t == 0 && !bit c.cfg 1 && ch != 255 then misuse n t 6 s
      else blockOn n t .blockedRead ch { op := 2, rd := rd, a := a, b := 0 }
        (chanMod n ch (fun c => { c with readersQ := c.readersQ ++ [t] }) s)

/-- CH.TRY (R391). -/
def chanTry (n t rd a : Nat) (s : State) : State :=
  let ch := a % 256
  let c := chanOf s n ch
  match localMisuse s n t a Chan.readers with
  | some d => misuse n t d s
  | none =>
    match c.msgs with
    | m :: _ =>
      if c.readersQ.isEmpty then afterTake n ch (result n t rd (BitVec.ofNat 64 m.bytes.length) 4 (takeHead n ch t s))
      else result n t rd 0 4 s
    | [] => result n t rd 0 4 s

/-- CH.RDW (R391, R400): a word of the read buffer. -/
def chanWord (n t rd a : Nat) (s : State) : State :=
  match (threadOf s n t).buf with
  | some b => if 8 * (a % 8) < b.length then result n t rd (BitVec.ofNat 64 (Machine.rd b (8 * (a % 8)) 8)) 4 s else misuse n t 5 s
  | none => misuse n t 5 s

/-- CH.ABT (R388): the thread's own staged words go, with the staging area and the credit. -/
def chanAbort (n t a : Nat) (s : State) : State :=
  let ch := a % 256
  match opTarget s n a with
  | none => misuse n t 8 s
  | some m =>
    if m != n then result n t 0 0 4 (threadMod n t (fun th => { th with outbound := none }) s)
    else
      match localMisuse s n t (a % 256) Chan.writers with
      | some d => misuse n t d s
      | none =>
        let mine := match (chanOf s n ch).stage with | some (h, _) => h == t | none => false
        let s := result n t 0 0 4 s
        if mine then settleAll n ch (chanMod n ch (fun c => { c with stage := none }) s) else s

/-- CH.CNT. The thread is in the channel's writer or reader set (assumption 18). -/
def chanCount (n t rd a : Nat) (s : State) : State :=
  match localMisuse s n t a (fun c => if bit c.readers t then c.readers else c.writers) with
  | some d => misuse n t d s
  | none => result n t rd (BitVec.ofNat 64 (chanOf s n (a % 256)).msgs.length) 4 s

/-- CH.FREE (R394). -/
def chanFree (n t a v : Nat) (s : State) : State :=
  let ch := a % 256
  match localMisuse s n t a Chan.readers with
  | some d => misuse n t d s
  | none =>
    if (chanOf s n ch).held.contains (v % 256) then
      afterTake n ch (result n t 0 0 4 (chanMod n ch (fun c => { c with held := c.held.filter (· != v % 256) }) s))
    else misuse n t 5 s

/-! ## Lock instructions (R386, R396-R399) -/

/-- Cluster and lock of a lock operand; none for a lock outside the bed or with reserved bits set. -/
def lockNamed (s : State) (n a : Nat) : Option (Nat × Nat) :=
  let m := if n < 80 then n / 5 * 5 + fld a 10 2 else 80 + fld a 10 2
  if a / 2 ^ 12 != 0 || bedOf s m != bedOf s n then none else some (m, a % 1024)

def lockMisuse (n t detail : Nat) (s : State) : State := threadFaults n t 7 detail 0 s

/-- LK.ACQ (`wait`) and LK.TRY. -/
def lockAcquire (n t rd a : Nat) (wait : Bool) (s : State) : State :=
  match lockNamed s n a with
  | none => lockMisuse n t 3 s
  | some (m, l) =>
    match (lockOf s m l).holder with
    | none =>
      result n t rd (if wait then 0 else 1) 4
        (lockMod m l (fun x => { x with holder := some (n, t), since := s.time.up, notified := false }) s)
    | some h =>
      if h == (n, t) then lockMisuse n t 2 s
      else if !wait then result n t rd 0 4 s
      else blockOn n t .blockedLock (a % 4096) { op := 3, rd := rd, a := a, b := 0 }
        (lockMod m l (fun x => { x with waiters := x.waiters ++ [(n, t)] }) s)

/-- LK.REL. -/
def lockRelease (n t a : Nat) (s : State) : State :=
  match lockNamed s n a with
  | none => lockMisuse n t 3 s
  | some (m, l) => if (lockOf s m l).holder == some (n, t) then grantLock m l (result n t 0 0 4 s) else lockMisuse n t 1 s

/-- TM.SET (R395). A delay above 2^32 − 1 is taken as that (assumption 18). -/
def timerSet (n t a v : Nat) (s : State) : State :=
  let k := a % 64
  let ch := fld a 8 8
  let c := chanOf s n ch
  if v == 0 then result n t 0 0 4 (clustMod n (fun c => { c with timers := tdel c.timers k }) s)
  else if !chEnabled c then misuse n t 1 s
  else if !acceptsExt c 4 then misuse n t 8 s
  else result n t 0 0 4
    (clustMod n (fun c => { c with timers := tput c.timers k (ch, s.time.up + min v (2 ^ 32 - 1)) }) s)

/-! ## The Oroarnin instructions by register number (R384) -/

/-- Value of a register of a thread, as a number. -/
def xv (s : State) (n t r : Nat) : Nat := (regGet (threadOf s n t) r).toNat

/-- Are a thread's own instructions available: every cluster but G0 has them (R383); the thread runs. -/
def customIssue (n t : Nat) (f : State → State) (s : State) : State :=
  if (threadOf s n t).st != .running then s
  else if n == 85 then illegal n t s
  else f s

def isThread (n t : Nat) : Bool := decide (n ≤ 85) && decide (t < 64)

/-- CH_WR of thread `t` of cluster `n` with its register numbers (R388, R389). -/
def execChWr (n t rd rs1 rs2 : Nat) (s : State) : Res :=
  onElem (isThread n t) (customIssue n t (fun s => chanWrite n t 0 rd (xv s n t rs1) (xv s n t rs2) s) s)

def execChWre (n t rd rs1 rs2 : Nat) (s : State) : Res :=
  onElem (isThread n t) (customIssue n t (fun s => chanWrite n t 1 rd (xv s n t rs1) (xv s n t rs2) s) s)

def execChRdh (n t rd rs1 : Nat) (s : State) : Res :=
  onElem (isThread n t) (customIssue n t (fun s => chanRead n t rd (xv s n t rs1) s) s)

def execChTry (n t rd rs1 : Nat) (s : State) : Res :=
  onElem (isThread n t) (customIssue n t (fun s => chanTry n t rd (xv s n t rs1) s) s)

def execChRdw (n t rd rs1 : Nat) (s : State) : Res :=
  onElem (isThread n t) (customIssue n t (fun s => chanWord n t rd (xv s n t rs1) s) s)

def execChAbt (n t rs1 : Nat) (s : State) : Res :=
  onElem (isThread n t) (customIssue n t (fun s => chanAbort n t (xv s n t rs1) s) s)

def execChCnt (n t rd rs1 : Nat) (s : State) : Res :=
  onElem (isThread n t) (customIssue n t (fun s => chanCount n t rd (xv s n t rs1) s) s)

def execChFree (n t rs1 rs2 : Nat) (s : State) : Res :=
  onElem (isThread n t) (customIssue n t (fun s => chanFree n t (xv s n t rs1) (xv s n t rs2) s) s)

def execLkAcq (n t rd rs1 : Nat) (s : State) : Res :=
  onElem (isThread n t) (customIssue n t (fun s => lockAcquire n t rd (xv s n t rs1) true s) s)

def execLkTry (n t rd rs1 : Nat) (s : State) : Res :=
  onElem (isThread n t) (customIssue n t (fun s => lockAcquire n t rd (xv s n t rs1) false s) s)

def execLkRel (n t rs1 : Nat) (s : State) : Res :=
  onElem (isThread n t) (customIssue n t (fun s => lockRelease n t (xv s n t rs1) s) s)

def execTmSet (n t rs1 rs2 : Nat) (s : State) : Res :=
  onElem (isThread n t) (customIssue n t (fun s => timerSet n t (xv s n t rs1) (xv s n t rs2) s) s)

/-- ECALL (R400 cause 8). -/
def ecall (n t : Nat) (s : State) : State := threadFaults n t 8 0 0 s

/-- EBREAK (R400 cause 9, R406). -/
def ebreak (n t : Nat) (s : State) : State :=
  match coveringSession s n t with
  | some k => haltThread n t k s
  | none => threadFaults n t 9 0 0 s

def execEcall (n t : Nat) (s : State) : Res :=
  onElem (isThread n t) (if (threadOf s n t).st == .running then ecall n t s else s)

def execEbreak (n t : Nat) (s : State) : Res :=
  onElem (isThread n t) (if (threadOf s n t).st == .running then ebreak n t s else s)

/-- The custom-0 word (R384): an operand that a row does not name must be x0. -/
def custom0 (n t w : Nat) (s : State) : State :=
  let rd := iRd w
  let a := xv s n t (iRs1 w)
  let b := xv s n t (iRs2 w)
  let no2 := iRs2 w == 0
  let nod := rd == 0
  if n == 85 then illegal n t s
  else match iF3 w, iF7 w with
    | 0, 0 => chanWrite n t 0 rd a b s
    | 0, 1 => chanWrite n t 1 rd a b s
    | 0, 2 => if no2 then chanRead n t rd a s else illegal n t s
    | 0, 3 => if no2 then chanTry n t rd a s else illegal n t s
    | 0, 4 => if no2 then chanWord n t rd a s else illegal n t s
    | 0, 5 => if no2 && nod then chanAbort n t a s else illegal n t s
    | 0, 6 => if no2 then chanCount n t rd a s else illegal n t s
    | 0, 7 => if nod then chanFree n t a b s else illegal n t s
    | 1, 0 => if no2 then lockAcquire n t rd a true s else illegal n t s
    | 1, 1 => if no2 then lockAcquire n t rd a false s else illegal n t s
    | 1, 2 => if no2 && nod then lockRelease n t a s else illegal n t s
    | 2, 0 => if nod then timerSet n t a b s else illegal n t s
    | _, _ => illegal n t s

/-! ## One base instruction (R383) -/

/-- Width in bytes and signedness of a load. -/
def loadForm (f3 : Nat) : Option (Nat × Bool) :=
  match f3 with
  | 0 => some (1, true)
  | 1 => some (2, true)
  | 2 => some (4, true)
  | 3 => some (8, true)
  | 4 => some (1, false)
  | 5 => some (2, false)
  | 6 => some (4, false)
  | _ => none

/-- The 32-bit instruction `w`, `len` bytes long in memory, of a running thread. -/
def runWord (n t w len : Nat) (s : State) : State :=
  let th := threadOf s n t
  let a := regGet th (iRs1 w)
  let b := regGet th (iRs2 w)
  let rd := iRd w
  let f3 := iF3 w
  let next := th.pc + BitVec.ofNat 64 len
  match w % 128 with
  | 0x37 => result n t rd (immU w) len s
  | 0x17 => result n t rd (th.pc + immU w) len s
  | 0x6F => jumpTo n t rd next (th.pc + immJ w) s
  | 0x67 => if f3 == 0 then jumpTo n t rd next ((a + immI w) &&& ~~~1#64) s else illegal n t s
  | 0x63 =>
    match taken f3 a b with
    | some true => jumpTo n t 0 0 (th.pc + immB w) s
    | some false => result n t 0 0 len s
    | none => illegal n t s
  | 0x03 =>
    match loadForm f3 with
    | none => illegal n t s
    | some (k, sg) =>
      let x := (a + immI w).toNat
      match accessFault s n t x k 0 3 with
      | some (c, y) => threadFaults n t c 0 y s
      | none =>
        let v := loadValue s n t x k
        loadEffect n t x k (result n t rd (if sg then sext (8 * k) v else BitVec.ofNat 64 v) len s)
  | 0x23 =>
    if 4 ≤ f3 then illegal n t s
    else
      let k := 2 ^ f3
      let x := (a + immS w).toNat
      match accessFault s n t x k 1 4 with
      | some (c, y) => threadFaults n t c 0 y s
      | none => storeValue n t x k (b.toNat % 2 ^ (8 * k)) (result n t 0 0 len s)
  | 0x13 =>
    if f3 == 1 then (if fld w 26 6 == 0 then result n t rd (a <<< fld w 20 6) len s else illegal n t s)
    else if f3 == 5 then
      if fld w 26 6 == 0 then result n t rd (a >>> fld w 20 6) len s
      else if fld w 26 6 == 0x10 then result n t rd (a.sshiftRight (fld w 20 6)) len s
      else illegal n t s
    else result n t rd (alu f3 false a (immI w)) len s
  | 0x1B =>
    if f3 == 0 then result n t rd (word (a + immI w)) len s
    else if f3 == 1 && iF7 w == 0 then result n t rd (aluW 1 false a (BitVec.ofNat 64 (iRs2 w))) len s
    else if f3 == 5 && (iF7 w == 0 || iF7 w == 0x20) then
      result n t rd (aluW 5 (iF7 w == 0x20) a (BitVec.ofNat 64 (iRs2 w))) len s
    else illegal n t s
  | 0x33 =>
    if iF7 w == 0 then result n t rd (alu f3 false a b) len s
    else if iF7 w == 0x20 && (f3 == 0 || f3 == 5) then result n t rd (alu f3 true a b) len s
    else if iF7 w == 1 then result n t rd (mulDiv f3 a b) len s
    else illegal n t s
  | 0x3B =>
    if iF7 w == 0 && (f3 == 0 || f3 == 1 || f3 == 5) then result n t rd (aluW f3 false a b) len s
    else if iF7 w == 0x20 && (f3 == 0 || f3 == 5) then result n t rd (aluW f3 true a b) len s
    else if iF7 w == 1 then
      match mulDivW f3 a b with
      | some v => result n t rd v len s
      | none => illegal n t s
    else illegal n t s
  | 0x0F => if f3 == 0 then result n t 0 0 len s else illegal n t s
  | 0x2F => if f3 == 2 then atomic n t w len 4 s else if f3 == 3 then atomic n t w len 8 s else illegal n t s
  | 0x73 =>
    if w == 0x00000073 then ecall n t s
    else if w == 0x00100073 then ebreak n t s
    else if f3 == 0 || f3 == 4 then illegal n t s
    else csrInstr n t w len s
  | 0x0B => custom0 n t w s
  | _ => illegal n t s

/-- Can the thread fetch `k` bytes at `a` (R400 cause 2)? -/
def mayFetch (s : State) (n a k : Nat) : Bool := threadMayAccess s n a k 2

/-- One instruction of a running thread: fetch, decoding, execution. -/
def issue (n t : Nat) (s : State) : State :=
  let pc := (threadOf s n t).pc.toNat
  if pc % 2 != 0 || !mayFetch s n pc 2 then threadFaults n t 2 0 pc s
  else
    let h := ofLe (memRead s pc 2)
    match poisonHit s pc 2 with
    | some l => threadFaults n t 10 0 l s
    | none =>
      if h % 4 != 3 then
        match expand h with
        | some w => runWord n t w 2 (countReads pc 2 s)
        | none => illegal n t s
      else if !mayFetch s n pc 4 then threadFaults n t 2 0 pc s
      else
        match poisonHit s pc 4 with
        | some l => threadFaults n t 10 0 l s
        | none => runWord n t (ofLe (memRead s pc 4)) 4 (countReads pc 4 s)

/-- INSTRUCTION_ISSUE (R382, R383): thread `t` of cluster `n` (85 is G0) issues its next instruction; a thread that is not RUNNING
takes no slot, and the threads of a core that is being grafted stand still (R582). -/
def execInstructionIssue (n t : Nat) (s : State) : Res :=
  onElem (isThread n t)
    (if (threadOf s n t).st == .running && !coreStill s (svcPlace n) (t / 8) then issue n t s else s)

end Sys2Proof.Machine
end

