-- ==== Sys2Proof/Machine/Debug.lean ====
section
/-! DEFINITION. Debug sessions and the DBG commands (R406-R408, R411, R623-R625), and the loss of an out-of-band endpoint (R450). -/

namespace Sys2Proof.Machine

/-- A thread that the session halted runs again. -/
def resumeOf (k : Nat) (th : Thread) : Thread :=
  if th.st == .halted && th.haltedBy == some k then { th with st := .running, haltedBy := none } else th

/-- A session ends: the threads it halted resume at their pc with their staged words (R625). -/
def closeSession (k cause : Nat) (s : State) : State :=
  if !thas s.boot.sessions k then s
  else
    let s := { s with
      boot := { s.boot with sessions := tdel s.boot.sessions k }
      svc := { s.svc with clusters := tmap s.svc.clusters fun _ c => { c with threads := tmap c.threads fun _ th => resumeOf k th } } }
    raise 0x4007 b0Place [k, cause] s

/-- Sessions of a queue end (R450, R625). -/
def closeSessionsOf (q : QueueId) (cause : Nat) (s : State) : State :=
  s.boot.sessions.foldl (fun s e => if e.2.queue == q then closeSession e.1 cause s else s) s

/-- The session that a queue holds open. -/
def sessionOf (s : State) (q : QueueId) : Option Session := (s.boot.sessions.find? fun e => e.2.queue == q).map fun e => e.2

/-- Is a path word among the parameters one that the device answers with BAD_PATH: a nonzero reserved field, an element that it does not
have, another system, or a broadcast path (R3, R6)? -/
def paramPathBad (w : Nat) (s : State) : Bool :=
  pSystem w != s.flash.system || pReserved w != 0 || levelOf (place w) == .absent || levelOf (place w) == .broadcast

/-- Cluster and local thread number that a command names: path word of the core, thread 0 to 7 (R411). -/
def dbgThread (c : Cmd) (s : State) : Option (Nat × Nat) :=
  let w := c.prm 0 4
  let p := place w
  let n := svcIndex p
  if pPackage w != s.flash.package || levelOf p != .unit || 86 ≤ n || 8 ≤ pUnit p || 8 ≤ c.prm 4 1 then none
  else some (n, 8 * pUnit p + c.prm 4 1)

/-- DBG opcodes are refused in BLANK and RETIRED (R408). -/
def dbgLife (s : State) (_ : Cmd) : Bool := s.boot.lifecycle != .blank && s.boot.lifecycle != .retired

/-- A DBG opcode on a thread: an open session of the queue, the thread, and for the altering ones the right of R408. -/
def mkDbg (code n : Nat) (zeros : List (Nat × Nat)) (alters : Bool) (body : Nat → Nat → Cmd → State → Done) : Op :=
  { mkOp code n zeros .package (fun c s =>
      match sessionOf s c.queue with
      | none => .refuse (denied dProtection)
      | some x =>
        if paramPathBad (c.prm 0 4) s then .refuse (rep stBadPath 0)
        else match dbgThread c s with
        | none => .refuse (badParam dRange)
        | some (k, t) => if alters && !mayAlter s x.kind k t then .refuse (denied 0) else body k t c s)
    with life := dbgLife }

/-- Number of the session a queue holds open. -/
def sessionNo (s : State) (q : QueueId) : Nat :=
  match s.boot.sessions.find? fun e => e.2.queue == q with
  | some e => e.1
  | none => 0

/-- DBG_HALT (R406). A thread that is STOPPED, FAULTED or HALTED has no next instruction to stop before and keeps its state. -/
def opDbgHalt : Op := mkDbg 0x4001 5 [] true fun n t c s =>
  let th := threadOf s n t
  let r := [byte (thCode th.st)] ++ le 2 (match stagedWords s n t with | some x => x.1 | none => 0xFFFF)
  if th.st == .running || isBlocked th.st then .ok r (haltThread n t (sessionNo s c.queue) s) else .ok r s

def execDbgHalt (c : Cmd) (s : State) : Res := .next (runCmd opDbgHalt c s)

def opDbgResume : Op := mkDbg 0x4002 16 [(6, 2)] true fun n t c s =>
  let th := threadOf s n t
  if th.st != .halted then .refuse (badParam dNotHalted)
  else if 1 < c.prm 5 1 then .refuse (badParam dReserved)
  else
    let s := threadMod n t (fun th => { th with st := .running, haltedBy := none }) s
    .ok [] (if c.prm 5 1 == 1 then
        threadMod n t (fun th => { th with pc := BitVec.ofNat 64 (c.prm 8 8), abandoned := none }) s
      else s)

def execDbgResume (c : Cmd) (s : State) : Res := .next (runCmd opDbgResume c s)

/-- DBG_ABANDON_MESSAGE (R407). -/
def opDbgAbandonMessage : Op := mkDbg 0x4003 5 [] true fun n t _ s =>
  if (threadOf s n t).st != .halted then .refuse (badParam dNotHalted)
  else match stagedWords s n t with
    | none => .refuse (badParam dNoMessage)
    | some (ch, k, remote) =>
      let s := dropStaged n t s
      let s := threadMod n t (fun th => { th with abandoned := some (if remote then 256 + ch else ch) }) s
      let s := notice n t 5 (noticeBytes s n t 5 0 0 0 0xFFFF 0 ch) s
      .ok [byte k] (raise 0x2807 (corePlace s n t) [t, ch, k] s)

def execDbgAbandonMessage (c : Cmd) (s : State) : Res := .next (runCmd opDbgAbandonMessage c s)

/-- DBG_OBSERVE changes no state of the thread (R408). -/
def opDbgObserve : Op := mkDbg 0x4004 5 [] false fun n t _ s =>
  let th := threadOf s n t
  .ok ([byte (thCode th.st), byte th.cause] ++ le 2 th.object ++ le 8 th.pc.toNat ++ le 4 th.instret) s

def execDbgObserve (c : Cmd) (s : State) : Res := .next (runCmd opDbgObserve c s)

def opDbgReadReg : Op := mkDbg 0x4005 6 [] true fun n t c s =>
  let th := threadOf s n t
  let r := c.prm 5 1
  if r == 0 || 32 ≤ r then .refuse (badParam dRange)
  else if th.st != .halted then .refuse (badParam dNotHalted)
  else .ok (le 8 (regGet th r).toNat) s

def execDbgReadReg (c : Cmd) (s : State) : Res := .next (runCmd opDbgReadReg c s)

/-! ## Sessions (R623-R625) -/

/-- Does R624 permit the signer, and the kind, in the present state? -/
def signerPermitted (s : State) (signer : Nat) : Bool :=
  match s.boot.lifecycle with
  | .manufacturing => signer == 1
  | .returned => signer == 1
  | .provisioned => signer == 1 || signer == 2
  | .deployed => signer == 2
  | _ => false

def kindPermitted (s : State) (kind : Nat) : Bool :=
  if s.boot.lifecycle == .deployed then kind == 2 else kind == 1 || kind == 2

/-- DBG_OPEN (R623, R625). The verdict on the token's signature is the verifier's. -/
def opDbgOpen : Op :=
  { mkOp 0x4006 2 [] .package (fun c s =>
      let tok := c.prmBytes 2 120
      let kind := rd tok 2 1
      let signer := rd tok 3 1
      if c.prm 0 2 != 120 || rd tok 0 2 != 1 || rd tok 20 4 != 0 then .refuse (badParam dFormat)
      else if !signerPermitted s signer || !Config.verifies (16 + signer) tok || rd tok 4 8 != Config.packageSerial.toNat then
        .refuse (denied dSignature)
      else if !kindPermitted s kind then .refuse (rep stLifecycle dState)
      else if rd tok 12 4 ≤ now32 s || rd tok 16 4 ≤ s.boot.tokenSeq then .refuse (badParam dRange)
      else if 4 ≤ s.boot.sessions.length then .refuse (noResource 0)
      else
        let k := s.boot.nextSession
        let x : Session := { queue := c.queue, kind := kind, seq := rd tok 16 4, notAfter := rd tok 12 4 }
        let s := { s with boot := { s.boot with
          sessions := tput s.boot.sessions k x, nextSession := k + 1, tokenSeq := x.seq } }
        .ok (le 4 k) (raise 0x4006 b0Place [k, kind, x.seq] (toFlash 9 0 (le 4 x.seq) s)))
    with need := fun p => 2 + counted 120 120 (rd p 0 2), life := dbgLife }

def execDbgOpen (c : Cmd) (s : State) : Res := .next (runCmd opDbgOpen c s)

/-- DBG_CLOSE: a session of the queue. -/
def opDbgClose : Op :=
  { mkOp 0x4007 4 [] .package (fun c s =>
      match tget s.boot.sessions (c.prm 0 4) with
      | some x => if x.queue == c.queue then .ok [] (closeSession (c.prm 0 4) 1 s) else .refuse (denied dProtection)
      | none => .refuse (badParam dNoEntry))
    with life := dbgLife }

def execDbgClose (c : Cmd) (s : State) : Res := .next (runCmd opDbgClose c s)

/-- DEBUG_TOKEN_EXPIRY (R625): session `k` has reached its not_after. -/
def execDebugTokenExpiry (k : Nat) (s : State) : Res := .next (closeSession k 2 s)

/-- OOB_ENDPOINT_LOSS (R450): the endpoint of out-of-band queue `q` is lost. -/
def execOobEndpointLoss (q : Nat) (s : State) : Res :=
  onElem (decide (q < 4)) (closeSessionsOf (.oob q) 3 (stageOwnerLost (.oob q) (queueLost (.oob q) s)))

end Sys2Proof.Machine
end

