-- ==== Sys2Proof/Machine/HostLinks.lean ====
section
/-! DEFINITION. Host links: training and power, resets of functions and links, reads and their completions, windows, INTx
(R271-R299). -/

namespace Sys2Proof.Machine

/-! ## AER (R294, R301) -/

/-- Class words of HOST_AER and status words of the uncorrectable errors as PCI Express numbers them (assumption 19). -/
def aerNonFatal : Nat := 2
def aerFatal : Nat := 3
def aerTimeout : Nat := 2 ^ 14
def aerAbort : Nat := 2 ^ 15
def aerUnexpected : Nat := 2 ^ 16
def aerPoisoned : Nat := 2 ^ 12
def aerMalformed : Nat := 2 ^ 18
def aerInternal : Nat := 2 ^ 22

def aerUnsupported : Nat := 2 ^ 20
/-- The advisory non-fatal bit of the correctable error status. -/
def aerAdvisory : Nat := 2 ^ 13

/-- Has an error a header to log: every one that a received or sent packet showed, not a timeout or an internal error? -/
def aerHasHeader (status : Nat) : Bool := status != aerTimeout && status != aerInternal

/-- AER logs an uncorrectable error: its status bit, and for the first its bit number and the header of the packet, an open value
(R271, R294). -/
def logAer (f : Fn) (status : Nat) (s : State) : State :=
  let (h, s) := drawFree s
  funcMod f (fun g =>
    let first := g.aerStatus == 0
    { g with
      aerStatus := if bit g.aerStatus (Nat.log2 status) then g.aerStatus else g.aerStatus + status
      aerFirst := if first then Nat.log2 status else g.aerFirst
      aerHeader := if first && aerHasHeader status then h else g.aerHeader }) s

/-- A non-fatal or fatal report of a function. -/
def reportAer (f : Fn) (cls status : Nat) (s : State) : State :=
  raiseFn 0x1808 f [fnRef f, cls, status] (toHost f (.aer f cls status) (logAer f status s))

/-- An advisory non-fatal report, sent as correctable: no HOST_AER (R294). -/
def reportAdvisory (f : Fn) (status : Nat) (s : State) : State :=
  toHost f (.aer f 1 status)
    (funcMod f (fun g => { g with aerCorr := if bit g.aerCorr 13 then g.aerCorr else g.aerCorr + aerAdvisory }) (logAer f status s))

/-- The PF0 of a link or half. -/
def pf0 (link half : Nat) : Fn := { link := link, half := half, pool := 0, num := 0 }

/-! ## Functions of a link -/

/-- The functions a link or half has now: both PFs and their VFs. -/
def linkFns (s : State) (link half : Nat) : List Fn :=
  [0, 1].flatMap fun p =>
    let pf : Fn := { link := link, half := half, pool := p, num := 0 }
    pf :: (span 1 (poolN s pf)).map fun v => { pf with num := v }

/-- Queues of a function. -/
def queuesOf (f : Fn) : List QueueId :=
  if f.num == 0 then (span 0 16).map fun q => .pf f.link f.half f.pool q else [.vf f.link f.half f.pool f.num]

/-! ## Enabling VFs: shares (R303-R307) -/

/-- PBA bits of entries at or above the vector share stay zero (R288). -/
def clearPba (f : Fn) (s : State) : State :=
  let v := shareV s f
  funcMod f (fun g => { g with msix := tmap g.msix fun i e => if v ≤ i then { e with pending := false } else e }) s

/-- PF queue pairs at or above the new share are disabled; VF_SHARES_SET and VF_PF_QP_CUT (R307). The queue-pair range of the directory
follows (R282). -/
def sharesSet (f : Fn) (s : State) : State :=
  let pf := pfOf f
  let s := dirChanged (clearPba pf s)
  let s := raiseFn 0x1C01 pf [f.half, f.pool, poolN s f, shareQ s f, shareV s f] s
  let cut := (funcOf s pf).qps.filter fun e => decide (shareQ s f ≤ e.1) && (e.2.st == 1 || e.2.st == 3)
  if cut.isEmpty then s
  else raiseFn 0x1C02 pf [f.half, f.pool, cut.length] (cut.foldl (fun s e => qpCut pf e.1 s) s)

/-- VF Enable takes effect: NumVFs VFs start in DISABLED (R303, R310). -/
def vfsAppear (f : Fn) (s : State) : State :=
  let pf := pfOf f
  let s := funcMod pf (fun g => { g with vfEnable := true, vfDeferred := false }) s
  let s := (span 1 (poolN s pf)).foldl (fun s v =>
    funcMod { pf with num := v } (fun g => { reads := g.reads, vf := .disabled }) s) s
  sharesSet pf s

/-! ## Reset of a function (R298, R313, R358) -/

/-- Commands owed about a function end with its reset. -/
def endOwed (f : Fn) (s : State) : State :=
  (s.cmd.owed.filter fun o => (o.opcode / 1024 == 7 && o.key == fnKey f) || (o.opcode == 0x2004 && o.key / 512 == fnKey f)).foldl
    (fun s o => finish o (aborted 0) s) s

/-- Tags that the device gives up: all of the function's, held until completion or timeout. -/
def abandon (l : List Read) : List Read := l.map fun r => { r with st := 2 }

/-- The function's queues, channels, queue pairs, sessions, mailbox ends and NVMe controller are cut; every register returns to its
After reset value. -/
def resetFn (f : Fn) (s : State) : State :=
  let g := funcOf s f
  let s := (g.qps.filter fun e => e.2.st == 1 || e.2.st == 3).foldl (fun s e => qpCut f e.1 s) s
  let s := (channelsOf s fun d => d.ownerKind == 0 && d.owner == f && chActive d).foldl (fun s k => chDisable k s) s
  let s := (queuesOf f).foldl (fun s q => closeSessionsOf q 3 (stageOwnerLost q (queueLost q s))) s
  let s := if f.num == 0 then mbxResetEnds (pfCode f) true s else s
  let s := stoMod (fun x => { x with nvme := tdel x.nvme (fnKey f) }) (orphanCmds (.controller f) s)
  let s := endOwed f (if f.num == 0 && intxOn g then toHost f (.intx f false) s else s)
  funcMod f (fun g => { reads := abandon g.reads, resetting := true, vf := .reset
                        aerStatus := g.aerStatus, aerCorr := g.aerCorr, aerFirst := g.aerFirst, aerHeader := g.aerHeader
                        vfDeferred := false, numVfs := if f.num == 0 then 0 else g.numVfs }) s

/-- VF Enable of a PF clears: every VF is reset and disappears; the shares change (R307, R310). -/
def clearVfs (f : Fn) (s : State) : State :=
  let pf := pfOf f
  if !(funcOf s pf).vfEnable then s
  else
    let s := (span 1 (poolN s pf)).foldl (fun s v => resetFn { pf with num := v } s) s
    sharesSet pf (funcMod pf (fun g => { g with vfEnable := false }) s)

/-- A function-level reset (R298). -/
def flr (f : Fn) (s : State) : State :=
  let n := ((funcOf s f).reads.filter fun r => r.st != 2).length
  let s := if f.num == 0 then clearVfs f s else s
  raiseFn 0x1805 f [fnRef f, n] (resetFn f s)

/-- FUNCTION_LEVEL_RESET (R298). -/
def execFunctionLevelReset (f : Fn) (s : State) : Res := onElem (fnExists s f) (flr f s)

/-- Are VFs of an earlier VF Enable still being reset (R304)? -/
def vfsResetting (s : State) (f : Fn) : Bool :=
  (span 1 128).any fun v => (funcOf s { pfOf f with num := v }).resetting

/-- FLR_COMPLETE (R298, R304, R310): the reset of a function has ended; a deferred VF Enable follows the last. -/
def execFlrComplete (f : Fn) (s : State) : Res :=
  onElem (halfExists s f.link f.half && decide (f.pool < 2) && decide (f.num ≤ 128))
    (if !(funcOf s f).resetting then s
     else
       let s := funcMod f (fun g => { g with resetting := false, vf := .disabled }) s
       let s := if f.num == 0 then mbxRelease (pfCode f) s else s
       if (funcOf s (pfOf f)).vfDeferred && !vfsResetting s f then vfsAppear f s else s)

/-! ## Links (R273, R291-R293, R299) -/

/-- The link or half goes down: every function is reset (R299). -/
def linkReset (link half cause : Nat) (s : State) : State :=
  let s := (linkFns s link half).foldl (fun s f => if f.num == 0 then flr f s else s) s
  let s := linkMod link half (fun _ => {}) s
  raiseFn 0x1802 (pf0 link half) [half, cause] s

/-- HOST_LINK_TRAINED (R273): rate in GT/s, width, flit mode. -/
def execHostLinkTrained (link half rate width : Nat) (flit : Bool) (s : State) : Res :=
  onElem (halfExists s link half)
    (let low := rate < 64 || width < (if isBifurcated s link then 8 else 16)
     let s := linkMod link half (fun x => { x with up := true, rate := rate, width := width, flit := flit, degraded := low, narrow := false, inL1 := false }) s
     let s := raiseFn 0x1801 (pf0 link half) [half, rate, width, b2n flit] s
     if low then raiseFn 0x1803 (pf0 link half) [half, rate, width] s else s)

/-- PERST_ASSERT (R299, R633). -/
def execPerstAssert (link half : Nat) (s : State) : Res :=
  onElem (halfExists s link half)
    (let s := { s with power := { s.power with perstHigh := tput s.power.perstHigh (linkKey link half) false } }
     linkReset link half 1 s)

/-- PERST_DEASSERT (R273, R633, R634): the link may train; that is a row of its own. -/
def execPerstDeassert (link half : Nat) (s : State) : Res :=
  onElem (halfExists s link half)
    { s with power := { s.power with perstHigh := tput s.power.perstHigh (linkKey link half) true } }

def execHotReset (link half : Nat) (s : State) : Res := onElem (halfExists s link half) (linkReset link half 2 s)

def execHostLinkLoss (link half : Nat) (s : State) : Res := onElem (halfExists s link half) (linkReset link half 3 s)

/-- HOST_FATAL_ERROR (R294): reported, the link retrained and the functions reset. -/
def execHostFatalError (link half status : Nat) (s : State) : Res :=
  onElem (halfExists s link half) (linkReset link half 4 (reportAer (pf0 link half) aerFatal status s))

/-- L0P_NARROW (R291): L0p is enabled and traffic has stayed low for 100 µs; the device asks for a quarter of the width unless more than 64
reads are outstanding. -/
def execL0pNarrow (link half : Nat) (s : State) : Res :=
  onElem (halfExists s link half)
    (let x := linkOf s link half
     if x.up && x.l0pEnable && readsOut s link half ≤ 64 then linkMod link half (fun x => { x with narrow := true }) s else s)

/-- L0P_PARTNER_REQUEST (R291): with L0p enabled every request of the partner is accepted. -/
def execL0pPartnerRequest (link half : Nat) (narrow : Bool) (s : State) : Res :=
  onElem (halfExists s link half)
    (let x := linkOf s link half
     if x.up && x.l0pEnable then linkMod link half (fun x => { x with narrow := narrow }) s else s)

/-- Packets wait in the delivery queues of a host link. -/
def linkQueued (s : State) (link half : Nat) : Bool :=
  s.buf.queues.any fun e => e.2.any fun c => match c.dest with
    | .host f _ => f.link == link && f.half == half
    | _ => false

/-- Has a function a doorbell not yet acted on to its tail: of a running queue pair, an enabled command queue or a submission queue of its
NVMe controller (R292)? -/
def doorbellOpen (s : State) (f : Fn) : Bool :=
  let g := funcOf s f
  let n := nvmeOf s f
  (fnRuns s f && g.qps.any fun e => e.2.st == 1 && e.2.txHead != e.2.txTail) ||
  (g.queues.any fun e => bit e.2.cfg 0 && !e.2.error && e.2.head != e.2.tail) ||
  (n.ready && n.sqs.any fun e => e.2.head != e.2.tail)

/-- ASPM_L1_ENTRY (R292): ASPM L1 is enabled and 32 µs have passed without a TLP; not with a read outstanding, a doorbell not acted on or a
delivery queued. -/
def execAspmL1Entry (link half : Nat) (s : State) : Res :=
  onElem (halfExists s link half)
    (let x := linkOf s link half
     if x.up && x.l1Enable && readsOut s link half == 0 && !linkQueued s link half && !(linkFns s link half).any (doorbellOpen s) then
       linkMod link half (fun x => { x with inL1 := true }) s
     else s)

/-- POWER_STATE_CHANGE (R293): D3hot or D0. A function that returns to D0 keeps its state: what D3hot held then leaves, and its queue pairs
go on. -/
def execPowerStateChange (f : Fn) (d3 : Bool) (s : State) : Res :=
  onElem (fnExists s f)
    (let s := funcMod f (fun g => { g with d3 := d3 }) s
     if d3 then s else serveLink f.link f.half (resumeIssue f s))

/-! ## Bus Master Enable (R297, R310, R312) -/

/-- A VF with enable set and Bus Master Enable set leaves DISABLED (R310). -/
def vfActivate (f : Fn) (s : State) : State :=
  let g := funcOf s f
  if f.num != 0 && g.vf == .disabled && bit g.ctrl 0 && g.bme && !g.resetting then
    funcMod f (fun g => { g with vf := .active }) s
  else s

def execBusMasterEnableClear (f : Fn) (s : State) : Res :=
  onElem (fnExists s f)
    (let g := funcOf s f
     if !g.bme then funcMod f (fun g => { g with bmePending := false }) s
     else
       let n := (g.reads.filter fun r => r.st == 0).length
       let busy := g.qps.filter fun e => readPending s f (.qpTx e.1)
       let s := (channelsOf s fun d => d.ownerKind == 0 && d.owner == f && chActive d).foldl (fun s k => chAbort k 7 s) s
       let s := busy.foldl (fun s e => qpError f e.1 3 (countQp f e.1 7 1 s)) s
       let s := funcMod f (fun g => { g with bme := false, bmePending := false, reads := g.reads.map fun r => { r with st := max 1 r.st } }) s
       let s := if 0 < n then raiseFn 0x1806 f [fnRef f, n] s else s
       serveLink f.link f.half s)

def setBme (f : Fn) (s : State) : State := vfActivate f (resumeIssue f (funcMod f (fun g => { g with bme := true, bmePending := false }) s))

def execBusMasterEnableSet (f : Fn) (s : State) : Res :=
  onElem (fnExists s f)
    (if f.num != 0 && (funcOf s f).vf == .shuttingDown then funcMod f (fun g => { g with bmePending := true }) s
     else setBme f s)

/-! ## Completions of device reads (R294-R298) -/

def dropRead (f : Fn) (tag : Nat) (s : State) : State :=
  funcMod f (fun g => { g with reads := g.reads.filter fun r => r.tag != tag }) s

/-- What a read that failed ends: the channel that issued it, its queue pair with an error completion, its command queue
(R296). -/
def readFailed (f : Fn) (r : Read) (chState cause status : Nat) (s : State) : State :=
  match r.use with
  | .channel k => chAbort k chState s
  | .qpTx n =>
    let q := qpOf s f n
    let s := countQp f n 7 1 s
    let s := writeCompletion f n (completionEntry (q.txHead % qpTxSize q) 0 1 status 0 0 0 0 [] 0 0) s
    qpSignal f n (qpError f n cause s)
  | .qpRx n => qpError f n cause (countQp f n 7 1 s)
  | .cmdQueue q => cqError f q 2 s
  | .other => s

/-- Queue pair of a read, 0xFFFF where it is of none. -/
def readQp (r : Read) : Nat :=
  match r.use with
  | .qpTx n => n
  | .qpRx n => n
  | _ => 0xFFFF

/-- COMPLETION_TIMEOUT (R296-R298): the read with the tag is not completed in time. -/
def execCompletionTimeout (f : Fn) (tag : Nat) (s : State) : Res :=
  .next (match (funcOf s f).reads.find? fun r => r.tag == tag with
    | none => s
    | some r =>
      let s := dropRead f tag s
      let s := if r.st != 0 then s
        else reportAer f aerNonFatal aerTimeout (raiseFn 0x1804 f [fnRef f, readQp r, tag] (readFailed f r 6 2 2 s))
      serveLink f.link f.half s)

/-- The effect of a completion of a read in flight: status 0 successful, 1 Unsupported Request, 2 Completer Abort, 3 poisoned. -/
def readDone (f : Fn) (r : Read) (status : Nat) (data : Bytes) (s : State) : State :=
  if status != 0 then
    reportAer f aerNonFatal (if status == 3 then aerPoisoned else if status == 2 then aerAbort else aerUnsupported) (readFailed f r 8 5 6 s)
  else match r.use with
    | .channel k => dmaMod k (fun d => { d with landed := d.landed ++ fitTo r.len data }) s
    | _ => s

/-- HOST_COMPLETION_RECEIVED (R294, R296-R298): one with a tag that no read holds is unexpected, one for a quarantined tag is dropped
silently. -/
def execHostCompletionReceived (f : Fn) (tag status : Nat) (data : Bytes) (s : State) : Res :=
  onElem (fnExists s f)
    (match (funcOf s f).reads.find? fun r => r.tag == tag with
     | none => reportAdvisory f aerUnexpected s
     | some r =>
       let s := dropRead f tag s
       serveLink f.link f.half (if r.st != 0 then s else readDone f r status data s))

/-! ## BAR0 and INTx (R278, R289) -/

/-- A completion of a function with a status: 0 successful, 1 Unsupported Request, 2 Completer Abort. -/
def complete (f : Fn) (status : Nat) (data : Bytes) (s : State) : State := toHost f (.completion (linkKey f.link f.half) status data) s

/-- An access that the device does not support: a read completes with Unsupported Request, a write is dropped and reported (R278, R294). -/
def unsupported (f : Fn) (write : Bool) (s : State) : State :=
  if write then reportAdvisory f aerUnsupported s else complete f 1 [] s

/-- BAR0_UNSUPPORTED_ACCESS (R278). -/
def execBar0UnsupportedAccess (f : Fn) (write : Bool) (s : State) : Res := onElem (fnExists s f) (unsupported f write s)

/-- PF_INTX_CAUSE_READ (R289): the cause bits are returned and cleared, and the pin deasserted. -/
def execPfIntxCauseRead (f : Fn) (s : State) : Res :=
  onElem (fnExists s f && f.num == 0)
    (let g := funcOf s f
     let s := emit (.readValue 0x108 g.intxCause) (funcMod f (fun g => { g with intxCause := 0 }) s)
     if intxOn g then toHost f (.intx f false) s else s)

/-! ## Windows (R284-R287) -/

/-- Does an entry's range have a misaligned base, or a kind the protection map does not grant (R287)? -/
def winRefuses (s : State) (f : Fn) (e : Nat) : Bool :=
  let k := s.host.winLog2
  let base := fld e 12 36 * 4096
  bit e 0 && (base % 2 ^ k != 0 ||
    (bit e 1 && !rangeGrants s (pfCode f) base (2 ^ k) false) || (bit e 2 && !rangeGrants s (pfCode f) base (2 ^ k) true))

/-- WIN_COMMIT (R286, R287): all selected windows or none. -/
def execWinCommit (f : Fn) (mask : Nat) (s : State) : Res :=
  onElem (fnExists s f && f.num == 0)
    (let g := funcOf s f
     let sel := (List.range 64).filter fun n => bit mask n
     if g.winBusy then s
     else match sel.find? fun n => winRefuses s f (tgetD g.shadow n 0) with
       | some n => funcMod f (fun g => { g with winRefused := true, winFirst := n }) s
       | none => funcMod f (fun g => { g with
           winBusy := true, winRefused := false, winFirst := 0
           active := sel.foldl (fun a n => tput a n (tgetD g.shadow n 0)) g.active }) s)

/-- WIN_COMMIT_COMPLETE (R286): every write translated under the old versions has been delivered. -/
def execWinCommitComplete (f : Fn) (s : State) : Res :=
  onElem (fnExists s f && f.num == 0) (funcMod f (fun g => { g with winBusy := false }) s)

end Sys2Proof.Machine
end

