-- ==== Sys2Proof/Machine/Macsec.lean ====
section
/-! DEFINITION. MACsec in a port's MAC: securing a transmitted frame and the SecY checks of a received one (R208, R211-R215, R236; the
checks and counters as IEEE 802.1AE-2018 gives them, PRESUMED, assumption 24). -/

namespace Sys2Proof.Machine

def macsecCfg (s : State) (p : Nat) : Nat := portNow s p 0x100
/-- validate: 0 disabled, 1 check, 2 strict. -/
def secValidate (s : State) (p : Nat) : Nat := min 2 (fld (macsecCfg s p) 4 2)
/-- Bytes of user data that stay in clear at the front. -/
def confOffset (s : State) (p : Nat) : Nat := match fld (macsecCfg s p) 6 2 with | 1 => 30 | 2 => 50 | _ => 0
def secCount (p n k : Nat) (s : State) : State := mkaMod p (fun m => { m with cnt := tadd m.cnt n k }) s

/-! ## Transmit (R211, R214, R215) -/

/-- The SecTAG: TCI and AN, short length, packet number, SCI when included. -/
def secTag (s : State) (p an pn n : Nat) : Bytes :=
  let conf := bit (macsecCfg s p) 9
  let sci := bit (macsecCfg s p) 8
  be 2 0x88E5 ++ [byte (an + (if conf then 0x0C else 0) + (if sci then 0x20 else 0)), byte (if n < 48 then n else 0)] ++
  be 4 (pn % 2 ^ 32) ++ (if sci then be 8 (portSci s p) else [])

/-- The secured frame of a transmit SA and packet number. -/
def secured (s : State) (p an pn : Nat) (b : Bytes) : Bytes :=
  let u := b.drop 12
  let clear := if bit (macsecCfg s p) 9 then min (confOffset s p) u.length else u.length
  let sak := (tgetD (mkaOf s p).tx an { pn := 1 }).key
  let aad := sak ++ be 8 (portSci s p) ++ [byte an, byte (mkaOf s p).suite] ++ be 8 pn ++ b
  let n := u.length - clear
  let out := cipher aad (n + 16)
  b.take 12 ++ secTag s p an pn (n + clear) ++ u.take clear ++ out

/-- The transmit SA has used a packet number: the last closes the controlled port, the threshold asks for a new SAK (R214, R215). -/
def pnUsed (p pn : Nat) (s : State) : State :=
  let m := mkaOf s p
  let s := mkaMod p (fun m => { m with tx := tmod m.tx m.txAn { pn := 1 } fun a => { pn := pn + 1, spent := pn == pnLast m.suite } }) s
  let s := if pn + 1 == pnThreshold m.suite then (if m.keyServer then distributeSak p s else mkaSend p s) else s
  if pn == pnLast m.suite then secureLost p 2 s else s

/-- The transmit SA of the port has sent its last PN (R215). -/
def pnSpent (s : State) (p : Nat) : Bool :=
  let m := mkaOf s p
  secRequired s p && (tgetD m.tx m.txAn { pn := 1 }).spent

/-- A frame goes out; the transmit FIFO underruns under it or not. An underrun ends it with an invalid FCS and counts it as that alone
(R71, R108; that it is then no transmitted frame of counters 24 to 27 is a DESIGN CHOICE, assumption 55). -/
def macFrame (p : Nat) (under : Bool) (b : Bytes) (s : State) : State :=
  if under then emit (.badFrame p b) (countPort p 30 1 (portMod p (fun x => { x with syncTx := x.syncTx + 1 }) s)) else macSend p b s

/-- A frame of the controlled port leaves: secured where the port requires it (R89, R211). `limit` is max_frame of its epoch. -/
def secureSend (p limit : Nat) (under : Bool) (b : Bytes) (s : State) : State :=
  if !secRequired s p then (if macUp s p then macFrame p under b s else s)
  else
    let m := mkaOf s p
    let a := tgetD m.tx m.txAn { pn := 1 }
    if a.spent then secCount p 6 1 s
    else if !portOpen s p || !macUp s p then countPort p 31 1 s
    else
      let f := secured s p m.txAn a.pn b
      if limit < f.length + 4 then secCount p 5 1 s
      else
        let n := b.length - 12
        let s := if bit (macsecCfg s p) 9 then secCount p 3 n (secCount p 1 1 s) else secCount p 2 n (secCount p 0 1 s)
        pnUsed p a.pn (macFrame p under f s)

/-- The SAK of a port fails its integrity check: reported, and the controlled port closes until a CAK is installed again (R207, R216). -/
def sakFault (p : Nat) (s : State) : State :=
  raise 0x1007 (macPlace p) [3, p] (mkaMod p (fun m => { m with keyFault := true }) (secureLost p 5 s))

/-- Does the port use a SAK now? -/
def usesSak (s : State) (p : Nat) : Bool := secRequired s p && (portGet s p).secured

/-! ## Receive (R212, R215) -/

/-- How the SecY ends with a frame. -/
inductive SecEnd where
  /-- Delivered to the controlled port, with its user data. -/
  | pass (b : Bytes) (s : State)
  | drop (s : State)

/-- The 64-bit packet number that 32 received bits stand for, given the next expected one. -/
def xpnOf (next low : Nat) : Nat :=
  let hi := next / 2 ^ 32
  if low + 2 ^ 31 < next % 2 ^ 32 then (hi + 1) * 2 ^ 32 + low else hi * 2 ^ 32 + low

/-- A frame that fails a check in strict mode or is encrypted is discarded; otherwise it is delivered without its SecTAG (R212). -/
def secUnlessStrict (p strictCnt laxCnt : Nat) (enc : Bool) (clear : Bytes) (s : State) : SecEnd :=
  if secValidate s p == 2 || enc then .drop (secCount p strictCnt 1 s) else .pass clear (secCount p laxCnt 1 s)

/-- The SecY checks of a received frame; `icvOk` and `plain` are what the cited cipher finds: whether the ICV verifies, and the user data. -/
def secReceive (p : Nat) (b : Bytes) (icvOk : Bool) (plain : Bytes) (s : State) : SecEnd :=
  let m := mkaOf s p
  if rdN b 12 2 != 0x88E5 then
    (if secValidate s p == 2 then .drop (secCount p 8 1 s) else .pass b (secCount p 7 1 s))
  else
    let tci := rdN b 14 1
    let sl := rdN b 15 1
    let low := rdN b 16 4
    let sc := bit tci 5
    let hl := if sc then 16 else 8
    let enc := bit tci 2
    let user := b.length - 12 - hl - 16
    let clear := b.take 12 ++ (b.drop (12 + hl)).take user
    if bit tci 7 || ((bit tci 6 || bit tci 4) && sc) || 48 ≤ sl || (low == 0 && !isXpn m.suite) || b.length < 12 + hl + 16 ||
        (sl != 0 && user < sl) || (enc && !bit tci 3) then .drop (secCount p 9 1 s)
    else
      let ch := if sc then (m.rxSci.find? fun e => e.2 == rdN b 20 8).map fun e => e.1 else m.rxSci.head?.map fun e => e.1
      match ch with
      | none => secUnlessStrict p 10 10 enc clear s
      | some ch =>
        let k := 4 * ch + fld tci 0 2
        match tget m.rx k with
        | none => secUnlessStrict p 16 17 enc clear s
        | some a =>
          let pn := if isXpn m.suite then xpnOf a.pn low else low
          if a.spent then secUnlessStrict p 16 17 enc clear s
          else if pn + fld (portNow s p 0x104) 0 16 < a.pn then .drop (secCount p 12 1 s)
          else if secValidate s p == 0 then .pass clear (secCount p 11 1 s)
          else if !icvOk then secUnlessStrict p 15 14 enc clear s
          else
            let s := mkaMod p (fun m => { m with rx := tput m.rx k { pn := max a.pn (pn + 1), spent := pn == pnLast m.suite } }) s
            .pass (b.take 12 ++ plain) (secCount p 13 1 (secCount p (if enc then 19 else 18) plain.length s))

/-! ## LACP (R199, R590) -/

/-- The group of the current epoch that a local port belongs to. -/
def lagOf (s : State) (p : Nat) : Option Nat :=
  (s.tbl.lags.find? fun e => (versionAt e.2 (curEpoch s)).any fun v => v.members.contains (p, s.flash.package)).map fun e => e.1

/-- Are Synchronization, Collecting and Distributing set: in ALONE, PROTECTED and SOLE, and not while the work is handed over
(R590, R598)? -/
def lacpFlags (s : State) : Bool :=
  (s.twin.state == .alone || s.twin.state == .protectedSt || s.twin.state == .sole) && s.twin.handover != 1

/-- The LACPDU of a port in a group: actor, partner as last received, collector, terminator (IEEE 802.1AX, PRESUMED). -/
def lacpdu (s : State) (p g : Nat) : Bytes :=
  let (sys, key, y) := (portGet s p).lacp.getD (0, 0, { prio := 0, num := 0, state := 0 })
  [1, 1, 1, 20] ++ be 8 Config.lacpSystem.toNat ++ be 2 (Config.lacpKey g).toNat ++ be 2 0x8000 ++ be 2 (p + 1 + 1024 * s.flash.package) ++
  [byte (7 + (if lacpFlags s then 0x38 else 0))] ++ [0, 0, 0] ++
  [2, 20] ++ be 8 sys ++ be 2 key ++ be 2 y.prio ++ be 2 y.num ++ [byte y.state] ++ [0, 0, 0] ++
  [3, 16] ++ List.replicate 14 0 ++ List.replicate 52 0

def lacpSend (p : Nat) (s : State) : State :=
  match lagOf s p with
  | some g => secureSend p (maxFrame s p) false (ownHeader s p 0x0180C2000002 0x8809 ++ lacpdu s p g) s
  | none => s

/-- A port whose controlled port has just opened tells its LACP partner; `was` says whether it was open (R199; the moment is IEEE 802.1AX's,
PRESUMED, assumption 24). -/
def lacpStart (p : Nat) (was : Bool) (s : State) : State := if !was && portOpen s p then lacpSend p s else s

/-! ## Rows that open the controlled port (R78, R89) -/

/-- LOCK_HOLD_EXPIRY (R78). -/
def execLockHoldExpiry (p : Nat) (s : State) : Res :=
  onPort p s
    (let x := portGet s p
     if x.st == .settling && x.lock.isSome && !hasFault x && !x.fecWait then lacpStart p false (linkUp p s) else s)

/-- MKPDU_RECEIVED (R209): a PDU on a port, whose ICV is valid or not. -/
def execMkpduReceived (p : Nat) (valid : Bool) (d : Mkpdu) (s : State) : Res :=
  onPort p s
    (if (portGet s p).st != .up then s
     else
       let was := portOpen s p
       let s := mkaMod p (fun m => { m with cnt := tadd m.cnt 20 1 }) s
       if !valid || (mkaOf s p).cak.isNone then mkaMod p (fun m => { m with cnt := tadd m.cnt 22 1 }) s
       else if runsMka s p then lacpStart p was (withCak p (mkpduApply p d) s) else s)

end Sys2Proof.Machine
end

