-- ==== Sys2Proof/Machine/TwinOps.lean ====
section
/-! DEFINITION. The twin pair: LACP flags, changes of the twin state, verdicts, loss of the link, handover (R222, R264, R449, R586,
R590-R599). -/

namespace Sys2Proof.Machine

def twinMod (f : TwinS → TwinS) (s : State) : State := { s with twin := f s.twin }

def t0Unit (u : Nat) : Nat := mkPlace 0 1 30 u

/-! ## LACP (R199, R590) -/

/-- An LACPDU on each port that is UP, and the buckets again. -/
def lacpAll (s : State) : State :=
  refillGroups (s.ports.foldl (fun s e => if e.2.st == .up then lacpSend e.1 s else s) s)

/-! ## Changes of state (R592-R600, R605) -/

/-- The twin state changes, for a cause of R605; LACPDUs follow on every port. -/
def setTwin (st : TwinState) (cause : Nat) (s : State) : State :=
  let old := s.twin.state
  let s := twinMod (fun t => { t with state := st, since := now32 s }) s
  lacpAll (raise 0x3801 t0Place [twinCode old, twinCode st, cause] s)

/-! ## Keys (R205-R207, R588) -/

def cryMod (f : CryS → CryS) (s : State) : State := { s with cry := f s.cry }

/-- The key store, unit 1 of B0 (R204). -/
def keyStorePlace : Nat := mkPlace 0 1 29 1

/-- A use of a key encryption key, whose integrity check is a free value (assumption 70): none where the slot is empty or the key is
unusable; one that fails is reported, and stays unusable until it is loaded again (R207). -/
def useKek (slot : Nat) (s : State) : Option Bytes × State :=
  match tget s.cry.keks slot with
  | none => (none, s)
  | some k =>
    if k.faulty then (none, s)
    else if Config.keyIntact s.freeIx then (some k.key, { s with freeIx := s.freeIx + 1 })
    else (none, raise 0x1007 keyStorePlace [1, slot]
      (cryMod (fun x => { x with keks := tput x.keks slot { k with faulty := true } }) { s with freeIx := s.freeIx + 1 }))

/-- A 64-byte message to the witness: kind 1 report, 2 claim (R593). -/
def witnessBytes (s : State) (key : Bytes) (kind : Nat) : Bytes :=
  let b := le 4 0x5457574C ++ [1, byte s.flash.system, byte s.flash.package, byte kind] ++ le 8 s.twin.witSent ++
    le 4 (curEpoch s) ++ [byte (twinCode s.twin.state)] ++ List.replicate 27 0
  b ++ cipher (key ++ b) 16

/-- One message on every path to the witness: 1 the management port, 2 and 3 the campus ports (R593). No message leaves under a key that
fails its check; a slot without a key gives an empty one (assumption 70). -/
def witnessSend (kind : Nat) (s : State) : State :=
  let campus := s.twin.witnessPort0 != 0 || s.twin.witnessPort1 != 0
  let paths := (if s.twin.witnessMgmt then [1] else []) ++ (if campus then [2, 3] else [])
  let (k, s) := useKek 63 (twinMod (fun t => { t with witSent := t.witSent + 1 }) s)
  match k with
  | some k => emitAll (paths.map fun n => .witness n (witnessBytes s k kind)) s
  | none => if thas s.cry.keks 63 then s else emitAll (paths.map fun n => .witness n (witnessBytes s [] kind)) s

/-- SUSPECT: the work of the package goes on, a claim goes to the witness (R592). -/
def enterSuspect (s : State) : State :=
  witnessSend 2 (setTwin .suspect 1 (countTwin 2 1 (twinMod (fun t => { t with claimOut := true }) s)))

/-- Joint commands when the twin is declared lost: they complete on this package with TWIN_LOST; one forwarded to the twin alone ends
with TWIN_ABSENT (R448, R449). -/
def jointTwinLost (s : State) : State :=
  s.cmd.joint.foldl (fun s j =>
    if j.only then sendReply j.queue j.tag j.opcode (b2n j.acceptedSent) j.epoch (aborted dTwinAbsent) (dropJoint j.queue j.tag s)
    else closeJoint { j with there := some (rep stOk dTwinLost) } s) s

/-- Outbound SAs go on 2^24 above what the twin may have sent; one without ESN and less than that left is exhausted (R222). -/
def takeOverSas (s : State) : State :=
  { s with cry := { s.cry with sas := tmap s.cry.sas fun k a =>
    if a.inbound then a
    else
      let next := max a.seq (ofLe (tgetD s.cry.mirror k [])) + 2 ^ 24
      if !a.esn && 2 ^ 32 ≤ next then { a with exhausted := true } else { a with seq := next } } }

/-- The fabric dies as targets of a drain. -/
def fabricPaths (s : State) : List Word := (span 1 4).map fun d => pathOf s (diePlace d)

/-- The drain of a handover ends. -/
def undrainFabric (s : State) : State :=
  let f := fabricPaths s
  { s with cmd := { s.cmd with drained := s.cmd.drained.filter fun w => !f.contains w } }

/-- What a verdict, of either kind, ends: the claim, the fix and the stage of the pair, joint commands, mirroring (R264, R449, R474), and a
handover that still drains, as one that finds no PROTECTED pair (R598). -/
def pairSplit (s : State) : State :=
  let s := if s.twin.handover == 1 then undrainFabric (finishKey 0x3803 1 (busy dUnprotected) s) else s
  let s := twinMod (fun t => { t with claimOut := false, joinStep := 0, leads := false, handover := if t.handover == 1 then 0 else t.handover }) s
  let s := { s with flow := { s.flow with deltas := [], lag := 0, resync := false } }
  jointTwinLost (splitStage (fixTwinLost s))

/-- SOLE, for a cause: 2 granted, 4 no verdict, 5 leave received (R595, R596, R598). -/
def enterSole (cause : Nat) (s : State) : State :=
  let s := if cause == 5 then s else countTwin 3 1 s
  takeOverSas (pairSplit (setTwin .sole cause s))

/-- FENCED, for a cause: 3 refused, 4 no verdict (R595, R597). -/
def enterFenced (cause : Nat) (s : State) : State := pairSplit (setTwin .fenced cause (countTwin 4 1 s))

/-! ## The link (R586, R599) -/

def twinLanes (s : State) : Nat := ((List.range 32).filter fun k => s.twin.lanes.getLsbD k).length

/-- The twin link is down: the delta queue goes, a join starts again from its first step (R264, R599). -/
def twinLinkDown (s : State) : State :=
  let s := twinMod (fun t => { t with linkUp := false, version := 0, pairKey := [], joinStep := 0, leads := false }) s
  let s := { s with flow := { s.flow with deltas := [], lag := 0, resync := false } }
  if s.twin.state == .joining then setTwin s.twin.before 1 s else s

/-! ## Handover (R508, R598, R614) -/

/-- Steps 1 and 2 of R598: LACP flags cleared, the twin told, every fabric die drained. -/
def startHandover (s : State) : State :=
  let s := sendTwin (.handover true) (twinMod (fun t => { t with handover := 1 }) s)
  lacpAll { s with cmd := { s.cmd with drained := s.cmd.drained ++ fabricPaths s } }

end Sys2Proof.Machine
end

