-- ==== Sys2Proof/Machine/Mem.lean ====
section
/-! DEFINITION. DDR5: training, scrub, DIMM temperature, loss of a channel, and the MEM registers (R496-R512). -/

namespace Sys2Proof.Machine

def memMod (f : MemS → MemS) (s : State) : State := { s with mem := f s.mem }
def memCh (s : State) (c : Nat) : MemCh := tgetD s.mem.chans c {}
def memChMod (c : Nat) (f : MemCh → MemCh) (s : State) : State := memMod (fun m => { m with chans := tmod m.chans c {} f }) s

/-- Add to counter `n` of a channel (R511). -/
def countMem (c n k : Nat) (s : State) : State := memChMod c (fun x => { x with cnt := tadd x.cnt n k }) s

/-! ## The areas of R501 -/

/-- Offset of the area in which an offset from 0x4000_0000_0000 lies. -/
def memArea (o : Nat) : Nat :=
  if 0x800000000 ≤ o then 0x800000000
  else if 0x400000000 ≤ o then 0x400000000
  else if 0x200000000 ≤ o then 0x200000000
  else if 0x140000000 ≤ o then 0x140000000
  else if 0x120000000 ≤ o then 0x120000000
  else if 0x110000000 ≤ o then 0x110000000
  else if 0x104000000 ≤ o then 0x104000000
  else if 0x100000000 ≤ o then 0x100000000
  else 0

/-! ## Training (R496-R498) -/

/-- DIMMs present. -/
def spdDimms (x : MemSpd) : Nat := b2n x.slot0.isSome + b2n x.slot1.isSome

/-- Capacity and ranks of the channel's DIMMs. -/
def spdKind (x : MemSpd) : Nat × Nat := match x.slot0 with | some (g, r, _) => (g, r) | none => (0, 0)

/-- Causes 1 to 3 of R496, 0 where none applies. -/
def spdCause (x : MemSpd) : Nat :=
  match x.slot0, x.slot1 with
  | none, some _ => 1
  | some (g, r, ok), some (g', r', ok') => if !ok || !ok' then 2 else if g != g' || r != r' then 3 else 0
  | some (_, _, ok), none => if ok then 0 else 2
  | none, none => 0

/-- Speed codes tried for a population (R498): one DIMM 6400, 5600, 4800; two DIMMs 5200, 4800, 4400. -/
def speedTried (x : MemSpd) : Bool := (if spdDimms x == 2 then [3, 2, 1] else [5, 4, 2]).contains x.speed

/-- Exclusion cause of a channel; `ref` is the kind of the reference channel. -/
def memCause (mark : Bool) (ref : Nat × Nat) (x : MemSpd) : Nat :=
  if mark then 6
  else if spdCause x != 0 then spdCause x
  else if spdKind x != ref then 4
  else if !speedTried x then 5
  else 0

/-- The kind of the reference channel: the lowest-numbered one that passes causes 1 to 3. -/
def memRef (l : List MemSpd) : Nat × Nat :=
  match l.find? fun x => spdDimms x != 0 && spdCause x == 0 with
  | some x => spdKind x
  | none => (0, 0)

/-- Population and speed as R642 compares them. -/
def memShape (s : State) : Nat × List (Nat × Nat × Nat) :=
  (s.mem.speed, (memInUse s).map fun c => (c, (memCh s c).dimms, (memCh s c).gib))

/-- The sequence starts at 0 with the first record of this start (R658). -/
def renumberLog (s : State) : State :=
  let old := s.log.base
  let keep := s.log.g0.map fun r => { r with seq := r.seq - old }
  { s with log := { s.log with g0 := keep, next := s.log.next - old, oldest := 0, base := 0 } }

/-- Bed windows and the event log are zeroed; the sequence then starts at 0 with the first record of this start (R642, R658). -/
def zeroKept (s : State) : State :=
  let s := (List.range 32).foldl (fun s b => (List.range 8).foldl (fun s k =>
    let (base, size, _) := bedWindow s b k
    if size == 0 then s else memClear s base size) s) s
  memClear (renumberLog s) logBase (64 * 65536)

/-- MEM_TRAINED: training of every channel has ended, with what each holds (R496-R498, R642). It happens once in a start. -/
def execMemTrained (chs : List MemSpd) (s : State) : Res :=
  .next (if s.mem.trained != [] || !s.boot.romDone then s
    else
      let ref := memRef chs
      let at_ := fun c => chs.getD c { slot0 := none, slot1 := none, speed := 0 }
      let cause := fun c => memCause (memCh s c).mark ref (at_ c)
      let present := (List.range 12).filter fun c => spdDimms (at_ c) != 0
      let good := present.filter fun c => cause c == 0
      let used := if good.length < 3 then [] else good
      let speed := used.foldl (fun m c => if m == 0 then (at_ c).speed else min m (at_ c).speed) 0
      let s := present.foldl (fun s c => memChMod c (fun x => { x with
        st := if used.contains c then 1 else 2, dimms := spdDimms (at_ c), cause := cause c, gib := (spdKind (at_ c)).1 }) s) s
      let s := memMod (fun m => { m with speed := speed, trained := used }) s
      let s := (present.filter fun c => cause c != 0).foldl (fun s c => raise 0x3042 (memPlace c) [cause c] s) s
      let s := used.foldl (fun s c =>
        raise 0x3041 (memPlace c) [speed, spdDimms (at_ c), spdDimms (at_ c) * (spdKind (at_ c)).1] s) s
      if used.isEmpty then s
      else
        let kept := s.power.selfRefresh && memShape s == s.mem.before
        let s := { s with power := { s.power with areaKept := kept, selfRefresh := false } }
        logIntoDdr5 (if kept then s else zeroKept s))

/-- A channel in use is lost: 1 retries, 2 DIMM fault, 3 uncorrectable errors. A protected package with auto_handover hands over and
restarts without it; another runs on, and beds stop. -/
def loseChannel (c cause : Nat) (s : State) : State :=
  if (memCh s c).st != 1 then s
  else
    let act := twinProtected s && s.mem.autoHandover
    let s := memChMod c (fun x => { x with st := 3, cause := cause, mark := true }) s
    let s := raise 0x3046 (memPlace c) [cause, b2n act] (toFlash 12 c [1] s)
    if act then startHandover { s with power := { s.power with restartDue := some 5 } } else stopWindowBeds s

/-! ## Errors (R504, R505) -/

/-- Seconds within the last 24 h. -/
def lastDay (s : State) (l : List Nat) : List Nat := l.filter fun t => upSec s < t + 86400

/-- A read meets an uncorrectable error: the line is poisoned and reported once, and the sixteenth within 1 s loses the channel (R504, R507,
R512). -/
def memUe (a slot : Nat) (s : State) : State :=
  let x := a / 64 * 64
  let c := channelAt s x
  let s := countMem c 3 1 (memChMod c (fun m => { m with
    ue := tput m.ue slot (lastDay s (tgetD m.ue slot []) ++ [upSec s])
    ueAt := (m.ueAt.filter fun t => s.time.up < t + 1000000) ++ [s.time.up] }) s)
  let s := if s.mem.poison.contains x then s
    else
      let s := countMem c 6 1 (memMod (fun m => { m with poison := insertNat m.poison x }) s)
      raise 0x3045 (memPlace c) (two x ++ two (memArea (x - 0x400000000000))) s
  if 16 ≤ (memCh s c).ueAt.length then loseChannel c 3 s else s

/-- A corrected error of a device of a DIMM (R505): `sub` its subchannel. -/
def memCe (a slot sub dev : Nat) (s : State) : State :=
  let x := a / 64 * 64
  let c := channelAt s x
  let now := upSec s
  let s := countMem c 2 1 (memChMod c (fun m => { m with
    ce := tput m.ce slot (lastDay s (tgetD m.ce slot []) ++ [now])
    lines := (m.lines.filter fun l => now < l.2.2.2 + 86400 && !(l.1 == slot && l.2.1 == dev && l.2.2.1 == x)) ++ [(slot, dev, x, now)] }) s)
  let m := memCh s c
  let n := (tgetD m.ce slot []).length
  let due := match tget m.ceRaised slot with | some t => decide (t + 86400 ≤ now) | none => true
  let s := if s.mem.ceLimit < n && due then
      raise 0x3043 (memPlace c) [slot, n] (memChMod c (fun m => { m with ceRaised := tput m.ceRaised slot now }) s)
    else s
  if 16 ≤ (m.lines.filter fun l => l.1 == slot && l.2.1 == dev).length && !bit m.degraded slot then
    raise 0x3044 (memPlace c) [slot, sub, dev] (memChMod c (fun m => { m with degraded := setBit m.degraded slot }) s)
  else s

/-- PATROL_SCRUB_READ (R503-R505): scrub reads a line; outcome 0 clean, 1 corrected and written back, 2 uncorrectable; `last` at the end
of a pass. -/
def execPatrolScrubRead (a outcome slot sub dev : Nat) (last : Bool) (s : State) : Res :=
  .next (
    let c := channelAt s a
    if !ddr5Up s || (memCh s c).st != 1 || a < 0x400000000000 then s
    else
      let s := countMem c 0 1 s
      let s :=
        if outcome == 1 then memCe a slot sub dev (countMem c 5 1 (countMem c 1 1 s))
        else if outcome == 2 then memUe a slot s
        else s
      if last then countMem c 4 1 s else s)

/-- DIMM_THERMAL_READ (R506). -/
def execDimmThermalRead (c slot temp : Nat) (s : State) : Res :=
  onElem (decide (c < 12) && decide (slot < 2))
    (let m := memCh s c
     let old := tgetD m.hot slot 0
     let halved := 95 < temp || (bit old 1 && 90 ≤ temp)
     let s := memChMod c (fun m => { m with
       hot := tput m.hot slot (b2n (85 < temp) + 2 * b2n halved), tmax := tput m.tmax slot (max temp (tgetD m.tmax slot 0)) }) s
     if halved && !bit old 1 then raise 0x3047 (memPlace c) [slot, temp] s else s)

/-! ## Losing a channel (R507, R508) -/

/-- MEMORY_CHANNEL_FAILURE (R507). -/
def execMemoryChannelFailure (c cause : Nat) (s : State) : Res := onElem (decide (c < 12)) (loseChannel c cause s)

/-! ## MEM registers (R510) -/

def memCapacity (s : State) : Nat := (memInUse s).foldl (fun n c => n + (memCh s c).dimms * (memCh s c).gib) 0

/-- The 32-bit word at an offset of the MEM block. -/
def memReg (s : State) (off : Nat) : Nat :=
  if off == 0xC000 then b2n s.mem.autoHandover + 2 ^ 8 * s.mem.scrubHours + 2 ^ 16 * s.mem.ceLimit
  else if off == 0xC008 || off == 0xC00C then
    let l := memInUse s
    if ddr5Up s then wordN (l.foldl setBit 0 + 2 ^ 12 * l.length + 2 ^ 16 * s.mem.speed + 2 ^ 32 * memCapacity s) (off / 4 % 2) else 0
  else if off < 0xC000 then
    let x := memCh s (off / 0x1000)
    let o := off % 0x1000
    if o == 0 then x.st + 4 * x.dimms + 16 * x.cause + 2 ^ 8 * x.gib + 2 ^ 16 * x.degraded
    else if 0x100 ≤ o && o < 0x140 then wordN (tgetD x.cnt ((o - 0x100) / 8) 0) (o / 4 % 2)
    else 0
  else 0

end Sys2Proof.Machine
end

