-- ==== Sys2Proof/Machine/SpareOps.lean ====
section
/-! DEFINITION. The spare ledger, cloches, grafts, exposures and the containment of losses (R22, R25, R31-R44, R545, R566-R576,
R582-R585). A spare has at most one graft at a time, so its place names the graft. -/

namespace Sys2Proof.Machine

def spareMod (f : SpareS → SpareS) (s : State) : State := { s with spare := f s.spare }
def testMod (f : TestS → TestS) (s : State) : State := { s with test := f s.test }

/-! ## The ledger (R36-R44) -/

def spareCode : SpareState → Nat
  | .free => 0
  | .test => 1
  | .suspect => 2
  | .fault => 3
  | .age => 4
  | .failed => 5

/-- The 16 bytes of a ledger entry (R36). -/
def ledgerBytes (s : State) (sp : Nat) (l : Spare) : Bytes :=
  le 4 (pathOf s sp).toNat ++ le 4 l.standsFor.toNat ++ [byte (spareCode l.state), 0] ++ le 2 l.claims ++ le 4 l.since

/-- Is the state kept in flash (R44)? -/
def storedState (st : SpareState) : Bool := st == .suspect || st == .fault || st == .age || st == .failed

/-- The ledger of a spare takes a state, for the place whose work it carries; a claim of a FREE spare is counted. A state that is kept
in flash, or that ends one kept there, and a count that has changed are written: flash holds a spare in a state that is not stored as
FREE with its count (R36, R44). R44 gives a SUSPECT claim 10 ms to reach flash; the model writes it in the step of the claim, so that no
reset falls between the two (DESIGN CHOICE, assumption 111). -/
def setLedger (sp : Nat) (st : SpareState) (who : Option Nat) (s : State) : State :=
  let old := ledger s sp
  let claim := old.state == .free && st != .free && st != .failed
  let l : Spare := {
    standsFor := match who with | some p => pathOf s p | none => 0
    state := st, claims := if claim then min 65535 (old.claims + 1) else old.claims, since := now32 s }
  let kept : Spare := if storedState st then l else { claims := l.claims }
  let s := spareMod (fun x => { x with ledger := tput x.ledger sp l, flash := tput x.flash sp kept }) s
  if claim || storedState st || storedState old.state then toFlash 2 sp (ledgerBytes s sp kept) s else s

/-- The unit spare of a unit that has one: stage units 1 to 6, cores 0 to 7, crypto units 0 to 3 (R25, R29). -/
def sparedUnit (p : Nat) : Option Nat :=
  let c := pCluster p
  let u := pUnit p
  let has := (c < 5 && 1 ≤ u && u ≤ 6) || (((8 ≤ c && c ≤ 12) || c == 28) && u < 8) || (c == 16 && u < 4)
  if has then unitSpare (clusterOf p) else none

/-- The spare that can carry a unit or a cluster. -/
def spareFor (p : Nat) : Option Nat := if pUnit p == 127 then clusterSpare p else sparedUnit p

def cloche (p : Nat) (s : State) : State := spareMod (fun x => { x with cloched := insertNat x.cloched p }) s
def uncloche (p : Nat) (s : State) : State := spareMod (fun x => { x with cloched := x.cloched.filter (· != p) }) s
def retirePlace (p : Nat) (s : State) : State := spareMod (fun x => { x with retired := insertNat x.retired p }) s

/-! ## Grafts (R582) -/

/-- The graft that a spare takes part in. -/
def graftOf (s : State) (sp : Nat) : Option Graft :=
  s.spare.grafts.find? fun g => place g.source.toNat == sp || place g.target.toNat == sp

def dropGraft (sp : Nat) (s : State) : State :=
  spareMod (fun x => { x with grafts := x.grafts.filter fun g => place g.source.toNat != sp && place g.target.toNat != sp }) s

/-- Packets inside a crypto unit whose work moves to unit 4 are lost and counted (R231). The model works on a packet in one step, so that
those inside the units in service are the first of the cluster's input, one for each unit, the lowest unit first; none of them has been
given a sequence number (DESIGN CHOICE, assumption 117). -/
def loseInside (p : Nat) (s : State) : State :=
  let g := gRegion (pDie p) (pRegion p)
  let l := tgetD s.cry.inputs g []
  let n := ((List.range (pUnit p)).filter fun u => bit (cryUnits s g) u).length
  if pDie p == 0 || pCluster p != 16 || 4 ≤ pUnit p then s
  else match l[n]? with
    | none => s
    | some j => releasePacket j.pkt (countC g 20 1 { s with cry := { s.cry with inputs := tput s.cry.inputs g (l.take n ++ l.drop (n + 1)) } })

/-- The work of a unit or cluster moves to its spare, or returns from it. While a core of G0 moves, the governor is not active
(R548, R58). -/
def beginGraft (p sp : Nat) (returning healthy : Bool) (s : State) : State :=
  let g : Graft := {
    source := pathOf s (if returning then sp else p), target := pathOf s (if returning then p else sp)
    returning := returning, healthy := healthy }
  let s := spareMod (fun x => { x with grafts := x.grafts ++ [g] }) (if returning then s else loseInside p s)
  if pCluster p == 28 && s.age.active then
    raise 0x3009 g0Place [min (2 ^ 32 - 1) (zeroTime s)] (ageMod (fun a => { a with active := false, steady := false }) s)
  else s

/-! ## Exposures: records and limits (R563, R566-R577) -/

def dropExposure (p : Nat) (s : State) : State :=
  testMod (fun t => { t with running := t.running.filter fun e => place e.target.toNat != p }) s
def putExposure (e : Exposure) (s : State) : State :=
  testMod (fun t => { t with running := t.running.map fun x => if x.target == e.target then e else x }) s

/-- May an exposure start at a place: none in its cluster, fewer than eight on its die, neither heat nor a rail fault, and G0 there to
run it (R28, R567, R568)? -/
def exposureAllowed (s : State) (p : Nat) : Bool :=
  !outOfService s g0Place &&
  !(s.test.running.any fun e => clusterOf (place e.target.toNat) == clusterOf p) &&
  decide ((s.test.running.filter fun e => pDie (place e.target.toNat) == pDie p).length < 8) &&
  !s.test.hot && !s.test.railHold.contains (pDie p)

def planned (kind p : Nat) : Nat := (Config.plannedPatterns kind (pCluster p) (pUnit p)).toNat

/-- Units whose records a test of a place updates: itself, or every unit of a cluster exposure. -/
def testedUnits (p : Nat) : List Nat := if pUnit p == 127 then unitPlaces p else [p]

/-- A result record is written, the event of an outcome other than PASS is raised (of an array, R571 gives the event), and the TEST_RUN that waits for it completes
(R566 step 5, R573, R577). -/
def endRecord (p : Nat) (r : TestRec) (cause : Nat) (s : State) : State :=
  let good := r.outcome == 1 || r.outcome == 4
  let s := testMod (fun t => { t with
    records := (testedUnits p).foldl (fun x u => tput x u ((r :: tgetD x u []).take 8)) t.records
    lastPass := if good then (testedUnits p).foldl (fun x u => tput x u r.time) t.lastPass else t.lastPass
    overdue := if good then t.overdue.filter fun u => !(testedUnits p).contains u.1 else t.overdue }) s
  let array := pCluster p == 17 && 112 ≤ pUnit p && pUnit p ≤ 116
  let s := if r.outcome == 2 && !array then raise 0x2C01 p (r.kind :: two r.fail) s
    else if r.outcome == 3 then raise 0x2C02 p [r.applied, r.planned, cause] s
    else s
  let body := le 4 r.applied ++ le 4 r.planned ++ le 4 r.duration
  finishKey 0x2C01 p (if r.outcome == 3 then { status := stIncomplete, detail := dCutShort, result := body } else repOk body) s

/-- The record of an exposure that ends now. -/
def recordOf (s : State) (e : Exposure) (outcome applied : Nat) (fail : Nat) : TestRec :=
  { outcome := outcome, kind := e.kind, duration := min (s.time.up - e.started) (2 ^ 24 - 1), time := now32 s, applied := applied
    planned := planned e.kind (place e.target.toNat), fail := fail }

/-- An exposure that ends before its patterns were applied: how many were is a free value below the plan, none where the test had
not begun (R573). -/
def cutRecord (e : Exposure) (s : State) : TestRec × State :=
  let n := planned e.kind (place e.target.toNat)
  if e.begun then
    let (v, s') := drawFree s
    (recordOf s e 3 (if n == 0 then 0 else v % n) 0, s')
  else (recordOf s e 3 0 0, s)

/-- The place is put on the list of what CLAIM_RETRY_TIMER tries again (R574, R576). -/
def retryLater (p : Nat) (s : State) : State := testMod (fun t => { t with retry := insertNat t.retry p }) s

/-- A cut-short exposure leaves the list, with its record, and is tried again unless a SUSPECT claim ran it; causes of R578 (R574). -/
def cutExposure (e : Exposure) (cause : Nat) (s : State) : State :=
  let p := place e.target.toNat
  let (r, s) := cutRecord e s
  let s := endRecord p r cause (dropExposure p s)
  if e.why == 1 then s else retryLater p s

/-- A test of a place under a claim starts, or is left for the retry (R37, R43). -/
def startExposure (p kind : Nat) (sp : Option Nat) (why bank : Nat) (begun : Bool) (s : State) : State :=
  if exposureAllowed s p then
    let e : Exposure := { target := pathOf s p, kind := kind, spare := sp, why := why, bank := bank, begun := begun, started := s.time.up }
    testMod (fun t => { t with running := t.running ++ [e], retry := t.retry.filter (· != p) }) s
  else retryLater p s

/-- The spare's own exposure (R43). -/
def ownExposure (sp : Nat) (s : State) : State := startExposure sp 1 none 2 0 true s

/-! ## Claims (R38-R42) -/

/-- Can the spare serve at all: not behind a cloche, lost or in a die out of service? -/
def spareSound (s : State) (sp : Nat) : Bool := !outOfService s sp && (ledger s sp).state != .failed

/-- A SUSPECT claim pre-empts a TEST claim: the exposure ends INCOMPLETE, the tested unit takes its work back (R38, R40). -/
def preempt (sp : Nat) (s : State) : State :=
  let who := place (ledger s sp).standsFor.toNat
  let s := match exposureOf s who with
    | some e => cutExposure { e with begun := e.begun && e.result.isNone } 1 s
    | none => s
  setLedger sp .free none (uncloche who (dropGraft sp s))

/-- A SUSPECT claim on a spare for a place: granted when the spare is FREE or can be pre-empted. -/
def claimSuspect (sp p : Nat) (s : State) : Option State :=
  if !spareSound s sp then none
  else
    let st := (ledger s sp).state
    let s := match exposureOf s sp with
      | some e => cutExposure e 1 s
      | none => s
    if st == .free then some (setLedger sp .suspect (some p) s)
    else if st == .test then some (setLedger sp .suspect (some p) (preempt sp s))
    else none

/-- May an AGE or TEST claim be granted now? -/
def spareFree (s : State) (sp : Nat) : Bool :=
  spareSound s sp && (ledger s sp).state == .free && (exposureOf s sp).isNone && (graftOf s sp).isNone

/-! ## Losses (R585) -/

/-- Stored packets that a loss takes: their copies leave every queue, and their cells come free. -/
def losePackets (ids : List Nat) (s : State) : State :=
  s.buf.queues.foldl (fun s q =>
    let dead := q.2.filter fun c => ids.contains c.id
    if dead.isEmpty then s
    else dead.foldl (fun s c => dropCopy c.id s) (queueSet q.1 (q.2.filter fun c => !ids.contains c.id) s)) s

/-- Packets whose bank of the die's buffer was region `r`'s: the spec does not say which bank holds a packet, so each is a free
value. -/
def bankVictims (d r : Nat) : List (Nat × Stored) → State → List Nat × State
  | [], s => ([], s)
  | x :: l, s =>
    if x.2.die == d then
      let (v, s) := drawFree s
      let (ids, s) := bankVictims d r l s
      (if v % 4 == r then x.1 :: ids else ids, s)
    else bankVictims d r l s

/-- Flows held by a lost region cache fall back to what was written (R248). -/
def loseCache (g : Nat) (s : State) : State :=
  let ids := tgetD s.flow.cache g []
  { s with flow := { s.flow with
    cache := tdel s.flow.cache g
    miss := tdel s.flow.miss g
    entries := s.flow.entries.map fun f =>
      if ids.contains f.index then
        let (a, b, c, d, t) := f.saved
        { f with pktsAB := a, bytesAB := b, pktsBA := c, bytesBA := d, lastSeen := t, dirty := false }
      else f } }

/-- The crypto cluster of region `g` loses what it holds: counted (R231). -/
def loseCrypto (g : Nat) (s : State) : State :=
  let l := tgetD s.cry.inputs g []
  let s := { s with cry := { s.cry with
    inputs := tdel s.cry.inputs g, holder := s.cry.holder.filter fun e => e.2 != g } }
  countC g 20 l.length (l.foldl (fun s j => releasePacket j.pkt s) s)

/-- The ports of a range stop modulating, without an event (R585). -/
def darkPorts (lo n : Nat) (s : State) : State :=
  refillGroups ((s.ports.filter fun e => decide (lo ≤ e.1) && decide (e.1 < lo + n)).foldl (fun s e =>
    portMod e.1 (fun x => { x with st := .disabled, loopHeld := false }) (dropLink e.1 (mkaRestart e.1 s))) s)

/-- What region `g` holds besides its bank: packets at its parse units, fragments, flow cache, crypto input; tests and grafts end
with it. -/
def loseRegionState (g : Nat) (s : State) : State :=
  let here := fun (k : Packet) => pktG k == g && !k.fromTwin
  let frs := s.tbl.frags.filter fun f => f.region == g
  let gone := (s.buf.fresh.filter here) ++ ((s.buf.again.filter fun x => x.1 / 5 == g).map fun x => x.2) ++
    frs.flatMap (fun f => f.held.map fun h => h.1) ++ ((tgetD s.flow.miss g []).map fun j => j.pkt)
  let s := { s with
    buf := { s.buf with fresh := s.buf.fresh.filter fun k => !here k, again := s.buf.again.filter fun x => x.1 / 5 != g }
    tbl := { s.tbl with frags := s.tbl.frags.filter fun f => f.region != g } }
  let s := gone.foldl (fun s k => releasePacket k s) s
  let inside := fun (w : Word) => regionOf (place w.toNat) == regionPlace (gDie g) (gReg g)
  let s := testMod (fun t => { t with running := t.running.filter fun e => !inside e.target }) s
  let s := spareMod (fun x => { x with grafts := x.grafts.filter fun q => !inside q.source }) s
  loseCrypto g (loseCache g s)

def markLost (p : Nat) (s : State) : State := spareMod (fun x => { x with lost := insertNat x.lost p }) s

/-- A fabric region is lost. -/
def loseRegion (d r : Nat) (s : State) : State :=
  if !regionUp s d r then s
  else
    let g := gRegion d r
    let s := markLost (regionPlace d r) s
    let (ids, s) := bankVictims d r s.buf.store s
    let s := noteFrees (loseRegionState g (losePackets ids s))
    retireIdle 4 (stopLostBeds (darkPorts (64 * g) 64 s))

/-- A fabric die is lost, with its link to the hub. -/
def loseDie (d : Nat) (s : State) : State :=
  let s := markLost (diePlace d) s
  let ids := (s.buf.store.filter fun x => x.2.die == d).map fun x => x.1
  let s := losePackets ids s
  let s := (List.range 4).foldl (fun s r => loseRegionState (gRegion d r) s) s
  retireIdle 4 (stopLostBeds (darkPorts (256 * (d - 1)) 256 s))

/-- The package is lost: every port stops modulating, the twin link falls silent, the governor holds its last settings and exposures
stop (R28, R585). -/
def losePackage (s : State) : State :=
  let s := testMod (fun t => { t with running := [] }) (markLost (diePlace 0) (darkPorts 0 1024 s))
  let s := { s with boot := { s.boot with mgmtRuns := false } }
  ageMod (fun a => { a with active := false, steady := false }) (twinMod (fun t => { t with linkUp := false, lanes := 0 }) s)

/-- A host-link cluster is lost (R294): a fatal report where the link runs, then the link is down. -/
def loseHostLink (link : Nat) (s : State) : State :=
  [0, 1].foldl (fun s h =>
    if halfExists s link h && (linkOf s link h).up then linkReset link h 3 (reportAer (pf0 link h) aerFatal aerInternal s) else s) s

/-- Has a region of a fabric die a pipeline cluster that carries traffic? -/
def regionPipes (s : State) (d r : Nat) : Bool :=
  (List.range 4).any fun c => !outOfService s (carrierOf s (clusterPlace d r c))

/-- A cluster that nothing can carry is lost, and no more than R32, R42, R423 and R585 give; the loss of a pipeline cluster whose region
runs on is reported (R42). -/
def loseCluster (cl : Nat) (s : State) : State :=
  let d := pDie cl
  let c := pCluster cl
  let s := markLost cl s
  if d != 0 then
    if c == 17 then loseRegion d (pRegion cl) s
    else if c == 16 then loseCrypto (gRegion d (pRegion cl)) s
    else if c < 5 then (if regionPipes s d (pRegion cl) then emit (.capacityLoss (pathOf s cl)) s else loseRegion d (pRegion cl) s)
    else stopLostBeds s
  else if 8 ≤ c && c ≤ 12 then stopLostBeds s
  else if 20 ≤ c && c ≤ 23 then loseHostLink (c - 20) s
  else if 24 ≤ c && c ≤ 26 then (List.range 4).foldl (fun s k => loseChannel (4 * (c - 24) + k) 1 s) s
  else if c == 30 then twinLinkDown (twinMod (fun t => { t with lanes := 0 }) s)
  else losePackage s

/-- Does a queue of fabric die `d` leave it by the die link of unit `u`: 117 to the hub, 118 to 120 to the other fabric dies in
ascending order (R8, R193)? -/
def viaLink (d u : Nat) (c : QCopy) : Bool :=
  match c.dest with
  | .port p _ => u != 117 && some (portDie p) == (([1, 2, 3, 4].filter (· != d))[u - 118]?)
  | _ => u == 117

/-- Up to `n` packets in flight on the die link of a unit are lost and counted (R194). The model moves a packet across a link in one step, so
that those in flight are the next to cross (DESIGN CHOICE, assumption 117). -/
def loseFlight (p : Nat) : Nat → State → State
  | 0, s => s
  | n + 1, s =>
    let d := pDie p
    let next := s.buf.queues.find? fun q => match q.2 with
      | c :: _ => viaLink d (pUnit p) c && (match storedOf s c.id with | some x => x.die == d | none => false)
      | [] => false
    match next with
    | some (k, c :: r) => loseFlight p n (countA (gRegion d (pRegion p)) 20 1 (dropCopy c.id (queueSet k r s)))
    | _ => s

/-- The quarter of a die link (units 117 to 120) fails: `n` packets in flight are lost and counted; a die whose link to the hub has
no quarter left is lost (R194, R585). -/
def loseQuarter (p n : Nat) (s : State) : State :=
  let s := retireIdle 4 (loseFlight p n (cloche p s))
  if pUnit p == 117 && (List.range 4).all fun r => outOfService s (mkPlace (pDie p) r 17 117) then loseDie (pDie p) s else s

/-! ## Prunes (R41, R545) -/

def agePath (s : State) (p : Nat) : Nat := (pathOf s p).toNat

/-- A prune claims a spare that is FREE; answers none when it must wait or is blocked. -/
def claimAge (p sp : Nat) (s : State) : Option State :=
  if spareFree s sp then some (beginGraft p sp false true (setLedger sp .age (some p) s)) else none

/-- Would the claim wait for an exposure that holds the spare (R41)? -/
def ageWaits (s : State) (sp : Nat) : Bool :=
  spareSound s sp && ((ledger s sp).state == .test || (ledger s sp).state == .free)

/-- The prune of `p` waits for its spare. -/
def pruneWaits (p : Nat) (s : State) : State :=
  raise 0x3006 g0Place [agePath s p, 1] (ageMod (fun a => { a with waiting := a.waiting ++ [p] }) s)

/-- The prune of `p` claims a spare for the element `q`, waits for it, or ends as `other`. -/
def claimOr (p q : Nat) (sp : Option Nat) (other s : State) : State :=
  match sp with
  | none => other
  | some sp => match claimAge q sp s with
    | some s => s
    | none => if ageWaits s sp then pruneWaits p s else other

/-- The governor prunes a unit: its unit spare, else the whole cluster, else blocked. -/
def prune (p : Nat) (s : State) : State :=
  let s := ageMod (fun a => { a with waiting := a.waiting.filter (· != p) }) s
  claimOr p p (sparedUnit p) (claimOr p (clusterOf p) (clusterSpare (clusterOf p)) (raise 0x3006 g0Place [agePath s p, 2] s) s) s

/-- Does the prune of a unit still wait for an exposure of a spare (R41)? -/
def pruneHeld (s : State) (p : Nat) : Bool :=
  let wait := fun (sp : Option Nat) => match sp with | some sp => !spareFree s sp && ageWaits s sp | none => false
  let free := match sparedUnit p with | some sp => spareFree s sp | none => false
  wait (sparedUnit p) || (!free && wait (clusterSpare (clusterOf p)))

/-- The spares that could carry a unit or its cluster. -/
def sparesOf (p : Nat) : List Nat := (sparedUnit p).toList ++ (clusterSpare (clusterOf p)).toList

/-- One waiting prune is taken up: none of its spares is awaited any longer. Where another prune has just taken one of them, the governor
tries again at its next scan (R39). -/
def takePrune (p : Nat) (x : List Nat × State) : List Nat × State :=
  let (taken, s) := x
  if outOfService s p then (taken, ageMod (fun a => { a with waiting := a.waiting.filter (· != p) }) s)
  else if pruneHeld s p then x
  else if (sparesOf p).any taken.contains then (taken, ageMod (fun a => { a with waiting := a.waiting.filter (· != p) }) s)
  else
    let free := (sparesOf p).filter (spareFree s)
    let s := prune p s
    (taken ++ free.filter fun q => !spareFree s q, s)

/-- Prunes that waited for a spare are taken up when its exposure has ended, lowest path word first (R39, R41). -/
def pruneWaiting (s : State) : State :=
  ((s.age.waiting.foldl insertNat []).foldl (fun x p => takePrune p x) ([], s)).2

/-- A unit or cluster that has passed its retest returns. Units that were behind a cloche when their fault went up to the cluster return
with it, but for those that a spare of their own carries, and for spares (R37, R42). -/
def unclocheAll (p : Nat) (s : State) : State :=
  let held := fun u => isSpare u || s.spare.retired.contains u ||
    (match sparedUnit u with
     | some sp => (ledger s sp).state != .free && place (ledger s sp).standsFor.toNat == u
     | none => false)
  spareMod (fun x => { x with cloched := x.cloched.filter fun u => !(u == p || (pUnit p == 127 && clusterOf u == p && !held u)) }) s

/-- A graft completes (R582): forward, the spare carries the work; returning, the unit has it again and the spare is dark. -/
def graftEnds (sp : Nat) (s : State) : State :=
  match graftOf s sp with
  | none => s
  | some g =>
    let s := dropGraft sp s
    let who := place (if g.returning then g.target else g.source).toNat
    let s := if pUnit who == 127 then
        let s := traceFreeze (if g.returning then sp else who) 3 s
        { s with log := { s.log with traces := tdel s.log.traces (clusterIndex (if g.returning then who else sp)) } }
      else s
    let s := if pCluster who == 28 then ageMod (fun a => { a with active := true }) s else s
    if g.returning then
      let s := setLedger sp .free none (unclocheAll who s)
      let s := match exposureOf s who with
        | some e => (match e.result with
          | some (r, c) => endRecord who r c (dropExposure who s)
          | none => dropExposure who s)
        | none => s
      pruneWaiting s
    else match (ledger s sp).state with
      | .test =>
        (match exposureOf s who with
         | some e => putExposure { e with begun := true, started := s.time.up } s
         | none => s)
      | .suspect => startExposure who 1 (some sp) 1 0 true s
      | .age =>
        let s := ageMod (fun a => { a with dies := tmod a.dies (pDie who) {} fun x => { x with lowering := true } }) s
        raise 0x3005 g0Place [agePath s who, agePath s sp] (retirePlace who s)
      | _ => s

/-- GRAFT_COMPLETE: the graft has ended, and beds that waited for it go on (R424). -/
def graftDone (sp : Nat) (s : State) : State := resumeBeds (graftEnds sp s)

/-! ## Fault handling (R32, R37, R42) -/

/-- A whole cluster goes to its spare cluster under a SUSPECT claim, or is lost (R42). -/
def escalate (cl : Nat) (s : State) : State :=
  match clusterSpare cl with
  | none => loseCluster cl s
  | some sp =>
    match claimSuspect sp cl s with
    | some s => beginGraft cl sp false false (cloche cl s)
    | none => loseCluster cl s

/-- A port whose lane has gone dark: down with cause 2, or searching again (R515). -/
def portDark (p : Nat) (s : State) : State :=
  match (portGet s p).st with
  | .up => linkDown p 2 s
  | .settling => startSearch p s
  | _ => s

/-- A fault of an engine darkens its 32 lanes: causes 1 interface lost, 2 supply, 3 internal (R524). -/
def engineFault (e cause : Nat) (s : State) : State :=
  if (engineOf s e).fault then s
  else
    let s := cartMod (fun c => { c with engines := tmod c.engines e {} fun x => { x with fault := true, cause := cause % 8 } }) s
    let s := raise 0x340A (enginePlace e) [e, cause] s
    (List.range 32).foldl (fun s l => portDark (32 * e + l) s) s

/-- Engine of an engine-interface unit's place (R11). -/
def placeEngine (p : Nat) : Nat := 8 * (pDie p - 1) + 2 * pRegion p + (pUnit p - 64)

/-- First memory bank of an array unit that is not retired (R570). -/
def bankCount (p : Nat) : Nat :=
  match pUnit p with
  | 112 => 16
  | 113 => 16
  | 114 => 4
  | 115 => 4
  | 116 => 8
  | _ => 0
def bankKey (p bank : Nat) : Nat := 16 * p + bank
def firstBank (s : State) (p : Nat) : Nat :=
  ((List.range (bankCount p)).find? fun b => !s.test.retired.contains (bankKey p b)).getD 0

/-- The fault of a unit that no unit spare covers is contained at the next level that R29 lists: arrays repair, a quarter leaves its
link, a cartridge slot is cloched alone, as its cartridge holds its own light (R517), an engine interface its engine (R524), a DDR5 controller its channel, the hub end of a die link its die, anything else its cluster (R29, R32, R585). -/
def contain (p : Nat) (s : State) : State :=
  let c := pCluster p
  let u := pUnit p
  if c == 17 then
    if 112 ≤ u && u ≤ 116 then startExposure p 2 none 0 (firstBank s p) true s
    else if 117 ≤ u then loseQuarter p 0 s
    else if u == 96 || u == 97 then cloche p s
    else if u == 64 || u == 65 then engineFault (placeEngine p) 1 (cloche p s)
    else loseCluster (clusterOf p) (cloche p s)
  else if c < 5 || (8 ≤ c && c ≤ 12) then escalate (clusterOf p) (cloche p s)
  else if 24 ≤ c && c ≤ 26 && u < 4 then loseChannel (4 * (c - 24) + u) 1 (cloche p s)
  else if c == 28 && 122 ≤ u then loseDie (u - 121) (cloche p s)
  else loseCluster (clusterOf p) (cloche p s)

/-- The fault of a spare while it carries work (R568, R584) or takes it. -/
def graftFails (sp : Nat) (s : State) : State :=
  match graftOf s sp with
  | none => s
  | some g =>
    let s := dropGraft sp s
    let who := place (if g.returning then g.target else g.source).toNat
    if g.returning then
      let s := match exposureOf s who with
        | some e => (match e.result with
          | some (r, c) => endRecord who r c (dropExposure who s)
          | none => dropExposure who s)
        | none => s
      startExposure who 1 (some sp) 1 0 true (cloche who (setLedger sp .suspect (some who) s))
    else
      let was := (ledger s sp).state
      let s := match exposureOf s who with
        | some e => cutExposure { e with begun := false } 3 s
        | none => s
      let s := ownExposure sp (cloche sp (setLedger sp .free none s))
      if g.healthy then
        let s := if pCluster who == 28 then ageMod (fun a => { a with active := true }) s else s
        if was == .age then s else uncloche who s
      else if pUnit who == 127 then loseCluster who s
      else escalate (clusterOf who) s

/-- A spare unit faults: while it gives work back, the unit takes it; while it takes work, the graft fails; under an exposure, the tested
unit takes its work back; while it carries work for good or until a retest, its cluster goes to the spare cluster (R42, R568, R584). -/
def spareFaults (sp : Nat) (s : State) : State :=
  match graftOf s sp with
  | some g => if g.returning then ownExposure sp (graftDone sp (cloche sp s)) else graftFails sp s
  | none =>
    let who := place (ledger s sp).standsFor.toNat
    match (ledger s sp).state with
    | .test =>
      let s := match exposureOf s who with
        | some e => cutExposure e 4 s
        | none => s
      ownExposure sp (cloche sp (setLedger sp .free none (uncloche who s)))
    | .suspect => escalate (clusterOf sp) (cloche sp s)
    | .fault => escalate (clusterOf sp) (cloche sp s)
    | .age => escalate (clusterOf sp) (cloche sp s)
    | _ => s

/-- The source of a forward graft faults: its work moves on, under a SUSPECT claim where a test had claimed the spare, whose exposure ends
(R38, R40). -/
def sourceFaults (sp who : Nat) (s : State) : State :=
  let s := spareMod (fun x => { x with grafts := x.grafts.map fun g => if place g.target.toNat == sp then { g with healthy := false } else g }) s
  if (ledger s sp).state == .test then
    let s := match exposureOf s who with
      | some e => cutExposure e 1 s
      | none => s
    setLedger sp .suspect (some who) (setLedger sp .free none s)
  else s

/-- The graft that a unit takes part in other than as a spare: its own, or its cluster's. -/
def unitGraft (s : State) (p : Nat) : Option Graft :=
  s.spare.grafts.find? fun g =>
    let who := place (if g.returning then g.target else g.source).toNat
    who == p || who == clusterOf p

/-- A unit reports a fault, is declared hung or fails its start test: it is cloched, and its work goes to the spare under a SUSPECT claim,
to the spare cluster, or is contained; in a graft it ends or changes that (R37, R42, R47, R51, R584, R636). -/
def faultAny (p : Nat) (s : State) : State :=
  if levelOf p != .unit then s
  else if isSpare p then (if outOfService s p then s else spareFaults p s)
  else match unitGraft s p with
    | some g =>
      let sp := place (if g.returning then g.source else g.target).toNat
      let who := place (if g.returning then g.target else g.source).toNat
      if g.returning then graftFails sp s else sourceFaults sp who (cloche p s)
    | none =>
      if outOfService s p then s
      else match sparedUnit p with
        | none => contain p s
        | some sp =>
          let s := cloche p s
          match claimSuspect sp p s with
          | some s => beginGraft p sp false false s
          | none => escalate (clusterOf p) s

/-- A fault of a unit that has supply, on a die in service. -/
def faultUnit (p : Nat) (s : State) : State := if !dieUp s (pDie p) || dark s p then s else faultAny p s

/-! ## The end of an exposure (R37, R43, R566, R571, R574) -/

/-- Spare rows of a memory bank (R570). -/
def spareRows (p : Nat) : Nat := if pUnit p == 115 then 4 else 8

/-- Capacity that the retirement of a memory bank costs (R570): cells, buckets, quarters of the bank, entries, ways of every set. -/
def retiredLoss (p : Nat) : Nat :=
  match pUnit p with
  | 112 => 6144
  | 113 => 4096
  | 114 => 1
  | 115 => 4096
  | _ => 8192

/-- Fail word (R572). -/
def failWord (bank row bitNo left action : Nat) : Nat :=
  bank % 2 ^ 8 + row % 2 ^ 24 * 2 ^ 8 + bitNo % 2 ^ 16 * 2 ^ 32 + left % 16 * 2 ^ 48 + action * 2 ^ 52

/-- A memory test of an array bank: `fails` the failing rows, lowest first, with the bit of each; `second` whether the second March C−
passes. Answers outcome, fail word and the repairs. -/
def arrayEnd (p bank : Nat) (fails : List (Nat × Nat)) (second : Bool) (s : State) : Nat × Nat × State :=
  match fails with
  | [] => (1, 0, s)
  | (row, b) :: _ =>
    let k := bankKey p bank
    let used := tgetD s.test.rowsUsed k 0
    let n := fails.length
    let fits := used + n ≤ spareRows p
    let left := spareRows p - (used + n)
    if fits && second then
      let w := failWord bank row b left 1
      (4, w, raise 0x2C03 p (two w) (toFlash 6 k (le 8 w) (testMod (fun t => { t with rowsUsed := tput t.rowsUsed k (used + n) }) s)))
    else
      let w := failWord bank row b left 2
      let s := testMod (fun t => { t with
        rowsUsed := if fits then tput t.rowsUsed k (used + n) else t.rowsUsed, retired := insertNat t.retired k }) s
      (2, w, raise 0x2C04 p [bank, retiredLoss p] (toFlash 6 k (le 8 w) s))

/-- What the claim of an ended test leads to. -/
def endClaim (p : Nat) (e : Exposure) (r : TestRec) (cause : Nat) (s : State) : State :=
  match e.spare with
  | some sp =>
    if e.why == 0 then
      if r.outcome == 2 then pruneWaiting (endRecord p r cause (dropExposure p (retirePlace p (setLedger sp .fault (some p) s))))
      else
        let s := if r.outcome == 3 then retryLater p s else s
        beginGraft p sp true true (putExposure { e with result := some (r, cause) } s)
    else if r.outcome == 1 then beginGraft p sp true true (putExposure { e with result := some (r, cause) } s)
    else pruneWaiting (endRecord p r cause (dropExposure p (retirePlace p (setLedger sp .fault (some p) s))))
  | none =>
    let s := endRecord p r cause (dropExposure p s)
    if e.why == 2 then
      pruneWaiting (if r.outcome == 2 then setLedger p .failed none (cloche p s)
        else if r.outcome == 3 then retryLater p s
        else uncloche p s)
    else if r.outcome == 3 then retryLater p s
    else s

/-- Every exposure of a die that runs ends INCOMPLETE, with a cause: 5 temperature, 6 rail (R568). -/
def cutDie (d : Option Nat) (cause : Nat) (s : State) : State :=
  s.test.running.foldl (fun s e =>
    let p := place e.target.toNat
    if e.result.isSome || (match d with | some d => pDie p != d | none => false) then s
    else
      let (r, s) := cutRecord e s
      endClaim p e r cause s) s

end Sys2Proof.Machine
end

