-- ==== Sys2Proof/Machine/Test.lean ====
section
/-! DEFINITION. Self-test: commands, the rolling test, ends of tests, reference checks and the TEST registers (R561-R579). -/

namespace Sys2Proof.Machine

/-! ## Routes (R564, R569) -/

/-- How a place is tested in service. -/
inductive Route where
  /-- Through a spare unit or spare cluster. -/
  | spare (sp : Nat)
  /-- The spare's own exposure. -/
  | own
  /-- A memory bank of an array. -/
  | bank
  /-- A die-link quarter. -/
  | quarter
  /-- Units of drained ports. -/
  | drained
  /-- A reference check. -/
  | check
  /-- None. -/
  | none
  deriving DecidableEq, Repr

def routeOf (kind p : Nat) : Route :=
  let c := pCluster p
  let u := pUnit p
  if kind == 4 then .check
  else if isSpare p then (if kind == 1 then .own else .none)
  else match spareFor p with
    | some sp => if kind == 1 then .spare sp else .none
    | none =>
      if c != 17 then .none
      else if 112 ≤ u && u ≤ 116 then (if kind == 2 then .bank else .none)
      else if 117 ≤ u && u ≤ 120 then (if kind == 1 then .quarter else .none)
      else if u ≤ 65 then (if kind == 1 || kind == 3 then .drained else .none)
      else .none

/-- Ports concerned by a test of a MAC unit or of an engine interface: the engine's 32. -/
def portsTested (p : Nat) : List Nat :=
  let lo := 64 * gRegion (pDie p) (pRegion p)
  if pUnit p < 64 then [lo + pUnit p] else if pUnit p ≤ 65 then span (lo + 32 * (pUnit p - 64)) 32 else []

/-- Life-cycle states without the gating of R564 (R569). -/
def factoryState (s : State) : Bool := s.boot.lifecycle == .manufacturing || s.boot.lifecycle == .returned

/-- An unretired memory bank, which the command does not name: a free value chooses it. -/
def someBank (p : Nat) (s : State) : Nat × State :=
  let l := (List.range (bankCount p)).filter fun b => !s.test.retired.contains (bankKey p b)
  let (v, s) := drawFree s
  (l.getD (v % max 1 l.length) 0, s)

/-- A new exposure in the list. -/
def addExposure (p kind : Nat) (sp : Option Nat) (bank : Nat) (begun : Bool) (why : Nat) (s : State) : State :=
  testMod (fun t => { t with running := t.running ++
    [{ target := pathOf s p, kind := kind, spare := sp, why := why, bank := bank, begun := begun, started := s.time.up }] }) s

/-- Start of a test by its route; none where R567 or R568 refuses it. -/
def launchTest (p kind : Nat) (bank : Option Nat) (s : State) : Option State :=
  if routeOf kind p == .check then (if (exposureOf s p).isSome then none else some (addExposure p kind none 0 true 0 s))
  else if !exposureAllowed s p then none
  else match routeOf kind p with
    | .spare sp =>
      if spareFree s sp && !outOfService s p && !grafting s p then
        some (beginGraft p sp false true (cloche p (addExposure p kind (some sp) 0 false 0 (setLedger sp .test (some p) s))))
      else none
    | .own => if (ledger s p).state == .free && (graftOf s p).isNone then some (addExposure p kind none 0 true 2 s) else none
    | .bank =>
      let (b, s') := match bank with
        | some b => (b, s)
        | none => someBank p s
      some (addExposure p kind none b true 0 s')
    | .quarter => if outOfService s p then none else some (addExposure p kind none 0 true 0 (cloche p s))
    | .drained => if (portsTested p).all (portDrained s) then some (addExposure p kind none 0 true 0 s) else none
    | .check => none
    | .none => none

/-! ## Commands (R462, R569) -/

/-- The TEST opcodes are refused in BLANK and RETIRED; whole dies and the package only in MANUFACTURING and RETURNED. -/
def testLife (s : State) (c : Cmd) : Bool :=
  s.boot.lifecycle != .blank && s.boot.lifecycle != .retired &&
  (factoryState s || !(levelOf c.place == .die || levelOf c.place == .package))

def opTestRun : Op := { mkOp 0x2C01 1 [] .anyElement (fun c s =>
    let k := c.prm 0 1
    let p := c.place
    if k == 0 || 4 < k then .refuse (badParam dRange)
    else if levelOf p == .region then .refuse (rep stBadPath 0)
    else if factoryState s then
      if (exposureOf s p).isSome then .refuse (busy dInUse)
      else .accept p s fun s => let (b, s) := if k == 2 then someBank p s else (0, s); addExposure p k none b true 0 s
    else if routeOf k p == .none then .refuse (rep stLifecycle dState)
    else match launchTest p k none s with
      | none => .refuse (busy dInUse)
      | some _ => .accept p s fun s => (launchTest p k none s).getD s) with
  life := testLife }

def execTestRun (c : Cmd) (s : State) : Res := .next (runCmd opTestRun c s)

def opTestResult : Op := { mkOp 0x2C02 2 [] .unit (fun c s =>
    let k := c.prm 0 2
    if 7 < k then .refuse (badParam dRange)
    else match (tgetD s.test.records c.place [])[k]? with
      | some r => .ok ([byte r.outcome, 0, 0, 0] ++ le 4 r.time ++ le 8 r.fail) s
      | none => .ok (List.replicate 16 0) s) with
  life := fun s _ => s.boot.lifecycle != .blank }

def execTestResult (c : Cmd) (s : State) : Res := .next (runCmd opTestResult c s)

/-- TEST_SCHEDULE (R575): key 256 of the flash record is the package, else 1,000 + the cluster. -/
def opTestSchedule : Op := { mkOp 0x2C03 2 [] .clusterOrPackage (fun c s =>
    let d := c.prm 0 2
    if d == 0 || 365 < d then .refuse (badParam dRange)
    else if levelOf c.place == .package then .ok [] (toFlash 11 0 (le 2 d) (testMod (fun t => { t with period := d }) s))
    else .ok [] (toFlash 11 (1 + clusterIndex c.place) (le 2 d)
      (testMod (fun t => { t with cperiod := tput t.cperiod c.place d }) s))) with
  life := fun s _ => s.boot.lifecycle != .blank }

def execTestSchedule (c : Cmd) (s : State) : Res := .next (runCmd opTestSchedule c s)

/-! ## The rolling test (R575, R576) -/

/-- Period of a unit in days: its cluster's own, or the package's. -/
def periodOf (s : State) (p : Nat) : Nat :=
  let d := tgetD s.test.cperiod (clusterOf p) 0
  if d == 0 then s.test.period else d

/-- Has a unit an in-service route other than loop-back, of its own or as part of its cluster (R564, R575)? -/
def hasRoute (p : Nat) : Bool := routeOf 1 p != .none || routeOf 2 p != .none || routeOf 1 (clusterOf p) != .none

/-- TEST_OVERDUE: a unit without a pass in two periods is reported once, and again at each further period (R576). -/
def checkOverdue (p : Nat) (s : State) : State :=
  let days := (now32 s - tgetD s.test.lastPass p (s.test.since.getD (now32 s))) / 86400
  let n := days / max 1 (periodOf s p)
  if 2 ≤ n && tgetD s.test.overdue p 1 < n then
    raise 0x2C05 p [days] (testMod (fun t => { t with overdue := tput t.overdue p n }) s)
  else s

/-- Held for life (R576)? -/
def heldForLife (s : State) (sp : Nat) : Bool :=
  let st := (ledger s sp).state
  st == .fault || st == .age || st == .failed

/-- What the scheduler tests for a unit: itself, or its cluster when its unit spare is held for life. -/
def scheduledTarget (s : State) (p : Nat) : Nat :=
  match sparedUnit p with
  | some sp => if heldForLife s sp then clusterOf p else p
  | none => p

/-- The scheduler's test of a place; a refused claim is tried again after an hour. A MAC unit or engine interface is tested where its ports
are drained, and the units of a spare cluster without supply with that cluster. -/
def runScheduled (p bank : Nat) (s : State) : State :=
  if !(s.boot.lifecycle == .provisioned || s.boot.lifecycle == .deployed) || !s.power.fullService then s
  else
    let q := scheduledTarget s p
    let kind := if pCluster q == 17 && 112 ≤ pUnit q && pUnit q ≤ 116 then 2 else 1
    let s := ((testedUnits p).filter hasRoute).foldl (fun s u => checkOverdue u s) s
    if routeOf kind q == .none || (dark s q && !isSpare q) then s
    else if routeOf kind q == .drained then (launchTest q kind none s).getD s
    else if kind == 2 && s.test.retired.contains (bankKey q bank) then s
    else match launchTest q kind (some bank) s with
      | some s => testMod (fun t => { t with retry := t.retry.filter (· != p) }) s
      | none => retryLater p s

/-- SCHEDULED_EXPOSURE (R575): the unit's, or memory bank's, turn in its period. -/
def execScheduledExposure (p bank : Nat) (s : State) : Res :=
  onElem (levelOf p == .unit || levelOf p == .cluster) (runScheduled p bank s)

/-- CLAIM_RETRY_TIMER (R574, R576): an hour after a refused claim. A retest that a SUSPECT claim still owes is started, else the
scheduled test. -/
def execClaimRetryTimer (p : Nat) (s : State) : Res :=
  onElem (levelOf p == .unit || levelOf p == .cluster)
    (if !s.test.retry.contains p then s
     else
       let s := testMod (fun t => { t with retry := t.retry.filter (· != p) }) s
       match spareFor p with
       | some sp =>
         if (ledger s sp).state == .suspect && place (ledger s sp).standsFor.toNat == p then
           (if grafting s p then s else startExposure p 1 (some sp) 1 0 true s)
         else runScheduled p (firstBank s p) s
       | none => if isSpare p then (if (ledger s p).state == .free then ownExposure p s else s) else runScheduled p (firstBank s p) s)

/-! ## Ends (R563, R565, R566, R571-R574) -/

/-- A logic test of a MAC unit cleared its SAs and settings: the link starts again (R565). -/
def macTested (p : Nat) (s : State) : State :=
  let k := macPort p
  if (portGet s k).st == .up then linkDown k 5 s
  else if (portGet s k).st == .disabled then s
  else startSearch k (mkaRestart k s)

/-- EXPOSURE_TEST_END (R566): the test at a place ends with the patterns applied, whether its signature or loop passes, the failing
rows of a memory bank with their bits, whether its second March C− passes, and the cause of a test that was cut short. -/
def execExposureTestEnd (p : Nat) (pass : Bool) (applied : Nat) (fails : List (Nat × Nat)) (second : Bool) (cause : Nat) (s : State) : Res :=
  .next (match exposureOf s p with
    | none => s
    | some e =>
      if !e.begun || e.result.isSome then s
      else
        let s := if e.kind == 1 && isMac p then macTested p s else s
        if applied < planned e.kind p then endClaim p e (recordOf s e 3 applied 0) cause (if e.why == 0 && e.spare.isNone then uncloche p s else s)
        else if e.kind == 2 && 0 < bankCount p then
          let (o, w, s) := arrayEnd p e.bank fails second s
          endClaim p e (recordOf s e o applied w) 0 s
        else
          let pass := pass && applied == planned e.kind p
          let s := if e.why == 0 && e.spare.isNone && pass then uncloche p s else s
          endClaim p e (recordOf s e (if pass then 1 else 2) applied 0) 0 s)

/-- REFERENCE_CHECK (R561, R575): the monitor numbered `mon` of the unit or die at a place deviates from its reference, in 0.1 % of light
or in mV; beyond 2 % or 5 mV it is reported. -/
def execReferenceCheck (p mon : Nat) (light : Bool) (dev : Int) (s : State) : Res :=
  onElem (levelOf p == .unit || levelOf p == .die)
    (if (if light then 20 else 5) < dev.natAbs then raise 0x2C06 p [mon, sw dev] s else s)

/-! ## TEST registers (R579) -/

/-- Unit of index `i` in the order of R557. -/
def unitAt (i : Nat) : Nat := sheetUnits.getD i 0

/-- The bits of a result record. -/
def recordWord (r : TestRec) : Nat :=
  r.outcome + 2 ^ 4 * r.kind + 2 ^ 8 * r.duration + 2 ^ 32 * r.time + 2 ^ 64 * (r.applied % 2 ^ 32) + 2 ^ 96 * (r.planned % 2 ^ 32) + 2 ^ 128 * r.fail

/-- Rolling test active (R569, R575). -/
def rolling (s : State) : Bool :=
  s.power.fullService && (s.boot.lifecycle == .provisioned || s.boot.lifecycle == .deployed)

/-- The 32-bit word at an offset of the TEST block. -/
def testReg (s : State) (off : Nat) : Nat :=
  if off == 0x0000 then b2n (rolling s) + 2 ^ 8 * sat 8 s.test.running.length + 2 ^ 16 * (s.test.overdue.length % 2 ^ 12)
  else if off == 0x0008 then s.test.period
  else if 0x0400 ≤ off && off < 0x0400 + 4 * 207 then tgetD s.test.cperiod (allClusters.getD ((off - 0x0400) / 4) 0) 0
  else if 0x10000 ≤ off && off < 0x10000 + 0x100 * 3261 then
    match (tgetD s.test.records (unitAt ((off - 0x10000) / 0x100)) [])[off % 0x100 / 0x20]? with
    | some r => wordN (recordWord r) (off % 0x20 / 4)
    | none => 0
  else 0

end Sys2Proof.Machine
end

