-- ==== Sys2Proof/Machine/Age.lean ====
section
/-! DEFINITION. The ageing governor: scans, taps, rails, prunes; and reads of contact sheets (R538-R548, R555, R558). -/

namespace Sys2Proof.Machine

def dieAge (s : State) (d : Nat) : DieAge := tgetD s.age.dies d {}
def dieAgeMod (d : Nat) (f : DieAge → DieAge) (s : State) : State := ageMod (fun a => { a with dies := tmod a.dies d {} f }) s
/-! ## Readings (R539, R540) -/

/-- Lowest margin among the in-service units of a die with a reading. -/
def lowMargin (s : State) (d : Nat) : Int :=
  let l := (s.age.units.filter fun e => pDie e.1 == d && inServiceUnit s e.1).map fun e => e.2.margin
  match l with
  | [] => 0
  | a :: r => r.foldl min a

/-- What a reading says of its unit at a rail: slowdown, the guard of each matched delay, margin. Taps stay as the governor set them. -/
def readUnit (mv : Nat) (f : UnitFuse) (r : CanaryRead) (u : UnitAge) : UnitAge :=
  let slow := unitSlow mv r.temp f r.canaries
  { u with
    slowdown := slow, guards := (f.delays.zip r.delays).map fun e => guardOf r.temp f r.canaries e.1 e.2
    margin := marginAt mv slow, stale := false }

/-- `secs` more seconds of service for the units of a die that carry work (R549). -/
def countService (d secs : Nat) (s : State) : State :=
  let add := fun (p : Nat) (u : UnitAge) => if pDie p == d && inServiceUnit s p then { u with served := u.served + secs } else u
  ageMod (fun a => { a with units := tmap a.units add }) s

/-- The readings of a scan are taken; units that are not read keep their values, marked stale (R539, R540). -/
def takeReads (d : Nat) (l : List CanaryRead) (secs : Nat) (s : State) : State :=
  let mv := (dieAge s d).rail
  let old := fun (p : Nat) (u : UnitAge) => if pDie p == d && outOfService s p then { u with stale := true } else u
  let s := countService d secs (ageMod (fun a => { a with units := tmap a.units old }) s)
  let s := l.foldl (fun s r =>
    if pDie r.unit == d && levelOf r.unit == .unit && unitRead s r.unit then
      unitAgeMod r.unit (readUnit mv (unitFuse s r.unit) r) s
    else s) s
  dieAgeMod d (fun x => { x with lowMargin := lowMargin s d }) s

/-! ## Actions (R541-R546) -/

/-- Margin that a unit of the die must keep: 10 % + δ. -/
def marginNeed (mv : Nat) (u : UnitAge) : Int := 1000 + Int.ofNat (marginLoss mv u)

/-- Is the guard of matched delay `j` short: below 1.10 + δg (R541)? -/
def guardShort (f : UnitFuse) (u : UnitAge) (j : Nat) : Bool := decide (u.guards.getD j 0 < 1000 + guardLoss f u j)

/-- Is the margin of a unit short? -/
def marginShort (mv : Nat) (u : UnitAge) : Bool := decide (u.margin < marginNeed mv u)

/-- The matched delays of which the unit has a guard. -/
def delaysRead (u : UnitAge) : List Nat := List.range u.guards.length

/-- Does the unit need action? -/
def needs (s : State) (d p : Nat) : Bool :=
  let u := unitAge s p
  marginShort (dieAge s d).rail u || (delaysRead u).any (guardShort (unitFuse s p) u)

/-- Is a guard of a unit a fault: below 1.05, or short of 1.10 with tap 15 at the ceiling (R546)? -/
def guardFault (s : State) (d p : Nat) : Bool :=
  let x := dieAge s d
  let u := unitAge s p
  (delaysRead u).any fun j =>
    decide (u.guards.getD j 0 < 500) ||
    (decide (u.guards.getD j 0 < 1000) && u.taps.getD j 0 == 15 && (decide (x.ceiling ≤ x.rail) || x.held))

/-- The least guard of a unit, less one, in 0.5 %. -/
def leastGuard (u : UnitAge) : Nat :=
  match u.guards with
  | [] => 0
  | g :: r => r.foldl min g / 50

/-- A list with entry `j` set, filled with zeros. -/
def setNth (l : List Nat) (j v : Nat) : List Nat := (List.range (max l.length (j + 1))).map fun k => if k == j then v else l.getD k 0

/-- A tap takes a new value, 0 to 15 (R48, R49): to flash first (R547). -/
def setTap (p j tap : Nat) (s : State) : State :=
  unitAgeMod p (fun u => { u with taps := setNth u.taps j (min 15 tap) }) (toFlash 3 p [byte j, byte (min 15 tap)] s)

/-- Margin predicted after matched delay `j` is one step longer: the loop that contains it grows by 1/16 of its tap-0 delay (R48). -/
def marginLonger (mv : Nat) (f : UnitFuse) (r : CanaryRead) (u : UnitAge) (j : Nat) : Option Int :=
  (f.delays[j]?).map fun m =>
    let step := r.delays.getD j 0 / (16 + u.taps.getD j 0)
    let l := (List.range r.canaries.length).map fun k => r.canaries.getD k 0 + (if k == m.loop then step else 0)
    marginAt mv (unitSlow mv r.temp f l)

/-- Guard less one predicted after matched delay `j` is one step shorter. -/
def guardShorter (u : UnitAge) (j : Nat) : Nat :=
  let t := 16 + u.taps.getD j 0
  (10000 + u.guards.getD j 0) * (t - 1) / t - 10000

/-- The short matched delay that may be one step longer: the margin stays at 10 % + δ or above. -/
def longerAt (mv : Nat) (f : UnitFuse) (r : CanaryRead) (u : UnitAge) : Option Nat :=
  (delaysRead u).find? fun j => guardShort f u j && decide (u.taps.getD j 0 < 15) &&
    (match marginLonger mv f r u j with | some m => decide (marginNeed mv u ≤ m) | none => false)

/-- The matched delay that may be one step shorter while the margin is short: its guard stays at 1.10 + δg or above. -/
def shorterAt (mv : Nat) (f : UnitFuse) (u : UnitAge) : Option Nat :=
  if marginShort mv u then
    (delaysRead u).find? fun j => decide (0 < u.taps.getD j 0) && decide (1000 + guardLoss f u j ≤ guardShorter u j)
  else none

/-- No spare at any level can ever carry the unit. -/
def unspared (p : Nat) : Bool := (sparedUnit p).isNone && (clusterSpare (clusterOf p)).isNone

/-- The margin of a unit that no spare can carry is reported once (R546). -/
def marginLow (p : Nat) (s : State) : State :=
  if (unitAge s p).low then s
  else raise 0x3007 g0Place [agePath s p, sw (unitAge s p).margin] (unitAgeMod p (fun u => { u with low := true }) s)

/-- The first action that restores the need of a unit, and whether one was taken. A unit without action leaves the step to the next unit
in need. -/
def act (d : Nat) (r : CanaryRead) (s : State) : Bool × State :=
  let x := dieAge s d
  let u := unitAge s r.unit
  let f := unitFuse s r.unit
  match longerAt x.rail f r u with
  | some j => (true, setTap r.unit j (u.taps.getD j 0 + 1) s)
  | none => match shorterAt x.rail f u with
    | some j => (true, setTap r.unit j (u.taps.getD j 0 - 1) s)
    | none =>
      if x.rail < x.ceiling && !x.held then (true, dieAgeMod d (fun x => { x with want := 1 }) s)
      else if unspared r.unit then (false, marginLow r.unit s)
      else if s.age.waiting.contains r.unit || grafting s r.unit || grafting s (clusterOf r.unit) then (false, s)
      else
        let t := prune r.unit s
        (t.spare.grafts != s.spare.grafts, t)

/-- Would every in-service unit of the die keep 11 % + δ with the rail one step lower (R544)? -/
def mayLower (s : State) (d : Nat) : Bool :=
  let x := dieAge s d
  x.lowering && !x.held && decide (705 ≤ x.rail) &&
  s.age.units.all fun e => !(pDie e.1 == d && inServiceUnit s e.1) ||
    decide (100 + marginNeed (x.rail - 5) e.2 ≤ marginAt (x.rail - 5) e.2.slowdown)

/-- The governor works through the units of a die in need until one step has been taken (R541, R55, R56). -/
def actAll (d : Nat) : List CanaryRead → State → State
  | [], s => s
  | r :: l, s => if (act d r s).1 then (act d r s).2 else actAll d l (act d r s).2

/-- GOVERNOR_SCAN (R539, R541, R546): the readings of die `d`, `secs` seconds after those before. Guard faults are handled first; then one step is taken for the first
unit in need for which one can be. Prunes that the end of an exposure left open are tried again (R39, R41). -/
def execGovernorScan (d : Nat) (l : List CanaryRead) (secs : Nat) (s : State) : Res :=
  onElem (hasDie d)
    (if !s.age.active || !dieUp s d then s
     else
       let s := pruneWaiting (takeReads d l secs s)
       let live := l.filter fun r => pDie r.unit == d && levelOf r.unit == .unit && inServiceUnit s r.unit
       let bad := live.filter fun r => guardFault s d r.unit
       let s := bad.foldl (fun s r => faultUnit r.unit (raise 0x3008 g0Place [agePath s r.unit, leastGuard (unitAge s r.unit)] s)) s
       let need := live.filter fun r => inServiceUnit s r.unit && needs s d r.unit
       if need.isEmpty then dieAgeMod d (fun x => { x with want := if mayLower s d then 2 else 0 }) s
       else actAll d need s)

/-- A rail is set: to flash first, then commanded (R547). -/
def setRail (d mv : Nat) (s : State) : State :=
  emit (.rail d mv) (dieAgeMod d (fun x => { x with rail := mv, awaiting := true, runStart := some (x.runStart.getD x.rail) })
    (toFlash 3 d (le 2 mv) s))

/-- GOVERNOR_RAIL_STEP (R543): one step of 5 mV towards what the governor wants; never while a step awaits its reading. -/
def execGovernorRailStep (d : Nat) (s : State) : Res :=
  onElem (hasDie d)
    (let x := dieAge s d
     if !s.age.active || x.awaiting || x.held then s
     else if x.want == 1 && x.rail < x.ceiling then setRail d (min x.ceiling (x.rail + 5)) s
     else if x.want == 2 && 705 ≤ x.rail then setRail d (x.rail - 5) s
     else s)

/-- A run of steps ends: reported. -/
def endRun (d : Nat) (s : State) : State :=
  let x := dieAge s d
  let s := dieAgeMod d (fun x => { x with want := 0, runStart := none }) s
  match x.runStart with
  | some old => raise 0x3003 g0Place [d, old, x.rail] s
  | none => s

/-- Does a unit of the die still need the rail higher? -/
def stillShort (s : State) (d : Nat) : Bool :=
  s.age.units.any fun e => pDie e.1 == d && inServiceUnit s e.1 &&
    decide (marginAt (dieAge s d).rail e.2.slowdown < marginNeed (dieAge s d).rail e.2)

/-- RAIL_MONITOR_CHECK (R543, R568): the monitor of a die reads `mv`. -/
def execRailMonitorCheck (d mv : Nat) (s : State) : Res :=
  onElem (hasDie d)
    (let x := dieAge s d
     let s := dieAgeMod d (fun x => { x with awaiting := false }) s
     if x.rail + 10 < mv || mv + 10 < x.rail then
       if x.held then s
       else
         let s := raise 0x3004 g0Place [d, x.rail, mv] (dieAgeMod d (fun x => { x with held := true }) s)
         cutDie (some d) 6 (endRun d (testMod (fun t => { t with railHold := insertNat t.railHold d }) s))
     else
       let s := dieAgeMod d (fun x => { x with held := false }) (testMod (fun t => { t with railHold := t.railHold.filter (· != d) }) s)
       let again := fun (p : Nat) (u : UnitAge) => if pDie p == d then { u with margin := marginAt x.rail u.slowdown } else u
       let s := ageMod (fun a => { a with units := tmap a.units again }) s
       let more := (x.want == 1 && stillShort s d && decide (x.rail < x.ceiling)) || (x.want == 2 && mayLower s d)
       if more then s else endRun d s)

/-! ## Reads of contact sheets (R558, R462) -/

/-- A data-buffer command's key: what it reads, the space and the address. -/
def bufKey (what space addr : Nat) : Nat := what % 2 ^ 80 + 2 ^ 80 * (space + 2 * addr)
def keyWhat (k : Nat) : Nat := k % 2 ^ 80
def keySpace (k : Nat) : Nat := k / 2 ^ 80 % 2
def keyAddr (k : Nat) : Nat := k / 2 ^ 81

/-- The owed command of a queue and tag. -/
def owedAt (s : State) (opcode : Nat) (q : QueueId) (tag : Nat) : Option Owed :=
  s.cmd.owed.find? fun o => o.opcode == opcode && o.queue == q && o.tag == tag

/-- Path word of the controller through which host memory is reached, the element of a HOST_ACCESS fault. -/
def hostElement (s : State) (q : QueueId) : Nat :=
  match queueFn q with
  | some f => (pathOf s (pciePlace f.link)).toNat
  | none => (pathOf s g0Place).toNat

/-- The bytes of a data-buffer command are written, and it completes with a result, or with FAULT and HOST_ACCESS. -/
def finishBuffer (o : Owed) (ok : Bool) (d res : Bytes) (s : State) : State :=
  let bad := faultRep dHostAccess (hostElement s o.queue)
  if !ok then finish o bad s
  else match bufferWrite o.queue (keySpace o.key) (keyAddr o.key) d s with
    | some s => finish o (repOk res) s
    | none => finish o bad s

def opAgeSheetRead : Op := mkOp 0x3002 20 [(3, 5)] .package fun c s =>
  let k := c.prm 0 2
  let sp := c.prm 2 1
  let a := c.prm 8 8
  if 16383 < k || s.age.sheets ≤ k then .refuse (badParam dRange)
  else if c.prm 16 4 < 16384 then .refuse (noResource dBufferShort)
  else match bufferRefusal s c.queue sp a 16384 true with
    | some r => .refuse r
    | none => .accept (bufKey (s.age.sheets - 1 - k) sp a) s

def execAgeSheetRead (c : Cmd) (s : State) : Res := .next (runCmd opAgeSheetRead c s)

/-- AGE_SHEET_READ_COMPLETE (R558): the sheet has been written to the buffer of the command of a queue and tag, or host memory failed;
a sheet that neither flash device holds is counted as lost and faults. -/
def execAgeSheetReadComplete (q : QueueId) (tag : Nat) (ok : Bool) (s : State) : Res :=
  .next (match owedAt s 0x3002 q tag with
    | none => s
    | some o =>
      let n := keyWhat o.key
      if s.age.lost.contains n then finish o (faultRep dEcc (pathOf s (mkPlace 0 1 29 3)).toNat) s
      else finishBuffer o ok (fitTo 16384 (tgetD s.age.ring (n % 16384) [])) (le 4 16384) s)

def opAgeSheetTime : Op := mkOp 0x3003 4 [] .package fun c s =>
  if 86399 < c.prm 0 4 then .refuse (badParam dRange)
  else .ok [] (ageMod (fun a => { a with sheetTime := c.prm 0 4 }) (toFlash 11 4096 (le 4 (c.prm 0 4)) s))

def execAgeSheetTime (c : Cmd) (s : State) : Res := .next (runCmd opAgeSheetTime c s)

/-! ## Element status (R451, R557) -/

/-- The spare whose ledger stands for a place, if any does. -/
def standIn (s : State) (p : Nat) : Option Nat :=
  match spareFor p with
  | some sp =>
    let l := ledger s sp
    if l.state != .free && l.state != .failed && place l.standsFor.toNat == p then some sp else none
  | none => none

/-- Status of an element as SYS_PATH_QUERY result [0]: 0 in service, 1 stands in, 2 cloched, 3 pruned or FAULT (and lost elements,
R585), 4 FREE spare, 5 FAILED. -/
def pathStatus (s : State) (p : Nat) : Nat :=
  if s.spare.lost.contains p || s.spare.lost.contains (clusterOf p) || s.spare.lost.contains (regionOf p) ||
      s.spare.lost.contains (dieOf p) || s.spare.retired.contains p then 3
  else if isSpare p && (ledger s p).state == .failed then 5
  else if s.spare.cloched.contains p then 2
  else if isSpare p then (if (ledger s p).state == .free then 4 else 1)
  else 0

/-! ## AGE registers (R560) -/

/-- The 32-bit unit record of R557. -/
def unitRecord (s : State) (p : Nat) : Nat :=
  let u := unitAge s p
  min 4095 u.slowdown + 2 ^ 12 * min 15 (u.taps.foldl max 0) + 2 ^ 16 * min 255 (leastGuard u) + 2 ^ 24 * pathStatus s p + 2 ^ 28 * b2n u.stale

/-- The 32-bit word at an offset of the AGE block. -/
def ageReg (s : State) (off : Nat) : Nat :=
  if off == 0x0000 then b2n s.age.active
  else if off == 0x0004 then s.age.sheets - 1
  else if off == 0x0008 then s.age.sheetTime
  else if 0x0100 ≤ off && off < 0x0150 then
    let x := dieAge s ((off - 0x0100) / 0x10)
    if off % 0x10 == 0 then x.rail + 2 ^ 16 * x.ceiling else if off % 0x10 == 4 then wrap 16 x.lowMargin else 0
  else if 0x10000 ≤ off && off < 0x10000 + 8 * 3261 then
    let p := unitAt ((off - 0x10000) / 8)
    if off % 8 == 0 then unitRecord s p
    else wrap 16 (unitAge s p).margin + 2 ^ 16 * min 65535 ((unitAge s p).years.getD 0 / 10)
  else 0

end Sys2Proof.Machine
end

