-- ==== Sys2Proof/Machine/Cart.lean ====
section
/-! DEFINITION. Cartridges and engines: settlement, hot swap, laser and engine faults, life records (R513-R537). -/

namespace Sys2Proof.Machine

/-- A row about a cartridge slot. -/
def onSlot (sl : Nat) (t : State) : Res := onElem (decide (sl < 16)) t

/-- Slot of a cartridge-slot unit's place. -/
def placeSlot (p : Nat) : Nat := 4 * (pDie p - 1) + 2 * (pRegion p / 2) + (pUnit p - 96)

def raiseSlot (code sl : Nat) (words : List Nat) (s : State) : State := raise code (slotPlace sl) words s

/-! ## Light that changes (R514, R515, R522-R525) -/

/-- Laser pairs of cartridge pair `k` that were lit in `old` and are dark now: reported, and their ports go down (R523). -/
def darkened (k sl : Nat) (old s : State) : State :=
  (List.range 16).foldl (fun s j =>
    if !pairDark old k j && pairDark s k j then
      (pairPorts k j).foldl (fun s p => portDark p s) (raiseSlot 0x3405 sl [j, 8] s)
    else s) s

/-- Every laser of a slot takes its final light at once, where it is working and its mate has stopped (R522, R525). -/
def stepUp (sl : Nat) (s : State) : State :=
  (List.range 16).foldl (fun s j =>
    let m := slotOf s (mateSlot sl)
    if supplies (slotOf s sl) && bit (slotOf s sl).working j && !(supplies m && bit m.working j) then setTarget sl j (finalLight s sl j) s else s) s

/-- A slot beside one that no longer supplies light stands alone (R521). -/
def nowAlone (sl : Nat) (s : State) : State :=
  if (slotOf s sl).st == .sharing && !supplies (slotOf s (mateSlot sl)) then slotMod sl (fun x => { x with st := .alone }) s else s

/-- No laser of the slot is biased. -/
def unbias (sl : Nat) (s : State) : State := (List.range 16).foldl (fun s j => setTarget sl j 0 s) s

/-- A slot in RAMPING_DOWN or READY_TO_REMOVE ramps back to share from its present light, over the remainder of 64 steps; a prepare
still ramping completes with ABORTED (R528). -/
def rampBack (sl : Nat) (s : State) : State :=
  let x := slotOf s sl
  if x.st == .rampingDown then
    finishKey 0x3402 sl (aborted 0) (slotMod sl (fun x => { x with st := .rampingUp, step := 64 - x.step, swapping := false }) s)
  else if x.st == .readyToRemove then slotMod sl (fun x => { x with st := .rampingUp, step := 0, swapping := false }) s
  else s

/-- A slot stops giving light without having been prepared (R525, R529): its mates step up, and a swap in progress ends. -/
def lightGone (sl : Nat) (s : State) : State :=
  let s := finishKey 0x3402 sl (aborted 0) (finishKey 0x3403 sl (aborted 0) s)
  nowAlone (mateSlot sl) (stepUp (mateSlot sl) (rampBack (mateSlot sl) s))

/-! ## Life records (R530-R534) -/

/-- Sample at place `i` of a laser's ring of 90, zero where there is none (R530). -/
def ringSample (r : LifeRec) (j i : Nat) : Bytes :=
  let l := r.samples.getD j []
  let k := (i + l.length + 90 - r.taken % 90) % 90
  match l[k]? with
  | some e => le 2 e.1 ++ le 2 e.2
  | none => [0, 0, 0, 0]

/-- The bytes of a life record (R530). -/
def lifeBytes (r : LifeRec) : Bytes :=
  le 16 r.serial ++ le 4 r.litHours ++ le 4 r.aloneHours ++ le 4 r.firstLit ++ le 2 r.working ++
  [byte r.cls, byte (b2n r.inserted + 2 * b2n r.adopted)] ++ le 2 r.iMax ++ [byte (min 90 r.taken), byte (r.taken % 90)] ++
  List.replicate 28 0 ++ (List.range 16).flatMap fun j => (List.range 90).flatMap (ringSample r j)

def putLife (r : LifeRec) (s : State) : State :=
  toFlash 5 r.serial (lifeBytes r)
    (cartMod (fun c => { c with lives := c.lives.map fun x => if x.serial == r.serial then r else x }) s)

/-- The record not inserted whose last light is oldest. -/
def oldestLife (l : List LifeRec) : Option LifeRec :=
  (l.filter fun r => !r.inserted).foldl (fun a r => match a with
    | none => some r
    | some b => if r.lastLit < b.lastLit then some r else a) none

/-- A record is opened; a full store of 512 replaces the one whose last light is oldest. -/
def openLife (r : LifeRec) (s : State) : State :=
  let l := s.cart.lives
  let l := if l.length < 512 then l
    else match oldestLife l with
      | some o => l.filter fun x => x.serial != o.serial
      | none => l
  putLife r (cartMod (fun c => { c with lives := l ++ [r] }) s)

/-- Numerators of the least-squares line through samples: 2 n D, 2 n D × value at the latest sample, 2 n × slope × D (R533). -/
def lineOf (l : List Nat) : Int × Int × Int :=
  let n := Int.ofNat l.length
  let sy := Int.ofNat (l.foldl (· + ·) 0)
  let sxy := Int.ofNat (((List.range l.length).zip l).foldl (fun a e => a + e.1 * e.2) 0)
  let sx := n * (n - 1) / 2
  let sxx := (n - 1) * n * (2 * n - 1) / 6
  let d := n * sxx - sx * sx
  let m := n * sxy - sx * sy
  if d == 0 then (2 * n, 2 * sy, 0) else (2 * n * d, 2 * d * sy + m * n * (n - 1), 2 * n * m)

/-- Margin of one laser in days: the line through its samples against I_max (R533). -/
def laserMargin (iMax : Nat) (l : List Nat) : Nat :=
  let (k, f, m) := lineOf l
  if m ≤ 0 then 65535 else min 65535 ((Int.ofNat (100 * iMax) * k - f) / m).toNat

/-- Is the projected I80 of a laser at or above I_max (R527, R533)? -/
def atLimit (iMax : Nat) (l : List Nat) : Bool :=
  let (k, f, _) := lineOf l
  !l.isEmpty && decide (Int.ofNat (100 * iMax) * k ≤ f)

def laserSamples (r : LifeRec) (j : Nat) : List Nat := (r.samples.getD j []).map fun e => e.1

/-- Margin of a cartridge: the least of its working lasers; with fewer than 14 samples from the rated life of 80,000 lit hours (R533). -/
def cartMargin (x : Slot) (r : LifeRec) : Nat :=
  ((List.range 16).filter fun j => bit x.working j).foldl (fun a j =>
    let l := laserSamples r j
    min a (if l.length < 14 then (80000 - r.litHours) / 24 else laserMargin r.iMax l)) 65535

/-- The cartridge of a slot is reported as due for replacement (R519, R522, R534). -/
def replaceDue (sl margin : Nat) (s : State) : State :=
  raiseSlot 0x3406 sl [margin, litHours s sl] (slotMod sl (fun x => { x with dueAt := some s.time.sec }) s)

/-! ## Settlement (R518-R520) -/

/-- A cartridge is refused and stays dark. -/
def refuseCart (sl cause : Nat) (s : State) : State :=
  raiseSlot 0x3402 sl [cause] (slotMod sl (fun x => { x with st := .refused }) s)

/-- Twelve draws of the random source: a challenge of 48 bytes. -/
def challenge : Nat → State → Bytes × State
  | 0, s => ([], s)
  | n + 1, s =>
    let (w, s) := drawRandom s
    let (b, s) := challenge n s
    (le 4 w.toNat ++ b, s)

/-- CART_PRESENCE_ASSERT (R518 steps 1 to 3): a cartridge is inserted; its serial and whether its chain ends at the root, where its
bus answers. -/
def execCartPresenceAssert (sl : Nat) (id : Option (Nat × Bool)) (s : State) : Res :=
  onSlot sl
    (if (slotOf s sl).presence then s
     else
       let s := slotMod sl (fun _ => { st := .settling, presence := true }) s
       match id with
       | none => s
       | some (serial, chain) =>
         let s := slotMod sl (fun x => { x with serial := serial % 2 ^ 128 }) s
         if !chain then refuseCart sl 1 s
         else
           let (c, s) := challenge 12 s
           emit (.cart sl 3 c) s)

/-- The settled cartridge has its life record: the device's own, or one adopted from the cartridge (R531). -/
def settleLife (sl : Nat) (k : CartCap) (s : State) : State :=
  let x := slotOf s sl
  match lifeOf s x.serial with
  | some r =>
    let s := if k.lit < r.litHours then raiseSlot 0x3409 sl [r.litHours, k.lit] s else s
    putLife { r with inserted := true, iMax := k.iMax % 65536, cls := k.cls, lastLit := now32 s } s
  | none =>
    openLife {
      serial := x.serial, litHours := k.lit, aloneHours := k.alone, firstLit := if k.firstLit == 0 then now32 s else k.firstLit
      working := k.mask % 65536, cls := k.cls, inserted := true, adopted := true, iMax := k.iMax % 65536
      samples := k.samples.map fun l => l.drop (l.length - 90), taken := (k.samples.map List.length).foldl max 0, lastLit := now32 s } s

/-- The cartridge of a slot settles (R519, R520). -/
def settleCart (sl : Nat) (k : CartCap) (s : State) : State :=
  let s := settleLife sl k s
  let own := match lifeOf s (slotOf s sl).serial with | some r => r.working | none => 0
  let working := and32 (k.mask % 65536) own
  let mate := (slotOf s (mateSlot sl)).st
  let swap := mate == .sharing || mate == .alone
  let s := slotMod sl (fun x => { x with
    st := .rampingUp, step := 0, swapping := swap, cls := k.cls, working := working, iMax := k.iMax % 65536
    lasers := (List.range 16).map fun j => (j, { failed := !bit working j }) }) s
  let s := match lifeOf s (slotOf s sl).serial with
    | some r => slotMod sl (fun x => { x with margin := cartMargin x r }) s
    | none => s
  let s := raiseSlot 0x3401 sl [k.cls, working] s
  let s := if k.cls < 2 || working != 0xFFFF then replaceDue sl 0 s else s
  if working == 0 then slotMod sl (fun x => { x with st := .failed }) s else s

/-- CART_CHALLENGE_RESPONSE (R518 steps 4 to 6): whether the signature verifies, and the capability block. -/
def execCartChallengeResponse (sl : Nat) (sig : Bool) (k : CartCap) (s : State) : Res :=
  onSlot sl
    (if (slotOf s sl).st != .settling then s
     else if !sig then refuseCart sl 2 s
     else if k.cls == 0 || 2 < k.cls then refuseCart sl 3 s
     else settleCart sl k s)

/-- CART_SETTLE_TIMEOUT (R518): 2 s of presence have passed. -/
def execCartSettleTimeout (sl : Nat) (s : State) : Res :=
  onSlot sl (if (slotOf s sl).st == .settling then refuseCart sl 4 s else s)

/-! ## Ramps (R520, R526, R528) -/

/-- One step of a laser towards its final light, over the steps that remain. -/
def moveLight (t g left : Nat) : Nat := if left == 0 then g else if t ≤ g then t + (g - t) / left else t - (t - g) / left

def stepLasers (sl left : Nat) (s : State) : State :=
  (List.range 16).foldl (fun s j =>
    let t := (laserOf s sl j).target
    let g := finalLight s sl j
    if t == g then s else setTarget sl j (moveLight t g left) s) s

def isRamping (x : Slot) : Bool := x.st == .rampingDown || x.st == .rampingUp

/-- The ramp down has ended: the slot is dark and may be removed (R526 step 3). -/
def rampedDown (sl : Nat) (s : State) : State :=
  let s := slotMod sl (fun x => { x with st := .readyToRemove }) (unbias sl s)
  finishKey 0x3402 sl (repOk []) (raiseSlot 0x3407 sl [] (nowAlone (mateSlot sl) s))

/-- The ramp up has ended: both slots share, or the slot stands alone (R520, R526 step 8, R528). -/
def rampedUp (sl : Nat) (s : State) : State :=
  let x := slotOf s sl
  let m := slotOf s (mateSlot sl)
  if supplies m then
    let s := slotMod sl (fun x => { x with st := .sharing, swapping := false }) s
    let s := if m.st == .alone then slotMod (mateSlot sl) (fun x => { x with st := .sharing }) s else s
    let s := if x.swapping then raiseSlot 0x3408 sl [x.serial % 2 ^ 32] s else s
    finishKey 0x3403 sl (repOk []) s
  else finishKey 0x3403 sl (repOk []) (slotMod sl (fun x => { x with st := .alone, swapping := false }) s)

/-- CART_RAMP_STEP (R526): 31.25 ms of a slot's ramp have passed; it stands still while the die that holds its bus is out (R529). During a start the ramp waits while the other slot of the pair is
settling, so that the two ramp together (R638). -/
def execCartRampStep (sl : Nat) (s : State) : Res :=
  onSlot sl
    (let x := slotOf s sl
     if !isRamping x || !dieUp s (sl / 4 + 1) || (x.st == .rampingUp && (slotOf s (mateSlot sl)).st == .settling && !s.power.fullService) then s
     else
       let t := stepLasers sl (64 - x.step) s
       let t := if isRamping (slotOf s (mateSlot sl)) then t else stepLasers (mateSlot sl) (64 - x.step) t
       let t := slotMod sl (fun x => { x with step := x.step + 1 }) t
       let t := darkened (sl / 2) sl s t
       if x.step + 1 < 64 then t else if x.st == .rampingDown then rampedDown sl t else rampedUp sl t)

/-! ## Faults and removals (R517, R522-R525, R529) -/

/-- A cartridge no longer gives light: its state, its lasers, its mates, its pairs. -/
def cartFails (sl : Nat) (s : State) : State :=
  let t := slotMod sl (fun x => { x with st := .failed }) (unbias sl s)
  darkened (sl / 2) sl s (lightGone sl t)

/-- LASER_FAILURE (R522): low light or maximum bias of a laser has lasted 10 µs. -/
def execLaserFailure (sl j : Nat) (s : State) : Res :=
  onElem (decide (sl < 16) && decide (j < 16))
    (let x := slotOf s sl
     if !bit x.working j || !slotLit x then s
     else
       let t := setTarget sl j 0 s
       let t := slotMod sl (fun x => { x with
         working := clrBit x.working j, lasers := tmod x.lasers j {} fun l => { l with failed := true } }) t
       let t := match lifeOf t x.serial with
         | some r => putLife { r with working := clrBit r.working j } t
         | none => t
       let t := rampBack (mateSlot sl) t
       let m := slotOf t (mateSlot sl)
       let mate := supplies m && bit m.working j
       let t := if mate then setTarget (mateSlot sl) j (finalLight t (mateSlot sl) j) t else t
       let t := replaceDue sl 0 (raiseSlot 0x3404 sl [j, b2n mate] t)
       if (slotOf t sl).working == 0 then darkened (sl / 2) sl s (lightGone sl (slotMod sl (fun x => { x with st := .failed }) t))
       else darkened (sl / 2) sl s t)

/-- CART_FATAL_FAULT (R521): the cartridge reports a fatal fault. -/
def execCartFatalFault (sl : Nat) (s : State) : Res :=
  onSlot sl (if slotLit (slotOf s sl) || (slotOf s sl).st == .readyToRemove then cartFails sl s else s)

/-- CART_LATCH_OPEN (R525): the latch of a lit cartridge opens. -/
def execCartLatchOpen (sl : Nat) (s : State) : Res :=
  onSlot sl
    (if slotLit (slotOf s sl) && !(slotOf s sl).latch then lightGone sl (slotMod sl (fun x => { x with latch := true }) s) else s)

/-- The life record of a slot's cartridge says that it is no longer inserted. -/
def lifeOut (sl : Nat) (s : State) : State :=
  match slotLife s sl with
  | some r => putLife { r with inserted := false, lastLit := if slotLit (slotOf s sl) then now32 s else r.lastLit } s
  | none => s

/-- CART_PRESENCE_OPEN (R525, R526 step 4): the slot becomes EMPTY. -/
def execCartPresenceOpen (sl : Nat) (s : State) : Res :=
  onSlot sl
    (let x := slotOf s sl
     if !x.presence then s
     else
       let lit := slotLit x
       let t := lifeOut sl s
       let t := if lit then lightGone sl (slotMod sl (fun x => { x with latch := true }) t) else t
       let t := darkened (sl / 2) sl s (slotMod sl (fun _ => {}) t)
       if lit then raiseSlot 0x3403 sl [0] t else if x.st == .readyToRemove then raiseSlot 0x3403 sl [1] t else t)

/-- OPTICAL_ENGINE_FAULT (R524): causes 1 interface lost, 2 supply, 3 internal. Every lane of the engine is dark. -/
def execOpticalEngineFault (e cause : Nat) (s : State) : Res :=
  onElem (decide (e < 32))
    (engineFault e cause s)

/-- LANE_FAULT (R524): only the lane of one port is dark. -/
def execLaneFault (p : Nat) (s : State) : Res :=
  onElem (decide (p < 1024))
    (portDark p (cartMod (fun c => { c with engines := tmod c.engines (p / 32) {} fun x => { x with
      laneFault := setBit x.laneFault (p % 32) } }) s))

/-- CART_BUS_SILENCE (R517): a lit cartridge has not been reachable for 1 s. -/
def execCartBusSilence (sl : Nat) (s : State) : Res :=
  onSlot sl
    (if slotLit (slotOf s sl) && !(slotOf s sl).busLost then
      raiseSlot 0x340B sl [sl / 4] (slotMod sl (fun x => { x with busLost := true }) s)
    else s)

def execCartBusRestored (sl : Nat) (s : State) : Res := onSlot sl (slotMod sl (fun x => { x with busLost := false }) s)

/-- CART_REPLACE_REMINDER (R534): 7 days have passed since the last report of a cartridge that is due. -/
def execCartReplaceReminder (sl : Nat) (s : State) : Res :=
  onSlot sl (if (slotOf s sl).dueAt.isSome then replaceDue sl (slotOf s sl).margin s else s)

/-- The fabric die that holds a slot's bus has restarted: its ramps go back to share (R529). -/
def busReturns (d : Nat) (s : State) : State := (span (4 * (d - 1)) 4).foldl (fun s sl => rampBackIfDown sl s) s
where
  rampBackIfDown (sl : Nat) (s : State) : State := if (slotOf s sl).st == .rampingDown then rampBack sl s else s

/-! ## Commands (R527, R528, R537) -/

/-- CART_READ: [0] state, [1] class, [2] lit lasers, [7:4] lit hours, [11:8] margin. -/
def opCartRead : Op := mkOp 0x3401 0 [] .cartSlot fun c s =>
  let sl := placeSlot c.place
  let x := slotOf s sl
  .ok ([byte (stateCode x.st), byte x.cls, byte (litCount x), 0] ++ le 4 (litHours s sl) ++ le 4 x.margin) s

def execCartRead (c : Cmd) (s : State) : Res := .next (runCmd opCartRead c s)

/-- Why the partner cannot carry the pair alone: its state, its class, or a laser of it whose mate works (R527). -/
def partnerShort (s : State) (sl : Nat) : Bool :=
  let x := slotOf s sl
  let m := slotOf s (mateSlot sl)
  m.st != .sharing || m.cls < 2 ||
  (List.range 16).any fun j => bit x.working j && (!bit m.working j ||
    (match slotLife s (mateSlot sl) with | some r => atLimit r.iMax (laserSamples r j) | none => false))

def opCartPrepareSwap : Op := mkOp 0x3402 0 [] .cartSlot fun c s =>
  let sl := placeSlot c.place
  if (slotOf s sl).busLost || (slotOf s (mateSlot sl)).busLost || (slotOf s sl).st != .sharing then .refuse (busy 0)
  else if partnerShort s sl then .refuse (noResource 0)
  else .accept sl (slotMod sl (fun x => { x with st := .rampingDown, step := 0 }) s)

def execCartPrepareSwap (c : Cmd) (s : State) : Res := .next (runCmd opCartPrepareSwap c s)

def opCartCancelSwap : Op := mkOp 0x3403 0 [] .cartSlot fun c s =>
  let sl := placeSlot c.place
  let x := slotOf s sl
  if x.st == .sharing then .ok [] s
  else if x.st == .rampingDown || x.st == .readyToRemove then .accept sl s (rampBack sl)
  else .refuse (busy 0)

def execCartCancelSwap (c : Cmd) (s : State) : Res := .next (runCmd opCartCancelSwap c s)

end Sys2Proof.Machine
end

