-- ==== Sys2Proof/Machine/Sheet.lean ====
section
/-! DEFINITION. Life projections, reports and contact sheets (R530-R534, R549-R560). -/

namespace Sys2Proof.Machine

/-! ## Projections (R550-R553) -/

/-- Projection of a unit in 0.01 year. -/
def unitYears (s : State) (p : Nat) : Nat := (unitAge s p).years.getD 65535

/-- The smallest and the second smallest of a list; 65,535 where there is none. -/
def leastTwo (l : List Nat) : Nat × Nat :=
  l.foldl (fun a x => if x < a.1 then (x, a.1) else if x < a.2 then (a.1, x) else a) (65535, 65535)
def least (l : List Nat) : Nat := (leastTwo l).1

/-- Is the spare FREE, so that it can still carry work? -/
def freeSpare (s : State) (sp : Nat) : Bool := spareSound s sp && (ledger s sp).state == .free

/-- Units of a cluster in service. -/
def liveUnits (s : State) (cl : Nat) : List Nat := (unitPlaces cl).filter fun p => inServiceUnit s p

/-- Projection of a cluster: with a FREE unit spare the second-earliest of the units that it replaces, otherwise the earliest. -/
def clusterYears (s : State) (cl : Nat) : Nat :=
  match unitSpare cl with
  | some sp =>
    if freeSpare s sp then (leastTwo (((liveUnits s cl).filter fun p => sparedUnit p == some sp).map (unitYears s))).2
    else least ((liveUnits s cl).map (unitYears s))
  | none => least ((liveUnits s cl).map (unitYears s))

/-- Projection of the four P or S clusters of a region with the spare cluster `sp`. -/
def groupYears (s : State) (d r first sp : Nat) : Nat :=
  let l := (span first 4).map fun c => clusterYears s (carrierOf s (clusterPlace d r c))
  if freeSpare s (clusterPlace d r sp) then (leastTwo l).2 else (leastTwo l).1

def regionYears (s : State) (d r : Nat) : Nat :=
  least [clusterYears s (clusterPlace d r 16), clusterYears s (clusterPlace d r 17), groupYears s d r 0 4, groupYears s d r 8 12]

def dieYears (s : State) (d : Nat) : Nat :=
  if d == 0 then least ((regionsIn 0).flatMap fun r => (clustersIn 0 r).map fun c => clusterYears s (clusterPlace 0 r c))
  else least ((List.range 4).map (regionYears s d))

def packageYears (s : State) : Nat := least ((span 0 5).map (dieYears s))

/-! ## DIMMs (R552) -/

/-- Corrected errors of a DIMM in the sheets of the last 90, oldest first: bytes [3:2] of its record. -/
def dimmCounts (s : State) (ch slot : Nat) : List Nat :=
  let n := min 90 s.age.sheets
  (span (s.age.sheets - n) n).map fun k => rd (tgetD s.age.ring (k % 16384) []) (400 + 8 * (2 * ch + slot) + 2) 2

/-- Projection of a DIMM in 0.01 year: where the line through its counts reaches ce_limit; zero once degraded. -/
def dimmYears (s : State) (ch slot : Nat) : Nat :=
  if bit (memCh s ch).degraded slot then 0
  else
    let (k, f, m) := lineOf (dimmCounts s ch slot)
    if m ≤ 0 then 65535 else min 65535 ((Int.ofNat s.mem.ceLimit * k - f) * 10000 / (m * 36525)).toNat

/-- Days as 0.01 year of 365.25 days. -/
def daysYears (d : Nat) : Nat := min 65535 (d * 10000 / 36525)

/-! ## AGE_REPORT (R553) -/

/-- Units that a place covers. -/
def covered (p : Nat) : List Nat :=
  allUnits.filter fun u => fieldMatch (pDie p) 7 (pDie u) && fieldMatch (pRegion p) 15 (pRegion u) &&
    fieldMatch (pCluster p) 31 (pCluster u) && fieldMatch (pUnit p) 127 (pUnit u)

/-- Projection of the element at a place (R551). -/
def placeYears (s : State) (p : Nat) : Nat :=
  match levelOf p with
  | .unit => unitYears s p
  | .cluster => clusterYears s p
  | .region => if pDie p == 0 then least ((clustersIn 0 (pRegion p)).map fun c => clusterYears s (clusterPlace 0 (pRegion p) c))
    else regionYears s (pDie p) (pRegion p)
  | .die => dieYears s (pDie p)
  | _ => packageYears s

/-- Lowest margin of the in-service units covered, in whole per cent. -/
def coveredMargin (s : State) (p : Nat) : Int :=
  match ((covered p).filter fun u => inServiceUnit s u).map fun u => (unitAge s u).margin with
  | [] => 0
  | a :: r => r.foldl min a / 100

/-- AGE_REPORT: [3:0] projection, [5:4] rail, [6] lowest margin. Which die's rail the package gives is a free value. -/
def opAgeReport : Op := mkOp 0x3001 0 [] .anyElement fun c s =>
  let p := c.place
  if isCartSlot p then .ok (le 4 (daysYears (slotOf s (placeSlot p)).margin) ++ [0, 0, 0]) s
  else if levelOf p == .unit && 24 ≤ pCluster p && pCluster p ≤ 26 && pUnit p < 4 then
    let ch := 4 * (pCluster p - 24) + pUnit p
    .ok (le 4 (least ((List.range (memCh s ch).dimms).map (dimmYears s ch))) ++ [0, 0, 0]) s
  else
    let (v, s') := if levelOf p == .package then drawFree s else (pDie p, s)
    .ok (le 4 (placeYears s p) ++ le 2 (dieAge s (v % 5)).rail ++ [byte (wrap 8 (coveredMargin s p))]) s'

def execAgeReport (c : Cmd) (s : State) : Res := .next (runCmd opAgeReport c s)

/-! ## CONTACT_SHEET (R530-R534, R542, R555-R557) -/

/-- Is the pair of a slot sampled today: both slots in SHARING or ALONE, or the one while the other is empty of light (R529)? -/
def sampledToday (s : State) (sl : Nat) : Bool :=
  let ok := fun (x : Slot) => x.st == .sharing || x.st == .alone
  ok (slotOf s sl) && (ok (slotOf s (mateSlot sl)) || (slotOf s sl).st == .alone && !isRamping (slotOf s (mateSlot sl)))

/-- One life sample of a working laser: its I80 and bias at share (R532). -/
def lifeSample (e : Nat × Nat × Nat × Nat) (s : State) : State :=
  let (sl, j, i80, bias) := e
  if sl < 16 && j < 16 && sampledToday s sl && bit (slotOf s sl).working j then
    let s := slotMod sl (fun x => { x with lasers := tmod x.lasers j {} fun l => { l with i80 := i80 % 65536 } }) s
    match slotLife s sl with
    | some r =>
      let add := fun (k : Nat × List (Nat × Nat)) => if k.1 == j then (k.2.drop (k.2.length - 89)) ++ [(i80 % 65536, bias % 65536)] else k.2
      let old := (List.range 16).map fun k => (k, r.samples.getD k [])
      cartMod (fun c => { c with lives := c.lives.map fun y => if y.serial == r.serial then { r with samples := old.map add } else y }) s
    | none => s
  else s

/-- Was a laser of the slot sampled today? -/
def slotSampled (s : State) (i : SheetIn) (sl : Nat) : Bool := (i.lasers.any fun e => e.1 == sl) && sampledToday s sl

/-- The daily work on a cartridge: margin, report where it is first due, hours written to it (R531, R533, R534). -/
def cartDay (sampled : Bool) (sl : Nat) (s : State) : State :=
  match slotLife s sl with
  | none => s
  | some r =>
    let r := { r with taken := r.taken + b2n sampled }
    let s := if sampled then putLife r s else s
    let m := cartMargin (slotOf s sl) r
    let s := slotMod sl (fun x => { x with margin := m }) s
    let s := if (slotOf s sl).busLost then s else emit (.cart sl 4 (le 4 r.litHours ++ le 4 r.aloneHours)) s
    if (slotOf s sl).dueAt.isNone && (m < 90 || 80000 ≤ r.litHours) then replaceDue sl m s else s

/-- Power budget in mW of a place (R29): a region of a fabric die, a die, the package. -/
def powerBudget (p : Nat) : Nat :=
  match levelOf p with
  | .region => if pDie p == 0 then 170000 else 41250
  | .die => if pDie p == 0 then 170000 else 165000
  | _ => 950000

/-- Projected power at maximum load in 0.1 W at a rail. -/
def powerAt (x : SheetDie) (mv : Nat) : Nat := x.powers.getD ((mv - 700) / 5) 0

/-- Ceiling of a die (R542): the highest rail up to 900 mV at which its projected power stays within its budget, 700 mV where none does. -/
def ceilingOf (d : Nat) (x : SheetDie) : Nat :=
  (List.range 41).foldl (fun m k => if 100 * powerAt x (700 + 5 * k) ≤ powerBudget (diePlace d) then 700 + 5 * k else m) 700

/-- The day's point of a unit's history, and its projection (R549, R550); a stale reading adds no point. -/
def sheetUnit (s : State) (p : Nat) (u : UnitAge) : UnitAge :=
  let f := unitFuse s p
  let u := if u.stale then u
    else { u with past := u.past ++ [{ hours := unitHours u, slowdown := u.slowdown, shrink := shrinkages f u }] }
  { u with years := some (exhaustion (dieAge s (pDie p)).ceiling f u) }

def dieRecord (s : State) (d : Nat) (x : SheetDie) : Bytes :=
  le 2 (dieAge s d).rail ++ le 2 (dieAge s d).ceiling ++ le 2 (wrap 16 x.mean) ++ le 2 (wrap 16 x.peak) ++ le 2 (powerAt x (dieAge s d).rail) ++
  le 2 (wrap 16 (dieAge s d).lowMargin) ++ le 4 (dieYears s d)

def bitsOf (n w : Nat) : Nat := ((List.range w).filter fun j => bit n j).length

def cartRecord (s : State) (sampled : Bool) (sl : Nat) : Bytes :=
  let x := slotOf s sl
  [byte (stateCode x.st), byte (bitsOf x.working 16)] ++ le 2 x.margin ++ le 4 (litHours s sl) ++ le 4 x.serial ++ [byte (b2n sampled), 0, 0, 0]

def dimmRecord (s : State) (k : Nat) : Bytes :=
  let m := memCh s (k / 2)
  let slot := k % 2
  let st := if m.dimms ≤ slot then 0 else if m.st != 1 then 3 else if bit m.degraded slot then 2 else 1
  [byte st, byte (tgetD m.tmax slot 0)] ++ le 2 (sat 16 (lastDay s (tgetD m.ce slot [])).length) ++
  le 2 (sat 16 (lastDay s (tgetD m.ue slot [])).length) ++ [0, 0]

/-- Bytes 64 to 16,383 of a sheet (R556). -/
def sheetBody (s : State) (i : SheetIn) : Bytes :=
  fitTo 16320 (
    ((List.range 5).flatMap fun d => dieRecord s d (i.dies.getD d { mean := 0, peak := 0, powers := [] })) ++
    ((List.range 16).flatMap fun sl => cartRecord s (slotSampled s i sl) sl) ++
    ((List.range 24).flatMap fun k => dimmRecord s k) ++
    (sheetUnits.flatMap fun p => le 4 (unitRecord s p)))

/-- Header of a sheet (R556). -/
def sheetHeader (s : State) (body : Bytes) : Bytes :=
  le 4 0x5343574C ++ le 2 1 ++ le 2 3261 ++ le 4 s.age.sheets ++ le 4 (now32 s) ++ le 8 Config.packageSerial.toNat ++
  [byte s.flash.system, byte s.flash.package, byte (b2n (s.age.active && s.age.steady)), 0] ++ le 4 (crc32c 0xFFFFFFFF body) ++
  List.replicate 32 0

/-- AGE_PROJECTION_LOW where it is due (R554). -/
def projectionLow (twin : Option Nat) (s : State) : State :=
  let v := packageYears s
  let low := v < 500 || (match twin with | some t => decide (v + 1000 ≤ t) | none => false)
  let due := low && (match s.age.projReported with | none => true | some old => decide (v + 100 ≤ old))
  let s := ageMod (fun a => { a with projection := v, projReported := if due then some v else a.projReported }) s
  if due then raise 0x300A g0Place [v] s else s

/-- CONTACT_SHEET (R555): the day's samples, ceilings and projections, and the sheet, written to both flash devices. -/
def execContactSheet (i : SheetIn) (s : State) : Res :=
  .next (
    let s := i.lost.foldl (fun s n => if s.age.lost.contains n then s
      else raise 0x3002 g0Place [n] (ageMod (fun a => { a with lost := insertNat a.lost n }) s)) s
    let s := ((List.range 5).zip i.dies).foldl (fun s e => dieAgeMod e.1 (fun x => { x with ceiling := ceilingOf e.1 e.2 }) s) s
    let s := ageMod (fun a => { a with units := tmap a.units (sheetUnit s) }) s
    let s := i.lasers.foldl (fun s e => lifeSample e s) s
    let s := (List.range 16).foldl (fun s sl => cartDay (slotSampled s i sl) sl s) s
    let body := sheetBody s i
    let n := s.age.sheets
    let sheet := sheetHeader s body ++ body
    let stale := (sheetUnits.filter fun p => (unitAge s p).stale).length
    let s := toFlash 4 (n % 16384) sheet (ageMod (fun a => { a with
      ring := tput a.ring (n % 16384) sheet, sheets := n + 1, lastSheet := s.time.sec, steady := a.active
      lost := a.lost.filter fun k => k + 16384 != n }) s)
    let s := { s with mem := { s.mem with chans := tmap s.mem.chans fun _ m => { m with tmax := [] } } }
    let s := writeTime s
    projectionLow i.twin (raise 0x3001 g0Place [n, stale] s))

end Sys2Proof.Machine
end

