-- ==== Sys2Proof/Machine/CfgCmds.lean ====
section
/-! DEFINITION. The CFG family: commands, the messages of the two-phase fix, timeouts and retirement, and the end of a reseed
(R139, R454-R456, R464-R482). -/

namespace Sys2Proof.Machine

/-! ## CFG_STAGE, CFG_DISCARD, CFG_FIX -/

def opCfgStage : Op := { mkOp 0x0401 0 [] .package (fun c s =>
    if s.cfg.stage.isSome then .refuse (busy dStageOpen)
    else match freeTagOf s with
      | none => .refuse (busy dEpochsLive)
      | some t =>
        let e := nextEpoch (curEpoch s)
        let g : Stage := { owner := c.queue, epoch := e, tag := t, layers := s.cfg.layers, frozen := false, last := s.time.up }
        .ok (le 4 e ++ [byte t]) (cfgMod (fun x => { x with stage := some g }) s)) with
  reach := .stage }

def execCfgStage (c : Cmd) (s : State) : Res := .next (runCmd opCfgStage c s)

def opCfgDiscard : Op := { mkOp 0x0403 0 [] .package (fun c s =>
    match stageRefusal s c with
    | some r => .refuse r
    | none => .ok [] (discardStage 1 s)) with
  reach := .stage }

def execCfgDiscard (c : Cmd) (s : State) : Res := .next (runCmd opCfgDiscard c s)

/-- The configuration staging of DDR5: a poisoned line is copied again from flash before the fix that needs it proceeds (R504). -/
def restage (s : State) : State := areaRewritten 0x400120000000 0x10000000 s

/-- Steps 1 and 2 of R473: validation, the banks and journal of this package, and PREPARE or, alone, the commit. -/
def startFix (c : Cmd) (s : State) : State :=
  match s.cfg.stage with
  | none => s
  | some g =>
    let s := freezeStage true (touchStage (restage s))
    let f : Fix := { queue := c.queue, tag := c.tag.toNat, startEpoch := curEpoch s, epoch := g.epoch, ready := false, committed := false }
    let s := cfgMod (fun x => { x with fix := some f }) s
    match fixRefusal (effective g.layers) g.epoch s with
    | some (a, r) => refuseFix 0 r a s
    | none =>
      let s := toFlash 1 g.epoch [] s
      if fixesPaired s then sendTwin (.prepare g.epoch) s else commitFix true false s

/-- Is a fix refused because the package of a pair has lost T0 (R28)? -/
def fixUnlinked (s : State) : Bool := s.twin.paired && s.spare.lost.contains t0Place

def opCfgFix : Op := { mkOp 0x0402 0 [] .package (fun c s =>
    match stageRefusal s c with
    | some r => .refuse r
    | none => if fixUnlinked s then .refuse (faultRep dElement (pathOf s t0Place).toNat) else .accept 0 s (startFix c)) with
  reach := .fix }

def execCfgFix (c : Cmd) (s : State) : Res := .next (runCmd opCfgFix c s)

/-! ## CFG_WRITE, CFG_OVERLAY (R466, R468) -/

def setRecs (a : Nat) (w : Word) (l : List OvRec) : List OvRec :=
  if l.any fun r => r.addr == a then l.map fun r => if r.addr == a then { r with value := w } else r
  else l ++ [{ addr := a, value := w, mask := 0xFFFFFFFF }]

def setMasks (a : Nat) (w : Word) (l : List OvRec) : List OvRec :=
  if w == 0 then l.filter fun r => r.addr != a
  else if l.any fun r => r.addr == a then l.map fun r => if r.addr == a then { r with mask := w } else r
  else l ++ [{ addr := a, value := 0, mask := w }]

/-- One word into a layer: 0 the base, k + 1 overlay slot k; `masks` writes a mask. -/
def writeLayer (layer : Nat) (masks : Bool) (a : Nat) (w : Word) (l : Layers) : Layers :=
  if layer == 0 then { l with base := tput l.base a w }
  else { l with slots := tmod l.slots (layer - 1) {} fun o =>
    { o with recs := if masks then setMasks a w o.recs else setRecs a w o.recs } }

/-- Words of the data, written one after another. -/
def writeWords (layer : Nat) (masks : Bool) : Nat → Nat → Bytes → Layers → Layers
  | 0, _, _, l => l
  | n + 1, a, d, l => writeWords layer masks n (a + 4) (d.drop 4) (writeLayer layer masks a (BitVec.ofNat 32 (rd d 0 4)) l)

def slotRecords (l : Layers) (layer : Nat) : Nat := if layer == 0 then 0 else (tgetD l.slots (layer - 1) {}).recs.length

def opCfgWrite : Op := { mkOp 0x0404 12 [(7, 1), (10, 2)] .package (fun c s =>
    let a := c.prm 0 6
    let layer := c.prm 6 1
    let len := c.prm 8 2
    let masks := bit a 47
    let base := a % 2 ^ 47
    if !c.staged then .refuse (badParam dNoStage)
    else if 64 < layer || len < 4 || 996 < len || len % 4 != 0 || base % 4 != 0 then .refuse (badParam dRange)
    else if (masks && layer == 0) || ((List.range (len / 4)).any fun k => rwMask (base + 4 * k) == 0) then
      .refuse (rep stBadPath 0)
    else match stageRefusal s c with
      | some r => .refuse r
      | none =>
        match s.cfg.stage with
        | none => .refuse (badParam dNoStage)
        | some g =>
          let l := writeWords layer masks (len / 4) base (c.prmBytes 12 len) g.layers
          if 2048 < slotRecords l layer then .refuse (noResource 0)
          else .ok [] (touchStage (cfgMod (fun x => { x with stage := some { g with layers := l } }) s))) with
  need := fun p => 12 + counted 4 996 (rd p 8 2), stageable := true }

def execCfgWrite (c : Cmd) (s : State) : Res := .next (runCmd opCfgWrite c s)

def opCfgOverlay : Op := { mkOp 0x0405 3 [] .package (fun c s =>
    let k := c.prm 0 1
    let act := c.prm 1 1
    let prio := c.prm 2 1
    if !c.staged then .refuse (badParam dNoStage)
    else if 63 < k || 3 < act || (act == 1 && 15 < prio) then .refuse (badParam dRange)
    else match stageRefusal s c with
      | some r => .refuse r
      | none =>
        match s.cfg.stage with
        | none => .refuse (badParam dNoStage)
        | some g =>
          let put := fun f => Done.ok [] (touchStage (cfgMod (fun x => { x with
            stage := some { g with layers := { g.layers with slots := tmod g.layers.slots k {} f } } }) s))
          match act with
          | 0 => put fun _ => {}
          | 1 => put fun o => { o with prio := prio }
          | 2 =>
            if !(tgetD g.layers.slots k {}).active && 4 ≤ (g.layers.slots.filter fun e => e.2.active).length then
              .refuse (noResource dOverlayLimit)
            else put fun o => { o with active := true }
          | _ => put fun o => { o with active := false }) with
  stageable := true }

def execCfgOverlay (c : Cmd) (s : State) : Res := .next (runCmd opCfgOverlay c s)

/-! ## CFG_READ (R455) -/

/-- A word of one layer: the base (After reset value where it never set the word), the value of an overlay record, or its mask. -/
def layerWord (l : Layers) (layer : Nat) (masks : Bool) (a : Nat) : Nat :=
  if layer == 0 then bankWord l.base a
  else match (tgetD l.slots (layer - 1) {}).recs.find? fun r => r.addr == a with
    | some r => if masks then r.mask.toNat else r.value.toNat
    | none => 0

def inConfig (a : Nat) : Bool := isPortArea a || isTblArea a || isCfgArea a || isBedArea a

def opCfgRead : Op := mkOp 0x0406 9 [] .package fun c s =>
  let a := c.prm 0 6
  let view := c.prm 6 1
  let layer := c.prm 7 1
  let len := c.prm 8 1
  let masks := bit a 47
  let base := a % 2 ^ 47
  let addrs := (List.range (len / 4)).map fun k => base + 4 * k
  let words := fun (f : Nat → Nat) => addrs.flatMap fun x => le 4 (f x)
  if 3 < view || (2 ≤ view && 64 < layer) || (len != 4 && len != 8 && len != 16) || base % 4 != 0 then
    .refuse (badParam dRange)
  else if !(addrs.all inConfig) || (masks && (view < 2 || layer == 0)) ||
      (view != 0 && addrs.any fun x => rwMask x == 0) then .refuse (rep stBadPath 0)
  else match view with
    | 0 => .ok (words (areaReg s)) (addrs.foldl (fun s x => areaRead x s) s)
    | 1 => match s.cfg.stage with
      | none => .refuse (badParam dNoStage)
      | some g => .ok (words (bankWord (effective g.layers))) s
    | 2 => .ok (words (layerWord s.cfg.layers layer masks)) s
    | _ =>
      let l := match s.cfg.stage with | some g => g.layers | none => s.cfg.layers
      .ok (words (layerWord l layer masks)) s

def execCfgRead (c : Cmd) (s : State) : Res := .next (runCmd opCfgRead c s)

/-! ## Messages of the fix (R473, R474) -/

/-- PREPARE_RECEIVED (step 3): this package validates, loads its banks and journals, or refuses. -/
def execPrepareReceived (e : Nat) (s : State) : Res :=
  .next (let s := restage s
    match s.cfg.stage with
    | none => sendTwin (.refusedPrepare e true 0) s
    | some g =>
      if g.epoch != e then sendTwin (.refusedPrepare e true 0) s
      else match fixRefusal (effective g.layers) g.epoch s with
        | some (a, _) => sendTwin (.refusedPrepare e false a) s
        | none =>
          let p : Epoch := { num := e, tag := g.tag, words := effective g.layers, stopped := none }
          sendTwin (.prepared e) (toFlash 1 e [] (freezeStage true (cfgMod (fun c => { c with prepared := some (p, g.layers) }) s))))

/-- PREPARED_RECEIVED: steps 4 of R473. -/
def execPreparedReceived (e : Nat) (s : State) : Res :=
  .next (match s.cfg.fix with
    | some f => if f.epoch == e && !f.committed then commitFix false false s else s
    | none => s)

/-- REFUSED_RECEIVED (R474): the twin had no free tag, or refused at an address. -/
def execRefusedReceived (e : Nat) (noTag : Bool) (addr : Nat) (s : State) : Res :=
  .next (match s.cfg.fix with
    | some f =>
      if f.epoch == e && !f.committed then
        refuseFix 2 (if noTag then busy dEpochsLive else { aborted dTwinRefused with result := le 6 addr }) addr s
      else s
    | none => s)

/-- COMMIT_RECEIVED (step 5). -/
def execCommitReceived (e : Nat) (s : State) : Res :=
  .next (match s.cfg.prepared with
    | some (p, l) =>
      if p.num == e then
        let s := makeCurrent p.num p.tag l s
        sendTwin (.committed e) (raise 0x0401 g0Place [p.num, p.tag, 0] (countCfg 0 1 s))
      else s
    | none => s)

/-- COMMITTED_RECEIVED (step 6). -/
def execCommittedReceived (e : Nat) (s : State) : Res :=
  .next (match s.cfg.fix with
    | some f => if f.epoch == e && f.committed then endFix e false s else s
    | none => s)

/-- ABORT_RECEIVED (R474): the loaded banks are discarded, the stage stays open. -/
def execAbortReceived (e : Nat) (s : State) : Res :=
  .next (match s.cfg.prepared with
    | some (p, _) => if p.num == e then dropPrepared s else s
    | none => s)

/-- PREPARE_REPLY_TIMEOUT (R474): no reply to PREPARE within 100 ms while heartbeats continue. -/
def execPrepareReplyTimeout (s : State) : Res :=
  .next (match s.cfg.fix with
    | some f =>
      if f.ready || f.committed || !fixesPaired s then s
      else refuseFix 0 (rep stTimeout dTwin) 0 (sendTwin (.abort f.epoch) s)
    | none => s)

/-- STAGE_TIMEOUT (R471): on the twin of the stage's owner, the discard that the owner announces. -/
def execStageTimeout (s : State) : Res :=
  .next (match s.cfg.stage with
    | some g => if g.frozen then s else discardBoth 2 s
    | none => s)

/-- EPOCH_HOLD_EXPIRY (R479): hold_ms has passed since epoch `e` stopped being current. It retires when every older epoch has. -/
def execEpochHoldExpiry (e : Nat) (s : State) : Res :=
  .next (match s.cfg.live.getLast? with
    | some x => if x.num == e && e != curEpoch s then retireIdle 4 (retire1 true x s) else s
    | none => s)

/-! ## The end of a reseed (R139) -/

/-- Does the epoch of a mark still exist: live, prepared or staged? -/
def markStands (s : State) (m : Mark) : Bool :=
  match m with
  | some x => (lookEpochs s).contains x || stageEpoch s == some x
  | none => true

/-- The reseed of a table ends: every entry under a new seed, then the new entry. A seed under which one finds no place, or a change list
no room, ends nothing: the reseed goes on, and the command waits for the next (R139: a delay, never a refusal). -/
def endReseed (t : Nat) (r : Reseed) (s : State) : State :=
  let x := r.entry.born.getD 0
  let w := if stageEpoch s == some x then (match s.cfg.stage with | some g => effective g.layers | none => curWords s) else curWords s
  let (seed, s) := drawRandom s
  let mine := s.tbl.entries.filter fun e => e.table == t
  let others := s.tbl.entries.filter fun e => e.table != t
  let old := lookupEntry s t r.entry.key x
  let done := fun (s : State) => raise 0x0804 (bankPlace (tdBase w t)) [t, s.time.up - r.started]
    { s with tbl := { s.tbl with reseed := tdel s.tbl.reseed t } }
  if !markStands s r.entry.born then done (finishKey r.opcode t (aborted 0) s)
  else match replaceAll w seed others (mine ++ [r.entry]) with
    | none => s
    | some es =>
      let es := match (if r.opcode == 0x0803 then old else none) with
        | some o => es.map fun y => if y.table == t && y.key == o.key && y.born == o.born && y != r.entry && y.died == o.died &&
            !(y.born == r.entry.born && y.data == r.entry.data && y.died == none) then { y with died := some x } else y
        | none => es
      if !changeRoom es then s
      else
        let n := (stashUsed s.tbl.entries t).length
        let s := putEntries w t es { s with tbl := { s.tbl with seeds := tput s.tbl.seeds t seed } }
        let placed := (es.filter fun e => sameKey t r.entry.key e && e.born == r.entry.born).getLast?
        let res := match placed with | some e => placeResult e | none => []
        finishKey r.opcode t (repOk res) (done (loadEvents w t n s))

/-- TBL_RESEED_DONE: the reseed of table `t` ends; a fix that waited for it goes on (R139, R473 step 4). -/
def execTblReseedDone (t : Nat) (s : State) : Res :=
  onElem (decide (t < 16))
    (match tget s.tbl.reseed t with
     | some r => resumeFix (endReseed t r s)
     | none => s)

end Sys2Proof.Machine
end

