-- ==== Sys2Proof/Machine/Twin.lean ====
section
/-! DEFINITION. The twin pair: heartbeats, the witness and its verdicts, the link, joins, handover, LACP with the partners (R586-R606,
R683). -/

namespace Sys2Proof.Machine

/-! ## Joins (R599) -/

/-- Step 5: both packages are PROTECTED. -/
def joinDone (s : State) : State :=
  if s.twin.joinStep == 4 then
    setTwin .protectedSt 7 (countTwin 7 1 (twinMod (fun t => { t with joinStep := 0, leads := false }) s))
  else s

/-- Has this package settled step 1 with the other: link, version, pair key? -/
def joinReady (s : State) : Bool := s.twin.paired && s.twin.linkUp && !s.twin.pairKey.isEmpty && s.twin.version != 0

/-- The leader begins step 2: it sends its layers and epoch. -/
def leadJoin (s : State) : State :=
  let l := s.cfg.layers
  let s := twinMod (fun t => { t with leads := true, joinStep := 2 }) s
  sendTwin (.config (curEpoch s) l.base
    (l.slots.map fun e => { slot := e.1, prio := e.2.prio, active := e.2.active, recs := e.2.recs.map fun r => (r.addr, r.value, r.mask) })) (sendTwin (.joinStep 2) s)

def becomeJoiner (s : State) : State :=
  let old := s.twin.state
  setTwin .joining 8 (twinMod (fun t => { t with before := old, leads := false, joinStep := 2 }) s)

/-- What a heartbeat with the other package's state and epoch starts (R597, R599). -/
def joinOn (peer epoch : Nat) (s : State) : State :=
  if !joinReady s || s.twin.joinStep != 0 then s
  else match s.twin.state with
    | .fenced => if peer == 4 then becomeJoiner s else s
    | .alone =>
      if peer == 4 then becomeJoiner s
      else if peer == 0 || peer == 1 then
        let e := s.cfg.flashEpoch
        if later e epoch || (e == epoch && s.flash.package == 0) then leadJoin s else becomeJoiner s
      else s
    | .sole => if peer == 0 || peer == 1 || peer == 5 then leadJoin s else s
    | _ => s

/-! ## Heartbeats (R591, R592) -/

/-- HEARTBEAT_SEND: every 100 µs. -/
def execHeartbeatSend (s : State) : Res :=
  .next (if !s.twin.paired || !s.twin.linkUp then s
    else
      let lost := (s.spare.lost.filter fun p => levelOf p == .die || levelOf p == .region).map fun p => pathOf s p
      let n := s.twin.hbSent
      countTwin 0 1 (sendTwin (.heartbeat n (twinCode s.twin.state) (curEpoch s) lost) (twinMod (fun t => { t with hbSent := n + 1 }) s)))

/-- HEARTBEAT_RECEIVED: sequence number, twin state code, current epoch, lost regions and dies of the other package. A package in SUSPECT
takes its state up again; joins start on it. -/
def execHeartbeatReceived (seq state epoch : Nat) (lost : List Word) (s : State) : Res :=
  .next (if !s.twin.paired || !s.twin.linkUp then s
    else
      let s := twinMod (fun t => { t with
        hbAt := some s.time.up, missed := 0, peerState := state, peerEpoch := epoch, peerLost := lost, peerSeq := seq }) s
      if s.twin.state == .suspect then
        let s := twinMod (fun t => { t with claimOut := false }) s
        match s.twin.before with
        | .handedOver => setTwin .handedOver 8 s
        | .alone => joinOn state epoch (setTwin .alone 8 s)
        | _ => resumeFix (setTwin .protectedSt 8 s)
      else joinOn state epoch s)

/-- HEARTBEAT_MISSED: three consecutive heartbeats have failed to arrive. -/
def execHeartbeatMissed (s : State) : Res :=
  .next (
    let st := s.twin.state
    if !s.twin.paired then s
    else
      let s := countTwin 1 3 (twinMod (fun t => { t with missed := t.missed + 3 }) s)
      if st == .protectedSt || st == .handedOver then enterSuspect (twinMod (fun t => { t with before := st }) s) else s)

/-- TWIN_ABSENT_AT_START (R639): 10 s of full service without a heartbeat. -/
def execTwinAbsentAtStart (s : State) : Res :=
  .next (if s.twin.paired && s.power.fullService && s.twin.state == .alone && s.twin.hbAt.isNone then
      enterSuspect (twinMod (fun t => { t with before := .alone }) s)
    else s)

/-! ## The witness (R593-R595) -/

/-- WITNESS_CLAIM_RESEND: 10 ms without a verdict. -/
def execWitnessClaimResend (s : State) : Res :=
  .next (if s.twin.state == .suspect && s.twin.claimOut then witnessSend 2 s else s)

/-- Values that TWIN_WITNESS_SET staged take effect (R604). -/
def applyWitness (s : State) : State :=
  match s.twin.witnessStaged with
  | none => s
  | some (kind, p0, p1, a) => twinMod (fun t =>
      if kind == 0 then { t with witnessMgmt := true, witnessAddr := a, witnessStaged := none }
      else { t with witnessPort0 := p0, witnessPort1 := p1, witnessAddr := a, witnessStaged := none }) s

/-- WITNESS_REPORT: every 10 ms. -/
def execWitnessReport (s : State) : Res := .next (if s.twin.paired then witnessSend 1 (applyWitness s) else s)

/-- A verdict arrives on a path, with its sequence and whether its tag holds: none where it is discarded (R593). -/
def takeVerdict (path seq : Nat) (valid : Bool) (s : State) : Option State :=
  if !valid || seq ≤ s.twin.witSeen then none
  else
    let back := !s.twin.witnessReachable
    let s := twinMod (fun t => { t with witSeen := seq, witnessPath := path % 4, witnessReachable := true }) s
    some (if back then raise 0x3806 t0Place [path] s else s)

def execWitnessGrant (path seq : Nat) (valid : Bool) (s : State) : Res :=
  .next (match takeVerdict path seq valid s with
    | none => s
    | some s => if s.twin.state == .suspect then enterSole 2 s else s)

def execWitnessRefusal (path seq : Nat) (valid : Bool) (s : State) : Res :=
  .next (match takeVerdict path seq valid s with
    | none => s
    | some s => if s.twin.state == .suspect then enterFenced 3 s else s)

/-- VERDICT_TIMEOUT: 100 ms of SUSPECT without a verdict; package A goes on alone (R595). -/
def execVerdictTimeout (s : State) : Res :=
  .next (if s.twin.state == .suspect then (if s.flash.package == 0 then enterSole 4 s else enterFenced 4 s) else s)

/-- TWIN_WITNESS_LOST (R600): the witness does not answer on a path; no change of state. -/
def execTwinWitnessLost (path : Nat) (s : State) : Res :=
  .next (raise 0x3805 t0Place [path] (twinMod (fun t => { t with witnessReachable := false }) s))

/-- LEAVE_MESSAGE_RECEIVED (R598): no claim is sent. -/
def execLeaveMessageReceived (s : State) : Res :=
  .next (if !s.twin.paired || s.twin.state == .alone || s.twin.state == .sole then s else enterSole 5 s)

/-! ## The link (R586-R588) -/

/-- The lanes change: reported; the link is up with 16 or more. -/
def setLanes (l : BitVec 32) (s : State) : State :=
  let was := s.twin.linkUp
  let s := twinMod (fun t => { t with lanes := l }) s
  let s := raise 0x3802 t0Place [twinLanes s] s
  if 16 ≤ twinLanes s then
    let again := !was && (s.twin.state == .protectedSt || s.twin.state == .handedOver || s.twin.state == .suspect)
    let s := if again then { s with flow := { s.flow with resync := true, resent := 0 } } else s
    twinMod (fun t => { t with linkUp := true }) s
  else if was then twinLinkDown s else s

def execTwinLaneUp (lane : Nat) (s : State) : Res :=
  onElem (decide (lane < 32)) (if s.twin.lanes.getLsbD lane then s else setLanes (s.twin.lanes ||| (1#32 <<< lane)) s)

def execTwinLaneFailure (lane : Nat) (s : State) : Res :=
  onElem (decide (lane < 32)) (if s.twin.lanes.getLsbD lane then setLanes (s.twin.lanes &&& ~~~(1#32 <<< lane)) s else s)

/-- TWIN_LINK_UP (R587, R588, R651): versions the other package supports (bit v - 1), its system number and package bit, whether its
chain ends at the owner's root, and the leader's time (seconds, ns, tod_set) where this package joins. -/
def execTwinLinkUp (versions system package : Nat) (chain : Bool) (time : Option (Nat × Nat × Bool)) (s : State) : Res :=
  .next (if !s.twin.paired || !s.twin.linkUp then s
    else
      let v := if bit versions 1 then 2 else if bit versions 0 then 1 else 0
      let s := raise 0x3803 t0Place [v] (twinMod (fun t => { t with version := v, pairKey := [] }) s)
      if v == 0 then
        if s.twin.state == .alone then s
        else
          let (c, s) := drawFree s
          setTwin .alone (c % 2 ^ 32) s
      else
        let bad := if system != s.flash.system then 1 else if package == s.flash.package then 2 else if !chain then 3 else 0
        if bad != 0 then raise 0x3804 t0Place [bad] s
        else
          let n := s.freeIx
          let s := twinMod (fun t => { t with pairKey := (List.range 4).flatMap fun k => le 8 (Config.free (n + k)).toNat })
            { s with freeIx := n + 4 }
          match time with
          | none => s
          | some (sec, ns, set) =>
            if s.time.todSet then s else timeMod (fun t => { t with todSet := set }) (stepTime sec ns s))

/-! ## What a join copies (R599, R683) -/

/-- An SA as a join copies it, and as the joiner takes it (R222, R599). -/
def saObj (s : State) (i : Nat) (a : Sa) : JoinObj :=
  { kind := 6, index := i, born := none, died := none
    data := [byte (b2n a.inbound + 2 * b2n a.esn + 4 * b2n a.tunnel + 8 * b2n a.udpEncap + 16 * b2n a.exhausted + 32 * b2n a.softRaised)] ++
      le 4 a.spi ++ le 4 a.salt ++ le 8 a.seq ++ le 2 a.window ++ le 8 a.softSeq ++ le 512 a.seen ++
      wrapKey s.twin.pairKey (recordKey s a.key) }

def saOf (s : State) (b : Bytes) : Sa :=
  let fl := rd b 0 1
  let k := b.drop 539
  { inbound := bit fl 0, esn := bit fl 1, tunnel := bit fl 2, udpEncap := bit fl 3, exhausted := bit fl 4, softRaised := bit fl 5
    spi := rd b 1 4, salt := rd b 5 4, seq := rd b 9 8, window := rd b 17 2, softSeq := rd b 19 8, seen := rd b 27 512
    key := wrapKey s.cry.tableKey (unwrapKey s.twin.pairKey k (k.length - 8)), keyFault := false }

/-- What the leader sends in step 3: rule pool, programs, templates, groups, SAs where they are mirrored, namespace keys (R599). -/
def joinObjs (s : State) : List JoinObj :=
  let put := fun (kind i : Nat) (b d : Mark) (x : Bytes) => ({ kind := kind, index := i, born := b, died := d, data := x } : JoinObj)
  (s.tbl.entries.map fun e => put 0 e.table e.born e.died ([byte e.key.length] ++ e.key ++ le 2 e.program ++ fitTo 32 e.data)) ++
  (s.tbl.programs.flatMap fun t => t.2.map fun v => put 1 t.1 v.born v.died (v.val.flatMap fun w => le 8 w.toNat)) ++
  (s.tbl.templates.flatMap fun t => t.2.map fun v => put 2 t.1 v.born v.died v.val) ++
  (s.tbl.groups.flatMap fun t => t.2.map fun v => put 3 t.1 v.born v.died
    (le 2 v.val.total ++ [byte (b2n v.val.srcPrune)] ++ (List.range v.val.total).flatMap fun k => fitTo 8 (tgetD v.val.members k []))) ++
  (s.tbl.lags.flatMap fun t => t.2.map fun v => put 4 t.1 v.born v.died (v.val.members.flatMap fun m => le 2 m.1 ++ [byte m.2, 0])) ++
  (if 2 ≤ s.twin.version then s.cry.sas.map fun e => saObj s e.1 e.2 else []) ++
  s.sto.nss.filterMap fun e => e.2.key.map fun k => put 5 e.1 none none (wrapKey s.twin.pairKey k)

/-- JOIN_CONFIG_APPLIED: the joiner has the leader's epoch and layers; at the leader, the joiner has said so. -/
def execJoinConfigApplied (epoch : Nat) (base : List (Nat × Word)) (slots : List JoinSlot) (s : State) : Res :=
  .next (if s.twin.joinStep != 2 then s
    else if s.twin.leads then
      let s := sendTwin (.joinStep 3) (twinMod (fun t => { t with joinStep := 3 }) s)
      (joinObjs s).foldl (fun s o => sendTwin (.copy o) s) s
    else
      let l : Layers := {
        base := base.foldl (fun t e => tput t e.1 e.2) []
        slots := slots.foldl (fun t x => tput t x.slot {
          active := x.active, prio := x.prio, recs := x.recs.map fun r => { addr := r.1, value := r.2.1, mask := r.2.2 } }) [] }
      let s := if curEpoch s == epoch then cfgMod (fun c => { c with layers := l, live := match c.live with
          | [] => []
          | e :: r => { e with words := effective l } :: r }) s
        else
          let tag := if s.cfg.live.isEmpty then 0 else (curTag s + 1) % 4
          let s := match s.cfg.live.find? fun e => e.tag == tag with | some e => retire1 false e s | none => s
          makeCurrent epoch tag l s
      sendTwin (.joinStep 2) (twinMod (fun t => { t with joinStep := 3 }) s))

/-- How a mark of the sender reads here: the epoch where it is live here or is the open stage's (some (some e)), swept (some none), or of
no epoch that is known here (none). -/
def mapMark (s : State) (m : Mark) : Option Mark :=
  match m with
  | none => some none
  | some e =>
    if (epochOf s e).isSome || stageEpoch s == some e then some (some e)
    else if later (oldestEpoch s) e then some none
    else none

/-- The marks of a copied version: none where it is not copied (R683). -/
def copyMarks (s : State) (born died : Mark) : Option (Mark × Mark) :=
  match died with
  | none => (mapMark s born).map fun b => (b, none)
  | some _ =>
    match mapMark s died, mapMark s born with
    | some none, _ => none
    | _, none => none
    | some d, some b => some (b, d)
    | none, some b => some (b, none)

/-- One object is applied. -/
def applyObj (o : JoinObj) (s : State) : State :=
  match copyMarks s o.born o.died with
  | none => s
  | some (b, d) =>
    if o.kind == 0 then
      let n := rd o.data 0 1
      let e : Entry := {
        table := o.index, key := slice o.data 1 n, program := rd o.data (1 + n) 2, data := slice o.data (3 + n) 32
        born := b, died := d, hit := false, place := (0, 0), stash := false }
      let (seed, s) := seedOf o.index s
      match placeEntry (curWords s) seed s.tbl.entries e with
      | some (es, _) => putEntries (curWords s) o.index es s
      | none => s
    else if o.kind == 1 then
      let v := words64 o.data (o.data.length / 8)
      { s with tbl := { s.tbl with programs := tmod s.tbl.programs o.index [] fun l => l ++ [{ born := b, died := d, val := v }] } }
    else if o.kind == 2 then
      { s with tbl := { s.tbl with templates := tmod s.tbl.templates o.index [] fun l => l ++ [{ born := b, died := d, val := fitTo 80 o.data }] } }
    else if o.kind == 3 then
      let g : Group := { total := rd o.data 0 2, srcPrune := bit (rd o.data 2 1) 0
                         members := putMembers 0 (words64 (o.data.drop 3) (rd o.data 0 2)) [] }
      { s with tbl := { s.tbl with groups := tmod s.tbl.groups o.index [] fun l => l ++ [{ born := b, died := d, val := g }] } }
    else if o.kind == 4 then
      let ms := (List.range (o.data.length / 4)).map fun k => (rd o.data (4 * k) 2, rd o.data (4 * k + 2) 1)
      { s with tbl := { s.tbl with lags := tmod s.tbl.lags o.index [] fun l => l ++ [{ born := b, died := d, val := { members := ms, table := [] } }] } }
    else if o.kind == 5 then nsUnlock o.index (unwrapKey s.twin.pairKey o.data 64) s
    else
      let a := saOf s o.data
      let m := if a.inbound then tdel s.cry.mirror o.index else tput s.cry.mirror o.index (le 8 a.seq)
      { s with cry := { s.cry with sas := tput s.cry.sas o.index a, mirror := m, holder := tdel s.cry.holder o.index } }

/-- JOIN_STATE_COPIED: step 3 ends. At the joiner the leader's tables, SAs where they are mirrored, and namespace keys are applied in place
of its own; both resend flows. -/
def execJoinStateCopied (objs : List JoinObj) (s : State) : Res :=
  .next (if s.twin.joinStep != 3 then s
    else
      let s := if s.twin.leads then s
        else
          let s := { s with tbl := { s.tbl with entries := [], programs := [], templates := [], groups := [], lags := [] } }
          let s := if s.twin.version < 2 then s else
            { s with cry := { s.cry with sas := [], mirror := [], holder := s.cry.holder.filter fun e => 2 ^ 21 ≤ e.1 } }
          refillGroups (objs.foldl (fun s o => applyObj o s) s)
      let s := { s with flow := { s.flow with resync := true, resent := 0 } }
      sendTwin (.joinStep 4) (twinMod (fun t => { t with joinStep := 4 }) s))

/-! ## LACP (R590, R598) -/

/-- Are all ports that are UP back in their groups (R598)? -/
def allBack (s : State) : Bool :=
  s.ports.all fun e => e.2.st != .up || (lagOf s e.1).isNone ||
    memberReady s e.1

/-- TWIN_HANDOVER with 0 completes when they are. -/
def checkBack (s : State) : State :=
  if s.twin.handover == 2 && allBack s then finishKey 0x3803 0 (repOk []) (twinMod (fun t => { t with handover := 0 }) s) else s

/-- LACPDU_RECEIVED: the partner's system, key and port on a port. -/
def execLacpduReceived (p system key : Nat) (port : LacpPort) (s : State) : Res :=
  onPort p s
    (if (portGet s p).st != .up then s
     else
       let old := (portGet s p).lacp
       let s := portMod p (fun x => { x with lacp := some (system, key, port) }) s
       let s := if old != some (system, key, port) && twinSettled s then
           sendTwin (.lacpInfo p (be 8 system ++ be 2 key)) s
         else s
       checkBack (refillGroups s))

/-- TWIN_LACP_INFO_RECEIVED: the partner of the twin's port with that number. -/
def execTwinLacpInfoReceived (p system key : Nat) (s : State) : Res :=
  onElem (decide (p < 1024)) (refillGroups (portMod p (fun x => { x with lacpTwin := some (system, key) }) s))

/-! ## IPsec state and replies of the twin (R222, R448, R449) -/

/-- TWIN_SA_STATE_RECEIVED: sequence number and seen window of an SA as the twin last had them. -/
def execTwinSaStateReceived (sa seq seen : Nat) (s : State) : Res :=
  .next (if s.twin.version < 2 then s
    else match tget s.cry.sas sa with
      | none => s
      | some a =>
        if a.inbound then
          if a.seq < seq then { s with cry := { s.cry with sas := tput s.cry.sas sa { a with seq := seq, seen := seen } } } else s
        else { s with cry := { s.cry with mirror := tput s.cry.mirror sa (le 8 seq) } })

/-- TWIN_REPLY_RECEIVED: the twin's reply to a command forwarded under a tag. A refused CFG_STAGE opens no stage here. -/
def execTwinReplyReceived (tag : Nat) (isAccepted : Bool) (status detail : Nat) (result : Bytes) (s : State) : Res :=
  .next (match s.cmd.joint.find? fun j => j.twinTag == tag with
    | none => s
    | some j =>
      if isAccepted then
        if j.acceptedSent then s
        else
          let s := sendReply j.queue j.tag j.opcode 0 j.epoch (rep stAccepted 0) s
          { s with cmd := { s.cmd with joint := s.cmd.joint.map fun x => if x.twinTag == tag then { x with acceptedSent := true } else x } }
      else
        let s := if j.opcode == 0x0401 && status != stOk && !j.only then cfgMod (fun c => { c with stage := none }) s else s
        closeJoint { j with there := some { status := status, detail := detail, result := result } } s)

/-! ## Commands (R598, R604) -/

/-- TWIN_STATUS: state, version, microseconds since the last heartbeat (a free value where none has come), witness path. -/
def opTwinStatus : Op := mkOp 0x3801 0 [] .package fun _ s =>
  let (ago, s') := match s.twin.hbAt with
    | some t => (min (s.time.up - t) (2 ^ 32 - 1), s)
    | none => drawFree s
  .ok ([byte (twinCode s.twin.state), byte s.twin.version] ++ le 4 ago ++ le 4 s.twin.witnessPath) s'

def execTwinStatus (c : Cmd) (s : State) : Res := .next (runCmd opTwinStatus c s)

/-- TWIN_WITNESS_SET: staged into flash, in force at the next report. -/
def opTwinWitnessSet : Op := mkOp 0x3802 24 [(1, 3)] .package fun c s =>
  if 1 < c.prm 0 1 || (c.prm 0 1 == 1 && (1023 < c.prm 4 2 || 1023 < c.prm 6 2)) then .refuse (badParam dRange)
  else .ok [] (toFlash 10 (c.prm 0 1) (c.prmBytes 4 20)
    (twinMod (fun t => { t with witnessStaged := some (c.prm 0 1, c.prm 4 2, c.prm 6 2, c.prm 8 16) }) s))

def execTwinWitnessSet (c : Cmd) (s : State) : Res := .next (runCmd opTwinWitnessSet c s)

/-- The work comes back: LACP flags set, the fabric undrained, PROTECTED (R598). -/
def takeBack (s : State) : State :=
  let s := sendTwin (.handover false) (twinMod (fun t => { t with handover := 2 }) (undrainFabric s))
  checkBack (setTwin .protectedSt 6 s)

def opTwinHandover : Op := mkOp 0x3803 1 [] .package fun c s =>
  if c.prm 0 1 == 1 then
    if s.twin.state == .protectedSt && s.twin.handover == 0 then .accept 1 s startHandover else .refuse (busy dUnprotected)
  else if c.prm 0 1 == 0 then
    if s.twin.state == .handedOver then .accept 0 s takeBack
    else if s.twin.state == .suspect || s.twin.state == .sole || s.twin.state == .joining then .refuse (busy dUnprotected)
    else .ok [] s
  else .refuse (badParam dRange)

def execTwinHandover (c : Cmd) (s : State) : Res := .next (runCmd opTwinHandover c s)

/-- PF0 of every link and half. -/
def allPf0 (s : State) : List Fn :=
  (List.range 4).flatMap fun l => ((List.range 2).filter fun h => halfExists s l h).map fun h => pf0 l h

/-- HANDOVER_DRAINED: the egress queues are empty; the twin carries all traffic (R598 steps 2 to 4). -/
def execHandoverDrained (s : State) : Res :=
  .next (if s.twin.handover == 1 && s.twin.state == .protectedSt then
      let s := setTwin .handedOver 6 s
      let s := (allPf0 s).foldl (fun s f => signalEvent f s) s
      finishKey 0x3803 1 (repOk []) s
    else s)

/-! ## Registers (R606) -/

def twinReg (s : State) (off : Nat) : Nat :=
  let t := s.twin
  if off == 0x000 then twinCode t.state + 2 ^ 8 * t.version + 2 ^ 16 * twinLanes s + 2 ^ 24 * t.witnessPath
  else if off == 0x004 then t.since
  else if off == 0x008 then b2n t.paired + 2 * b2n t.witnessMgmt + 2 ^ 8 * t.witnessPort0 + 2 ^ 18 * t.witnessPort1
  else if 0x010 ≤ off && off < 0x020 then wordN t.witnessAddr ((off - 0x010) / 4)
  else if 0x400 ≤ off && off < 0x440 then wordN (tgetD t.cnt ((off - 0x400) / 8) 0) (off / 4 % 2)
  else 0

end Sys2Proof.Machine
end

