-- ==== Sys2Proof/Machine/Boot.lean ====
section
/-! DEFINITION. Boot: what a start clears, boot code, the protection maps, start tests, firmware images and the life cycle
(R376, R469, R477, R607-R622, R635-R645). -/

namespace Sys2Proof.Machine

def bootMod (f : BootS → BootS) (s : State) : State := { s with boot := f s.boot }
def powerMod (f : PowerS → PowerS) (s : State) : State := { s with power := f s.power }
def setPhase (d : Nat) (p : DiePhase) (s : State) : State := bootMod (fun b => { b with phase := tput b.phase d p }) s

/-! ## What a package restart clears and keeps (R641, R642) -/

/-- Places that the flash ledger keeps out of service in a state (R44). -/
def storedPlaces (t : Tab Spare) (p : SpareState → Bool) : List Nat :=
  (t.filter fun e => p e.2.state && e.2.standsFor != 0).foldl (fun l e => insertNat l (place e.2.standsFor.toNat)) []

/-- The ledger as flash holds it: FAULT and AGE stay retired, SUSPECT stays cloched until its retest, FAILED spares are out (R44). -/
def storedSpares (x : SpareS) : SpareS :=
  let suspects := storedPlaces x.flash (· == .suspect)
  let failed := (x.flash.filter fun e => e.2.state == .failed).map fun e => e.1
  { ledger := x.flash, flash := x.flash, retired := storedPlaces x.flash fun st => st == .fault || st == .age
    cloched := failed.foldl insertNat suspects }

/-- The storage configuration as flash holds it: paths connect again, at-rest keys are gone (R360, R372, R376). -/
def storedSto (x : StoS) : StoS :=
  { nqns := x.nqns, checks := x.checks, attach := x.attach.filter fun a => !a.detaching
    paths := tmap x.paths fun _ p => { p with st := .connecting, liveConns := 0, attempts := 0, interval := 1, nextConn := 0 }
    nss := tmap x.nss fun _ n => { n with st := if bit n.flags 1 then 4 else 2, key := none, turn := 0 } }

/-- DDR5 through a restart: self-refresh keeps content; device areas other than the event log are cleared (R501, R641, R642). -/
def storedMem (m : MemS) (shape : Nat × List (Nat × Nat × Nat)) : MemS :=
  let kept := fun a => a < 0x400000000000 || 0x400800000000 ≤ a || memArea (a - 0x400000000000) == 0x104000000
  { autoHandover := m.autoHandover, scrubHours := m.scrubHours, ceLimit := m.ceLimit
    cells := m.cells.filter (fun c => kept c.1), poison := m.poison.filter kept
    chans := tmap m.chans fun _ c => { mark := c.mark, cnt := c.cnt }
    before := shape }

/-- What a package restart leaves: every register at its After reset value, what flash and fuses hold, the event log, the service
area, MEM counters and test results. Of the key store, key encryption keys and pre-shared CAKs stay (R205, R209). -/
def coldState (s : State) : State :=
  let w := (applyWitness s).twin
  { s with
    waiting := [], regs := []
    time := { sec := s.flash.time, up := s.time.up, refPresent := s.time.refPresent, ppsPresent := s.time.ppsPresent }
    log := { next := s.log.next, lost := s.log.lost, oldest := s.log.oldest, base := s.log.next }
    cmd := {}
    cfg := { layers := s.cfg.layers, flashEpoch := s.cfg.flashEpoch }
    prot := {}
    boot := { s.boot with
      romDone := false, recovery := false, mgmtRuns := false, phase := [], sessions := [], nextSession := 1, fallback := none }
    power := { s.power with
      fullService := false, fullAt := 0, shutdown := 0, restartDue := none, dieRestart := none, restartList := []
      selfRefresh := true, areaKept := false, offSafe := false }
    twin := {
      paired := s.twin.paired
      witnessMgmt := w.witnessMgmt, witnessPort0 := w.witnessPort0, witnessPort1 := w.witnessPort1, witnessAddr := w.witnessAddr
      witSent := s.twin.witSent, witSeen := s.twin.witSeen }
    spare := storedSpares s.spare
    ports := []
    tbl := {}
    buf := {}
    cry := { keks := s.cry.keks, mka := (s.cry.mka.filter fun e => e.2.cak.isSome).map fun e => (e.1, { cak := e.2.cak }) }
    flow := {}
    host := { bifurcated := s.host.bifurcated, winLog2 := s.host.winLog2 }
    sto := storedSto s.sto
    svc := { images := s.svc.images, floors := s.svc.floors
             beds := (s.svc.beds.filter fun e => e.2.slot.isSome).map fun e => (e.1, { st := .loaded, slot := e.2.slot }) }
    mbx := []
    mem := storedMem s.mem (if ddr5Up s then memShape s else s.mem.before)
    cart := { lives := s.cart.lives }
    age := {
      sheets := s.age.sheets, lost := s.age.lost, ring := s.age.ring, sheetTime := s.age.sheetTime, lastSheet := s.age.lastSheet
      dies := tmap s.age.dies fun _ d => { rail := d.rail }
      units := tmap s.age.units fun _ u => { taps := u.taps, served := u.served, past := u.past }, fuses := s.age.fuses }
    test := {
      records := s.test.records, period := s.test.period, cperiod := s.test.cperiod, lastPass := s.test.lastPass
      rowsUsed := s.test.rowsUsed, retired := s.test.retired, since := s.test.since
      retry := storedPlaces s.spare.flash (· == .suspect) }
    therm := { trip := s.therm.trip } }

/-- Exposures and debug sessions that a restart ends: records INCOMPLETE with cause 2, sessions closed with cause 4 (R44, R578, R625,
R628). -/
def restartEnds (old s : State) : State :=
  let s := old.test.running.foldl (fun s e =>
    match e.result with
    | some (r, c) => endRecord (place e.target.toNat) r c s
    | none => let (r, s) := cutRecord e s; endRecord (place e.target.toNat) r 2 s) s
  old.boot.sessions.foldl (fun s e => raise 0x4007 b0Place [e.1, 4] s) s

/-- A package restart begins, for a cause of SYS_START. -/
def beginRestart (cause : Nat) (s : State) : State :=
  restartEnds s (powerMod (fun p => { p with cause := cause }) (coldState s))

/-- Power-up clears what is volatile besides: the log, DDR5, MEM counters, test results, the marks of lost channels, the time's
elapsed count (R508, R577, R641). -/
def powerUpState (s : State) : State :=
  let s := coldState s
  { s with
    time := { s.time with up := 0 }
    log := {}
    mem := { autoHandover := s.mem.autoHandover, scrubHours := s.mem.scrubHours, ceLimit := s.mem.ceLimit }
    test := { s.test with records := [], lastPass := [], since := none }
    power := { s.power with selfRefresh := false, thermtrip := false } }

/-! ## Images (R608, R609) -/

def imageMod (i : Nat) (f : FwImage → FwImage) (s : State) : State :=
  bootMod (fun b => if i == 0 then { b with imageA := f b.imageA } else { b with imageB := f b.imageB }) s

/-- Is an image valid (R609)? -/
def imageValid (s : State) (i : Nat) : Bool :=
  (fwImage s i).verified && (!ownerUsed s || (fwImage s i).ownerOk) && decide (s.boot.fuses ≤ (fwImage s i).svn)

/-- Why it is not: 1 format, 2 signature, 3 rollback. -/
def imageFault (s : State) (i : Nat) : Nat :=
  if !(fwImage s i).verified then (fwImage s i).bad else if ownerUsed s && !(fwImage s i).ownerOk then 2 else 3

/-- The image that gives a die its map: the selected one, or where that is not valid the one that runs (R611, R626). -/
def mapImage (s : State) : Nat := if imageValid s s.boot.selected then s.boot.selected else s.boot.running

/-- Is the header of R608 well formed, and does its length fit the device? -/
def headerOk (h : Bytes) : Bool :=
  rd h 0 4 == 0x4657574C && rd h 4 2 == 1 && rd h 6 2 == 0 && rd h 19 1 == 0 && rd h 18 1 < 2 && allZero (slice h 28 484) &&
  decide (512 ≤ rd h 8 4) && decide (rd h 8 4 ≤ 0x2000000) && decide (rd h 16 2 ≤ 2048) &&
  (!bit (rd h 18 1) 0 || (decide (512 ≤ rd h 20 4) && decide (rd h 20 4 + rd h 24 4 ≤ rd h 8 4)))

/-- How far the ranges written cover the image without a gap. -/
def coverEnd (l : List (Nat × Nat)) : Nat → Nat → Nat
  | 0, n => n
  | k + 1, n => coverEnd l k (l.foldl (fun n r => if r.1 ≤ n then max n (r.1 + r.2) else n) n)

/-! ## The life cycle (R620-R622) -/

def lifeOfCode (n : Nat) : Lifecycle :=
  match n with
  | 0 => .blank
  | 1 => .manufacturing
  | 2 => .provisioned
  | 3 => .deployed
  | 4 => .returned
  | _ => .retired

/-- Does the table of R620 give the transition to this signer? -/
def lcAllowed (r : LcReq) : Bool :=
  match r.old, r.new with
  | 0, 1 => r.signer == 1
  | 1, 2 => r.signer == 1
  | 2, 3 => r.signer == 2
  | 2, 4 => r.signer == 2
  | 3, 4 => r.signer == 2
  | 1, 5 => r.signer == 1 || r.signer == 2
  | 2, 5 => r.signer == 1 || r.signer == 2
  | 4, 5 => r.signer == 1 || r.signer == 2
  | _, _ => false

/-- Owner material is erased (R622): KEKs, owner root, identity key, pair key, namespace and MACsec keys. -/
def eraseOwner (s : State) : State :=
  let s := bootMod (fun b => { b with ownerKeys := false }) s
  { s with
    cry := { s.cry with keks := [], mka := tmap s.cry.mka fun _ m => { m with cak := none } }
    twin := { s.twin with pairKey := [] }
    sto := { s.sto with nss := tmap s.sto.nss fun _ n => if bit n.flags 1 then { n with key := none, st := 4 } else { n with key := none } } }

/-- `n` words of B0's random source. -/
def randomBytes : Nat → State → Bytes × State
  | 0, s => ([], s)
  | n + 1, s =>
    let (w, s) := drawRandom s
    let (b, s) := randomBytes n s
    (le 4 w.toNat ++ b, s)

/-- A pending request is acted on at most once (R621): the fuse first, then what the new state brings (R620, R622). -/
def lcStep (s : State) : State :=
  match s.boot.lcRequest with
  | none => s
  | some r =>
    let s := bootMod (fun b => { b with lcRequest := none }) s
    if r.serial && r.signed && r.old == lifeCode s.boot.lifecycle && lcAllowed r then
      let s := toFlash 8 0 [byte r.new] (bootMod (fun b => { b with lifecycle := lifeOfCode r.new }) s)
      let s := if r.new == 2 then
          let (k, s) := randomBytes 24 { s with cry := { s.cry with keks := tput s.cry.keks 0 { key := r.kek } } }
          emit (.jtag k) (bootMod (fun b => { b with ownerKeys := true }) s)
        else if r.new == 4 || r.new == 5 then eraseOwner s
        else s
      raise 0x4005 b0Place [r.old, r.new] s
    else s

/-! ## Boot code (R610-R612, R635) -/

/-- Step 4 chooses an image, and step 5 blows fuses; the hub die then leaves reset with its window open. Without a valid image, and in
RETIRED, the hub die is in recovery (R611, R620). -/
def bootImage (s : State) : State :=
  let a := s.boot.selected
  let b := 1 - a
  if s.boot.lifecycle == .retired || !(imageValid s a || imageValid s b) then bootMod (fun x => { x with recovery := true }) s
  else
    let i := if imageValid s a then a else b
    let s := bootMod (fun x => { x with running := i, fallback := if i == a then none else some (a, imageFault s a) }) s
    let n := s.boot.fuses
    let v := (fwImage s i).svn
    let s := if n < v then raise 0x4003 b0Place [n, v] (bootMod (fun x => { x with fuses := v }) s) else s
    dieProtMod 0 (fun p => { p with windowOpen := true }) (setPhase 0 .windowOpen (bootMod (fun x => { x with romDone := true }) s))

/-- OFF_SAFE is released (R633). -/
def releaseOffSafe (s : State) : State := emit (.pin 0 true) (powerMod (fun p => { p with offSafe := true }) s)

/-- A start that goes no further than step 3 of R610, and OFF_SAFE released (R645). -/
def stopBoot (s : State) : State :=
  releaseOffSafe (powerMod (fun p => { p with shutdown := 6 }) (bootMod (fun b => { b with romDone := false, mgmtRuns := false, phase := [] }) s))

/-- The key store draws what it draws at each cold start: the table key, and the seed of the flow store (R206, R242). -/
def drawKeys (s : State) : State :=
  let (k, s) := randomBytes 8 s
  let (w, s) := drawRandom s
  { s with cry := { s.cry with tableKey := k }, flow := { s.flow with seed := w } }

/-- Boot code runs from mask ROM, steps 1 to 5. -/
def romStart (s : State) : State :=
  let s := drawKeys (powerMod (fun p => { p with startAt := s.time.up }) s)
  let s := if s.boot.lifecycle == .returned || s.boot.lifecycle == .retired then eraseOwner s else s
  let s := lcStep s
  if s.power.shdnReqN then bootImage s else stopBoot s

/-- A restart by command: the package clears and boot code runs at once (R453, R635). -/
def commandRestart (cause : Nat) (s : State) : State := romStart (beginRestart cause s)

/-! ## Protection maps (R615-R619) -/

/-- A requester code that the table of R615 gives. -/
def codeKnown (c : Nat) : Bool := decide (c ≤ 72)

/-- PROT_REQ of codes 64, 71 and 72 from mask ROM: management has every class and die; the key stores submit nothing (DESIGN CHOICE,
assumption 21). -/
def romReq (c : Nat) : Option Nat :=
  if c == 64 then some 0x1F07FFFF else if c == 71 || c == 72 then some 0x40000 else none

/-- PROT_REQ of a code as boot code writes it. -/
def reqEntry (s : State) (c : Nat) : Nat :=
  let e := match romReq c with
    | some e => e
    | none => if codeKnown c then and32 (tgetD (ownerOf s (mapImage s)).req c 0) 0x1F07FFFF else 0
  if s.boot.lifecycle == .deployed then (if c < 32 then clrBit (clrBit e 17) 18 else clrBit e 17) else e

def mbxWord (sender receiver : Nat) : Nat := sender + 256 * receiver + 65536

/-- PROT_MBX of a channel: 16 to 27 as R484 gives, 28 to 31 without ends. -/
def mbxWritten (s : State) (m : Nat) : Nat :=
  if m < 16 then
    let e := tgetD (ownerOf s (mapImage s)).mbx m 0 % 2 ^ 17
    if codeKnown (fld e 0 8) && codeKnown (fld e 8 8) then e else 0
  else if m == 16 then mbxWord 64 71
  else if m == 17 then mbxWord 71 64
  else if m == 18 then mbxWord 71 72
  else if m == 19 then mbxWord 72 71
  else if m < 28 then (let q := (m - 20) / 2; if m % 2 == 0 then mbxWord (4 * q) 71 else mbxWord 71 (4 * q))
  else 0

/-- A range entry of the owner section; an invalid one is written with valid clear (R617, R618). -/
def rangeWritten (s : State) (e : Nat) : Nat :=
  let code := fld e 8 8
  let bad := decide (fld e 64 36 < fld e 16 36) || !codeKnown code || (s.boot.lifecycle == .deployed && code == 70)
  if bad then clrBit e 0 else e

/-- The map of a die is written and locked. -/
def writeMap (d : Nat) (s : State) : State :=
  let s := dieProtMod d (fun p => { p with
    windowOpen := false, locked := true, ranges := tmap (tgetD (ownerOf s (mapImage s)).ranges d []) fun _ e => rangeWritten s e }) s
  if d == 0 then
    { s with prot := { s.prot with
      req := (List.range 256).map fun c => (c, reqEntry s c), mbx := (List.range 32).map fun m => (m, mbxWritten s m) } }
  else s

/-- The configuration in flash is loaded: the last fixed epoch, or epoch 1 at a first start, on tag 0 (R469, R477). -/
def loadConfig (s : State) : State :=
  let w := effective s.cfg.layers
  let n := if s.cfg.flashEpoch == 0 then 1 else s.cfg.flashEpoch
  applySeeds w (cfgMod (fun c => { c with live := [{ num := n, tag := 0, words := w, stopped := none }] }) s)

/-- Step 7 of R610: management runs; a fallback is reported, configuration and twin values come from flash; the directory is published. -/
def startManagement (s : State) : State :=
  let s := bootMod (fun b => { b with mgmtRuns := true }) s
  let s := threadMod 85 0 (fun th => { th with st := .running }) s
  let s := match s.boot.fallback with
    | some (i, c) => raise 0x4002 b0Place [i, c] s
    | none => s
  dirChanged (loadConfig s)

/-! ## Rows of a start -/

/-- FABRIC_BOOT_WINDOW_OPEN (R610 step 8): one die at a time, at management's request. -/
def execFabricBootWindowOpen (d : Nat) (s : State) : Res :=
  onElem (decide (1 ≤ d) && decide (d ≤ 4))
    (if s.boot.mgmtRuns && diePhase s d == .inReset && !(span 1 4).any (fun k => diePhase s k == .windowOpen) then
       dieProtMod d (fun p => { p with windowOpen := true }) (setPhase d .windowOpen s)
     else s)

/-- PROT_CTRL_LOCK (R617): the map is written and locked; the start test runs. -/
def execProtCtrlLock (d : Nat) (s : State) : Res :=
  onElem (decide (d ≤ 4))
    (if diePhase s d == .windowOpen then
       let s := setPhase d .starting (writeMap d s)
       if d == 0 then startManagement s else s
     else s)

/-- A die cannot enter service: the package runs without it, and without the hub there is none (R585, R636). -/
def dieFails (d : Nat) (s : State) : State :=
  let s := setPhase d .outOfService s
  let s := if d == 0 then losePackage s else loseDie d s
  if s.power.dieRestart == some d then
    let path := (pathOf s (diePlace d)).toNat
    let s := finishKey 0x0006 d (faultRep dElement path) (powerMod (fun p => { p with dieRestart := none }) s)
    if s.power.restartList.isEmpty then s
    else finishKey 0x0008 s.boot.selected (faultRep dElement path) (powerMod (fun p => { p with restartList := [] }) s)
  else s

/-- BOOT_WINDOW_TIMEOUT (R617): entries not yet written stay zero. -/
def execBootWindowTimeout (d : Nat) (s : State) : Res :=
  onElem (decide (d ≤ 4))
    (if diePhase s d == .windowOpen then
       dieFails d (raise 0x4004 b0Place [d] (dieProtMod d (fun p => { p with windowOpen := false, timedOut := true }) s))
     else s)

/-- The enabled ports of a die begin to search (R35, R82). -/
def enablePorts (d : Nat) (s : State) : State :=
  (span (256 * (d - 1)) 256).foldl (fun s p => if pEnabled s p && (portGet s p).st == .disabled then startSearch p s else s) s

/-- A unit fails the start test: a FREE spare enters FAILED, any other is cloched and spared (R43, R636). -/
def startFault (p : Nat) (s : State) : State :=
  if isSpare p && (ledger s p).state == .free then setLedger p .failed none (cloche p s) else faultAny p s

/-- Units and clusters of a die whose stored SUSPECT claim awaits its retest receive it at the start (R44). -/
def retestStored (d : Nat) (s : State) : State :=
  s.spare.ledger.foldl (fun s e =>
    let who := place e.2.standsFor.toNat
    if pDie e.1 == d && e.2.state == .suspect && (exposureOf s who).isNone && (graftOf s e.1).isNone then startExposure who 1 (some e.1) 1 0 true s
    else s) s

/-- START_TEST_END (R636): failing units are spared; the die enters service, or goes on with its copy in a restart (R626). `ok` says
whether the die can enter service. -/
def execStartTestEnd (d : Nat) (fails : List Nat) (ok : Bool) (s : State) : Res :=
  onElem (decide (d ≤ 4))
    (if diePhase s d == .starting then
       if !ok then dieFails d s
       else
         let bad := fails.filter fun p => levelOf p == .unit && pDie p == d && clusterOf p != b0Place
         let s := bad.foldl (fun s p => startFault p s) s
         let s := retestStored d s
         if s.power.dieRestart == some d then setPhase d .copying s
         else
           let s := setPhase d .inService s
           if d == 0 then s else refillGroups (enablePorts d s)
     else s)

end Sys2Proof.Machine
end

