-- ==== Sys2Proof/Machine/Power.lean ====
section
/-! DEFINITION. Power, reset and shut-down rows, thermal readings and trips, restarts of one die and of the package, and the PWR
registers (R453, R626-R646, R674-R679). -/

namespace Sys2Proof.Machine

/-! ## Power and reset pins (R630, R635, R641, R642) -/

/-- PWR_OK_RISE: power-up, with the strap TK_REF_SEL and the levels of RESET_N and SHDN_REQ_N; boot code runs where RESET_N is high. -/
def execPwrOkRise (tkRefSel resetN shdnReqN : Bool) (s : State) : Res :=
  .next (if s.power.pwrOk then s
    else
      let s := powerMod (fun p => { p with
        pwrOk := true, resetN := resetN, shdnReqN := shdnReqN, tkRefSel := tkRefSel
        cause := if s.therm.trip.isSome then 6 else 1 }) (powerUpState s)
      if resetN then romStart s else s)

/-- PWR_OK_FALL: a loss of power; the package is lost (R585, R630). -/
def execPwrOkFall (s : State) : Res :=
  .next (if !s.power.pwrOk then s
    else
      let s := bootMod (fun b => { b with romDone := false, recovery := false }) (losePackage s)
      powerMod (fun p => { p with pwrOk := false, fullService := false }) s)

/-- RESET_N_ASSERT: the package restarts when it is released; DIMMs enter self-refresh. -/
def execResetNAssert (s : State) : Res :=
  .next (if s.power.pwrOk && s.power.resetN then
      let up := s.time.up
      let s := beginRestart 2 s
      powerMod (fun p => { p with resetN := false, startAt := up }) s
    else powerMod (fun p => { p with resetN := false }) s)

/-- RESET_N_RELEASE, with the level of SHDN_REQ_N: boot code runs. -/
def execResetNRelease (shdnReqN : Bool) (s : State) : Res :=
  .next (if s.power.resetN then s
    else
      let s := powerMod (fun p => { p with resetN := true, shdnReqN := shdnReqN }) s
      if s.power.pwrOk then romStart s else s)

/-! ## Full service (R425, R640, R646, R679) -/

/-- Beds with autostart and a recorded slot. -/
def autostartBeds (s : State) : State :=
  (List.range 32).foldl (fun s b =>
    match (bedGet s b).slot with
    | some k => if bedDefined s b && bit (bedField s b 1 1) 1 && (bedGet s b).st == .loaded then (startBed b k true s).getD s else s
    | none => s) s

/-- The trip record of the previous start is reported once. -/
def reportTrip (s : State) : State :=
  match s.therm.trip with
  | none => s
  | some (d, kind, t) =>
    raise 0x0008 (diePlace d) [kind, sw t] { s with therm := { s.therm with trip := none, tripReported := true } }

/-- FULL_SERVICE, with the milliseconds to rootstock and to full service. The scheduler's periods run from here (R575). No rule names the
moment at which a start's governor becomes active: it is this one, and the inactive time of the start raises no AGE_GOVERNOR_HELD (DESIGN
CHOICE, assumption 98). A firmware activation ends here (R614). -/
def execFullService (rootstock full : Nat) (s : State) : Res :=
  .next (if !s.boot.mgmtRuns || s.power.fullService || !dieUp s 0 then s
    else
      let s := powerMod (fun p => { p with fullService := true, fullAt := s.time.up }) s
      let s := ageMod (fun a => { a with active := true }) s
      let s := testMod (fun t => { t with since := some (t.since.getD (now32 s)) }) s
      let s := reportTrip (raise 0x0005 g0Place [s.power.cause, b2n s.power.areaKept, rootstock, full] s)
      let s := if s.power.cause == 4 then raise 0x0004 g0Place [s.boot.running, (fwImage s s.boot.running).version] s else s
      autostartBeds s)

/-! ## Orderly shut-down (R643-R645) -/

/-- The leave message goes to the twin while the link is up (R598). -/
def sendLeave (s : State) : State := if s.twin.paired && s.twin.linkUp then sendTwin .leave s else s

/-- Step 3: leave, exposures cut short, beds stopped with grace. -/
def beginShutdown (s : State) : State :=
  let s := sendLeave (powerMod (fun p => { p with shutdown := 3 }) s)
  let s := s.test.running.foldl (fun s e => if e.result.isSome then s else cutExposure e 2 s) s
  (List.range 32).foldl (fun s b =>
    match (bedGet s b).st with
    | .running => stopBed b .shutdown true s
    | .starting => stopBed b .shutdown true (finishStart b (aborted 0) s)
    | .stopping =>
      if (bedGet s b).after == .stop then s else bedMod b (fun x => { x with after := .shutdown }) (finishStart b (aborted 0) s)
    | _ => s) s

/-- Has a fix here passed PREPARE, so that it holds the leave message (R645)? -/
def fixRuns (s : State) : Bool := s.cfg.fix.isSome

/-- SHDN_REQ_N_ASSERT: before full service the start stops; later the orderly shut-down begins, after a fix past PREPARE. -/
def execShdnReqNAssert (s : State) : Res :=
  .next (let s := powerMod (fun p => { p with shdnReqN := false }) s
    if !s.power.pwrOk || s.power.shutdown != 0 then s
    else if !s.power.fullService then stopBoot s
    else if fixRuns s then powerMod (fun p => { p with shutdown := 1 }) s
    else beginShutdown s)

/-- SHUTDOWN_BEDS_STOPPED: the end of grace stops what still runs; flash records are written (step 4) and DIMMs enter self-refresh
(step 5). -/
def execShutdownBedsStopped (s : State) : Res :=
  .next (if s.power.shutdown != 3 then s
    else
      let s := (List.range 32).foldl (fun s b => if (bedGet s b).st == .stopping then bedStopped b s else s) s
      let s := writeTime s
      let s := s.spare.flash.foldl (fun s e => toFlash 2 e.1 (ledgerBytes s e.1 e.2) s) s
      let s := s.cart.lives.foldl (fun s r => putLife r s) s
      powerMod (fun p => { p with shutdown := 5, selfRefresh := true }) s)

/-- Every laser dark; ports lose their light. -/
def allDark (s : State) : State :=
  let s := (List.range 16).foldl (fun s sl => unbias sl s) s
  (List.range 1024).foldl (fun s p => portDark p s) s

/-- SHUTDOWN_LASERS_DARK: step 5 ends and OFF_SAFE is released. -/
def execShutdownLasersDark (s : State) : Res :=
  .next (if s.power.shutdown != 5 then s else releaseOffSafe (powerMod (fun p => { p with shutdown := 6 }) (allDark s)))

/-! ## Restart of a fabric die in service (R452, R453, R626) -/

def drainPath (s : State) (p : Nat) : State :=
  refillGroups { s with cmd := { s.cmd with drained := if s.cmd.drained.contains (pathOf s p) then s.cmd.drained else s.cmd.drained ++ [pathOf s p] } }

def undrainPath (s : State) (p : Nat) : State :=
  refillGroups { s with cmd := { s.cmd with drained := s.cmd.drained.filter (· != pathOf s p) } }

/-- Flows cached in a region are written back (R248). -/
def writeBack (g : Nat) (s : State) : State :=
  let ids := tgetD s.flow.cache g []
  { s with flow := { s.flow with
    cache := tdel s.flow.cache g
    entries := s.flow.entries.map fun f =>
      if ids.contains f.index then { f with saved := (f.pktsAB, f.bytesAB, f.pktsBA, f.bytesBA, f.lastSeen), dirty := false } else f } }

/-- Entries of a table whose numbers lie outside a range. -/
def outside {α : Type} (t : Tab α) (lo n : Nat) : Tab α := t.filter fun e => !(decide (lo ≤ e.1) && decide (e.1 < lo + n))

/-- Spares, cloches and losses of a die as at a start: what flash holds stands (R44). -/
def dieSpares (d : Nat) (x : SpareS) : SpareS :=
  let here := fun p => pDie p == d
  let f := storedSpares { x with flash := x.flash.filter fun e => here e.1 }
  { x with
    ledger := f.ledger.foldl (fun t e => tput t e.1 e.2) (x.ledger.filter fun e => !here e.1)
    grafts := x.grafts.filter fun g => !here (place g.source.toNat)
    cloched := f.cloched.foldl insertNat (x.cloched.filter fun p => !here p)
    retired := f.retired.foldl insertNat (x.retired.filter fun p => !here p)
    lost := x.lost.filter fun p => !here p }

/-- The die is reset: its registers, counters, buffer contents, fragment tables and caches clear, everything else stays; its boot
window opens (R617, R641). -/
def resetDie (d : Nat) (s : State) : State :=
  let g := 4 * (d - 1)
  let old := s
  let ids := (s.buf.store.filter fun x => x.2.die == d).map fun x => x.1
  let s := (List.range 4).foldl (fun s r => loseRegionState (g + r) (writeBack (g + r) s)) (losePackets ids s)
  let lo := 256 * (d - 1)
  let here := fun p => pDie p == d
  let s := { s with
    ports := outside s.ports lo 256
    regs := outside (outside s.regs (portAddr lo 0) (256 * 0x1000)) (tblBase + 0x20000 * (d - 1)) 0x20000
    tbl := { s.tbl with
      rcnt := outside s.tbl.rcnt (64 * g) 256, acnt := outside s.tbl.acnt (64 * g) 256, ccnt := outside s.tbl.ccnt (64 * g) 256
      fcnt := outside s.tbl.fcnt (64 * g) 256, fragFull := outside s.tbl.fragFull g 4
      counters := outside s.tbl.counters (65536 * g) (4 * 65536), meters := outside s.tbl.meters (32768 * g) (4 * 32768) }
    buf := { s.buf with freeMin := tdel s.buf.freeMin d }
    cry := { s.cry with
      mka := (s.cry.mka.filter fun e => !(decide (lo ≤ e.1) && decide (e.1 < lo + 256)) || e.2.cak.isSome).map fun e =>
        if lo ≤ e.1 && e.1 < lo + 256 then (e.1, { cak := e.2.cak }) else e
      tlsBucket := outside s.cry.tlsBucket g 4 }
    log := { s.log with traces := s.log.traces.filter fun e => !here (allClusters.getD e.1 0) }
    spare := dieSpares d s.spare
    prot := { s.prot with dies := tdel s.prot.dies d } }
  let s := testMod (fun t => { t with retry := (storedPlaces (s.spare.flash.filter fun e => here e.1) (· == .suspect)).foldl insertNat t.retry }) s
  let s := (old.test.running.filter fun e => here (place e.target.toNat) && e.result.isNone).foldl (fun s e =>
    let (r, s) := cutRecord e s
    endRecord (place e.target.toNat) r 2 s) s
  let s := stopLostBeds (raise 0x0003 g0Place [d, 1] (setPhase d .windowOpen s))
  let cl := (List.range 20).map fun k => 20 * (d - 1) + k
  let s := { s with svc := { s.svc with clusters := s.svc.clusters.filter fun e => !cl.contains e.1 } }
  retireIdle 4 (refillGroups (dieProtMod d (fun p => { p with windowOpen := true }) s))

/-- A die restart begins: drained first, or reset at once with force or where the die carries nothing. -/
def startDieRestart (d : Nat) (force : Bool) (s : State) : State :=
  let up := dieUp s d
  let s := powerMod (fun p => { p with dieRestart := some d }) s
  if force || !up then resetDie d s else setPhase d .draining (drainPath s (diePlace d))

/-- DIE_RESTART_DRAINED: steps 1 and 2 of R626. -/
def execDieRestartDrained (d : Nat) (s : State) : Res :=
  onElem (decide (1 ≤ d) && decide (d ≤ 4)) (if s.power.dieRestart == some d && diePhase s d == .draining then resetDie d s else s)

/-- The activation's last die is in service (R614). -/
def activated (i : Nat) (s : State) : State :=
  finishKey 0x0008 i (repOk []) (raise 0x0004 g0Place [i, (fwImage s i).version] (bootMod (fun b => { b with running := i }) s))

/-- DIE_RESTART_READY: step 6; the ports search, dark lasers of the die's slots ramp up again, and the next die of an activation
restarts. -/
def execDieRestartReady (d : Nat) (s : State) : Res :=
  onElem (decide (1 ≤ d) && decide (d ≤ 4))
    (if s.power.dieRestart == some d && diePhase s d == .copying then
       let s := undrainPath (setPhase d .inService (powerMod (fun p => { p with dieRestart := none }) s)) (diePlace d)
       let s := raise 0x0003 g0Place [d, 2] (busReturns d (refillGroups (enablePorts d s)))
       let s := finishKey 0x0006 d (repOk []) s
       match s.power.restartList with
       | [] => s
       | k :: r =>
         let s := powerMod (fun p => { p with restartList := r }) s
         if k == 0 then activated s.boot.selected s else startDieRestart k false s
     else s)

/-- PACKAGE_RESTART_BEGIN: 10 ms after the OK reply of SYS_RESET, or once the work is handed over (R453, R508, R614). -/
def execPackageRestartBegin (s : State) : Res :=
  .next (match s.power.restartDue with
    | none => s
    | some c => if c == 3 || s.twin.state == .handedOver then commandRestart c s else s)

/-! ## Thermal (R568, R674, R675, R679) -/

/-- A junction reading in 0.1 °C: 95 °C and above is THERM_HIGH, which ends the exposures; THERM_NORMAL follows below 90 °C on every
die. -/
def junctionRead (d : Nat) (temp : Int) (s : State) : State :=
  let t := s.therm
  let s := { s with therm := { t with
    junction := tput t.junction d temp
    peak := tput t.peak d (match tget t.peak d with | some p => max p temp | none => temp) } }
  if 950 ≤ temp && !t.high then
    let s := { s with therm := { s.therm with high := true } }
    cutDie none 5 (testMod (fun x => { x with hot := true }) (raise 0x0006 (diePlace d) [sw temp] s))
  else if t.high && s.therm.junction.all (fun e => decide (e.2 < 900)) then
    let s := { s with therm := { s.therm with high := false } }
    testMod (fun x => { x with hot := false }) (raise 0x0007 (diePlace d) [sw temp] s)
  else s

/-- THERMAL_READING: the hottest sensor of a die (0-4) in 0.1 °C with its power in 0.1 W, or the case of an engine (8 + e). -/
def execThermalReading (which : Nat) (temp : Int) (power : Nat) (s : State) : Res :=
  onElem (decide (which ≤ 4) || (decide (8 ≤ which) && decide (which < 40)))
    (if 8 ≤ which then { s with therm := { s.therm with cases := tput s.therm.cases (which - 8) temp } }
     else junctionRead which temp { s with therm := { s.therm with power := tput s.therm.power which power } })

/-- A trip record in flash. -/
def tripRecord (d kind : Nat) (temp : Int) (s : State) : State :=
  toFlash 14 0 ([byte d, byte kind] ++ le 4 (sw temp)) { s with therm := { s.therm with trip := some (d, kind, temp) } }

/-- THERMTRIP_N asserted and OFF_SAFE released. -/
def tripPins (s : State) : State := releaseOffSafe (emit (.pin 1 true) (powerMod (fun p => { p with thermtrip := true, shutdown := 6 }) s))

/-- FIRMWARE_TRIP, of die `d` at a temperature. -/
def execFirmwareTrip (d : Nat) (temp : Int) (s : State) : Res :=
  onElem (decide (d ≤ 4)) (if s.power.thermtrip then s else tripPins (tripRecord d 1 temp (allDark (sendLeave s))))

/-- HARDWARE_TRIP: without firmware, so without a leave message; the sensor's reading is 115 °C or above. -/
def execHardwareTrip (d : Nat) (temp : Int) (s : State) : Res :=
  onElem (decide (d ≤ 4))
    (if s.power.thermtrip then s
     else tripRecord d 2 temp (allDark (junctionRead d temp (emit (.pin 1 true) (powerMod (fun p => { p with thermtrip := true }) s)))))

/-! ## PWR registers (R678) -/

def pwrReg (s : State) (off : Nat) : Nat :=
  let t := s.therm
  if off < 0x050 then
    let d := off / 0x10
    if off % 0x10 == 0 then wrap 12 (tgetD t.junction d 0) + 65536 * sat 16 (tgetD t.power d 0)
    else if off % 0x10 == 4 then wrap 12 (tgetD t.peak d 0)
    else 0
  else if inRow off 0x100 4 32 then wrap 12 (tgetD t.cases ((off - 0x100) / 4) 0)
  else if off == 0x200 then b2n t.high + 2 * b2n (t.trip.isSome || t.tripReported) + 65536 * sat 16 (t.power.foldl (fun n e => n + e.2) 0)
  else 0

/-- A read of PWR_DIE_d's second word starts the peak again. -/
def pwrRegRead (off : Nat) (s : State) : State :=
  if off < 0x050 && off % 0x10 == 4 then
    let d := off / 0x10
    { s with therm := { s.therm with peak := tput s.therm.peak d (tgetD s.therm.junction d 0) } }
  else s

end Sys2Proof.Machine
end

