-- ==== Sys2Proof/Machine/Storage.lean ====
section
/-! DEFINITION. The NVMe controllers of PF1 and its VFs, submissions of beds, and paths to targets (R354-R371, R373-R377, R427). -/

namespace Sys2Proof.Machine

/-! ## Controller registers (R355-R358) -/

/-- Is the function an NVMe controller? -/
def isNvme (s : State) (f : Fn) : Bool := fnExists s f && f.pool == 1

/-- Bits of CC that are not reserved (R17). -/
def ccMask : Nat := 0x01FFFFF1

def ccEnabled (n : Nvme) : Bool := bit n.cc 0

/-- Memory page of CC.MPS. -/
def nvmePage (n : Nvme) : Nat := 2 ^ (12 + fld n.cc 7 4)

/-- NVME_CC_ENABLE: the admin queues are those of AQA, ASQ and ACQ; RDY when the storage engine works. -/
def execNvmeCcEnable (f : Fn) (cc : Nat) (s : State) : Res :=
  onElem (isNvme s f)
    (let n := nvmeOf s f
     if ccEnabled n || !bit cc 0 then s
     else nvmeMod f (fun n => { n with
       cc := and32 cc ccMask, ready := storageUp s, shst := 0, aers := [], changed := [], noticed := false, held := []
       sqs := [(0, { base := n.asq, size := fld n.aqa 0 12 + 1, cq := 0, tail := 0, head := 0 })]
       cqs := [(0, { base := n.acq, size := fld n.aqa 16 12 + 1, vector := 0, ien := true, tail := 0, head := 0, phase := true, since := 0
                     timer := false })] }) s)

/-- NVME_CC_DISABLE: a controller reset keeps AQA, ASQ and ACQ. -/
def execNvmeCcDisable (f : Fn) (cc : Nat) (s : State) : Res :=
  onElem (isNvme s f)
    (if !ccEnabled (nvmeOf s f) || bit cc 0 then s
     else nvmeMod f (fun n => { cc := and32 cc ccMask, aqa := n.aqa, asq := n.asq, acq := n.acq }) (orphanCmds (.controller f) s))

/-- NVME_CC_SHUTDOWN: CC.SHN is written 1 or 2. -/
def execNvmeCcShutdown (f : Fn) (cc : Nat) (s : State) : Res :=
  onElem (isNvme s f)
    (let n := nvmeOf s f
     if !ccEnabled n || !bit cc 0 || fld cc 14 2 == 0 || fld cc 14 2 == 3 || n.shst != 0 then s
     else settleShn f (nvmeMod f (fun n => { n with cc := and32 cc ccMask, shst := 1 }) s))

/-- NVME_SQ_DOORBELL: a new tail. -/
def execNvmeSqDoorbell (f : Fn) (q tail : Nat) (s : State) : Res :=
  onElem (isNvme s f)
    (match tget (nvmeOf s f).sqs q with
     | some x => if tail % 65536 < x.size then sqMod f q (fun x => { x with tail := tail % 65536 }) s else s
     | none => s)

/-- NVME_CQ_DOORBELL: a new head frees entries, and the moderation timer restarts when entries stay unread. -/
def execNvmeCqDoorbell (f : Fn) (q head : Nat) (s : State) : Res :=
  onElem (isNvme s f)
    (match tget (nvmeOf s f).cqs q with
     | some x =>
       if head % 65536 < x.size then
         ncqFlush f q (ncqMod f q (fun x => { x with head := head % 65536, timer := head % 65536 != x.tail }) s)
       else s
     | none => s)

/-! ## Fetching (R357, R358, R366) -/

/-- May the controller fetch the next entry of a submission queue? -/
def nvmeMay (s : State) (f : Fn) (q : Nat) : Bool :=
  let n := nvmeOf s f
  let g := funcOf s f
  isNvme s f && n.ready && n.shst == 0 && storageUp s && g.bme && !g.d3 && fnRuns s f &&
  (match tget n.sqs q with | some x => x.head != x.tail | none => false)

/-- The head of a submission queue advances. -/
def takeEntry (f : Fn) (q : Nat) (s : State) : State := sqMod f q (fun x => { x with head := (x.head + 1) % x.size }) s

/-- Opcodes that the controller supports (R354). -/
def adminOps : List Nat := [0x00, 0x01, 0x02, 0x04, 0x05, 0x06, 0x08, 0x09, 0x0A, 0x0C]
def ioOps : List Nat := [0x00, 0x01, 0x02, 0x05, 0x08, 0x09]

/-- Fetch of a command with an opcode from a queue: an entry of an opcode that is not supported completes with Invalid Command Opcode
(0x01), one of another supported opcode is not this row's. -/
def fetch (opc : Nat) (f : Fn) (q : Nat) (entry : Bytes) (act : Bytes → State → State) (s : State) : Res :=
  let e := fitTo 64 entry
  let ops := if q == 0 then adminOps else ioOps
  onElem (isNvme s f)
    (if !nvmeMay s f q then s
     else if !ops.contains (enOpc e) then nvmeComplete f q (enCid e) 0 0x01 (takeEntry f q s)
     else if enOpc e != opc then s
     else act e (takeEntry f q s))

/-- An admin command: it completes at once with result dword 0 and a status. -/
def admin (opc : Nat) (f : Fn) (entry : Bytes) (body : Bytes → State → (Nat × Nat) × State) (s : State) : Res :=
  fetch opc f 0 entry (fun e s =>
    if fld (rd e 1 1) 6 2 != 0 then nvmeComplete f 0 (enCid e) 0 0x02 s
    else
      let ((dw0, st), s) := body e s
      nvmeComplete f 0 (enCid e) dw0 st s) s

/-- Data of an admin command written through its PRPs. -/
def adminData (f : Fn) (e list d : Bytes) (s : State) : (Nat × Nat) × State :=
  match dataSegs (nvmePage (nvmeOf s f)) e list d.length with
  | .inl st => ((0, st), s)
  | .inr l => ((0, 0), fillSegs f l d s)

/-! ## Admin commands (R354, R356, R357) -/

/-- Fields written into zeroed data. -/
def layout (n : Nat) (fs : List (Nat × Bytes)) : Bytes := fs.foldl (fun b x => splice b x.1 x.2) (List.replicate n 0)

def openBytes (off n : Nat) : Bytes := (span off n).map fun i => Config.identifyByte i

/-- Identify Controller (R356): what the spec does not state is open. -/
def identifyController : Bytes :=
  layout 4096 [(4, openBytes 4 68), (73, openBytes 73 3), (77, [8]), (78, openBytes 78 2), (80, le 4 0x20000), (92, le 4 0x100), (111, [1])
    , (258, openBytes 258 2), (512, [0x66, 0x44]), (516, le 4 1024), (520, le 2 0x0D), (536, le 4 1), (768, openBytes 768 256)]

/-- Identify Namespace: capacity, formats and protection information. -/
def identifyNs (n : Ns) : Bytes :=
  let c := le 8 n.capacity
  layout 4096 [(0, c ++ c ++ c), (25, [3, byte n.format, 2, 0x15, byte (piType n)])
    , (128, [0, 0, 9, 0, 0, 0, 12, 0, 8, 0, 9, 0, 8, 0, 12, 0])]

/-- The attachment that a submitter sees under a local NSID. -/
def attachOf (s : State) (who : Submitter) (nsid : Nat) : Option Attach :=
  s.sto.attach.find? fun a => a.who == who && !a.detaching && (match who with | .controller _ => a.nsid == nsid | .bed _ => a.ns + 1 == nsid)

def execNvmeIdentify (f : Fn) (entry list : Bytes) (s : State) : Res :=
  admin 0x06 f entry (fun e s =>
    let nsid := enNsid e
    let bad := nsid == 0 || 1024 < nsid
    match fld (enDw e 10) 0 8 with
    | 0 =>
      if bad then ((0, 0x0B), s)
      else adminData f e list (match attachOf s (.controller f) nsid with
        | some a => (match tget s.sto.nss a.ns with | some n => identifyNs n | none => List.replicate 4096 0)
        | none => List.replicate 4096 0) s
    | 1 => adminData f e list identifyController s
    | 2 =>
      let ids := (s.sto.attach.filter fun a => a.who == .controller f && !a.detaching && decide (nsid < a.nsid)).map fun a => a.nsid
      adminData f e list (fitTo 4096 ((ids.foldl insertNat []).flatMap fun i => le 4 i)) s
    | 3 =>
      if bad || (attachOf s (.controller f) nsid).isNone then ((0, 0x0B), s)
      else adminData f e list (openBytes (65536 + 4096 * nsid) 4096) s
    | _ => ((0, 0x02), s)) s

/-- Bytes of a log page: SMART values are not stated; reading the changed-namespace list clears it unless asynchronous events are
retained (R354). -/
def execNvmeGetLogPage (f : Fn) (entry list : Bytes) (s : State) : Res :=
  admin 0x02 f entry (fun e s =>
    let len := 4 * (fld (enDw e 10) 16 16 + 65536 * fld (enDw e 11) 0 16 + 1)
    let off := rd e 48 8
    let part := fun (b : Bytes) => slice b off len
    match fld (enDw e 10) 0 8 with
    | 1 => adminData f e list (part []) s
    | 2 =>
      let b := (List.range 512).map fun i => byte (Config.free (s.freeIx + i)).toNat
      adminData f e list (part b) { s with freeIx := s.freeIx + 512 }
    | 4 =>
      let b := (nvmeOf s f).changed.flatMap fun i => le 4 i
      let (r, s) := adminData f e list (part b) s
      (r, if bit (enDw e 10) 15 then s else nvmeMod f (fun n => { n with changed := [], noticed := false }) s)
    | _ => ((0, 0x109), s)) s

/-- Is any I/O queue created? -/
def hasIoQueue (n : Nvme) : Bool := n.sqs.any (fun e => e.1 != 0) || n.cqs.any (fun e => e.1 != 0)

/-- Number of Queues: Q - 1 in each field (R357). -/
def queueCounts (s : State) (f : Fn) : Nat := (shareQ s f - 1) * 65537

def execNvmeSetFeatures (f : Fn) (entry : Bytes) (s : State) : Res :=
  admin 0x09 f entry (fun e s =>
    let v := enDw e 11
    if bit (enDw e 10) 31 then ((0, 0x10D), s)
    else match fld (enDw e 10) 0 8 with
      | 0x07 => if hasIoQueue (nvmeOf s f) then ((0, 0x0C), s) else ((queueCounts s f, 0), s)
      | 0x08 => ((0, 0), nvmeMod f (fun n => { n with coalesce := v % 65536 }) s)
      | 0x0B => ((0, 0), nsNotice f (nvmeMod f (fun n => { n with asyncCfg := v }) s))
      | _ => ((0, 0x02), s)) s

def execNvmeGetFeatures (f : Fn) (entry : Bytes) (s : State) : Res :=
  admin 0x0A f entry (fun e s =>
    let n := nvmeOf s f
    let pick := fun (now def_ : Nat) => match fld (enDw e 10) 8 3 with
      | 0 => ((now, 0), s)
      | 3 => ((4, 0), s)
      | _ => ((def_, 0), s)
    match fld (enDw e 10) 0 8 with
    | 0x07 => pick (queueCounts s f) (queueCounts s f)
    | 0x08 => pick n.coalesce 0
    | 0x0B => pick n.asyncCfg 0
    | _ => ((0, 0x02), s)) s

/-- A queue number out of the share, or not as the queue should be. -/
def qidBad (s : State) (f : Fn) (q : Nat) (used : Bool) : Bool := q == 0 || decide (shareQ s f < q) || used

def execNvmeCreateIoCq (f : Fn) (entry : Bytes) (s : State) : Res :=
  admin 0x05 f entry (fun e s =>
    let q := fld (enDw e 10) 0 16
    let size := fld (enDw e 10) 16 16 + 1
    let v := fld (enDw e 11) 16 16
    if qidBad s f q (thas (nvmeOf s f).cqs q) then ((0, 0x101), s)
    else if size < 2 || 4096 < size then ((0, 0x102), s)
    else if !bit (enDw e 11) 0 then ((0, 0x02), s)
    else if shareV s f ≤ v then ((0, 0x108), s)
    else if rd e 24 8 % nvmePage (nvmeOf s f) != 0 then ((0, 0x13), s)
    else
      let c : NvmeCq := { base := rd e 24 8, size := size, vector := v, ien := bit (enDw e 11) 1, tail := 0, head := 0, phase := true, since := 0
                          timer := false }
      ((0, 0), nvmeMod f (fun n => { n with cqs := tput n.cqs q c }) s)) s

def execNvmeCreateIoSq (f : Fn) (entry : Bytes) (s : State) : Res :=
  admin 0x01 f entry (fun e s =>
    let q := fld (enDw e 10) 0 16
    let size := fld (enDw e 10) 16 16 + 1
    let cq := fld (enDw e 11) 16 16
    if cq == 0 || !thas (nvmeOf s f).cqs cq then ((0, 0x100), s)
    else if qidBad s f q (thas (nvmeOf s f).sqs q) then ((0, 0x101), s)
    else if size < 2 || 4096 < size then ((0, 0x102), s)
    else if !bit (enDw e 11) 0 then ((0, 0x02), s)
    else if rd e 24 8 % nvmePage (nvmeOf s f) != 0 then ((0, 0x13), s)
    else ((0, 0), nvmeMod f (fun n => { n with sqs := tput n.sqs q { base := rd e 24 8, size := size, cq := cq, tail := 0, head := 0 } }) s)) s

/-- Deletion of a submission queue: its commands complete with Command Aborted due to SQ Deletion (0x08); those sent finish at their
targets. -/
def execNvmeDeleteIoSq (f : Fn) (entry : Bytes) (s : State) : Res :=
  admin 0x00 f entry (fun e s =>
    let q := fld (enDw e 10) 0 16
    if qidBad s f q (!thas (nvmeOf s f).sqs q) then ((0, 0x101), s)
    else
      let mine := fun (c : StoCmd) => c.who == .controller f && c.sq == q && !c.orphan
      let s := (s.sto.cmds.filter mine).foldl (fun s c => nvmeComplete f q c.cid 0 0x08 s) s
      let orphaned := fun (c : StoCmd) => if mine c then { c with orphan := true } else c
      let s := stoMod (fun x => { x with cmds := (x.cmds.filter fun c => !mine c || c.sent || c.unknown).map orphaned }) s
      ((0, 0), nvmeMod f (fun n => { n with sqs := tdel n.sqs q }) s)) s

def execNvmeDeleteIoCq (f : Fn) (entry : Bytes) (s : State) : Res :=
  admin 0x04 f entry (fun e s =>
    let q := fld (enDw e 10) 0 16
    if qidBad s f q (!thas (nvmeOf s f).cqs q) then ((0, 0x101), s)
    else if (nvmeOf s f).sqs.any (fun x => x.2.cq == q) then ((0, 0x10C), s)
    else ((0, 0), nvmeMod f (fun n => { n with cqs := tdel n.cqs q, held := n.held.filter fun x => x.1 != q }) s)) s

/-- Abort: a command not yet sent ends with Command Abort Requested (0x07); of any other, dword 0 says that it was not aborted. -/
def execNvmeAbort (f : Fn) (entry : Bytes) (s : State) : Res :=
  admin 0x08 f entry (fun e s =>
    let q := fld (enDw e 10) 0 16
    let cid := fld (enDw e 10) 16 16
    match s.sto.cmds.find? fun c => c.who == .controller f && c.sq == q && c.cid == cid && !c.sent && !c.unknown && !c.orphan with
    | some c => ((0, 0), endCmd c 0 0x07 s)
    | none => ((1, 0), s)) s

/-- Asynchronous Event Request: armed, without a completion until an event. -/
def execNvmeAsyncEventRequest (f : Fn) (entry : Bytes) (s : State) : Res :=
  fetch 0x0C f 0 entry (fun e s => nsNotice f (nvmeMod f (fun n => { n with aers := n.aers ++ [enCid e] }) s)) s

/-! ## I/O commands (R363-R375, R427) -/

/-- A command accepted for a namespace: held, and sent as soon as it may be. -/
def holdCmd (c : StoCmd) (s : State) : State :=
  pumpNs c.ns (stoMod (fun x => { x with cmds := x.cmds ++ [{ c with id := x.nextId }], nextId := x.nextId + 1 }) s)

/-- Data length and, for a namespace with PI that the submitter holds, metadata length of a Read, Write or Compare. -/
def dataLen (n : Ns) (e : Bytes) : Nat := lbaSize n.format * enBlocks e
def mdLen (n : Ns) (e : Bytes) : Nat := if hasPi n && !enPract e then 8 * enBlocks e else 0

/-- LBA ranges of a command; those of Dataset Management are the 16-byte entries of `data`. -/
def rangesOf (e data : Bytes) : List (Nat × Nat) :=
  match enOpc e with
  | 0x09 =>
    if bit (enDw e 11) 2 then (List.range (fld (enDw e 10) 0 8 + 1)).map (fun i => (rd data (16 * i + 8) 8, rd data (16 * i + 4) 4)) else []
  | 0x00 => []
  | _ => [(enLba e, enBlocks e)]

/-- An I/O command of a submitter. `segs` are its buffers, `data` what they hold (data, then PI) where the command sends data. -/
def ioCommand (who : Submitter) (sq : Nat) (e : Bytes) (segs : Ns → Nat ⊕ List (Nat × Nat)) (data : Option Bytes) (s : State) : State :=
  let opc := enOpc e
  let fin := fun st => stoAnswer who sq (enCid e) 0 st s
  match attachOf s who (enNsid e) with
  | none => fin 0x0B
  | some a => match tget s.sto.nss a.ns with
    | none => fin 0x0B
    | some n =>
      let moves := opc == 0x01 || opc == 0x02 || opc == 0x05
      if ordered opc && !a.write then fin 0x20
      else if moves && 1048576 < dataLen n e then fin 0x02
      else if nsShown s n != 1 && nsShown s n != 2 then fin 0x82
      else match segs n with
        | .inl st => fin st
        | .inr l =>
          let c : StoCmd := { id := 0, who := who, sq := sq, cid := enCid e, ns := a.ns, opc := opc, ranges := rangesOf e (data.getD []), path := 0
                              conn := 0, sent := false, unknown := false, orphan := false, entry := e, data := [], segs := l, md := rd e 16 8 }
          if opc == 0x01 || opc == 0x05 then
            match data with
            | none => fin 0x04
            | some d => match writeData n e d with
              | .inr (k, st) => stoAnswer who sq (enCid e) 0 st (piError a.ns 1 e k st s)
              | .inl b => holdCmd { c with data := b } s
          else if opc == 0x09 then
            match data with
            | none => fin 0x04
            | some d => holdCmd { c with data := fitTo (16 * (fld (enDw e 10) 0 8 + 1)) d } s
          else holdCmd c s

/-- The buffers of a host's command. -/
def hostSegs (s : State) (f : Fn) (e list : Bytes) (n : Ns) : Nat ⊕ List (Nat × Nat) := dataSegs (nvmePage (nvmeOf s f)) e list (dataLen n e)

/-- A namespace with 4,096 commands at targets takes no further command from a submission queue (R366). -/
def nsFull (s : State) (f : Fn) (entry : Bytes) : Bool :=
  match attachOf s (.controller f) (enNsid (fitTo 64 entry)) with
  | some a => decide (4096 ≤ nsSent s a.ns)
  | none => false

/-- An I/O command of a host. -/
def hostIo (opc : Nat) (f : Fn) (q : Nat) (entry : Bytes) (act : Bytes → State → State) (s : State) : Res :=
  if q == 0 then onElem false s
  else if nsFull s f entry then onElem (isNvme s f) s
  else fetch opc f q entry act s

def execNvmeRead (f : Fn) (q : Nat) (entry list : Bytes) (s : State) : Res :=
  hostIo 0x02 f q entry (fun e s => ioCommand (.controller f) q e (hostSegs s f e list) none s) s

/-- NVME_WRITE: `data` is what the host's buffers hold, none when a read of host memory fails (Data Transfer Error, 0x04). -/
def execNvmeWrite (f : Fn) (q : Nat) (entry list : Bytes) (data : Option Bytes) (s : State) : Res :=
  hostIo 0x01 f q entry (fun e s => ioCommand (.controller f) q e (hostSegs s f e list) data s) s

def execNvmeCompare (f : Fn) (q : Nat) (entry list : Bytes) (data : Option Bytes) (s : State) : Res :=
  hostIo 0x05 f q entry (fun e s => ioCommand (.controller f) q e (hostSegs s f e list) data s) s

def execNvmeFlush (f : Fn) (q : Nat) (entry : Bytes) (s : State) : Res :=
  hostIo 0x00 f q entry (fun e s => ioCommand (.controller f) q e (fun _ => .inr []) none s) s

def execNvmeWriteZeroes (f : Fn) (q : Nat) (entry : Bytes) (s : State) : Res :=
  hostIo 0x08 f q entry (fun e s => ioCommand (.controller f) q e (fun _ => .inr []) none s) s

def execNvmeDatasetManagement (f : Fn) (q : Nat) (entry : Bytes) (data : Option Bytes) (s : State) : Res :=
  hostIo 0x09 f q entry (fun e s => ioCommand (.controller f) q e (fun _ => .inr []) data s) s

/-- The contiguous buffer of a bed's command, with its PI buffer, within one window each with the right that the command needs: read of what
it sends, write of what it receives (R427). -/
def bedSegs (s : State) (b : Nat) (e : Bytes) (n : Ns) : Nat ⊕ List (Nat × Nat) :=
  let opc := enOpc e
  let len := if opc == 0x09 then 16 * (fld (enDw e 10) 0 8 + 1) else if opc == 0x01 || opc == 0x02 || opc == 0x05 then dataLen n e else 0
  let md := if opc == 0x01 || opc == 0x02 || opc == 0x05 then mdLen n e else 0
  let right := if opc == 0x02 then 1 else 0
  let ok := (len == 0 || inBedWindow s b (rd e 24 8) len right) && (md == 0 || inBedWindow s b (rd e 16 8) md right)
  if fld (rd e 1 1) 6 2 != 0 || !ok then .inl 0x02 else .inr [(rd e 24 8, len)]

/-- BED_STORAGE_SUBMIT: a bed's entry arrives on its storage channel. A poisoned line of its buffer ends it with Internal Error (0x06). -/
def execBedStorageSubmit (b : Nat) (entry : Bytes) (s : State) : Res :=
  onElem (decide (b < 32))
    (let e := fitTo 64 entry
     if !storageUp s then s
     else if !ioOps.contains (enOpc e) then stoAnswer (.bed b) 0 (enCid e) 0 0x01 s
     else
       let a := rd e 24 8
       let out := enOpc e == 0x01 || enOpc e == 0x05 || enOpc e == 0x09
       match attachOf s (.bed b) (enNsid e) with
       | none => stoAnswer (.bed b) 0 (enCid e) 0 0x0B s
       | some t => match tget s.sto.nss t.ns with
         | none => stoAnswer (.bed b) 0 (enCid e) 0 0x0B s
         | some n =>
           match bedSegs s b e n with
           | .inl st => stoAnswer (.bed b) 0 (enCid e) 0 st s
           | .inr l =>
             let len := (l.headD (0, 0)).2
             let md := if enOpc e == 0x09 then 0 else mdLen n e
             let bad := out && ((poisonHit s a len).isSome || (md != 0 && (poisonHit s (rd e 16 8) md).isSome))
             if bad then stoAnswer (.bed b) 0 (enCid e) 0 0x06 s
             else
               let s := if out then countReads a len (if md == 0 then s else countReads (rd e 16 8) md s) else s
               let d := if out then some (memRead s a len ++ memRead s (rd e 16 8) md) else none
               ioCommand (.bed b) 0 e (fun _ => .inr l) d s)

/-- TARGET_RESPONSE: the target's answer to a command: result dword 0, 15-bit status, its data, and the decrypted blocks where the namespace
is encrypted. `ecc` says that the engine's staging met an uncorrectable error (R504). Path-related statuses (SCT 3) are transport errors and
are reissued (R369). -/
def execTargetResponse (id dw0 status : Nat) (data plain : Bytes) (ecc : Bool) (s : State) : Res :=
  .next (match s.sto.cmds.find? fun c => c.id == id && c.sent with
    | none => s
    | some c =>
      let i := c.ns
      if fld status 8 3 == 3 then
        pumpNs i (stoMod (fun x => { x with cmds := x.cmds.map fun d =>
          if d.id == id then { d with sent := false, unknown := true } else d }) s)
      else if ecc then pumpNs i (endCmd c 0 0x06 s)
      else if c.opc != 0x02 || fld status 0 11 != 0 || c.orphan then pumpNs i (endCmd c dw0 (status % 2 ^ 15) s)
      else match tget s.sto.nss i with
        | none => endCmd c dw0 (status % 2 ^ 15) s
        | some n => match readData n c.entry data plain with
          | .inr (k, st) => pumpNs i (endCmd c 0 st (piError i 2 c.entry k st s))
          | .inl (d, pi) =>
            let (ok, s) := deliver c d pi s
            pumpNs i (endCmd c dw0 (if ok then status % 2 ^ 15 else 0x06) s))

/-! ## Paths (R359-R362, R364, R367, R368) -/

def pathMod (p : Nat) (f : StoPath → StoPath) (s : State) : State :=
  stoMod (fun x => { x with paths := match tget x.paths p with | some y => tput x.paths p (f y) | none => x.paths }) s

/-- The Connect capsule of a connection (0 the admin one): SQE and 1,024 bytes of data (R360). -/
def connectCapsule (s : State) (x : StoPath) (k : Nat) : Bytes :=
  let size := if k == 0 then 31 else x.depth - 1
  layout 64 [(0, [0x7F, 0x40]), (4, [1]), (42, le 2 k), (44, le 2 size), (48, le 4 (if k == 0 then 1000 * x.kato else 0))] ++
  layout 1024 [(0, le 16 Config.stoHostId.toNat), (16, [0xFF, 0xFF]), (256, tgetD s.sto.nqns x.subNqn []), (512, tgetD s.sto.nqns x.hostNqn [])]

/-- A path connects. -/
def pathConnect (p : Nat) (s : State) : State :=
  match tget s.sto.paths p with
  | none => s
  | some x => (List.range (x.conns + 1)).foldl (fun t k => toTransport p k (connectCapsule s x k) t)
      (pathMod p (fun x => { x with st := .connecting }) s)

/-- Does what a path reports of its namespace differ in LBA size or protection information (R364)? -/
def mismatched (n : Ns) (d : NsIdent) : Bool := d.lbaSize != lbaSize n.format || d.pi != piType n

/-- A namespace after a path that names it became LIVE. -/
def nsMeets (p : Nat) (ids : List NsIdent) (s : State) (i : Nat) : State :=
  match tget s.sto.nss i with
  | none => s
  | some n =>
    if !n.paths.contains p then s
    else match ids.find? fun d => d.nsid == n.remoteNsid with
      | some d =>
        if mismatched n d then nsSet i 5 s
        else
          let s := nsMod i (fun n => { n with capacity := d.nsze }) s
          if n.st == 2 || n.st == 3 then nsSet i 1 s else s
      | none => if n.st == 2 || n.st == 3 then nsSet i 1 s else s

/-- STO_PATH_UP: every connection of a path is established; `ids` is what its subsystem reports. -/
def execStoPathUp (p : Nat) (ids : List NsIdent) (s : State) : Res :=
  .next (match tget s.sto.paths p with
    | none => s
    | some x =>
      if x.st == .live || !storageUp s then s
      else
        let s := pathMod p (fun x => { x with st := .live, liveConns := x.conns + 1, attempts := 0, interval := 1, nextConn := 0, idents := ids }) s
        let s := raise 0x2401 (stoPlace p) [p, x.conns + 1] s
        pumpAll (s.sto.nss.foldl (fun s e => nsMeets p ids s e.1) s))

/-- A LIVE path goes DOWN with a cause of R361: its commands have an unknown outcome and are issued again. A path that was connecting is DOWN
again, without a report (assumption 35). -/
def pathDown (p cause : Nat) (s : State) : State :=
  match tget s.sto.paths p with
  | none => s
  | some x =>
    if x.st != .live then pathMod p (fun x => { x with st := .down }) s
    else
      let n := pathSent s p
      let s := pathMod p (fun x => { x with st := .down, liveConns := 0, attempts := 0, interval := 1 }) s
      let s := raise 0x2402 (stoPlace p) [p, cause, n] s
      let s := stoMod (fun y => { y with cmds := y.cmds.map fun c =>
        if c.sent && c.path == p then { c with sent := false, unknown := true } else c }) s
      pumpAll (s.sto.nss.foldl (fun s e => if e.2.st == 1 && (livePaths s e.2).isEmpty then nsSet e.1 2 s else s) s)

def execPathConnectionError (p : Nat) (s : State) : Res := .next (pathDown p 1 s)
def execKeepAliveTimeout (p : Nat) (s : State) : Res := .next (pathDown p 2 s)

/-- IO_TIMEOUT: a command outstanding on the path has had no response. -/
def execIoTimeout (p : Nat) (s : State) : Res := .next (if pathSent s p == 0 then s else pathDown p 3 s)

/-- ROCE_RETRY_EXHAUSTED: RoCEv2 paths alone. -/
def execRoceRetryExhausted (p : Nat) (s : State) : Res :=
  .next (match tget s.sto.paths p with
    | some x => if x.transport == 1 then pathDown p 4 s else s
    | none => s)

def execTargetFatalStatus (p : Nat) (s : State) : Res := .next (pathDown p 5 s)

/-- PATH_RECONNECT_TIMER: an attempt of a path that is not LIVE; the next interval doubles up to 32 s. -/
def execPathReconnectTimer (p : Nat) (s : State) : Res :=
  .next (match tget s.sto.paths p with
    | none => s
    | some x =>
      if x.st == .live || !storageUp s then s
      else pathConnect p (pathMod p (fun x => { x with attempts := x.attempts + 1, interval := min 32 (2 * x.interval) }) s))

/-- NAMESPACE_HOLD_EXPIRY: every waiting command completes with Namespace Not Ready; UNAVAILABLE until a path is LIVE. -/
def execNamespaceHoldExpiry (i : Nat) (s : State) : Res :=
  .next (match tget s.sto.nss i with
    | none => s
    | some n =>
      if n.st != 2 then s
      else nsSet i 3 ((s.sto.cmds.filter fun c => c.ns == i && !c.sent).foldl (fun s c => endCmd c 0 0x82 s) s))

end Sys2Proof.Machine
end

