-- ==== Sys2Proof/Machine/Vf.lean ====
section
/-! DEFINITION. Virtual functions and migration: enabling, states, dirty-page logs, saving and restoring (R302-R324). -/

namespace Sys2Proof.Machine

/-! ## The SR-IOV capability (R302-R304) -/

def totalVfs (s : State) (f : Fn) : Nat := if isBifurcated s f.link then 64 else 128

/-- NUMVFS_WRITE (R302): ignored while VF Enable is set, and for a number above TotalVFs. -/
def execNumvfsWrite (f : Fn) (n : Nat) (s : State) : Res :=
  onElem (fnExists s f && f.num == 0)
    (if (funcOf s f).vfEnable || totalVfs s f < n then s else funcMod f (fun g => { g with numVfs := n }) s)

def execVfEnableSet (f : Fn) (s : State) : Res :=
  onElem (fnExists s f && f.num == 0)
    (if (funcOf s f).vfEnable then s
     else if vfsResetting s f then funcMod f (fun g => { g with vfDeferred := true }) s
     else vfsAppear f s)

def execVfEnableClear (f : Fn) (s : State) : Res :=
  onElem (fnExists s f && f.num == 0) (clearVfs f (funcMod f (fun g => { g with vfDeferred := false }) s))

/-! ## VF states (R310-R312) -/

/-- A write of VF_CTRL. -/
def vfCtrlWrite (f : Fn) (v : Nat) (s : State) : State :=
  let g := funcOf s f
  let s := funcMod f (fun g => { g with ctrl := and32 v 0x1FF0101 }) s
  if bit v 0 then
    if g.vf == .shuttingDown then funcMod f (fun g => { g with enablePending := true }) s else vfActivate f s
  else
    match g.vf with
    | .active => funcMod f (fun g => { g with vf := .shuttingDown, enablePending := false }) s
    | .shuttingDown => funcMod f (fun g => { g with enablePending := false }) s
    | _ => s

def execVfCtrlEnableSet (f : Fn) (s : State) : Res :=
  onElem (fnExists s f && f.num != 0) (vfCtrlWrite f (setBit (funcOf s f).ctrl 0) s)

def execVfCtrlEnableClear (f : Fn) (s : State) : Res :=
  onElem (fnExists s f && f.num != 0) (vfCtrlWrite f (clrBit (funcOf s f).ctrl 0) s)

/-- VF_SHUTDOWN_DONE (R311, R312): every transfer has finished and every tag has returned. Queue pairs still RUNNING are disabled with
cause 6 (R330); a deferred enable makes the VF ACTIVE with every queue pair stopped. -/
def execVfShutdownDone (f : Fn) (s : State) : Res :=
  onElem (fnExists s f && f.num != 0)
    (let g := funcOf s f
     if g.vf != .shuttingDown || !g.reads.isEmpty then s
     else
       let s := g.qps.foldl (fun s e => qpCut f e.1 s) s
       let s := if g.bmePending then setBme f s else s
       let again := g.enablePending && (funcOf s f).bme
       let s := funcMod f (fun g => { g with
         vf := if again then .active else .disabled, enablePending := false, bmePending := false
         qps := tmap g.qps fun _ q => { q with st := if again then 0 else q.st } }) s
       raiseFn 0x1C03 f [fnRef f, b2n again] s)

/-! ## Commands (R323) -/

/-- The VF that a command names; a reference to a function that does not exist is BAD_PARAM (R323). -/
def vfNamed (c : Cmd) (s : State) : Option Rep :=
  if !refOk (c.prm 0 4) then some (badParam dReserved)
  else if !fnExists s (refFn (c.prm 0 4)) then some (badParam dRange)
  else none

/-- Code of a VF state (R309); a PF is ACTIVE. -/
def vfCode (f : Fn) (g : Func) : Nat :=
  if f.num == 0 then 2 else match g.vf with
    | .reset => 0
    | .disabled => 1
    | .active => 2
    | .shuttingDown => 3
    | .stopped => 4

def opVfQuery : Op := mkOp 0x1C01 4 [] .package fun c s =>
  let f := refFn (c.prm 0 4)
  if !refOk (c.prm 0 4) then .refuse (badParam dReserved)
  else if !halfExists s f.link f.half || 128 < f.num then .refuse (badParam dRange)
  else if !fnExists s f then .ok [7] s
  else
    let g := funcOf s f
    .ok ([byte (vfCode f g), byte (b2n g.enablePending + 2 * b2n g.bmePending)] ++ le 2 (shareQ s f) ++ le 2 (shareV s f) ++
      le 2 (poolQp s f 0)) s

def execVfQuery (c : Cmd) (s : State) : Res := .next (runCmd opVfQuery c s)

/-- VF_SUSPEND (R319): replies when the VF is STOPPED. -/
def opVfSuspend : Op := mkOp 0x1C02 4 [] .package fun c s =>
  match vfNamed c s with
  | some r => .refuse r
  | none =>
    let f := refFn (c.prm 0 4)
    if f.num == 0 || (funcOf s f).vf != .active || (funcOf s f).suspending then .refuse (badParam dNotActive)
    else .later (fnKey f) (funcMod f (fun g => { g with suspending := true }) s)

def execVfSuspend (c : Cmd) (s : State) : Res := .next (runCmd opVfSuspend c s)

def execVfSuspendComplete (f : Fn) (s : State) : Res :=
  onElem (fnExists s f && f.num != 0)
    (if (funcOf s f).suspending then
       finishKey 0x1C02 (fnKey f) (repOk []) (funcMod f (fun g => { g with suspending := false, vf := .stopped }) s)
     else s)

/-- VF_RESUME (R310, R321): ACTIVE; every doorbell recorded while STOPPED is acted on. -/
def opVfResume : Op := mkOp 0x1C03 4 [] .package fun c s =>
  match vfNamed c s with
  | some r => .refuse r
  | none =>
    let f := refFn (c.prm 0 4)
    if f.num == 0 || (funcOf s f).vf != .stopped then .refuse (badParam dNotStopped)
    else
      let s := funcMod f (fun g => { g with vf := .active }) s
      .ok [] ((funcOf s f).qps.foldl (fun s e => qpFetch f e.1 s) s)

def execVfResume (c : Cmd) (s : State) : Res := .next (runCmd opVfResume c s)

/-! ## Dirty-page logs (R314-R318) -/

/-- Index of a function's log. -/
def logOf (s : State) (f : Fn) : Option Nat := (s.host.logs.find? fun e => e.2.fn == f).map fun e => e.1

def logMod (k : Nat) (l : DirtyLog) (s : State) : State := { s with host := { s.host with logs := tput s.host.logs k l } }
def logDel (k : Nat) (s : State) : State := { s with host := { s.host with logs := tdel s.host.logs k } }

def opVfLogStart : Op := mkOp 0x1C04 32 [(4, 4)] .package fun c s =>
  match vfNamed c s with
  | some r => .refuse r
  | none =>
    let f := refFn (c.prm 0 4)
    let base := c.prm 16 8
    let len := c.prm 24 8
    if c.prm 8 8 % 4096 != 0 || base % 0x40000 != 0 || len % 0x40000 != 0 || len == 0 || 2 ^ 40 < len then
      .refuse (badParam dRange)
    else if (logOf s f).isSome then .refuse (busy dLogActive)
    else match (List.range 16).find? fun k => !thas s.host.logs k with
      | none => .refuse (noResource 0)
      | some k => .ok [byte k] (logMod k { fn := f, bitmap := c.prm 8 8, base := base, len := len, live := [], snap := []
                                           overflow := false, reported := false, harvesting := false } s)

def execVfLogStart (c : Cmd) (s : State) : Res := .next (runCmd opVfLogStart c s)

/-- VF_LOG_HARVEST (R317): the live bitmap and the snapshot are exchanged. -/
def opVfLogHarvest : Op := mkOp 0x1C05 4 [] .package fun c s =>
  match vfNamed c s with
  | some r => .refuse r
  | none =>
    match logOf s (refFn (c.prm 0 4)) with
    | none => .refuse (badParam dNoEntry)
    | some k =>
      match tget s.host.logs k with
      | none => .refuse (badParam dNoEntry)
      | some l =>
        if l.harvesting then .refuse (busy 0)
        else .accept (fnKey l.fn) (logMod k { l with live := [], snap := l.live, harvesting := true } s)

def execVfLogHarvest (c : Cmd) (s : State) : Res := .next (runCmd opVfLogHarvest c s)

/-- Bytes of the host bitmap of a snapshot, zero words included (R314). -/
def bitmapBytes (pages : List Nat) (len : Nat) : Bytes :=
  (List.range (len / 32768)).map fun i =>
    byte ((pages.filter fun p => p / 8 == i).foldl (fun m p => setBit m (p % 8)) 0)

/-- The function in whose memory a command's data lies: the submitter, or the PF of the function it is about. -/
def dataFn (s : State) (opcode : Nat) (f : Fn) : Fn :=
  match owedBy s opcode (fnKey f) with
  | some o => (queueFn o.queue).getD (pfOf f)
  | none => pfOf f

/-- The 64 MiB of log `k` in DDR5 (R501; their order is DEDUCED, assumption 94). -/
def logArea (k : Nat) : Nat := 0x400140000000 + 0x4000000 * k

/-- VF_LOG_HARVEST_COMPLETE (R317, R318): the snapshot is written, the completion carries the count and the overflow flag, which poison in
the log's bitmaps sets (R504). A failed write (`ok` false) ends the log. -/
def execVfLogHarvestComplete (f : Fn) (ok : Bool) (s : State) : Res :=
  .next (match logOf s f with
    | none => s
    | some k =>
      match tget s.host.logs k with
      | none => s
      | some l =>
        if !l.harvesting then s
        else if !ok then finishKey 0x1C05 (fnKey f) (faultRep dHostAccess (pathOf s (pciePlace f.link)).toNat) (logDel k s)
        else
          let overflow := l.overflow || areaPoisoned s (logArea k) 0x4000000
          let s := hostWrite (dataFn s 0x1C05 f) l.bitmap (bitmapBytes l.snap l.len) (areaRewritten (logArea k) 0x4000000 s)
          match tget s.host.logs k with
          | none => s
          | some l' =>
            finishKey 0x1C05 (fnKey f) (repOk (le 4 l.snap.length ++ [byte (b2n overflow)]))
              (logMod k { l' with snap := [], overflow := false, harvesting := false } s))

def opVfLogStop : Op := mkOp 0x1C06 4 [] .package fun c s =>
  match vfNamed c s with
  | some r => .refuse r
  | none =>
    match logOf s (refFn (c.prm 0 4)) with
    | none => .refuse (badParam dNoEntry)
    | some k =>
      if (match tget s.host.logs k with | some l => l.harvesting | none => false) then .refuse (busy 0) else .ok [] (logDel k s)

def execVfLogStop (c : Cmd) (s : State) : Res := .next (runCmd opVfLogStop c s)

/-! ## Saving and restoring (R320, R321) -/

/-- An MSI-X entry as PCI Express lays it out. -/
def msixBytes (m : Msix) : Bytes := le 8 m.addr ++ le 4 m.data ++ le 4 (b2n m.masked)

/-- The 64 bytes of a command queue's registers and indices, in the order of R280 (assumption 20). -/
def cqRecord (q : CmdQueue) : Bytes :=
  fitTo 64 (le 8 q.sqBase ++ le 8 q.rqBase ++ le 4 q.cfg ++ le 2 q.tail ++ le 2 q.head ++ le 2 q.rqHead ++ le 2 q.rqTail ++
    [byte (b2n q.error), byte q.cause])

/-- Everything after the header. -/
def imageBody (s : State) (f : Fn) : Bytes :=
  let g := funcOf s f
  (List.range (shareQ s f)).flatMap (fun n => qpRecord (tgetD g.qps n {})) ++
  (List.range (shareV s f)).flatMap (fun v => msixBytes (tgetD g.msix v {})) ++ cqRecord (cqOf s f 0)

/-- Length of the image (R320). -/
def imageLen (s : State) (f : Fn) : Nat := 32 + 64 * shareQ s f + 16 * shareV s f + 64

def vfImage (s : State) (f : Fn) : Bytes :=
  let b := imageBody s f
  le 4 0x4D56574C ++ le 2 1 ++ le 2 (shareQ s f) ++ le 2 (shareV s f) ++ [0, 0] ++ le 4 (imageLen s f) ++
  le 4 (crc32c 0xFFFFFFFF#32 b) ++ List.replicate 12 0 ++ b

/-- VF_SAVE (R320). -/
def opVfSave : Op := mkOp 0x1C07 20 [(4, 4)] .package fun c s =>
  match vfNamed c s with
  | some r => .refuse r
  | none =>
    let f := refFn (c.prm 0 4)
    if c.prm 8 8 % 64 != 0 then .refuse (badParam dRange)
    else if f.num == 0 || (funcOf s f).vf != .stopped then .refuse (badParam dNotStopped)
    else if c.prm 16 4 < imageLen s f then .refuse (noResource dBufferShort)
    else .accept (fnKey f) s fun s => hostWrite ((queueFn c.queue).getD (pfOf f)) (c.prm 8 8) (vfImage s f) s

def execVfSave (c : Cmd) (s : State) : Res := .next (runCmd opVfSave c s)

/-- VF_SAVE_COMPLETE: the image has been written, or its write has failed. -/
def execVfSaveComplete (f : Fn) (ok : Bool) (s : State) : Res :=
  .next (finishKey 0x1C07 (fnKey f)
    (if ok then repOk (le 4 (imageLen s f)) else faultRep dHostAccess (pathOf s (pciePlace f.link)).toNat) s)

/-- VF_RESTORE (R321) into a DISABLED VF. -/
def opVfRestore : Op := mkOp 0x1C08 16 [(4, 4)] .package fun c s =>
  match vfNamed c s with
  | some r => .refuse r
  | none =>
    let f := refFn (c.prm 0 4)
    if f.num == 0 || (funcOf s f).vf != .disabled then .refuse (badParam 0)
    else if s.cmd.owed.any (fun o => o.opcode == 0x1C08 && o.key == fnKey f) then .refuse (busy 0)
    else .accept (fnKey f) s

def execVfRestore (c : Cmd) (s : State) : Res := .next (runCmd opVfRestore c s)

/-- A context record as state (R329). -/
def qpOfRecord (b : Bytes) : Qp :=
  { ctx := b.take 32, txHead := rd b 32 2, txTail := rd b 34 2, rxHead := rd b 36 2, rxTail := rd b 38 2, cqTail := rd b 40 2
    cqHead := rd b 42 2, st := fld (rd b 44 1) 0 3, phase := bit (rd b 44 1) 3, cause := fld (rd b 44 1) 4 4
    modCount := rd b 45 1, modTime := rd b 46 2 }

def msixOfBytes (b : Bytes) : Msix := { addr := rd b 0 8, data := rd b 8 4, masked := bit (rd b 12 4) 0 }

def cqOfRecord (b : Bytes) : CmdQueue :=
  { sqBase := rd b 0 8, rqBase := rd b 8 8, cfg := rd b 16 4, tail := rd b 20 2, head := rd b 22 2, rqHead := rd b 24 2
    rqTail := rd b 26 2, error := rd b 28 1 == 1, cause := rd b 29 1, running := bit (rd b 16 4) 0 }

/-- VF_RESTORED (R321): the image has been read from host memory (`access` false when the read failed). -/
def execVfRestored (f : Fn) (image : Bytes) (access : Bool) (s : State) : Res :=
  onElem (fnExists s f && f.num != 0)
    (let b := image.drop 32
     let q := rd image 6 2
     let v := rd image 8 2
     let done := fun (r : Rep) (s : State) => finishKey 0x1C08 (fnKey f) r s
     if (owedBy s 0x1C08 (fnKey f)).isNone then s
     else if !access then done (faultRep dHostAccess (pathOf s (pciePlace f.link)).toNat) s
     else if rd image 0 4 != 0x4D56574C || rd image 4 2 != 1 || rd image 12 4 != 32 + 64 * q + 16 * v + 64 ||
         b.length != 64 * q + 16 * v + 64 || rd image 16 4 != crc32c 0xFFFFFFFF#32 b then done (badParam dFormat) s
     else if q != shareQ s f || v != shareV s f then done (badParam dShareMismatch) s
     else
       let s := funcMod f (fun g => { g with
         vf := .stopped
         qps := (List.range q).map fun n => (n, qpOfRecord (slice b (64 * n) 64))
         msix := (List.range v).map fun n => (n, msixOfBytes (slice b (64 * q + 16 * n) 16))
         queues := tput g.queues 0 (cqOfRecord (slice b (64 * q + 16 * v) 64)) }) s
       done (repOk []) (raiseFn 0x1C05 f [fnRef f, image.length] s))

end Sys2Proof.Machine
end

