-- ==== Sys2Proof/Machine/Access.lean ====
section
/-! DEFINITION. Accesses to registers: the internal blocks, BAR0 of PFs and VFs, configuration-space fields, and BAR2 (R17-R19, R278-R288,
R308, R340, R350, R355, R409, R487, R510, R535, R560, R579, R606, R616, R619, R665, R678). -/

namespace Sys2Proof.Machine

/-! ## Blocks of the internal address space -/

def dmaBase : Nat := 0x008000000000
def qpBase : Nat := 0x008400000000
def svcBase : Nat := 0x009000000000
def mbxBase : Nat := 0x00CC00000000
def memRegBase : Nat := 0x00D000000000
def cartBase : Nat := 0x00D400000000
def ageBase : Nat := 0x00D800000000
def testBase : Nat := 0x00DC00000000
def twinBase : Nat := 0x00E000000000
def protBase : Nat := 0x00E400000000
def timeBase : Nat := 0x00E800000000
def pwrBase : Nat := 0x00EC00000000

def inBlock (a base size : Nat) : Bool := decide (base ≤ a) && decide (a < base + size)

/-- The registers of a block that lie in typed state elsewhere keep their EVENT and mask words apart: EVENT address and event bits. -/
def eventWords : List (Nat × Nat) :=
  [(cartBase + 0x20000, 7), (ageBase + 0x200, 7), (testBase + 0x200, 5), (twinBase + 0x200, 4), (timeBase + 0x200, 4)]

/-! ## Direct DMA channels (R340, R341) -/

/-- RW bits of a programmable word of a channel, by offset. -/
def chMask (off : Nat) : Nat :=
  match off with
  | 0x10 => 0xFFFF7F07 | 0x14 => 0xFFFF01FF | 0x28 => 0xFFFF7F07 | 0x2C => 0xFFFF01FF
  | 0x1C => 0 | 0x34 => 7 | 0x38 => 0 | 0x3C => 0x0FFFFFFF
  | _ => 0xFFFFFFFF

def chWord (d : DmaCh) (off : Nat) : Nat :=
  if off == 0x00 then d.ctrl
  else if off == 0x04 then chStatus d
  else if off < 0x40 then and32 (rd d.prog (off - 8) 4) (chMask off)
  else if off < 0x48 then wordN (chCount d) ((off - 0x40) / 4)
  else if off == 0x48 then
    b2n (d.ownerKind == 1) + 2 * b2n d.assigned + (if d.ownerKind == 0 then 2 ^ 8 * d.owner.num + 2 ^ 16 * d.owner.pool else 2 ^ 24 * d.bed)
  else 0

/-- Dirty bit of a programmable register, by offset (R341). -/
def chDirtyBit (off : Nat) : Nat :=
  if off < 0x10 then 0 else if off < 0x18 then 1 else if off < 0x20 then 2 else if off < 0x28 then 3 else if off < 0x30 then 4
  else if off < 0x34 then 5 else if off < 0x38 then 6 else 7

/-- A write of a channel's word by the bed that holds it; a program in action goes on as enabled (assumption 80). -/
def chWrite (k off v : Nat) (s : State) : State :=
  let d := dmaOf s k
  if off == 0x00 then
    (if bit v 0 then (if bit d.ctrl 0 then s else chEnable k (and32 v 0x1FFF000F) s)
     else
       let s := if bit d.ctrl 0 then chDisable k s else s
       dmaMod k (fun d => { d with ctrl := clrBit (and32 v 0x1FFF000F) 0 }) s)
  else if off == 0x04 then (if bit v 4 then dmaMod k (fun d => { d with refused := false }) s else s)
  else if 0x08 ≤ off && off < 0x40 && off != 0x38 && off != 0x1C then
    dmaMod k (fun d => { d with
      prog := splice (fitTo 64 d.prog) (off - 8) (le 4 (and32 v (chMask off))), dirty := clrBit d.dirty (chDirtyBit off) }) s
  else s

/-! ## Mailboxes (R487) -/

def mbxKind : Option Nat → Nat
  | none => 0
  | some c => if c < 16 then 1 else if c == 64 then 2 else if c == 71 then 4 else if c == 72 then 5 else 3

/-- A word of a mailbox channel as one of its ends reads it; what belongs to the other role reads zero. -/
def mbxRegWord (s : State) (c role off : Nat) : Nat :=
  let m := mbxOf s c
  let sends := role == 0
  if off < 0x40 then rd (fitTo 64 (if sends then m.staging else m.msg)) off 4
  else if off == 0x40 then
    1 + 2 * role + 4 * b2n (decide (16 ≤ c)) + 2 ^ 8 * mbxKind (mbxSender s c) + 2 ^ 12 * mbxKind (mbxReceiver s c)
  else if off == 0x48 then
    b2n m.full + (if sends then 2 ^ 8 * b2n m.refused + 2 ^ 9 * b2n m.aborted
      else 2 * (if m.full then m.msg.length else 0) + 2 ^ 10 * b2n m.senderReset)
  else if off == 0x4C then (if sends then m.irqS else m.irqR)
  else if off == 0x50 then (if sends then m.db.toNat else 0)
  else if off == 0x54 then (if sends then 0 else m.db.toNat)
  else if off == 0x58 then (if sends then 0 else m.mask.toNat)
  else 0

/-- Is a value of MBX_IRQ refused: it binds a PF's end to a vector at or above its share (R288)? -/
def irqRefused (s : State) (c role v : Nat) : Bool :=
  match (mbxEnd s c role).bind codeFn with
  | some f => decide (shareV s f ≤ fld v 1 9)
  | none => false

/-- A write of a mailbox word: MBX_SEND, MBX_DB_SET, MBX_DB and MBX_DB_MASK act as their rows do. -/
def mbxWrite (c role off v : Nat) (s : State) : State :=
  let w := BitVec.ofNat 32 v
  if off == 0x4C && irqRefused s c role v then s
  else if role == 0 then
    (if off < 0x40 then mbxMod c (fun m => { m with staging := splice (fitTo 64 m.staging) off (le 4 v) }) s
     else if off == 0x44 then mbxSend c (v % 128) s
     else if off == 0x48 then
       mbxMod c (fun m => { m with refused := m.refused && !bit v 8, aborted := m.aborted && !bit v 9 }) s
     else if off == 0x4C then mbxMod c (fun m => { m with irqS := v % 1024 }) s
     else if off == 0x50 then mbxDbSet c w s
     else s)
  else
    (if off == 0x48 then mbxMod c (fun m => { m with senderReset := m.senderReset && !bit v 10 }) s
     else if off == 0x4C then mbxMod c (fun m => { m with irqR := v % 1024 }) s
     else if off == 0x54 then mbxDbClear c w s
     else if off == 0x58 then mbxDbMask c w s
     else s)

/-- The effect of a read of mailbox bytes: the receiver's read of byte 63 frees the channel (R489). -/
def mbxReadEffect (c role off len : Nat) (s : State) : State :=
  if role == 1 && off ≤ 63 && 63 < off + len then mbxRead63 c s else s

/-! ## The protection map (R619) -/

def protWord (s : State) (d off : Nat) : Nat :=
  let x := dieProt s d
  if off == 0 then b2n x.locked + 2 * b2n x.timedOut
  else if 0x10 ≤ off && off < 0x20 then
    wordN (sat 16 x.violCount + 2 ^ 16 * x.violReq + 2 ^ 24 * x.violKind + 2 ^ 32 * (x.violAddr % 2 ^ 48)) ((off - 0x10) / 4)
  else if d == 0 && 0x1000 ≤ off && off < 0x1800 then wordN (protReq s ((off - 0x1000) / 8)) (off / 4 % 2)
  else if d == 0 && 0x2000 ≤ off && off < 0x2080 then mbxEntry s ((off - 0x2000) / 4)
  else if 0x4000 ≤ off && off < 0x5000 then wordN (tgetD x.ranges ((off - 0x4000) / 16) 0) (off / 4 % 4)
  else 0

/-- Is the word boot-locked (R619): PROT_CTRL, an entry of the map, or a range? -/
def protLocked (d off : Nat) : Bool :=
  off == 0 || (d == 0 && decide (0x1000 ≤ off) && decide (off < 0x1800)) || (d == 0 && decide (0x2000 ≤ off) && decide (off < 0x2080)) ||
  (decide (0x4000 ≤ off) && decide (off < 0x5000))

/-! ## Internal words (R18) -/

/-- The 32-bit word at an aligned internal address, as a requester reads it. -/
def intWord (s : State) (code a : Nat) : Nat :=
  if inBlock a dmaBase 0x40000 then chWord (dmaOf s ((a - dmaBase) / 0x80)) (a % 0x80)
  else if inBlock a qpBase 0x100000 then
    wordN (tgetD s.host.qpCnt ((a - qpBase) / 0x20000 * 16384 + (a - qpBase) % 0x20000 / 8) 0) (a / 4 % 2)
  else if inBlock a svcBase (0x10000 * 85) then svcRegRead s ((a - svcBase) / 0x10000) (a % 0x10000) 4
  else if inBlock a mbxBase 0x2000 then
    (match mbxRole s ((a - mbxBase) / 0x100) code with | some r => mbxRegWord s ((a - mbxBase) / 0x100) r (a % 0x100) | none => 0)
  else if eventWords.any (fun e => a == e.1 || a == e.1 + 4) then (tgetD s.regs a 0).toNat
  else if inBlock a memRegBase 0x10000 then memReg s (a - memRegBase)
  else if inBlock a cartBase 0x40000 then cartReg s (a - cartBase)
  else if inBlock a ageBase 0x100000 then ageReg s (a - ageBase)
  else if inBlock a testBase 0x100000 then testReg s (a - testBase)
  else if inBlock a twinBase 0x1000 then twinReg s (a - twinBase)
  else if inBlock a protBase 0x5000000 then protWord s ((a - protBase) / 0x1000000) (a % 0x1000000)
  else if inBlock a timeBase 0x1000 then timeReg s (a - timeBase)
  else if inBlock a pwrBase 0x1000 then pwrReg s (a - pwrBase)
  else areaReg s a

/-- The effect of reading `len` bytes there: RC fields clear, a mailbox message is taken. -/
def intReadEffect (code a len : Nat) (s : State) : State :=
  let words := (List.range (max 1 (len / 4))).map fun k => a + 4 * k
  if inBlock a svcBase (0x10000 * 85) then svcRegReadEffect ((a - svcBase) / 0x10000) (a % 0x10000) len s
  else if inBlock a mbxBase 0x2000 then
    match mbxRole s ((a - mbxBase) / 0x100) code with
    | some r => mbxReadEffect ((a - mbxBase) / 0x100) r (a % 0x100) len s
    | none => s
  else if inBlock a protBase 0x5000000 then
    (if words.any (fun w => w % 0x1000000 == 0x10) then dieProtMod ((a - protBase) / 0x1000000) (fun x => { x with violCount := 0 }) s else s)
  else if inBlock a pwrBase 0x1000 then words.foldl (fun s w => pwrRegRead (w - pwrBase) s) s
  else words.foldl (fun s w => areaRead w s) s

/-- W1C of an EVENT word kept among the plain registers. -/
def clearEvents (a v : Nat) (s : State) : State :=
  { s with regs := tput s.regs a (tgetD s.regs a 0 &&& ~~~(BitVec.ofNat 32 v)) }

/-- Is the address an EVENT word of the port, TBL or CFG block? -/
def isAreaEvent (a : Nat) : Bool :=
  (isPortArea a && a % 0x1000 == 0x20) ||
  (isTblArea a && ((a - tblBase) % 0x20000 == 0x200 || (a - tblBase) % 0x20000 == 0x5800 || (a - tblBase) % 0x20000 == 0x6010)) ||
  a == cfgBase + 0x200

/-- A 32-bit write by a requester acts by the access codes: RO and RC fields ignore it, W1C bits clear, a BL field reports a violation; a
register that changes only through stage and fix ignores it (R18, R110, R409, R616, R619). -/
def intWrite (code a v : Nat) (s : State) : State :=
  if isAreaEvent a || eventWords.any (fun e => a == e.1) then clearEvents a v s
  else match eventWords.find? fun e => a == e.1 + 4 with
    | some e => { s with regs := tput s.regs a (BitVec.ofNat 32 (v % 2 ^ e.2)) }
    | none =>
      if inBlock a svcBase (0x10000 * 85) then (if code == 64 then svcRegWrite ((a - svcBase) / 0x10000) (a % 0x10000) 4 v s else s)
      else if inBlock a mbxBase 0x2000 then
        match mbxRole s ((a - mbxBase) / 0x100) code with
        | some r => mbxWrite ((a - mbxBase) / 0x100) r (a % 0x100) v s
        | none => s
      else if inBlock a dmaBase 0x40000 then
        let k := (a - dmaBase) / 0x80
        let d := dmaOf s k
        if 56 ≤ k % 64 && d.assigned && d.ownerKind == 1 && code == 32 + d.bed then chWrite k (a % 0x80) v s else s
      else if inBlock a protBase 0x5000000 && protLocked ((a - protBase) / 0x1000000) (a % 0x1000000) then
        violation ((a - protBase) / 0x1000000) code 4 a s
      else s

/-! ## Internal accesses through the protection map (R616) -/

/-- A read of 4 or 8 bytes. -/
def intRead (s : State) (code a len : Nat) : Nat :=
  if len == 8 then intWord s code a + 2 ^ 32 * intWord s code (a + 4) else intWord s code a

def intWrites (code a len v : Nat) (s : State) : State :=
  if inBlock a svcBase (0x10000 * 85) && code == 64 then svcRegWrite ((a - svcBase) / 0x10000) (a % 0x10000) len v s
  else
    let s := intWrite code a (v % 2 ^ 32) s
    if len == 8 then intWrite code (a + 4) (v / 2 ^ 32 % 2 ^ 32) s else s

/-- Accesses of registers are naturally aligned and of 4 or 8 bytes (R278, R111). -/
def wordAccess (a len : Nat) : Bool := (len == 4 || len == 8) && a % len == 0

/-! ## BAR0: queues, MSI-X, windows (R279-R288, R308) -/

def queueWord (c : CmdQueue) (running : Bool) (o : Nat) : Nat :=
  match o with
  | 0x00 => wordN c.sqBase 0
  | 0x04 => wordN c.sqBase 1
  | 0x08 => wordN c.rqBase 0
  | 0x0C => wordN c.rqBase 1
  | 0x10 => c.cfg
  | 0x1C => c.head + 2 ^ 16 * b2n running + 2 ^ 17 * b2n c.error + 2 ^ 18 * c.cause
  | 0x20 => c.rqHead
  | 0x24 => c.rqTail
  | _ => 0

/-- A write of a queue register; enable, the tail and RQ_HEAD have rows of their own. A vector at or above the share is refused (R288). -/
def queueWrite (f : Fn) (q o v : Nat) (s : State) : State :=
  cqMod f q (fun c => match o with
    | 0x00 => { c with sqBase := putFld c.sqBase 0 32 (v / 64 * 64) }
    | 0x04 => { c with sqBase := putFld c.sqBase 32 32 v }
    | 0x08 => { c with rqBase := putFld c.rqBase 0 32 (v / 32 * 32) }
    | 0x0C => { c with rqBase := putFld c.rqBase 32 32 v }
    | 0x10 => if bit v 0 == bit c.cfg 0 && cqCfgOk s f v then { c with cfg := and32 v 0x3FFF3 } else c
    | _ => c) s

def msixWord (g : Func) (o : Nat) : Nat :=
  let e := tgetD g.msix (o / 16) {}
  match o % 16 with
  | 0 => wordN e.addr 0
  | 4 => wordN e.addr 1
  | 8 => e.data
  | _ => b2n e.masked

/-- A write of a table word; an entry unmasked with its PBA bit set sends its message. -/
def msixWrite (f : Fn) (o v : Nat) (s : State) : State :=
  let i := o / 16
  let e := tgetD (funcOf s f).msix i {}
  let put := fun (e : Msix) (s : State) => funcMod f (fun g => { g with msix := tput g.msix i e }) s
  match o % 16 with
  | 0 => put { e with addr := putFld e.addr 0 32 (v / 4 * 4) } s
  | 4 => put { e with addr := putFld e.addr 32 32 v } s
  | 8 => put { e with data := v } s
  | _ =>
    if e.masked && !bit v 0 && e.pending then signalVector f i (put { e with masked := false, pending := false } s)
    else put { e with masked := bit v 0 } s

/-- Word `k` of the pending bit array of a function with `v` vectors; bits at or above them are zero (R288). -/
def pbaWord (g : Func) (v k : Nat) : Nat :=
  (List.range 32).foldl (fun w i => if 32 * k + i < v && (tgetD g.msix (32 * k + i) {}).pending then setBit w i else w) 0

def winWord (s : State) (g : Func) (o : Nat) : Nat :=
  if o < 0x400 then (if o % 16 < 8 then wordN (tgetD g.shadow (o / 16) 0) (o % 16 / 4) else 0)
  else if o < 0x800 then (if o % 16 < 8 then wordN (tgetD g.active ((o - 0x400) / 16) 0) (o % 16 / 4) else 0)
  else if o == 0x808 then b2n g.winBusy + 2 * b2n g.winRefused + 2 ^ 8 * g.winFirst
  else if o == 0x810 then s.host.winLog2
  else 0

/-- RW bits of a shadow entry. -/
def winWrite (f : Fn) (o v : Nat) (s : State) : State :=
  if o < 0x400 && o % 16 < 8 then
    let m := if o % 16 == 0 then and32 v 0xFFFFF007 else v % 2 ^ 16
    funcMod f (fun g => { g with shadow := tput g.shadow (o / 16) (putFld (tgetD g.shadow (o / 16) 0) (8 * (o % 16)) 32 m) }) s
  else s

/-! ## NVMe controller registers (R356) -/

def nvmeWord (n : Nvme) (o : Nat) : Nat :=
  match o with
  | 0x00 => 4095 + 2 ^ 16 + 20 * 2 ^ 24
  | 0x04 => 2 ^ 5 + 4 * 2 ^ 20
  | 0x08 => 0x20000
  | 0x0C => n.intMask
  | 0x10 => n.intMask
  | 0x14 => n.cc
  | 0x1C => b2n n.ready + 4 * n.shst
  | 0x24 => n.aqa
  | 0x28 => wordN n.asq 0
  | 0x2C => wordN n.asq 1
  | 0x30 => wordN n.acq 0
  | 0x34 => wordN n.acq 1
  | _ => 0

/-- A write of a controller register; CC.EN and CC.SHN have rows of their own. An interrupt unmasked over unread entries signals. -/
def nvmeWrite (f : Fn) (o v : Nat) (s : State) : State :=
  let n := nvmeOf s f
  match o with
  | 0x0C => nvmeMod f (fun n => { n with intMask := (BitVec.ofNat 32 n.intMask ||| BitVec.ofNat 32 v).toNat }) s
  | 0x10 =>
    let s := nvmeMod f (fun n => { n with intMask := (BitVec.ofNat 32 n.intMask &&& ~~~(BitVec.ofNat 32 v)).toNat }) s
    n.cqs.foldl (fun s e => if bit v (e.2.vector % 32) && e.2.ien && ncqCount n e.1 ≤ e.2.since then ncqSignal f e.1 s else s) s
  | 0x14 => if bit v 0 == bit n.cc 0 && fld v 14 2 == fld n.cc 14 2 then nvmeMod f (fun n => { n with cc := and32 v ccMask }) s else s
  | 0x24 => nvmeMod f (fun n => { n with aqa := and32 v 0x0FFF0FFF }) s
  | 0x28 => nvmeMod f (fun n => { n with asq := putFld n.asq 0 32 (v / 4096 * 4096) }) s
  | 0x2C => nvmeMod f (fun n => { n with asq := putFld n.asq 32 32 v }) s
  | 0x30 => nvmeMod f (fun n => { n with acq := putFld n.acq 0 32 (v / 4096 * 4096) }) s
  | 0x34 => nvmeMod f (fun n => { n with acq := putFld n.acq 32 32 v }) s
  | _ => s

/-! ## BAR0 of a PF and of a VF (R279, R308) -/

/-- Tags held in quarantine (R297) or abandoned (R298). -/
def heldTags (g : Func) : Nat := (g.reads.filter fun r => r.st != 0).length

/-- Tags of a link or half held under R297 or R298. -/
def linkTags (s : State) (f : Fn) : Nat :=
  (s.host.funcs.filter fun e => e.1 / 512 == linkKey f.link f.half).foldl (fun n e => n + heldTags e.2) 0

def safelightOpen (s : State) : Bool := s.boot.sessions.any fun e => e.2.kind == 2

def devId (s : State) : Nat :=
  0x4028 + 2 ^ 16 * Config.siliconRev.toNat + 2 ^ 32 * Config.packageSerial.toNat + 2 ^ 96 * s.flash.system + 2 ^ 100 * s.flash.package

def pfWord (s : State) (f : Fn) (off : Nat) : Nat :=
  let g := funcOf s f
  if off < 0x10 then wordN (devId s) (off / 4)
  else if off == 0x10 then lifeCode s.boot.lifecycle + 16 * b2n (safelightOpen s) + 2 ^ 8 * s.boot.fuses
  else if off == 0x100 then g.ctrl
  else if off == 0x104 then
    b2n (s.boot.mgmtRuns && !g.resetting) + 2 * b2n (linkOf s f.link f.half).degraded + 4 * b2n (twinProtected s) + 2 ^ 16 * (linkTags s f % 8192)
  else if off == 0x108 then g.intxCause
  else if off == 0x10C then g.intxMask
  else if off == 0x200 then 0x800000
  else if off == 0x204 then 64
  else if 0x100000 ≤ off && off < 0x110000 then
    queueWord (cqOf s f ((off - 0x100000) / 0x1000)) (cqRunning s f ((off - 0x100000) / 0x1000)) (off % 0x1000)
  else if 0x200000 ≤ off && off < 0x202000 then
    let c := (off - 0x200000) / 0x100
    (match mbxRole s c (pfCode f) with | some r => mbxRegWord s c r (off % 0x100) | none => 0)
  else if 0x300000 ≤ off && off < 0x302000 then msixWord g (off - 0x300000)
  else if 0x380000 ≤ off && off < 0x380040 then pbaWord g (shareV s f) ((off - 0x380000) / 4)
  else if 0x400000 ≤ off && off < 0x400814 then winWord s g (off - 0x400000)
  else if 0x600000 ≤ off && off < 0x601000 && f.pool == 1 then nvmeWord (nvmeOf s f) (off - 0x600000)
  else if 0x800000 ≤ off && off < 0x810000 then rd (directory s f) (off - 0x800000) 4
  else 0

def vfId (s : State) (f : Fn) : Nat :=
  f.num + 2 ^ 8 * f.pool + 2 ^ 9 * f.link + 2 ^ 11 * f.half + 2 ^ 16 * shareQ s f + 2 ^ 32 * shareV s f + 2 ^ 48 * poolQp s f 0

def vfWord (s : State) (f : Fn) (off : Nat) : Nat :=
  let g := funcOf s f
  if off < 0x8 then wordN (vfId s f) (off / 4)
  else if off == 0x100 then g.ctrl
  else if off == 0x104 then vfCode f g + 8 * b2n g.enablePending + 16 * b2n g.bmePending + 2 ^ 16 * (heldTags g % 8192)
  else if 0x10000 ≤ off && off < 0x11000 then queueWord (cqOf s f 0) (cqRunning s f 0) (off % 0x1000)
  else if 0x20000 ≤ off && off < 0x22000 then msixWord g (off - 0x20000)
  else if 0x30000 ≤ off && off < 0x30040 then pbaWord g (shareV s f) ((off - 0x30000) / 4)
  else if 0x100000 ≤ off && off < 0x101000 && f.pool == 1 then nvmeWord (nvmeOf s f) (off - 0x100000)
  else 0

def bar0Word (s : State) (f : Fn) (off : Nat) : Nat := if f.num == 0 then pfWord s f off else vfWord s f off

/-- A write of PF_CTRL or VF_CTRL: an event_vector at or above the share is refused, and VF_CTRL.enable has rows of its own (R288). -/
def ctrlWrite (f : Fn) (v : Nat) (s : State) : State :=
  if shareV s f ≤ fld v 16 9 then s
  else funcMod f (fun g => { g with ctrl := if f.num == 0 then and32 v 0x1FF0101 else putFld (and32 v 0x1FF0101) 0 1 (fld g.ctrl 0 1) }) s

/-- PF_INTX_MASK: the pin follows the cause bits left unmasked (R289). -/
def maskWrite (f : Fn) (v : Nat) (s : State) : State :=
  let was := intxOn (funcOf s f)
  let s := funcMod f (fun g => { g with intxMask := v }) s
  let now := intxOn (funcOf s f)
  if was == now then s else toHost f (.intx f now) s

def pfWrite (f : Fn) (off v : Nat) (s : State) : State :=
  if off == 0x100 then ctrlWrite f v s
  else if off == 0x10C then maskWrite f v s
  else if 0x100000 ≤ off && off < 0x110000 then queueWrite f ((off - 0x100000) / 0x1000) (off % 0x1000) v s
  else if 0x200000 ≤ off && off < 0x202000 then
    let c := (off - 0x200000) / 0x100
    (match mbxRole s c (pfCode f) with | some r => mbxWrite c r (off % 0x100) v s | none => s)
  else if 0x300000 ≤ off && off < 0x302000 then msixWrite f (off - 0x300000) v s
  else if 0x400000 ≤ off && off < 0x400400 then winWrite f (off - 0x400000) v s
  else if 0x600000 ≤ off && off < 0x601000 && f.pool == 1 then nvmeWrite f (off - 0x600000) v s
  else s

def vfWrite (f : Fn) (off v : Nat) (s : State) : State :=
  if off == 0x100 then ctrlWrite f v s
  else if 0x10000 ≤ off && off < 0x11000 then queueWrite f 0 (off % 0x1000) v s
  else if 0x20000 ≤ off && off < 0x22000 then msixWrite f (off - 0x20000) v s
  else if 0x100000 ≤ off && off < 0x101000 && f.pool == 1 then nvmeWrite f (off - 0x100000) v s
  else s

def bar0Write (f : Fn) (off v : Nat) (s : State) : State := if f.num == 0 then pfWrite f off v s else vfWrite f off v s

/-- The effect of a read of BAR0: PF_INTX_CAUSE clears and the pin follows; a mailbox message is taken (R289, R489). -/
def bar0ReadEffect (f : Fn) (off len : Nat) (s : State) : State :=
  if f.num != 0 then s
  else if off == 0x108 then
    let was := intxOn (funcOf s f)
    let s := funcMod f (fun g => { g with intxCause := 0 }) s
    if was then toHost f (.intx f false) s else s
  else if 0x200000 ≤ off && off < 0x202000 then
    let c := (off - 0x200000) / 0x100
    match mbxRole s c (pfCode f) with
    | some r => mbxReadEffect c r (off % 0x100) len s
    | none => s
  else s

/-! ## Configuration-space fields (R271, R276, R277, R288, R290-R295, R302, R303) -/

/-- Size of a pair of base address registers, by its first: BAR0, BAR2 and VF BAR0 (as 6); none of a pair that is absent. -/
def barSize (s : State) (n : Nat) : Option Nat :=
  match n / 2 with
  | 0 => some (2 ^ 26)
  | 1 => some (2 ^ (6 + s.host.winLog2))
  | 3 => some (2 ^ 22)
  | _ => none

/-- A base address register as it reads: the address bits above its size, and in the low word its kind: 64-bit, and BAR2 prefetchable. -/
def barWord (s : State) (g : Func) (n : Nat) : Nat :=
  match barSize s n with
  | none => 0
  | some z => wordN (tgetD g.bars (n / 2) 0 / z * z + (if n / 2 == 1 then 12 else 4)) (n % 2)

def barWrite (f : Fn) (n v : Nat) (s : State) : State :=
  if f.num != 0 || (barSize s n).isNone then s
  else funcMod f (fun g => { g with bars := tput g.bars (n / 2) (putFld (tgetD g.bars (n / 2) 0) (32 * (n % 2)) 32 v) }) s

/-- A link's control register is that of its PFs. -/
def linkCtl (f : Fn) (g : HalfLink → HalfLink) (s : State) : State := if f.num == 0 then linkMod f.link f.half g s else s

def pcieWrite (f : Fn) (x : PcieField) (v : Nat) (s : State) : State :=
  let set := fun (h : Func → Func) => funcMod f h s
  match x with
  | .msixEnable => set fun g => { g with msixEnable := bit v 0 }
  | .intDisable => set fun g => { g with intDisable := bit v 0 }
  | .relaxedOrdering => set fun g => { g with relaxed := bit v 0 }
  | .noSnoop => set fun g => { g with noSnoop := bit v 0 }
  | .idOrdering => set fun g => { g with ido := bit v 0 }
  | .maxPayload => set fun g => { g with maxPayload := v % 8 }
  | .maxReadRequest => set fun g => { g with maxRead := v % 8 }
  | .completionTimeout => set fun g => { g with ctoValue := v % 16 }
  | .l0pEnable => linkCtl f (fun h => { h with l0pEnable := bit v 0 }) s
  | .aspmL1Enable => linkCtl f (fun h => { h with l1Enable := bit v 0 }) s
  | .aerStatus => set fun g => { g with aerStatus := and32 g.aerStatus (2 ^ 32 - 1 - v % 2 ^ 32) }
  | .aerCorrectable => set fun g => { g with aerCorr := and32 g.aerCorr (2 ^ 32 - 1 - v % 2 ^ 32) }
  | .bar n => if n < 4 then barWrite f n v s else s
  | .vfBar n => if n < 2 then barWrite f (6 + n) v s else s
  | _ => s

/-- A field as the host reads it. -/
def pcieRead (s : State) (f : Fn) (x : PcieField) : Nat :=
  let g := funcOf s f
  let pf := f.num == 0
  match x with
  | .msixEnable => b2n g.msixEnable
  | .intDisable => b2n g.intDisable
  | .relaxedOrdering => b2n g.relaxed
  | .noSnoop => b2n g.noSnoop
  | .idOrdering => b2n g.ido
  | .maxPayload => g.maxPayload
  | .maxReadRequest => g.maxRead
  | .completionTimeout => g.ctoValue
  | .l0pEnable => b2n (linkOf s f.link f.half).l0pEnable
  | .aspmL1Enable => b2n (linkOf s f.link f.half).l1Enable
  | .aerStatus => g.aerStatus
  | .aerCorrectable => g.aerCorr
  | .bar n => if pf && n < 4 then barWord s g n else 0
  | .vfBar n => if pf && n < 2 then barWord s g (6 + n) else 0
  | .vendorId => 0x1D9F
  | .deviceId => (if pf then 0x4C40 else 0x4C50) + f.pool
  | .subsystemVendor => (ownerOf s s.boot.running).subVendor
  | .subsystemId => (ownerOf s s.boot.running).subsystem
  | .revisionId => Config.siliconRev.toNat
  | .classCode => if f.pool == 0 then 0x020000 else 0x010802
  | .interruptPin => if pf then 1 + f.pool else 0
  | .routingOffset => if pf then f.pool else if f.pool == 0 then 1 + f.num else 129 + f.num
  | .firstVfOffset => if !pf then 0 else if f.pool == 0 then 2 else 129
  | .vfStride => if pf then 1 else 0
  | .vfDeviceId => if pf then 0x4C50 + f.pool else 0
  | .totalVfs => if pf then totalVfs s f else 0
  | .initialVfs => if pf then totalVfs s f else 0
  | .numVfs => g.numVfs
  | .supportedPageSizes => if pf then 0x0553 else 0
  | .vfMigrationCapable => 0
  | .msixTableSize => 511
  | .timeoutRanges => 7
  | .flrTime => 10
  | .vfEnableTime => if pf then 10 else 0
  | .l1ExitLatency => 5
  | .aerFirstError => g.aerFirst
  | .aerHeaderLog => g.aerHeader
  | .acs => b2n (!pf)
  | .ari => 1
  | .noSoftReset => 1

/-! ## The rows -/

/-- REGISTER_WRITE: a write of `len` bytes of `v`. One of BAR0 that is not naturally aligned and of 4 or 8 bytes is dropped and reported
(R278), and so is a poisoned one (R294). -/
def execRegisterWrite (r : RegAt) (len v : Nat) (s : State) : Res :=
  match r with
  | .bar0 f off =>
    onElem (fnExists s f)
      (if !wordAccess off len then unsupported f true s
       else
         let s := bar0Write f off (v % 2 ^ 32) s
         if len == 8 then bar0Write f (off + 4) (v / 2 ^ 32 % 2 ^ 32) s else s)
  | .poisoned f => onElem (fnExists s f) (reportAer f aerNonFatal aerPoisoned s)
  | .pcie f x => onElem (fnExists s f) (pcieWrite f x v s)
  | .internal code a =>
    .next (if !rangeGrants s code a len true then violation (ownerDie a) code 1 a s
      else if wordAccess a len then intWrites code a len v s else s)

/-- REGISTER_READ_CLEAR: the value is returned, and what a read clears is cleared. -/
def execRegisterReadClear (r : RegAt) (len : Nat) (s : State) : Res :=
  match r with
  | .bar0 f off =>
    onElem (fnExists s f)
      (if !wordAccess off len then unsupported f false s
       else
         let v := if len == 8 then bar0Word s f off + 2 ^ 32 * bar0Word s f (off + 4) else bar0Word s f off
         bar0ReadEffect f off len (emit (.readValue off v) (leaveL1 f.link f.half s)))
  | .poisoned f => onElem (fnExists s f) s
  | .pcie f x => onElem (fnExists s f) (emit (.readValue 0 (pcieRead s f x)) (leaveL1 f.link f.half s))
  | .internal code a =>
    .next (if !rangeGrants s code a len false then violation (ownerDie a) code 1 a s
      else if wordAccess a len then intReadEffect code a len (emit (.readValue a (intRead s code a len)) s) else s)

/-! ## BAR2 (R284-R286, R616) -/

/-- Bytes that a BAR2 read returns. -/
def busRead (s : State) (code a len : Nat) : Bytes :=
  if isMemory a len then memRead s a len
  else fitTo len (((List.range ((len + 3) / 4)).flatMap fun k => le 4 (intWord s code (a / 4 * 4 + 4 * k))).drop (a % 4))

/-- Bytes that a BAR2 write carries. A register takes aligned writes of 4 or 8 bytes. -/
def busWrite (code a : Nat) (d : Bytes) (s : State) : State :=
  if isMemory a d.length then memWrite s a d
  else if wordAccess a d.length then intWrites code a d.length (ofLe d) s
  else s

/-- BAR2_ACCESS: `data` is what a write carries, none for a read of `len` bytes. Statuses: 1 Unsupported Request, 2 Completer Abort. -/
def execBar2Access (f : Fn) (off len : Nat) (data : Option Bytes) (s : State) : Res :=
  onElem (fnExists s f && f.num == 0)
    (let k := 2 ^ s.host.winLog2
     let n := match data with | some d => d.length | none => len
     let e := tgetD (funcOf s f).active (off / k) 0
     let write := data.isSome
     let abort := fun (s : State) => reportAer f aerNonFatal aerAbort (if write then s else complete f 2 [] s)
     if n == 0 || !bit e 0 || 64 ≤ off / k || off / k != (off + n - 1) / k then unsupported f write s
     else if !bit e (if write then 2 else 1) then abort s
     else
       let a := fld e 12 36 * 4096 + off % k
       let code := pfCode f
       if !rangeGrants s code a n write then abort (violation (ownerDie a) code 1 a s)
       else match data with
         | some d => if isMemory a n && poisonBlocks s a n then s else busWrite code a d s
         | none =>
           if isMemory a n && (poisonHit s a n).isSome then abort s
           else
             let s := complete f 0 (busRead s code a n) s
             if isMemory a n then countReads a n s else intReadEffect code (a / 4 * 4) n s)

end Sys2Proof.Machine
end

