-- ==== Sys2Proof/Machine/Edits.lean ====
section
/-! DEFINITION. One pass of a packet: what its primitives have asked for, and the edits that its end applies to the frame
(R162-R171, R192). Bytes of the frame are named by their position at the start of the pass. -/

namespace Sys2Proof.Machine

/-- How a pass ends before its stages have all run. -/
inductive Fin where
  | drop
  | exc (reason : Nat)
  deriving DecidableEq, Repr

/-- A header pushed: the position before which it goes, none for the frame start, its template, and its bytes with substitutions. -/
structure Push where
  at_ : Option Nat
  tmpl : Bytes
  body : Bytes
  deriving DecidableEq, Repr

/-- The edits of a pass, in primitive order: ranges popped, headers pushed, bytes written, and the positions that edits name (R168). -/
structure Edits where
  pops : List (Nat × Nat) := []
  pushes : List Push := []
  sets : List (Nat × Bytes) := []
  named : List (Nat × Nat) := []
  deriving DecidableEq, Repr

/-- A pass under way: the packet with metadata and captures as written so far and bytes as at its start. -/
structure Pass where
  k : Packet
  ed : Edits := {}
  fwd : Option Fwd := none
  /-- CRYPT: decrypt, TLS, index. -/
  crypt : Option (Bool × Bool × Nat) := none
  /-- Counters that COUNT named, in order. -/
  counts : List Nat := []
  fin : Option Fin := none
  deriving DecidableEq, Repr

/-! ## Metadata (R115) -/

def mdFlags (k : Packet) : Nat := rd k.md 3 1
def mdSet (k : Packet) (off : Nat) (b : Bytes) : Packet := { k with md := splice k.md off b }
def mdFlagSet (k : Packet) (i : Nat) : Packet := mdSet k 3 [byte (setBit (mdFlags k) i)]

/-! ## Slots -/

/-- Offset and capture of a slot. -/
def hdrOf (k : Packet) (i : Nat) : Option (Nat × Bytes) := tget k.slots i

/-- Bytes of a slot's capture, or of the metadata block for 32, when they lie within it. -/
def srcBytes (k : Packet) (i off n : Nat) : Option Bytes :=
  if i == 32 then (if off + n ≤ 64 then some (slice k.md off n) else none)
  else match hdrOf k i with
    | some (_, c) => if off + n ≤ c.length then some (slice c off n) else none
    | none => none

/-! ## Naming and conflicts (R168) -/

def rangesMeet (a b : Nat × Nat) : Bool := decide (a.1 < b.1 + b.2) && decide (b.1 < a.1 + a.2)

/-- Does a range that an edit names lie in bytes that an earlier POP removes? -/
def namesPopped (e : Edits) (r : Nat × Nat) : Bool := e.pops.any (rangesMeet r)

/-- Does a POP remove a byte that an earlier edit names? -/
def popsNamed (e : Edits) (r : Nat × Nat) : Bool := e.named.any (rangesMeet r)

/-- Bytes of a frame of `n` bytes that pops remove, each counted once. -/
def popped (n : Nat) (pops : List (Nat × Nat)) : Nat :=
  ((List.range n).filter fun i => pops.any fun r => decide (r.1 ≤ i) && decide (i < r.1 + r.2)).length
/-- Bytes that the pushes insert. -/
def pushed (e : Edits) : Nat := e.pushes.foldl (fun n q => n + q.body.length) 0

/-! ## The entropy of a packet (R171) -/

/-- The fields that give it, from the slots of the first pass; `proto` is the last next-header value read. -/
def entropyOf (k : Packet) (proto : Nat) : Bytes :=
  let ports := match hdrOf k 7 with
    | some (_, c) => slice c 0 4
    | none => match hdrOf k 8 with
      | some (_, c) => slice c 0 4
      | none => []
  match hdrOf k 3 with
  | some (_, c) => slice c 12 8 ++ [byte (rd c 9 1)] ++ ports
  | none => match hdrOf k 4 with
    | some (_, c) => slice c 8 32 ++ [byte proto] ++ ports
    | none => match hdrOf k 0 with
      | some (_, c) => slice c 0 12
      | none => []

def entropy (k : Packet) : Nat := crc32c 0#32 (k.entropyKey.getD [])

/-! ## Templates (R169, R170) -/

/-- `n` free bytes from the model's running index on. -/
def freeBytes (s : State) (n : Nat) : Bytes := (List.range n).map fun i => byte (Config.free (s.freeIx + i)).toNat

/-- Action data with bytes beyond its 32 left open (assumption 25). -/
def openData (s : State) (data : Bytes) : Bytes := data.take 32 ++ freeBytes s 16

/-- The header of a template with its substitutions from the action data. -/
def templateBody (t data : Bytes) : Bytes :=
  [0, 1].foldl (fun h i => let (o, n, a) := tpSub t i; splice h o ((data.drop a).take n)) (t.take (tpLen t))

/-! ## Applying the edits (R165) -/

/-- Frame bytes with the position they came from; a pushed byte `j` of push `i` is at 16,384 × (i + 1) + j. -/
abbrev Tagged := List (Nat × Byte)

def tagFrom : Nat → Bytes → Tagged
  | _, [] => []
  | n, b :: r => (n, b) :: tagFrom (n + 1) r

/-- Insertion before the byte of a position; at the end where no byte has it. -/
def insertAt (p : Nat) (new : Tagged) : Tagged → Tagged
  | [] => new
  | (i, b) :: r => if i == p then new ++ (i, b) :: r else (i, b) :: insertAt p new r

def applyPushes : Nat → List Push → Tagged → Tagged
  | _, [], t => t
  | i, q :: r, t =>
    let new := tagFrom (16384 * (i + 1)) q.body
    applyPushes (i + 1) r (match q.at_ with | none => new ++ t | some p => insertAt p new t)

/-- Where the byte of a position stands now. -/
def whereIs (t : Tagged) (p : Nat) : Option Nat :=
  let k := (t.map fun x => x.1).idxOf p
  if k < t.length then some k else none

/-- TTL or hop limit of the packet's IP header, as it stood; left open when it has none (assumption 25). -/
def packetTtl (s : State) (k : Packet) : Byte :=
  match hdrOf k 3 with
  | some (o, _) => k.bytes.getD (o + 8) 0
  | none => match hdrOf k 4 with
    | some (o, _) => k.bytes.getD (o + 7) 0
    | none => byte (Config.free s.freeIx).toNat

/-- Fix-ups of one pushed header that starts at `pos` of the frame (R170). -/
def fixUp (s : State) (k : Packet) (t : Bytes) (pos : Nat) (b : Bytes) : Bytes :=
  let f := tpFlags t
  let ip := pos + tpIp t
  let udp := pos + tpUdp t
  let b := if bit f 3 then (List.range (tpLabels t / 4)).foldl (fun b i => splice b (pos + 4 * i + 3) [packetTtl s k]) b else b
  let b := if tpUdp t == 0xFF then b else splice b (udp + 4) (be 2 (b.length - udp) ++ [0, 0])
  let b := if bit f 1 then splice b udp (be 2 (49152 + entropy k % 16384)) else b
  if tpIp t == 0xFF then b
  else if tpV6 t then
    let b := splice b (ip + 4) (be 2 (b.length - ip - 40))
    if bit f 2 then splice b (ip + 1) (be 3 (rdN b (ip + 1) 1 / 16 * 16 * 65536 + entropy k % 2 ^ 20)) else b
  else
    let b := splice b (ip + 2) (be 2 (b.length - ip))
    let b := splice b (ip + 10) [0, 0]
    splice b (ip + 10) (be 2 (inetSum 0 (slice b ip 20)))

/-- The recognised headers after the edits: none when the IP header is gone or a pushed header with an IP header of its own now stands
before it, the IP header alone when the L4 header is gone (R98). -/
def frontAfter (t : Tagged) (pushes : List Push) (f : FrontAt) : Option FrontAt :=
  let outer := pushes.any fun q => tpIp q.tmpl != 0xFF && (match q.at_ with | none => true | some p => decide (p ≤ f.ip))
  if outer then none else (whereIs t f.ip).map fun o => { f with ip := o, l4 := f.l4.bind (whereIs t) }

/-- The packet with the edits of its pass: frame, and slot offsets shifted; a slot whose header was popped is unrecorded (R165, R192). -/
def applyEdits (s : State) (k : Packet) (e : Edits) : Packet :=
  let kept := (tagFrom 0 k.bytes).filter fun x => !e.pops.any fun r => decide (r.1 ≤ x.1) && decide (x.1 < r.1 + r.2)
  let t := applyPushes 0 e.pushes kept
  let b := (List.range e.pushes.length).foldl (fun b i =>
    match e.pushes[i]?, whereIs t (16384 * (i + 1)) with
    | some q, some pos => fixUp s k q.tmpl pos b
    | _, _ => b) (t.map fun x => x.2)
  let b := e.sets.foldl (fun b w =>
    (List.range w.2.length).foldl (fun b i => match whereIs t (w.1 + i) with
      | some pos => splice b pos [w.2.getD i 0]
      | none => b) b) b
  let slots := k.slots.filterMap fun x => (whereIs t x.2.1).map fun o => (x.1, (o, x.2.2))
  { k with bytes := b, slots := slots, front := k.front.bind (frontAfter t e.pushes) }

/-- Does a fix-up of the pass take a TTL that the packet does not have? -/
def ttlOpen (k : Packet) (e : Edits) : Bool :=
  (hdrOf k 3).isNone && (hdrOf k 4).isNone && e.pushes.any fun q => bit (tpFlags q.tmpl) 3

/-- The edits of a pass applied, with the free value they use. -/
def editPass (k : Packet) (e : Edits) (s : State) : State × Packet :=
  (if ttlOpen k e then { s with freeIx := s.freeIx + 1 } else s, applyEdits s k e)

end Sys2Proof.Machine
end

