-- ==== Sys2Proof/Machine/Enqueue.lean ====
section
/-! DEFINITION. Where a packet goes after its pass: admission to the shared buffer, replication, link aggregation, the exception path and
mirror copies (R174-R185, R195-R198). -/

namespace Sys2Proof.Machine

/-! ## Admission (R183, R184) -/

/-- α × 16 of a port queue: the register holds k = log2 α in three bits of two's complement. -/
def alpha16 (s : State) (x : Dest) (k : CopyKind) : Nat :=
  match k, x with
  | .exception _, _ => 16
  | _, .port p q => 2 ^ ((fld (portNow s p (0x400 + 8 * q)) 8 3 + 4) % 8)
  | _, _ => 16

/-- min_cells of the queue of a copy; delivery and exception queues have none. -/
def minCells (s : State) (x : Dest) (k : CopyKind) : Nat :=
  match k, x with
  | .exception _, _ => 0
  | _, .port p q => fld (portNow s p (0x400 + 8 * q)) 16 16
  | _, _ => 0

def copyCells (l : List QCopy) : Nat := l.foldl (fun n c => n + c.cells) 0

def isExtra (k : CopyKind) : Bool := match k with | .normal => false | _ => true

/-- Cells of the exception reserve in use on a die. -/
def reserveUsed (s : State) (d : Nat) : Nat :=
  s.buf.queues.foldl (fun n e => n + copyCells (e.2.filter fun c => isExtra c.kind && c.shared == 0 &&
    (match storedOf s c.id with | some x => x.die == d | none => false))) 0

/-- Is the packet of an operational lossless port-priority (R102, R103, R184 case 1)? -/
def lossless (s : State) (k : Packet) : Bool :=
  hasUse k && (let l := fcPrios s k.inPort; if fcMode s k.inPort == 1 then !l.isEmpty else l.contains k.prio)

/-- Cells of the shared pool that the copies of a queue draw. -/
def sharedCells (l : List QCopy) : Nat := l.foldl (fun n c => n + c.shared) 0

/-- Admission of one copy of `n` cells with `free` shared cells, of which the packet's copies so far hold `taken`: none when it is dropped,
else the cells that it draws from the shared pool, the pool first in cases 1 and 3 (R184). A drained port takes no copy (R452). -/
def letIn (s : State) (d : Nat) (k : Packet) (x : Dest) (kind : CopyKind) (n free taken : Nat) : Option Nat :=
  let l := queueGet s (queueOf d k.prio x kind)
  let pool := decide (16 * (sharedCells l + n) ≤ alpha16 s x kind * (free - taken))
  if (match x with | .port p _ => portDrained s p | _ => false) then none
  else if lossless s k && kind != .mirror then some (min n free)
  else if isExtra kind then
    if reserveUsed s d + n ≤ fld (tblNow s 0x3A00) 0 16 then some 0 else if pool then some n else none
  else if copyCells l + n ≤ minCells s x kind then some (min n free)
  else if pool then some n
  else none

/-- A drop by admission (R184). -/
def countAdmitDrop (k : Packet) (x : Dest) (kind : CopyKind) (s : State) : State :=
  let s := if k.fromTwin then s else countPort (pktPort k) 13 1 s
  match kind, x with
  | .exception _, _ => s
  | _, .port p q => countQ p q 2 1 s
  | _, _ => s

/-- The cells of a port-priority follow the packet's length at enqueue (R183). -/
def reCell (k : Packet) (n : Nat) (s : State) : State :=
  if !hasUse k then s
  else if k.cells < n then fcCheck k.inPort (useAdd k.inPort k.prio (n - k.cells) s)
  else if n < k.cells then useSub k.inPort k.prio (k.cells - n) s
  else s

/-- Admission of the copies of a packet one by one: the copies that a queue took, and the cells that the packet holds of the pool. -/
def letInAll (d : Nat) (k : Packet) (kind : CopyKind) (rep : Bool) (id n free : Nat) :
    List (Dest × Option Nat) → Nat → Nat → State → Nat × Nat × State
  | [], m, taken, s => (m, taken, s)
  | (x, prog) :: r, m, taken, s =>
    match letIn s d k x kind n free taken with
    | none =>
      let s := countAdmitDrop k x kind s
      letInAll d k kind rep id n free r m taken (if rep then countA (pktG k) 12 1 s else s)
    | some sh =>
      let key := queueOf d k.prio x kind
      let c : QCopy := { id := id, dest := x, prog := prog, kind := kind, cells := n, shared := sh }
      letInAll d k kind rep id n free r (m + 1) (max taken sh) (queueSet key (queueGet s key ++ [c]) s)

/-- Bytes of packets that wait for a link or half in the delivery queues of the four dies: its transmit backlog (R291). -/
def hostBacklog (s : State) (link half : Nat) : Nat :=
  s.buf.queues.foldl (fun n e =>
    n + (e.2.foldl (fun n c => match c.dest with
      | .host f _ => if f.link == link && f.half == half then n + (match storedOf s c.id with | some x => x.pkt.bytes.length | none => 0) else n
      | _ => n) 0)) 0

/-- A link or half whose transmit backlog exceeds 4 KiB widens (R291). -/
def backlogWidens (f : Fn) (s : State) : State :=
  if (linkOf s f.link f.half).narrow && decide (4096 < hostBacklog s f.link f.half) then widen f.link f.half s else s

/-- A packet reaches enqueue on a die: it is stored once, each destination a copy in its own queue; with none admitted it is gone
(R178, R182-R184). Answers whether a copy was admitted. -/
def enqueue (d : Nat) (k : Packet) (kind : CopyKind) (rep : Bool) (l : List (Dest × Option Nat)) (s : State) : Bool × State :=
  let n := cellsOf k.bytes.length
  let id := s.buf.nextId
  let (m, taken, s) := letInAll d k kind rep id n (sharedFree s d) l 0 0 s
  if m == 0 then (false, releasePacket k s)
  else
    let s := reCell k n s
    let x : Stored := { die := d, pkt := { k with cells := n }, copies := m, cells := n, shared := taken }
    let s := noteFree d { s with buf := { s.buf with store := tput s.buf.store id x, nextId := id + 1 } }
    (true, l.foldl (fun s e => match e.1 with | .host f _ => backlogWidens f s | _ => s) s)

/-! ## Dispositions (R163, R174-R178, R195-R198) -/

/-- The group version of a packet's epoch. -/
def lagAt (s : State) (e g : Nat) : Option Lag := versionAt (tgetD s.tbl.lags g []) e

/-- Destination of FWD_LAG: the bucket's local port, or the twin (R196, R198). -/
def lagDest (s : State) (k : Packet) (g q : Nat) : Option Dest :=
  match lagAt s k.epoch g with
  | none => none
  | some v =>
    let b := v.table.getD (entropy k % 256) 1024
    if b < 1024 then some (.port b q)
    else if !k.fromTwin && v.members.any (fun m => m.2 != s.flash.package) then some (.twin g q)
    else none

/-- The function that FWD_HOST names; on a bifurcated link the half, which it does not name, is a free value (assumption 26). -/
def hostFn (s : State) (link pool func : Nat) : Fn :=
  { link := link, half := if isBifurcated s link then (Config.free s.freeIx).toNat % 2 else 0, pool := pool, num := func }

/-- Destination of a disposition other than a group or a recirculation. -/
def fwdDest (s : State) (k : Packet) (f : Fwd) : Option (Dest × Option Nat) :=
  match f with
  | .port p q prog => some (.port p q, prog)
  | .lag g q prog => (lagDest s k g q).map fun x => (x, prog)
  | .host l pool fn qp => some (.host (hostFn s l pool fn) qp, none)
  | .chan ch w => some (.chan ch w, none)
  | _ => none

/-- The disposition of a group member (R177). -/
def memberFwd (m : Nat) : Fwd :=
  let t := memTarget m
  match memKind m with
  | 0 => .port t (memQueue m) (memProgram m)
  | 1 => .lag t (memQueue m) (memProgram m)
  | 2 => .host (fld t 0 2) (fld t 2 1) (fld t 8 16) (fld t 24 16)
  | _ => .chan (fld t 0 8) (BitVec.ofNat 32 (fld t 8 16 * 65536 + fld t 24 16))

/-- Is a member left out by src_prune (R178)? -/
def pruned (s : State) (k : Packet) (g : Group) (m : Nat) : Bool :=
  g.srcPrune && !k.fromTwin &&
  match memKind m with
  | 0 => memTarget m == pktPort k
  | 1 => match lagAt s k.epoch (memTarget m) with
    | some v => v.members.contains (pktPort k, s.flash.package)
    | none => false
  | _ => false

/-- Replication (R178): each member of the version of the packet's epoch becomes a copy. -/
def replicate (d : Nat) (k : Packet) (g : Nat) (s : State) : State :=
  match versionAt (tgetD s.tbl.groups g []) k.epoch with
  | none => releasePacket k s
  | some v =>
    let ms := (v.members.map fun e => ofLe e.2).filter fun m => !pruned s k v m
    let ds := ms.filterMap fun m => fwdDest s k (memberFwd m)
    let s := countA (pktG k) 11 ms.length (countA (pktG k) 10 1 s)
    let s := if ds.length < ms.length then countA (pktG k) 12 (ms.length - ds.length) s else s
    (enqueue d k .normal true ds { s with freeIx := s.freeIx + 1 }).2

/-- A packet goes to the buffer under its disposition (R165). -/
def forwardPacket (d : Nat) (k : Packet) (f : Fwd) (s : State) : State :=
  match f with
  | .group g => replicate d k g s
  | f => match fwdDest s k f with
    | some x => (enqueue d k .normal false [x] { s with freeIx := s.freeIx + 1 }).2
    | none => releasePacket k s

/-! ## The exception path (R176) -/

/-- TBL_EXC_DEST of a reason under an epoch, 64 bits. -/
def excDest (s : State) (e n : Nat) : Nat := tblAt s e (0x3800 + 8 * n) + tblAt s e (0x3804 + 8 * n) * 2 ^ 32

/-- Destination of a reason; none for kinds 0 and 3. -/
def excTarget (s : State) (e n : Nat) : Option Dest :=
  let r := excDest s e n
  match fld r 0 2 with
  | 1 => some (.chan (fld r 8 8) (BitVec.ofNat 32 (fld r 16 24 * 256)))
  | 2 => some (.host (hostFn s (fld r 16 2) (fld r 18 1) (fld r 19 8)) (fld r 27 13))
  | _ => none

/-- The rate limit of a reason: the packet passes when its slot in nanoseconds has come; the next slot lies 1/rate later
(assumption 27). -/
def excRate (e n : Nat) (s : State) : Bool × State :=
  let kpps := fld (excDest s e n) 40 16
  let now := 1000 * nowUs s
  let next := tgetD s.buf.excNext n 0
  if kpps == 0 then (true, s)
  else if next ≤ now + 999 then
    (true, { s with buf := { s.buf with excNext := tput s.buf.excNext n (max next now + 1000000 / kpps) } })
  else (false, s)

/-- A packet with an exception reason goes to the reason's target, if any (R176). -/
def excOut (x : Option Dest) (n : Nat) (k : Packet) (s : State) : State :=
  match x with
  | none => releasePacket k s
  | some x =>
    let r := excRate k.epoch n { s with freeIx := s.freeIx + 1 }
    if r.1 then (enqueue (gDie (pktG k)) k (.exception n) false [(x, none)] r.2).2
    else releasePacket k (countA (pktG k) 14 1 r.2)

/-- A packet takes the exception path with a reason (R176). -/
def toException (n : Nat) (k : Packet) (s : State) : State :=
  let s := countA (pktG k) 4 1 s
  excOut (excTarget s k.epoch n) n k s

/-! ## Mirroring (R180) -/

def mirrorReg (s : State) (e i : Nat) : Nat := tblAt s e (0x3400 + 8 * i) + tblAt s e (0x3404 + 8 * i) * 2 ^ 32

/-- The frame of a mirror copy, which holds no cells of the ingress port-priority: truncated, then encapsulated; none when its template has no version at the packet's epoch. -/
def mirrorPacket (s : State) (k : Packet) (r : Nat) : Option Packet :=
  let cut := fld r 32 14
  let k := { k with bytes := if cut == 0 then k.bytes else k.bytes.take (cut - 4), inPort := 1028, cells := 0 }
  if bit r 28 then
    (versionAt (tgetD s.tbl.templates (fld r 16 12) []) k.epoch).map fun t =>
      applyEdits s k { pushes := [{ at_ := none, tmpl := t, body := templateBody t (freeBytes s 48) }] }
  else some k

/-- A mirror copy of a packet as it stood at the start of its pass (R164, R180). A session that is not in use copies nothing. -/
def mirrorCopy (i : Nat) (k : Packet) (s : State) : State :=
  let g := pktG k
  let d := gDie g
  let r := mirrorReg s k.epoch i
  if !bit r 15 then s
  else
    match mirrorPacket s k r with
    | none => countA g 9 1 s
    | some m =>
      if sharedFree s d ≤ 1024 * fld (tblNow s 0x3A00) 16 8 then countA g 9 1 s
      else
        let (ok, s) := enqueue d m .mirror false [(.port (fld r 0 10) (fld r 10 3), none)] { s with freeIx := s.freeIx + 49 }
        if ok then countA g 8 1 s else s

end Sys2Proof.Machine
end

