-- ==== Sys2Proof/Machine/Actions.lean ====
section
/-! DEFINITION. Action programs: the primitives, meters, and a program's run in a pass (R157-R168, R181). The egress rewrite unit runs the
same primitives (R191, R192). -/

namespace Sys2Proof.Machine

/-! ## Meters (R181) -/

/-- Colour and the deficits of the two buckets (millibytes below full) after `n` bytes, `dt` µs after the last packet. Mode 1 follows
RFC 2697, the excess rate added to what overflows from the committed bucket (assumption 28); mode 2 follows RFC 2698. -/
def meterStep (m c e dt n pre : Nat) : Nat × Nat × Nat :=
  let mode := fld m 0 2
  let cir := 8 * fld m 2 20 * dt
  let eir := 8 * fld m 22 20 * dt
  let cbs := 1000 * fld m 42 24
  let ebs := 1000 * fld m 66 24
  let b := 1000 * n
  let e := if mode == 1 then e - (eir + (cir - c)) else e - eir
  let c := c - cir
  let tc := cbs - c
  let te := ebs - e
  if mode == 1 then
    if pre == 0 && b ≤ tc then (0, c + b, e) else if pre ≤ 1 && b ≤ te then (1, c, e + b) else (2, c, e)
  else if mode == 2 then
    if pre == 2 || te < b then (2, c, e) else if pre == 1 || tc < b then (1, c, e + b) else (0, c + b, e + b)
  else (0, c, e)

/-- A METER acts: its colour, and the record with its state in bits [125:90], [161:126] and [225:162] (deficits and µs). -/
def meterRun (g i n pre : Nat) (s : State) : Nat × State :=
  let k := 32768 * g + i
  let m := tgetD s.tbl.meters k 0
  if fld m 0 2 == 0 || fld m 0 2 == 3 then (0, s)
  else
    let (col, c, e) := meterStep m (fld m 90 36) (fld m 126 36) (nowUs s - fld m 162 64) n pre
    let m' := m % 2 ^ 90 + 2 ^ 90 * (c % 2 ^ 36) + 2 ^ 126 * (e % 2 ^ 36) + 2 ^ 162 * (nowUs s % 2 ^ 64)
    (col, { s with tbl := { s.tbl with meters := tput s.tbl.meters k m' } })

/-! ## Primitives (R160-R168) -/

/-- What a program runs on: the package and the pass. `g` is the region of the stage, or of the egress rewrite unit. -/
abbrev Run := State × Pass

def skip (g : Nat) (r : Run) : Run := (countA g 0 1 r.1, r.2)

/-- An action fault, counted in action_faults (R168); the egress rewrite unit drops the copy instead of the exception (assumption 29). -/
def actFault (g : Nat) (egress : Bool) (r : Run) : Run :=
  if egress then (countA g 1 1 r.1, { r.2 with fin := some .drop })
  else (countA g 1 1 r.1, { r.2 with fin := some (.exc 7) })

/-- Bytes written into a slot's capture and, for the frame, among the pass's values. -/
def writeCap (a off : Nat) (v : Bytes) (x : Pass) : Pass :=
  match hdrOf x.k a with
  | none => x
  | some (o, c) =>
    { x with k := { x.k with slots := tput x.k.slots a (o, splice c off v) }, ed := { x.ed with sets := x.ed.sets ++ [(o + off, v)] } }

/-- The bytes of a slot that an edit names (R168). -/
def nameBytes (a off n : Nat) (x : Pass) : Pass :=
  match hdrOf x.k a with
  | none => x
  | some (o, _) => { x with ed := { x.ed with named := x.ed.named ++ [(o + off, n)] } }

/-- What SET and COPY write: into a slot's capture, its bytes named (R168); into metadata with the TCI flags (R115, R162). -/
def writeDest (a off : Nat) (v : Bytes) (x : Pass) : Pass :=
  if a == 32 then
    let k := mdSet x.k off v
    let k := if off < 6 && 4 < off + v.length then mdSet k 10 [byte (setBit (rd k.md 10 1) 0)] else k
    let k := if off < 8 && 6 < off + v.length then mdSet k 10 [byte (setBit (rd k.md 10 1) 1)] else k
    { x with k := k }
  else nameBytes a off v.length (writeCap a off v x)

/-- SET and COPY: the destination must be recorded and the edit must not name a popped byte. -/
def runWrite (g : Nat) (egress : Bool) (a off : Nat) (v : Bytes) (r : Run) : Run :=
  if a == 32 then (r.1, writeDest a off v r.2)
  else match hdrOf r.2.k a with
    | none => skip g r
    | some (o, c) =>
      if c.length < off + v.length then skip g r
      else if namesPopped r.2.ed (o + off, v.length) then actFault g egress r
      else (r.1, writeDest a off v r.2)

/-- Value of a SET: action data, or the low bytes of d, network order into a header and little-endian into metadata (R160). -/
def setValue (p : Nat) (data : Bytes) : Bytes :=
  if bit (prE p) 0 then (if prA p == 32 then le (prC p) (prD p) else be (prC p) (prD p)) else slice data (prD p) (prC p)

/-- PUSH (R168-R170). -/
def runPush (g : Nat) (egress : Bool) (p : Nat) (data : Bytes) (r : Run) : Run :=
  let at_ := if prA p == 0xFE then some none else (hdrOf r.2.k (prA p)).map fun x => some x.1
  match at_ with
  | none => skip g r
  | some pos =>
    match versionAt (tgetD r.1.tbl.templates (prD p) []) r.2.k.epoch with
    | none => actFault g egress r
    | some t =>
      let hits := match pos with | some o => namesPopped r.2.ed (o, 1) | none => false
      if 2 ≤ r.2.ed.pushes.length || 128 < pushed r.2.ed + tpLen t || hits then actFault g egress r
      else
        let q : Push := { at_ := pos, tmpl := t, body := templateBody t (openData r.1 data) }
        let nm := match pos with | some o => [(o, 1)] | none => []
        ({ r.1 with freeIx := r.1.freeIx + 16 },
         { r.2 with ed := { r.2.ed with pushes := r.2.ed.pushes ++ [q], named := r.2.ed.named ++ nm } })

/-- POP (R160, R168). -/
def runPop (g : Nat) (egress : Bool) (p : Nat) (r : Run) : Run :=
  match hdrOf r.2.k (prA p) with
  | none => skip g r
  | some (o, c) =>
    if prB p == 1 && c.length < prC p then skip g r
    else
      let range := if prB p == 1 then (o, prC p) else (0, o)
      if 2 ≤ r.2.ed.pops.length || r.2.k.bytes.length < popped r.2.k.bytes.length (range :: r.2.ed.pops) + 14 || namesPopped r.2.ed (o, 1) || popsNamed r.2.ed range then
        actFault g egress r
      else (r.1, { r.2 with ed := { r.2.ed with pops := r.2.ed.pops ++ [range], named := r.2.ed.named ++ [(o, 1)] } })

/-- DEC_TTL (R167): an expired field ends the pass; in an egress program it drops the copy, counted by its queue. It names the byte of its
field, not the checksum that it updates (R168). -/
def runDecTtl (g : Nat) (egress : Bool) (p : Nat) (r : Run) : Run :=
  match hdrOf r.2.k (prA p) with
  | none => skip g r
  | some (o, c) =>
    let off := prB p
    let csum := bit (prC p) 0
    if c.length ≤ off || (csum && c.length < 12) then skip g r
    else if namesPopped r.2.ed (o + off, 1) then actFault g egress r
    else
      let ttl := rd c off 1
      if ttl ≤ 1 then (countA g 5 1 r.1, { r.2 with fin := some (if egress then .drop else .exc 5) })
      else
        let w := off / 2 * 2
        let old := rdN c w 2
        let new := if off % 2 == 0 then old - 256 else old - 1
        let x := nameBytes (prA p) off 1 (writeCap (prA p) off [byte (ttl - 1)] r.2)
        (r.1, if csum then writeCap (prA p) 10 (be 2 (inetAdjust (rdN c 10 2) old new)) x else x)

/-- METER (R160, R181): the bytes metered are those of the frame at the start of the pass, FCS included (assumption 28). Where a
colour-aware meter finds the packet's colour no rule says: the model takes action-scratch byte c, which receives the colour, and a value
above 2 as red (DESIGN CHOICE, assumption 28). -/
def runMeter (g p : Nat) (r : Run) : Run :=
  let pre := if bit (prA p) 0 then min 2 (rd r.2.k.md (prC p) 1) else 0
  let (col, s) := meterRun g (prD p) (r.2.k.bytes.length + 4) pre r.1
  let x := { r.2 with k := mdSet r.2.k (prC p) [byte col] }
  if prB p == 1 && col == 2 then (countA g 3 1 s, { x with fin := some .drop }) else (s, x)

/-- MIRROR (R164). A session that is not enabled copies nothing and still uses up one of the packet's two: no rule says (DESIGN CHOICE,
assumption 60). -/
def runMirror (g p : Nat) (r : Run) : Run :=
  if 2 ≤ r.2.k.mirrors.length || r.2.k.mirrors.contains (prA p) then skip g r
  else (mirrorCopy (prA p) r.2.k r.1, { r.2 with k := { r.2.k with mirrors := r.2.k.mirrors ++ [prA p] } })

/-- Queue and egress program of FWD_PORT and FWD_LAG. -/
def fwdQueue (p prio : Nat) : Nat := if bit (prB p) 0 then prio else fld (prA p) 0 3
def fwdProg (p : Nat) : Option Nat := if prE p == 0xFFFF then none else some (prE p)

/-- Is the operation one that R160 marks as ingress? -/
def ingressOnly (op : Nat) : Bool := decide (7 ≤ op) && decide (op ≤ 0x0F) || op == 0x11

/-- One primitive. -/
def runPrim (g : Nat) (egress : Bool) (data : Bytes) (p : Nat) (r : Run) : Run :=
  let x := r.2
  let fwd := fun f => (r.1, { x with fwd := some f })
  if egress && ingressOnly (prOp p) then (countA g 18 1 r.1, { x with fin := some .drop })
  else match prOp p with
  | 0x01 => runWrite g egress (prA p) (prB p) (setValue p data) r
  | 0x02 => match srcBytes x.k (fld (prD p) 0 8) (fld (prD p) 8 8) (prC p) with
    | none => skip g r
    | some v => runWrite g egress (prA p) (prB p) v r
  | 0x03 => runPush g egress p data r
  | 0x04 => runPop g egress p r
  | 0x05 => runDecTtl g egress p r
  | 0x06 => (r.1, { x with counts := x.counts ++ [prD p] })
  | 0x07 => runMeter g p r
  | 0x08 => runMirror g p r
  | 0x09 => if x.crypt.isSome then actFault g egress r
    else (r.1, { x with crypt := some (bit (prA p) 0, bit (prB p) 0, prD p + 65536 * fld (prE p) 0 4) })
  | 0x0A => fwd (.port (fld (prD p) 0 10) (fwdQueue p x.k.prio) (fwdProg p))
  | 0x0B => fwd (.lag (prD p) (fwdQueue p x.k.prio) (fwdProg p))
  | 0x0C => fwd (.host (fld (prA p) 0 2) (fld (prA p) 2 1) (prD p) (prE p))
  | 0x0D => fwd (.chan (prA p) (BitVec.ofNat 32 (prD p * 65536 + prE p)))
  | 0x0E => fwd (.group (prD p))
  | 0x0F => fwd .recirc
  | 0x10 => (if egress then r.1 else countA g 3 1 r.1, { x with fin := some .drop })
  | 0x11 => (r.1, { x with fin := some (.exc (prA p)) })
  | _ => r

/-- The primitives of a program in order, until END, its last, or the end of the pass (R161, R163). -/
def runPrims (g : Nat) (egress : Bool) (data : Bytes) : List (BitVec 64) → Run → Run
  | [], r => r
  | w :: rest, r =>
    if r.2.fin.isSome || prOp w.toNat == 0 then r
    else runPrims g egress data rest (runPrim g egress data w.toNat r)

/-- A program by its index, in the version of the packet's epoch; without one the pass takes an action fault (R159). -/
def runProgram (g i : Nat) (data : Bytes) (r : Run) : Run :=
  match versionAt (tgetD r.1.tbl.programs i []) r.2.k.epoch with
  | some ws => runPrims g false data ws r
  | none => actFault g false r

/-- COUNT at the end of a pass: packets and bytes, FCS included (R181). -/
def countPass (g n : Nat) (l : List Nat) (s : State) : State :=
  l.foldl (fun s c =>
    let k := 65536 * g + c
    let (p, b) := tgetD s.tbl.counters k (0, 0)
    { s with tbl := { s.tbl with counters := tput s.tbl.counters k (p + 1, b + n) } }) s

/-! ## Stages (R128-R130, R135, R136, R142, R159) -/

/-- The key of a table for a packet; none when a required header is absent (R128, R129). -/
def keyFor (w : Tab Word) (t : Nat) (k : Packet) : Option Bytes :=
  let parts := (List.range 12).map fun i =>
    let (src, opt, off, len) := extractOf w t i
    if len == 0 then some []
    else if src == 32 then some (slice k.md off len)
    else match hdrOf k src with
      | some (_, c) => some (slice c off len)
      | none => if opt then some (List.replicate len 0) else none
  if parts.any fun x => x.isNone then none
  else some (fitTo (tdKeyLen w t) (parts.flatMap fun x => x.getD []))

/-- TBL_DEFAULT_t: program when enabled, and its action data (R159). -/
def defaultOf (w : Tab Word) (t : Nat) : Option (Nat × Bytes) :=
  let a := tblBase + 0x3000 + 0x40 * t
  let x := bankWord w a
  if bit x 12 then some (fld x 0 12, (List.range 8).flatMap fun i => le 4 (bankWord w (a + 0x20 + 4 * i))) else none

/-- A slot read with an uncorrectable error (R142): counted, rewritten from the next replica, reported; the packet takes reason 2. -/
def eccError (g b sl : Nat) (r : Run) : Run :=
  let d := gDie g
  let s := raise 0x0805 (mkPlace d (b % 4) 17 113) [b, sl, d % 4 + 1] (countR g 38 1 r.1)
  (s, if r.2.fin.isSome then r.2 else { r.2 with fin := some (.exc 2) })

/-- A program of a stage's table runs, unless the pass has ended (R163). -/
def stageProgram (g i : Nat) (data : Bytes) (r : Run) : Run := if r.2.fin.isSome then r else runProgram g i data r

/-- One table in a pass. Its key is that of `k`, the packet as the stage found it, and it is looked up whether or not a program of its stage
has ended the pass (R136). `ecc` names a table and a bucket and slot whose read meets an uncorrectable error. -/
def runTable (w : Tab Word) (g t : Nat) (ecc : Option (Nat × Nat × Nat)) (k : Packet) (r : Run) : Run :=
  match keyFor w t k with
  | none => (countR g 32 1 r.1, r.2)
  | some key =>
    match ecc with
    | some (et, b, sl) => if et == t then eccError g b sl r else look key
    | none => look key
where
  look (key : Bytes) : Run :=
    match lookupEntry r.1 t key k.epoch with
    | some e =>
      let s := countR g t 1 (if e.stash then countR g 33 1 r.1 else r.1)
      stageProgram g e.program e.data (hitBit e true s, r.2)
    | none =>
      let s := countR g (16 + t) 1 r.1
      match defaultOf w t with
      | some (p, d) => stageProgram g p d (s, r.2)
      | none => (s, r.2)

/-- A stage: all its tables in ascending number; none once an earlier stage has ended the pass (R136, R163). -/
def runStage (w : Tab Word) (g : Nat) (ecc : Option (Nat × Nat × Nat)) (r : Run) (st : Nat) : Run :=
  if r.2.fin.isSome then r
  else ((List.range 16).filter fun t => tdEnable w t && tdStage w t == st).foldl (fun x t => runTable w g t ecc r.2.k x) r

/-- The six stages (R136). -/
def runStages (w : Tab Word) (g : Nat) (ecc : Option (Nat × Nat × Nat)) (r : Run) : Run := (span 1 6).foldl (runStage w g ecc) r

end Sys2Proof.Machine
end

