-- ==== Sys2Proof/Machine/FlowOps.lean ====
section
/-! DEFINITION. Stateful flows: keys, store placement, connection tracking, source NAT, the region caches and the records for the twin
(R238-R263). -/

namespace Sys2Proof.Machine

def flowMod (f : FlowS → FlowS) (s : State) : State := { s with flow := f s.flow }

/-! ## Profiles and pools (R269) -/

/-- Word `k` of a profile in a bank. -/
def profWord (w : Tab Word) (n k : Nat) : Nat := bankWord w (tblBase + 0x6100 + 0x20 * n + 4 * k)

/-- Timeout of a state under a profile, in seconds (R255). -/
def stateTimeout (w : Tab Word) (n st : Nat) : Nat :=
  let k := match st with | 1 => 1 | 2 => 1 | 3 => 2 | 4 => 3 | 5 => 3 | 6 => 4 | 7 => 5 | _ => 6
  fld (profWord w n k) 0 17

/-- A NAT pool: first address, addresses, lowest and highest port. -/
def poolOf (w : Tab Word) (n : Nat) : Nat × Nat × Nat × Nat :=
  let a := tblBase + 0x6400 + 16 * n
  let ports := bankWord w (a + 8)
  (bankWord w a, fld (bankWord w (a + 4)) 0 8 + 1, fld ports 0 16, fld ports 16 16)

/-! ## Keys (R239, R240) -/

/-- An endpoint: sixteen address bytes and a port. -/
abbrev Endpoint := Bytes × Nat

/-- Is endpoint `x` lower than `y`: address, then port, as big-endian bytes? -/
def endBefore (x y : Endpoint) : Bool := decide (ofBe x.1 * 65536 + x.2 ≤ ofBe y.1 * 65536 + y.2)

/-- The key of two endpoints. Ports and zone are little-endian fields (R16, assumption 30). -/
def flowKey (x y : Endpoint) (proto : Nat) (v6 : Bool) (zone : Nat) : Bytes :=
  let (a, b) := if endBefore x y then (x, y) else (y, x)
  fitTo 16 a.1 ++ fitTo 16 b.1 ++ le 2 a.2 ++ le 2 b.2 ++ [byte proto, byte (b2n v6)] ++ le 2 zone

def keyA (k : Bytes) : Endpoint := (slice k 0 16, rd k 32 2)
def keyB (k : Bytes) : Endpoint := (slice k 16 16, rd k 34 2)

/-- What the flow unit reads of a packet: sender, receiver, protocol, IPv6, TCP flags, zone. -/
structure Tuple where
  src : Endpoint
  dst : Endpoint
  proto : Nat
  v6 : Bool
  flags : Nat
  zone : Nat
  deriving DecidableEq, Repr

def Tuple.key (t : Tuple) : Bytes := flowKey t.src t.dst t.proto t.v6 t.zone

/-- Slot that holds the L4 header: slot 8 in place of 7 when the packet recorded UDP (R269). -/
def l4SlotOf (w : Tab Word) (n : Nat) (k : Packet) : Nat :=
  let i := fld (profWord w n 0) 8 5
  if i == 7 && (hdrOf k 8).isSome then 8 else i

/-- Protocol of an IPv6 header at `o` behind Hop-by-Hop, Routing and Destination Options headers, at most two as the front end allows
(R117; assumption 121). -/
def ip6Proto (b : Bytes) : Nat → Nat → Nat → Nat
  | 0, at_, _ => rdN b at_ 1
  | n + 1, at_, o =>
    let nh := rdN b at_ 1
    if nh == 0 || nh == 43 || nh == 60 then ip6Proto b n o (o + 8 * (rdN b (o + 1) 1 + 1)) else nh

/-- The tuple of a packet under a profile; none when the l3 slot is not recorded or holds no IP header (R239). The protocol of the
front end's IPv6 header is the last Next Header value that it read in this pass. -/
def tupleOf (w : Tab Word) (n : Nat) (k : Packet) : Option Tuple :=
  let zone := rd k.md 28 2
  let l3 := fld (profWord w n 0) 0 5
  match hdrOf k l3 with
  | none => none
  | some (o, c) =>
    let v := fld (rd c 0 1) 4 4
    let proto := if v == 4 then rd c 9 1 else if l3 == 4 then k.lastNh else ip6Proto k.bytes 2 (o + 6) (o + 40)
    let l4 := if proto == 6 || proto == 17 then (hdrOf k (l4SlotOf w n k)).map fun x => x.2 else none
    let port := fun off => match l4 with | some b => rdN b off 2 | none => 0
    let flags := match l4 with | some b => if proto == 6 then rd b 13 1 else 0 | none => 0
    let mk := fun (off len : Nat) (v6 : Bool) =>
      some { src := (slice c off len ++ List.replicate (16 - len) 0, port 0)
             dst := (slice c (off + len) len ++ List.replicate (16 - len) 0, port 2)
             proto := proto, v6 := v6, flags := flags, zone := zone : Tuple }
    if v == 4 then mk 12 4 false else if v == 6 then mk 8 16 true else none

/-! ## The store (R242-R246) -/

/-- Engine of a key, its first bucket and its buckets. -/
def flowEngine (s : State) (key : Bytes) : Nat := crc32c (s.flow.seed ^^^ 0xA5A5A5A5#32) key % 3
def partFirst (g : Nat) : Nat := 2796203 * g
def partSize (g : Nat) : Nat := if g == 2 then 2796202 else 2796203

/-- Candidate buckets of a key (R242). -/
def flowBuckets (s : State) (key : Bytes) : Nat × Nat :=
  let g := flowEngine s key
  let b0 := partFirst g + crc32c s.flow.seed key % partSize g
  let b1 := partFirst g + crc32c (s.flow.seed ^^^ 0x5A5A5A5A#32) key % partSize g
  (b0, if b1 == b0 then partFirst g + (b0 - partFirst g + 1) % partSize g else b1)

/-- Fingerprint of a key (R242). -/
def flowPrint (s : State) (key : Bytes) : Nat :=
  let f := crc32c (s.flow.seed ^^^ 0xA5A5A5A5#32) key / 65536
  if f == 0 then 1 else f

def flowAt (s : State) (i : Nat) : Option Flow := s.flow.entries.find? fun f => f.index == i

/-- A way of the flow directory: the fingerprint of the entry there, zero where the way is empty (R243). The directory follows the store at
every write, so that the entries give it. -/
def dirWay (s : State) (i : Nat) : Nat := match flowAt s i with | some f => flowPrint s f.key | none => 0

/-- The eight ways in which a key can lie, in the order of the lookup. -/
def flowWays (s : State) (key : Bytes) : List Nat :=
  let (b0, b1) := flowBuckets s key
  span (4 * b0) 4 ++ span (4 * b1) 4

/-- A lookup: of the ways whose fingerprint matches, the first whose entry has the key (R243). -/
def flowFind (s : State) (key : Bytes) : Option Flow :=
  ((flowWays s key).filter fun i => dirWay s i == flowPrint s key).findSome? fun i => (flowAt s i).filter fun f => f.key == key

/-- Where an entry lies in DDR5 (R501). -/
def flowAddr (i : Nat) : Nat := 0x400000000000 + 128 * i

/-- A free way of a bucket, none on a channel lost in service (R508). -/
def freeWay (lost : Nat → Bool) (es : List Flow) (b : Nat) : Option Nat :=
  (span (4 * b) 4).find? fun i => !lost (flowAddr i) && !es.any fun f => f.index == i

/-- Breadth-first search for at most four relocations within at most `n` candidates (R138, R245), last entry first. -/
def flowChain (lost : Nat → Bool) (es : List Flow) (alt : Flow → Nat) : Nat → List (List Flow) → Option (List Flow × Nat)
  | 0, _ => none
  | _, [] => none
  | n + 1, [] :: q => flowChain lost es alt n q
  | n + 1, (e :: r) :: q =>
    match freeWay lost es (alt e) with
    | some i => some (e :: r, i)
    | none =>
      let next := if r.length < 3 then
          (es.filter fun x => x.index / 4 == alt e && !(e :: r).any fun y => y.index == x.index).map fun x => x :: e :: r
        else []
      flowChain lost es alt n (q ++ next)

/-- The same search without the limits, over every entry that relocations can reach, each once; `seen` are those already listed. -/
def flowReach (lost : Nat → Bool) (es : List Flow) (alt : Flow → Nat) : Nat → List Nat → List (List Flow) → Option (List Flow × Nat)
  | 0, _, _ => none
  | _, _, [] => none
  | n + 1, seen, [] :: q => flowReach lost es alt n seen q
  | n + 1, seen, (e :: r) :: q =>
    match freeWay lost es (alt e) with
    | some i => some (e :: r, i)
    | none =>
      let next := es.filter fun x => x.index / 4 == alt e && !seen.contains x.index
      flowReach lost es alt n (seen ++ next.map fun x => x.index) (q ++ next.map fun x => x :: e :: r)

/-- An entry moves; the entries and caches that name it follow. -/
def reindex (old new : Nat) (s : State) : State :=
  flowMod (fun f => { f with
    entries := f.entries.map fun e =>
      { e with index := if e.index == old then new else e.index, peer := if e.peer == old then new else e.peer }
    cache := tmap f.cache fun _ l => l.map fun i => if i == old then new else i }) s

def moveFlows : List Flow → Nat → State → State × Nat
  | [], i, s => (s, i)
  | e :: r, i, s => moveFlows r e.index (reindex e.index i s)

/-- Limits of R245 and R246. -/
def flowHigh : Nat := 28521267
def flowLow : Nat := 26843546

/-- A free position for a key, where the insertion can succeed (R245). The limits of R138 bound the search above 85 %; at or below it an
insertion succeeds, so that the search goes on over all that relocations can reach (assumption 31). -/
def flowPlace (key : Bytes) (s : State) : Option (State × Nat) :=
  let es := s.flow.entries
  let lost := lineLost s
  let (b0, b1) := flowBuckets s key
  match freeWay lost es b0 with
  | some i => some (s, i)
  | none => match freeWay lost es b1 with
    | some i => some (s, i)
    | none =>
      let alt := fun (f : Flow) => let (c0, c1) := flowBuckets s f.key; if f.index / 4 == c0 then c1 else c0
      let there := es.filter fun f => f.index / 4 == b0 || f.index / 4 == b1
      let first := fun b => (es.filter fun f => f.index / 4 == b).map fun f => [f]
      match flowChain lost es alt 128 (first b0 ++ first b1) with
      | some (ch, i) => some (moveFlows ch i s)
      | none =>
        if es.length + 1 ≤ flowHigh then
          (flowReach lost es alt (es.length + 1) (there.map fun f => f.index) (first b0 ++ first b1)).map fun (ch, i) => moveFlows ch i s
        else none

/-- The store passes 85 %, or falls below 80 % (R246). -/
def flowLoadEvents (s : State) : State :=
  let n := s.flow.entries.length
  if flowHigh < n && !s.flow.high then raise 0x1401 (lookupPlace 0) [n] (flowMod (fun f => { f with high := true }) s)
  else if n < flowLow && s.flow.high then flowMod (fun f => { f with high := false }) s
  else s

/-- An IPv4 address as sixteen key bytes. -/
def addr4 (a : Nat) : Bytes := be 4 a ++ List.replicate 12 0

/-! ## Records for the twin (R241, R248, R262-R264) -/

/-- The 128 bytes of an entry (R241); `own` gives this package's contributions alone. -/
def flowRecord (f : Flow) (own : Bool) : Bytes :=
  let (t1, t2, t3, t4) := if own then (0, 0, 0, 0) else f.twin
  fitTo 40 f.key ++ [byte (1 + 2 * b2n f.natReply + 4 * b2n f.drop + 8 * b2n f.origA), byte f.st, byte f.profile, byte f.region] ++
  le 4 f.peer ++ addr4 f.natAddr ++ le 2 f.natPort ++ le 2 f.mark ++ le 4 f.created ++ le 4 f.lastSeen ++ le 4 f.timeout ++
  le 8 (f.pktsAB + t1) ++ le 8 (f.bytesAB + t2) ++ le 8 (f.pktsBA + t3) ++ le 8 (f.bytesBA + t4) ++ List.replicate 16 0

/-- Does the package queue its changes for the twin now? In SUSPECT they are queued and held (R592). -/
def mirrors (s : State) : Bool :=
  twinSettled s && (s.twin.state == .protectedSt || s.twin.state == .handedOver || s.twin.state == .suspect || s.twin.joinStep != 0)

/-- A change for the twin: kind 0 present, 1 removed, 2 drop, mark or timeout changed, and the record. The queue of 64 MiB that overflows is
discarded, for a resend (R264). -/
def flowDelta (kind : Nat) (f : Flow) (s : State) : State :=
  if !mirrors s then s
  else if 67108864 < 132 * (s.flow.deltas.length + 1) then flowMod (fun x => { x with deltas := [], resync := true }) s
  else flowMod (fun x => { x with
    deltas := x.deltas ++ [byte kind :: flowRecord f true], deltaAt := if x.deltas.isEmpty then nowUs s else x.deltaAt }) s

def flowPut (f : Flow) (s : State) : State :=
  flowMod (fun x => { x with entries := x.entries.map fun e => if e.index == f.index then f else e }) s

/-! ## The caches (R247, R248, R252) -/

/-- Ways of each of a cache's 4,096 sets: sixteen, less two for each of its eight memory banks that is out of service. -/
def setWays (s : State) (g : Nat) : Nat := 16 - 2 * banksOut s (l0Place g 116)

/-- The set of an entry (R247 gives no function: assumption 32). -/
def setOf (s : State) (i : Nat) : Nat := match flowAt s i with | some f => (Config.flowSet f.key).toNat | none => 4096

/-- The region that holds an entry. -/
def holderOf (s : State) (i : Nat) : Option Nat := (s.flow.cache.find? fun e => e.2.contains i).map fun e => e.1

def savedOf (f : Flow) : Nat × Nat × Nat × Nat × Nat := (f.pktsAB, f.bytesAB, f.pktsBA, f.bytesBA, f.lastSeen)

/-- A whole entry is written to DDR5, which clears poison (R504). -/
def storeWritten (i : Nat) (s : State) : State :=
  { s with mem := { s.mem with poison := stillPoisoned (flowAddr i) 128 s.mem.poison, chans := lineCounts s 1 (flowAddr i) 128 } }

/-- Counters and last_seen of an entry are written back, and follow to the twin (R248, R263). -/
def writeFlow (i : Nat) (s : State) : State :=
  match flowAt s i with
  | none => s
  | some f =>
    if f.saved == savedOf f && !f.dirty then s
    else
      let f := { f with saved := savedOf f, dirty := false }
      flowDelta 0 f (storeWritten i (flowPut f s))

/-- Entries of a pair: the entry and its peer. -/
def pairOf (s : State) (i : Nat) : List Nat :=
  match flowAt s i with
  | some f => if f.peer == 0xFFFFFFFF then [i] else [i, f.peer]
  | none => [i]

/-- Entries taken out of every cache, written back. -/
def uncache (l : List Nat) (s : State) : State :=
  let s := l.foldl (fun s i => writeFlow i s) s
  flowMod (fun x => { x with cache := tmap x.cache fun _ c => c.filter fun i => !l.contains i }) s

/-- Has an entry, or the other of its pair, a request in flight: a packet of its key waits in a miss queue (R252)? -/
def inFlight (s : State) (i : Nat) : Bool :=
  let keys := ((pairOf s i).filterMap fun j => flowAt s j).map fun f => f.key
  s.flow.miss.any fun q => q.2.any fun x => keys.contains x.key

/-- Ways of a set in a region's cache. -/
def inSet (s : State) (g v : Nat) : List Nat := (tgetD s.flow.cache g []).filter fun i => setOf s i == v

/-- Can the cache take the entries of these keys that it does not hold: has the set of each a way that is free or has no request in flight
(R252)? -/
def cacheTakes (s : State) (g : Nat) (keys : List Bytes) : Bool :=
  let anew := keys.filter fun k => match flowFind s k with | some f => holderOf s f.index != some g | none => true
  anew.all fun k =>
    let v := (Config.flowSet k).toNat
    let want := (anew.filter fun x => (Config.flowSet x).toNat == v).length
    decide (want + ((inSet s g v).filter fun i => inFlight s i).length ≤ setWays s g)

/-- The way that a set too full gives up: the least recently used without a request in flight, and not one of `keep` (R252). -/
def victim (s : State) (g : Nat) (keep : List Nat) : Option Nat :=
  (tgetD s.flow.cache g []).reverse.find? fun i =>
    !keep.contains i && !inFlight s i && decide (setWays s g < (inSet s g (setOf s i)).length)

/-- Sets of a cache beyond their ways give up entries, each with its peer, written back (R247, R252); `n` bounds how many. -/
def evict (g : Nat) (keep : List Nat) : Nat → State → State
  | 0, s => s
  | n + 1, s => match victim s g keep with
    | some i => evict g keep n (uncache (pairOf s i) s)
    | none => s

/-- An entry, with its peer, comes into a region's cache as the most recently used (R247, R250). -/
def touch (g i : Nat) (s : State) : State :=
  let l := pairOf s i
  let moved := match holderOf s i with | some h => h != g | none => false
  let s := if moved then countF g 7 1 (uncache l s) else s
  let s := flowMod (fun x => { x with
    cache := tput x.cache g (l ++ (tgetD x.cache g []).filter fun j => !l.contains j)
    entries := x.entries.map fun f => if l.contains f.index then { f with region := g } else f }) s
  evict g l 18 s

/-! ## Removal (R258, R259, R266, R267) -/

/-- The export record of a removal, for a cause: 1 idle, 2 command, 3 flush, 4 ECC (R259). -/
def exportFlow (cause : Nat) (f : Flow) (s : State) : State :=
  let cfg := bankWord (curWords s) (tblBase + 0x6000)
  let hi := bankWord (curWords s) (tblBase + 0x6004)
  if !bit (profWord (curWords s) f.profile 0) 17 || !bit cfg 0 then s
  else
    let p := 256 * (fld cfg 16 16 + 65536 * fld hi 0 8) % 2 ^ 27
    let gone := svcIndex p == 86 || outOfService s p || !hasCluster (pDie p) (pRegion p) (pCluster p)
    let (s, e) := if gone then (s, .closed) else extItem (svcIndex p) (fld cfg 8 8) 3 0 (flowRecord f false ++ le 8 cause) [] s
    if e == .delivered then s else countF f.region 11 1 s

/-- Removal of entries, for a cause; `tell` says that the twin learns of it by a delta. An entry of a pair that stays names no other entry
from then on. -/
def removeFlows (cause : Nat) (tell : Bool) (l : List Nat) (s : State) : State :=
  let gone := s.flow.entries.filter fun e => l.contains e.index
  let s := flowMod (fun x => { x with
    entries := (x.entries.filter fun e => !l.contains e.index).map fun e => if l.contains e.peer then { e with peer := 0xFFFFFFFF } else e
    cache := tmap x.cache fun _ c => c.filter fun j => !l.contains j }) s
  let s := gone.foldl (fun s f => exportFlow cause f (if tell then flowDelta 1 f s else s)) (l.foldl (fun s i => storeWritten i s) s)
  flowLoadEvents s

/-- Removal of an entry with its peer (R267). -/
def removeFlow (cause : Nat) (tell : Bool) (i : Nat) (s : State) : State := removeFlows cause tell (pairOf s i) s

/-! ## Engines and errors (R28, R244, R266) -/

/-- The key whose engine owns an entry: that of the original of its pair (R244). -/
def ownerKey (s : State) (f : Flow) : Bytes :=
  if f.natReply then (match flowAt s f.peer with | some o => o.key | none => f.key) else f.key

/-- The lookup engines that an operation on a key takes: its own, and for a reply entry that of the original (R244). -/
def enginesOf (s : State) (key : Bytes) : List Nat :=
  match flowFind s key with
  | some f => [flowEngine s key, flowEngine s (ownerKey s f)]
  | none => [flowEngine s key]

/-- The element that an operation on a key needs and that is lost: a lookup engine, or the DDR5 channel of its entry where no cache holds
that (R28, R266, R508). -/
def engineOut (s : State) (key : Bytes) : Option Nat :=
  match (enginesOf s key).find? fun e => outOfService s (lookupPlace e) with
  | some e => some (lookupPlace e)
  | none => match flowFind s key with
    | some f => if (holderOf s f.index).isNone && lineLost s (flowAddr f.index) then some (memPlace (channelAt s (flowAddr f.index))) else none
    | none => none

/-- Are the engine and the memory that a key needs in service? -/
def engineUp (s : State) (key : Bytes) : Bool := ddr5Up s && (engineOut s key).isNone

/-- An entry read with an uncorrectable error: restored from the twin, or removed (R266); words: index, 0 restored or 1 removed. -/
def flowEcc (restored : Bool) (f : Flow) (s : State) : State :=
  let p := lookupPlace (flowEngine s f.key)
  if restored && twinSettled s && (s.twin.state == .protectedSt || s.twin.state == .handedOver) then
    raise 0x1406 p [f.index, 0] (storeWritten f.index s)
  else removeFlows 4 true [f.index] (raise 0x1406 p [f.index, 1] (countF f.region 12 1 s))

/-- Is an entry read from DDR5, at poison (R504)? -/
def flowPoisoned (s : State) (i : Nat) : Bool :=
  (holderOf s i).isNone && (s.mem.poison.any fun x => decide (x < flowAddr i + 128) && decide (flowAddr i < x + 64))

/-- The entry of a key is read: one that no cache holds can meet an error (R266). The pair holds every flow of its system (R262), so that the
twin has it. -/
def readFlow (key : Bytes) (s : State) : State :=
  match flowFind s key with
  | some f => if flowPoisoned s f.index then flowEcc true f s else s
  | none => s

/-! ## Connection tracking (R255-R257) -/

def isSyn (fl : Nat) : Bool := bit fl 1 && !bit fl 4
def isSynAck (fl : Nat) : Bool := bit fl 1 && bit fl 4
def isAckOnly (fl : Nat) : Bool := bit fl 4 && !bit fl 1

/-- State of a new entry; none when strict tracking does not create it. -/
def firstState (tcp strict : Bool) (fl : Nat) : Option Nat :=
  if !tcp then some 7 else if isSyn fl then some 1 else if strict then none else some 3

/-- Is a TCP packet invalid for an entry (R257)? -/
def tcpInvalid (st : Nat) (fromOrig : Bool) (fl : Nat) : Bool :=
  (isSyn fl && (st == 3 || st == 4 || st == 5)) || (st == 1 && !fromOrig && !isSynAck fl && !bit fl 2)

/-- The state after a valid packet, the direction of the first FIN, and whether the entry is reused (R256). -/
def nextState (tcp : Bool) (st : Nat) (fromOrig fromA : Bool) (fl : Nat) (finA : Option Bool) : Nat × Option Bool × Bool :=
  if !tcp then (if st == 7 && !fromOrig then 8 else st, finA, false)
  else if bit fl 2 then (6, finA, false)
  else match st with
    | 1 => (if isSynAck fl && !fromOrig then 2 else 1, finA, false)
    | 2 => (if isAckOnly fl && fromOrig then 3 else 2, finA, false)
    | 3 => if bit fl 0 then (4, some fromA, false) else (3, finA, false)
    | 4 => (if bit fl 0 && finA != some fromA then 5 else 4, finA, false)
    | 6 => if isSyn fl then (1, none, true) else (6, finA, false)
    | _ => (st, finA, false)

/-! ## What the flow unit does with a packet (R238, R254, R257, R261) -/

/-- How the flow unit leaves a packet. -/
inductive Verdict where
  | pass
  | drop
  | exc (reason : Nat)
  deriving DecidableEq, Repr

/-- miss_action, full_action and invalid_action: 0 drop, 1 and 3 exception, 2 pass (R254). -/
def flowAction (code reason : Nat) : Verdict := match code with | 0 => .drop | 2 => .pass | _ => .exc reason

/-- Result byte, mark and a cleared request (R238). -/
def flowResult (res mark : Nat) (k : Packet) : Packet := mdSet (mdSet (mdSet k 30 [byte res]) 26 (le 2 mark)) 31 [0]

/-- A 16-bit word of the frame replaced, with the checksum at `sum` adjusted (RFC 1624). -/
def patch16 (at_ new sum : Nat) (b : Bytes) : Bytes :=
  splice (splice b at_ (be 2 new)) sum (be 2 (inetAdjust (rdN b sum 2) (rdN b at_ 2) new))

/-- NAT rewriting of an IPv4 header at `l3` and an L4 header at `l4`: the source or the destination. Both checksums are adjusted (RFC 1624);
a UDP checksum of zero stays zero (R261). -/
def natRewrite (l3 l4 proto : Nat) (source : Bool) (addr port : Nat) (b : Bytes) : Bytes :=
  let ip := l3 + (if source then 12 else 16)
  let po := l4 + (if source then 0 else 2)
  let udp := proto == 17
  let cs := l4 + (if udp then 6 else 16)
  let hi := addr / 65536 % 65536
  let lo := addr % 65536
  let sum := rdN b cs 2
  let fixed := inetAdjust (inetAdjust (inetAdjust sum (rdN b ip 2) hi) (rdN b (ip + 2) 2) lo) (rdN b po 2) port
  let b := splice (patch16 (ip + 2) lo (l3 + 10) (patch16 ip hi (l3 + 10) b)) po (be 2 port)
  if udp && sum == 0 then b else splice b cs (be 2 fixed)

/-- Has an entry a binding (R261)? Either entry of a pair keeps it when the other has gone (assumption 33). -/
def bound (f : Flow) : Bool := f.natReply || f.natAddr != 0 || f.natPort != 0

/-- The packet rewritten by the entry it hit, at its shifted slots; unchanged where a slot is gone. -/
def natPacket (w : Tab Word) (f : Flow) (t : Tuple) (k : Packet) : Packet × Bool :=
  let fromOrig := (decide (keyA f.key = t.src)) == f.origA
  if !bound f then (k, false)
  else if !f.natReply && !fromOrig then (k, false)
  else match hdrOf k (fld (profWord w f.profile 0) 0 5), hdrOf k (l4SlotOf w f.profile k) with
    | some (l3, _), some (l4, _) => ({ k with bytes := natRewrite l3 l4 t.proto (!f.natReply) f.natAddr f.natPort k.bytes }, true)
    | _, _ => (k, false)

/-- An entry reused from CLOSED, with the endpoint that sends taken as originator (R256). -/
def reused (now : Nat) (fromA : Bool) (f : Flow) : Flow :=
  { f with pktsAB := 0, bytesAB := 0, pktsBA := 0, bytesBA := 0, twin := (0, 0, 0, 0), created := now, origA := fromA }

/-- Does the sender of a tuple stand for endpoint a of the other entry of its pair? The two keys share one endpoint; the sender is that one,
or else the one that the binding replaces. -/
def peerFromA (p : Flow) (t : Tuple) : Bool := keyA p.key == t.src || (keyB p.key != t.src && keyA p.key != t.dst)

/-- A state change applied to the other entry of a pair (R256, R261), and queued for the twin (R248). -/
def changePeer (i st : Nat) (fin : Bool) (reuse : Bool) (t : Tuple) (s : State) : State :=
  match flowAt s i with
  | none => s
  | some p =>
    let a := peerFromA p t
    let p := if reuse then reused (now32 s) a p else p
    let p := { p with st := st, finA := if reuse then none else if fin then some a else p.finA }
    flowDelta 0 p (flowPut p s)

/-- A packet of `n` bytes with its FCS hits an entry (R254, R256, R257, R261). -/
def flowHit (w : Tab Word) (n : Nat) (t : Tuple) (f : Flow) (k : Packet) (g : Nat) (s : State) : Verdict × Packet × State :=
  if f.drop then (.drop, k, countF g 8 1 s)
  else
    let fromA := decide (keyA f.key = t.src)
    let fromOrig := fromA == f.origA
    let tcp := t.proto == 6
    if tcp && tcpInvalid f.st fromOrig t.flags then
      (flowAction (fld (profWord w f.profile 0) 22 2) 10, flowResult (f.st + 64 + 32 * b2n (!fromOrig)) f.mark k, countF g 13 1 s)
    else
      let (st, finA, reuse) := nextState tcp f.st fromOrig fromA t.flags f.finA
      let f0 := if reuse then reused (now32 s) fromA f else f
      let f1 := { f0 with
        st := st, finA := finA, lastSeen := now32 s
        pktsAB := f0.pktsAB + b2n fromA, bytesAB := f0.bytesAB + (if fromA then n else 0)
        pktsBA := f0.pktsBA + b2n (!fromA), bytesBA := f0.bytesBA + (if fromA then 0 else n) }
      let s := flowPut f1 s
      let changed := st != f.st || reuse
      let s := if changed then changePeer f.peer st (finA != f.finA) reuse t (flowDelta 0 f1 s) else s
      let (k, nat) := natPacket w f1 t k
      (.pass, flowResult (st + 32 * b2n ((fromA == f1.origA) == false) + 64 + 128 * b2n nat) f1.mark k, s)

/-! ## Creation and source NAT (R253, R254, R260, R261) -/

def blankFlow (key : Bytes) (now : Nat) : Flow :=
  { index := 0, key := key, natReply := false, drop := false, origA := true, st := 0, profile := 0, region := 0, peer := 0xFFFFFFFF
    natAddr := 0, natPort := 0, mark := 0, created := now, lastSeen := now, timeout := 0, pktsAB := 0, bytesAB := 0, pktsBA := 0
    bytesBA := 0, twin := (0, 0, 0, 0), saved := (0, 0, 0, 0, now), finA := none, own := true, dirty := false }

/-- Insertion of an entry; none when it fails (R245). -/
def flowInsert (f : Flow) (s : State) : Option (State × Nat) :=
  match flowPlace f.key s with
  | none => none
  | some (s, i) => some (flowLoadEvents (storeWritten i (flowMod (fun x => { x with entries := x.entries ++ [{ f with index := i }] }) s)), i)

/-- The reply key of a binding. -/
def replyKey (addr port : Nat) (t : Tuple) : Bytes := flowKey (addr4 addr, port) t.dst t.proto false t.zone

/-- The first free port of this package's parity, in at most `n` tries from `p` on (R260). -/
def natPick (s : State) (addr lo hi : Nat) (t : Tuple) : Nat → Nat → Option Nat
  | 0, _ => none
  | n + 1, p =>
    if p % 2 == s.flash.package && (flowFind s (replyKey addr p t)).isNone then some p
    else natPick s addr lo hi t n (if p == hi then lo else p + 1)

/-- At most once per second: the count of the last second and whether an event is due. -/
def perSecond (times : Tab (List Nat)) (raised : Tab Nat) (k : Nat) (s : State) : Nat × Tab (List Nat) × Tab Nat × Bool :=
  let l := lastSecond s (tgetD times k [])
  let due := secondPassed s (tget raised k)
  (l.length, tput times k l, if due then tput raised k s.time.up else raised, due)

def natExhausted (g pool : Nat) (key : Bytes) (s : State) : State :=
  let (n, c, r, due) := perSecond s.flow.natFail s.flow.natRaised pool s
  let s := countF g 5 1 (flowMod (fun f => { f with natFail := c, natRaised := r }) s)
  if due then raise 0x1403 (lookupPlace (flowEngine s key)) [pool, n] s else s

/-- Does a profile translate this packet? -/
def wantsNat (w : Tab Word) (prof : Nat) (t : Tuple) : Bool :=
  bit (profWord w prof 0) 30 && !t.v6 && (t.proto == 6 || t.proto == 17)

/-- Both entries of a binding: the original with the translated source, the reply with the original one (R261). The place of the original is
the one it has once the reply is in. -/
def insertPair (f : Flow) (t : Tuple) (addr port : Nat) (s : State) : Option (State × Nat) :=
  match flowInsert { f with natAddr := addr, natPort := port } s with
  | none => none
  | some (s1, i) =>
    let rk := replyKey addr port t
    let r := { blankFlow rk f.created with
      natReply := true, origA := decide (keyA rk = (addr4 addr, port)), st := f.st, profile := f.profile, region := f.region
      natAddr := ofBe (t.src.1.take 4), natPort := t.src.2, own := f.own }
    match flowInsert r s1 with
    | none => none
    | some (s2, j) =>
      let i := match flowFind s2 f.key with | some e => e.index | none => i
      some (flowMod (fun x => { x with entries := x.entries.map fun e =>
        if e.index == i then { e with peer := j } else if e.index == j then { e with peer := i } else e }) s2, i)

/-- Creation by a packet, in the bank of the current epoch (R253, R269): the entry, or why it failed: full or exhausted. -/
def flowCreate (g prof : Nat) (t : Tuple) (ent st : Nat) (s : State) : Option (State × Nat) × State :=
  let w := curWords s
  let key := t.key
  let f := { blankFlow key (now32 s) with st := st, profile := prof, region := g, origA := decide (keyA key = t.src) }
  if !wantsNat w prof t then (flowInsert f s, s)
  else
    let pool := fld (profWord w prof 0) 24 6
    let (base, count, lo, hi) := poolOf w pool
    let addr := (base + ent % count) % 2 ^ 32
    match natPick s addr lo hi t 16 (lo + ent / 256 % (hi - lo + 1)) with
    | none => (none, natExhausted g pool key s)
    | some port => (insertPair f t addr port s, s)

/-! ## A request served (R238, R249-R254) -/

/-- The packet that created an entry: it misses, and no counter of the entry counts it (R253); a binding rewrites it, and both entries are
queued for the twin (R248, R261). -/
def flowNew (w : Tab Word) (g : Nat) (t : Tuple) (k : Packet) (s : State) : Verdict × Packet × State :=
  match flowFind s t.key with
  | none => (.pass, flowResult 0 0 k, s)
  | some f =>
    let s := touch g f.index s
    let s := (pairOf s f.index).foldl (fun s i => match flowAt s i with | some e => flowDelta 0 e s | none => s) s
    let (k, nat) := natPacket w f t k
    (.pass, flowResult (f.st + 16 + 128 * b2n nat) f.mark k, s)

/-- A lookup that misses: miss_action, or creation (R253, R254, R256). What the flow unit does with the packet follows its stamped epoch
`w`, what the engine does the current one (R269). -/
def flowMiss (w : Tab Word) (g op prof : Nat) (t : Tuple) (k : Packet) (s : State) : Verdict × Packet × State :=
  let cfg := profWord w prof 0
  let gone := flowResult 0 0 k
  if op != 2 then (flowAction (fld cfg 18 2) 8, gone, countF g 14 1 s)
  else match firstState (t.proto == 6) (bit (profWord (curWords s) prof 0) 16) t.flags with
    | none => (flowAction (fld cfg 22 2) 10, gone, s)
    | some st => match flowCreate g prof t (entropy k) st s with
      | (none, s) => (flowAction (fld cfg 20 2) 9, gone, countF g 4 1 s)
      | (some (s, _), _) => flowNew w g t k (countF g 3 1 s)

/-- Service of a request whose entry, if any, is at hand. -/
def flowServe (w : Tab Word) (g n op prof : Nat) (t : Tuple) (k : Packet) (s : State) : Verdict × Packet × State :=
  match flowFind s t.key with
  | some f => let s := touch g f.index s; flowHit w n t ((flowAt s f.index).getD f) k g s
  | none => flowMiss w g op prof t k s

end Sys2Proof.Machine
end

