-- ==== Sys2Proof/Machine/Csum.lean ====
section
/-! DEFINITION. Where a frame's outermost IP header and its TCP or UDP header lie, as the fixed front end recognises them, and the checksum
offload on them (R98, R99, R116). -/

namespace Sys2Proof.Machine

/-- Is the value at the first tag's place a TPID of the port (R116)? -/
def isTpid (tO tI v : Nat) : Bool := v == tO || v == tI

/-- Tags in front of the EtherType, up to two (R116). -/
def tagCount (tO tI : Nat) (b : Bytes) : Nat :=
  if !isTpid tO tI (rdN b 12 2) then 0 else if !isTpid tO tI (rdN b 16 2) then 1 else 2

/-- An outermost IP header of a frame as its bytes describe it: its offset, header length as far as the L4 header, protocol, bytes of L4 payload that the IP length
gives, and whether it is a fragment. -/
structure IpAt where
  v6 : Bool
  at_ : Nat
  l4 : Nat
  proto : Nat
  len : Nat
  frag : Bool
  deriving DecidableEq, Repr

/-- IPv6 extension headers, at most `n` of them: next header, offset, fragment seen. -/
def skipExt (b : Bytes) : Nat → Nat → Nat → Bool → Nat × Nat × Bool
  | 0, nh, o, f => (nh, o, f)
  | n + 1, nh, o, f =>
    if nh == 44 then skipExt b n (rdN b o 1) (o + 8) (f || rdN b (o + 2) 2 / 8 != 0 || bit (rdN b (o + 2) 2) 0)
    else if nh == 0 || nh == 43 || nh == 60 then skipExt b n (rdN b o 1) (o + 8 * (rdN b (o + 1) 1 + 1)) f
    else (nh, o, f)

/-- The outermost IP header, where there is one. -/
def findIp (tO tI : Nat) (b : Bytes) : Option IpAt :=
  let o := 14 + 4 * tagCount tO tI b
  match rdN b (o - 2) 2 with
  | 0x0800 =>
    let ihl := 4 * fld (rdN b o 1) 0 4
    if fld (rdN b o 1) 4 4 == 4 && o + 20 ≤ b.length then
      some { v6 := false, at_ := o, l4 := o + ihl, proto := rdN b (o + 9) 1, len := rdN b (o + 2) 2 - ihl
             frag := fld (rdN b (o + 6) 2) 0 14 != 0 }
    else none
  | 0x86DD =>
    if fld (rdN b o 1) 4 4 == 6 && o + 40 ≤ b.length then
      let (nh, l, f) := skipExt b 2 (rdN b (o + 6) 1) (o + 40) false
      some { v6 := true, at_ := o, l4 := l, proto := nh, len := rdN b (o + 4) 2 + o + 40 - l, frag := f }
    else none
  | _ => none

/-- The recognised headers of a frame as its bytes describe them now. -/
def ipOf (b : Bytes) (f : FrontAt) : IpAt :=
  let hl := if f.v6 then 40 else 4 * fld (rdN b f.ip 1) 0 4
  let l4 := if f.v6 then f.l4.getD (f.ip + hl) else f.ip + hl
  { v6 := f.v6, at_ := f.ip, l4 := l4, proto := if f.l4.isNone then 0 else if f.udp then 17 else 6
    len := if f.v6 then rdN b (f.ip + 4) 2 + f.ip + 40 - l4 else rdN b (f.ip + 2) 2 - hl, frag := f.frag }

/-- Does an IPv4 header have a length that the frame can hold (R98)? -/
def ipLenOk (b : Bytes) (x : IpAt) : Bool :=
  x.v6 || (decide (x.at_ + 20 ≤ x.l4) && decide (x.l4 - x.at_ ≤ rdN b (x.at_ + 2) 2) && decide (x.l4 ≤ b.length))

/-- Length of the L4 segment: the UDP length field, or what IP leaves. -/
def l4Len (b : Bytes) (x : IpAt) : Nat := if x.proto == 17 then rdN b (x.l4 + 4) 2 else x.len

/-- Is there a whole TCP or UDP segment whose checksum the offload handles? -/
def l4Ok (b : Bytes) (x : IpAt) : Bool :=
  !x.frag && ((x.proto == 6 && decide (20 ≤ l4Len b x)) || (x.proto == 17 && decide (8 ≤ l4Len b x))) &&
  decide (x.l4 + l4Len b x ≤ b.length)

/-- Offset of the L4 checksum field. -/
def sumAt (x : IpAt) : Nat := x.l4 + (if x.proto == 6 then 16 else 6)

/-- Sum of the pseudo header. -/
def pseudo (b : Bytes) (x : IpAt) : Nat :=
  sum16 (if x.v6 then slice b (x.at_ + 8) 32 else slice b (x.at_ + 12) 8) + x.proto + l4Len b x

/-- The L4 checksum, its own field taken as zero. -/
def l4Sum (b : Bytes) (x : IpAt) : Nat := inetSum (pseudo b x) (slice (splice b (sumAt x) [0, 0]) x.l4 (l4Len b x))

/-- The IPv4 header checksum. -/
def ipSum (b : Bytes) (at_ hl : Nat) : Nat := inetSum 0 (slice (splice b (at_ + 10) [0, 0]) at_ hl)

/-- Verification on receive (R99) of the headers that the front end recognises: 0 not checked, 1 good, 2 bad. -/
def csumVerify (f : Option FrontAt) (b : Bytes) : Nat :=
  match f.map (ipOf b) with
  | none => 0
  | some x =>
    if !ipLenOk b x then 0
    else
      let ip := !x.v6 && fold16 (sum16 (slice b x.at_ (x.l4 - x.at_))) != 0xFFFF
      let has := l4Ok b x && !(x.proto == 17 && !x.v6 && rdN b (sumAt x) 2 == 0)
      let l4 := has && fold16 (pseudo b x + sum16 (slice b x.l4 (l4Len b x))) != 0xFFFF
      if ip || l4 then 2 else if has || !x.v6 then 1 else 0

/-- Fill on transmit (R98) of the headers that the front end recognised, at their places in the frame: the frame, and whether it was left
unchanged for a bad length. -/
def csumFill (f : Option FrontAt) (b : Bytes) : Bytes × Bool :=
  match f.map (ipOf b) with
  | none => (b, false)
  | some x =>
    if !ipLenOk b x then (b, true)
    else if !x.frag && (x.proto == 6 || x.proto == 17) && !l4Ok b x then (b, true)
    else
      let b := if x.v6 then b else splice b (x.at_ + 10) (be 2 (ipSum b x.at_ (x.l4 - x.at_)))
      if l4Ok b x && !(x.proto == 17 && !x.v6 && rdN b (sumAt x) 2 == 0) then
        let c := l4Sum b x
        (splice b (sumAt x) (be 2 (if c == 0 && x.proto == 17 then 0xFFFF else c)), false)
      else (b, false)

end Sys2Proof.Machine
end

