-- ==== Sys2Proof/Machine/Parse.lean ====
section
/-! DEFINITION. Parsing: the fixed front end with its exits and triggers, and the parse graph (R114-R124, R148). -/

namespace Sys2Proof.Machine

/-! ## The fixed front end (R115-R119) -/

/-- How the front end ends: at an exit or a trigger's node, with the position and exit value, without either, or with a parse error. -/
inductive FeEnd where
  | exit (e pos val : Nat)
  | node (n pos val : Nat)
  | done
  | err
  deriving DecidableEq, Repr

/-- A fragment that the front end recognises (R148): its table key, offset in units of 8 bytes, and the protocol or the next header that
follows its Fragment header. -/
structure Frag where
  key : Bytes
  off : Nat
  nh : Nat
  deriving DecidableEq, Repr

/-- Where the L4 header stands: its position, protocol or next-header value, and the end of the IP packet. -/
structure L4At where
  v6 : Bool
  pos : Nat
  nh : Nat
  ipEnd : Nat
  frag : Option Frag
  deriving DecidableEq, Repr

/-- How the front end stops before an L4 header: its end, the last next-header value read, and, for a fragment, where it stopped. -/
structure FeStop where
  e : FeEnd
  nh : Nat
  frag : Option L4At
  deriving DecidableEq, Repr

/-- A stop that no fragment is concerned with. -/
def stopAt (e : FeEnd) : FeStop := { e := e, nh := 0, frag := none }

def addSlot (i o len : Nat) (k : Packet) : Packet := { k with slots := tput k.slots i (o, slice k.bytes o len) }

/-- The trigger that matches a value of a kind: 1 EtherType, 2 IPv4 protocol, 3 IPv6 next header (R118). -/
def trig (w : Tab Word) (kind v : Nat) : Option Nat :=
  (List.range 8).findSome? fun n =>
    let r := bankWord w (tblBase + 0x240 + 4 * n)
    if fld r 16 2 == kind && fld r 0 16 == v then some (fld r 24 8) else none

/-- An IPv4 header at `o`. -/
def frontIp4 (o : Nat) (k : Packet) : Packet × (FeStop ⊕ L4At) :=
  let b := k.bytes
  let ihl := 4 * fld (rdN b o 1) 0 4
  let tot := rdN b (o + 2) 2
  if b.length < o + 20 || fld (rdN b o 1) 4 4 != 4 || ihl < 20 || b.length < o + ihl || tot < ihl then (k, .inl (stopAt .err))
  else
    let f := rdN b (o + 6) 2
    let nh := rdN b (o + 9) 1
    let frag := if bit f 13 || fld f 0 13 != 0 then
        some { key := [4] ++ slice b (o + 12) 8 ++ [byte nh] ++ slice b (o + 4) 2, off := fld f 0 13, nh := nh }
      else none
    (addSlot 3 o ihl k, .inr { v6 := false, pos := o + ihl, nh := nh, ipEnd := o + tot, frag := frag })

def isExtHeader (nh : Nat) : Bool := nh == 0 || nh == 43 || nh == 44 || nh == 60

/-- Extension headers of an IPv6 packet, at most two of them recorded in slots 5 and 6 (R116-R118, R123). `n` headers may still come. -/
def frontExt (w : Tab Word) (ip ipEnd : Nat) : Nat → Nat → Nat → Option Frag → Packet → Packet × (FeStop ⊕ L4At)
  | 0, nh, pos, frag, k => (k, .inr { v6 := true, pos := pos, nh := nh, ipEnd := ipEnd, frag := frag })
  | n + 1, nh, pos, frag, k =>
    if !isExtHeader nh then (k, .inr { v6 := true, pos := pos, nh := nh, ipEnd := ipEnd, frag := frag })
    else
      let stop := fun (e : FeEnd) =>
        { e := e, nh := nh, frag := frag.map fun f => { v6 := true, pos := pos, nh := nh, ipEnd := ipEnd, frag := some f } : FeStop }
      match trig w 3 nh with
      | some node => (k, .inl (stop (.node node pos nh)))
      | none =>
        let b := k.bytes
        let len := if nh == 44 then 8 else 8 * (rdN b (pos + 1) 1 + 1)
        if b.length < pos + 2 || b.length < pos + len then (k, .inl (stop .err))
        else if 256 < pos + min len 64 then (k, .inl (stop (.exit 5 pos nh)))
        else
          let k := addSlot (6 - n) pos (min len 64) k
          let nh' := rdN b pos 1
          let f := rdN b (pos + 2) 2
          if nh == 44 && (f / 8 != 0 || bit f 0) then
            let fr : Frag := { key := [6] ++ slice b (ip + 8) 32 ++ [byte nh'] ++ slice b (pos + 4) 4, off := f / 8, nh := nh' }
            if f / 8 != 0 then (k, .inr { v6 := true, pos := pos + 8, nh := nh', ipEnd := ipEnd, frag := some fr })
            else frontExt w ip ipEnd n nh' (pos + 8) (some fr) k
          else frontExt w ip ipEnd n nh' (pos + len) frag k

/-- Ethernet, tags and IP (R116). -/
def frontIp (w : Tab Word) (tO tI : Nat) (k : Packet) : Packet × (FeStop ⊕ L4At) :=
  let b := k.bytes
  let n := tagCount tO tI b
  let pos := 14 + 4 * n
  if b.length < 14 then (k, .inl (stopAt .err))
  else
    let k := addSlot 0 0 14 k
    let k := ((List.range n).filter fun i => decide (16 + 4 * i ≤ b.length)).foldl (fun k i => addSlot (i + 1) (12 + 4 * i) 4 k) k
    if b.length < pos then (k, .inl (stopAt .err))
    else
      let etype := rdN b (pos - 2) 2
      match trig w 1 etype with
      | some node => (k, .inl (stopAt (.node node pos etype)))
      | none =>
        if n == 2 && isTpid tO tI etype then (k, .inl (stopAt (.exit 0 pos etype)))
        else if etype == 0x0800 then frontIp4 pos k
        else if etype == 0x86DD then
          (if b.length < pos + 40 || fld (rdN b pos 1) 4 4 != 6 then (k, .inl (stopAt .err))
           else frontExt w pos (pos + 40 + rdN b (pos + 4) 2) 2 (rdN b (pos + 6) 1) (pos + 40) none (addSlot 4 pos 40 k))
        else (k, .inl (stopAt (.exit 0 pos etype)))

/-- Is the packet a later fragment? -/
def isLater (x : L4At) : Bool := match x.frag with | some f => f.off != 0 | none => false

/-- The length of the TCP or UDP header at a position; none when it is bad or extends beyond the frame (R119). -/
def l4Header (b : Bytes) (pos nh : Nat) : Option Nat :=
  if nh == 17 then (if pos + 8 ≤ b.length then some 8 else none)
  else
    let len := 4 * fld (rdN b (pos + 12) 1) 4 4
    if b.length < pos + 13 || len < 20 || b.length < pos + len then none else some len

/-- TCP, UDP and the exits after IP (R117). A later fragment takes its L4 slot from the fragment table (R150) and carries no L4 header of
its own: behind it parsing ends at none of the exits after TCP and UDP (R117 names none for it: DESIGN CHOICE, assumption 56). Flag [2] keeps
its value in a recirculated packet (R166). -/
def frontL4 (w : Tab Word) (x : L4At) (k : Packet) : Packet × FeEnd :=
  let b := k.bytes
  let k := if isLater x then
      let k := if k.frag == 3 then k else mdFlagSet k 2
      match k.fragL4 with
      | some l => if x.nh == 6 then { k with slots := tput k.slots 7 (x.pos, l.take 16) }
        else if x.nh == 17 then { k with slots := tput k.slots 8 (x.pos, l.take 8) } else k
      | none => k
    else k
  match trig w (if x.v6 then 3 else 2) x.nh with
  | some node => (k, .node node x.pos x.nh)
  | none =>
    if x.nh != 6 && x.nh != 17 then (if !x.v6 && isLater x then (k, .done) else (k, .exit (if x.v6 then 2 else 1) x.pos x.nh))
    else if isLater x then (k, .done)
    else
      match l4Header b x.pos x.nh with
      | none => (k, .err)
      | some len =>
        if 256 < x.pos + len then (k, .exit 5 x.pos x.nh)
        else (addSlot (if x.nh == 6 then 7 else 8) x.pos len k, .exit (if x.nh == 6 then 3 else 4) (x.pos + len) (rdN b (x.pos + 2) 2))

/-- The headers that the front end recognises in a frame: its outermost IP header, and the TCP or UDP header behind it unless a trigger
takes that over or it lies beyond the window (R98, R116-R118). An IPv4 header of a bad length counts as recognised, so that its frame is
sent unchanged and counted (R98). -/
def frontAt (w : Tab Word) (tO tI : Nat) (b : Bytes) : Option FrontAt :=
  let o := 14 + 4 * tagCount tO tI b
  match frontIp w tO tI { bytes := b, inPort := 0, epoch := 0, prio := 0, md := [] } with
  | (_, .inr x) =>
    let deep := match l4Header b x.pos x.nh with | some n => decide (256 < x.pos + n) | none => false
    let l4 := (trig w (if x.v6 then 3 else 2) x.nh).isNone && (x.nh == 6 || x.nh == 17) && !isLater x && !deep
    some { v6 := x.v6, ip := o, l4 := if l4 then some x.pos else none, udp := x.nh == 17, frag := x.frag.isSome }
  | (k, .inl x) =>
    if (hdrOf k 4).isSome then some { v6 := true, ip := o, l4 := none, udp := false, frag := x.frag.isSome }
    else if x.e == .err && rdN b (o - 2) 2 == 0x0800 && o + 20 ≤ b.length then
      some { v6 := false, ip := o, l4 := none, udp := false, frag := fld (rdN b (o + 6) 2) 0 14 != 0 }
    else none

/-! ## The parse graph (R120-R124) -/

/-- How the parsing of a pass ends. -/
inductive PEnd where
  | done
  | err
  /-- By the window or the visit limit, at a node and header start (R123). -/
  | forced (node start : Nat)
  | exc (reason : Nat)
  deriving DecidableEq, Repr

/-- The need of a node at a header start (R123). -/
def nodeNeed (w : Tab Word) (n start : Nat) : Nat :=
  let b := nodeByte w n
  start + max (b 1) (max (if bit (b 3) 3 then 0 else b 2 + fld (b 3) 0 3) (if bit (b 4) 0 then b 6 + 2 else 0))

/-- The select field of a node; none when it selects nothing (R121). -/
def nodeSelect (w : Tab Word) (n start : Nat) (k : Packet) : Option Nat :=
  let b := nodeByte w n
  let len := fld (b 3) 0 3
  if len == 0 then none
  else if bit (b 3) 3 then some (if len == 2 then rd k.md 8 2 else rd k.md 8 1)
  else some (rdN k.bytes (start + b 2) len)

/-- The action a node takes (R121). -/
def nodeAction (w : Tab Word) (n start : Nat) (k : Packet) : Nat :=
  let valid := nodeLe w n 10 2
  match nodeSelect w n start k with
  | none => nodeLe w n 8 2
  | some v =>
    match (List.range 16).find? fun i => bit valid i &&
        and32 v (nodeLe w n (20 + 10 * i) 4) == and32 (nodeLe w n (16 + 10 * i) 4) (nodeLe w n (20 + 10 * i) 4) with
    | some i => nodeLe w n (24 + 10 * i) 2
    | none => nodeLe w n 8 2

/-- The advance of a node (R122). -/
def nodeAdvance (w : Tab Word) (n start : Nat) (k : Packet) : Nat :=
  let b := nodeByte w n
  b 5 + if bit (b 4) 0 then rdN k.bytes (start + b 6) 2 / 2 ^ fld (b 7) 0 4 % 2 ^ (fld (b 7) 4 4 + 1) * 2 ^ fld (b 4) 2 2 else 0

/-- The graph from a node, with the visits left in the pass (R121-R124). -/
def graph (w : Tab Word) (base : Nat) : Nat → Nat → Nat → Packet → Packet × PEnd
  | 0, n, start, k => (k, if k.bytes.length < nodeNeed w n start then .err else .forced n start)
  | v + 1, n, start, k =>
    let need := nodeNeed w n start
    if k.bytes.length < need then (k, .err)
    else if base + 256 < need then (k, .forced n start)
    else
      let k := if nodeByte w n 0 == 255 then k else addSlot (nodeByte w n 0) start (nodeByte w n 1) k
      let a := nodeAction w n start k
      match fld a 8 2 with
      | 0 => graph w base v (fld a 0 8) (start + nodeAdvance w n start k) k
      | 1 => (k, .done)
      | _ => (k, .exc (fld a 10 6))

/-- From the front end's end into the graph: the exit value, and the entry node of an exit or the trigger's node (R117, R118). -/
def enterGraph (w : Tab Word) (x : FeEnd) (k : Packet) : Packet × PEnd :=
  match x with
  | .done => (k, .done)
  | .err => (k, .err)
  | .node n pos val => graph w 0 16 n pos (mdSet k 8 (le 2 val))
  | .exit e pos val =>
    let k := mdSet k 8 (le 2 val)
    let r := bankWord w (tblBase + 0x220 + 4 * e)
    if bit r 8 then graph w 0 16 (fld r 0 8) pos k else (k, .done)

end Sys2Proof.Machine
end

