-- ==== Sys2Proof/Machine/Pipeline.lean ====
section
/-! DEFINITION. A packet's pass through its pipeline cluster: which packet a cluster takes, fragments, stages, the flow unit, and what the end
of the pass does (R21, R22, R63, R119-R127, R148-R153, R163-R168, R230, R238, R249). -/

namespace Sys2Proof.Machine

/-! ## Which cluster takes a port's packets (R21, R22) -/

/-- Does pipeline cluster `n` of region `g` run: in service, P4 only while it stands in, and no graft of it under way? -/
def pipeRuns (s : State) (g n : Nat) : Bool :=
  let cl := clusterPlace (gDie g) (gReg g) n
  let l := ledger s cl
  !outOfService s cl && regionUp s (gDie g) (gReg g) && !grafting s cl &&
  (decide (n < 4) || (l.state != .free && l.state != .failed && l.standsFor != 0))

/-- The cluster of a port: its own, P4 in its place, or by steering one of the k that run. -/
def portPipe (s : State) (p : Nat) : Option Nat :=
  let g := portG p
  let c := pCluster (carrierOf s (clusterPlace (gDie g) (gReg g) (p % 64 / 16)))
  if pipeRuns s g c then some c
  else
    let l := (List.range 5).filter (pipeRuns s g)
    l[p % 16 % l.length]?

/-- The parse unit at which a recirculated packet waits. -/
def againKey (s : State) (k : Packet) : Nat := 5 * pktG k + (portPipe s (pktPort k)).getD (pktPort k % 64 / 16)

/-- A packet returns to its parse unit for an extra pass (R63, R125). -/
def passAgain (k : Packet) (s : State) : State :=
  { s with buf := { s.buf with again := s.buf.again ++ [(againKey s k, { k with extra := k.extra + 1 })] } }

/-- A packet whose front end will run again from the start, with slots cleared (R64, R166). One that has used both extra passes keeps
what it has recorded, for it is not parsed again (R126). -/
def afresh (k : Packet) : Packet := if 2 ≤ k.extra then k else { k with slots := [], base := 0, resume := none, fragL4 := none }

/-- Entry `n` of a list taken out. -/
def dropNth {α : Type} (l : List α) (n : Nat) : List α := l.take n ++ l.drop (n + 1)

/-- The packet that cluster `n` of region `g` takes next: a recirculated one, else the oldest of its ports and host queue pairs
(R63, R333). -/
def takePacket (g n : Nat) (s : State) : Option (Packet × State) :=
  let mine := fun (e : Nat × Packet) => e.1 / 5 == g && (e.1 % 5 == n || (!pipeRuns s g (e.1 % 5) && portPipe s (pktPort e.2) == some n))
  let fresh := fun (k : Packet) => pktG k == g && portPipe s (pktPort k) == some n
  match s.buf.again.findIdx? mine with
  | some i => (s.buf.again[i]?).map fun e => (e.2, { s with buf := { s.buf with again := dropNth s.buf.again i } })
  | none =>
    match s.buf.fresh.findIdx? fresh with
    | some i => (s.buf.fresh[i]?).map fun k => (k, { s with buf := { s.buf with fresh := dropNth s.buf.fresh i } })
    | none => none

/-! ## Fragments (R148-R154) -/

def fragGet (s : State) (g : Nat) (key : Bytes) : Option FragEntry := s.tbl.frags.find? fun f => f.region == g && f.key == key

def fragDel (g : Nat) (key : Bytes) (s : State) : State :=
  { s with tbl := { s.tbl with frags := s.tbl.frags.filter fun f => !(f.region == g && f.key == key) } }

def fragPut (f : FragEntry) (s : State) : State :=
  let set := fun (x : FragEntry) => if x.region == f.region && x.key == f.key then f else x
  let l := if (fragGet s f.region f.key).isSome then s.tbl.frags.map set else s.tbl.frags ++ [f]
  { s with tbl := { s.tbl with frags := l } }

/-- A free way in the set of a key: four, less the memory banks out of service. -/
def fragRoom (s : State) (g : Nat) (key : Bytes) : Bool :=
  decide ((s.tbl.frags.filter fun f => f.region == g && Config.fragSet f.key == Config.fragSet key).length + banksOut s (l0Place g 115) < 4)

/-- A fragment is refused for want of room (R154). -/
def fragRefused (g : Nat) (s : State) : State :=
  let (n, c, r, due) := perSecond s.tbl.fragFull s.tbl.fragRaised g s
  let s := { s with tbl := { s.tbl with fragFull := c, fragRaised := r } }
  if due then raise 0x0806 (l0Place g 115) [g, n] s else s

def newFrag (g : Nat) (key : Bytes) (st : Nat) (s : State) : FragEntry :=
  { region := g, key := key, st := st, l4 := [], drop := false, held := [], touched := nowUs s }

/-- How the fragment table leaves a packet. -/
inductive FragEnd where
  | go (k : Packet) (s : State)
  | stop (s : State)

/-- Is a fragment tiny or overlapping (R152)? -/
def fragTiny (x : L4At) (f : Frag) (n : Nat) : Bool :=
  let avail := min x.ipEnd n - x.pos
  (f.off == 0 && ((x.nh == 17 && decide (avail < 8)) || (x.nh == 6 && decide (avail < 20)))) || (!x.v6 && x.nh == 6 && f.off == 1)

/-- A fragment meets the fragment table of its region (R149-R152). Three points that no rule settles are the model's (DESIGN CHOICE,
assumption 56): a tiny fragment that has no entry and finds no free way is sent to the exception path without an entry; TBL_FRAG_FULL
(R154) counts as refused a ninth held fragment, a later fragment without a free way and a first fragment without one, and no tiny
fragment; the first 16 bytes of an L4 header that the front end did not reach are those where it stopped. -/
def fragStep (g : Nat) (x : L4At) (f : Frag) (k : Packet) (s : State) : FragEnd :=
  let s := if k.frag != 0 then s else countR g (if f.off == 0 then 39 else 40) 1 s
  let k := { k with frag := 2 }
  let old := fragGet s g f.key
  if fragTiny x f k.bytes.length then
    let s := match old with
      | some e => fragPut { e with st := 2, touched := nowUs s } s
      | none => if fragRoom s g f.key then fragPut (newFrag g f.key 2 s) s else s
    .stop (toException 4 k (countR g 44 1 s))
  else if f.off == 0 then
    match old with
    | some e => .go { k with fragKey := some f.key } (fragPut { e with st := 0, l4 := slice k.bytes x.pos 16, touched := nowUs s } s)
    | none =>
      if fragRoom s g f.key then
        .go { k with fragKey := some f.key } (fragPut { newFrag g f.key 0 s with l4 := slice k.bytes x.pos 16 } s)
      else .go k (fragRefused g (countR g 43 1 s))
  else
    match old with
    | none =>
      if fragRoom s g f.key then .stop (fragPut { newFrag g f.key 0 s with held := [(k, nowUs s)] } (countR g 41 1 s))
      else .stop (toException 3 k (fragRefused g (countR g 42 1 s)))
    | some e =>
      let e := { e with touched := nowUs s }
      if e.st == 1 then (if e.drop then .stop (releasePacket k (fragPut e s)) else .go { k with fragL4 := some e.l4 } (fragPut e s))
      else if e.st == 2 then .stop (toException 3 k (fragPut e s))
      else if e.held.length < 8 then .stop (fragPut { e with held := e.held ++ [(k, nowUs s)] } (countR g 41 1 s))
      else .stop (toException 3 k (fragRefused g (countR g 42 1 (fragPut e s))))

/-- The program of a first fragment has completed: its entry is RESOLVED, held fragments re-enter in arrival order (R149, R151). -/
def fragResolve (g : Nat) (k : Packet) (dropped : Bool) (s : State) : State :=
  match k.fragKey with
  | none => s
  | some key =>
    match fragGet s g key with
    | none => s
    | some e =>
      let s := fragPut { e with st := 1, drop := dropped, held := [] } (countR g 46 1 s)
      e.held.foldl (fun s h => passAgain { afresh h.1 with frag := 1 } s) s

/-! ## The end of a pass (R64, R163-R168, R230) -/

/-- Work for the crypto cluster of a packet's region (R230); none of whose units serves, it drops (R28). -/
def cryptoQueue (j : CryptJob) (s : State) : State :=
  let g := pktG j.pkt
  let l := tgetD s.cry.inputs g []
  if 512 ≤ l.length || cryUnits s g == 0 then releasePacket j.pkt (countC g 19 1 s)
  else { s with cry := { s.cry with inputs := tput s.cry.inputs g (l ++ [j]) } }

/-- Was the packet taken from a queue pair? (`inPort` is then 1,024 + host link.) -/
def fromHost (k : Packet) : Bool := decide (1024 ≤ k.inPort) && decide (k.inPort < 1028)

/-- RECIRC (R166). -/
def recirculate (k : Packet) (s : State) : State :=
  let g := pktG k
  if 2 ≤ k.extra then toException 6 k (countA g 6 1 s) else passAgain { afresh k with frag := 3 } (countA g 7 1 s)

/-- A packet leaves the pipeline under its disposition. -/
def dispose (k : Packet) (f : Option Fwd) (s : State) : State :=
  match f with
  | none => releasePacket k (countA (pktG k) 2 1 s)
  | some .recirc => recirculate k s
  | some f => forwardPacket (gDie (pktG k)) k f s

/-- The end of a pass: crypto cluster, parse unit or buffer (R165). -/
def finishPass (k : Packet) (f : Option Fwd) (c : Option (Bool × Bool × Nat)) (s : State) : State :=
  match c with
  | some (true, tls, i) =>
    let link := match f with | some (.host l _ _ _) => l | _ => 0
    cryptoQueue { pkt := k, decrypt := true, tls := tls, index := i, link := link, fwd := none } s
  | some (false, tls, i) =>
    if f.isNone then dispose k f s
    else cryptoQueue { pkt := k, decrypt := false, tls := tls, index := i, link := k.inPort - 1024, fwd := f } s
  | none => dispose k f s

/-- What follows the flow unit's verdict. -/
def afterFlow (v : Verdict) (k : Packet) (f : Option Fwd) (c : Option (Bool × Bool × Nat)) (s : State) : State :=
  match v with
  | .pass => finishPass k f c s
  | .drop => releasePacket k s
  | .exc n => toException n k s

/-- A packet finds the miss queue full (R249). -/
def missOverflow (g : Nat) (k : Packet) (s : State) : State :=
  let (n, c, r, due) := perSecond s.flow.missOver s.flow.missRaised g s
  let s := countF g 6 1 (flowMod (fun f => { f with missOver := c, missRaised := r }) s)
  toException 11 k (if due then raise 0x1402 (l0Place g 116) [g, n] s else s)

/-- The flow unit acts on a request: a hit is served at once, a miss is parked (R238, R239, R249). `n` is the length at the start of the pass
and `t` what the unit reads of the packet before its edits. -/
def flowUnit (w : Tab Word) (g n : Nat) (t : Option Tuple) (k : Packet) (f : Option Fwd) (c : Option (Bool × Bool × Nat)) (s : State) :
    State :=
  let op := fld (rd k.md 31 1) 0 2
  let prof := fld (rd k.md 31 1) 4 4
  match t with
  | none => finishPass k f c (countF g 9 1 s)
  | some t =>
    let s := countF g 0 1 s
    let q := tgetD s.flow.miss g []
    let waits := q.any fun x => x.key == t.key
    let here := match flowFind s t.key with | some e => holderOf s e.index == some g | none => false
    if here && !waits then
      let (v, k, s) := flowServe w g n op prof t k (countF g 1 1 s)
      afterFlow v k f c s
    else
      let s := countF g 2 1 s
      if 4096 ≤ q.length then missOverflow g k s
      else
        let x : Parked := { key := t.key, op := op, profile := prof, fromA := decide (keyA t.key = t.src), flags := t.flags, len := n
                            pkt := k, fwd := f, crypt := c }
        flowMod (fun y => { y with miss := tput y.miss g (q ++ [x]) }) s

/-- A TLS encrypt of a packet from no queue pair, or a TLS decrypt without FWD_HOST, is an action fault (R225). -/
def tlsFault (x : Pass) : Bool :=
  match x.crypt with
  | some (false, true, _) => !fromHost x.k
  | some (true, true, _) => (match x.fwd with | some (.host ..) => false | _ => true)
  | _ => false

/-- A pass whose stages have run (R163, R165, R168, R181, R238). -/
def endPass (w : Tab Word) (g : Nat) (x : Pass) (s : State) : State :=
  let n := x.k.bytes.length + 4
  let lost := match x.fin with | some .drop => true | some (.exc _) => false | none => x.fwd.isNone && x.crypt.isNone
  let s := fragResolve g x.k lost s
  let k := { x.k with fragKey := none }
  match x.fin with
  | some .drop => releasePacket k (countPass g n x.counts s)
  | some (.exc r) => toException r k (countPass g n x.counts s)
  | none =>
    if tlsFault x then toException 7 k (countPass g n x.counts (countA g 1 1 s))
    else
      let op := fld (rd k.md 31 1) 0 2
      let t := tupleOf w (fld (rd k.md 31 1) 4 4) k
      let (s, k) := editPass k x.ed s
      let s := countPass g (k.bytes.length + 4) x.counts s
      if op == 1 || op == 2 then flowUnit w g n t k x.fwd x.crypt s else finishPass k x.fwd x.crypt s

/-! ## A pass (R114-R127) -/

/-- The stages of a pass that parsing has not ended. -/
def stagePass (w : Tab Word) (g : Nat) (ecc : Option (Nat × Nat × Nat)) (k : Packet) (s : State) : State :=
  let (s, x) := runStages w g ecc (s, { k := k })
  endPass w g x s

/-- The packet needs a pass beyond its second extra pass: the deep flag, its count and deep_action (R126). -/
def deepEnd (w : Tab Word) (g : Nat) (ecc : Option (Nat × Nat × Nat)) (k : Packet) (s : State) : State :=
  let k := mdFlagSet k 1
  let s := countR g 36 1 s
  match fld (bankWord w (tblBase + 0x210)) 2 2 with
  | 0 => releasePacket k s
  | 2 => stagePass w g ecc k s
  | _ => toException 1 k s

/-- What the end of parsing leads to (R119, R120, R124, R126); `nh` is the last next-header value read (R171). -/
def afterParse (w : Tab Word) (g : Nat) (ecc : Option (Nat × Nat × Nat)) (nh : Nat) (k : Packet) (e : PEnd) (s : State) : State :=
  let k := if k.entropyKey.isNone then { k with entropyKey := some (entropyOf k nh) } else k
  let cfg := bankWord w (tblBase + 0x210)
  match e with
  | .done => stagePass w g ecc k s
  | .exc r => toException r k s
  | .err =>
    let k := mdFlagSet k 0
    let s := countR g 37 1 s
    match fld cfg 0 2 with
    | 0 => releasePacket k s
    | 1 => toException 1 k s
    | _ => stagePass w g ecc k s
  | .forced n start =>
    if k.extra < 2 then passAgain { k with resume := some (n, start), base := start } (countR g 35 1 s) else deepEnd w g ecc k s

/-- The front end from L4 on, and the graph. -/
def parseRest (w : Tab Word) (g : Nat) (ecc : Option (Nat × Nat × Nat)) (x : L4At) (k : Packet) (s : State) : State :=
  let nh := match x.frag with | some f => f.nh | none => x.nh
  let (k, e) := frontL4 w x { k with lastNh := nh }
  let (k, e) := enterGraph w e k
  afterParse w g ecc nh k e s

/-- What follows a stop of the front end before an L4 header. -/
def parseStop (w : Tab Word) (g : Nat) (ecc : Option (Nat × Nat × Nat)) (x : FeStop) (k : Packet) (s : State) : State :=
  let nh := match x.frag.bind fun y => y.frag with | some f => f.nh | none => x.nh
  let (k, p) := enterGraph w x.e { k with lastNh := nh }
  afterParse w g ecc nh k p s

/-- A fragment that the table has not seen meets it before the pass goes on (R148-R151). -/
def viaFrags (g : Nat) (x : Option L4At) (k : Packet) (s : State) (go : Packet → State → State) : State :=
  match x with
  | none => go k s
  | some y => match y.frag with
    | none => go k s
    | some f =>
      if 2 ≤ k.frag then go k s
      else match fragStep g y f k s with
        | .stop s => s
        | .go k s => go k s

/-- One pass of a packet; one that has returned beyond its second extra pass is not parsed (R126). -/
def passOf (g : Nat) (ecc : Option (Nat × Nat × Nat)) (k : Packet) (s : State) : State :=
  let w := wordsAt s k.epoch
  let s := if k.extra == 0 then countR g 34 1 s else s
  if 2 < k.extra then deepEnd w g ecc k s
  else match k.resume with
  | some (n, start) =>
    let (k, e) := graph w start 16 n start { k with resume := none }
    afterParse w g ecc 0 k e s
  | none =>
    let tp := portAt s k.epoch (pktPort k) 0x14
    let (tO, tI) := (fld tp 0 16, fld tp 16 16)
    let k := { mdSet (mdSet k 3 [byte (clrBit (mdFlags k) 0)]) 8 [0, 0] with front := frontAt w tO tI k.bytes }
    match frontIp w tO tI k with
    | (k, .inl x) => viaFrags g x.frag k s (parseStop w g ecc x)
    | (k, .inr x) => viaFrags g (some x) k s (parseRest w g ecc x)

/-- PARSE_PASS: cluster P`n` of region `g` takes its next packet through one pass. `ecc` names a table and a bucket and slot that its lookup
reads with an uncorrectable error (R142). -/
def execParsePass (g n : Nat) (ecc : Option (Nat × Nat × Nat)) (s : State) : Res :=
  onElem (decide (g < 16) && decide (n < 5))
    (if !pipeRuns s g n then s
     else match takePacket g n s with
       | none => s
       | some (k, s) => retireIdle 4 (passOf g ecc k s))

/-- FRAGMENT_HOLD_TIMEOUT (R151): the oldest fragment held for a key has waited 2 ms. -/
def execFragmentHoldTimeout (g : Nat) (key : Bytes) (s : State) : Res :=
  onElem (decide (g < 16))
    (match fragGet s g key with
     | none => s
     | some e => match e.held with
       | [] => s
       | h :: r => retireIdle 4 (toException 3 h.1 (countR g 42 1 (fragPut { e with held := r } s))))

/-- FRAGMENT_ENTRY_TIMEOUT (R153): no fragment has touched the entry for timeout_ms. An entry that holds fragments stays. -/
def execFragmentEntryTimeout (g : Nat) (key : Bytes) (s : State) : Res :=
  onElem (decide (g < 16))
    (match fragGet s g key with
     | none => s
     | some e => if e.held.isEmpty then countR g 45 1 (fragDel g key s) else s)

/-! ## Misses served (R250, R251, R266, R28) -/

/-- One parked packet served. -/
def serveParked (g : Nat) (x : Parked) (s : State) : State :=
  let w := wordsAt s x.pkt.epoch
  let (a, b) := (keyA x.key, keyB x.key)
  let t : Tuple := { src := if x.fromA then a else b, dst := if x.fromA then b else a, proto := rd x.key 36 1, v6 := rd x.key 37 1 == 1
                     flags := x.flags, zone := rd x.key 38 2 }
  if !engineUp s x.key then toException 8 x.pkt s
  else
    let (v, k, s) := flowServe w g x.len x.op x.profile t x.pkt s
    afterFlow v k x.fwd x.crypt s

/-- The keys whose entries a parked request brings into its cache: its own and that of its pair. -/
def wantedKeys (s : State) (x : Parked) : List Bytes :=
  match flowFind s x.key with
  | some f => (((pairOf s f.index).filterMap fun j => flowAt s j).map fun e => e.key)
  | none => [x.key]

/-- The request of a region that is served next: the oldest whose entries its cache can take; the others wait (R252). -/
def nextMiss (s : State) (g : Nat) : Option Parked :=
  let q := tgetD s.flow.miss g []
  q.find? fun x => cacheTakes { s with flow := { s.flow with miss := tput s.flow.miss g (q.filter fun y => y.key != x.key) } } g (wantedKeys s x)

/-- FLOW_MISS_SERVICE: a parked packet of a region is served, with those of the same key behind it. `ecc` says that its entry is read with an
uncorrectable error, in a DIMM that no rule names, and whether the twin restores it. -/
def execFlowMissService (g : Nat) (ecc : Option Bool) (s : State) : Res :=
  onElem (decide (g < 16))
    (match nextMiss s g with
     | none => s
     | some x =>
       let q := tgetD s.flow.miss g []
       let same := q.filter fun y => y.key == x.key
       let s := flowMod (fun f => { f with miss := tput f.miss g (q.filter fun y => y.key != x.key) }) s
       let s := match flowFind s x.key with
         | some f => if (holderOf s f.index).isNone then countReads (flowAddr f.index) 128 s else s
         | none => s
       let s := match ecc, flowFind s x.key with
         | some restored, some f =>
           if (holderOf s f.index).isNone then
             let (v, s) := drawFree s
             flowEcc restored f (memUe (flowAddr f.index) (v % max 1 (memCh s (channelAt s (flowAddr f.index))).dimms) s)
           else s
         | _, _ => if engineUp s x.key then readFlow x.key s else s
       retireIdle 4 (same.foldl (fun s y => serveParked g y s) s))

end Sys2Proof.Machine
end

