-- ==== Sys2Proof/Machine/Crypto.lean ====
section
/-! DEFINITION. The crypto clusters: records and their caches, ESP and TLS 1.3 record protection (R207, R217-R232). The arithmetic of the
cited ciphers is open (assumption 3): protected bytes are cipher bytes of the key and the input, and what a received ciphertext decrypts
to is an operand of the row. -/

namespace Sys2Proof.Machine

/-! ## Records and caches (R221) -/

/-- Number of a TLS session across the host links, and of its halves: 0 transmit, 1 receive. -/
def tlsSession (link i : Nat) : Nat := 2 ^ 20 * link + i
def tlsKey (link i half : Nat) : Nat := 2 * tlsSession link i + half

/-- Key of a record in the caches: an SA by its index, a session above 2^21. -/
def jobRecord (j : CryptJob) : Nat := if j.tls then 2 ^ 21 + tlsSession j.link j.index else j.index

/-- Is the record of a job installed? -/
def hasRecord (s : State) (j : CryptJob) : Bool :=
  if j.tls then thas s.cry.tls (tlsKey j.link j.index 0) || thas s.cry.tls (tlsKey j.link j.index 1) else thas s.cry.sas j.index

/-- Can the cluster work on a job now: it holds the record, or there is none? -/
def recordReady (s : State) (g : Nat) (j : CryptJob) : Bool := !hasRecord s j || tget s.cry.holder (jobRecord j) == some g

/-- The oldest job of a kind that can be worked on, taken out of the queue. -/
def takeJob (g : Nat) (tls decrypt : Bool) (s : State) : Option (CryptJob × State) :=
  let l := tgetD s.cry.inputs g []
  let mine := fun (j : CryptJob) => j.tls == tls && j.decrypt == decrypt && recordReady s g j
  if cryUnits s g == 0 then none
  else match l.findIdx? mine with
    | some i => (l[i]?).map fun j => (j, cryMod (fun c => { c with inputs := tput c.inputs g (dropNth l i) }) s)
    | none => none

/-- The oldest job whose record another cluster or none holds. -/
def needsRecord (s : State) (g : Nat) : Option Nat := (tgetD s.cry.inputs g []).findIdx? fun j => !recordReady s g j

/-- Where a record lies in DDR5 (R501). -/
def recordAddr (r : Nat) : Nat :=
  if r < 2 ^ 21 then 0x400110000000 + 256 * r else 0x400200000000 + 512 * (r - 2 ^ 21)

/-- A record read from DDR5 meets poison (R504): an SA is taken again from the twin, or fails as with a bad key; a session is handled as
not installed from then on. -/
def recordPoisoned (g r : Nat) (s : State) : State :=
  if r < 2 ^ 21 then
    if twinProtected s && 2 ≤ s.twin.version then
      { s with mem := { s.mem with poison := stillPoisoned (recordAddr r) 256 s.mem.poison } }
    else raise 0x1007 (clusterPlace (gDie g) (gReg g) 16) [4, r]
      (cryMod (fun c => { c with sas := tmap c.sas fun i a => if i == r then { a with keyFault := true } else a }) s)
  else cryMod (fun c => { c with tls := c.tls.filter fun e => e.1 / 2 != r - 2 ^ 21 }) s

/-- CRYPTO_RECORD_FETCH (R221): the record comes from the cluster that holds it, else from DDR5; without DDR5 the packet drops (R28).
A full cache gives up a record that the spec does not name: a free value chooses it. -/
def execCryptoRecordFetch (g : Nat) (s : State) : Res :=
  onElem (decide (g < 16))
    (let l := tgetD s.cry.inputs g []
     match needsRecord s g with
     | none => s
     | some i => match l[i]? with
       | none => s
       | some j =>
         let r := jobRecord j
         if !thas s.cry.holder r && !ddr5Up s then
           retireIdle 4 (releasePacket j.pkt (countC g 19 1 (cryMod (fun c => { c with inputs := tput c.inputs g (dropNth l i) }) s)))
         else
           let s := if !thas s.cry.holder r && (poisonHit s (recordAddr r) (if r < 2 ^ 21 then 256 else 512)).isSome then
               recordPoisoned g r s
             else s
           let s := if thas s.cry.holder r then s else countReads (recordAddr r) (if r < 2 ^ 21 then 256 else 512) s
           let s := countC g (if thas s.cry.holder r then 22 else 21) 1 s
           let mine := (s.cry.holder.filter fun e => e.2 == g).map fun e => e.1
           let (v, s) := if 4096 ≤ mine.length then drawFree s else (0, s)
           let h := if 4096 ≤ mine.length then tdel s.cry.holder (mine.getD (v % mine.length) 0) else s.cry.holder
           cryMod (fun c => { c with holder := tput h r g }) s)

/-- A packet back from decryption takes an extra pass; beyond the second the deep rule applies at the parse unit (R64, R125, R126). What
it may carry inside meets the fragment table as a packet that has just arrived does. -/
def cryptoReturn (k : Packet) (s : State) : State := passAgain { afresh k with frag := 0 } s

/-- An encrypted packet goes to the buffer under its disposition and takes no further pipeline token (R64, R165). RECIRC names no queue of
the buffer, and no rule says where such a packet goes: it is dropped as one without a disposition (DESIGN CHOICE, assumption 118). -/
def leaveCrypto (k : Packet) (f : Option Fwd) (s : State) : State :=
  match f with
  | some .recirc => dispose k none s
  | f => dispose k f s

/-- Path of a crypto cluster in its records. -/
def cryPlace (g : Nat) : Nat := clusterPlace (gDie g) (gReg g) 16

/-! ## ESP (R217-R223) -/

def saMod (i : Nat) (f : Sa → Sa) (s : State) : State :=
  match tget s.cry.sas i with
  | some a => cryMod (fun c => { c with sas := tput c.sas i (f a) }) s
  | none => s

/-- The state of an SA goes to the twin (R222). -/
def mirrorSa (i : Nat) (s : State) : State :=
  match tget s.cry.sas i with
  | some a => if twinProtected s && 2 ≤ s.twin.version then sendTwin (.saState i (le 8 a.seq ++ le 512 a.seen)) s else s
  | none => s

/-- The outermost IP header as the crypto unit needs it: its start, the end of the headers that stay outside, the byte that names the
payload's protocol, and the end that its length gives. -/
structure EspAt where
  v6 : Bool
  ip : Nat
  l4 : Nat
  nhAt : Nat
  stop : Nat
  deriving DecidableEq, Repr

/-- Hop-by-Hop, Routing and Destination Options headers, at most two (R117, R218): the byte that names the next, and its start. -/
def espExt (b : Bytes) : Nat → Nat → Nat → Nat × Nat
  | 0, at_, o => (at_, o)
  | n + 1, at_, o =>
    let nh := rdN b at_ 1
    if nh == 0 || nh == 43 || nh == 60 then espExt b n o (o + 8 * (rdN b (o + 1) 1 + 1)) else (at_, o)

def espIp (b : Bytes) (o : Nat) : Option EspAt :=
  if fld (rdN b o 1) 4 4 == 4 && o + 20 ≤ b.length then
    some { v6 := false, ip := o, l4 := o + 4 * fld (rdN b o 1) 0 4, nhAt := o + 9, stop := min b.length (o + rdN b (o + 2) 2) }
  else if fld (rdN b o 1) 4 4 == 6 && o + 40 ≤ b.length then
    let (a, l) := espExt b 2 (o + 6) (o + 40)
    some { v6 := true, ip := o, l4 := l, nhAt := a, stop := min b.length (o + 40 + rdN b (o + 4) 2) }
  else none

/-- The end of a frame's Ethernet header and tags. -/
def tagEnd (s : State) (k : Packet) : Nat :=
  let tp := portAt s k.epoch (pktPort k) 0x14
  14 + 4 * tagCount (fld tp 0 16) (fld tp 16 16) k.bytes

/-- The outermost IP header of a frame: after the EtherType, else where the pass recorded it. -/
def espAt (s : State) (k : Packet) : Option EspAt :=
  let o := tagEnd s k
  let et := rdN k.bytes (o - 2) 2
  if et == 0x0800 || et == 0x86DD then espIp k.bytes o
  else match hdrOf k 3 with
    | some (o, _) => espIp k.bytes o
    | none => match hdrOf k 4 with
      | some (o, _) => espIp k.bytes o
      | none => none

/-- Lengths and protocol of an IP header after a change behind it; UDP length and zero checksum where ESP is encapsulated. -/
def espLengths (x : EspAt) (nh : Option Nat) (udp : Bool) (b : Bytes) : Bytes :=
  let b := match nh with | some v => splice b x.nhAt [byte v] | none => b
  let b := if udp then splice b (x.l4 + 4) (be 2 (b.length - x.l4) ++ [0, 0]) else b
  if x.v6 then splice b (x.ip + 4) (be 2 (b.length - x.ip - 40))
  else
    let b := splice b (x.ip + 2) (be 2 (b.length - x.ip))
    splice b (x.ip + 10) (be 2 (ipSum b x.ip (x.l4 - x.ip)))

/-- Next header of the trailer: of the inner version in tunnel mode, of the original protocol in transport mode. Under UDP encapsulation
the header at hand names UDP, and the original protocol is the one that the front end read of the packet (assumption 119). A value that the
spec does not give (no IP version there) is free. -/
def espNext (a : Sa) (x : Option EspAt) (k : Packet) (inner : Bytes) (free : Nat) : Nat :=
  let v := fld (rdN inner 0 1) 4 4
  if a.tunnel then (if v == 4 then 4 else if v == 6 then 41 else free % 256)
  else if a.udpEncap then k.lastNh
  else match x with | some x => rdN k.bytes x.nhAt 1 | none => free % 256

/-- The protected frame under a sequence number; `free` serves what the spec leaves open: the start of the protected bytes in a frame
without an IP header, and `espNext`. Also the bytes protected. -/
def espSeal (s : State) (a : Sa) (seq free : Nat) (k : Packet) : Bytes × Nat :=
  let b := k.bytes
  let x := espAt s k
  let start := match x with | some x => min b.length (x.l4 + (if a.udpEncap then 8 else 0)) | none => free % (b.length + 1)
  let inner := b.drop start
  let pad := (4 - (inner.length + 2) % 4) % 4
  let pt := inner ++ (List.range pad).map (fun i => byte (i + 1)) ++ [byte pad, byte (espNext a x k inner free)]
  let ct := cipher (recordKey s a.key ++ le 4 a.salt ++ be 4 a.spi ++ be 8 seq ++ pt) (pt.length + 16)
  let out := b.take start ++ be 4 a.spi ++ be 4 (seq % 2 ^ 32) ++ be 8 seq ++ ct
  (match x with | some x => espLengths x (if a.udpEncap then none else some 50) a.udpEncap out | none => out, inner.length)

/-- What stays of the recognised headers behind ESP: the IP header in transport mode (R98, R218). -/
def frontSealed (a : Sa) (f : Option FrontAt) : Option FrontAt := if a.tunnel then none else f.map fun x => { x with l4 := none }

/-- Last sequence number of an SA (R220). -/
def seqLast (a : Sa) : Nat := if a.esn then 2 ^ 64 - 1 else 2 ^ 32 - 1

/-- A stored key fails its integrity check (R207): kind 4 an SA, 5 a session. -/
def keyFault (g kind i : Nat) (s : State) : State := raise 0x1007 (cryPlace g) [kind, i] (countC g 23 1 s)

/-- An outbound SA takes a sequence number (R220). -/
def saAdvance (g i : Nat) (a : Sa) (s : State) : State :=
  let last := a.seq == seqLast a
  let soft := !a.softRaised && !last && decide (a.softSeq ≤ a.seq + 1)
  let s := saMod i (fun a => { a with seq := if last then a.seq else a.seq + 1, exhausted := last, softRaised := a.softRaised || soft }) s
  let s := if soft then raise 0x1001 (cryPlace g) (i :: two (a.seq + 1)) s else s
  mirrorSa i (if last && !a.esn then raise 0x1002 (cryPlace g) [i] s else s)

/-- Encryption of one packet, which then leaves under its disposition (R165, R218). -/
def espEncrypt (g : Nat) (keyOk : Bool) (j : CryptJob) (s : State) : State :=
  let i := j.index
  match tget s.cry.sas i with
  | none => releasePacket j.pkt (countC g 10 1 s)
  | some a =>
    if a.inbound then releasePacket j.pkt (countC g 10 1 s)
    else if a.keyFault then releasePacket j.pkt (countC g 23 1 s)
    else if !keyOk then releasePacket j.pkt (keyFault g 4 i (saMod i (fun a => { a with keyFault := true }) s))
    else if a.exhausted then releasePacket j.pkt (countC g 6 1 s)
    else
      let (v, s) := drawFree s
      let (b, n) := espSeal s a a.seq v j.pkt
      let s := saAdvance g i a s
      if 9600 < b.length + 4 then releasePacket j.pkt (countC g 9 1 s)
      else leaveCrypto { j.pkt with bytes := b, front := frontSealed a j.pkt.front } j.fwd (countC g 1 n (countC g 0 1 s))

/-- CRYPTO_ENCRYPT: the next ESP encryption of region `g`. `keyOk`: the stored key passes its integrity check. -/
def execCryptoEncrypt (g : Nat) (keyOk : Bool) (s : State) : Res :=
  onElem (decide (g < 16))
    (match takeJob g false false s with
     | none => s
     | some (j, s) => retireIdle 4 (espEncrypt g keyOk j s))

/-- The sequence number that 32 received bits stand for: with ESN the high bits are inferred as RFC 4303 gives. -/
def espSeq (a : Sa) (low : Nat) : Nat :=
  if !a.esn then low
  else
    let (h, t, w) := (a.seq / 2 ^ 32, a.seq % 2 ^ 32, a.window)
    let hi := if w ≤ t + 1 then (if t + 1 ≤ low + w then h else h + 1)
      else if t + 1 + 2 ^ 32 ≤ low + w then h - 1 else h
    hi * 2 ^ 32 + low

/-- Is a number within the replay window and not seen (check 2)? -/
def replayOk (a : Sa) (n : Nat) : Bool :=
  !a.exhausted && (decide (a.seq < n) || (decide (a.seq < n + a.window) && !bit a.seen (a.seq - n)))

/-- The window after a number has been accepted. -/
def replayAccept (a : Sa) (n : Nat) : Sa :=
  if a.seq < n then
    { a with seq := n, seen := (a.seen * 2 ^ (min (n - a.seq) 4096) + 1) % 2 ^ max 1 a.window, exhausted := !a.esn && n == 2 ^ 32 - 1 }
  else { a with seen := setBit a.seen (a.seq - n) }

/-- Where the EtherType of the last L2 header stands: before the IP header where that header follows an EtherType, else at the end of
the tags, for an IP header that the graph found behind a shim (assumption 119). -/
def etherTypeAt (s : State) (k : Packet) (x : EspAt) : Nat :=
  let et := rdN k.bytes (x.ip - 2) 2
  if et == 0x0800 || et == 0x86DD then x.ip - 2 else tagEnd s k - 2

/-- The frame without ESP: in tunnel mode the inner packet behind the L2 header, whose EtherType stands at `et`, in transport mode
protocol and lengths restored; an encapsulating UDP header goes. -/
def espOpen (a : Sa) (x : EspAt) (et : Nat) (b inner : Bytes) (nh : Nat) : Bytes :=
  if a.tunnel then splice (b.take x.ip) et (be 2 (if nh == 4 then 0x0800 else 0x86DD)) ++ inner
  else espLengths x (some nh) false (b.take x.l4 ++ inner)

/-- Decryption of one packet (R219); `plain` is what its payload decrypts to. -/
def espDecrypt (g : Nat) (keyOk icvOk : Bool) (plain : Bytes) (j : CryptJob) (s : State) : State :=
  let k := j.pkt
  let i := j.index
  let refuse := toException 12 k (countC g 7 1 s)
  match tget s.cry.sas i, espAt s k with
  | some a, some x =>
    let o := x.l4 + (if a.udpEncap then 8 else 0)
    if !a.inbound || x.stop < o + 16 || rdN k.bytes o 4 != a.spi then refuse
    else if a.keyFault then releasePacket k (countC g 23 1 s)
    else if !keyOk then releasePacket k (keyFault g 4 i (saMod i (fun a => { a with keyFault := true }) s))
    else
      let n := espSeq a (rdN k.bytes (o + 4) 4)
      let len := x.stop - o - 32
      let pt := fitTo len plain
      let pad := rd pt (len - 2) 1
      let nh := rd pt (len - 1) 1
      if !replayOk a n then releasePacket k (countC g 5 1 s)
      else if !icvOk || x.stop < o + 34 then releasePacket k (countC g 4 1 s)
      else if len < pad + 2 || (a.tunnel && nh != 4 && nh != 41) then releasePacket k (countC g 8 1 s)
      else
        let inner := pt.take (len - 2 - pad)
        let s := mirrorSa i (saMod i (fun a => replayAccept a n) s)
        cryptoReturn { k with bytes := espOpen a x (etherTypeAt s k x) k.bytes inner nh } (countC g 3 inner.length (countC g 2 1 s))
  | _, _ => refuse

/-- CRYPTO_DECRYPT: the next ESP decryption of region `g`; `icvOk` and `plain` are what the cited cipher finds. -/
def execCryptoDecrypt (g : Nat) (keyOk icvOk : Bool) (plain : Bytes) (s : State) : Res :=
  onElem (decide (g < 16))
    (match takeJob g false true s with
     | none => s
     | some (j, s) => retireIdle 4 (espDecrypt g keyOk icvOk plain j s))

/-! ## TLS 1.3 records (R224-R230) -/

/-- Bytes that the TLS bucket of a region lacks: 200 Gbit/s, 25,000 bytes a microsecond (R230). -/
def tlsLack (s : State) (g : Nat) : Nat :=
  let (d, t) := tgetD s.cry.tlsBucket g (0, 0)
  d - 25000 * (nowUs s - t)

/-- The next TLS job of a direction, when the bucket is not empty; its frame takes tokens. -/
def takeTls (g : Nat) (decrypt : Bool) (s : State) : Option (CryptJob × State) :=
  if 65536 ≤ tlsLack s g then none
  else (takeJob g true decrypt s).map fun (j, t) =>
    (j, cryMod (fun c => { c with tlsBucket := tput c.tlsBucket g (tlsLack s g + j.pkt.bytes.length + 4, nowUs s) }) t)

/-- The TCP segment of a packet: its IP header, and where its payload begins and ends. -/
def segmentOf (k : Packet) : Option (IpAt × Nat × Nat) :=
  match hdrOf k 7 with
  | none => none
  | some (o, _) =>
    let ip : Option (Bool × Nat × Nat) := match hdrOf k 3 with
      | some (i, _) => some (false, i, min k.bytes.length (i + rdN k.bytes (i + 2) 2))
      | none => (hdrOf k 4).map fun (i, _) => (true, i, min k.bytes.length (i + 40 + rdN k.bytes (i + 4) 2))
    ip.map fun (v6, i, stop) =>
      ({ v6 := v6, at_ := i, l4 := o, proto := 6, len := stop - o, frag := false }, min stop (o + 4 * fld (rdN k.bytes (o + 12) 1) 4 4), stop)

/-- The TCP checksum recomputed (R225). -/
def tcpFix (x : IpAt) (b : Bytes) : Bytes := splice b (x.l4 + 16) (be 2 (l4Sum b x))

/-- The byte of a record at an offset of its ciphertext, and its tag. -/
def tlsByte (h : TlsHalf) (seq off : Nat) (b : Byte) : Byte := (cipher (h.key ++ h.iv ++ be 8 seq ++ be 4 off ++ [b]) 1).headD 0
def tlsTag (h : TlsHalf) (seq : Nat) (pt : Bytes) : Bytes := cipher (h.key ++ h.iv ++ be 8 seq ++ pt) 16

def seqAdd (a n : Nat) : Nat := (a + n) % 2 ^ 32

/-- A record has ended: the next sequence number and an empty header; transmitted ones join the history of the last eight. -/
def recordEnd (h : TlsHalf) (tag : Bytes) : TlsHalf :=
  let e : TlsHist := { start := h.recStart, len := h.recLen + 5, seq := h.recSeq, tag := tag }
  { h with recSeq := h.recSeq + 1, hdr := [], acc := [], left := 0, history := (h.history ++ [e]).drop (h.history.length - 7) }

/-- A header byte; the fifth gives the length. -/
def headerByte (h : TlsHalf) (b : Byte) : TlsHalf :=
  let hd := h.hdr ++ [b]
  let h := { h with hdr := hd, recStart := if h.hdr.isEmpty then h.nextTcp else h.recStart, nextTcp := seqAdd h.nextTcp 1 }
  if hd.length == 5 then { h with recLen := rdN hd 3 2, left := rdN hd 3 2, acc := [] } else h

/-- Is the next byte one of a record's header? -/
def inHeader (h : TlsHalf) : Bool := decide (h.hdr.length < 5)

/-- One byte of new transmit data: header bytes in clear, then ciphertext, then the tag. -/
def txByte (h : TlsHalf) (b : Byte) : Byte × TlsHalf :=
  if inHeader h then
    let h := headerByte h b
    (b, if h.hdr.length == 5 && h.left == 0 then recordEnd h [] else h)
  else
    let tag := tlsTag h h.recSeq h.acc
    let data := 16 < h.left
    let o := if data then tlsByte h h.recSeq (h.recLen - h.left) b else tag.getD (16 - h.left) 0
    let h' := { h with left := h.left - 1, nextTcp := seqAdd h.nextTcp 1, acc := if data then h.acc ++ [b] else h.acc }
    (o, if h.left == 1 then recordEnd h' tag else h')

/-- The bytes of a segment that starts at the next expected number. -/
def txBytes (h : TlsHalf) : Bytes → Bytes × TlsHalf
  | [] => ([], h)
  | b :: r =>
    let (o, h) := txByte h b
    let (l, h) := txBytes h r
    (o :: l, h)

/-- Offset of a TCP number in a record of the history or in the one in progress: its sequence number, length and tag. -/
def inHistory (h : TlsHalf) (t : Nat) : Option (Nat × Nat × Nat × Bytes) :=
  let cur : TlsHist := { start := h.recStart, len := seqAdd h.nextTcp (2 ^ 32 - h.recStart), seq := h.recSeq, tag := [] }
  let all := h.history ++ (if h.hdr.isEmpty then [] else [cur])
  (all.find? fun e => decide (seqAdd t (2 ^ 32 - e.start) < e.len)).map fun e =>
    (seqAdd t (2 ^ 32 - e.start), e.seq, if e.seq == h.recSeq then h.recLen else e.len - 5, e.tag)

/-- A retransmitted byte, encrypted again from its offset, or taken from the stored tag; none outside the history. -/
def againByte (h : TlsHalf) (t : Nat) (b : Byte) : Option Byte :=
  (inHistory h t).map fun (o, seq, len, tag) =>
    if o < 5 then b
    else if o - 5 + 16 < len then tlsByte h seq (o - 5) b
    else if tag.isEmpty then (tlsTag h h.recSeq h.acc).getD (o - 5 + 16 - len) 0 else tag.getD (o - 5 + 16 - len) 0

def againBytes (h : TlsHalf) (t : Nat) : Bytes → Option Bytes
  | [] => some []
  | b :: r => match againByte h t b, againBytes h (seqAdd t 1) r with
    | some o, some l => some (o :: l)
    | _, _ => none

/-- Bytes counted under a key: soft and hard limits (R228). -/
def tlsCount (g link i half n : Nat) (h : TlsHalf) (s : State) : TlsHalf × State :=
  let o := h.octets + n
  let soft := !h.softRaised && decide (2 ^ 37 ≤ o)
  ({ h with octets := o, softRaised := h.softRaised || soft, st := if 2 ^ 38 ≤ o then 4 else h.st },
   if soft then raise 0x1003 (cryPlace g) [link, i, half] s else s)

def putHalf (link i half : Nat) (h : TlsHalf) (s : State) : State := cryMod (fun c => { c with tls := tput c.tls (tlsKey link i half) h }) s

/-- A half as a crypto unit works on it, with its key unwrapped (R206), and the record of what has become of it. -/
def openHalf (s : State) (h : TlsHalf) : TlsHalf := { h with key := recordKey s h.key }
def sealHalf (old h : TlsHalf) : TlsHalf := { h with key := old.key }

/-- A segment that is neither new nor within the history (R226). -/
def tlsStale (g : Nat) (j : CryptJob) (seq : Nat) (h : TlsHalf) (s : State) : State :=
  let due := secondPassed s h.staleRaised
  let s := countC g 17 1 (putHalf j.link j.index 0 { h with staleRaised := if due then some s.time.up else h.staleRaised } s)
  releasePacket j.pkt (if due then raise 0x1005 (cryPlace g) [j.link, j.index, seq] s else s)

/-- A transmitted segment (R226). -/
def tlsTx (g : Nat) (keyOk : Bool) (j : CryptJob) (s : State) : State :=
  let k := j.pkt
  match tget s.cry.tls (tlsKey j.link j.index 0) with
  | none => toException 13 k s
  | some h =>
    if h.keyFault then releasePacket k (countC g 23 1 s)
    else if !keyOk then releasePacket k (keyFault g 5 (tlsSession j.link j.index) (putHalf j.link j.index 0 { h with keyFault := true } s))
    else if h.st == 4 then releasePacket k (countC g 18 1 s)
    else match segmentOf k with
      | none => tlsStale g j 0 h s
      | some (x, lo, hi) =>
        let seq := rdN k.bytes (x.l4 + 4) 4
        let data := slice k.bytes lo (hi - lo)
        let send := fun (b : Bytes) (s : State) => leaveCrypto { k with bytes := tcpFix x (splice k.bytes lo b) } j.fwd s
        if seq == h.nextTcp then
          let (b, h') := txBytes (openHalf s h) data
          let (h', s) := tlsCount g j.link j.index 0 data.length (sealHalf h h') s
          send b (countC g 12 data.length (countC g 11 (h'.recSeq - h.recSeq) (putHalf j.link j.index 0 h' s)))
        else match againBytes (openHalf s h) seq data with
          | some b => send b s
          | none => tlsStale g j seq h s

/-- TLS_TX_SEGMENT: the next TLS encryption of region `g`. -/
def execTlsTxSegment (g : Nat) (keyOk : Bool) (s : State) : Res :=
  onElem (decide (g < 16))
    (match takeTls g false s with
     | none => s
     | some (j, s) => retireIdle 4 (tlsTx g keyOk j s))

/-- The scan of a received segment. -/
structure RxScan where
  h : TlsHalf
  out : Bytes := []
  /-- What is left of the cipher's findings for the records that end in the segment: verified, and inner content type. -/
  ends : List (Bool × Nat)
  records : Nat := 0
  failed : Nat := 0
  /-- Offset after the first failed record end. -/
  firstBad : Nat := 0
  /-- Why the half has left sync: 2 header, 3 paused; 0 in sync. -/
  cause : Nat := 0
  /-- Bytes taken while in sync, and how many of them a record's ciphertext held. -/
  taken : Nat := 0
  opened : Nat := 0

/-- A received record has ended with the cipher's finding for it. -/
def rxEnd (x : RxScan) (h : TlsHalf) : RxScan :=
  let (ok, typ) := x.ends.headD (false, 23)
  let n := x.out.length
  { x with
    h := { recordEnd h [] with history := [] }, ends := x.ends.drop 1, records := x.records + 1, failed := x.failed + b2n (!ok)
    firstBad := if ok || x.failed != 0 then x.firstBad else n, cause := if typ == 23 then 0 else 3 }

/-- One received byte and what it decrypts to. -/
def rxByte (x : RxScan) (b p : Byte) : RxScan :=
  if x.cause != 0 then { x with out := x.out ++ [b] }
  else if inHeader x.h then
    let h := headerByte x.h b
    let x := { x with h := h, out := x.out ++ [b], taken := x.taken + 1 }
    if h.hdr.length < 5 then x
    else if rdN h.hdr 0 3 != 0x170303 || 16640 < h.recLen then { x with cause := 2 }
    else if h.left == 0 then rxEnd x h else x
  else
    let h := { x.h with left := x.h.left - 1, nextTcp := seqAdd x.h.nextTcp 1 }
    let x := { x with out := x.out ++ [if 16 < x.h.left then p else b], h := h, taken := x.taken + 1, opened := x.opened + 1 }
    if h.left == 0 then rxEnd x h else x

def rxScan (x : RxScan) : Bytes → Bytes → RxScan
  | [], _ => x
  | b :: r, p => rxScan (rxByte x b (p.headD 0)) r (p.drop 1)

/-- A receive half leaves sync (R227). -/
def tlsUnsync (g : Nat) (j : CryptJob) (seq cause : Nat) (h : TlsHalf) (s : State) : State :=
  raise 0x1004 (cryPlace g) [j.link, j.index, seq, cause]
    (putHalf j.link j.index 1 { h with st := if h.st == 4 then 4 else if cause == 3 then 3 else 2, hdr := [], acc := [], left := 0 } s)

/-- A received segment (R227). -/
def tlsRx (g : Nat) (keyOk : Bool) (plain : Bytes) (ends : List (Bool × Nat)) (j : CryptJob) (s : State) : State :=
  let k := j.pkt
  match tget s.cry.tls (tlsKey j.link j.index 1) with
  | none => toException 13 k s
  | some h =>
    if h.keyFault then releasePacket k (countC g 23 1 s)
    else if !keyOk then releasePacket k (keyFault g 5 (tlsSession j.link j.index) (putHalf j.link j.index 1 { h with keyFault := true } s))
    else if h.st == 4 then cryptoReturn k s
    else if h.st != 1 then cryptoReturn k (countC g 16 1 s)
    else match segmentOf k with
      | none => cryptoReturn k (countC g 16 1 (tlsUnsync g j 0 1 h s))
      | some (x, lo, hi) =>
        let seq := rdN k.bytes (x.l4 + 4) 4
        let data := slice k.bytes lo (hi - lo)
        if data.isEmpty then cryptoReturn k s
        else if seq != h.nextTcp then cryptoReturn k (countC g 16 1 (tlsUnsync g j seq 1 h s))
        else
          let r := rxScan { h := h, ends := ends } data plain
          if r.cause == 2 && r.opened == 0 then cryptoReturn k (countC g 16 1 (tlsUnsync g j seq 2 h s))
          else
            let (h', s) := tlsCount g j.link j.index 1 r.taken r.h s
            let s := countC g 15 r.failed (countC g 14 r.taken (countC g 13 r.records s))
            let s := if r.cause == 0 then putHalf j.link j.index 1 h' s else tlsUnsync g j seq r.cause h' s
            let fl := 4 + 8 * b2n (r.failed == 0) + 16 * b2n (r.failed != 0)
            cryptoReturn { k with bytes := tcpFix x (splice k.bytes lo r.out), tls := (fl, r.records, r.firstBad) } s

/-- TLS_RX_SEGMENT: the next TLS decryption of region `g`; `plain` is what the segment's bytes decrypt to, `ends` what the cipher finds
of each record that ends in it: its tag verifies, its inner content type. -/
def execTlsRxSegment (g : Nat) (keyOk : Bool) (plain : Bytes) (ends : List (Bool × Nat)) (s : State) : Res :=
  onElem (decide (g < 16))
    (match takeTls g true s with
     | none => s
     | some (j, s) => retireIdle 4 (tlsRx g keyOk plain ends j s))

end Sys2Proof.Machine
end

