-- ==== Sys2Proof/Machine/CryCmds.lean ====
section
/-! DEFINITION. The CRY commands (R205, R208, R209, R213, R216, R220, R223, R226-R229, R234). -/

namespace Sys2Proof.Machine

/-! ## Keys (R205) -/

/-- The queue memory that held a command is overwritten with zero: its slots in a function's ring or in a bed's. -/
def wipe (c : Cmd) (s : State) : State :=
  let slots := List.range (slotsTaken c.slots)
  let zero := List.replicate 64 (0 : Byte)
  match c.queue with
  | .pf l h p n =>
    let f : Fn := { link := l, half := h, pool := p, num := 0 }
    let q := cqOf s f n
    slots.foldl (fun s i => hostWrite f (q.sqBase + 64 * ((c.slotAt + i) % cqSize q.cfg)) zero s) s
  | .bed n =>
    let q := (clust s n).cmdq
    slots.foldl (fun s i => memWrite s (cmdqBase q + 64 * ((c.slotAt + i) % cmdqSize q)) zero) s
  | _ => s

/-- Where a command carries its key, and how: wrapped or in clear, of how many bytes, under which slot, at which parameter byte. -/
structure KeyField where
  wrapped : Bool
  size : Nat
  slot : Nat
  off : Nat
  deriving DecidableEq, Repr

def keyBytes (key256 : Bool) : Nat := if key256 then 32 else 16

/-- The key of a field: wrapped under a KEK slot, or in clear where the map grants it; from the twin, wrapped under the pair key (R205,
R222, R588). -/
def importKey (c : Cmd) (f : KeyField) (s : State) : (Rep ⊕ Bytes) × State :=
  let n := f.size
  let w := c.prmBytes f.off (n + 8)
  let bad : Rep ⊕ Bytes := .inl (badParam dUnwrapFailed)
  let open' := fun (slot : Nat) (k : Bytes) => if Config.verifies (256 + slot) (k ++ w) then .inr (unwrapKey k w n) else bad
  match origin c.queue with
  | .twin _ => (open' 64 s.twin.pairKey, s)
  | _ =>
    if f.wrapped then
      match useKek f.slot s with
      | (none, s) => (bad, s)
      | (some k, s) => (open' f.slot k, s)
    else (if bit (protReq s (requester s c.queue)) 17 then .inr (c.prmBytes f.off n) else .inl (denied dProtection), s)

/-- The end of a command that carries a key. -/
def withKey (c : Cmd) (f : KeyField) (s : State) (done : Bytes → State → State) : Done :=
  match importKey c f s with
  | (.inl r, s) => .reply r s
  | (.inr key, s) => .ok [] (done key s)

/-- Parameters with the key in its field wrapped under the pair key. -/
def pairWrapped (s : State) (off : Nat) (key params : Bytes) : Bytes := splice params off (fitTo (max 40 (key.length + 8)) (wrapKey s.twin.pairKey key))

/-- A command that carries a key: the queue memory that held it is overwritten before the reply (R205). One for the twin alone crosses the
link with its key wrapped under the pair key (R448, R588). -/
def runKeyCmd (o : Op) (f : KeyField) (c : Cmd) (s : State) : State :=
  if s.power.shutdown < 3 && mustWait o c s then park o c s
  else
    let s := wipe c s
    if s.power.shutdown < 3 && namesTwin c s && twinReachable s && (rightsRefusal o c s).isNone then
      match importKey c f s with
      | (.inl r, s) => answer o c r s
      | (.inr key, s) => runCmd o { c with params := pairWrapped s f.off key c.params } s
    else runCmd o c s

def kekField (c : Cmd) : KeyField := { wrapped := true, size := keyBytes (bit (c.prm 1 1) 0), slot := 0, off := 8 }

def opCryKekLoad : Op := mkOp 0x1001 48 [(2, 6)] .package fun c s =>
  let slot := c.prm 0 1
  if fld (c.prm 1 1) 1 7 != 0 then .refuse (badParam dReserved)
  else if slot == 0 || 63 < slot then .refuse (badParam dRange)
  else withKey c (kekField c) s fun key s => cryMod (fun x => { x with keks := tput x.keks slot { key := key } }) s

def execCryKekLoad (c : Cmd) (s : State) : Res := .next (runKeyCmd opCryKekLoad (kekField c) c s)

/-! ## MACsec (R208, R209, R216) -/

/-- A port's CAK set or cleared: a settled port closes and MKA begins again. -/
def putCak (p : Nat) (k : Option (Bytes × Bytes)) (s : State) : State :=
  mkaMod p (fun m => { m with cak := k, keyFault := false }) (mkaRestart p (secureLost p 3 s))

def portRangeOk (c : Cmd) : Bool := decide (1 ≤ c.prm 2 2) && decide (c.prm 2 2 ≤ 1024) && decide (c.prm 0 2 + c.prm 2 2 ≤ 1024)

def cakField (c : Cmd) : KeyField := { wrapped := bit (c.prm 4 1) 1, size := keyBytes (bit (c.prm 4 1) 0), slot := c.prm 5 1, off := 40 }

def opCryCakSet : Op := mkOp 0x1002 80 [(7, 1)] .package fun c s =>
  let fl := c.prm 4 1
  if fld fl 2 6 != 0 then .refuse (badParam dReserved)
  else if !portRangeOk c || c.prm 6 1 == 0 || 32 < c.prm 6 1 || (bit fl 1 && 63 < c.prm 5 1) then .refuse (badParam dRange)
  else withKey c (cakField c) s fun key s =>
     (span (c.prm 0 2) (c.prm 2 2)).foldl (fun s p => putCak p (some (key, c.prmBytes 8 (c.prm 6 1))) s) s

def execCryCakSet (c : Cmd) (s : State) : Res := .next (runKeyCmd opCryCakSet (cakField c) c s)

def opCryCakClear : Op := mkOp 0x1003 4 [] .package fun c s =>
  if !portRangeOk c then .refuse (badParam dRange)
  else .ok [] ((span (c.prm 0 2) (c.prm 2 2)).foldl (fun s p => putCak p none s) s)

def execCryCakClear (c : Cmd) (s : State) : Res := .next (runCmd opCryCakClear c s)

def opCryMkaRead : Op := mkOp 0x1004 2 [] .package fun c s =>
  let p := c.prm 0 2
  let m := mkaOf s p
  if 1024 ≤ p then .refuse (badParam dRange)
  else .ok ([byte m.suite, byte (b2n m.keyServer), byte m.peers.length, byte m.txAn] ++ le 8 (tgetD m.tx m.txAn { pn := 0 }).pn) s

def execCryMkaRead (c : Cmd) (s : State) : Res := .next (runCmd opCryMkaRead c s)

/-- CRY_MKA_REKEY: the key server distributes a new SAK; another participant asks for one in an MKPDU. -/
def opCryMkaRekey : Op := mkOp 0x1005 2 [] .package fun c s =>
  let p := c.prm 0 2
  if 1024 ≤ p then .refuse (badParam dRange)
  else if !runsMka s p then .ok [] s
  else .ok [] (if (mkaOf s p).keyServer then distributeSak p s else mkaSend p s)

def execCryMkaRekey (c : Cmd) (s : State) : Res := .next (runCmd opCryMkaRekey c s)

/-! ## IPsec SAs (R217, R220, R222, R223) -/

/-- The SA of an installation, with its key. -/
def newSa (c : Cmd) (key : Bytes) : Sa :=
  let fl := c.prm 5 1
  let esn := bit fl 0
  let first := if c.prm 16 8 == 0 then 1 else c.prm 16 8
  let soft := if c.prm 28 8 == 0 then (if esn then 0xC000000000000000 else 0xC0000000) else c.prm 28 8
  { inbound := c.prm 4 1 == 1, esn := esn, tunnel := bit fl 1, udpEncap := bit fl 2, key := key, spi := c.prm 8 4, salt := c.prm 12 4
    seq := if c.prm 4 1 == 1 then first - 1 else first, window := c.prm 24 2, seen := 1, softSeq := soft
    softRaised := false, exhausted := false, keyFault := false }

/-- Is a field of an installation out of its range? -/
def saRange (c : Cmd) : Bool :=
  decide (2 ^ 20 ≤ c.prm 0 4) || decide (1 < c.prm 4 1) || (bit (c.prm 5 1) 4 && decide (63 < c.prm 6 1)) ||
  (c.prm 24 2 != 0 && (c.prm 24 2 < 32 || 4096 < c.prm 24 2 || c.prm 24 2 % 32 != 0)) ||
  (!bit (c.prm 5 1) 0 && decide (2 ^ 32 ≤ c.prm 16 8))

/-- Under mirroring version 1 each package keeps its own SAs (R587). -/
def saReach (s : State) : Reach := if s.twin.version == 1 then .here else .systemWide

def saField (c : Cmd) : KeyField := { wrapped := bit (c.prm 5 1) 4, size := keyBytes (bit (c.prm 5 1) 3), slot := c.prm 6 1, off := 36 }

/-- The reply of an installation of a record that DDR5 cannot take: DDR5 is not in use, or the record's place lies on a lost channel
(R28, R508, assumption 120). -/
def recordRefusal (s : State) (r : Nat) : Option Rep :=
  if !ddr5Up s then some (faultRep dElement (pathOf s (memPlace 0)).toNat)
  else if lineLost s (recordAddr r) then some (faultRep dElement (pathOf s (memPlace (channelAt s (recordAddr r)))).toNat)
  else none

/-- The parameters of an installation for the twin: the key wrapped under the pair key (R222). -/
def saSent (c : Cmd) (s : State) : Bytes :=
  match tget s.cry.sas (c.prm 0 4) with
  | some a => pairWrapped s 36 (recordKey s a.key) c.params
  | none => c.params

def opCrySaInstall (s : State) : Op := { mkOp 0x1006 76 [(7, 1), (26, 2)] .package (fun c s =>
    let fl := c.prm 5 1
    let i := c.prm 0 4
    if fld fl 5 3 != 0 then .refuse (badParam dReserved)
    else if saRange c then .refuse (badParam dRange)
    else if thas s.cry.sas i then .refuse (badParam dSaInUse)
    else match recordRefusal s i with
      | some r => .refuse r
      | none => withKey c (saField c) s fun key s =>
        cryMod (fun x => { x with
          sas := tput x.sas i (newSa c (wrapKey x.tableKey key)), mirror := tdel x.mirror i, holder := tdel x.holder i }) s) with
  reach := saReach s, send := saSent }

def execCrySaInstall (c : Cmd) (s : State) : Res := .next (runKeyCmd (opCrySaInstall s) (saField c) c s)

def opCrySaRemove (s : State) : Op := { mkOp 0x1007 4 [] .package (fun c s =>
    let i := c.prm 0 4
    if 2 ^ 20 ≤ i then .refuse (badParam dRange)
    else if !thas s.cry.sas i then .refuse (badParam dNoEntry)
    else .ok [] (cryMod (fun x => { x with sas := tdel x.sas i, mirror := tdel x.mirror i, holder := tdel x.holder i }) s)) with
  reach := saReach s }

def execCrySaRemove (c : Cmd) (s : State) : Res := .next (runCmd (opCrySaRemove s) c s)

/-- State code of CRY_SA_READ. -/
def saCode (a : Sa) : Nat := if a.keyFault then 3 else if a.exhausted then 2 else 1

def opCrySaRead : Op := mkOp 0x1008 4 [] .package fun c s =>
  if 2 ^ 20 ≤ c.prm 0 4 then .refuse (badParam dRange)
  else match tget s.cry.sas (c.prm 0 4) with
    | none => .ok (List.replicate 16 0) s
    | some a => .ok ([byte (saCode a)] ++ le 8 a.seq ++ List.replicate 7 0) s

def execCrySaRead (c : Cmd) (s : State) : Res := .next (runCmd opCrySaRead c s)

/-! ## TLS sessions (R224-R229) -/

/-- Is the partition of a host link open to the requester of a command (R234)? -/
def linkOpen (c : Cmd) (link : Nat) : Bool := match queueFn c.queue with | some f => f.link == link | none => false

/-- The refusals common to the TLS opcodes. -/
def tlsRefusal (c : Cmd) : Option Rep :=
  if 3 < c.prm 0 1 || 2 ^ 20 ≤ c.prm 4 4 then some (badParam dRange)
  else if !linkOpen c (c.prm 0 1) then some (denied dNotOwn) else none

/-- A half with new keys and numbers. -/
def newHalf (c : Cmd) (key : Bytes) : TlsHalf :=
  { key := key, iv := c.prmBytes 20 12, nextTcp := c.prm 8 4, recSeq := c.prm 12 8, st := 1, history := [], octets := 0
    softRaised := false, staleRaised := none, keyFault := false, left := 0, recLen := 0, hdr := [], acc := [], recStart := c.prm 8 4 }

def tlsField (c : Cmd) : KeyField := { wrapped := bit (c.prm 2 1) 1, size := keyBytes (bit (c.prm 2 1) 0), slot := c.prm 3 1, off := 32 }

def opCryTlsInstall : Op := mkOp 0x1009 72 [] .package fun c s =>
  let fl := c.prm 2 1
  if fld fl 2 6 != 0 then .refuse (badParam dReserved)
  else if 1 < c.prm 1 1 || (bit fl 1 && 63 < c.prm 3 1) then .refuse (badParam dRange)
  else match tlsRefusal c with
    | some r => .refuse r
    | none => match recordRefusal s (2 ^ 21 + tlsSession (c.prm 0 1) (c.prm 4 4)) with
      | some r => .refuse r
      | none => withKey c (tlsField c) s fun key s =>
        putHalf (c.prm 0 1) (c.prm 4 4) (c.prm 1 1) (newHalf c (wrapKey s.cry.tableKey key)) s

def execCryTlsInstall (c : Cmd) (s : State) : Res := .next (runKeyCmd opCryTlsInstall (tlsField c) c s)

/-- CRY_TLS_RESYNC: the receive half expects a record start at the number given; a key that has reached its limit stays unused. -/
def opCryTlsResync : Op := mkOp 0x100A 20 [(2, 2)] .package fun c s =>
  if c.prm 1 1 != 1 then .refuse (badParam dRange)
  else match tlsRefusal c with
    | some r => .refuse r
    | none => match tget s.cry.tls (tlsKey (c.prm 0 1) (c.prm 4 4) 1) with
      | none => .refuse (badParam dNoEntry)
      | some h => .ok [] (putHalf (c.prm 0 1) (c.prm 4 4) 1 { h with
          nextTcp := c.prm 8 4, recSeq := c.prm 12 8, st := if h.st == 4 then 4 else 1, left := 0, recLen := 0, hdr := [], acc := [] } s)

def execCryTlsResync (c : Cmd) (s : State) : Res := .next (runCmd opCryTlsResync c s)

def opCryTlsRemove : Op := mkOp 0x100B 8 [(1, 3)] .package fun c s =>
  match tlsRefusal c with
  | some r => .refuse r
  | none =>
    let k := fun (h : Nat) => tlsKey (c.prm 0 1) (c.prm 4 4) h
    if !thas s.cry.tls (k 0) && !thas s.cry.tls (k 1) then .refuse (badParam dNoEntry)
    else .ok [] (cryMod (fun x => { x with
      tls := tdel (tdel x.tls (k 0)) (k 1), holder := tdel x.holder (2 ^ 21 + tlsSession (c.prm 0 1) (c.prm 4 4)) }) s)

def execCryTlsRemove (c : Cmd) (s : State) : Res := .next (runCmd opCryTlsRemove c s)

def opCryTlsRead : Op := mkOp 0x100C 8 [(2, 2)] .package fun c s =>
  if 1 < c.prm 1 1 then .refuse (badParam dRange)
  else match tlsRefusal c with
    | some r => .refuse r
    | none => match tget s.cry.tls (tlsKey (c.prm 0 1) (c.prm 4 4) (c.prm 1 1)) with
      | none => .ok (List.replicate 16 0) s
      | some h => .ok ([byte h.st] ++ le 4 h.nextTcp ++ le 8 h.recSeq ++ List.replicate 3 0) s

def execCryTlsRead (c : Cmd) (s : State) : Res := .next (runCmd opCryTlsRead c s)

end Sys2Proof.Machine
end

