-- ==== Sys2Proof/Machine/Egress.lean ====
section
/-! DEFINITION. Packets leave the buffer: to service channels, through a port's scheduler, egress rewrite and MAC, and to the twin; and
packets that arrive from the twin (R97, R98, R109, R175, R186-R193, R198, R592, R655). -/

namespace Sys2Proof.Machine

/-! ## Service channels (R175, R394) -/

/-- CHANNEL_DELIVERY: the packet at the head of a delivery queue of a die, or of its exception queue, goes to its service channel. -/
def execChannelDelivery (d c prio : Nat) (exc : Bool) (s : State) : Res :=
  onElem (decide (1 ≤ d) && decide (d ≤ 4) && decide (c < 128) && decide (prio < 8))
    (let key := if exc then exceptionKey d else deliveryKey d c prio
     match queueGet s key with
     | [] => s
     | x :: r =>
       match x.dest, storedOf s x.id with
       | .chan ch w, some st =>
         let s := queueSet key r s
         let n := svcIndex (place w.toNat)
         let (src, why) := match x.kind with | .exception y => (2, y) | _ => (1, 0)
         let gone := outOfService s (svcPlace n) || !hasCluster (pDie (svcPlace n)) (pRegion (svcPlace n)) (pCluster (svcPlace n))
         let (s, e) := if gone then (s, .closed) else extItem n ch src why st.pkt.bytes (st.pkt.md.take 32) s
         let s := match e with | .delivered => s | _ => countA (pktG st.pkt) 13 1 s
         retireIdle 4 (dropCopy x.id s)
       | _, _ => s)

/-! ## Scheduling (R186-R189) -/

/-- What a bucket of a port lacks, in bits: 0-7 its queues, 8 the port. A rate in Mbit/s is a bit per microsecond. -/
def bucketLack (s : State) (p i rate : Nat) : Nat :=
  let t := (portGet s p).tokens
  tgetD t i 0 - rate * (nowUs s - tgetD t (16 + i) 0)

/-- May a bucket of a rate and a burst in KiB send: unshaped, or not empty? -/
def bucketOpen (s : State) (p i rate burst : Nat) : Bool := rate == 0 || decide (bucketLack s p i rate < 8192 * burst)

def bucketTake (p i rate bits : Nat) (s : State) : State :=
  if rate == 0 then s
  else portMod p (fun x => { x with tokens := tput (tput x.tokens i (bucketLack s p i rate + bits)) (16 + i) (nowUs s) }) s

def qReg (s : State) (p q : Nat) : Nat := portNow s p (0x400 + 8 * q)
def qShape (s : State) (p q : Nat) : Nat := portNow s p (0x404 + 8 * q)

/-- The head of an egress queue: its die by round robin from the queue's turn on (R188). -/
def voqHead (s : State) (p q : Nat) : Option (Nat × QCopy × Stored) :=
  let t := tgetD (portGet s p).dieTurn q 0
  (List.range 4).findSome? fun i =>
    let d := (t + i) % 4 + 1
    if !dieUp s d then none
    else match queueGet s (voqKey d p q) with
      | [] => none
      | c :: _ => (storedOf s c.id).map fun st => (d, c, st)

/-- The head of a queue that is neither paused nor without tokens (R105, R187). -/
def servable (s : State) (p q : Nat) : Option (Nat × QCopy × Stored) :=
  let r := qShape s p q
  if bit (portGet s p).paused q || !bucketOpen s p q (fld r 0 16) (fld r 16 16) then none else voqHead s p q

/-- Deficit round robin among the DWRR queues: a queue sends while its deficit covers its head, and the next gets its quantum (R186). -/
def drr (s : State) (p : Nat) : Nat → Nat → Tab Nat → Option (Nat × (Nat × QCopy × Stored) × Tab Nat)
  | 0, _, _ => none
  | n + 1, q, def_ =>
    let next := (q + 1) % 8
    let dwrr := fun (i : Nat) => if bit (qReg s p i) 0 then none else servable s p i
    let grant := fun (t : Tab Nat) => if (dwrr next).isSome then tadd t next (1024 * fld (qReg s p next) 1 7) else t
    match dwrr q with
    | some h =>
      let len := h.2.2.pkt.bytes.length + 4
      if len ≤ tgetD def_ q 0 then some (q, h, tput def_ q (tgetD def_ q 0 - len)) else drr s p n next (grant def_)
    | none => drr s p n next (grant (if (voqHead s p q).isNone then tput def_ q 0 else def_))

/-- The queue that a port serves next, its head, and the port's deficits. -/
def schedule (s : State) (p : Nat) : Option (Nat × (Nat × QCopy × Stored) × Tab Nat) :=
  let x := portGet s p
  let sh := portNow s p 0x038
  if !bucketOpen s p 8 (fld sh 0 16) (fld sh 16 16) then none
  else
    let strict := fun (q : Nat) => if bit (qReg s p q) 0 then (servable s p q).map fun h => (q, h, x.deficit) else none
    match (List.range 8).reverse.findSome? strict with
    | some r => some r
    | none => drr s p 128 x.turn x.deficit

/-! ## Egress rewrite (R191, R192) -/

/-- Captures are read from the frame at dequeue. -/
def recapture (k : Packet) : Packet := { k with slots := k.slots.map fun e => (e.1, (e.2.1, slice k.bytes e.2.1 e.2.2.length)) }

/-- The egress program of a copy: the one it names, else that of the port when enabled. -/
def egressProg (s : State) (p e : Nat) (prog : Option Nat) : Option Nat :=
  match prog with
  | some i => some i
  | none => let r := portAt s e p 0x030; if bit r 12 then some (fld r 0 12) else none

/-- A copy dropped by its egress program: the counters of R167 and R201; a fault has been counted already. -/
def egressDropped (p q g : Nat) (old s : State) : State :=
  let more := fun (n : Nat) => decide (tgetD old.tbl.acnt (64 * g + n) 0 < tgetD s.tbl.acnt (64 * g + n) 0)
  if more 18 || more 1 then s else if more 5 then countQ p q 4 1 s else countQ p q 4 1 (countA g 19 1 s)

/-- The egress rewrite unit: the frame to transmit, or none when the copy is dropped. An egress program has no action data of its own:
the bytes it reads are free values (assumption 25). -/
def egressRewrite (p q : Nat) (k : Packet) (prog : Option Nat) (s : State) : Option Packet × State :=
  let g := portG p
  match egressProg s p k.epoch prog with
  | none => (some k, s)
  | some i =>
    match versionAt (tgetD s.tbl.programs i []) k.epoch with
    | none => (none, countA g 18 1 s)
    | some ws =>
      let (t, x) := runPrims g true (freeBytes s 48) ws ({ s with freeIx := s.freeIx + 48 }, { k := recapture k })
      if x.fin.isSome then (none, egressDropped p q g s (countPass g (k.bytes.length + 4) x.counts t))
      else
        let (t, k) := editPass x.k x.ed t
        (some k, countPass g (k.bytes.length + 4) x.counts t)

/-! ## The MAC's transmit offloads (R97, R98, R655) -/

/-- Where a PTP event message begins, and its UDP header when it has one. -/
def ptpEvent (tO tI : Nat) (b : Bytes) : Option (Nat × Option IpAt) :=
  let o := 14 + 4 * tagCount tO tI b
  let isEvent := fun (m : Nat) => decide (m + 34 ≤ b.length) && decide (fld (rdN b m 1) 0 4 ≤ 3)
  if rdN b (o - 2) 2 == 0x88F7 then (if isEvent o then some (o, none) else none)
  else match findIp tO tI b with
    | some x => if x.proto == 17 && !x.frag && rdN b (x.l4 + 2) 2 == 319 && isEvent (x.l4 + 8) then some (x.l4 + 8, some x) else none
    | none => none

/-- The UDP checksum after a change of the correction field (R655, RFC 1624). -/
def ptpChecksum (x : IpAt) (m : Nat) (old new : Bytes) : Bytes :=
  if !x.v6 then splice new (x.l4 + 6) [0, 0]
  else
    let c := (List.range 4).foldl (fun c i => inetAdjust c (rdN old (m + 8 + 2 * i) 2) (rdN new (m + 8 + 2 * i) 2)) (rdN old (x.l4 + 6) 2)
    splice new (x.l4 + 6) (be 2 (if c == 0 then 0xFFFF else c))

/-- Transparent-clock correction of a PTP event message: residence time, in mode 3 with the mean link delay of the ingress port. -/
def ptpCorrect (p : Nat) (k : Packet) (s : State) : Packet × State :=
  let mode := fld (portNow s p 0x140) 0 2
  let tp := portAt s k.epoch p 0x14
  if mode < 2 then (k, s)
  else match ptpEvent (fld tp 0 16) (fld tp 16 16) k.bytes with
    | none => (k, s)
    | some (m, ip) =>
      if k.fromTwin then (k, portMod p (fun x => { x with tcUncorrected := sat 16 (x.tcUncorrected + 1) }) s)
      else
        let now : Int := (s.time.sec * 1000000000 + s.time.ns : Nat)
        let then_ : Int := (k.stamp.1 * 1000000000 + k.stamp.2 : Nat)
        let delay : Int := if mode == 3 && k.inPort < 1024 then ((portGet s k.inPort).linkDelay : Nat) else 0
        let c : Int := (rdN k.bytes (m + 8) 8 : Nat)
        let b := splice k.bytes (m + 8) (be 8 (wrap 64 (c + 65536 * (now - then_ + delay))))
        ({ k with bytes := match ip with | some x => ptpChecksum x m k.bytes b | none => b }, s)

/-- Tags inserted after the source address (R97); none when the frame would grow too long. -/
def insertTags (s : State) (p : Nat) (k : Packet) : Option Bytes :=
  let n := fld (portAt s k.epoch p 0) 10 2
  let tp := portAt s k.epoch p 0x14
  let td := portAt s k.epoch p 0x18
  let set := rd k.md 10 1
  let outer := be 2 (fld tp 0 16) ++ be 2 (if bit set 0 then rd k.md 4 2 else fld td 0 16)
  let inner := be 2 (fld tp 16 16) ++ be 2 (if bit set 1 then rd k.md 6 2 else fld td 16 16)
  let tags := if n == 1 then outer else if n == 2 then outer ++ inner else []
  let b := k.bytes.take 12 ++ tags ++ k.bytes.drop 12
  if tags.isEmpty then some k.bytes
  else if fld (portAt s k.epoch p 0x008) 0 14 < b.length + 4 then none else some b

/-- The MAC transmits a packet of a queue (R92, R192, R202). -/
def macTransmit (p q : Nat) (under : Bool) (k : Packet) (s : State) : State :=
  let (k, s) := ptpCorrect p k s
  let ctrl := portAt s k.epoch p 0
  match insertTags s p k with
  | none => countPort p 29 1 s
  | some b =>
    let moved := b.length - k.bytes.length
    let front := k.front.map fun f => { f with ip := f.ip + moved, l4 := f.l4.map (· + moved) }
    let (b, skipped) := if bit ctrl 12 then csumFill front b else (b, false)
    let s := if skipped then countPort p 42 1 s else s
    let t := secureSend p (fld (portAt s k.epoch p 0x008) 0 14) under b s
    let sent := fun (n : Nat) => tgetD (portGet t p).cnt n 0 - tgetD (portGet s p).cnt n 0
    if sent 25 == 0 then t else countQ p q 1 (sent 24) (countQ p q 0 1 t)

/-! ## Dequeue -/

def holdUs (s : State) : Nat := 1000 * fld (cfgNow s cfgBase) 0 10

/-- A copy selected by the scheduler, out of its queue. A port closed by the end of its packet numbers counts it there (R215). -/
def sendCopy (tx : TxLine) (p q : Nat) (c : QCopy) (k : Packet) (s : State) : State :=
  if !portOpen s p || !regionUp s (portDie p) (portRegion p) then (if pnSpent s p then secCount p 6 1 s else countPort p 31 1 s)
  else if usesSak s p && !tx.keyOk then countPort p 31 1 (sakFault p s)
  else if k.arrived + holdUs s < nowUs s then countQ p q 3 1 s
  else
    let (r, s) := egressRewrite p q k c.prog s
    match r with
    | none => s
    | some k =>
      let bits := 8 * (k.bytes.length + 24)
      let s := bucketTake p q (fld (qShape s p q) 0 16) bits (bucketTake p 8 (fld (portNow s p 0x038) 0 16) bits s)
      macTransmit p q tx.underrun k s

/-- A port serves its next packet. -/
def portDequeue (tx : TxLine) (p : Nat) (s : State) : State :=
  match schedule s p with
  | none => s
  | some (q, (d, c, st), def_) =>
    let s := queueSet (voqKey d p q) ((queueGet s (voqKey d p q)).drop 1) s
    let turn := if bit (qReg s p q) 0 then (portGet s p).turn else q
    let s := portMod p (fun x => { x with deficit := def_, turn := turn, dieTurn := tput x.dieTurn q (d % 4) }) s
    retireIdle 4 (dropCopy c.id (sendCopy tx p q c st.pkt s))

/-- The delivery queues of a die towards the twin, the highest queue number first (R198, R592). -/
def twinDequeue (d : Nat) (s : State) : State :=
  let head := fun (q : Nat) => match queueGet s (deliveryKey d 90 q) with | [] => none | c :: r => some (q, c, r)
  match (List.range 8).reverse.findSome? head with
  | none => s
  | some (q, c, r) =>
    let s := queueSet (deliveryKey d 90 q) r s
    match c.dest, storedOf s c.id with
    | .twin g x, some st =>
      let up := twinSettled s && (s.twin.state == .protectedSt || s.twin.state == .handedOver)
      let s := if st.pkt.arrived + holdUs s < nowUs s then countCfg 6 1 s
        else if up then emit (.twinPacket g x c.prog st.pkt.epoch st.pkt.bytes) (countA (pktG st.pkt) 15 1 s)
        else countTwin 5 1 s
      retireIdle 4 (dropCopy c.id s)
    | _, _ => s

/-- EGRESS_DEQUEUE: port `p` below 1,024 serves its queues; 1,024 + d is the die link to T0 of fabric die d. A port that receives a fault
or without a pipeline cluster to rewrite its frames sends nothing; what waits for a port of a lost region or die is discarded (R109, R197). `tx` says how the transmission goes. -/
def execEgressDequeue (p : Nat) (tx : TxLine) (s : State) : Res :=
  if p < 1024 then
    onElem true (if regionUp s (portDie p) (portRegion p) && (((portGet s p).st == .up && !macUp s p) || (portPipe s p).isNone) then s
      else portDequeue tx p s)
  else onElem (decide (1025 ≤ p) && decide (p ≤ 1028)) (twinDequeue (p - 1024) s)

/-! ## From the twin (R198) -/

/-- TWIN_PACKET_RECEIVED: a packet with its group, queue, egress program and epoch. The message carries no entropy, so the bucket of its
group is a free value. -/
def execTwinPacketReceived (g q : Nat) (prog : Option Nat) (epoch : Nat) (frame : Bytes) (s : State) : Res :=
  onElem (decide (g < 512) && decide (q < 8))
    (if !twinSettled s then s
     else if !(lookEpochs s).contains epoch then countA 0 17 1 s
     else
       let (r, s) := drawFree s
       let port := match lagAt s epoch g with | some v => v.table.getD (r % 256) 1024 | none => 1024
       if 1024 ≤ port then countA 0 16 1 s
       else
         let k : Packet := { bytes := frame, inPort := 1028, epoch := epoch, prio := 0, md := le 2 port ++ List.replicate 62 0
                             arrived := nowUs s, fromTwin := true }
         (enqueue (portDie port) k .normal false [(.port port q, prog)] (countA (portG port) 16 1 s)).2)

end Sys2Proof.Machine
end

