-- ==== Sys2Proof/Machine/Flows.lean ====
section
/-! DEFINITION. The flow engines' own rows and the FLOW commands (R248, R258, R262-R264, R267). -/

namespace Sys2Proof.Machine

/-! ## The sweep and the write-back (R248, R251, R258, R651) -/

/-- last_seen after a step of the time (R651). -/
def payOwed (f : Flow) : Flow := { f with lastSeen := (((f.lastSeen : Int) + f.owe) % 4294967296).toNat, owe := 0 }

/-- Is an entry past its timeout (R258)? -/
def flowIdle (s : State) (f : Flow) : Bool :=
  let t := if f.timeout == 0 then stateTimeout (curWords s) f.profile f.st else f.timeout
  f.timeout != 0xFFFFFFFF && decide (t ≤ now32 s - f.lastSeen)

/-- The visit of one entry: read, and removed when it is idle. Each entry of a pair goes by its own timeout (assumption 33). -/
def sweepVisit (i : Nat) (s : State) : State :=
  let s := match flowAt s i with | some f => if engineUp s f.key then readFlow f.key s else s | none => s
  match flowAt s i with
  | none => s
  | some f => if flowIdle s f then removeFlows 1 true [i] (countF f.region 10 1 s) else s

/-- FLOW_IDLE_SWEEP: engine `e` visits every entry it owns. -/
def execFlowIdleSweep (e : Nat) (s : State) : Res :=
  onElem (decide (e < 3))
    (if !ddr5Up s || outOfService s (lookupPlace e) then s
     else
       let mine := (s.flow.entries.filter fun f => flowEngine s (ownerKey s f) == e).map fun f => f.index
       let s := flowMod (fun x => { x with entries := x.entries.map fun f => if mine.contains f.index then payOwed f else f }) s
       mine.foldl (fun s i => sweepVisit i s) s)

/-- FLOW_WRITE_BACK: the cache of a region writes back the counters and last_seen of every entry it holds. -/
def execFlowWriteBack (g : Nat) (s : State) : Res :=
  onElem (decide (g < 16)) ((tgetD s.flow.cache g []).foldl (fun s i => writeFlow i s) s)

/-! ## Merges from the twin (R262-R264) -/

/-- An entry from the 128 bytes of R241; its counters are the twin's contribution. -/
def recordFlow (b : Bytes) : Flow :=
  { blankFlow (slice b 0 40) (rd b 68 4) with
    natReply := bit (rd b 40 1) 1, drop := bit (rd b 40 1) 2, origA := bit (rd b 40 1) 3, st := rd b 41 1, profile := rd b 42 1 % 16
    region := rd b 43 1 % 16, peer := rd b 44 4, natAddr := ofBe (slice b 48 4), natPort := rd b 64 2, mark := rd b 66 2
    lastSeen := rd b 72 4, timeout := rd b 76 4, twin := (rd b 80 8, rd b 88 8, rd b 96 8, rd b 104 8), own := false
    saved := (0, 0, 0, 0, rd b 72 4) }

/-- The key of the other entry of a NAT pair: the address and port of this one, and the responder (R261). -/
def pairKey (f : Flow) : Bytes :=
  flowKey (addr4 f.natAddr, f.natPort) (if f.origA then keyB f.key else keyA f.key) (rd f.key 36 1) (rd f.key 37 1 == 1) (rd f.key 38 2)

/-- The peers of a pair name each other once both are here. -/
def linkPair (f : Flow) (s : State) : State :=
  match flowFind s f.key, flowFind s (pairKey f) with
  | some x, some y => flowPut { y with peer := x.index } (flowPut { x with peer := y.index } s)
  | some x, none => flowPut { x with peer := 0xFFFFFFFF } s
  | none, _ => s

/-- A record of the twin over the local entry of its key. -/
def mergeFlow (kind : Nat) (r x : Flow) (s : State) : State :=
  let same := r.created == x.created && r.natAddr == x.natAddr && r.natPort == x.natPort
  let anew := { r with index := x.index, own := false }
  if same then
    let y := { x with st := max x.st r.st, twin := r.twin, lastSeen := max x.lastSeen r.lastSeen }
    flowPut (if kind == 2 then { y with drop := r.drop, mark := r.mark, timeout := r.timeout } else y) s
  else if x.st == 6 || !x.own then flowPut { anew with own := x.own, peer := x.peer } s
  else if s.flash.package == 0 then s
  else
    let s := if x.peer == 0xFFFFFFFF then s
      else flowLoadEvents (flowMod (fun f => { f with
        entries := f.entries.filter fun e => e.index != x.peer
        cache := tmap f.cache fun _ c => c.filter fun j => j != x.peer }) s)
    let s := flowPut anew s
    if r.peer == 0xFFFFFFFF then s else linkPair anew s

/-- FLOW_DELTA_MERGE: a change from the twin: 0 present, 1 removed, 2 drop, mark or timeout changed. -/
def execFlowDeltaMerge (kind : Nat) (record : Bytes) (s : State) : Res :=
  let r := recordFlow record
  .next (if !twinSettled s then s
    else
    let s := readFlow r.key s
    match flowFind s r.key with
      | some x => if kind == 1 then removeFlow 2 false x.index s else mergeFlow kind r x s
      | none =>
        if kind == 1 then s
        else match flowInsert r s with
          | none => s
          | some (s, _) => if r.peer == 0xFFFFFFFF then s else linkPair r s)

/-- FLOW_TWIN_LAG: the mirroring lag, in ms, above 10. -/
def execFlowTwinLag (ms : Nat) (s : State) : Res :=
  .next (if 10 < ms then raise 0x1404 (lookupPlace 0) [ms] (flowMod (fun f => { f with lag := ms }) s) else s)

/-- FLOW_TWIN_RESYNC_DONE: every entry this package created has been resent; step 4 of a join ends with it (R264, R599). -/
def execFlowTwinResyncDone (s : State) : Res :=
  .next (if !twinSettled s || !(s.flow.resync || s.twin.joinStep == 4) then s
    else
      let mine := s.flow.entries.filter fun f => f.own
      let s := emitAll (mine.map fun f => .twin (.flowDelta (byte 0 :: flowRecord f true))) s
      let s := flowMod (fun f => { f with resync := false, resent := mine.length }) s
      joinDone (raise 0x1405 (lookupPlace 0) [mine.length] s))

/-! ## The FLOW commands (R267) -/

/-- The reply of a command that a lost engine, or DDR5 not in use, prevents. -/
def engineRefusal (s : State) (key : Bytes) : Option Rep :=
  match engineOut s key with
  | some p => some (faultRep dElement (pathOf s p).toNat)
  | none => if ddr5Up s then none else some (faultRep dElement (pathOf s (lookupPlace (flowEngine s key))).toNat)

/-- Checks of a key parameter. -/
def keyReserved (c : Cmd) : Bool := fld (c.prm 37 1) 1 7 != 0

/-- Does a command come from this package's own requesters, so that the twin is to learn of its change (R248, R263)? -/
def tells (c : Cmd) : Bool := match origin c.queue with | .twin _ => false | _ => true

/-- What both packages do with a command on an entry that is present. -/
def onFlow (c : Cmd) (s : State) (act : Flow → State → Done) : Done :=
  let key := c.prmBytes 0 40
  if keyReserved c then .refuse (badParam dReserved)
  else match engineRefusal s key with
    | some r => .refuse r
    | none =>
      let s := readFlow key s
      match flowFind s key with
      | none => .reply (badParam dNoEntry) s
      | some f => act f s

/-- The entry and the tuple of an insertion. -/
def insertedFlow (c : Cmd) (s : State) : Flow × Tuple :=
  let key := c.prmBytes 0 40
  let fl := c.prm 41 1
  let own := tells c
  let (a, b) := if bit fl 0 then (keyA key, keyB key) else (keyB key, keyA key)
  ({ blankFlow key (now32 s) with
     origA := bit fl 0, drop := bit fl 1, st := c.prm 40 1, profile := c.prm 42 1, timeout := c.prm 44 4, mark := c.prm 48 2, own := own },
   { src := a, dst := b, proto := c.prm 36 1, v6 := c.prm 37 1 == 1, flags := 0, zone := c.prm 38 2 })

def opFlowInsert : Op := { mkOp 0x1401 70 [(43, 1), (50, 2)] .package (fun c s =>
    let fl := c.prm 41 1
    let (f, t) := insertedFlow c s
    let addr := ofBe (c.prmBytes 52 4)
    let nat := bit fl 2
    if fld fl 3 5 != 0 || keyReserved c then .refuse (badParam dReserved)
    else if c.prm 40 1 == 0 || 8 < c.prm 40 1 || 15 < c.prm 42 1 || (nat && (t.v6 || !(t.proto == 6 || t.proto == 17))) then
      .refuse (badParam dRange)
    else match engineRefusal s f.key with
      | some r => .refuse r
      | none =>
        if (flowFind s f.key).isSome || (nat && (flowFind s (replyKey addr (c.prm 68 2) t)).isSome) then .refuse (badParam dKeyExists)
        else
          let done := if nat then insertPair f t addr (c.prm 68 2) s else flowInsert f s
          match done with
          | none => .refuse (noResource dTableFull)
          | some (s, i) =>
            let peer := match flowAt s i with | some e => e.peer | none => 0xFFFFFFFF
            let s := if tells c then
                (pairOf s i).foldl (fun s j => match flowAt s j with | some e => flowDelta 0 e s | none => s) s
              else s
            .ok (le 4 i ++ le 4 peer) s) with
  reach := .systemWide }

def execFlowInsert (c : Cmd) (s : State) : Res := .next (runCmd opFlowInsert c s)

def opFlowDelete : Op := { mkOp 0x1402 40 [] .package (fun c s => onFlow c s fun f s => .ok [] (removeFlow 2 (tells c) f.index s)) with
  reach := .systemWide }

def execFlowDelete (c : Cmd) (s : State) : Res := .next (runCmd opFlowDelete c s)

/-- FLOW_READ: the contributions of both packages are summed (R263). -/
def opFlowRead : Op := mkOp 0x1403 41 [] .package fun c s =>
  if 2 < c.prm 40 1 then .refuse (badParam dRange)
  else onFlow c s fun f s =>
    let (t1, t2, t3, t4) := f.twin
    match c.prm 40 1 with
    | 0 => .ok ([byte f.st, byte (rd (flowRecord f false) 40 1)] ++ le 2 f.mark ++ le 4 f.lastSeen ++ le 8 (f.pktsAB + t1 + f.pktsBA + t3)) s
    | 1 => .ok (le 8 (f.pktsAB + t1) ++ le 8 (f.bytesAB + t2)) s
    | _ => .ok (le 8 (f.pktsBA + t3) ++ le 8 (f.bytesBA + t4)) s

def execFlowRead (c : Cmd) (s : State) : Res := .next (runCmd opFlowRead c s)

/-- FLOW_MODIFY changes the one entry of the key; the change is queued for the twin (R248). -/
def opFlowModify : Op := { mkOp 0x1404 48 [] .package (fun c s =>
    let m := c.prm 40 1
    if fld m 3 5 != 0 then .refuse (badParam dReserved)
    else if bit m 0 && 1 < c.prm 41 1 then .refuse (badParam dRange)
    else onFlow c s fun f s =>
      let f := { f with
        drop := if bit m 0 then c.prm 41 1 == 1 else f.drop
        mark := if bit m 1 then c.prm 42 2 else f.mark
        timeout := if bit m 2 then c.prm 44 4 else f.timeout }
      .ok [] (if tells c then flowDelta 2 f (flowPut f s) else flowPut f s)) with
  reach := .systemWide }

def execFlowModify (c : Cmd) (s : State) : Res := .next (runCmd opFlowModify c s)

/-- FLOW_FLUSH starts; one flush runs at a time (assumption 33). -/
def opFlowFlush : Op := mkOp 0x1405 4 [] .package fun c s =>
  if fld (c.prm 2 1) 2 6 != 0 then .refuse (badParam dReserved)
  else if bit (c.prm 2 1) 1 && 15 < c.prm 3 1 then .refuse (badParam dRange)
  else if s.flow.flush.isSome then .refuse (busy 0)
  else .accept 0 (flowMod (fun f => { f with flush := some (c.prm 0 2, c.prm 2 1, c.prm 3 1) }) s)

def execFlowFlush (c : Cmd) (s : State) : Res := .next (runCmd opFlowFlush c s)

/-- Does a flush name an entry? -/
def flushes (zone m prof : Nat) (f : Flow) : Bool := (!bit m 0 || rd f.key 38 2 == zone) && (!bit m 1 || f.profile == prof)

/-- FLOW_FLUSH_COMPLETE: the entries that the flush names, with their peers, are gone. -/
def execFlowFlushComplete (s : State) : Res :=
  .next (match s.flow.flush with
    | none => s
    | some (zone, m, prof) =>
      let named := (s.flow.entries.filter fun f => flushes zone m prof f).map fun f => f.index
      let before := s.flow.entries.length
      let s := named.foldl (fun s i => removeFlow 3 true i s) (flowMod (fun f => { f with flush := none }) s)
      finishKey 0x1405 0 (repOk (le 4 (before - s.flow.entries.length))) s)

end Sys2Proof.Machine
end

