-- ==== Sys2Proof/Machine/HostPackets.lean ====
section
/-! DEFINITION. Packets between host memory and the pipelines: transmit descriptors and injection, receive descriptors and delivery
(R175, R291, R300, R328, R332-R336, R351, R597). -/

namespace Sys2Proof.Machine

/-! ## Transmit (R332, R333, R336) -/

/-- Is a transmit descriptor malformed: a zero length, or a reserved field that is not zero? -/
def txBad (d : Bytes) : Bool :=
  rd d 8 2 == 0 || 9596 < rd d 8 2 || fld (rd d 10 1) 1 7 != 0 || rd d 11 1 != 0 || !allZero (slice d 16 16)

/-- Metadata of a packet from a queue pair (R333). -/
def txMeta (q : Qp) (f : Fn) (n : Nat) (tag : Bytes) : Bytes :=
  le 2 (qpInject q) ++ List.replicate 14 0 ++ fitTo 4 tag ++ le 2 n ++ [byte f.num, byte (f.link + 4 * f.pool + 8 * f.half + 128)] ++
  List.replicate 40 0

/-- The packet enters the pipeline cluster that serves inject_port; a FENCED package drops it (R597). -/
def inject (f : Fn) (n : Nat) (q : Qp) (tag data : Bytes) (s : State) : State :=
  if s.twin.state == .fenced then s
  else
    let k : Packet := { bytes := data, inPort := 1024 + f.link, epoch := curEpoch s, prio := 0, md := txMeta q f n tag
                        arrived := nowUs s, stamp := (s.time.sec, s.time.ns) }
    { s with buf := { s.buf with fresh := s.buf.fresh ++ [k] } }

/-- The transmit packet at the head of a ring completes with a status: `used` descriptors, `len` bytes. -/
def txDone (f : Fn) (n used status len : Nat) (s : State) : State :=
  let q := qpOf s f n
  let last := (q.txHead + used - 1) % 65536
  let s := qpMod f n (fun x => { x with txHead := (x.txHead + used) % 65536 }) s
  writeCompletion f n (completionEntry (last % qpTxSize q) 0 used status len 0 0 0 [] 0 0) s

/-- May the device take the next transmit packet of a queue pair: RUNNING, or a packet already begun when it was flushed or its function
shut down (R311, R336, R338)? -/
def txMay (s : State) (f : Fn) (n : Nat) : Bool :=
  let q := qpOf s f n
  let g := funcOf s f
  g.bme && !g.d3 && q.txHead != q.txTail && decide (0 < cqFree q) &&
  ((q.st == 1 && fnRuns s f) || ((q.st == 1 || q.st == 3) && readPending s f (.qpTx n)))

/-- HOST_TX_FETCH: the next packet of a queue pair. `descs` are the descriptors that host memory holds from tx_head on, and `data` the
bytes of their buffers in order. -/
def execHostTxFetch (f : Fn) (n : Nat) (descs : List Bytes) (data : Bytes) (s : State) : Res :=
  onElem (fnExists s f)
    (if !qpExists s f n || f.pool != 0 || !txMay s f n then s
     else
       let q := qpOf s f n
       let ds := (descs.map (fitTo 32)).take (min 16 ((q.txTail + 65536 - q.txHead) % 65536))
       let s := funcMod f (fun g => { g with reads := g.reads.filter fun r => !(r.st == 0 && r.use == .qpTx n) }) s
       let eop := ds.findIdx fun d => bit (rd d 10 1) 0
       let bad := ds.findIdx txBad
       if bad < ds.length && bad ≤ eop then qpError f n 4 (txDone f n (bad + 1) 5 0 s)
       else if eop == ds.length && ds.length < 16 then s
       else
         let pk := ds.take (eop + 1)
         let len := pk.foldl (fun a d => a + rd d 8 2) 0
         if eop == ds.length || len < 14 || 9596 < len then qpFetch f n (txDone f n pk.length 4 0 s)
         else
           let s := inject f n q (slice (pk.headD []) 12 4) (fitTo len data) s
           qpFetch f n (txDone f n pk.length 0 len (countQp f n 1 len (countQp f n 0 1 s))))

/-! ## Receive (R334-R336) -/

/-- Is a receive descriptor malformed? -/
def rxBad (d : Bytes) : Bool := rd d 8 2 < 64 || !allZero (slice d 10 22)

/-- The descriptors that `len` bytes need, in ring order: none when those given do not suffice. -/
def rxNeed (len : Nat) : List Bytes → Option (List Bytes)
  | [] => none
  | d :: r => if len ≤ rd d 8 2 then some [d] else (rxNeed (len - rd d 8 2) r).map fun l => d :: l

/-- The payload written into its buffers, with the Relaxed Ordering and No Snoop bits of the queue context (R290). -/
def rxFill (q : Qp) (f : Fn) : List Bytes → Bytes → State → State
  | [], _, s => s
  | d :: r, b, s => rxFill q f r (b.drop (rd d 8 2)) (hostWriteAs (qpRelaxed q) (qpNoSnoop q) f (rd d 0 8) (b.take (rd d 8 2)) s)

/-- A packet for a queue pair that receives. -/
def rxDeliver (f : Fn) (n : Nat) (descs : List Bytes) (k : Packet) (s : State) : State :=
  let q := qpOf s f n
  let avail := (q.rxTail + 65536 - q.rxHead) % 65536
  let ds := (descs.map (fitTo 32)).take (min 16 avail)
  let bad := ds.findIdx rxBad
  let used := rxNeed k.bytes.length (ds.take bad)
  if cqFree q == 0 then countQp f n 4 1 s
  else match used with
    | some l =>
      let m := l.length
      let s := rxFill q f l k.bytes s
      let s := qpMod f n (fun x => { x with rxHead := (x.rxHead + m) % 65536 }) s
      let (fl, recs, off) := k.tls
      let e := completionEntry ((q.rxHead + m - 1) % 65536 % qpRxSize q) 1 m 0 k.bytes.length (fld (rd k.md 3 1) 4 2 + 4 * (fl / 4 % 8)) recs off
        (slice k.md 20 12) (k.stamp.1 % 65536) k.stamp.2
      writeCompletion f n e (countQp f n 3 k.bytes.length (countQp f n 2 1 s))
    | none =>
      if bad < ds.length then
        let s := qpMod f n (fun x => { x with rxHead := (x.rxHead + bad + 1) % 65536 }) s
        let s := writeCompletion f n (completionEntry ((q.rxHead + bad) % 65536 % qpRxSize q) 1 (bad + 1) 5 0 0 0 0 [] 0 0) s
        qpError f n 4 s
      else if ds.length == 16 then countQp f n 6 1 s
      else countQp f n 4 1 s

/-- HOST_RX_DELIVERY: the packet at the head of a die's delivery queue for a host link, or of its exception queue. `descs` are the
descriptors that host memory holds from rx_head on. -/
def execHostRxDelivery (d link prio : Nat) (exc : Bool) (descs : List Bytes) (s : State) : Res :=
  onElem (decide (1 ≤ d) && decide (d ≤ 4) && decide (link < 4) && decide (prio < 8))
    (let key := if exc then exceptionKey d else deliveryKey d link prio
     match queueGet s key with
     | [] => s
     | x :: r =>
       match x.dest, storedOf s x.id with
       | .host f n, some st =>
         let g := funcOf s f
         let s := backlogWidens f s
         let s := queueSet key r s
         let s := if !qpExists s f n || f.pool != 0 || s.twin.state == .fenced then s
           else if (qpOf s f n).st != 1 || !fnRuns s f || g.d3 then countQp f n 5 1 s
           else if !g.bme then countQp f n 7 1 s
           else rxDeliver f n descs st.pkt s
         retireIdle 4 (dropCopy x.id s)
       | _, _ => s)

end Sys2Proof.Machine
end

