-- ==== Sys2Proof/Machine/MacRx.lean ====
section
/-! DEFINITION. A frame received by a MAC: the checks, the frames that the port keeps for itself, MACsec, tag removal, checksums, priority,
headroom and stamp (R91-R101, R105, R107, R597, R652, R654). -/

namespace Sys2Proof.Machine

/-- Tags removed on receive: the frame, the outer and inner TCI, and whether it carried too few (R96). -/
def removeTags (n tO tI : Nat) (b : Bytes) : Bytes × Option Nat × Option Nat × Bool :=
  let cut := fun (k : Nat) => b.take 12 ++ b.drop (12 + 4 * k)
  let (t1, c1, t2, c2) := (rdN b 12 2, rdN b 14 2, rdN b 16 2, rdN b 18 2)
  if n == 1 then
    if t1 == tO then (cut 1, some c1, none, false) else if t1 == tI then (cut 1, none, some c1, false) else (b, none, none, true)
  else if n == 2 then
    if t1 == tO then (if t2 == tI then (cut 2, some c1, some c2, false) else (cut 1, some c1, none, true))
    else if t1 == tI then (cut 1, none, some c1, true) else (b, none, none, true)
  else (b, none, none, false)

/-- Priority of a received data frame, before any tag is removed (R100). -/
def rxPriority (s : State) (p : Nat) (b : Bytes) : Nat :=
  let cfg := portNow s p 0x010
  let tp := portNow s p 0x014
  let byDscp := fun (d : Nat) => fld (portNow s p (0x040 + 4 * (d / 8))) (3 * (d % 8)) 3
  if isTpid (fld tp 0 16) (fld tp 16 16) (rdN b 12 2) then fld (rdN b 14 2) 13 3
  else if bit cfg 3 && rdN b 12 2 == 0x0800 then byDscp (fld (rdN b 15 1) 2 6)
  else if bit cfg 3 && rdN b 12 2 == 0x86DD then byDscp (fld (rdN b 14 2) 6 6)
  else fld cfg 0 3

/-- Is a frame a PTP message: EtherType 0x88F7, or UDP to port 319 or 320, at the outermost header (R654)? -/
def isPtp (tO tI : Nat) (b : Bytes) : Bool :=
  rdN b (12 + 4 * tagCount tO tI b) 2 == 0x88F7 ||
  match findIp tO tI b with
  | some x => x.proto == 17 && !x.frag && (rdN b (x.l4 + 2) 2 == 319 || rdN b (x.l4 + 2) 2 == 320)
  | none => false

/-- The receive stamp with the port's correction (R652). -/
def rxStamp (s : State) (p : Nat) : Nat × Nat :=
  let a : Int := (BitVec.ofNat 16 (fld (portNow s p 0x140) 16 16)).toInt
  let t := ((s.time.sec * 1000000000 + s.time.ns : Nat) + a).toNat
  (t / 1000000000, t % 1000000000)

/-- A frame beyond watermark and headroom (R107): counted, reported at most once per second. -/
def headroomDrop (p n : Nat) (s : State) : State :=
  let x := portGet s p
  let l := lastSecond s (tgetD x.hrDrops n [])
  let due := secondPassed s x.hrRaised
  let s := countPort p 12 1 (portMod p (fun x => { x with
    hrDrops := tput x.hrDrops n l, hrRaised := if due then some s.time.up else x.hrRaised }) s)
  if due then raise 0x0C09 (macPlace p) [n, l.length] s else s

/-- The priority whose watermarks and headroom bind a frame, where it is lossless (R103, R107). -/
def boundPrio (s : State) (p prio : Nat) : Option Nat :=
  let n := if fcMode s p == 1 then 0 else prio
  if (fcPrios s p).contains n then some n else none

/-- The metadata block of a received frame (R115). -/
def rxMeta (p prio flags : Nat) (outer inner : Option Nat) : Bytes :=
  le 2 p ++ [byte prio, byte flags] ++ le 2 (outer.getD 0) ++ le 2 (inner.getD 0) ++ List.replicate 56 0

/-- A data frame of the controlled port is held for parsing; `len` is its length without FCS as received, which gives its cells (R91,
R101). -/
def rxData (p len : Nat) (b : Bytes) (s : State) : State :=
  if s.twin.state == .fenced then countTwin 6 1 s
  else
    let ctrl := pCtrl s p
    let tp := portNow s p 0x014
    let (tO, tI) := (fld tp 0 16, fld tp 16 16)
    let prio := rxPriority s p b
    let (b, outer, inner, short) := removeTags (fld ctrl 8 2) tO tI b
    let s := if short then countPort p 41 1 s else s
    if fld (portNow s p 0x140) 0 2 == 1 && isPtp tO tI b then s
    else
      let sum := if bit ctrl 13 then csumVerify (frontAt (curWords s) tO tI b) b else 0
      let s := if sum == 2 then countPort p 15 1 s else s
      let n := cellsOf len
      let bound := match boundPrio s p prio with
        | some q => if wmHi s p q + headroom s p q < fcUse s p q + n then some q else none
        | none => none
      match bound with
      | some q => headroomDrop p q s
      | none =>
        let k : Packet := { bytes := b, inPort := p, epoch := curEpoch s, prio := prio
                            md := rxMeta p prio (8 * b2n short + 16 * sum) outer inner
                            cells := n, arrived := nowUs s, stamp := rxStamp s p }
        let s := fcCheck p (useAdd p prio n s)
        { s with buf := { s.buf with fresh := s.buf.fresh ++ [k] } }

/-- LACPDUs are taken by management on every port (R199). -/
def rxControlled (p len : Nat) (b : Bytes) (s : State) : State := if rdN b 12 2 == 0x8809 then s else rxData p len b s

/-- A frame that the MAC has accepted: PAUSE, PFC, LLDP and EAPOL end here, the rest passes the SecY or a closed controlled port
(R89, R105, R208, R211, R212). -/
def rxAccepted (p : Nat) (b : Bytes) (keyOk icvOk : Bool) (plain : Bytes) (s : State) : State :=
  match rdN b 12 2 with
  | 0x8808 =>
    if rdN b 14 2 == 0x0101 then pfcReceived p (rdN b 16 2) ((List.range 8).map fun i => rdN b (18 + 2 * i) 2) s
    else if rdN b 14 2 == 0x0001 then pauseReceived p (rdN b 16 2) s else s
  | 0x88CC => lldpReceived p (b.drop 14) s
  | 0x888E => s
  | _ =>
    if !secRequired s p then rxControlled p b.length b s
    else if !portOpen s p then countPort p 11 1 s
    else if usesSak s p && !keyOk then countPort p 11 1 (sakFault p s)
    else match secReceive p b icvOk plain s with
      | .pass c s => rxControlled p b.length c s
      | .drop s => s

/-- The line errors that came with a frame (R113). -/
def countLine (p : Nat) (l : RxLine) (s : State) : State :=
  countPort p 9 l.fecLost (countPort p 8 l.fecFixed (countPort p 7 l.pcs s))

/-- FRAME_RECEIVED: a frame without its FCS. `overflow`: the synchroniser FIFO overflowed; `keyOk`: the SAK passes its integrity check;
`icvOk` and `plain`: what the cited cipher finds in a secured frame. The contents of LACPDUs, MKPDUs and PTP messages have rows of their
own. -/
def execFrameReceived (p : Nat) (frame : Bytes) (line : RxLine) (overflow keyOk icvOk : Bool) (plain : Bytes) (s : State) : Res :=
  onPort p s
    (let n := frame.length + 4
     let s := if (portGet s p).st == .disabled then s else countLine p line s
     if (portGet s p).st != .up then s
     else if overflow then countPort p 14 1 (portMod p (fun x => { x with syncRx := x.syncRx + 1 }) s)
     else if n < 64 then countPort p 5 1 s
     else if maxFrame s p < n then countPort p 6 1 s
     else if !line.fcsOk then countPort p 4 1 s
     else rxAccepted p frame keyOk icvOk plain
       (countRx p n (bit (rd frame 0 1) 0) (frame.take 6 == List.replicate 6 0xFF) s))

end Sys2Proof.Machine
end

