-- ==== Sys2Proof/Machine/Spares.lean ====
section
/-! DEFINITION. Faults, grafts and losses as they happen (R37, R47, R51, R194, R582-R585). -/

namespace Sys2Proof.Machine

/-- The fault of a unit; that of a cartridge slot takes the light of its cartridge (R29, R521). -/
def unitFaults (p : Nat) (s : State) : State :=
  if isCartSlot p && dieUp s (pDie p) && !outOfService s p && slotLit (slotOf s (placeSlot p)) then cartFails (placeSlot p) (faultUnit p s)
  else faultUnit p s

/-- UNIT_FAULT (R37, R47): the unit at a place reports a fault. -/
def execUnitFault (p : Nat) (s : State) : Res := onElem (levelOf p == .unit) (unitFaults p s)

/-- UNIT_HANG (R51). -/
def execUnitHang (p : Nat) (s : State) : Res := onElem (levelOf p == .unit) (unitFaults p s)

/-- GRAFT_COMPLETE (R582): the graft that the spare at a place takes part in. -/
def execGraftComplete (sp : Nat) (s : State) : Res := onElem (isSpare sp) (graftDone sp s)

/-- GRAFT_TIMEOUT (R584): the graft has exceeded four times its bound. -/
def execGraftTimeout (sp : Nat) (s : State) : Res := onElem (isSpare sp) (graftFails sp s)

/-- ELEMENT_LOSS (R585): the element at a place is lost. -/
def execElementLoss (p : Nat) (s : State) : Res :=
  onElem (levelOf p != .absent && levelOf p != .broadcast)
    (match levelOf p with
     | .unit => contain p s
     | .cluster => loseCluster p s
     | .region => if pDie p == 0 then losePackage s else loseRegion (pDie p) (pRegion p) s
     | .die => if pDie p == 0 then losePackage s else loseDie (pDie p) s
     | _ => losePackage s)

/-- DIE_LINK_QUARTER_FAIL (R194): a quarter fails with `n` packets in flight. -/
def execDieLinkQuarterFail (p n : Nat) (s : State) : Res :=
  onElem (levelOf p == .unit && pCluster p == 17 && decide (117 ≤ pUnit p)) (if outOfService s p then s else loseQuarter p n s)

end Sys2Proof.Machine
end

