-- ==== Sys2Proof/Machine/StoCmds.lean ====
section
/-! DEFINITION. The STO commands and the end of a detachment (R359, R363, R364, R370-R372, R374, R376, R378). -/

namespace Sys2Proof.Machine

/-- STO_NQN_SET: an NQN of the table, not while a path names it. -/
def opStoNqnSet : Op := { mkOp 0x2401 2 [] .package (fun c s =>
    let i := c.prm 0 1
    let n := c.prm 1 1
    if n == 0 || 223 < n then .refuse (badParam dRange)
    else if s.sto.paths.any (fun e => e.2.hostNqn == i || e.2.subNqn == i) then .refuse (busy 0)
    else .ok [] (stoMod (fun x => { x with nqns := tput x.nqns i (c.prmBytes 2 n) }) s)) with
  need := fun b => 2 + counted 1 223 (rd b 1 1) }

def execStoNqnSet (c : Cmd) (s : State) : Res := .next (runCmd opStoNqnSet c s)

/-- Is a field of STO_PATH_ADD out of its range? -/
def pathRange (c : Cmd) : Bool :=
  decide (1024 ≤ c.prm 0 2) || decide (1 < c.prm 2 1) || c.prm 6 2 == 0 || decide (64 < c.prm 6 2) || decide (c.prm 8 2 < 2) ||
  decide (1024 < c.prm 8 2) || decide (1024 ≤ c.prm 10 2) || decide (c.prm 14 2 < 100) || decide (60000 < c.prm 14 2) || c.prm 48 1 == 0

/-- Connections in use. -/
def connsUsed (s : State) : Nat := s.sto.paths.foldl (fun n e => n + 1 + e.2.conns) 0

def opStoPathAdd : Op := mkOp 0x2402 52 [(49, 3)] .package fun c s =>
  let p := c.prm 0 2
  if fld (c.prm 3 1) 4 4 != 0 then .refuse (badParam dReserved)
  else if pathRange c then .refuse (badParam dRange)
  else if thas s.sto.paths p then .refuse (badParam dPathInUse)
  else if !thas s.sto.nqns (c.prm 4 1) || !thas s.sto.nqns (c.prm 5 1) then .refuse (badParam dNoEntry)
  else if 8192 < connsUsed s + 1 + c.prm 6 2 then .refuse (noResource 0)
  else
    let x : StoPath := {
      transport := c.prm 2 1, flags := c.prm 3 1, hostNqn := c.prm 4 1, subNqn := c.prm 5 1, conns := c.prm 6 2, depth := c.prm 8 2
      inject := c.prm 10 2, remotePort := if c.prm 12 2 == 0 then 4420 else c.prm 12 2, ioTimeout := c.prm 14 2
      localAddr := c.prmBytes 16 16, remoteAddr := c.prmBytes 32 16, kato := c.prm 48 1, st := .connecting, liveConns := 0, attempts := 0
      interval := 1, nextConn := 0, idents := [] }
    .ok ([byte (Config.stoChannel p).toNat] ++ le 4 (pathOf s (stoPlace p)).toNat) (pathConnect p (stoMod (fun y => { y with paths := tput y.paths p x }) s))

def execStoPathAdd (c : Cmd) (s : State) : Res := .next (runCmd opStoPathAdd c s)

def opStoPathRemove : Op := mkOp 0x2403 2 [] .package fun c s =>
  let p := c.prm 0 2
  if 1024 ≤ p then .refuse (badParam dRange)
  else if !thas s.sto.paths p then .refuse (badParam dNoEntry)
  else if s.sto.nss.any (fun e => e.2.paths.contains p) then .refuse (busy 0)
  else .ok [] (stoMod (fun x => { x with paths := tdel x.paths p }) s)

def execStoPathRemove (c : Cmd) (s : State) : Res := .next (runCmd opStoPathRemove c s)

/-! ## Namespaces (R363, R364, R376) -/

/-- The four path fields of STO_NS_ADD that are used, in order. -/
def nsPaths (c : Cmd) : List Nat := ((List.range 4).map fun k => c.prm (4 + 2 * k) 2).filter fun p => p != 0xFFFF

/-- What the live paths of a namespace have reported of it. -/
def reported (s : State) (n : Ns) : List NsIdent :=
  (livePaths s n).filterMap fun p => match tget s.sto.paths p with | some x => x.idents.find? fun d => d.nsid == n.remoteNsid | none => none

def isAttached (s : State) (i : Nat) : Bool := s.sto.attach.any fun a => a.ns == i

def opStoNsAdd : Op := mkOp 0x2404 18 [] .package fun c s =>
  let i := c.prm 0 2
  let ps := nsPaths c
  if fld (c.prm 3 1) 3 5 != 0 then .refuse (badParam dReserved)
  else if 1024 ≤ i || 3 < c.prm 2 1 || ps.any (fun p => decide (1024 ≤ p)) || 600 < c.prm 16 2 then .refuse (badParam dRange)
  else if ps.any (fun p => !thas s.sto.paths p) then .refuse (badParam dNoEntry)
  else if isAttached s i then .refuse (busy 0)
  else
    let n : Ns := { format := c.prm 2 1, flags := c.prm 3 1, paths := ps, remoteNsid := c.prm 12 4, hold := c.prm 16 2, st := 0, capacity := 0
                    key := none, turn := 0 }
    let ds := reported s n
    let st := if ds.any (mismatched n) then 5 else if isXts n then 4 else nsServe s n
    let n := { n with st := st, capacity := (ds.map fun d => d.nsze).headD 0 }
    .ok [] (stoMod (fun x => { x with nss := tput x.nss i n, checks := tdel x.checks i }) s)

def execStoNsAdd (c : Cmd) (s : State) : Res := .next (runCmd opStoNsAdd c s)

def opStoNsRemove : Op := mkOp 0x2405 2 [] .package fun c s =>
  let i := c.prm 0 2
  if 1024 ≤ i then .refuse (badParam dRange)
  else if !thas s.sto.nss i then .refuse (badParam dNoEntry)
  else if isAttached s i then .refuse (busy 0)
  else .ok [] (stoMod (fun x => { x with nss := tdel x.nss i, checks := tdel x.checks i }) s)

def execStoNsRemove (c : Cmd) (s : State) : Res := .next (runCmd opStoNsRemove c s)

def nsField (c : Cmd) : KeyField := { wrapped := true, size := 64, slot := c.prm 2 1, off := 4 }

/-- STO_NS_KEY: the 64-byte key unwrapped with its integrity check; the halves differ, and the check value agrees with the one stored. -/
def opStoNsKey : Op := mkOp 0x2408 76 [(3, 1)] .package fun c s =>
  let i := c.prm 0 2
  if 1024 ≤ i || 63 < c.prm 2 1 then .refuse (badParam dRange)
  else match tget s.sto.nss i with
    | none => .refuse (badParam dNoEntry)
    | some n =>
      if n.st != 4 then .refuse (badParam dKeySet)
      else match importKey c (nsField c) s with
        | (.inl r, s) => .reply r s
        | (.inr key, s) =>
          let check := cipher (key.take 32 ++ List.replicate 16 0) 8
          if key.take 32 == key.drop 32 then .reply (badParam 0) s
          else if thas s.sto.checks i && tget s.sto.checks i != some check then .reply (badParam dKeyMismatch) s
          else .ok [] (pumpNs i (nsUnlock i key (stoMod (fun x => { x with checks := tput x.checks i check }) s)))

def execStoNsKey (c : Cmd) (s : State) : Res := .next (runKeyCmd opStoNsKey (nsField c) c s)

/-! ## Attachments (R370, R371) -/

/-- The submitter that a command names in bytes [2] and [7:4], or why it names none. -/
def attachWho (c : Cmd) (s : State) : Rep ⊕ Submitter :=
  let r := c.prm 4 4
  if c.prm 2 1 == 1 then (if 32 ≤ c.prm 4 1 then .inl (badParam dRange) else .inr (.bed (c.prm 4 1)))
  else if c.prm 2 1 != 0 then .inl (badParam dRange)
  else if !refOk r then .inl (badParam dReserved)
  else
    let f := refFn r
    if f.pool != 1 || !halfExists s f.link f.half || 128 < f.num then .inl (badParam dRange) else .inr (.controller f)

/-- Key of a detachment in progress. -/
def detachKey (i : Nat) (who : Submitter) : Nat := 65536 * i + (match who with | .controller f => fnKey f | .bed b => 32768 + b)

/-- Would a write attachment break the rule of one writer? -/
def writerClash (s : State) (i : Nat) (shared : Bool) : Bool :=
  s.sto.attach.any fun a => a.ns == i && a.write && !(shared && a.shared)

def tellChange (who : Submitter) (nsid : Nat) (s : State) : State :=
  match who with | .controller f => nsChanged f nsid s | .bed _ => s

def opStoNsAttach : Op := mkOp 0x2406 10 [] .package fun c s =>
  let i := c.prm 0 2
  let nsid := c.prm 8 2
  let write := bit (c.prm 3 1) 0
  let shared := bit (c.prm 3 1) 1
  if fld (c.prm 3 1) 2 6 != 0 then .refuse (badParam dReserved)
  else if 1024 ≤ i then .refuse (badParam dRange)
  else match attachWho c s with
    | .inl r => .refuse r
    | .inr who =>
      let host := c.prm 2 1 == 0
      if host && (nsid == 0 || 1024 < nsid) then .refuse (badParam dRange)
      else if !thas s.sto.nss i then .refuse (badParam dNoEntry)
      else if s.sto.attach.any fun a => a.who == who && (a.ns == i || (host && a.nsid == nsid)) then .refuse (badParam dKeyExists)
      else if write && writerClash s i shared then .refuse (badParam dWriterExists)
      else
        let a : Attach := { ns := i, who := who, nsid := if host then nsid else 0, write := write, shared := shared, detaching := false }
        .ok [] (tellChange who nsid (stoMod (fun x => { x with attach := x.attach ++ [a] }) s))

def execStoNsAttach (c : Cmd) (s : State) : Res := .next (runCmd opStoNsAttach c s)

def opStoNsDetach : Op := mkOp 0x2407 8 [] .package fun c s =>
  let i := c.prm 0 2
  if 1024 ≤ i then .refuse (badParam dRange)
  else match attachWho c s with
    | .inl r => .refuse r
    | .inr who => match s.sto.attach.find? fun a => a.who == who && a.ns == i with
      | none => .refuse (badParam dNoEntry)
      | some a =>
        if a.detaching then .refuse (busy 0)
        else .accept (detachKey i who) (tellChange who a.nsid (stoMod (fun x => { x with attach := x.attach.map fun b =>
          if b.who == who && b.ns == i then { b with detaching := true } else b }) s))

def execStoNsDetach (c : Cmd) (s : State) : Res := .next (runCmd opStoNsDetach c s)

/-- NS_DETACH_COMPLETE: the attachment's outstanding commands are done; `bed` says which the reference names. -/
def execNsDetachComplete (i : Nat) (who : Option Nat) (f : Fn) (s : State) : Res :=
  let w : Submitter := match who with | some b => .bed b | none => .controller f
  .next (if !s.sto.attach.any (fun a => a.ns == i && a.who == w && a.detaching) then s
    else if s.sto.cmds.any fun c => c.ns == i && c.who == w && !c.orphan then s
    else finishKey 0x2407 (detachKey i w) (repOk [])
      (stoMod (fun x => { x with attach := x.attach.filter fun a => !(a.ns == i && a.who == w) }) s))

/-- The live paths of a namespace as a mask of its list. -/
def liveMask (s : State) (n : Ns) : Nat := ((n.paths.mapIdx fun k p => if pathLive s p then 2 ^ k else 0)).sum

def pathCode (x : StoPath) : Nat := match x.st with | .connecting => 1 | .live => 2 | .down => 3

def opStoRead : Op := mkOp 0x2409 3 [] .package fun c s =>
  let i := c.prm 1 2
  if 1 < c.prm 0 1 || 1024 ≤ i then .refuse (badParam dRange)
  else if c.prm 0 1 == 0 then
    match tget s.sto.paths i with
    | none => .refuse (badParam dNoEntry)
    | some x => .ok ([byte (pathCode x), byte x.liveConns] ++ le 2 (pathSent s i) ++ le 4 x.attempts) s
  else
    match tget s.sto.nss i with
    | none => .refuse (badParam dNoEntry)
    | some n => .ok ([byte (nsShown s n), byte (liveMask s n)] ++ le 2 (nsSent s i) ++ le 8 n.capacity) s

def execStoRead (c : Cmd) (s : State) : Res := .next (runCmd opStoRead c s)

end Sys2Proof.Machine
end

