-- ==== Sys2Proof/Machine/Sys.lean ====
section
/-! DEFINITION. The SYS and PORT commands, firmware images and the boot mailbox (R451-R453, R460, R461, R611, R613, R614, R621). -/

namespace Sys2Proof.Machine

/-! ## SYS (R451) -/

def opSysNop : Op := mkOp 0x0001 0 [] .package fun _ s => .ok [] s

def execSysNop (c : Cmd) (s : State) : Res := .next (runCmd opSysNop c s)

/-- Twin byte of SYS_INFO: 0 alone, 1 protected, 2 unprotected. -/
def twinByte (s : State) : Nat :=
  if s.twin.state == .alone then 0 else if twinProtected s then 1 else 2

def opSysInfo : Op := mkOp 0x0002 0 [] .package fun _ s =>
  .ok (le 2 0x4028 ++ [byte Config.siliconRev.toNat, byte (lifeCode s.boot.lifecycle)] ++ le 8 Config.packageSerial.toNat ++
    [byte s.flash.system, byte s.flash.package, byte (twinByte s), 0]) s

def execSysInfo (c : Cmd) (s : State) : Res := .next (runCmd opSysInfo c s)

def opSysEpochRead : Op := mkOp 0x0003 0 [] .package fun _ s =>
  .ok (le 4 (curEpoch s) ++ le 4 (oldestEpoch s) ++ [byte s.cfg.live.length, byte (b2n s.cfg.stage.isSome)] ++
    le 4 (match s.cfg.stage with | some g => g.epoch | none => 0)) s

def execSysEpochRead (c : Cmd) (s : State) : Res := .next (runCmd opSysEpochRead c s)

/-- Ledger fields are those of a spare; any other element reads stands_for 0, state 0xFF, since 0. -/
def opSysPathQuery : Op := mkOp 0x0004 0 [] .anyElement fun c s =>
  let p := c.place
  let l := ledger s p
  .ok (byte (pathStatus s p) ::
    (if isSpare p then le 4 l.standsFor.toNat ++ [byte (spareCode l.state)] ++ le 4 l.since else [0, 0, 0, 0, 0xFF, 0, 0, 0, 0])) s

def execSysPathQuery (c : Cmd) (s : State) : Res := .next (runCmd opSysPathQuery c s)

/-! ## Drain (R452) -/

/-- Only a drain needs the twin's protection: a return takes nothing out of service (assumption 107). -/
def opSysDrain : Op := mkOp 0x0005 2 [] .dieOrRegion fun c s =>
  let p := c.place
  if 1 < c.prm 0 1 then .refuse (badParam dRange)
  else if 1 < c.prm 1 1 then .refuse (badParam dReserved)
  else if c.prm 0 1 == 1 then
    if !bit (c.prm 1 1) 0 && !twinProtected s then .refuse (busy dUnprotected)
    else .accept p (drainPath s p)
  else
    .accept (p + 2 ^ 27) (raise 0x0002 g0Place [(pathOf s p).toNat, 0] (undrainPath s p)) (fun s => finishKey 0x0005 (p + 2 ^ 27) (repOk []) s)

def execSysDrain (c : Cmd) (s : State) : Res := .next (runCmd opSysDrain c s)

/-- SYS_DRAINED: the egress queues of the target's ports are empty, or 100 ms have passed. -/
def execSysDrained (p : Nat) (s : State) : Res :=
  onElem (Target.dieOrRegion.takes p)
    (if (owedBy s 0x0005 p).isSome then finishKey 0x0005 p (repOk []) (raise 0x0002 g0Place [(pathOf s p).toNat, 1] s) else s)

/-! ## Reset (R453) -/

/-- Kind 2 restarts the package whatever the target names. A restart of a fabric die is refused while another runs. -/
def opSysReset : Op := mkOp 0x0006 2 [] .dieOrPackage fun c s =>
  let p := c.place
  let kind := c.prm 0 1
  let force := bit (c.prm 1 1) 0
  let fabric := levelOf p == .die && pDie p != 0
  if kind != 1 && kind != 2 then .refuse (badParam dRange)
  else if 1 < c.prm 1 1 then .refuse (badParam dReserved)
  else if kind == 1 && levelOf p == .package then .refuse (badParam dRange)
  else if !force && !twinProtected s then .refuse (busy dUnprotected)
  else if kind == 1 && fabric then
    if s.power.dieRestart.isSome then .refuse (busy 0)
    else .accept (pDie p) s (startDieRestart (pDie p) force)
  else .ok [] (powerMod (fun x => { x with restartDue := some 3 }) s)

def execSysReset (c : Cmd) (s : State) : Res := .next (runCmd opSysReset c s)

/-! ## Firmware (R613, R614) -/

/-- Key of a load: image, offset, length. -/
def opSysFwLoad : Op := mkOp 0x0007 24 [(2, 6)] .package fun c s =>
  let i := c.prm 0 1
  let len := c.prm 16 4
  let off := c.prm 20 4
  if 1 < i || 1 < c.prm 1 1 || 0x2000000 < off + len then .refuse (badParam dRange)
  else if !s.boot.recovery && i == s.boot.running then .refuse (busy dInUse)
  else
    let key := bufKey (i + 2 * off + 2 ^ 33 * len) (c.prm 1 1) (c.prm 8 8)
    if s.boot.recovery && c.prm 1 1 == 1 then .accept key s
    else match bufferRefusal s c.queue (c.prm 1 1) (c.prm 8 8) len false with
      | some r => .refuse r
      | none => .accept key s

def execSysFwLoad (c : Cmd) (s : State) : Res := .next (runCmd opSysFwLoad c s)

/-- The whole image is judged (R609, R613): the first refusal, and the image as it stands. `oroarnin` says whether the
chain and signature of the Oroarnin sections verify; `owner` is the owner section, none where its chain or signature does not. -/
def judgeImage (s : State) (x : FwImage) (oroarnin : Bool) (owner : Option Owner) (digests : List Nat) : Rep × FwImage :=
  let x := { x with written := [], owner := owner.getD {}, ownerOk := owner.isSome && bit (rd x.header 18 1) 0 }
  if !headerOk x.header then (badParam dFormat, { x with bad := 1 })
  else if !oroarnin || (ownerUsed s && !x.ownerOk) then (denied dSignature, { x with bad := 2 })
  else if rd x.header 16 2 < s.boot.fuses then (denied dRollback, { x with bad := 3 })
  else (repOk [], { x with verified := true, version := rd x.header 12 4, svn := rd x.header 16 2, digests := digests })

/-- FW_IMAGE_VERIFIED: the load's bytes are in flash (`data` is what host memory held; `ok` false when the read failed), and, where the
bytes first cover the image, it has been verified. -/
def execFwImageVerified (q : QueueId) (tag : Nat) (ok : Bool) (data : Bytes) (oroarnin : Bool) (owner : Option Owner) (digests : List Nat) (s : State) : Res :=
  .next (match owedAt s 0x0007 q tag with
    | none => s
    | some o =>
      if !ok then finish o (faultRep dHostAccess (hostElement s o.queue)) s
      else
        let w := keyWhat o.key
        let i := w % 2
        let off := w / 2 % 2 ^ 32
        let len := w / 2 ^ 33 % 2 ^ 32
        let d := if keySpace o.key == 1 then memRead s (keyAddr o.key) (min len 512) else data
        let s := if keySpace o.key == 1 then countBulk (keyAddr o.key) len s else s
        let old := fwImage s i
        let head := if off < 512 then splice (fitTo 512 old.header) off (fitTo (min len (512 - off)) d) else fitTo 512 old.header
        let x := { old with written := old.written ++ [(off, len)], header := head, verified := false }
        let end_ := coverEnd x.written x.written.length 0
        if max 512 (min 0x2000000 (rd head 8 4)) ≤ end_ then
          let (r, x) := judgeImage s x oroarnin owner digests
          finish o r (imageMod i (fun _ => x) s)
        else finish o (repOk []) (imageMod i (fun _ => x) s))

/-- The selector goes to both flash devices. -/
def selectImage (i : Nat) (s : State) : State :=
  let n := s.boot.selSeq + 1
  toFlash 7 i (le 8 n) (bootMod (fun b => { b with selected := i, selSeq := n }) s)

/-- What the restart flag starts: the dies whose digests differ one at a time, or a handover and a restart of the package (R614). -/
def restartDies (i : Nat) (s : State) : State :=
  let new := (fwImage s i).digests
  let old := (fwImage s s.boot.running).digests
  let differ := fun d => new.getD d 0 != old.getD d 0
  if differ 0 then startHandover (powerMod (fun p => { p with restartDue := some 4 }) s)
  else
    match (span 1 4).filter differ with
    | [] => activated i s
    | d :: r => startDieRestart d false (powerMod (fun p => { p with restartList := r ++ [0] }) s)

/-- SYS_FW_ACTIVATE. In recovery the hub die restarts once a valid image is selected (R611). -/
def opSysFwActivate : Op := mkOp 0x0008 2 [] .package fun c s =>
  let i := c.prm 0 1
  let restart := bit (c.prm 1 1) 0
  if 1 < i then .refuse (badParam dRange)
  else if 1 < c.prm 1 1 then .refuse (badParam dReserved)
  else if !(fwImage s i).verified then .refuse (badParam dFormat)
  else if s.boot.recovery then
    .accept i (selectImage i s) (fun s =>
      let s := finishKey 0x0008 i (repOk []) s
      if imageValid s i then commandRestart 4 s else s)
  else if !restart then .accept i (selectImage i s) (fun s => finishKey 0x0008 i (repOk []) s)
  else if !twinProtected s then .refuse (busy dUnprotected)
  else if s.power.dieRestart.isSome || s.power.restartDue.isSome then .refuse (busy 0)
  else .accept i (selectImage i s) (restartDies i)

def execSysFwActivate (c : Cmd) (s : State) : Res := .next (runCmd opSysFwActivate c s)

/-- BOOT_MAILBOX_WRITE (R611, R621, R624): a life-cycle request waits for the next hub start; in recovery a command is taken with opcode,
as from the queue of requester 70. RETIRED admits no record. -/
def execBootMailboxWrite (lc : Option LcReq) (cmd : Option (Nat × Cmd)) (s : State) : Res :=
  .next (if s.boot.lifecycle == .retired then s
    else
      let s := match lc with
        | some r => bootMod (fun b => { b with lcRequest := some r }) s
        | none => s
      match cmd with
      | some (op, c) => if s.boot.recovery then submit [(op, { c with queue := .jtag })] s else s
      | none => s)

/-! ## PORT (R460, R461) -/

/-- A MAC unit that can be read: its region is in service (R585). -/
def macServes (s : State) (p : Nat) : Bool := regionUp s (pDie p) (pRegion p)

def opPortRead : Op := mkOp 0x0C01 3 [] .mac fun c s =>
  let p := macPort c.place
  let off := c.prm 0 2
  let len := c.prm 2 1
  if off % 4 != 0 || !(len == 4 || len == 8 || len == 16) || 4096 < off + len then .refuse (badParam dRange)
  else if !macServes s c.place then .refuse (faultRep dElement c.target.toNat)
  else
    let words := (List.range (len / 4)).map fun k => portAddr p (off + 4 * k)
    .ok (words.flatMap fun a => le 4 (areaReg s a)) (words.foldl (fun s a => areaRead a s) s)

def execPortRead (c : Cmd) (s : State) : Res := .next (runCmd opPortRead c s)

/-- A port restarted by command. -/
def portRestart (p : Nat) (s : State) : State :=
  if !regionUp s (portDie p) (portRegion p) then s
  else match (portGet s p).st with
    | .disabled => s
    | .up => linkDown p 5 s
    | _ => startSearch p s

/-- The ports whose MAC units a target names. R6 lets PORT_RESTART take a broadcast path and skips the members that do not exist; of a
path whose members are not MAC units, or stand above unit level, the spec does not speak: the command answers OK and restarts the ports
whose MAC units the fields match, which may be none (DESIGN CHOICE, assumption 129). -/
def portsNamed (w : Nat) : List Nat :=
  (List.range 1024).filter fun p =>
    let m := macPlace p
    fieldMatch (pDie w) 7 (pDie m) && fieldMatch (pRegion w) 15 (pRegion m) && fieldMatch (pCluster w) 31 (pCluster m) &&
    fieldMatch (pUnit w) 127 (pUnit m)

def opPortRestart : Op := mkOp 0x0C02 0 [] .macs fun c s => .ok [] ((portsNamed c.place).foldl (fun s p => portRestart p s) s)

def execPortRestart (c : Cmd) (s : State) : Res := .next (runCmd opPortRestart c s)

/-- Bytes per port of a set of counters. -/
def setBytes (k : Nat) : Nat := if k == 1 then 256 else 512

def opPortSnapshot : Op := mkOp 0x0C03 16 [(6, 2)] .package fun c s =>
  let first := c.prm 0 2
  let n := c.prm 2 2
  let k := c.prm 4 1
  if n == 0 || 1024 < first + n || 2 < k || c.prm 8 8 % 64 != 0 || 1 < c.prm 5 1 then .refuse (badParam dRange)
  else match bufferRefusal s c.queue (c.prm 5 1) (c.prm 8 8) (n * setBytes k) true with
    | some r => .refuse r
    | none => .accept (bufKey (first + 2 ^ 10 * n + 2 ^ 21 * k) (c.prm 5 1) (c.prm 8 8)) s

def execPortSnapshot (c : Cmd) (s : State) : Res := .next (runCmd opPortSnapshot c s)

/-- The counters of a set of a port. -/
def counterBlock (s : State) (k p : Nat) : Bytes :=
  if k == 0 then (List.range 64).flatMap fun n => le 8 (portCnt s p n)
  else if k == 1 then (List.range 32).flatMap fun n => le 8 (tgetD (mkaOf s p).cnt n 0)
  else (List.range 64).flatMap fun n => le 8 (let v := tgetD (portGet s p).qcnt n 0; if n % 8 == 1 then v else v % 2 ^ 48)

def execPortSnapshotComplete (q : QueueId) (tag : Nat) (ok : Bool) (s : State) : Res :=
  .next (match owedAt s 0x0C03 q tag with
    | none => s
    | some o =>
      let w := keyWhat o.key
      let first := w % 2 ^ 10
      let n := w / 2 ^ 10 % 2 ^ 11
      let k := w / 2 ^ 21
      finishBuffer o ok ((span first n).flatMap (counterBlock s k)) (le 4 (n * setBytes k)) s)

/-- Without a partner nothing is written, and the age is a free value. -/
def opPortPartnerRead : Op := mkOp 0x0C04 18 [(1, 7)] .mac fun c s =>
  let p := macPort c.place
  if 1 < c.prm 0 1 then .refuse (badParam dRange)
  else match bufferRefusal s c.queue (c.prm 0 1) (c.prm 8 8) (c.prm 16 2) true with
    | some r => .refuse r
    | none =>
      match (portGet s p).partner with
      | none =>
        let (v, s) := drawFree s
        .ok [0, 0, byte v] s
      | some x =>
        if c.prm 16 2 < x.raw.length then .refuse (noResource dBufferShort)
        else match bufferWrite c.queue (c.prm 0 1) (c.prm 8 8) x.raw s with
          | some s => .ok (le 2 x.raw.length ++ [byte (sat 8 ((s.time.up - x.at_) / 1000000))]) s
          | none => .refuse (faultRep dHostAccess (hostElement s c.queue))

def execPortPartnerRead (c : Cmd) (s : State) : Res := .next (runCmd opPortPartnerRead c s)

end Sys2Proof.Machine
end

