-- ==== Sys2Proof/Machine/TimeLog.lean ====
section
/-! DEFINITION. References and PTP, the log writer, and the LOG commands (R648-R662). -/

namespace Sys2Proof.Machine

/-! ## References (R648, R649) -/

/-- Holdover begins, for a cause. -/
def holdover (cause : Nat) (s : State) : State :=
  raise 0x3C02 timePlace [cause] (timeMod (fun t => { t with locked := false, holdover := true }) s)

/-- TK_REF_LOSS (R649): the timekeeper runs on REFCLK_MEM. Source 0 does not use TK_REF. -/
def execTkRefLoss (s : State) : Res :=
  .next (
    let was := s.time.refPresent
    let s := timeMod (fun t => { t with refPresent := false }) s
    if was && timeSource s != 0 then holdover 1 s else s)

/-- TK_PPS_LOSS (R649): no edge for 2 s. -/
def execTkPpsLoss (s : State) : Res :=
  .next (
    let was := s.time.ppsPresent
    let s := timeMod (fun t => { t with ppsPresent := false }) s
    if was && timeSource s == 2 then holdover 2 s else s)

/-- PTP_MASTER_LOSS (R649). -/
def execPtpMasterLoss (s : State) : Res :=
  .next (
    let was := s.time.masterPresent
    let s := timeMod (fun t => { t with masterPresent := false }) s
    if was && timeSource s == 3 then holdover 3 s else s)

/-- TIME_SOURCE_RETURN (R649, R650): a reference is present: 1 TK_REF, 2 TK_PPS, 3 a master; the offset measured against it in ns is slewed. -/
def execTimeSourceReturn (which : Nat) (off : Int) (s : State) : Res :=
  .next (
    let s := timeMod (fun t => if which == 1 then { t with refPresent := true } else if which == 2 then { t with ppsPresent := true }
      else if which == 3 then { t with masterPresent := true } else t) s
    if which == timeSource s && (which == 2 || which == 3) then slewOffset off (measured off s) else s)

/-- Are the references of the configured source present (R648)? -/
def refsPresent (s : State) : Bool :=
  match timeSource s with
  | 0 => false
  | 1 => s.time.refPresent
  | 2 => s.time.refPresent && s.time.ppsPresent
  | _ => s.time.refPresent && s.time.masterPresent

/-- TIME_LOCK_ACHIEVED (R648, R649): the lock condition has held for its period; holdover ends. -/
def execTimeLockAchieved (s : State) : Res :=
  .next (if refsPresent s && !timeLocked s then
      raise 0x3C01 timePlace [timeSource s] (timeMod (fun t => { t with locked := true, lockedTo := timeSource s, wasLocked := true, holdover := false }) s)
    else s)

/-- TIME_FLASH_WRITE (R651). -/
def execTimeFlashWrite (s : State) : Res := .next (writeTime s)

/-! ## PTP (R651-R654) -/

/-- PTP_MESSAGE_RECEIVED (R651, R653, R654): a message on a boundary-clock port reaches management: whether the port is in SLAVE state, the
message type (0 Sync), the domain, the time that a Sync gives and the offset measured with it in ns. Other messages, and those of another
domain, act on nothing that the device holds. On a port in mode 3, `off` of a Pdelay_Resp (3) is the mean link delay that it completes the
measurement of (R655; DESIGN CHOICE, assumption 113). -/
def execPtpMessageReceived (p : Nat) (slave : Bool) (type domain sec ns : Nat) (off : Int) (s : State) : Res :=
  onElem (decide (p < 1024))
    (if fld (portNow s p 0x140) 0 2 == 3 && type == 3 && domain == fld (cfgNow s (cfgBase + 0x300)) 8 8 then
       portMod p (fun x => { x with linkDelay := off.toNat % 2 ^ 32 }) s
     else if fld (portNow s p 0x140) 0 2 != 1 || !slave || type != 0 || domain != fld (cfgNow s (cfgBase + 0x300)) 8 8 then s
     else
       let s := timeMod (fun t => { t with masterPresent := true }) s
       if !s.time.todSet then timeMod (fun t => { t with todSet := true }) (stepTime sec ns s)
       else if timeSource s == 3 then slewOffset off (measured off s)
       else s)

/-- PORT_PTP_TXTS_READ (R654): the oldest transmit stamp of a port is taken from its queue. -/
def execPortPtpTxtsRead (p : Nat) (s : State) : Res :=
  onElem (decide (p < 1024))
    (let v := (List.range 4).foldl (fun v k => v + portReg s p (0x150 + 4 * k) * 2 ^ (32 * k)) 0
     portRegRead p 0x150 (emit (.readValue (portAddr p 0x150) v) s))

/-! ## The log writer (R657, R658, R661) -/

/-- LOG_APPEND: the writer appends the oldest event of its intake queue. -/
def execLogAppend (s : State) : Res :=
  .next (match s.log.intake with
    | [] => s
    | e :: r => logAppend e (evlogMod (fun l => { l with intake := r }) s))

/-! ## Commands (R659, R662) -/

/-- LOG_READ: first sequence, count, space and address in the key. -/
def opLogRead : Op := mkOp 0x3C01 24 [(11, 5)] .package fun c s =>
  let n := c.prm 8 2
  if n == 0 || 4096 < n then .refuse (badParam dRange)
  else match bufferRefusal s c.queue (c.prm 10 1) (c.prm 16 8) (64 * n) true with
    | some r => .refuse r
    | none => .accept (bufKey (c.prm 0 8 + 2 ^ 64 * n) (c.prm 10 1) (c.prm 16 8)) s

def execLogRead (c : Cmd) (s : State) : Res := .next (runCmd opLogRead c s)

/-- Records from `n` on, at most `k` and none beyond the newest: their bytes, how many were skipped for poison, and the next sequence. -/
def recordsFrom (s : State) : Nat → Nat → Bytes × Nat × Nat
  | 0, n => ([], 0, n)
  | k + 1, n =>
    if s.log.next ≤ n then ([], 0, n)
    else
      match recordAt s n with
      | some b => let (r, x, m) := recordsFrom s k (n + 1); (b ++ r, x, m)
      | none => let (r, x, m) := recordsFrom s k (n + 1); (r, x + 1, m)

/-- LOG_READ_COMPLETE (R659): the records have been written to the buffer of the command of a queue and tag, or host memory failed. -/
def execLogReadComplete (q : QueueId) (tag : Nat) (ok : Bool) (s : State) : Res :=
  .next (match owedAt s 0x3C01 q tag with
    | none => s
    | some o =>
      let first := max (keyWhat o.key % 2 ^ 64) (oldestRecord s)
      let (b, skipped, m) := recordsFrom s (keyWhat o.key / 2 ^ 64) first
      let s := evlogMod (fun l => { l with lost := l.lost + skipped }) s
      let s := if ddr5Up s then (span first (m - first)).foldl (fun s n => countReads (logBase + 64 * (n % 65536)) 64 s) s else s
      finishBuffer o ok b (le 8 m ++ le 8 s.log.lost) s)

/-- LOG_TRACE_ARM: 1 clears the buffer and arms it, 0 freezes it (R662). -/
def opLogTraceArm : Op := mkOp 0x3C02 1 [] .cluster fun c s =>
  if c.prm 0 1 == 1 then .ok [] (evlogMod (fun l => { l with traces := tput l.traces (clusterIndex c.place) { armed := true, entries := [] } }) s)
  else if c.prm 0 1 == 0 then .ok [] (traceFreeze c.place 2 s)
  else .refuse (badParam dRange)

def execLogTraceArm (c : Cmd) (s : State) : Res := .next (runCmd opLogTraceArm c s)

/-- The 16 bytes of a trace entry (R661). -/
def traceBytes (e : TraceEntry) : Bytes := le 8 e.time ++ le 2 e.code ++ [byte e.unit, 0] ++ le 4 e.datum

def opLogTraceRead : Op := mkOp 0x3C03 16 [(1, 7)] .cluster fun c s =>
  match bufferRefusal s c.queue (c.prm 0 1) (c.prm 8 8) 4096 true with
  | some r => .refuse r
  | none => .accept (bufKey (clusterIndex c.place) (c.prm 0 1) (c.prm 8 8)) s

def execLogTraceRead (c : Cmd) (s : State) : Res := .next (runCmd opLogTraceRead c s)

/-- LOG_TRACE_READ_COMPLETE (R662). -/
def execLogTraceReadComplete (q : QueueId) (tag : Nat) (ok : Bool) (s : State) : Res :=
  .next (match owedAt s 0x3C03 q tag with
    | none => s
    | some o =>
      let b := (tgetD s.log.traces (keyWhat o.key) {}).entries.flatMap traceBytes
      finishBuffer o ok b (le 2 b.length) s)

end Sys2Proof.Machine
end

