-- ==== Sys2Proof/Machine/Dispatch.lean ====
section
/-! DEFINITION. The dispatch: one arm per constructor of `Instr`, each a direct call of that command's meaning. -/

namespace Sys2Proof.Machine

def exec (i : Instr) (s : State) : Host.Outcome State Fault Refusal :=
  match i with
  | .sysNop c => Sys2Proof.Machine.execSysNop c s
  | .sysInfo c => Sys2Proof.Machine.execSysInfo c s
  | .sysEpochRead c => Sys2Proof.Machine.execSysEpochRead c s
  | .sysPathQuery c => Sys2Proof.Machine.execSysPathQuery c s
  | .sysDrain c => Sys2Proof.Machine.execSysDrain c s
  | .sysReset c => Sys2Proof.Machine.execSysReset c s
  | .sysFwLoad c => Sys2Proof.Machine.execSysFwLoad c s
  | .sysFwActivate c => Sys2Proof.Machine.execSysFwActivate c s
  | .cfgStage c => Sys2Proof.Machine.execCfgStage c s
  | .cfgFix c => Sys2Proof.Machine.execCfgFix c s
  | .cfgDiscard c => Sys2Proof.Machine.execCfgDiscard c s
  | .cfgWrite c => Sys2Proof.Machine.execCfgWrite c s
  | .cfgOverlay c => Sys2Proof.Machine.execCfgOverlay c s
  | .cfgRead c => Sys2Proof.Machine.execCfgRead c s
  | .tblInsert c => Sys2Proof.Machine.execTblInsert c s
  | .tblDelete c => Sys2Proof.Machine.execTblDelete c s
  | .tblModify c => Sys2Proof.Machine.execTblModify c s
  | .tblLookup c => Sys2Proof.Machine.execTblLookup c s
  | .tblProgramSet c => Sys2Proof.Machine.execTblProgramSet c s
  | .tblTemplateSet c => Sys2Proof.Machine.execTblTemplateSet c s
  | .tblGroupSet c => Sys2Proof.Machine.execTblGroupSet c s
  | .tblLagSet c => Sys2Proof.Machine.execTblLagSet c s
  | .tblCounterRead c => Sys2Proof.Machine.execTblCounterRead c s
  | .tblMeterSet c => Sys2Proof.Machine.execTblMeterSet c s
  | .portRead c => Sys2Proof.Machine.execPortRead c s
  | .portRestart c => Sys2Proof.Machine.execPortRestart c s
  | .portSnapshot c => Sys2Proof.Machine.execPortSnapshot c s
  | .portPartnerRead c => Sys2Proof.Machine.execPortPartnerRead c s
  | .cryKekLoad c => Sys2Proof.Machine.execCryKekLoad c s
  | .cryCakSet c => Sys2Proof.Machine.execCryCakSet c s
  | .cryCakClear c => Sys2Proof.Machine.execCryCakClear c s
  | .cryMkaRead c => Sys2Proof.Machine.execCryMkaRead c s
  | .cryMkaRekey c => Sys2Proof.Machine.execCryMkaRekey c s
  | .crySaInstall c => Sys2Proof.Machine.execCrySaInstall c s
  | .crySaRemove c => Sys2Proof.Machine.execCrySaRemove c s
  | .crySaRead c => Sys2Proof.Machine.execCrySaRead c s
  | .cryTlsInstall c => Sys2Proof.Machine.execCryTlsInstall c s
  | .cryTlsResync c => Sys2Proof.Machine.execCryTlsResync c s
  | .cryTlsRemove c => Sys2Proof.Machine.execCryTlsRemove c s
  | .cryTlsRead c => Sys2Proof.Machine.execCryTlsRead c s
  | .flowInsert c => Sys2Proof.Machine.execFlowInsert c s
  | .flowDelete c => Sys2Proof.Machine.execFlowDelete c s
  | .flowRead c => Sys2Proof.Machine.execFlowRead c s
  | .flowModify c => Sys2Proof.Machine.execFlowModify c s
  | .flowFlush c => Sys2Proof.Machine.execFlowFlush c s
  | .vfQuery c => Sys2Proof.Machine.execVfQuery c s
  | .vfSuspend c => Sys2Proof.Machine.execVfSuspend c s
  | .vfResume c => Sys2Proof.Machine.execVfResume c s
  | .vfLogStart c => Sys2Proof.Machine.execVfLogStart c s
  | .vfLogHarvest c => Sys2Proof.Machine.execVfLogHarvest c s
  | .vfLogStop c => Sys2Proof.Machine.execVfLogStop c s
  | .vfSave c => Sys2Proof.Machine.execVfSave c s
  | .vfRestore c => Sys2Proof.Machine.execVfRestore c s
  | .dmaQpSet c => Sys2Proof.Machine.execDmaQpSet c s
  | .dmaQpStart c => Sys2Proof.Machine.execDmaQpStart c s
  | .dmaQpStop c => Sys2Proof.Machine.execDmaQpStop c s
  | .dmaQpFlush c => Sys2Proof.Machine.execDmaQpFlush c s
  | .dmaQpRead c => Sys2Proof.Machine.execDmaQpRead c s
  | .dmaChAssign c => Sys2Proof.Machine.execDmaChAssign c s
  | .dmaChProgram c => Sys2Proof.Machine.execDmaChProgram c s
  | .dmaChEnable c => Sys2Proof.Machine.execDmaChEnable c s
  | .dmaChRead c => Sys2Proof.Machine.execDmaChRead c s
  | .stoNqnSet c => Sys2Proof.Machine.execStoNqnSet c s
  | .stoPathAdd c => Sys2Proof.Machine.execStoPathAdd c s
  | .stoPathRemove c => Sys2Proof.Machine.execStoPathRemove c s
  | .stoNsAdd c => Sys2Proof.Machine.execStoNsAdd c s
  | .stoNsRemove c => Sys2Proof.Machine.execStoNsRemove c s
  | .stoNsAttach c => Sys2Proof.Machine.execStoNsAttach c s
  | .stoNsDetach c => Sys2Proof.Machine.execStoNsDetach c s
  | .stoNsKey c => Sys2Proof.Machine.execStoNsKey c s
  | .stoRead c => Sys2Proof.Machine.execStoRead c s
  | .svcImageLoad c => Sys2Proof.Machine.execSvcImageLoad c s
  | .svcStart c => Sys2Proof.Machine.execSvcStart c s
  | .svcStop c => Sys2Proof.Machine.execSvcStop c s
  | .svcReplace c => Sys2Proof.Machine.execSvcReplace c s
  | .svcBedQuery c => Sys2Proof.Machine.execSvcBedQuery c s
  | .svcSlotRead c => Sys2Proof.Machine.execSvcSlotRead c s
  | .dbgHalt c => Sys2Proof.Machine.execDbgHalt c s
  | .dbgResume c => Sys2Proof.Machine.execDbgResume c s
  | .dbgAbandonMessage c => Sys2Proof.Machine.execDbgAbandonMessage c s
  | .dbgObserve c => Sys2Proof.Machine.execDbgObserve c s
  | .dbgReadReg c => Sys2Proof.Machine.execDbgReadReg c s
  | .dbgOpen c => Sys2Proof.Machine.execDbgOpen c s
  | .dbgClose c => Sys2Proof.Machine.execDbgClose c s
  | .testRun c => Sys2Proof.Machine.execTestRun c s
  | .testResult c => Sys2Proof.Machine.execTestResult c s
  | .testSchedule c => Sys2Proof.Machine.execTestSchedule c s
  | .ageReport c => Sys2Proof.Machine.execAgeReport c s
  | .ageSheetRead c => Sys2Proof.Machine.execAgeSheetRead c s
  | .ageSheetTime c => Sys2Proof.Machine.execAgeSheetTime c s
  | .cartRead c => Sys2Proof.Machine.execCartRead c s
  | .cartPrepareSwap c => Sys2Proof.Machine.execCartPrepareSwap c s
  | .cartCancelSwap c => Sys2Proof.Machine.execCartCancelSwap c s
  | .twinStatus c => Sys2Proof.Machine.execTwinStatus c s
  | .twinWitnessSet c => Sys2Proof.Machine.execTwinWitnessSet c s
  | .twinHandover c => Sys2Proof.Machine.execTwinHandover c s
  | .logRead c => Sys2Proof.Machine.execLogRead c s
  | .logTraceArm c => Sys2Proof.Machine.execLogTraceArm c s
  | .logTraceRead c => Sys2Proof.Machine.execLogTraceRead c s
  | .unitFault p => Sys2Proof.Machine.execUnitFault p s
  | .unitHang p => Sys2Proof.Machine.execUnitHang p s
  | .graftComplete sp => Sys2Proof.Machine.execGraftComplete sp s
  | .graftTimeout sp => Sys2Proof.Machine.execGraftTimeout sp s
  | .elementLoss p => Sys2Proof.Machine.execElementLoss p s
  | .dieLinkQuarterFail p n => Sys2Proof.Machine.execDieLinkQuarterFail p n s
  | .rateHuntTimeout p => Sys2Proof.Machine.execRateHuntTimeout p s
  | .receiverLock p r => Sys2Proof.Machine.execReceiverLock p r s
  | .candidateDwellExpiry p => Sys2Proof.Machine.execCandidateDwellExpiry p s
  | .fecPartnerIdentified p f => Sys2Proof.Machine.execFecPartnerIdentified p f s
  | .fecMismatchWaitExpiry p => Sys2Proof.Machine.execFecMismatchWaitExpiry p s
  | .lockHoldExpiry p => Sys2Proof.Machine.execLockHoldExpiry p s
  | .lockLost p => Sys2Proof.Machine.execLockLost p s
  | .linkFaultPersist p => Sys2Proof.Machine.execLinkFaultPersist p s
  | .heldExpiry p => Sys2Proof.Machine.execHeldExpiry p s
  | .frameReceived p frame line overflow keyOk icvOk plain => Sys2Proof.Machine.execFrameReceived p frame line overflow keyOk icvOk plain s
  | .pfcRefreshTimer p => Sys2Proof.Machine.execPfcRefreshTimer p s
  | .pfcFrameReceived p vector times => Sys2Proof.Machine.execPfcFrameReceived p vector times s
  | .pauseFrameReceived p time => Sys2Proof.Machine.execPauseFrameReceived p time s
  | .pauseTimeExpiry p mask => Sys2Proof.Machine.execPauseTimeExpiry p mask s
  | .lldpFrameReceived p raw => Sys2Proof.Machine.execLldpFrameReceived p raw s
  | .lldpTransmitTimer p => Sys2Proof.Machine.execLldpTransmitTimer p s
  | .dcbxAbsentTimeout p => Sys2Proof.Machine.execDcbxAbsentTimeout p s
  | .lldpPartnerAgeout p => Sys2Proof.Machine.execLldpPartnerAgeout p s
  | .portSyncOverflow p dir => Sys2Proof.Machine.execPortSyncOverflow p dir s
  | .mkpduReceived p valid d => Sys2Proof.Machine.execMkpduReceived p valid d s
  | .mkaHelloTimer p => Sys2Proof.Machine.execMkaHelloTimer p s
  | .mkaLifeExpiry p sci => Sys2Proof.Machine.execMkaLifeExpiry p sci s
  | .parsePass g n ecc => Sys2Proof.Machine.execParsePass g n ecc s
  | .fragmentHoldTimeout g key => Sys2Proof.Machine.execFragmentHoldTimeout g key s
  | .fragmentEntryTimeout g key => Sys2Proof.Machine.execFragmentEntryTimeout g key s
  | .channelDelivery d c prio exc => Sys2Proof.Machine.execChannelDelivery d c prio exc s
  | .egressDequeue p tx => Sys2Proof.Machine.execEgressDequeue p tx s
  | .twinPacketReceived g q prog epoch frame => Sys2Proof.Machine.execTwinPacketReceived g q prog epoch frame s
  | .cryptoEncrypt g keyOk => Sys2Proof.Machine.execCryptoEncrypt g keyOk s
  | .cryptoDecrypt g keyOk icvOk plain => Sys2Proof.Machine.execCryptoDecrypt g keyOk icvOk plain s
  | .tlsTxSegment g keyOk => Sys2Proof.Machine.execTlsTxSegment g keyOk s
  | .tlsRxSegment g keyOk plain ends => Sys2Proof.Machine.execTlsRxSegment g keyOk plain ends s
  | .cryptoRecordFetch g => Sys2Proof.Machine.execCryptoRecordFetch g s
  | .flowMissService g ecc => Sys2Proof.Machine.execFlowMissService g ecc s
  | .flowIdleSweep e => Sys2Proof.Machine.execFlowIdleSweep e s
  | .flowWriteBack g => Sys2Proof.Machine.execFlowWriteBack g s
  | .flowDeltaMerge kind record => Sys2Proof.Machine.execFlowDeltaMerge kind record s
  | .flowTwinLag ms => Sys2Proof.Machine.execFlowTwinLag ms s
  | .flowTwinResyncDone => Sys2Proof.Machine.execFlowTwinResyncDone s
  | .hostLinkTrained link half rate width flit => Sys2Proof.Machine.execHostLinkTrained link half rate width flit s
  | .perstAssert link half => Sys2Proof.Machine.execPerstAssert link half s
  | .hotReset link half => Sys2Proof.Machine.execHotReset link half s
  | .hostLinkLoss link half => Sys2Proof.Machine.execHostLinkLoss link half s
  | .hostFatalError link half status => Sys2Proof.Machine.execHostFatalError link half status s
  | .functionLevelReset f => Sys2Proof.Machine.execFunctionLevelReset f s
  | .flrComplete f => Sys2Proof.Machine.execFlrComplete f s
  | .busMasterEnableClear f => Sys2Proof.Machine.execBusMasterEnableClear f s
  | .busMasterEnableSet f => Sys2Proof.Machine.execBusMasterEnableSet f s
  | .completionTimeout f tag => Sys2Proof.Machine.execCompletionTimeout f tag s
  | .hostCompletionReceived f tag status data => Sys2Proof.Machine.execHostCompletionReceived f tag status data s
  | .bar0UnsupportedAccess f write => Sys2Proof.Machine.execBar0UnsupportedAccess f write s
  | .bar2Access f off len data => Sys2Proof.Machine.execBar2Access f off len data s
  | .winCommit f mask => Sys2Proof.Machine.execWinCommit f mask s
  | .winCommitComplete f => Sys2Proof.Machine.execWinCommitComplete f s
  | .pfCqDb f q tail data ok => Sys2Proof.Machine.execPfCqDb f q tail data ok s
  | .pfCqEnable f q cfg data ok => Sys2Proof.Machine.execPfCqEnable f q cfg data ok s
  | .pfCqDisable f q cfg => Sys2Proof.Machine.execPfCqDisable f q cfg s
  | .pfCqRqHead f q index data ok => Sys2Proof.Machine.execPfCqRqHead f q index data ok s
  | .pfIntxCauseRead f => Sys2Proof.Machine.execPfIntxCauseRead f s
  | .l0pNarrow link half => Sys2Proof.Machine.execL0pNarrow link half s
  | .aspmL1Entry link half => Sys2Proof.Machine.execAspmL1Entry link half s
  | .powerStateChange f d3 => Sys2Proof.Machine.execPowerStateChange f d3 s
  | .numvfsWrite f n => Sys2Proof.Machine.execNumvfsWrite f n s
  | .vfEnableSet f => Sys2Proof.Machine.execVfEnableSet f s
  | .vfEnableClear f => Sys2Proof.Machine.execVfEnableClear f s
  | .vfCtrlEnableSet f => Sys2Proof.Machine.execVfCtrlEnableSet f s
  | .vfCtrlEnableClear f => Sys2Proof.Machine.execVfCtrlEnableClear f s
  | .vfShutdownDone f => Sys2Proof.Machine.execVfShutdownDone f s
  | .vfSuspendComplete f => Sys2Proof.Machine.execVfSuspendComplete f s
  | .vfLogHarvestComplete f ok => Sys2Proof.Machine.execVfLogHarvestComplete f ok s
  | .vfSaveComplete f ok => Sys2Proof.Machine.execVfSaveComplete f ok s
  | .vfRestored f image access => Sys2Proof.Machine.execVfRestored f image access s
  | .qpDbTx f n index => Sys2Proof.Machine.execQpDbTx f n index s
  | .qpDbRx f n index => Sys2Proof.Machine.execQpDbRx f n index s
  | .qpDbCq f n index => Sys2Proof.Machine.execQpDbCq f n index s
  | .hostTxFetch f n descs data => Sys2Proof.Machine.execHostTxFetch f n descs data s
  | .hostRxDelivery d link prio exc descs => Sys2Proof.Machine.execHostRxDelivery d link prio exc descs s
  | .interruptModerationTimer f n => Sys2Proof.Machine.execInterruptModerationTimer f n s
  | .dmaQpFlushed f n => Sys2Proof.Machine.execDmaQpFlushed f n s
  | .dmaBeat e => Sys2Proof.Machine.execDmaBeat e s
  | .dmaRequestLineAssert n line => Sys2Proof.Machine.execDmaRequestLineAssert n line s
  | .nvmeSqDoorbell f q tail => Sys2Proof.Machine.execNvmeSqDoorbell f q tail s
  | .nvmeCcEnable f cc => Sys2Proof.Machine.execNvmeCcEnable f cc s
  | .nvmeCcDisable f cc => Sys2Proof.Machine.execNvmeCcDisable f cc s
  | .nvmeCcShutdown f cc => Sys2Proof.Machine.execNvmeCcShutdown f cc s
  | .nvmeIdentify f entry list => Sys2Proof.Machine.execNvmeIdentify f entry list s
  | .nvmeGetLogPage f entry list => Sys2Proof.Machine.execNvmeGetLogPage f entry list s
  | .nvmeSetFeatures f entry => Sys2Proof.Machine.execNvmeSetFeatures f entry s
  | .nvmeGetFeatures f entry => Sys2Proof.Machine.execNvmeGetFeatures f entry s
  | .nvmeCreateIoSq f entry => Sys2Proof.Machine.execNvmeCreateIoSq f entry s
  | .nvmeCreateIoCq f entry => Sys2Proof.Machine.execNvmeCreateIoCq f entry s
  | .nvmeDeleteIoSq f entry => Sys2Proof.Machine.execNvmeDeleteIoSq f entry s
  | .nvmeDeleteIoCq f entry => Sys2Proof.Machine.execNvmeDeleteIoCq f entry s
  | .nvmeAbort f entry => Sys2Proof.Machine.execNvmeAbort f entry s
  | .nvmeAsyncEventRequest f entry => Sys2Proof.Machine.execNvmeAsyncEventRequest f entry s
  | .nvmeRead f q entry list => Sys2Proof.Machine.execNvmeRead f q entry list s
  | .nvmeWrite f q entry list data => Sys2Proof.Machine.execNvmeWrite f q entry list data s
  | .nvmeFlush f q entry => Sys2Proof.Machine.execNvmeFlush f q entry s
  | .nvmeWriteZeroes f q entry => Sys2Proof.Machine.execNvmeWriteZeroes f q entry s
  | .nvmeDatasetManagement f q entry data => Sys2Proof.Machine.execNvmeDatasetManagement f q entry data s
  | .nvmeCompare f q entry list data => Sys2Proof.Machine.execNvmeCompare f q entry list data s
  | .bedStorageSubmit b entry => Sys2Proof.Machine.execBedStorageSubmit b entry s
  | .targetResponse id dw0 status data plain ecc => Sys2Proof.Machine.execTargetResponse id dw0 status data plain ecc s
  | .stoPathUp p ids => Sys2Proof.Machine.execStoPathUp p ids s
  | .pathConnectionError p => Sys2Proof.Machine.execPathConnectionError p s
  | .keepAliveTimeout p => Sys2Proof.Machine.execKeepAliveTimeout p s
  | .ioTimeout p => Sys2Proof.Machine.execIoTimeout p s
  | .roceRetryExhausted p => Sys2Proof.Machine.execRoceRetryExhausted p s
  | .targetFatalStatus p => Sys2Proof.Machine.execTargetFatalStatus p s
  | .pathReconnectTimer p => Sys2Proof.Machine.execPathReconnectTimer p s
  | .namespaceHoldExpiry num => Sys2Proof.Machine.execNamespaceHoldExpiry num s
  | .nsDetachComplete num who f => Sys2Proof.Machine.execNsDetachComplete num who f s
  | .instructionIssue n t => Sys2Proof.Machine.execInstructionIssue n t s
  | .chWr n t rd rs1 rs2 => Sys2Proof.Machine.execChWr n t rd rs1 rs2 s
  | .chWre n t rd rs1 rs2 => Sys2Proof.Machine.execChWre n t rd rs1 rs2 s
  | .chRdh n t rd rs1 => Sys2Proof.Machine.execChRdh n t rd rs1 s
  | .chTry n t rd rs1 => Sys2Proof.Machine.execChTry n t rd rs1 s
  | .chRdw n t rd rs1 => Sys2Proof.Machine.execChRdw n t rd rs1 s
  | .chAbt n t rs1 => Sys2Proof.Machine.execChAbt n t rs1 s
  | .chCnt n t rd rs1 => Sys2Proof.Machine.execChCnt n t rd rs1 s
  | .chFree n t rs1 rs2 => Sys2Proof.Machine.execChFree n t rs1 rs2 s
  | .lkAcq n t rd rs1 => Sys2Proof.Machine.execLkAcq n t rd rs1 s
  | .lkTry n t rd rs1 => Sys2Proof.Machine.execLkTry n t rd rs1 s
  | .lkRel n t rs1 => Sys2Proof.Machine.execLkRel n t rs1 s
  | .tmSet n t rs1 rs2 => Sys2Proof.Machine.execTmSet n t rs1 rs2 s
  | .ecall n t => Sys2Proof.Machine.execEcall n t s
  | .ebreak n t => Sys2Proof.Machine.execEbreak n t s
  | .svcTimerExpiry n k => Sys2Proof.Machine.execSvcTimerExpiry n k s
  | .lockLimitExpiry n l => Sys2Proof.Machine.execLockLimitExpiry n l s
  | .stallTimeout n => Sys2Proof.Machine.execStallTimeout n s
  | .svcLockRelease n l => Sys2Proof.Machine.execSvcLockRelease n l s
  | .svcThreadRun n t => Sys2Proof.Machine.execSvcThreadRun n t s
  | .svcChanEnable n ch cfg => Sys2Proof.Machine.execSvcChanEnable n ch cfg s
  | .svcChanDisable n ch cfg => Sys2Proof.Machine.execSvcChanDisable n ch cfg s
  | .svcReadySet n => Sys2Proof.Machine.execSvcReadySet n s
  | .svcReadyClear n => Sys2Proof.Machine.execSvcReadyClear n s
  | .startTimeout b => Sys2Proof.Machine.execStartTimeout b s
  | .stopGraceExpiry b => Sys2Proof.Machine.execStopGraceExpiry b s
  | .svcCmdqDb n tail => Sys2Proof.Machine.execSvcCmdqDb n tail s
  | .svcCmdqEnable n cfg => Sys2Proof.Machine.execSvcCmdqEnable n cfg s
  | .svcCmdqDisable n cfg => Sys2Proof.Machine.execSvcCmdqDisable n cfg s
  | .svcImageVerified slot data access signed => Sys2Proof.Machine.execSvcImageVerified slot data access signed s
  | .oobCommandMessage q body => Sys2Proof.Machine.execOobCommandMessage q body s
  | .twinForwardedCommand op tag flags target epoch params => Sys2Proof.Machine.execTwinForwardedCommand op tag flags target epoch params s
  | .sysDrained p => Sys2Proof.Machine.execSysDrained p s
  | .packageRestartBegin => Sys2Proof.Machine.execPackageRestartBegin s
  | .fwImageVerified q tag ok data oroarnin owner digests => Sys2Proof.Machine.execFwImageVerified q tag ok data oroarnin owner digests s
  | .prepareReceived e => Sys2Proof.Machine.execPrepareReceived e s
  | .preparedReceived e => Sys2Proof.Machine.execPreparedReceived e s
  | .refusedReceived e noTag addr => Sys2Proof.Machine.execRefusedReceived e noTag addr s
  | .commitReceived e => Sys2Proof.Machine.execCommitReceived e s
  | .committedReceived e => Sys2Proof.Machine.execCommittedReceived e s
  | .abortReceived e => Sys2Proof.Machine.execAbortReceived e s
  | .prepareReplyTimeout => Sys2Proof.Machine.execPrepareReplyTimeout s
  | .stageTimeout => Sys2Proof.Machine.execStageTimeout s
  | .epochHoldExpiry e => Sys2Proof.Machine.execEpochHoldExpiry e s
  | .tblReseedDone t => Sys2Proof.Machine.execTblReseedDone t s
  | .flowFlushComplete => Sys2Proof.Machine.execFlowFlushComplete s
  | .debugTokenExpiry k => Sys2Proof.Machine.execDebugTokenExpiry k s
  | .handoverDrained => Sys2Proof.Machine.execHandoverDrained s
  | .mbxSend c len => Sys2Proof.Machine.execMbxSend c len s
  | .mbxMsgRead c off len => Sys2Proof.Machine.execMbxMsgRead c off len s
  | .mbxDbSet c bits => Sys2Proof.Machine.execMbxDbSet c bits s
  | .mbxDbClear c bits => Sys2Proof.Machine.execMbxDbClear c bits s
  | .mbxDbMaskWrite c mask => Sys2Proof.Machine.execMbxDbMaskWrite c mask s
  | .memTrained chs => Sys2Proof.Machine.execMemTrained chs s
  | .patrolScrubRead a outcome slot sub dev last => Sys2Proof.Machine.execPatrolScrubRead a outcome slot sub dev last s
  | .dimmThermalRead c slot temp => Sys2Proof.Machine.execDimmThermalRead c slot temp s
  | .memoryChannelFailure c cause => Sys2Proof.Machine.execMemoryChannelFailure c cause s
  | .cartPresenceAssert sl id => Sys2Proof.Machine.execCartPresenceAssert sl id s
  | .cartChallengeResponse sl sig k => Sys2Proof.Machine.execCartChallengeResponse sl sig k s
  | .cartSettleTimeout sl => Sys2Proof.Machine.execCartSettleTimeout sl s
  | .cartRampStep sl => Sys2Proof.Machine.execCartRampStep sl s
  | .cartLatchOpen sl => Sys2Proof.Machine.execCartLatchOpen sl s
  | .cartPresenceOpen sl => Sys2Proof.Machine.execCartPresenceOpen sl s
  | .laserFailure sl j => Sys2Proof.Machine.execLaserFailure sl j s
  | .opticalEngineFault e cause => Sys2Proof.Machine.execOpticalEngineFault e cause s
  | .cartBusSilence sl => Sys2Proof.Machine.execCartBusSilence sl s
  | .cartReplaceReminder sl => Sys2Proof.Machine.execCartReplaceReminder sl s
  | .governorScan d l secs => Sys2Proof.Machine.execGovernorScan d l secs s
  | .governorRailStep d => Sys2Proof.Machine.execGovernorRailStep d s
  | .railMonitorCheck d mv => Sys2Proof.Machine.execRailMonitorCheck d mv s
  | .contactSheet num => Sys2Proof.Machine.execContactSheet num s
  | .scheduledExposure p bank => Sys2Proof.Machine.execScheduledExposure p bank s
  | .claimRetryTimer p => Sys2Proof.Machine.execClaimRetryTimer p s
  | .exposureTestEnd p pass applied fails second cause => Sys2Proof.Machine.execExposureTestEnd p pass applied fails second cause s
  | .referenceCheck p mon light dev => Sys2Proof.Machine.execReferenceCheck p mon light dev s
  | .heartbeatSend => Sys2Proof.Machine.execHeartbeatSend s
  | .heartbeatReceived seq state epoch lost => Sys2Proof.Machine.execHeartbeatReceived seq state epoch lost s
  | .heartbeatMissed => Sys2Proof.Machine.execHeartbeatMissed s
  | .witnessClaimResend => Sys2Proof.Machine.execWitnessClaimResend s
  | .witnessReport => Sys2Proof.Machine.execWitnessReport s
  | .witnessGrant path seq valid => Sys2Proof.Machine.execWitnessGrant path seq valid s
  | .witnessRefusal path seq valid => Sys2Proof.Machine.execWitnessRefusal path seq valid s
  | .verdictTimeout => Sys2Proof.Machine.execVerdictTimeout s
  | .twinWitnessLost path => Sys2Proof.Machine.execTwinWitnessLost path s
  | .leaveMessageReceived => Sys2Proof.Machine.execLeaveMessageReceived s
  | .twinLaneFailure lane => Sys2Proof.Machine.execTwinLaneFailure lane s
  | .twinLinkUp versions system package chain time => Sys2Proof.Machine.execTwinLinkUp versions system package chain time s
  | .joinConfigApplied epoch base slots => Sys2Proof.Machine.execJoinConfigApplied epoch base slots s
  | .joinStateCopied objs => Sys2Proof.Machine.execJoinStateCopied objs s
  | .lacpduReceived p system key port => Sys2Proof.Machine.execLacpduReceived p system key port s
  | .pwrOkRise tkRefSel resetN shdnReqN => Sys2Proof.Machine.execPwrOkRise tkRefSel resetN shdnReqN s
  | .pwrOkFall => Sys2Proof.Machine.execPwrOkFall s
  | .resetNAssert => Sys2Proof.Machine.execResetNAssert s
  | .resetNRelease shdnReqN => Sys2Proof.Machine.execResetNRelease shdnReqN s
  | .fabricBootWindowOpen d => Sys2Proof.Machine.execFabricBootWindowOpen d s
  | .protCtrlLock d => Sys2Proof.Machine.execProtCtrlLock d s
  | .bootWindowTimeout d => Sys2Proof.Machine.execBootWindowTimeout d s
  | .startTestEnd d fails ok => Sys2Proof.Machine.execStartTestEnd d fails ok s
  | .fullService rootstock full => Sys2Proof.Machine.execFullService rootstock full s
  | .twinAbsentAtStart => Sys2Proof.Machine.execTwinAbsentAtStart s
  | .shdnReqNAssert => Sys2Proof.Machine.execShdnReqNAssert s
  | .shutdownBedsStopped => Sys2Proof.Machine.execShutdownBedsStopped s
  | .shutdownLasersDark => Sys2Proof.Machine.execShutdownLasersDark s
  | .dieRestartDrained d => Sys2Proof.Machine.execDieRestartDrained d s
  | .dieRestartReady d => Sys2Proof.Machine.execDieRestartReady d s
  | .tkRefLoss => Sys2Proof.Machine.execTkRefLoss s
  | .tkPpsLoss => Sys2Proof.Machine.execTkPpsLoss s
  | .ptpMasterLoss => Sys2Proof.Machine.execPtpMasterLoss s
  | .timeSourceReturn which off => Sys2Proof.Machine.execTimeSourceReturn which off s
  | .timeLockAchieved => Sys2Proof.Machine.execTimeLockAchieved s
  | .ptpMessageReceived p slave type domain sec ns off => Sys2Proof.Machine.execPtpMessageReceived p slave type domain sec ns off s
  | .timeFlashWrite => Sys2Proof.Machine.execTimeFlashWrite s
  | .portPtpTxtsRead p => Sys2Proof.Machine.execPortPtpTxtsRead p s
  | .logAppend => Sys2Proof.Machine.execLogAppend s
  | .thermalReading which temp power => Sys2Proof.Machine.execThermalReading which temp power s
  | .firmwareTrip d temp => Sys2Proof.Machine.execFirmwareTrip d temp s
  | .hardwareTrip d temp => Sys2Proof.Machine.execHardwareTrip d temp s
  | .registerWrite r len v => Sys2Proof.Machine.execRegisterWrite r len v s
  | .linkFaultDetected p kind => Sys2Proof.Machine.execLinkFaultDetected p kind s
  | .linkFaultCleared p kind => Sys2Proof.Machine.execLinkFaultCleared p kind s
  | .perstDeassert link half => Sys2Proof.Machine.execPerstDeassert link half s
  | .l0pPartnerRequest link half narrow => Sys2Proof.Machine.execL0pPartnerRequest link half narrow s
  | .twinLaneUp lane => Sys2Proof.Machine.execTwinLaneUp lane s
  | .twinReplyReceived tag isAccepted status detail result => Sys2Proof.Machine.execTwinReplyReceived tag isAccepted status detail result s
  | .twinLacpInfoReceived p system key => Sys2Proof.Machine.execTwinLacpInfoReceived p system key s
  | .twinSaStateReceived sa seq seen => Sys2Proof.Machine.execTwinSaStateReceived sa seq seen s
  | .oobEndpointLoss q => Sys2Proof.Machine.execOobEndpointLoss q s
  | .registerReadClear r len => Sys2Proof.Machine.execRegisterReadClear r len s
  | .nvmeCqDoorbell f q head => Sys2Proof.Machine.execNvmeCqDoorbell f q head s
  | .cartBusRestored sl => Sys2Proof.Machine.execCartBusRestored sl s
  | .cartFatalFault sl => Sys2Proof.Machine.execCartFatalFault sl s
  | .laneFault p => Sys2Proof.Machine.execLaneFault p s
  | .bootMailboxWrite lc cmd => Sys2Proof.Machine.execBootMailboxWrite lc cmd s
  | .portSnapshotComplete q tag ok => Sys2Proof.Machine.execPortSnapshotComplete q tag ok s
  | .ageSheetReadComplete q tag ok => Sys2Proof.Machine.execAgeSheetReadComplete q tag ok s
  | .logReadComplete q tag ok => Sys2Proof.Machine.execLogReadComplete q tag ok s
  | .logTraceReadComplete q tag ok => Sys2Proof.Machine.execLogTraceReadComplete q tag ok s

end Sys2Proof.Machine
end

