-- ==== Sys2Proof/Machine/Opcodes.lean ====
section
/-! DEFINITION. The command that an opcode names (R13, R14, R451-R462). -/

namespace Sys2Proof.Machine

/-- The command row of an opcode; none where the opcode is not defined in its class (R14). -/
def instrOf (opcode : Nat) (c : Cmd) : Option Instr :=
  match opcode with
  | 0x0001 => some (.sysNop c)
  | 0x0002 => some (.sysInfo c)
  | 0x0003 => some (.sysEpochRead c)
  | 0x0004 => some (.sysPathQuery c)
  | 0x0005 => some (.sysDrain c)
  | 0x0006 => some (.sysReset c)
  | 0x0007 => some (.sysFwLoad c)
  | 0x0008 => some (.sysFwActivate c)
  | 0x0401 => some (.cfgStage c)
  | 0x0402 => some (.cfgFix c)
  | 0x0403 => some (.cfgDiscard c)
  | 0x0404 => some (.cfgWrite c)
  | 0x0405 => some (.cfgOverlay c)
  | 0x0406 => some (.cfgRead c)
  | 0x0801 => some (.tblInsert c)
  | 0x0802 => some (.tblDelete c)
  | 0x0803 => some (.tblModify c)
  | 0x0804 => some (.tblLookup c)
  | 0x0805 => some (.tblProgramSet c)
  | 0x0806 => some (.tblTemplateSet c)
  | 0x0807 => some (.tblGroupSet c)
  | 0x0808 => some (.tblLagSet c)
  | 0x0809 => some (.tblCounterRead c)
  | 0x080A => some (.tblMeterSet c)
  | 0x0C01 => some (.portRead c)
  | 0x0C02 => some (.portRestart c)
  | 0x0C03 => some (.portSnapshot c)
  | 0x0C04 => some (.portPartnerRead c)
  | 0x1001 => some (.cryKekLoad c)
  | 0x1002 => some (.cryCakSet c)
  | 0x1003 => some (.cryCakClear c)
  | 0x1004 => some (.cryMkaRead c)
  | 0x1005 => some (.cryMkaRekey c)
  | 0x1006 => some (.crySaInstall c)
  | 0x1007 => some (.crySaRemove c)
  | 0x1008 => some (.crySaRead c)
  | 0x1009 => some (.cryTlsInstall c)
  | 0x100A => some (.cryTlsResync c)
  | 0x100B => some (.cryTlsRemove c)
  | 0x100C => some (.cryTlsRead c)
  | 0x1401 => some (.flowInsert c)
  | 0x1402 => some (.flowDelete c)
  | 0x1403 => some (.flowRead c)
  | 0x1404 => some (.flowModify c)
  | 0x1405 => some (.flowFlush c)
  | 0x1C01 => some (.vfQuery c)
  | 0x1C02 => some (.vfSuspend c)
  | 0x1C03 => some (.vfResume c)
  | 0x1C04 => some (.vfLogStart c)
  | 0x1C05 => some (.vfLogHarvest c)
  | 0x1C06 => some (.vfLogStop c)
  | 0x1C07 => some (.vfSave c)
  | 0x1C08 => some (.vfRestore c)
  | 0x2001 => some (.dmaQpSet c)
  | 0x2002 => some (.dmaQpStart c)
  | 0x2003 => some (.dmaQpStop c)
  | 0x2004 => some (.dmaQpFlush c)
  | 0x2005 => some (.dmaQpRead c)
  | 0x2006 => some (.dmaChAssign c)
  | 0x2007 => some (.dmaChProgram c)
  | 0x2008 => some (.dmaChEnable c)
  | 0x2009 => some (.dmaChRead c)
  | 0x2401 => some (.stoNqnSet c)
  | 0x2402 => some (.stoPathAdd c)
  | 0x2403 => some (.stoPathRemove c)
  | 0x2404 => some (.stoNsAdd c)
  | 0x2405 => some (.stoNsRemove c)
  | 0x2406 => some (.stoNsAttach c)
  | 0x2407 => some (.stoNsDetach c)
  | 0x2408 => some (.stoNsKey c)
  | 0x2409 => some (.stoRead c)
  | 0x2801 => some (.svcImageLoad c)
  | 0x2802 => some (.svcStart c)
  | 0x2803 => some (.svcStop c)
  | 0x2804 => some (.svcReplace c)
  | 0x2805 => some (.svcBedQuery c)
  | 0x2806 => some (.svcSlotRead c)
  | 0x2C01 => some (.testRun c)
  | 0x2C02 => some (.testResult c)
  | 0x2C03 => some (.testSchedule c)
  | 0x3001 => some (.ageReport c)
  | 0x3002 => some (.ageSheetRead c)
  | 0x3003 => some (.ageSheetTime c)
  | 0x3401 => some (.cartRead c)
  | 0x3402 => some (.cartPrepareSwap c)
  | 0x3403 => some (.cartCancelSwap c)
  | 0x3801 => some (.twinStatus c)
  | 0x3802 => some (.twinWitnessSet c)
  | 0x3803 => some (.twinHandover c)
  | 0x3C01 => some (.logRead c)
  | 0x3C02 => some (.logTraceArm c)
  | 0x3C03 => some (.logTraceRead c)
  | 0x4001 => some (.dbgHalt c)
  | 0x4002 => some (.dbgResume c)
  | 0x4003 => some (.dbgAbandonMessage c)
  | 0x4004 => some (.dbgObserve c)
  | 0x4005 => some (.dbgReadReg c)
  | 0x4006 => some (.dbgOpen c)
  | 0x4007 => some (.dbgClose c)
  | _ => none

end Sys2Proof.Machine
end

