-- ==== Sys2Proof/Machine/Pump.lean ====
section
/-! DEFINITION. What the block does when no row waits: the first command packet that can start, or else a tick of 1 µs (R434-R436, R446,
R530, R649, R658, R682). -/

namespace Sys2Proof.Machine

/-! ## Command packets that wait (R434, R436, R446, R682) -/

/-- Opcodes that both packages apply: those of the stage and the fix, changes of tables and flows, IPsec SAs where they are mirrored whole. -/
def wideOps (s : State) : List Nat :=
  [0x0401, 0x0402, 0x0403, 0x0801, 0x0802, 0x0803, 0x0805, 0x0806, 0x0807, 0x0808, 0x1401, 0x1402, 0x1404] ++
  (if s.twin.version == 1 then [] else [0x1006, 0x1007])

/-- Must a waiting packet wait on: management does not answer, a fence holds it, or a system-wide act finds the pair in SUSPECT? -/
def packetWaits (code : Nat) (c : Cmd) (s : State) : Bool :=
  s.power.shutdown < 3 &&
  ((!s.boot.mgmtRuns && !s.boot.recovery) || (c.fence && owes s c.queue) ||
   (s.twin.state == .suspect && ((wideOps s).contains code || c.both) && (match origin c.queue with | .twin _ => false | _ => true)))

/-- The first packet that can start: the first of its queue. `before` holds the queues of packets already passed over. -/
def nextPacket (s : State) : List (Nat × Cmd) → List QueueId → Option (Nat × Cmd)
  | [], _ => none
  | (code, c) :: r, before =>
    if before.contains c.queue || packetWaits code c s then nextPacket s r (c.queue :: before) else some (code, c)

/-- The list without the first occurrence of a packet. -/
def dropPacket (x : Nat × Cmd) (s : State) : State := { s with waiting := s.waiting.erase x }

/-- The answer to a packet whose opcode is not defined: the checks before it, then BAD_OPCODE (R14, R446). -/
def badOpcode (code : Nat) (c : Cmd) (s : State) : State :=
  let cls := opClass code
  let r := if 3 ≤ s.power.shutdown then aborted dQueueReset
    else if c.slots == 0 || 16 < c.slots then badParam dSlotCount
    else if fld c.flags.toNat 4 4 != 0 || c.rsvd != 0 || (c.staged && cls != 1 && cls != 2) then badParam dReserved
    else rep stBadOpcode 0
  sendReply c.queue c.tag.toNat code 0 (curEpoch s) r s

/-! ## A tick of 1 µs -/

/-- The delta queue drains to the twin, and the lag ends; in SUSPECT it is held (R592). A queue that meets poison in its area is discarded,
for a resend (R264, R504). -/
def sendDeltas (s : State) : State :=
  let area := fun (x : Nat) => decide (0x400100000000 ≤ x) && decide (x < 0x400104000000)
  if !twinSettled s || s.twin.state == .suspect then s
  else if s.flow.deltas.isEmpty then (if s.flow.lag == 0 then s else flowMod (fun f => { f with lag := 0 }) s)
  else if s.mem.poison.any area then
    { s with flow := { s.flow with deltas := [], lag := 0, resync := true }, mem := { s.mem with poison := s.mem.poison.filter fun x => !area x } }
  else
    let l := s.flow.deltas
    emitAll (l.map fun d => .twin (.flowDelta d)) (flowMod (fun f => { f with deltas := [], lag := 0 }) s)

/-- A second of light of a slot: at the hour the life record takes it (R530). -/
def litSecond (sl : Nat) (s : State) : State :=
  let x := slotOf s sl
  if !slotLit x then s
  else
    let lit := x.litSec + 1
    let alone := x.aloneSec + b2n (x.st == .alone)
    let s := slotMod sl (fun x => { x with litSec := lit % 3600, aloneSec := alone % 3600 }) s
    match slotLife s sl with
    | none => s
    | some r =>
      let r := { r with litHours := r.litHours + lit / 3600, aloneHours := r.aloneHours + alone / 3600, lastLit := now32 s }
      if lit == 3600 || alone == 3600 then putLife r s
      else cartMod (fun c => { c with lives := c.lives.map fun y => if y.serial == r.serial then r else y }) s

/-- Records discarded at intake are reported at most once per second (R658). -/
def reportDrops (s : State) : State :=
  if s.log.drops == 0 || 4096 ≤ s.log.intake.length then s
  else raise 0x3C05 timePlace [s.log.drops] (evlogMod (fun l => { l with drops := 0 }) s)

/-- A second has ended. -/
def newSecond (s : State) : State :=
  reportDrops ((List.range 16).foldl (fun s sl => litSecond sl s) s)

/-- A tick: the time advances, deltas drain, an orderly shut-down that waited for a fix begins. -/
def tick (s : State) : State :=
  let s := timeMod tickTime s
  let s := sendDeltas s
  let s := if s.power.shutdown == 1 && !fixRuns s then beginShutdown s else s
  if s.time.up % 1000000 == 0 then newSecond s else s

end Sys2Proof.Machine
end

