-- ==== Sys2Proof/Machine/Step.lean ====
section
/-! DEFINITION. The step of the block. -/

namespace Sys2Proof.Machine

/-- What the block does with an empty queue: the first command packet that can start runs as its row, one of an undefined opcode is
answered; with none, 1 µs passes (assumption 37). -/
def idle (s : State) : Host.Outcome State Fault Refusal :=
  match nextPacket s s.waiting [] with
  | none => .next (tick s)
  | some (code, c) =>
    match instrOf code c with
    | some i => exec i (dropPacket (code, c) s)
    | none => .next (badOpcode code c (dropPacket (code, c) s))

/-- The command at the front of the queue, with the queue's rest; idle on an empty queue. -/
def step (s : State) : Host.Outcome State Fault Refusal :=
  match s.pending with
  | [] => idle s
  | c :: r => exec c { s with pending := r }

/-- The command that a table word spells goes to the front of the queue; the state is unchanged where the word spells none, as is always so
for a table that gives no row bits. -/
def State.withFetchWord (s : State) (nbits w : Nat) : State :=
  match decodeTableWord nbits w with
  | some c => { s with pending := c :: s.pending }
  | none => s

end Sys2Proof.Machine
end

