-- ==== Sys2Proof/WellFormed.lean ====
section
/-! DEFINITION. Which commands are well formed: the operands name elements that some Lorwaend package has, within the ranges of the spec
(R3-R11, R20-R25, R270, R302, R409, R431, R438). A well-formed command may still name a function that is not enabled now. -/

namespace Sys2Proof

open Sys2Proof.Machine

/-- A port (R11). -/
def portOk (p : Nat) : Bool := decide (p < 1024)

/-- A fabric region by its global number (R11). -/
def groupOk (g : Nat) : Bool := decide (g < 16)

/-- A fabric die (R20). -/
def fabricDie (d : Nat) : Bool := decide (1 ≤ d) && decide (d ≤ 4)

/-- A service cluster of R409. -/
def clusterOk (n : Nat) : Bool := decide (n < 85)

/-- A hardware thread of a service cluster or of G0 (R380, R409). -/
def threadOk (n t : Nat) : Bool := decide (n ≤ 85) && decide (t < 64)

/-- A RISC-V integer register. -/
def regOk (r : Nat) : Bool := decide (r < 32)

/-- A storage path (R359). -/
def pathOk (p : Nat) : Bool := decide (p < 1024)

/-- A host link or half (R270, R275). -/
def halfOk (link half : Nat) : Bool := decide (link < 4) && decide (half < 2)

/-- A function a package can have (R270, R302). -/
def fnOk (f : Fn) : Bool := halfOk f.link f.half && decide (f.pool < 2) && decide (f.num ≤ 128)

def pfOk (f : Fn) : Bool := fnOk f && f.num == 0
def vfOk (f : Fn) : Bool := fnOk f && f.num != 0

/-- A function of the storage pool (R352). -/
def nvmeOk (f : Fn) : Bool := fnOk f && f.pool == 1

/-- A command queue of a function (R438): 16 of a PF, one of a VF. -/
def queueOk (f : Fn) (q : Nat) : Bool := fnOk f && (if f.num == 0 then decide (q < 16) else q == 0)

/-- A table by rising number below a bound. -/
def tabOk {α : Type} (n : Nat) (t : Tab α) : Bool := decide ((t.map fun e => e.1).Pairwise (· < ·)) && t.all fun e => decide (e.1 < n)

/-- An owner section in the widths of the registers of R619 and the words of R276 and R685. -/
def ownerSectionOk (o : Owner) : Bool :=
  tabOk 256 o.req && o.req.all (fun e => decide (e.2 < 2 ^ 64)) && tabOk 32 o.mbx && o.mbx.all (fun e => decide (e.2 < 2 ^ 32)) &&
  tabOk 5 o.ranges && o.ranges.all (fun e => tabOk 256 e.2 && e.2.all fun x => decide (x.2 < 2 ^ 128)) &&
  (match o.macBase with | some b => decide (b < 2 ^ 48) | none => true) && decide (o.subVendor < 65536) && decide (o.subsystem < 65536)

/-- A place that names one element (R4-R6). -/
def isElement (p : Nat) : Bool := levelOf p != .absent && levelOf p != .broadcast

/-- A queue that carries command packets (R438). -/
def queueIdOk : QueueId → Bool
  | .pf l h p q => pfOk { link := l, half := h, pool := p, num := 0 } && decide (q < 16)
  | .vf l h p v => vfOk { link := l, half := h, pool := p, num := v }
  | .oob q => decide (q < 4)
  | .twin q => decide (q < 2)
  | .bed n => clusterOk n
  | .mgmt => true
  | .jtag => true
  | .lost q => queueIdOk q

/-- A command packet as it arrives (R431, R434): its queue is not lost, and its slots hold its parameters. -/
def cmdOk (c : Cmd) : Bool :=
  queueIdOk c.queue && (match c.queue with | .lost _ => false | _ => true) && decide (c.slots < 256) &&
  c.params.length + 16 == 64 * max 1 c.slots

/-- Where a register lies: within the BAR0 of R277 or R302, or an internal address of 47 bits and a requester of R615. -/
def regAtOk : RegAt → Bool
  | .bar0 f off => fnOk f && decide (off < if f.num == 0 then 2 ^ 26 else 2 ^ 22)
  | .poisoned f => fnOk f
  | .pcie f _ => fnOk f
  | .internal code a => decide (code ≤ 70) && decide (a < 2 ^ 47)

/-- The command is well formed. -/
def Instr.wf (i : Instr) : Bool :=
  match i with
  | .sysNop c => cmdOk c
  | .sysInfo c => cmdOk c
  | .sysEpochRead c => cmdOk c
  | .sysPathQuery c => cmdOk c
  | .sysDrain c => cmdOk c
  | .sysReset c => cmdOk c
  | .sysFwLoad c => cmdOk c
  | .sysFwActivate c => cmdOk c
  | .cfgStage c => cmdOk c
  | .cfgFix c => cmdOk c
  | .cfgDiscard c => cmdOk c
  | .cfgWrite c => cmdOk c
  | .cfgOverlay c => cmdOk c
  | .cfgRead c => cmdOk c
  | .tblInsert c => cmdOk c
  | .tblDelete c => cmdOk c
  | .tblModify c => cmdOk c
  | .tblLookup c => cmdOk c
  | .tblProgramSet c => cmdOk c
  | .tblTemplateSet c => cmdOk c
  | .tblGroupSet c => cmdOk c
  | .tblLagSet c => cmdOk c
  | .tblCounterRead c => cmdOk c
  | .tblMeterSet c => cmdOk c
  | .portRead c => cmdOk c
  | .portRestart c => cmdOk c
  | .portSnapshot c => cmdOk c
  | .portPartnerRead c => cmdOk c
  | .cryKekLoad c => cmdOk c
  | .cryCakSet c => cmdOk c
  | .cryCakClear c => cmdOk c
  | .cryMkaRead c => cmdOk c
  | .cryMkaRekey c => cmdOk c
  | .crySaInstall c => cmdOk c
  | .crySaRemove c => cmdOk c
  | .crySaRead c => cmdOk c
  | .cryTlsInstall c => cmdOk c
  | .cryTlsResync c => cmdOk c
  | .cryTlsRemove c => cmdOk c
  | .cryTlsRead c => cmdOk c
  | .flowInsert c => cmdOk c
  | .flowDelete c => cmdOk c
  | .flowRead c => cmdOk c
  | .flowModify c => cmdOk c
  | .flowFlush c => cmdOk c
  | .vfQuery c => cmdOk c
  | .vfSuspend c => cmdOk c
  | .vfResume c => cmdOk c
  | .vfLogStart c => cmdOk c
  | .vfLogHarvest c => cmdOk c
  | .vfLogStop c => cmdOk c
  | .vfSave c => cmdOk c
  | .vfRestore c => cmdOk c
  | .dmaQpSet c => cmdOk c
  | .dmaQpStart c => cmdOk c
  | .dmaQpStop c => cmdOk c
  | .dmaQpFlush c => cmdOk c
  | .dmaQpRead c => cmdOk c
  | .dmaChAssign c => cmdOk c
  | .dmaChProgram c => cmdOk c
  | .dmaChEnable c => cmdOk c
  | .dmaChRead c => cmdOk c
  | .stoNqnSet c => cmdOk c
  | .stoPathAdd c => cmdOk c
  | .stoPathRemove c => cmdOk c
  | .stoNsAdd c => cmdOk c
  | .stoNsRemove c => cmdOk c
  | .stoNsAttach c => cmdOk c
  | .stoNsDetach c => cmdOk c
  | .stoNsKey c => cmdOk c
  | .stoRead c => cmdOk c
  | .svcImageLoad c => cmdOk c
  | .svcStart c => cmdOk c
  | .svcStop c => cmdOk c
  | .svcReplace c => cmdOk c
  | .svcBedQuery c => cmdOk c
  | .svcSlotRead c => cmdOk c
  | .dbgHalt c => cmdOk c
  | .dbgResume c => cmdOk c
  | .dbgAbandonMessage c => cmdOk c
  | .dbgObserve c => cmdOk c
  | .dbgReadReg c => cmdOk c
  | .dbgOpen c => cmdOk c
  | .dbgClose c => cmdOk c
  | .testRun c => cmdOk c
  | .testResult c => cmdOk c
  | .testSchedule c => cmdOk c
  | .ageReport c => cmdOk c
  | .ageSheetRead c => cmdOk c
  | .ageSheetTime c => cmdOk c
  | .cartRead c => cmdOk c
  | .cartPrepareSwap c => cmdOk c
  | .cartCancelSwap c => cmdOk c
  | .twinStatus c => cmdOk c
  | .twinWitnessSet c => cmdOk c
  | .twinHandover c => cmdOk c
  | .logRead c => cmdOk c
  | .logTraceArm c => cmdOk c
  | .logTraceRead c => cmdOk c
  | .unitFault p => levelOf p == .unit
  | .unitHang p => levelOf p == .unit
  | .graftComplete sp => isSpare sp
  | .graftTimeout sp => isSpare sp
  | .elementLoss p => isElement p
  | .dieLinkQuarterFail p n => levelOf p == .unit && pCluster p == 17 && decide (117 ≤ pUnit p) && decide (n < 4)
  | .rateHuntTimeout p => portOk p
  | .receiverLock p r => portOk p && decide (r < 8)
  | .candidateDwellExpiry p => portOk p
  | .fecPartnerIdentified p f => portOk p && decide (f < 8)
  | .fecMismatchWaitExpiry p => portOk p
  | .lockHoldExpiry p => portOk p
  | .lockLost p => portOk p
  | .linkFaultPersist p => portOk p
  | .heldExpiry p => portOk p
  | .frameReceived p _ _ _ _ _ _ => portOk p
  | .pfcRefreshTimer p => portOk p
  | .pfcFrameReceived p vector times => portOk p && decide (vector < 256) && times.length == 8 && times.all fun x => decide (x < 65536)
  | .pauseFrameReceived p time => portOk p && decide (time < 65536)
  | .pauseTimeExpiry p mask => portOk p && decide (mask < 256)
  | .lldpFrameReceived p _ => portOk p
  | .lldpTransmitTimer p => portOk p
  | .dcbxAbsentTimeout p => portOk p
  | .lldpPartnerAgeout p => portOk p
  | .portSyncOverflow p dir => portOk p && decide (dir < 2)
  | .mkpduReceived p _ d => portOk p && decide (d.sci < 2 ^ 64) && decide (d.priority < 256)
  | .mkaHelloTimer p => portOk p
  | .mkaLifeExpiry p sci => portOk p && decide (sci < 2 ^ 64)
  | .parsePass g n _ => groupOk g && decide (n < 5)
  | .fragmentHoldTimeout g _ => groupOk g
  | .fragmentEntryTimeout g _ => groupOk g
  | .channelDelivery d c prio _ => fabricDie d && decide (c < 128) && decide (prio < 8)
  | .egressDequeue p _ => portOk p || (decide (1025 ≤ p) && decide (p ≤ 1028))
  | .twinPacketReceived g q prog _ _ => decide (g < 512) && decide (q < 8) && match prog with | some x => decide (x < 4096) | none => true
  | .cryptoEncrypt g _ => groupOk g
  | .cryptoDecrypt g _ _ _ => groupOk g
  | .tlsTxSegment g _ => groupOk g
  | .tlsRxSegment g _ _ _ => groupOk g
  | .cryptoRecordFetch g => groupOk g
  | .flowMissService g _ => groupOk g
  | .flowIdleSweep e => decide (e < 3)
  | .flowWriteBack g => groupOk g
  | .flowDeltaMerge _ record => record.length == 128
  | .flowTwinLag ms => decide (ms < 2 ^ 32)
  | .flowTwinResyncDone => true
  | .hostLinkTrained link half rate width _ => halfOk link half && decide (rate ≤ 64) && decide (width ≤ 16)
  | .perstAssert link half => halfOk link half
  | .hotReset link half => halfOk link half
  | .hostLinkLoss link half => halfOk link half
  | .hostFatalError link half _ => halfOk link half
  | .functionLevelReset f => fnOk f
  | .flrComplete f => fnOk f
  | .busMasterEnableClear f => fnOk f
  | .busMasterEnableSet f => fnOk f
  | .completionTimeout f _ => fnOk f
  | .hostCompletionReceived f _ _ _ => fnOk f
  | .bar0UnsupportedAccess f _ => fnOk f
  | .bar2Access f _ _ _ => pfOk f
  | .winCommit f _ => pfOk f
  | .winCommitComplete f => pfOk f
  | .pfCqDb f q tail _ _ => queueOk f q && decide (tail < 65536)
  | .pfCqEnable f q _ _ _ => queueOk f q
  | .pfCqDisable f q _ => queueOk f q
  | .pfCqRqHead f q index _ _ => queueOk f q && decide (index < 65536)
  | .pfIntxCauseRead f => pfOk f
  | .l0pNarrow link half => halfOk link half
  | .aspmL1Entry link half => halfOk link half
  | .powerStateChange f _ => fnOk f
  | .numvfsWrite f _ => pfOk f
  | .vfEnableSet f => pfOk f
  | .vfEnableClear f => pfOk f
  | .vfCtrlEnableSet f => vfOk f
  | .vfCtrlEnableClear f => vfOk f
  | .vfShutdownDone f => pfOk f
  | .vfSuspendComplete f => vfOk f
  | .vfLogHarvestComplete f _ => vfOk f
  | .vfSaveComplete f _ => vfOk f
  | .vfRestored f _ _ => vfOk f
  | .qpDbTx f n index => fnOk f && decide (n < 512) && decide (index < 65536)
  | .qpDbRx f n index => fnOk f && decide (n < 512) && decide (index < 65536)
  | .qpDbCq f n index => fnOk f && decide (n < 512) && decide (index < 65536)
  | .hostTxFetch f n _ _ => fnOk f && decide (n < 512)
  | .hostRxDelivery d link prio _ _ => fabricDie d && decide (link < 4) && decide (prio < 8)
  | .interruptModerationTimer f n => fnOk f && decide (n < 512)
  | .dmaQpFlushed f n => fnOk f && decide (n < 512)
  | .dmaBeat e => decide (e < 32)
  | .dmaRequestLineAssert n line => clusterOk n && decide (line < 16)
  | .nvmeSqDoorbell f _ tail => nvmeOk f && decide (tail < 65536)
  | .nvmeCcEnable f cc => nvmeOk f && decide (cc < 2 ^ 32)
  | .nvmeCcDisable f cc => nvmeOk f && decide (cc < 2 ^ 32)
  | .nvmeCcShutdown f cc => nvmeOk f && decide (cc < 2 ^ 32)
  | .nvmeIdentify f entry _ => nvmeOk f && entry.length == 64
  | .nvmeGetLogPage f entry _ => nvmeOk f && entry.length == 64
  | .nvmeSetFeatures f entry => nvmeOk f && entry.length == 64
  | .nvmeGetFeatures f entry => nvmeOk f && entry.length == 64
  | .nvmeCreateIoSq f entry => nvmeOk f && entry.length == 64
  | .nvmeCreateIoCq f entry => nvmeOk f && entry.length == 64
  | .nvmeDeleteIoSq f entry => nvmeOk f && entry.length == 64
  | .nvmeDeleteIoCq f entry => nvmeOk f && entry.length == 64
  | .nvmeAbort f entry => nvmeOk f && entry.length == 64
  | .nvmeAsyncEventRequest f entry => nvmeOk f && entry.length == 64
  | .nvmeRead f q entry _ => nvmeOk f && entry.length == 64 && q != 0
  | .nvmeWrite f q entry _ _ => nvmeOk f && entry.length == 64 && q != 0
  | .nvmeFlush f q entry => nvmeOk f && entry.length == 64 && q != 0
  | .nvmeWriteZeroes f q entry => nvmeOk f && entry.length == 64 && q != 0
  | .nvmeDatasetManagement f q entry _ => nvmeOk f && entry.length == 64 && q != 0
  | .nvmeCompare f q entry _ _ => nvmeOk f && entry.length == 64 && q != 0
  | .bedStorageSubmit b entry => decide (b < 32) && entry.length == 64
  | .targetResponse _ dw0 status _ _ _ => decide (dw0 < 2 ^ 32) && decide (status < 65536)
  | .stoPathUp p _ => pathOk p
  | .pathConnectionError p => pathOk p
  | .keepAliveTimeout p => pathOk p
  | .ioTimeout p => pathOk p
  | .roceRetryExhausted p => pathOk p
  | .targetFatalStatus p => pathOk p
  | .pathReconnectTimer p => pathOk p
  | .namespaceHoldExpiry i => decide (i < 1024)
  | .nsDetachComplete i who f => decide (i < 1024) && match who with | some b => decide (b < 32) | none => nvmeOk f
  | .instructionIssue n t => threadOk n t
  | .chWr n t rd rs1 rs2 => threadOk n t && regOk rd && regOk rs1 && regOk rs2
  | .chWre n t rd rs1 rs2 => threadOk n t && regOk rd && regOk rs1 && regOk rs2
  | .chRdh n t rd rs1 => threadOk n t && regOk rd && regOk rs1
  | .chTry n t rd rs1 => threadOk n t && regOk rd && regOk rs1
  | .chRdw n t rd rs1 => threadOk n t && regOk rd && regOk rs1
  | .chAbt n t rs1 => threadOk n t && regOk rs1
  | .chCnt n t rd rs1 => threadOk n t && regOk rd && regOk rs1
  | .chFree n t rs1 rs2 => threadOk n t && regOk rs1 && regOk rs2
  | .lkAcq n t rd rs1 => threadOk n t && regOk rd && regOk rs1
  | .lkTry n t rd rs1 => threadOk n t && regOk rd && regOk rs1
  | .lkRel n t rs1 => threadOk n t && regOk rs1
  | .tmSet n t rs1 rs2 => threadOk n t && regOk rs1 && regOk rs2
  | .ecall n t => threadOk n t
  | .ebreak n t => threadOk n t
  | .svcTimerExpiry n k => clusterOk n && decide (k < 64)
  | .lockLimitExpiry n l => clusterOk n && decide (l < 1024)
  | .stallTimeout n => clusterOk n
  | .svcLockRelease n l => clusterOk n && decide (l < 1024)
  | .svcThreadRun n t => threadOk n t
  | .svcChanEnable n ch _ => clusterOk n && decide (ch < 256)
  | .svcChanDisable n ch _ => clusterOk n && decide (ch < 256)
  | .svcReadySet n => clusterOk n
  | .svcReadyClear n => clusterOk n
  | .startTimeout b => decide (b < 32)
  | .stopGraceExpiry b => decide (b < 32)
  | .svcCmdqDb n tail => clusterOk n && decide (tail < 65536)
  | .svcCmdqEnable n _ => clusterOk n
  | .svcCmdqDisable n _ => clusterOk n
  | .svcImageVerified slot _ _ _ => decide (slot < 64)
  | .oobCommandMessage q _ => decide (q < 4)
  | .twinForwardedCommand op tag flags _ _ _ => decide (op < 65536) && decide (tag < 65536) && decide (flags < 256)
  | .sysDrained p => Target.dieOrRegion.takes p
  | .packageRestartBegin => true
  | .fwImageVerified q tag _ _ _ owner digests =>
      queueIdOk q && decide (tag < 65536) && digests.length == 5 && (match owner with | some o => ownerSectionOk o | none => true)
  | .prepareReceived e => decide (e < 2 ^ 32)
  | .preparedReceived e => decide (e < 2 ^ 32)
  | .refusedReceived e _ _ => decide (e < 2 ^ 32)
  | .commitReceived e => decide (e < 2 ^ 32)
  | .committedReceived e => decide (e < 2 ^ 32)
  | .abortReceived e => decide (e < 2 ^ 32)
  | .prepareReplyTimeout => true
  | .stageTimeout => true
  | .epochHoldExpiry e => decide (e < 2 ^ 32)
  | .tblReseedDone t => decide (t < 16)
  | .flowFlushComplete => true
  | .debugTokenExpiry _ => true
  | .handoverDrained => true
  | .mbxSend c len => decide (c < 32) && decide (len ≤ 4096)
  | .mbxMsgRead c _ _ => decide (c < 32)
  | .mbxDbSet c _ => decide (c < 32)
  | .mbxDbClear c _ => decide (c < 32)
  | .mbxDbMaskWrite c _ => decide (c < 32)
  | .memTrained chs => chs.length == 12
  | .patrolScrubRead a outcome slot _ _ _ => decide (0x400000000000 ≤ a) && decide (a < 0x500000000000) && decide (outcome < 3) && decide (slot < 2)
  | .dimmThermalRead c slot _ => decide (c < 12) && decide (slot < 2)
  | .memoryChannelFailure c _ => decide (c < 12)
  | .cartPresenceAssert sl _ => decide (sl < 16)
  | .cartChallengeResponse sl _ _ => decide (sl < 16)
  | .cartSettleTimeout sl => decide (sl < 16)
  | .cartRampStep sl => decide (sl < 16)
  | .cartLatchOpen sl => decide (sl < 16)
  | .cartPresenceOpen sl => decide (sl < 16)
  | .laserFailure sl j => decide (sl < 16) && decide (j < 16)
  | .opticalEngineFault e _ => decide (e < 32)
  | .cartBusSilence sl => decide (sl < 16)
  | .cartReplaceReminder sl => decide (sl < 16)
  | .governorScan d _ _ => hasDie d
  | .governorRailStep d => hasDie d
  | .railMonitorCheck d _ => hasDie d
  | .contactSheet _ => true
  | .scheduledExposure p _ => levelOf p == .unit || levelOf p == .cluster
  | .claimRetryTimer p => levelOf p == .unit || levelOf p == .cluster
  | .exposureTestEnd p _ _ _ _ _ => levelOf p == .unit || levelOf p == .cluster
  | .referenceCheck p _ _ _ => levelOf p == .unit || levelOf p == .die
  | .heartbeatSend => true
  | .heartbeatReceived seq _ _ _ => decide (seq < 2 ^ 64)
  | .heartbeatMissed => true
  | .witnessClaimResend => true
  | .witnessReport => true
  | .witnessGrant path _ _ => decide (path < 3)
  | .witnessRefusal path _ _ => decide (path < 3)
  | .verdictTimeout => true
  | .twinWitnessLost path => decide (path < 3)
  | .leaveMessageReceived => true
  | .twinLaneFailure lane => decide (lane < 32)
  | .twinLinkUp _ system package _ _ => decide (system < 16) && decide (package < 2)
  | .joinConfigApplied epoch base _ => decide (epoch < 2 ^ 32) && base.all fun x => decide (x.1 < 2 ^ 47)
  | .joinStateCopied _ => true
  | .lacpduReceived p _ _ _ => portOk p
  | .pwrOkRise _ _ _ => true
  | .pwrOkFall => true
  | .resetNAssert => true
  | .resetNRelease _ => true
  | .fabricBootWindowOpen d => fabricDie d
  | .protCtrlLock d => decide (d ≤ 4)
  | .bootWindowTimeout d => decide (d ≤ 4)
  | .startTestEnd d _ _ => decide (d ≤ 4)
  | .fullService rootstock full => decide (rootstock < 2 ^ 32) && decide (full < 2 ^ 32)
  | .twinAbsentAtStart => true
  | .shdnReqNAssert => true
  | .shutdownBedsStopped => true
  | .shutdownLasersDark => true
  | .dieRestartDrained d => fabricDie d
  | .dieRestartReady d => fabricDie d
  | .tkRefLoss => true
  | .tkPpsLoss => true
  | .ptpMasterLoss => true
  | .timeSourceReturn which _ => decide (1 ≤ which) && decide (which ≤ 3)
  | .timeLockAchieved => true
  | .ptpMessageReceived p _ type _ _ _ _ => portOk p && decide (type < 16)
  | .timeFlashWrite => true
  | .portPtpTxtsRead p => portOk p
  | .logAppend => true
  | .thermalReading which _ _ => decide (which ≤ 4) || (decide (8 ≤ which) && decide (which < 40))
  | .firmwareTrip d _ => decide (d ≤ 4)
  | .hardwareTrip d _ => decide (d ≤ 4)
  | .registerWrite r _ _ => regAtOk r
  | .linkFaultDetected p kind => portOk p && decide (kind < 3)
  | .linkFaultCleared p kind => portOk p && decide (kind < 3)
  | .perstDeassert link half => halfOk link half
  | .l0pPartnerRequest link half _ => halfOk link half
  | .twinLaneUp lane => decide (lane < 32)
  | .twinReplyReceived tag _ _ _ _ => decide (tag < 65536)
  | .twinLacpInfoReceived p _ _ => portOk p
  | .twinSaStateReceived _ seq _ => decide (seq < 2 ^ 64)
  | .oobEndpointLoss q => decide (q < 4)
  | .registerReadClear r _ => regAtOk r && (match r with | .poisoned _ => false | _ => true)
  | .nvmeCqDoorbell f _ head => nvmeOk f && decide (head < 65536)
  | .cartBusRestored sl => decide (sl < 16)
  | .cartFatalFault sl => decide (sl < 16)
  | .laneFault p => portOk p
  | .bootMailboxWrite _ cmd => match cmd with | some x => decide (x.1 < 65536) && cmdOk x.2 | none => true
  | .portSnapshotComplete q tag _ => queueIdOk q && decide (tag < 65536)
  | .ageSheetReadComplete q tag _ => queueIdOk q && decide (tag < 65536)
  | .logReadComplete q tag _ => queueIdOk q && decide (tag < 65536)
  | .logTraceReadComplete q tag _ => queueIdOk q && decide (tag < 65536)

end Sys2Proof
end

