-- ==== Sys2Proof/Safety.lean ====
section
/-! DEFINITION. What counts as a safe run, in the terms that claims use. -/

namespace Sys2Proof.Machine

/-- The outcome is a next state. -/
def Completes (r : Res) : Prop := ∃ t, r = .next t

/-- The memory is in its canonical form (R415, R500). -/
def memOk (s : State) : Prop := Memory.wf s.mem.cells = true

/-- The command packet passes every check of its opcode and starts here, alone (R434, R446, R448, R449, R597, R643, R682): the package answers
commands, nothing holds the packet back, and the twin takes no part. -/
def accepts (o : Op) (c : Cmd) (s : State) : Bool :=
  !(3 ≤ s.power.shutdown) && !mustWait o c s && (rightsRefusal o c s).isNone && !namesTwin c s &&
  (c.staged || c.epoch == 0 || c.epoch.toNat == curEpoch s) && (twinRefusal o c s).isNone && (paramRefusal o c).isNone &&
  reachNow o c s == 0

/-- The same of a command that carries a key: its checks are made after the queue memory that held the key is wiped (R205). -/
def acceptsKey (o : Op) (c : Cmd) (s : State) : Bool := !mustWait o c s && accepts o c (wipe c s)

/-- Does an opcode carry a key (R205)? -/
def carriesKey (code : Nat) : Bool := [0x1001, 0x1002, 0x1006, 0x1009, 0x2408].contains code

/-- The state in which the checks of a command packet are made: the queue memory of one that carries a key is wiped before (R205). -/
def checkedAt (code : Nat) (c : Cmd) (s : State) : State := if carriesKey code then wipe c s else s

/-- The reply of an accepted command that ends at once (R435). -/
def replied (o : Op) (c : Cmd) (r : Rep) (old new : State) : State :=
  sendReply c.queue c.tag.toNat o.code 0 (curEpoch old) r new

/-- The state of an accepted command that has replied ACCEPTED and owes its completion under a key (R436). -/
def owing (o : Op) (c : Cmd) (key : Nat) (old new : State) : State :=
  sendReply c.queue c.tag.toNat o.code 0 (curEpoch old) (rep stAccepted 0)
    { new with cmd := { new.cmd with owed := new.cmd.owed ++
      [{ queue := c.queue, tag := c.tag.toNat, opcode := o.code, epoch := curEpoch old, key := key, accepted := true }] } }

/-- The outcome of an accepted command that ends at once with OK and these result bytes. -/
def ends (o : Op) (c : Cmd) (b : Bytes) (old new : State) : Res := .next (replied o c (repOk b) old new)

/-- The outcome of an accepted command that has replied ACCEPTED and owes its completion under a key. -/
def starts (o : Op) (c : Cmd) (key : Nat) (old new : State) : Res := .next (owing o c key old new)

/-- The parts of State, as its fields name them. -/
inductive Part where
  | pending | waiting | out | freeIx | regs | time | log | cmd | cfg | prot | boot | power | twin | spare | ports | tbl | buf | cry | flow | host | sto | svc | mbx | mem | cart | age | test | therm | flash
  deriving DecidableEq, Repr

/-- A part is the same in both states. -/
def agree (x : Part) (s t : State) : Prop :=
  match x with
  | .pending => t.pending = s.pending
  | .waiting => t.waiting = s.waiting
  | .out => t.out = s.out
  | .freeIx => t.freeIx = s.freeIx
  | .regs => t.regs = s.regs
  | .time => t.time = s.time
  | .log => t.log = s.log
  | .cmd => t.cmd = s.cmd
  | .cfg => t.cfg = s.cfg
  | .prot => t.prot = s.prot
  | .boot => t.boot = s.boot
  | .power => t.power = s.power
  | .twin => t.twin = s.twin
  | .spare => t.spare = s.spare
  | .ports => t.ports = s.ports
  | .tbl => t.tbl = s.tbl
  | .buf => t.buf = s.buf
  | .cry => t.cry = s.cry
  | .flow => t.flow = s.flow
  | .host => t.host = s.host
  | .sto => t.sto = s.sto
  | .svc => t.svc = s.svc
  | .mbx => t.mbx = s.mbx
  | .mem => t.mem = s.mem
  | .cart => t.cart = s.cart
  | .age => t.age = s.age
  | .test => t.test = s.test
  | .therm => t.therm = s.therm
  | .flash => t.flash = s.flash

/-- What an execution of any command packet may move: its queue and replies, its refusal counted, its bed's channels. -/
def packetParts : List Part := [.waiting, .out, .regs, .log, .cmd, .prot, .host, .svc]

/-- The parts of State that a command may move; every other part it leaves as it was. -/
def touched : Instr → List Part
  | .sysNop .. | .sysInfo .. | .sysEpochRead .. | .sysPathQuery .. | .sysFwLoad .. | .portSnapshot .. | .cryMkaRead .. | .crySaRead .. |
    .cryTlsRead .. | .vfQuery .. | .vfSuspend .. | .vfResume .. | .vfLogStart .. | .vfLogHarvest .. | .vfLogStop .. | .vfSave .. |
    .vfRestore .. | .dmaQpSet .. | .dmaQpStart .. | .dmaQpStop .. | .dmaQpFlush .. | .dmaQpRead .. | .dmaChAssign .. | .dmaChProgram .. |
    .dmaChRead .. | .stoRead .. | .svcBedQuery .. | .svcSlotRead .. | .dbgHalt .. | .dbgResume .. | .dbgAbandonMessage .. | .dbgObserve ..
    | .dbgReadReg .. | .testResult .. | .ageSheetRead .. | .cartRead .. | .logRead .. | .logTraceArm .. | .logTraceRead .. => packetParts
  | .sysDrain .. | .tblCounterRead .. | .tblMeterSet .. => packetParts ++ [.tbl]
  | .sysReset .. => packetParts ++ [.freeIx, .cfg, .boot, .power, .spare, .ports, .tbl, .buf, .cry, .flow, .sto, .mbx, .mem, .test]
  | .sysFwActivate .. | .packageRestartBegin | .pwrOkRise .. | .resetNAssert => packetParts ++ [.freeIx, .time, .cfg, .boot, .power,
    .twin, .spare, .ports, .tbl, .buf, .cry, .flow, .sto, .mbx, .mem, .cart, .age, .test, .therm]
  | .cfgStage .. | .cfgWrite .. | .cfgOverlay .. => packetParts ++ [.cfg]
  | .cfgFix .. => packetParts ++ [.freeIx, .cfg, .ports, .tbl, .buf, .cry, .flow, .mem]
  | .cfgDiscard .. | .tblDelete .. | .tblLookup .. | .tblProgramSet .. | .tblTemplateSet .. | .tblGroupSet .. | .tblLagSet .. =>
    packetParts ++ [.cfg, .tbl]
  | .cfgRead .. | .portRead .. => packetParts ++ [.ports, .buf]
  | .tblInsert .. | .tblModify .. => packetParts ++ [.freeIx, .cfg, .tbl]
  | .portRestart .. => packetParts ++ [.ports, .tbl, .cry]
  | .portPartnerRead .. => packetParts ++ [.freeIx, .mem]
  | .cryKekLoad .. | .crySaInstall .. | .cryTlsInstall .. => packetParts ++ [.freeIx, .cry, .mem]
  | .cryCakSet .. => packetParts ++ [.freeIx, .ports, .cry, .mem]
  | .cryCakClear .. => packetParts ++ [.ports, .cry]
  | .cryMkaRekey .. => packetParts ++ [.freeIx, .ports, .cry]
  | .crySaRemove .. | .cryTlsResync .. | .cryTlsRemove .. => packetParts ++ [.cry]
  | .flowInsert .. => packetParts ++ [.flow, .mem]
  | .flowDelete .. | .flowRead .. | .flowModify .. => packetParts ++ [.tbl, .flow, .mem]
  | .flowFlush .. => packetParts ++ [.flow]
  | .dmaChEnable .. | .ageReport .. | .twinStatus .. => packetParts ++ [.freeIx]
  | .stoNqnSet .. | .stoPathRemove .. | .stoNsAdd .. | .stoNsRemove .. | .stoNsAttach .. | .stoNsDetach .. => packetParts ++ [.sto]
  | .stoPathAdd .. => packetParts ++ [.freeIx, .buf, .sto]
  | .stoNsKey .. => packetParts ++ [.freeIx, .buf, .cry, .sto, .mem]
  | .svcImageLoad .. => packetParts ++ [.mem]
  | .svcStart .. => packetParts ++ [.mbx, .mem]
  | .svcStop .. | .svcReplace .. | .registerWrite .. => packetParts ++ [.freeIx, .cfg, .tbl, .sto, .mbx, .mem]
  | .dbgOpen .. | .dbgClose .. => packetParts ++ [.boot]
  | .testRun .. => packetParts ++ [.freeIx, .spare, .ports, .tbl, .cry, .age, .test]
  | .testSchedule .. => packetParts ++ [.test]
  | .ageSheetTime .. => packetParts ++ [.age]
  | .cartPrepareSwap .. | .cartCancelSwap .. => packetParts ++ [.cart]
  | .twinWitnessSet .. => packetParts ++ [.twin]
  | .twinHandover .. => packetParts ++ [.freeIx, .twin, .ports, .tbl, .cry]
  | .unitFault .. | .unitHang .. | .elementLoss .. | .governorScan .. | .startTestEnd .. => [.waiting, .out, .freeIx, .regs, .log, .cmd,
    .cfg, .boot, .power, .twin, .spare, .ports, .tbl, .buf, .cry, .flow, .host, .sto, .svc, .mbx, .mem, .cart, .age, .test]
  | .graftComplete .. => [.waiting, .out, .freeIx, .regs, .log, .cmd, .cfg, .spare, .ports, .tbl, .cry, .host, .sto, .svc, .mbx, .mem,
    .age, .test]
  | .graftTimeout .. => [.waiting, .out, .freeIx, .regs, .log, .cmd, .cfg, .boot, .power, .twin, .spare, .ports, .tbl, .buf, .cry, .flow,
    .host, .sto, .svc, .mbx, .mem, .age, .test]
  | .dieLinkQuarterFail .. => [.waiting, .out, .freeIx, .regs, .log, .cmd, .cfg, .spare, .ports, .tbl, .buf, .cry, .flow, .host, .sto,
    .svc, .mbx, .mem, .test]
  | .rateHuntTimeout .. | .receiverLock .. | .candidateDwellExpiry .. | .fecMismatchWaitExpiry .. | .heldExpiry .. | .pfcFrameReceived ..
    | .pauseFrameReceived .. | .pauseTimeExpiry .. | .portPtpTxtsRead .. | .linkFaultDetected .. | .linkFaultCleared .. => [.out, .ports]
  | .fecPartnerIdentified .. | .portSyncOverflow .. => [.out, .regs, .log, .ports]
  | .lockHoldExpiry .. => [.out, .freeIx, .regs, .log, .ports, .tbl, .cry]
  | .lockLost .. | .linkFaultPersist .. => [.out, .regs, .log, .ports, .tbl, .cry]
  | .frameReceived .. => [.out, .regs, .log, .twin, .ports, .tbl, .buf, .cry]
  | .pfcRefreshTimer .. | .lldpTransmitTimer .. => [.out, .ports, .cry]
  | .lldpFrameReceived .. => [.out, .regs, .log, .ports, .tbl, .buf, .cry]
  | .dcbxAbsentTimeout .. | .lldpPartnerAgeout .. => [.out, .regs, .log, .ports, .buf, .cry]
  | .mkpduReceived .. | .mkaHelloTimer .. | .mkaLifeExpiry .. => [.out, .freeIx, .regs, .log, .ports, .cry]
  | .parsePass .. => [.out, .freeIx, .regs, .log, .cfg, .ports, .tbl, .buf, .cry, .flow, .host, .mem]
  | .fragmentHoldTimeout .. | .cryptoEncrypt .. | .cryptoDecrypt .. | .tlsTxSegment .. | .tlsRxSegment .. => [.out, .freeIx, .regs, .log,
    .cfg, .ports, .tbl, .buf, .cry, .flow, .host]
  | .fragmentEntryTimeout .. => [.tbl]
  | .channelDelivery .. => [.out, .regs, .log, .cfg, .ports, .tbl, .buf, .cry, .flow, .svc, .mem]
  | .egressDequeue .. => [.out, .freeIx, .regs, .log, .cfg, .twin, .ports, .tbl, .buf, .cry, .flow, .host]
  | .twinPacketReceived .. => [.out, .freeIx, .ports, .tbl, .buf, .cry, .host]
  | .cryptoRecordFetch .. => [.out, .freeIx, .regs, .log, .cfg, .ports, .tbl, .buf, .cry, .flow, .mem]
  | .flowMissService .. => [.waiting, .out, .freeIx, .regs, .log, .cmd, .cfg, .power, .twin, .ports, .tbl, .buf, .cry, .flow, .host, .sto,
    .svc, .mbx, .mem]
  | .flowIdleSweep .. | .flowDeltaMerge .. => [.regs, .log, .tbl, .flow, .svc, .mem]
  | .flowWriteBack .. => [.flow, .mem]
  | .flowTwinLag .. => [.regs, .log, .flow]
  | .flowTwinResyncDone | .twinLaneFailure .. | .twinLaneUp .. => [.out, .freeIx, .regs, .log, .twin, .ports, .tbl, .cry, .flow]
  | .hostLinkTrained .. | .busMasterEnableClear .. | .busMasterEnableSet .. | .powerStateChange .. | .vfEnableSet .. | .vfShutdownDone ..
    | .qpDbTx .. | .qpDbCq .. => [.out, .regs, .log, .host]
  | .perstAssert .. => [.waiting, .out, .freeIx, .regs, .log, .cmd, .cfg, .boot, .power, .tbl, .host, .sto, .svc, .mbx]
  | .hotReset .. | .hostLinkLoss .. | .hostFatalError .. | .functionLevelReset .. | .vfEnableClear .. => [.waiting, .out, .freeIx, .regs,
    .log, .cmd, .cfg, .boot, .tbl, .host, .sto, .svc, .mbx]
  | .flrComplete .. => [.out, .regs, .log, .host, .mbx]
  | .completionTimeout .. | .hostCompletionReceived .. => [.out, .freeIx, .regs, .log, .host]
  | .bar0UnsupportedAccess .. => [.out, .freeIx, .host]
  | .bar2Access .. => packetParts ++ [.freeIx, .cfg, .ports, .tbl, .buf, .sto, .mbx, .mem, .therm]
  | .winCommit .. | .winCommitComplete .. | .pfCqDisable .. | .l0pNarrow .. | .aspmL1Entry .. | .numvfsWrite .. | .vfCtrlEnableSet .. |
    .vfCtrlEnableClear .. | .dmaRequestLineAssert .. | .l0pPartnerRequest .. => [.host]
  | .pfCqDb .. | .pfCqEnable .. => [.waiting, .regs, .log, .host]
  | .pfCqRqHead .. => [.waiting, .out, .regs, .log, .host]
  | .pfIntxCauseRead .. => [.out, .host]
  | .vfSuspendComplete .. | .vfSaveComplete .. | .vfRestored .. | .dmaQpFlushed .. | .svcReadySet .. | .svcImageVerified .. | .sysDrained
    .. => [.out, .regs, .log, .cmd, .host, .svc]
  | .vfLogHarvestComplete .. | .portSnapshotComplete .. | .ageSheetReadComplete .. | .logReadComplete .. | .logTraceReadComplete .. =>
    [.out, .regs, .log, .cmd, .host, .svc, .mem]
  | .qpDbRx .. => [.regs, .log, .host]
  | .hostTxFetch .. => [.out, .regs, .log, .buf, .host]
  | .hostRxDelivery .. => [.out, .regs, .log, .cfg, .ports, .tbl, .buf, .cry, .flow, .host]
  | .interruptModerationTimer .. => [.out, .host, .sto]
  | .dmaBeat .. => [.out, .regs, .log, .host, .svc, .mem]
  | .nvmeSqDoorbell .. | .nvmeCcEnable .. | .nvmeCcDisable .. | .nvmeCcShutdown .. => [.sto]
  | .nvmeIdentify .. | .nvmeSetFeatures .. | .nvmeGetFeatures .. | .nvmeCreateIoSq .. | .nvmeCreateIoCq .. | .nvmeDeleteIoSq .. |
    .nvmeDeleteIoCq .. | .nvmeAsyncEventRequest .. | .nvmeCqDoorbell .. => [.out, .regs, .log, .host, .sto]
  | .nvmeGetLogPage .. => [.out, .freeIx, .regs, .log, .host, .sto]
  | .nvmeAbort .. | .namespaceHoldExpiry .. => [.out, .regs, .log, .host, .sto, .svc]
  | .nvmeRead .. | .nvmeWrite .. | .nvmeFlush .. | .nvmeWriteZeroes .. | .nvmeDatasetManagement .. | .nvmeCompare .. => [.out, .freeIx,
    .regs, .log, .buf, .host, .sto, .svc]
  | .bedStorageSubmit .. | .targetResponse .. => [.out, .freeIx, .regs, .log, .buf, .host, .sto, .svc, .mem]
  | .stoPathUp .. | .pathConnectionError .. | .keepAliveTimeout .. | .ioTimeout .. | .roceRetryExhausted .. | .targetFatalStatus .. =>
    [.out, .freeIx, .regs, .log, .buf, .sto]
  | .pathReconnectTimer .. => [.out, .freeIx, .buf, .sto]
  | .nsDetachComplete .. => [.out, .regs, .log, .cmd, .host, .sto, .svc]
  | .instructionIssue .. | .chWr .. | .chWre .. | .chRdh .. | .chTry .. | .chRdw .. | .chAbt .. | .chCnt .. | .chFree .. | .lkAcq .. |
    .lkTry .. | .lkRel .. | .tmSet .. | .ecall .. | .ebreak .. | .stallTimeout .. | .svcChanEnable .. | .svcChanDisable .. |
    .svcReadyClear .. | .startTimeout .. | .stopGraceExpiry .. => [.waiting, .out, .freeIx, .regs, .log, .cmd, .cfg, .tbl, .host, .sto,
    .svc, .mbx, .mem]
  | .svcTimerExpiry .. | .svcLockRelease .. | .svcThreadRun .. => [.svc]
  | .lockLimitExpiry .. => [.regs, .log, .svc]
  | .svcCmdqDb .. | .svcCmdqEnable .. | .svcCmdqDisable .. => [.waiting, .regs, .log, .svc, .mem]
  | .oobCommandMessage .. => [.waiting, .out, .regs, .log, .host, .svc]
  | .twinForwardedCommand .. => [.waiting]
  | .fwImageVerified .. => [.out, .regs, .log, .cmd, .boot, .host, .svc, .mem]
  | .prepareReceived .. => [.out, .cfg, .mem]
  | .preparedReceived .. | .tblReseedDone .. => [.out, .freeIx, .regs, .log, .cmd, .cfg, .ports, .tbl, .buf, .cry, .flow, .host, .svc]
  | .refusedReceived .. | .committedReceived .. | .prepareReplyTimeout | .twinReplyReceived .. => [.out, .regs, .log, .cmd, .cfg, .host,
    .svc]
  | .commitReceived .. => [.out, .freeIx, .regs, .log, .cfg, .ports, .tbl, .buf, .cry, .flow, .svc]
  | .abortReceived .. => [.out, .cfg, .ports, .tbl, .buf, .cry, .flow]
  | .stageTimeout => [.out, .regs, .log, .cfg, .tbl]
  | .epochHoldExpiry .. => [.out, .regs, .log, .cfg, .ports, .tbl, .buf, .cry, .flow]
  | .flowFlushComplete => [.out, .regs, .log, .cmd, .tbl, .flow, .host, .svc, .mem]
  | .debugTokenExpiry .. => [.regs, .log, .boot, .svc]
  | .handoverDrained => [.out, .freeIx, .regs, .log, .cmd, .twin, .ports, .tbl, .cry, .host, .svc]
  | .mbxSend .. | .mbxMsgRead .. | .mbxDbSet .. | .mbxDbMaskWrite .. => [.out, .host, .svc, .mbx]
  | .mbxDbClear .. => [.mbx]
  | .memTrained .. => [.regs, .log, .power, .svc, .mem]
  | .patrolScrubRead .. | .memoryChannelFailure .. => [.waiting, .out, .freeIx, .regs, .log, .cmd, .cfg, .power, .twin, .ports, .tbl,
    .cry, .host, .sto, .svc, .mbx, .mem]
  | .dimmThermalRead .. => [.regs, .log, .mem]
  | .cartPresenceAssert .. => [.out, .freeIx, .regs, .log, .cart]
  | .cartChallengeResponse .. => [.out, .regs, .log, .cart]
  | .cartSettleTimeout .. | .cartBusSilence .. | .cartReplaceReminder .. => [.regs, .log, .cart]
  | .cartRampStep .. | .cartPresenceOpen .. | .laserFailure .. | .cartFatalFault .. => [.out, .freeIx, .regs, .log, .cmd, .ports, .tbl,
    .cry, .host, .svc, .cart]
  | .cartLatchOpen .. => [.out, .freeIx, .regs, .log, .cmd, .host, .svc, .cart]
  | .opticalEngineFault .. | .laneFault .. => [.regs, .log, .ports, .tbl, .cry, .cart]
  | .governorRailStep .. => [.out, .age]
  | .railMonitorCheck .. => [.out, .freeIx, .regs, .log, .cmd, .spare, .ports, .tbl, .cry, .host, .svc, .age, .test]
  | .contactSheet .. => [.out, .regs, .log, .mem, .cart, .age, .flash]
  | .scheduledExposure .. | .claimRetryTimer .. => [.out, .freeIx, .regs, .log, .spare, .ports, .tbl, .cry, .age, .test]
  | .exposureTestEnd .. => [.out, .regs, .log, .cmd, .spare, .ports, .tbl, .cry, .host, .svc, .age, .test]
  | .referenceCheck .. => [.regs, .log]
  | .heartbeatSend => [.out, .twin]
  | .heartbeatReceived .. | .witnessGrant .. | .witnessRefusal .. | .verdictTimeout | .leaveMessageReceived => [.out, .freeIx, .regs,
    .log, .cmd, .cfg, .twin, .ports, .tbl, .buf, .cry, .flow, .host, .svc]
  | .heartbeatMissed | .twinAbsentAtStart => [.out, .freeIx, .regs, .log, .twin, .ports, .tbl, .cry]
  | .witnessClaimResend | .witnessReport => [.out, .freeIx, .regs, .log, .twin, .cry]
  | .twinWitnessLost .. => [.regs, .log, .twin]
  | .twinLinkUp .. => [.out, .freeIx, .regs, .time, .log, .twin, .ports, .tbl, .cry, .flow]
  | .joinConfigApplied .. => [.out, .freeIx, .regs, .log, .cfg, .twin, .ports, .tbl, .buf, .cry, .flow, .svc]
  | .joinStateCopied .. => [.out, .freeIx, .regs, .log, .twin, .tbl, .cry, .flow, .sto]
  | .lacpduReceived .. => [.out, .regs, .log, .cmd, .twin, .ports, .tbl, .host, .svc]
  | .pwrOkFall => [.boot, .power, .twin, .spare, .ports, .tbl, .cry, .age, .test]
  | .resetNRelease .. => [.out, .freeIx, .regs, .log, .prot, .boot, .power, .twin, .cry, .flow, .sto]
  | .fabricBootWindowOpen .. => [.prot, .boot]
  | .protCtrlLock .. => [.out, .freeIx, .regs, .log, .cfg, .prot, .boot, .tbl, .host, .svc]
  | .bootWindowTimeout .. => packetParts ++ [.freeIx, .cfg, .boot, .power, .twin, .spare, .ports, .tbl, .buf, .cry, .flow, .sto, .mbx,
    .mem, .age, .test]
  | .fullService .. => [.regs, .log, .power, .svc, .mbx, .mem, .age, .test, .therm]
  | .shdnReqNAssert => [.waiting, .out, .freeIx, .regs, .log, .cmd, .cfg, .boot, .power, .tbl, .host, .sto, .svc, .mbx, .mem, .test]
  | .shutdownBedsStopped => [.waiting, .out, .freeIx, .regs, .log, .cmd, .cfg, .power, .tbl, .host, .sto, .svc, .mbx, .mem, .cart, .flash]
  | .shutdownLasersDark => [.out, .freeIx, .regs, .log, .power, .ports, .tbl, .cry, .cart]
  | .dieRestartDrained .. => packetParts ++ [.freeIx, .cfg, .boot, .spare, .ports, .tbl, .buf, .cry, .flow, .sto, .mbx, .mem, .test]
  | .dieRestartReady .. => packetParts ++ [.freeIx, .cfg, .boot, .power, .spare, .ports, .tbl, .buf, .cry, .flow, .sto, .mbx, .mem, .cart,
    .test]
  | .tkRefLoss | .tkPpsLoss | .ptpMasterLoss | .timeSourceReturn .. | .timeLockAchieved => [.regs, .time, .log]
  | .ptpMessageReceived .. => [.regs, .time, .log, .ports, .flow]
  | .timeFlashWrite => [.out, .flash]
  | .logAppend => [.log, .svc, .mem]
  | .thermalReading .. => [.out, .freeIx, .regs, .log, .cmd, .spare, .ports, .tbl, .cry, .host, .svc, .age, .test, .therm]
  | .firmwareTrip .. => [.out, .freeIx, .regs, .log, .power, .ports, .tbl, .cry, .cart, .therm]
  | .hardwareTrip .. => [.out, .freeIx, .regs, .log, .cmd, .power, .spare, .ports, .tbl, .cry, .host, .svc, .cart, .age, .test, .therm]
  | .perstDeassert .. => [.power]
  | .twinLacpInfoReceived .. => [.ports, .tbl]
  | .twinSaStateReceived .. => [.cry]
  | .oobEndpointLoss .. => [.waiting, .out, .regs, .log, .cmd, .cfg, .boot, .tbl, .svc]
  | .registerReadClear .. => [.out, .freeIx, .regs, .log, .prot, .ports, .buf, .host, .svc, .mbx, .therm]
  | .cartBusRestored .. => [.cart]
  | .bootMailboxWrite .. => [.waiting, .boot]

/-- From one state to the other no part but those listed has moved; a memory in canonical form still is (R415, R500); nothing that has left
the block is taken back; free values and random draws are used once; a retired package stays so (R620); rollback fuses stay blown
(R612). -/
structure Moves (l : List Part) (s t : State) : Prop where
  keeps : ∀ x, x ∉ l → agree x s t
  mem : memOk s → memOk t
  out : s.out <+: t.out
  free : s.freeIx ≤ t.freeIx
  retired : s.boot.lifecycle = .retired → t.boot.lifecycle = .retired
  fuses : s.boot.fuses ≤ t.boot.fuses

end Sys2Proof.Machine
end

