-- ==== Sys2Proof/Certificates/Slice0/Obligations.lean ====
section
/-! DEFINITION. The statements for the provers, by family of commands. A clause about a command says for which states and operands it
completes and what state follows; `ends` and `starts` (Safety) name the reply of a command packet. -/

open Sys2Proof Sys2Proof.Machine

/-- The SYS commands (R451-R453, R613, R614) where nothing refuses them: the reads answer their result fields, in order, and nothing else
changes. -/
def Obligations.SysCommandsAct : Prop :=
  (∀ c s, accepts opSysNop c s = true → exec (.sysNop c) s = ends opSysNop c [] s s) ∧
  (∀ c s, accepts opSysInfo c s = true →
    exec (.sysInfo c) s = ends opSysInfo c
      (le 2 0x4028 ++ [byte Config.siliconRev.toNat, byte (lifeCode s.boot.lifecycle)] ++ le 8 Config.packageSerial.toNat ++
        [byte s.flash.system, byte s.flash.package,
         byte (if s.twin.state = .alone then 0 else if twinProtected s then 1 else 2), 0]) s s) ∧
  (∀ c s, accepts opSysEpochRead c s = true →
    exec (.sysEpochRead c) s = ends opSysEpochRead c
      (le 4 (curEpoch s) ++ le 4 (oldestEpoch s) ++ [byte s.cfg.live.length, byte (b2n s.cfg.stage.isSome)] ++
        le 4 ((s.cfg.stage.map fun g => g.epoch).getD 0)) s s) ∧
  (∀ c s, accepts opSysPathQuery c s = true → isSpare c.place = true →
    exec (.sysPathQuery c) s = ends opSysPathQuery c
      (byte (pathStatus s c.place) :: le 4 (ledger s c.place).standsFor.toNat ++
        [byte (spareCode (ledger s c.place).state)] ++ le 4 (ledger s c.place).since) s s) ∧
  (∀ c s, accepts opSysPathQuery c s = true → isSpare c.place = false →
    exec (.sysPathQuery c) s = ends opSysPathQuery c [byte (pathStatus s c.place), 0, 0, 0, 0, 0xFF, 0, 0, 0, 0] s s) ∧
  (∀ c s, accepts opSysDrain c s = true → c.prm 0 1 = 1 → c.prm 1 1 ≤ 1 → (bit (c.prm 1 1) 0 = true ∨ twinProtected s = true) →
    exec (.sysDrain c) s = starts opSysDrain c c.place s (drainPath s c.place)) ∧
  (∀ c s, accepts opSysDrain c s = true → c.prm 0 1 = 0 → c.prm 1 1 ≤ 1 →
    exec (.sysDrain c) s = .next (finishKey 0x0005 (c.place + 2 ^ 27) (repOk []) (owing opSysDrain c (c.place + 2 ^ 27) s
      (raise 0x0002 g0Place [(pathOf s c.place).toNat, 0] (undrainPath s c.place))))) ∧
  (∀ c s, accepts opSysReset c s = true → levelOf c.place = .die → pDie c.place ≠ 0 → c.prm 0 1 = 1 → c.prm 1 1 ≤ 1 →
    (bit (c.prm 1 1) 0 = true ∨ twinProtected s = true) → s.power.dieRestart = none →
    exec (.sysReset c) s = .next (startDieRestart (pDie c.place) (bit (c.prm 1 1) 0) (owing opSysReset c (pDie c.place) s s))) ∧
  (∀ c s, accepts opSysReset c s = true → (c.prm 0 1 = 2 ∨ c.prm 0 1 = 1 ∧ levelOf c.place ≠ .package ∧ pDie c.place = 0) → c.prm 1 1 ≤ 1 →
    (bit (c.prm 1 1) 0 = true ∨ twinProtected s = true) →
    exec (.sysReset c) s = ends opSysReset c [] s { s with power := { s.power with restartDue := some 3 } }) ∧
  (∀ c s, accepts opSysFwLoad c s = true → c.prm 0 1 ≤ 1 → c.prm 1 1 ≤ 1 → c.prm 20 4 + c.prm 16 4 ≤ 0x2000000 →
    s.boot.recovery = false → c.prm 0 1 ≠ s.boot.running →
    bufferRefusal s c.queue (c.prm 1 1) (c.prm 8 8) (c.prm 16 4) false = none →
    exec (.sysFwLoad c) s = starts opSysFwLoad c
      (bufKey (c.prm 0 1 + 2 * c.prm 20 4 + 2 ^ 33 * c.prm 16 4) (c.prm 1 1) (c.prm 8 8)) s s) ∧
  (∀ c s, accepts opSysFwActivate c s = true → c.prm 0 1 ≤ 1 → c.prm 1 1 = 0 → (fwImage s (c.prm 0 1)).verified = true →
    s.boot.recovery = false →
    exec (.sysFwActivate c) s =
      .next (finishKey 0x0008 (c.prm 0 1) (repOk []) (owing opSysFwActivate c (c.prm 0 1) s (selectImage (c.prm 0 1) s))))

/-- The CFG commands (R454-R456, R464-R473) where nothing refuses them. A read of view 0 reads the registers as a bus access does,
clear-on-read counters included; the other views change nothing. -/
def Obligations.CfgCommandsStage : Prop :=
  (∀ c s t, accepts opCfgStage c s = true → s.cfg.stage = none → freeTagOf s = some t →
    exec (.cfgStage c) s = ends opCfgStage c (le 4 (nextEpoch (curEpoch s)) ++ [byte t]) s
      { s with cfg := { s.cfg with stage := some { owner := c.queue, epoch := nextEpoch (curEpoch s), tag := t,
                                                   layers := s.cfg.layers, frozen := false, last := s.time.up } } }) ∧
  (∀ c s, accepts opCfgDiscard c s = true → stageRefusal s c = none →
    exec (.cfgDiscard c) s = ends opCfgDiscard c [] s (discardStage 1 s)) ∧
  (∀ c s, accepts opCfgFix c s = true → stageRefusal s c = none → fixUnlinked s = false →
    exec (.cfgFix c) s = .next (startFix c (owing opCfgFix c 0 s s))) ∧
  (∀ c s g l, accepts opCfgWrite c s = true → c.staged = true → stageRefusal s c = none → s.cfg.stage = some g →
    c.prm 6 1 ≤ 64 → 4 ≤ c.prm 8 2 → c.prm 8 2 ≤ 996 → c.prm 8 2 % 4 = 0 →
    ¬(bit (c.prm 0 6) 47 = true ∧ c.prm 6 1 = 0) → c.prm 0 6 % 2 ^ 47 % 4 = 0 →
    (∀ k < c.prm 8 2 / 4, rwMask (c.prm 0 6 % 2 ^ 47 + 4 * k) ≠ 0) →
    l = writeWords (c.prm 6 1) (bit (c.prm 0 6) 47) (c.prm 8 2 / 4) (c.prm 0 6 % 2 ^ 47) (c.prmBytes 12 (c.prm 8 2)) g.layers →
    slotRecords l (c.prm 6 1) ≤ 2048 →
    exec (.cfgWrite c) s = ends opCfgWrite c [] s (touchStage { s with cfg := { s.cfg with stage := some { g with layers := l } } })) ∧
  (∀ c s g o, accepts opCfgOverlay c s = true → c.staged = true → stageRefusal s c = none → s.cfg.stage = some g →
    c.prm 0 1 ≤ 63 → c.prm 1 1 ≤ 3 → (c.prm 1 1 = 1 → c.prm 2 1 ≤ 15) → o = tgetD g.layers.slots (c.prm 0 1) {} →
    (c.prm 1 1 = 2 → o.active = true ∨ (g.layers.slots.filter fun e => e.2.active).length < 4) →
    exec (.cfgOverlay c) s = ends opCfgOverlay c [] s (touchStage { s with cfg := { s.cfg with stage := some { g with layers := { g.layers with
      slots := tput g.layers.slots (c.prm 0 1) (if c.prm 1 1 = 0 then {} else if c.prm 1 1 = 1 then { o with prio := c.prm 2 1 }
        else { o with active := decide (c.prm 1 1 = 2) }) } } } })) ∧
  (∀ c s l, accepts opCfgRead c s = true → c.prm 6 1 ≤ 3 → (2 ≤ c.prm 6 1 → c.prm 7 1 ≤ 64) → (c.prm 8 1 = 4 ∨ c.prm 8 1 = 8 ∨ c.prm 8 1 = 16) →
    c.prm 0 6 % 2 ^ 47 % 4 = 0 → l = ((List.range (c.prm 8 1 / 4)).map fun k => c.prm 0 6 % 2 ^ 47 + 4 * k) →
    (∀ a ∈ l, inConfig a = true) → (bit (c.prm 0 6) 47 = true → 2 ≤ c.prm 6 1 ∧ c.prm 7 1 ≠ 0) →
    (c.prm 6 1 ≠ 0 → ∀ a ∈ l, rwMask a ≠ 0) →
    (c.prm 6 1 = 0 → exec (.cfgRead c) s =
      ends opCfgRead c (l.flatMap fun a => le 4 (areaReg s a)) s (l.foldl (fun s a => areaRead a s) s)) ∧
    (∀ g, c.prm 6 1 = 1 → s.cfg.stage = some g → exec (.cfgRead c) s =
      ends opCfgRead c (l.flatMap fun a => le 4 (bankWord (effective g.layers) a)) s s) ∧
    (c.prm 6 1 = 2 → exec (.cfgRead c) s =
      ends opCfgRead c (l.flatMap fun a => le 4 (layerWord s.cfg.layers (c.prm 7 1) (bit (c.prm 0 6) 47) a)) s s) ∧
    (c.prm 6 1 = 3 → exec (.cfgRead c) s =
      ends opCfgRead c (l.flatMap fun a => le 4 (layerWord ((s.cfg.stage.map fun g => g.layers).getD s.cfg.layers)
        (c.prm 7 1) (bit (c.prm 0 6) 47) a)) s s))

/-- The exchange of R473 and R474 between coordinator and twin, the stage timeout (R471), the hold of an epoch (R479) and the end of a
reseed (R139), each in the state that the message is meant for. -/
def Obligations.EpochMessagesAct : Prop :=
  (∀ e s t g, t = restage s → t.cfg.stage = some g → g.epoch = e → fixRefusal (effective g.layers) e t = none →
    exec (.prepareReceived e) s = .next (sendTwin (.prepared e) (toFlash 1 e [] (freezeStage true { t with cfg := { t.cfg with
      prepared := some ({ num := e, tag := g.tag, words := effective g.layers, stopped := none }, g.layers) } })))) ∧
  (∀ e s f, s.cfg.fix = some f → f.epoch = e → f.committed = false →
    exec (.preparedReceived e) s = .next (commitFix false false s)) ∧
  (∀ e noTag a s f, s.cfg.fix = some f → f.epoch = e → f.committed = false →
    exec (.refusedReceived e noTag a) s = .next (refuseFix 2
      (if noTag then busy dEpochsLive else { aborted dTwinRefused with result := le 6 a }) a s)) ∧
  (∀ e s p l, s.cfg.prepared = some (p, l) → p.num = e →
    exec (.commitReceived e) s = .next (sendTwin (.committed e)
      (raise 0x0401 g0Place [e, p.tag, 0] (countCfg 0 1 (makeCurrent e p.tag l s))))) ∧
  (∀ e s f, s.cfg.fix = some f → f.epoch = e → f.committed = true →
    exec (.committedReceived e) s = .next (endFix e false s)) ∧
  (∀ e s p l, s.cfg.prepared = some (p, l) → p.num = e →
    exec (.abortReceived e) s = .next (dropPrepared s) ∧ (dropPrepared s).cfg.prepared = none) ∧
  (∀ s f, s.cfg.fix = some f → f.ready = false → f.committed = false → fixesPaired s = true →
    exec .prepareReplyTimeout s = .next (refuseFix 0 (rep stTimeout dTwin) 0 (sendTwin (.abort f.epoch) s))) ∧
  (∀ s g, s.cfg.stage = some g → g.frozen = false → exec .stageTimeout s = .next (discardBoth 2 s)) ∧
  (∀ e s x, s.cfg.live.getLast? = some x → x.num = e → e ≠ curEpoch s →
    exec (.epochHoldExpiry e) s = .next (retireIdle 4 (retire1 true x s))) ∧
  (∀ t s r, t < 16 → tget s.tbl.reseed t = some r → exec (.tblReseedDone t) s = .next (resumeFix (endReseed t r s)))

/-- The entry commands (R138-R144, R457, R458) where the table is enabled and not reseeding, and the entry finds its place. The epoch is the
stage's for a staged command, else the current one. -/
def Obligations.TableEntryCommandsAct : Prop :=
  (∀ c s seed u es e, accepts opTblInsert c s = true → c.prm 2 2 ≤ 4095 → entryRefusal c s = none →
    (∀ y ∈ s.tbl.entries, ¬(sameKey (newEntry c s).table (newEntry c s).key y = true ∧ visibleFrom y.born y.died (opEpoch c s) = true)) →
    seedOf (newEntry c s).table (opState c s) = (seed, u) → placeEntry (opWords c s) seed u.tbl.entries (newEntry c s) = some (es, e) →
    changeRoom es = true →
    exec (.tblInsert c) s = ends opTblInsert c (placeResult e) s
      (loadEvents (opWords c s) (newEntry c s).table (stashUsed u.tbl.entries (newEntry c s).table).length
        (putEntries (opWords c s) (newEntry c s).table es u))) ∧
  (∀ c s e, accepts opTblDelete c s = true → entryRefusal c s = none →
    lookupEntry s (c.prm 0 1) (entryKey c s 4) (opEpoch c s) = some e →
    changeRoom (markDied e (opEpoch c s) s.tbl.entries) = true →
    exec (.tblDelete c) s = ends opTblDelete c [] s
      { opState c s with tbl := { s.tbl with entries := markDied e (opEpoch c s) s.tbl.entries } }) ∧
  (∀ c s o seed u es e q, accepts opTblModify c s = true → c.prm 2 2 ≤ 4095 → entryRefusal c s = none →
    lookupEntry s (newEntry c s).table (newEntry c s).key (opEpoch c s) = some o →
    seedOf (newEntry c s).table (opState c s) = (seed, u) → placeEntry (opWords c s) seed u.tbl.entries (newEntry c s) = some (es, e) →
    q = ((es.find? fun y => y.table == (newEntry c s).table && y.key == o.key && y.born == o.born && y.died == o.died).getD o) →
    changeRoom (markDied q (opEpoch c s) es) = true →
    exec (.tblModify c) s = ends opTblModify c (placeResult e) s
      (loadEvents (opWords c s) (newEntry c s).table (stashUsed u.tbl.entries (newEntry c s).table).length
        (putEntries (opWords c s) (newEntry c s).table (markDied q (opEpoch c s) es) u))) ∧
  (∀ c s e, accepts opTblLookup c s = true → c.prm 1 1 ≤ 1 → c.prm 2 1 ≤ 2 → entryRefusal c s = none →
    lookupEntry s (c.prm 0 1) (entryKey c s 4) (opEpoch c s) = some e →
    exec (.tblLookup c) s = ends opTblLookup c
      (le 2 e.program ++ [byte (1 + 2 * b2n e.stash + 4 * b2n e.born.isSome + 8 * b2n e.died.isSome + 16 * b2n e.hit), 0] ++
        slice e.data (12 * c.prm 2 1) 12) s (if bit (c.prm 1 1) 0 = true then hitBit e false (opState c s) else opState c s)) ∧
  (∀ c s, accepts opTblLookup c s = true → c.prm 1 1 ≤ 1 → c.prm 2 1 ≤ 2 → entryRefusal c s = none →
    lookupEntry s (c.prm 0 1) (entryKey c s 4) (opEpoch c s) = none →
    exec (.tblLookup c) s = ends opTblLookup c [] s (opState c s))

/-- The versioned stores and the counters and meters (R158-R170, R177, R181, R195, R459) where nothing refuses them. -/
def Obligations.TableStoreCommandsAct : Prop :=
  (∀ c s l, accepts opTblProgramSet c s = true → c.prm 0 2 ≤ 4095 → 1 ≤ c.prm 2 1 → c.prm 2 1 ≤ 16 →
    (∀ w ∈ words64 (c.params.drop 8) (c.prm 2 1), primitiveOk w.toNat = true) → opRefusal c s = none →
    setVersion s (opEpoch c s) (words64 (c.params.drop 8) (c.prm 2 1)) (tgetD s.tbl.programs (c.prm 0 2) []) = some l →
    exec (.tblProgramSet c) s = ends opTblProgramSet c [] s
      { opState c s with tbl := { s.tbl with programs := tput s.tbl.programs (c.prm 0 2) l } }) ∧
  (∀ c s l, accepts opTblTemplateSet c s = true → c.prm 0 2 ≤ 4095 → templateOk (c.prmBytes 8 80) = true → opRefusal c s = none →
    setVersion s (opEpoch c s) (c.prmBytes 8 80) (tgetD s.tbl.templates (c.prm 0 2) []) = some l →
    exec (.tblTemplateSet c) s = ends opTblTemplateSet c [] s
      { opState c s with tbl := { s.tbl with templates := tput s.tbl.templates (c.prm 0 2) l } }) ∧
  (∀ c s l ms g, accepts opTblGroupSet c s = true → c.prm 7 1 ≤ 1 → ms = words64 (c.params.drop 8) (c.prm 6 1) → 1 ≤ c.prm 6 1 →
    c.prm 6 1 ≤ 120 → c.prm 2 2 ≤ 1024 → c.prm 4 2 + c.prm 6 1 ≤ c.prm 2 2 →
    (c.staged = false → c.prm 4 2 = 0 ∧ c.prm 6 1 = c.prm 2 2) → (∀ m ∈ ms, memberOk m.toNat = true) → opRefusal c s = none →
    (c.staged = true → ∀ v ∈ tgetD s.tbl.groups (c.prm 0 2) [], v.born ≠ some (opEpoch c s)) →
    g = { total := c.prm 2 2, srcPrune := bit (c.prm 7 1) 0, members := putMembers (c.prm 4 2) ms [] } →
    setVersion s (opEpoch c s) g (tgetD s.tbl.groups (c.prm 0 2) []) = some l →
    exec (.tblGroupSet c) s = ends opTblGroupSet c [] s
      { opState c s with tbl := { s.tbl with groups := tput s.tbl.groups (c.prm 0 2) l } }) ∧
  (∀ c s l ms v, accepts opTblGroupSet c s = true → c.staged = true → c.prm 7 1 ≤ 1 → ms = words64 (c.params.drop 8) (c.prm 6 1) →
    1 ≤ c.prm 6 1 → c.prm 6 1 ≤ 120 → c.prm 2 2 ≤ 1024 → c.prm 4 2 + c.prm 6 1 ≤ c.prm 2 2 →
    (∀ m ∈ ms, memberOk m.toNat = true) → opRefusal c s = none → l = tgetD s.tbl.groups (c.prm 0 2) [] →
    l.find? (fun v => v.born == some (opEpoch c s)) = some v → v.val.total = c.prm 2 2 → v.val.srcPrune = bit (c.prm 7 1) 0 →
    exec (.tblGroupSet c) s = ends opTblGroupSet c [] s
      { opState c s with tbl := { s.tbl with groups := tput s.tbl.groups (c.prm 0 2) (l.map fun y =>
          if y.born = v.born then { y with val := { v.val with members := putMembers (c.prm 4 2) ms v.val.members } } else y) } }) ∧
  (∀ c s l ms, accepts opTblLagSet c s = true → ms = lagMembers c.params (c.prm 2 1) → c.prm 0 2 ≤ 511 → c.prm 2 1 ≤ 16 →
    (∀ k < c.prm 2 1, c.prm (7 + 4 * k) 1 = 0) → (∀ m ∈ ms, m.1 ≤ 1023 ∧ m.2 ≤ 1) → opRefusal c s = none →
    setVersion s (opEpoch c s) { members := ms, table := refill (activeMembers s ms) [] } (tgetD s.tbl.lags (c.prm 0 2) []) = some l →
    exec (.tblLagSet c) s = ends opTblLagSet c [] s
      { opState c s with tbl := { s.tbl with lags := tput s.tbl.lags (c.prm 0 2) l } }) ∧
  (∀ c s p b, accepts opTblCounterRead c s = true → c.prm 2 1 ≤ 1 →
    tgetD s.tbl.counters (65536 * regionNo c.place + c.prm 0 2) (0, 0) = (p, b) →
    exec (.tblCounterRead c) s = ends opTblCounterRead c (le 8 p ++ le 8 b) s
      (if c.prm 2 1 = 1 then { s with tbl := { s.tbl with
        counters := tput s.tbl.counters (65536 * regionNo c.place + c.prm 0 2) (0, 0) } } else s)) ∧
  (∀ c s, accepts opTblMeterSet c s = true → c.prm 0 2 ≤ 32767 → fld (c.prm 4 32) 2 20 ≤ 781250 → fld (c.prm 4 32) 22 20 ≤ 781250 →
    fld (c.prm 4 32) 90 166 = 0 →
    exec (.tblMeterSet c) s = ends opTblMeterSet c [] s
      { s with tbl := { s.tbl with meters := tput s.tbl.meters (32768 * regionNo c.place + c.prm 0 2) (c.prm 4 32) } })

/-- The key-installing CRY commands (R205-R208, R217, R220, R224, R605): the command's slots are wiped first, whatever follows, and then
what `importKey` finds in the key field decides. A `KeyField` names the field as the command's format gives it: wrapped or clear, its size,
the KEK's slot, its place. -/
def Obligations.KeyCommandsAct : Prop :=
  (∀ c s u, acceptsKey opCryKekLoad c s = true → fld (c.prm 1 1) 1 7 = 0 → 1 ≤ c.prm 0 1 → c.prm 0 1 ≤ 63 → u = wipe c s →
    exec (.cryKekLoad c) s = match importKey c { wrapped := true, size := if bit (c.prm 1 1) 0 then 32 else 16, slot := 0, off := 8 } u with
      | (.inr key, t) => ends opCryKekLoad c [] u { t with cry := { t.cry with keks := tput t.cry.keks (c.prm 0 1) { key := key } } }
      | (.inl r, t) => .next (replied opCryKekLoad c r u t)) ∧
  (∀ c s u, acceptsKey opCryCakSet c s = true → fld (c.prm 4 1) 2 6 = 0 → portRangeOk c = true → 1 ≤ c.prm 6 1 → c.prm 6 1 ≤ 32 →
    (bit (c.prm 4 1) 1 = true → c.prm 5 1 ≤ 63) → u = wipe c s →
    exec (.cryCakSet c) s = match importKey c { wrapped := bit (c.prm 4 1) 1, size := if bit (c.prm 4 1) 0 then 32 else 16
                                                slot := c.prm 5 1, off := 40 } u with
      | (.inr key, t) => ends opCryCakSet c [] u ((span (c.prm 0 2) (c.prm 2 2)).foldl
          (fun s p => putCak p (some (key, c.prmBytes 8 (c.prm 6 1))) s) t)
      | (.inl r, t) => .next (replied opCryCakSet c r u t)) ∧
  (∀ c s, accepts opCryCakClear c s = true → portRangeOk c = true →
    exec (.cryCakClear c) s = ends opCryCakClear c [] s ((span (c.prm 0 2) (c.prm 2 2)).foldl (fun s p => putCak p none s) s)) ∧
  (∀ c s u, acceptsKey (opCrySaInstall s) c s = true → fld (c.prm 5 1) 5 3 = 0 → saRange c = false → u = wipe c s →
    thas u.cry.sas (c.prm 0 4) = false → ddr5Up u = true → lineLost u (recordAddr (c.prm 0 4)) = false →
    exec (.crySaInstall c) s = match importKey c { wrapped := bit (c.prm 5 1) 4, size := if bit (c.prm 5 1) 3 then 32 else 16
                                                   slot := c.prm 6 1, off := 36 } u with
      | (.inr key, t) => ends (opCrySaInstall s) c [] u { t with cry := { t.cry with
          sas := tput t.cry.sas (c.prm 0 4) (newSa c (wrapKey t.cry.tableKey key))
          mirror := tdel t.cry.mirror (c.prm 0 4), holder := tdel t.cry.holder (c.prm 0 4) } }
      | (.inl r, t) => .next (replied (opCrySaInstall s) c r u t)) ∧
  (∀ c s u, acceptsKey opCryTlsInstall c s = true → fld (c.prm 2 1) 2 6 = 0 → c.prm 1 1 ≤ 1 →
    (bit (c.prm 2 1) 1 = true → c.prm 3 1 ≤ 63) → tlsRefusal c = none → u = wipe c s →
    ddr5Up u = true → lineLost u (recordAddr (2 ^ 21 + tlsSession (c.prm 0 1) (c.prm 4 4))) = false →
    exec (.cryTlsInstall c) s = match importKey c { wrapped := bit (c.prm 2 1) 1, size := if bit (c.prm 2 1) 0 then 32 else 16
                                                    slot := c.prm 3 1, off := 32 } u with
      | (.inr key, t) => ends opCryTlsInstall c [] u
          (putHalf (c.prm 0 1) (c.prm 4 4) (c.prm 1 1) (newHalf c (wrapKey t.cry.tableKey key)) t)
      | (.inl r, t) => .next (replied opCryTlsInstall c r u t))

/-- The other CRY commands (R208, R216, R217, R224-R229) where nothing refuses them. The three reads leave the state as it was. -/
def Obligations.CryReadsAndRemovals : Prop :=
  (∀ c s, accepts opCryMkaRead c s = true → c.prm 0 2 < 1024 →
    exec (.cryMkaRead c) s = ends opCryMkaRead c
      ([byte (mkaOf s (c.prm 0 2)).suite, byte (b2n (mkaOf s (c.prm 0 2)).keyServer), byte (mkaOf s (c.prm 0 2)).peers.length,
        byte (mkaOf s (c.prm 0 2)).txAn] ++ le 8 (tgetD (mkaOf s (c.prm 0 2)).tx (mkaOf s (c.prm 0 2)).txAn { pn := 0 }).pn) s s) ∧
  (∀ c s, accepts opCryMkaRekey c s = true → c.prm 0 2 < 1024 → runsMka s (c.prm 0 2) = true →
    exec (.cryMkaRekey c) s = ends opCryMkaRekey c [] s
      (if (mkaOf s (c.prm 0 2)).keyServer then distributeSak (c.prm 0 2) s else mkaSend (c.prm 0 2) s)) ∧
  (∀ c s, accepts (opCrySaRemove s) c s = true → c.prm 0 4 < 2 ^ 20 → thas s.cry.sas (c.prm 0 4) = true →
    exec (.crySaRemove c) s = ends (opCrySaRemove s) c [] s { s with cry := { s.cry with
      sas := tdel s.cry.sas (c.prm 0 4), mirror := tdel s.cry.mirror (c.prm 0 4), holder := tdel s.cry.holder (c.prm 0 4) } }) ∧
  (∀ c s a, accepts opCrySaRead c s = true → c.prm 0 4 < 2 ^ 20 → tget s.cry.sas (c.prm 0 4) = some a →
    exec (.crySaRead c) s = ends opCrySaRead c
      ([byte (if a.keyFault then 3 else if a.exhausted then 2 else 1)] ++ le 8 a.seq ++ List.replicate 7 0) s s) ∧
  (∀ c s, accepts opCrySaRead c s = true → c.prm 0 4 < 2 ^ 20 → tget s.cry.sas (c.prm 0 4) = none →
    exec (.crySaRead c) s = ends opCrySaRead c (List.replicate 16 0) s s) ∧
  (∀ c s h, accepts opCryTlsResync c s = true → c.prm 1 1 = 1 → tlsRefusal c = none →
    tget s.cry.tls (tlsKey (c.prm 0 1) (c.prm 4 4) 1) = some h →
    exec (.cryTlsResync c) s = ends opCryTlsResync c [] s (putHalf (c.prm 0 1) (c.prm 4 4) 1 { h with
      nextTcp := c.prm 8 4, recSeq := c.prm 12 8, st := if h.st = 4 then 4 else 1, left := 0, recLen := 0, hdr := [], acc := [] } s)) ∧
  (∀ c s, accepts opCryTlsRemove c s = true → tlsRefusal c = none →
    (thas s.cry.tls (tlsKey (c.prm 0 1) (c.prm 4 4) 0) = true ∨ thas s.cry.tls (tlsKey (c.prm 0 1) (c.prm 4 4) 1) = true) →
    exec (.cryTlsRemove c) s = ends opCryTlsRemove c [] s { s with cry := { s.cry with
      tls := tdel (tdel s.cry.tls (tlsKey (c.prm 0 1) (c.prm 4 4) 0)) (tlsKey (c.prm 0 1) (c.prm 4 4) 1)
      holder := tdel s.cry.holder (2 ^ 21 + tlsSession (c.prm 0 1) (c.prm 4 4)) } }) ∧
  (∀ c s h, accepts opCryTlsRead c s = true → c.prm 1 1 ≤ 1 → tlsRefusal c = none →
    tget s.cry.tls (tlsKey (c.prm 0 1) (c.prm 4 4) (c.prm 1 1)) = some h →
    exec (.cryTlsRead c) s = ends opCryTlsRead c ([byte h.st] ++ le 4 h.nextTcp ++ le 8 h.recSeq ++ List.replicate 3 0) s s)

/-- The FLOW commands (R267, R263) where nothing refuses them: keys without reserved bits, an engine that serves, an entry present or absent
as the command needs. -/
def Obligations.FlowCommandsAct : Prop :=
  (∀ c s f t v u i, accepts opFlowInsert c s = true → insertedFlow c s = (f, t) → fld (c.prm 41 1) 3 5 = 0 → keyReserved c = false →
    1 ≤ c.prm 40 1 → c.prm 40 1 ≤ 8 → c.prm 42 1 ≤ 15 → bit (c.prm 41 1) 2 = false → engineRefusal s f.key = none →
    flowFind s f.key = none → flowInsert f s = some (v, i) →
    u = (if tells c = true then (pairOf v i).foldl (fun s j => match flowAt s j with | some e => flowDelta 0 e s | none => s) v else v) →
    exec (.flowInsert c) s = ends opFlowInsert c (le 4 i ++ le 4 (((flowAt v i).map fun e => e.peer).getD 0xFFFFFFFF)) s u) ∧
  (∀ c s f t v u i, accepts opFlowInsert c s = true → insertedFlow c s = (f, t) → fld (c.prm 41 1) 3 5 = 0 → keyReserved c = false →
    1 ≤ c.prm 40 1 → c.prm 40 1 ≤ 8 → c.prm 42 1 ≤ 15 → bit (c.prm 41 1) 2 = true → t.v6 = false → (t.proto = 6 ∨ t.proto = 17) →
    engineRefusal s f.key = none → flowFind s f.key = none →
    flowFind s (replyKey (ofBe (c.prmBytes 52 4)) (c.prm 68 2) t) = none →
    insertPair f t (ofBe (c.prmBytes 52 4)) (c.prm 68 2) s = some (v, i) →
    u = (if tells c = true then (pairOf v i).foldl (fun s j => match flowAt s j with | some e => flowDelta 0 e s | none => s) v else v) →
    exec (.flowInsert c) s = ends opFlowInsert c (le 4 i ++ le 4 (((flowAt v i).map fun e => e.peer).getD 0xFFFFFFFF)) s u) ∧
  (∀ c s f u, accepts opFlowDelete c s = true → keyReserved c = false → engineRefusal s (c.prmBytes 0 40) = none →
    u = readFlow (c.prmBytes 0 40) s → flowFind u (c.prmBytes 0 40) = some f →
    exec (.flowDelete c) s = ends opFlowDelete c [] s (removeFlow 2 (tells c) f.index u)) ∧
  (∀ c s f u, accepts opFlowRead c s = true → c.prm 40 1 ≤ 2 → keyReserved c = false → engineRefusal s (c.prmBytes 0 40) = none →
    u = readFlow (c.prmBytes 0 40) s → flowFind u (c.prmBytes 0 40) = some f →
    exec (.flowRead c) s = ends opFlowRead c
      (if c.prm 40 1 = 0 then [byte f.st, byte (rd (flowRecord f false) 40 1)] ++ le 2 f.mark ++ le 4 f.lastSeen ++
          le 8 (f.pktsAB + f.twin.1 + f.pktsBA + f.twin.2.2.1)
        else if c.prm 40 1 = 1 then le 8 (f.pktsAB + f.twin.1) ++ le 8 (f.bytesAB + f.twin.2.1)
        else le 8 (f.pktsBA + f.twin.2.2.1) ++ le 8 (f.bytesBA + f.twin.2.2.2)) s u) ∧
  (∀ c s f u g, accepts opFlowModify c s = true → fld (c.prm 40 1) 3 5 = 0 → (bit (c.prm 40 1) 0 = true → c.prm 41 1 ≤ 1) →
    keyReserved c = false → engineRefusal s (c.prmBytes 0 40) = none → u = readFlow (c.prmBytes 0 40) s →
    flowFind u (c.prmBytes 0 40) = some f →
    g = { f with
      drop := if bit (c.prm 40 1) 0 then c.prm 41 1 == 1 else f.drop, mark := if bit (c.prm 40 1) 1 then c.prm 42 2 else f.mark
      timeout := if bit (c.prm 40 1) 2 then c.prm 44 4 else f.timeout } →
    exec (.flowModify c) s = ends opFlowModify c [] s (if tells c = true then flowDelta 2 g (flowPut g u) else flowPut g u)) ∧
  (∀ c s, accepts opFlowFlush c s = true → fld (c.prm 2 1) 2 6 = 0 → (bit (c.prm 2 1) 1 = true → c.prm 3 1 ≤ 15) → s.flow.flush = none →
    exec (.flowFlush c) s = starts opFlowFlush c 0 s
      { s with flow := { s.flow with flush := some (c.prm 0 2, c.prm 2 1, c.prm 3 1) } })

/-- The flow store's own events (R246-R249, R258, R262-R264, R266, R267), each where it has something to do. -/
def Obligations.FlowEventsAct : Prop :=
  (∀ g s x q t u, g < 16 → nextMiss s g = some x → q = tgetD s.flow.miss g [] →
    t = { s with flow := { s.flow with miss := tput s.flow.miss g (q.filter fun y => y.key != x.key) } } →
    u = (match flowFind t x.key with
      | some f => if (holderOf t f.index).isNone then countReads (flowAddr f.index) 128 t else t
      | none => t) →
    exec (.flowMissService g none) s = .next (retireIdle 4 ((q.filter fun y => y.key == x.key).foldl (fun s y => serveParked g y s)
      (if engineUp u x.key = true then readFlow x.key u else u)))) ∧
  (∀ g s x q t u f restored, g < 16 → nextMiss s g = some x → q = tgetD s.flow.miss g [] →
    t = { s with flow := { s.flow with miss := tput s.flow.miss g (q.filter fun y => y.key != x.key) } } →
    flowFind t x.key = some f → holderOf t f.index = none → u = countReads (flowAddr f.index) 128 t →
    exec (.flowMissService g (some restored)) s = .next (retireIdle 4 ((q.filter fun y => y.key == x.key).foldl (fun s y => serveParked g y s)
      (flowEcc restored f (memUe (flowAddr f.index)
        ((drawFree u).1 % max 1 (memCh (drawFree u).2 (channelAt (drawFree u).2 (flowAddr f.index))).dimms) (drawFree u).2))))) ∧
  (∀ e s l, e < 3 → ddr5Up s = true → outOfService s (lookupPlace e) = false →
    l = ((s.flow.entries.filter fun f => flowEngine s (ownerKey s f) == e).map fun f => f.index) →
    exec (.flowIdleSweep e) s = .next (l.foldl (fun s i => sweepVisit i s)
      { s with flow := { s.flow with entries := s.flow.entries.map fun f => if l.contains f.index then payOwed f else f } })) ∧
  (∀ g s, g < 16 → exec (.flowWriteBack g) s = .next ((tgetD s.flow.cache g []).foldl (fun s i => writeFlow i s) s)) ∧
  (∀ k b s t x, twinSettled s = true → t = readFlow (recordFlow b).key s → k ≠ 1 → flowFind t (recordFlow b).key = some x →
    exec (.flowDeltaMerge k b) s = .next (mergeFlow k (recordFlow b) x t)) ∧
  (∀ b s t x, twinSettled s = true → t = readFlow (recordFlow b).key s → flowFind t (recordFlow b).key = some x →
    exec (.flowDeltaMerge 1 b) s = .next (removeFlow 2 false x.index t)) ∧
  (∀ k b s u i, twinSettled s = true → k ≠ 1 → flowFind s (recordFlow b).key = none → flowInsert (recordFlow b) s = some (u, i) →
    exec (.flowDeltaMerge k b) s = .next (if (recordFlow b).peer = 0xFFFFFFFF then u else linkPair (recordFlow b) u)) ∧
  (∀ ms s, 10 < ms → exec (.flowTwinLag ms) s =
    .next (raise 0x1404 (lookupPlace 0) [ms] { s with flow := { s.flow with lag := ms } })) ∧
  (∀ s l, twinSettled s = true → s.flow.resync = true → l = s.flow.entries.filter (fun f => f.own) →
    exec .flowTwinResyncDone s = .next (joinDone (raise 0x1405 (lookupPlace 0) [l.length]
      (flowMod (fun f => { f with resync := false, resent := l.length })
        (emitAll (l.map fun f => .twin (.flowDelta (byte 0 :: flowRecord f true))) s))))) ∧
  (∀ s zone m prof t, s.flow.flush = some (zone, m, prof) →
    t = ((s.flow.entries.filter fun f => flushes zone m prof f).map fun f => f.index).foldl (fun s i => removeFlow 3 true i s)
      { s with flow := { s.flow with flush := none } } →
    exec .flowFlushComplete s = .next (finishKey 0x1405 0 (repOk (le 4 (s.flow.entries.length - t.flow.entries.length))) t))

/-- The PORT commands (R460, R461) where nothing refuses them. Without a partner the age byte is a free value. -/
def Obligations.PortCommandsAct : Prop :=
  (∀ c s l, accepts opPortRead c s = true → c.prm 0 2 % 4 = 0 → (c.prm 2 1 = 4 ∨ c.prm 2 1 = 8 ∨ c.prm 2 1 = 16) →
    c.prm 0 2 + c.prm 2 1 ≤ 4096 → regionUp s (pDie c.place) (pRegion c.place) = true →
    l = ((List.range (c.prm 2 1 / 4)).map fun k => portAddr (macPort c.place) (c.prm 0 2 + 4 * k)) →
    exec (.portRead c) s = ends opPortRead c (l.flatMap fun a => le 4 (areaReg s a)) s (l.foldl (fun s a => areaRead a s) s)) ∧
  (∀ c s, accepts opPortRestart c s = true →
    exec (.portRestart c) s = ends opPortRestart c [] s ((portsNamed c.place).foldl (fun s p => portRestart p s) s)) ∧
  (∀ c s, accepts opPortSnapshot c s = true → 1 ≤ c.prm 2 2 → c.prm 0 2 + c.prm 2 2 ≤ 1024 → c.prm 4 1 ≤ 2 → c.prm 8 8 % 64 = 0 →
    c.prm 5 1 ≤ 1 → bufferRefusal s c.queue (c.prm 5 1) (c.prm 8 8) (c.prm 2 2 * setBytes (c.prm 4 1)) true = none →
    exec (.portSnapshot c) s = starts opPortSnapshot c
      (bufKey (c.prm 0 2 + 2 ^ 10 * c.prm 2 2 + 2 ^ 21 * c.prm 4 1) (c.prm 5 1) (c.prm 8 8)) s s) ∧
  (∀ c s x t, accepts opPortPartnerRead c s = true → c.prm 0 1 ≤ 1 →
    bufferRefusal s c.queue (c.prm 0 1) (c.prm 8 8) (c.prm 16 2) true = none → (portGet s (macPort c.place)).partner = some x →
    x.raw.length ≤ c.prm 16 2 → bufferWrite c.queue (c.prm 0 1) (c.prm 8 8) x.raw s = some t →
    exec (.portPartnerRead c) s = ends opPortPartnerRead c
      (le 2 x.raw.length ++ [byte (sat 8 ((t.time.up - x.at_) / 1000000))]) s t) ∧
  (∀ c s, accepts opPortPartnerRead c s = true → c.prm 0 1 ≤ 1 →
    bufferRefusal s c.queue (c.prm 0 1) (c.prm 8 8) (c.prm 16 2) true = none → (portGet s (macPort c.place)).partner = none →
    exec (.portPartnerRead c) s = ends opPortPartnerRead c [0, 0, byte (drawFree s).1] s (drawFree s).2)

/-- What ends a command that owes its final reply (R436, R452, R461, R558, R613, R621, R659, R662), for the command owed at the queue and
tag. -/
def Obligations.OwedCommandsComplete : Prop :=
  (∀ p s, Target.dieOrRegion.takes p = true → (owedBy s 0x0005 p).isSome = true →
    exec (.sysDrained p) s = .next (finishKey 0x0005 p (repOk []) (raise 0x0002 g0Place [(pathOf s p).toNat, 1] s))) ∧
  (∀ q tag data oo ow dg s o, owedAt s 0x0007 q tag = some o →
    exec (.fwImageVerified q tag false data oo ow dg) s = .next (finish o (faultRep dHostAccess (hostElement s o.queue)) s)) ∧
  (∀ q tag data oo ow dg s o w d t x, owedAt s 0x0007 q tag = some o → w = keyWhat o.key →
    d = (if keySpace o.key = 1 then memRead s (keyAddr o.key) (min (w / 2 ^ 33 % 2 ^ 32) 512) else data) →
    t = (if keySpace o.key = 1 then countBulk (keyAddr o.key) (w / 2 ^ 33 % 2 ^ 32) s else s) →
    x = { fwImage t (w % 2) with
      written := (fwImage t (w % 2)).written ++ [(w / 2 % 2 ^ 32, w / 2 ^ 33 % 2 ^ 32)]
      header := if w / 2 % 2 ^ 32 < 512 then
          splice (fitTo 512 (fwImage t (w % 2)).header) (w / 2 % 2 ^ 32) (fitTo (min (w / 2 ^ 33 % 2 ^ 32) (512 - w / 2 % 2 ^ 32)) d)
        else fitTo 512 (fwImage t (w % 2)).header
      verified := false } →
    exec (.fwImageVerified q tag true data oo ow dg) s = .next
      (if max 512 (min 0x2000000 (rd x.header 8 4)) ≤ coverEnd x.written x.written.length 0 then
        finish o (judgeImage t x oo ow dg).1 (imageMod (w % 2) (fun _ => (judgeImage t x oo ow dg).2) t)
      else finish o (repOk []) (imageMod (w % 2) (fun _ => x) t))) ∧
  (∀ q tag ok s o, owedAt s 0x0C03 q tag = some o →
    exec (.portSnapshotComplete q tag ok) s = .next (finishBuffer o ok
      ((span (keyWhat o.key % 2 ^ 10) (keyWhat o.key / 2 ^ 10 % 2 ^ 11)).flatMap (counterBlock s (keyWhat o.key / 2 ^ 21)))
      (le 4 (keyWhat o.key / 2 ^ 10 % 2 ^ 11 * setBytes (keyWhat o.key / 2 ^ 21))) s)) ∧
  (∀ q tag ok s o, owedAt s 0x3002 q tag = some o →
    exec (.ageSheetReadComplete q tag ok) s = .next
      (if s.age.lost.contains (keyWhat o.key) then finish o (faultRep dEcc (pathOf s (mkPlace 0 1 29 3)).toNat) s
      else finishBuffer o ok (fitTo 16384 (tgetD s.age.ring (keyWhat o.key % 16384) [])) (le 4 16384) s)) ∧
  (∀ q tag ok s o b skipped m first t u, owedAt s 0x3C01 q tag = some o →
    first = max (keyWhat o.key % 2 ^ 64) (oldestRecord s) → recordsFrom s (keyWhat o.key / 2 ^ 64) first = (b, skipped, m) →
    t = { s with log := { s.log with lost := s.log.lost + skipped } } →
    u = (if ddr5Up t = true then (span first (m - first)).foldl (fun s n => countReads (logBase + 64 * (n % 65536)) 64 s) t else t) →
    exec (.logReadComplete q tag ok) s = .next (finishBuffer o ok b (le 8 m ++ le 8 u.log.lost) u)) ∧
  (∀ q tag ok s o b, owedAt s 0x3C03 q tag = some o → b = (tgetD s.log.traces (keyWhat o.key) {}).entries.flatMap traceBytes →
    exec (.logTraceReadComplete q tag ok) s = .next (finishBuffer o ok b (le 2 b.length) s)) ∧
  (∀ r s, s.boot.lifecycle ≠ .retired →
    exec (.bootMailboxWrite (some r) none) s = .next { s with boot := { s.boot with lcRequest := some r } }) ∧
  (∀ op c s, s.boot.lifecycle ≠ .retired → s.boot.recovery = true →
    exec (.bootMailboxWrite none (some (op, c))) s = .next { s with waiting := s.waiting ++ [(op, { c with queue := .jtag })] })

/-- The VF commands (R309-R323) where nothing refuses them. -/
def Obligations.VfCommandsAct : Prop :=
  (∀ c s f, accepts opVfQuery c s = true → refOk (c.prm 0 4) = true → f = refFn (c.prm 0 4) → halfExists s f.link f.half = true →
    f.num ≤ 128 → fnExists s f = true →
    exec (.vfQuery c) s = ends opVfQuery c ([byte (vfCode f (funcOf s f)),
      byte (b2n (funcOf s f).enablePending + 2 * b2n (funcOf s f).bmePending)] ++ le 2 (shareQ s f) ++ le 2 (shareV s f) ++
      le 2 (poolQp s f 0)) s s) ∧
  (∀ c s f, accepts opVfSuspend c s = true → vfNamed c s = none → f = refFn (c.prm 0 4) → f.num ≠ 0 → (funcOf s f).vf = .active →
    (funcOf s f).suspending = false →
    exec (.vfSuspend c) s = .next { funcMod f (fun g => { g with suspending := true }) s with cmd := { s.cmd with owed := s.cmd.owed ++
      [{ queue := c.queue, tag := c.tag.toNat, opcode := 0x1C02, epoch := curEpoch s, key := fnKey f, accepted := false }] } }) ∧
  (∀ c s f t, accepts opVfResume c s = true → vfNamed c s = none → f = refFn (c.prm 0 4) → f.num ≠ 0 → (funcOf s f).vf = .stopped →
    t = funcMod f (fun g => { g with vf := .active }) s →
    exec (.vfResume c) s = ends opVfResume c [] s ((funcOf t f).qps.foldl (fun s e => qpFetch f e.1 s) t)) ∧
  (∀ c s f k, accepts opVfLogStart c s = true → vfNamed c s = none → f = refFn (c.prm 0 4) → c.prm 8 8 % 4096 = 0 →
    c.prm 16 8 % 0x40000 = 0 → c.prm 24 8 % 0x40000 = 0 → c.prm 24 8 ≠ 0 → c.prm 24 8 ≤ 2 ^ 40 → logOf s f = none →
    ((List.range 16).find? fun k => !thas s.host.logs k) = some k →
    exec (.vfLogStart c) s = ends opVfLogStart c [byte k] s (logMod k
      { fn := f, bitmap := c.prm 8 8, base := c.prm 16 8, len := c.prm 24 8, live := [], snap := [], overflow := false, reported := false
        harvesting := false } s)) ∧
  (∀ c s k l, accepts opVfLogHarvest c s = true → vfNamed c s = none → logOf s (refFn (c.prm 0 4)) = some k →
    tget s.host.logs k = some l → l.harvesting = false →
    exec (.vfLogHarvest c) s = starts opVfLogHarvest c (fnKey l.fn) s (logMod k { l with live := [], snap := l.live, harvesting := true } s)) ∧
  (∀ c s k l, accepts opVfLogStop c s = true → vfNamed c s = none → logOf s (refFn (c.prm 0 4)) = some k →
    tget s.host.logs k = some l → l.harvesting = false → exec (.vfLogStop c) s = ends opVfLogStop c [] s (logDel k s)) ∧
  (∀ c s f t, accepts opVfSave c s = true → vfNamed c s = none → f = refFn (c.prm 0 4) → c.prm 8 8 % 64 = 0 → f.num ≠ 0 →
    (funcOf s f).vf = .stopped → imageLen s f ≤ c.prm 16 4 → t = owing opVfSave c (fnKey f) s s →
    exec (.vfSave c) s = .next (hostWrite ((queueFn c.queue).getD (pfOf f)) (c.prm 8 8) (vfImage t f) t)) ∧
  (∀ c s f, accepts opVfRestore c s = true → vfNamed c s = none → f = refFn (c.prm 0 4) → f.num ≠ 0 → (funcOf s f).vf = .disabled →
    (∀ o ∈ s.cmd.owed, ¬(o.opcode = 0x1C08 ∧ o.key = fnKey f)) →
    exec (.vfRestore c) s = starts opVfRestore c (fnKey f) s s)

/-- The SR-IOV registers (R302-R304), VF_CTRL (R310-R312) and the ends of the long VF commands (R317-R321). -/
def Obligations.VfEventsAct : Prop :=
  (∀ f n s, fnExists s f = true → f.num = 0 → (funcOf s f).vfEnable = false → n ≤ totalVfs s f →
    exec (.numvfsWrite f n) s = .next (funcMod f (fun g => { g with numVfs := n }) s)) ∧
  (∀ f s, fnExists s f = true → f.num = 0 → (funcOf s f).vfEnable = false →
    exec (.vfEnableSet f) s = .next (if vfsResetting s f then funcMod f (fun g => { g with vfDeferred := true }) s else vfsAppear f s)) ∧
  (∀ f s, fnExists s f = true → f.num = 0 →
    exec (.vfEnableClear f) s = .next (clearVfs f (funcMod f (fun g => { g with vfDeferred := false }) s))) ∧
  (∀ f s t, fnExists s f = true → f.num ≠ 0 → bit (setBit (funcOf s f).ctrl 0) 0 = true →
    t = funcMod f (fun g => { g with ctrl := and32 (setBit (funcOf s f).ctrl 0) 0x1FF0101 }) s →
    exec (.vfCtrlEnableSet f) s = .next (if (funcOf s f).vf = .shuttingDown then funcMod f (fun g => { g with enablePending := true }) t
      else vfActivate f t)) ∧
  (∀ f s t, fnExists s f = true → f.num ≠ 0 → bit (clrBit (funcOf s f).ctrl 0) 0 = false → (funcOf s f).vf = .active →
    t = funcMod f (fun g => { g with ctrl := and32 (clrBit (funcOf s f).ctrl 0) 0x1FF0101 }) s →
    exec (.vfCtrlEnableClear f) s = .next (funcMod f (fun g => { g with vf := .shuttingDown, enablePending := false }) t)) ∧
  (∀ f s t u again, fnExists s f = true → f.num ≠ 0 → (funcOf s f).vf = .shuttingDown → (funcOf s f).reads = [] →
    t = (funcOf s f).qps.foldl (fun s e => qpCut f e.1 s) s → u = (if (funcOf s f).bmePending then setBme f t else t) →
    again = ((funcOf s f).enablePending && (funcOf u f).bme) →
    exec (.vfShutdownDone f) s = .next (raiseFn 0x1C03 f [fnRef f, b2n again] (funcMod f (fun g =>
      { g with vf := if again then .active else .disabled, enablePending := false, bmePending := false
               qps := tmap g.qps fun _ q => { q with st := if again then 0 else q.st } }) u))) ∧
  (∀ f s, fnExists s f = true → f.num ≠ 0 → (funcOf s f).suspending = true →
    exec (.vfSuspendComplete f) s =
      .next (finishKey 0x1C02 (fnKey f) (repOk []) (funcMod f (fun g => { g with suspending := false, vf := .stopped }) s))) ∧
  (∀ f s k l, logOf s f = some k → tget s.host.logs k = some l → l.harvesting = true →
    exec (.vfLogHarvestComplete f false) s =
      .next (finishKey 0x1C05 (fnKey f) (faultRep dHostAccess (pathOf s (pciePlace f.link)).toNat) (logDel k s))) ∧
  (∀ f s k l t l' v, logOf s f = some k → tget s.host.logs k = some l → l.harvesting = true →
    v = (l.overflow || areaPoisoned s (logArea k) 0x4000000) →
    t = hostWrite (dataFn s 0x1C05 f) l.bitmap (bitmapBytes l.snap l.len) (areaRewritten (logArea k) 0x4000000 s) → tget t.host.logs k = some l' →
    exec (.vfLogHarvestComplete f true) s = .next (finishKey 0x1C05 (fnKey f) (repOk (le 4 l.snap.length ++ [byte (b2n v)]))
      (logMod k { l' with snap := [], overflow := false, harvesting := false } t))) ∧
  (∀ f ok s, exec (.vfSaveComplete f ok) s = .next (finishKey 0x1C07 (fnKey f)
    (if ok then repOk (le 4 (imageLen s f)) else faultRep dHostAccess (pathOf s (pciePlace f.link)).toNat) s)) ∧
  (∀ f b s q v, fnExists s f = true → f.num ≠ 0 → (owedBy s 0x1C08 (fnKey f)).isSome = true → q = rd b 6 2 → v = rd b 8 2 →
    rd b 0 4 = 0x4D56574C → rd b 4 2 = 1 → rd b 12 4 = 32 + 64 * q + 16 * v + 64 → (b.drop 32).length = 64 * q + 16 * v + 64 →
    rd b 16 4 = crc32c 0xFFFFFFFF#32 (b.drop 32) → q = shareQ s f → v = shareV s f →
    exec (.vfRestored f b true) s = .next (finishKey 0x1C08 (fnKey f) (repOk []) (raiseFn 0x1C05 f [fnRef f, b.length]
      (funcMod f (fun g => { g with vf := .stopped
                                    qps := (List.range q).map fun n => (n, qpOfRecord (slice (b.drop 32) (64 * n) 64))
                                    msix := (List.range v).map fun n => (n, msixOfBytes (slice (b.drop 32) (64 * q + 16 * n) 16))
                                    queues := tput g.queues 0 (cqOfRecord (slice (b.drop 32) (64 * q + 16 * v) 64)) }) s))))

/-- The DMA commands (R329, R330, R338-R349) where nothing refuses them. -/
def Obligations.DmaCommandsAct : Prop :=
  (∀ c s f n, accepts opDmaQpSet c s = true → qpNamed c s = none → f = refFn (c.prm 0 4) → n = c.prm 4 2 → f.pool ≠ 1 →
    ctxRefused s f (c.prmBytes 8 64) = false → (qpOf s f n).st = 0 →
    exec (.dmaQpSet c) s = ends opDmaQpSet c [] s (qpMod f n (fun q => { q with
      ctx := (c.prmBytes 8 64).take 32, modCount := rd (c.prmBytes 8 64) 45 1, modTime := rd (c.prmBytes 8 64) 46 2 }) s)) ∧
  (∀ c s f n, accepts opDmaQpStart c s = true → qpNamed c s = none → f = refFn (c.prm 0 4) → n = c.prm 4 2 →
    (f.num = 0 ∨ (funcOf s f).vf ≠ .shuttingDown) → (qpOf s f n).st = 0 ∨ (qpOf s f n).st = 2 →
    exec (.dmaQpStart c) s =
      ends opDmaQpStart c [] s (qpFetch f n (qpMod f n (fun q => { q with st := 1, cause := 0 }) s))) ∧
  (∀ c s f n, accepts opDmaQpStop c s = true → qpNamed c s = none → f = refFn (c.prm 0 4) → n = c.prm 4 2 → (qpOf s f n).st = 1 →
    exec (.dmaQpStop c) s = ends opDmaQpStop c [] s
      (qpFetch f n (funcMod f (fun g => { g with reads := quarantine (.qpTx n) g.reads }) (qpMod f n (fun q => { q with st := 0 }) s)))) ∧
  (∀ c s f n, accepts opDmaQpFlush c s = true → qpNamed c s = none → f = refFn (c.prm 0 4) → n = c.prm 4 2 →
    exec (.dmaQpFlush c) s = starts opDmaQpFlush c (fnKey f * 512 + n) s (qpMod f n (fun q => { q with st := 3 }) s)) ∧
  (∀ c s, accepts opDmaQpRead c s = true → qpNamed c s = none →
    exec (.dmaQpRead c) s = ends opDmaQpRead c (qpIndices (qpOf s (refFn (c.prm 0 4)) (c.prm 4 2))) s s) ∧
  (∀ c s e ch f, accepts opDmaChAssign c s = true → c.queue = .mgmt → e = c.prm 0 1 → ch = c.prm 1 1 → chNamed e ch = true →
    c.prm 2 1 = 0 → refOk (c.prm 4 4) = true → f = refFn (c.prm 4 4) → fnExists s f = true → f.link = e / 8 → (isBifurcated s f.link = true → f.half = e % 8 / 4) →
    chActive (dmaOf s (chNo e ch)) = false → (dmaOf s (chNo e ch)).st = 4 ∨ (dmaOf s (chNo e ch)).st = 5 →
    exec (.dmaChAssign c) s = ends opDmaChAssign c [] s (dmaMod (chNo e ch) (fun d => { d with
      assigned := true, ownerKind := 0, owner := f, st := 5, dirty := 0xFF, ctrl := 0, hold := [], srcPos := 0, landed := [], merge := [], burst := 0 }) s)) ∧
  (∀ c s e ch, accepts opDmaChProgram c s = true → e = c.prm 0 1 → ch = c.prm 1 1 → chNamed e ch = true →
    chOwnedBy s c.queue (dmaOf s (chNo e ch)) = true →
    exec (.dmaChProgram c) s =
      ends opDmaChProgram c [] s (dmaMod (chNo e ch) (fun d => { d with prog := c.prmBytes 4 64, dirty := 0 }) s)) ∧
  (∀ c s e ch w d, accepts opDmaChEnable c s = true → e = c.prm 0 1 → ch = c.prm 1 1 → chNamed e ch = true → d = dmaOf s (chNo e ch) →
    chOwnedBy s c.queue d = true → w = c.prm 2 1 % 16 + c.prm 3 2 % 2 ^ 13 * 2 ^ 16 → bit w 0 = true → enableOk d w = true →
    exec (.dmaChEnable c) s = ends opDmaChEnable c [] s (dmaMod (chNo e ch) (fun d => { d with
      ctrl := setBit w 0, act := d.prog, st := if bit w 3 then 1 else 2, count := 0, hold := [], srcPos := 0, landed := []
      merge := [], burst := 0 }) s)) ∧
  (∀ c s e ch, accepts opDmaChEnable c s = true → e = c.prm 0 1 → ch = c.prm 1 1 → chNamed e ch = true →
    chOwnedBy s c.queue (dmaOf s (chNo e ch)) = true → bit (c.prm 2 1 % 16 + c.prm 3 2 % 2 ^ 13 * 2 ^ 16) 0 = false →
    chActive (dmaOf s (chNo e ch)) = true →
    exec (.dmaChEnable c) s = ends opDmaChEnable c [] s (chDisable (chNo e ch) s)) ∧
  (∀ c s e ch, accepts opDmaChRead c s = true → e = c.prm 0 1 → ch = c.prm 1 1 → chNamed e ch = true →
    chOwnedBy s c.queue (dmaOf s (chNo e ch)) = true →
    exec (.dmaChRead c) s =
      ends opDmaChRead c (le 4 (chStatus (dmaOf s (chNo e ch))) ++ le 8 (chCount (dmaOf s (chNo e ch)))) s s)

/-- Queue-pair and channel activity (R326-R338, R343, R347) under the conditions it needs. -/
def Obligations.DmaEventsAct : Prop :=
  (∀ f n i s t, fnExists s f = true → dbActs s f n = true → t = qpMod f n (fun q => { q with txTail := i % 65536 }) s →
    exec (.qpDbTx f n i) s = .next (if (qpOf t f n).st == 1 && decide (qpTxSize (qpOf t f n) < (i % 65536 + 65536 - (qpOf t f n).txHead) % 65536)
      then qpError f n 1 t else qpFetch f n t)) ∧
  (∀ f n i s t, fnExists s f = true → dbActs s f n = true → t = qpMod f n (fun q => { q with rxTail := i % 65536 }) s →
    exec (.qpDbRx f n i) s = .next (if (qpOf t f n).st == 1 && decide (qpRxSize (qpOf t f n) < (i % 65536 + 65536 - (qpOf t f n).rxHead) % 65536)
      then qpError f n 1 t else t)) ∧
  (∀ f n i s t, fnExists s f = true → dbActs s f n = true →
    t = qpMod f n (fun q => { q with cqHead := i % 65536, timer := i % 65536 != q.cqTail }) s →
    exec (.qpDbCq f n i) s = .next (if (qpOf s f n).st == 1 && decide (qpCqSize (qpOf s f n) < ((qpOf s f n).cqTail + 65536 - i % 65536) % 65536)
      then qpError f n 1 t else qpFetch f n t)) ∧
  (∀ f n descs data s ds pk len t, qpExists s f n = true → f.pool = 0 → txMay s f n = true →
    ds = (descs.map (fitTo 32)).take (min 16 (((qpOf s f n).txTail + 65536 - (qpOf s f n).txHead) % 65536)) →
    (ds.findIdx fun d => bit (rd d 10 1) 0) < ds.length → (∀ d ∈ ds, txBad d = false) →
    pk = ds.take ((ds.findIdx fun d => bit (rd d 10 1) 0) + 1) → len = pk.foldl (fun a d => a + rd d 8 2) 0 → 14 ≤ len → len ≤ 9596 →
    t = inject f n (qpOf s f n) (slice (pk.headD []) 12 4) (fitTo len data)
      (funcMod f (fun g => { g with reads := g.reads.filter fun r => !(r.st == 0 && r.use == .qpTx n) }) s) →
    exec (.hostTxFetch f n descs data) s =
      .next (qpFetch f n (txDone f n pk.length 0 len (countQp f n 1 len (countQp f n 0 1 t))))) ∧
  (∀ d link prio exc descs s x r f n st t, 1 ≤ d → d ≤ 4 → link < 4 → prio < 8 →
    queueGet s (if exc then exceptionKey d else deliveryKey d link prio) = x :: r → x.dest = .host f n → storedOf s x.id = some st →
    t = queueSet (if exc then exceptionKey d else deliveryKey d link prio) r (backlogWidens f s) → qpExists t f n = true →
    f.pool = 0 → t.twin.state ≠ .fenced → (qpOf t f n).st = 1 → fnRuns t f = true → (funcOf s f).d3 = false → (funcOf s f).bme = true →
    exec (.hostRxDelivery d link prio exc descs) s = .next (retireIdle 4 (dropCopy x.id (rxDeliver f n descs st.pkt t)))) ∧
  (∀ f n s, qpExists s f n = true → f.pool ≠ 1 → (qpOf s f n).timer = true → qpIrqEn (qpOf s f n) = true →
    (qpOf s f n).cqHead ≠ (qpOf s f n).cqTail → exec (.interruptModerationTimer f n) s = .next (qpSignal f n s)) ∧
  (∀ f n s nTx nRx t u, qpExists s f n = true → (qpOf s f n).st = 3 → nTx = ((qpOf s f n).txTail + 65536 - (qpOf s f n).txHead) % 65536 →
    nRx = ((qpOf s f n).rxTail + 65536 - (qpOf s f n).rxHead) % 65536 → t = flushTx f n nTx s →
    u = (if nRx == 0 then t else qpMod f n (fun q => { q with rxHead := q.rxTail }) (writeCompletion f n
      (completionEntry (((qpOf s f n).rxTail + 65535) % 65536 % qpRxSize (qpOf s f n)) 1 1 1 0 0 0 0 [] 0 0) t)) →
    exec (.dmaQpFlushed f n) s = .next (finishKey 0x2004 (fnKey f * 512 + n) (repOk [])
      (raise 0x2002 (qmPlace f.link) [fnRef f, n, nTx + nRx] (qpMod f n (fun q => { q with st := 0 }) u)))) ∧
  (∀ e s c t, e < 32 → chosenChannel s e = some c →
    t = (span 56 8).foldl (fun s c' => if chNo e c' != chNo e c && (dmaOf s (chNo e c')).st == 2 && (dmaOf s (chNo e c')).srcPos != 0 &&
      chPrio (dmaOf s (chNo e c')) < chPrio (dmaOf s (chNo e c)) then dmaMod (chNo e c') (fun d => { d with st := 3 }) s else s) s →
    exec (.dmaBeat e) s = .next (chBeat (chNo e c) (dmaMod (chNo e c) (fun d => { d with st := 2 })
      { t with host := { t.host with lastServed := tput t.host.lastServed e c } }))) ∧
  (∀ n line s t, n < 85 → line < 16 → t = armBursts { s with host := { s.host with reqLines := [16 * n + line] } } →
    exec (.dmaRequestLineAssert n line) s = .next { t with host := { t.host with reqLines := [] } })

/-- The STO commands (R359-R376) where nothing refuses them. The cited key unwrap decides STO_NS_KEY (assumption 3). -/
def Obligations.StoCommandsAct : Prop :=
  (∀ c s, accepts opStoNqnSet c s = true → c.prm 1 1 ≠ 0 → c.prm 1 1 ≤ 223 →
    (∀ e ∈ s.sto.paths, e.2.hostNqn ≠ c.prm 0 1 ∧ e.2.subNqn ≠ c.prm 0 1) →
    exec (.stoNqnSet c) s =
      ends opStoNqnSet c [] s (stoMod (fun x => { x with nqns := tput x.nqns (c.prm 0 1) (c.prmBytes 2 (c.prm 1 1)) }) s)) ∧
  (∀ c s p, accepts opStoPathAdd c s = true → fld (c.prm 3 1) 4 4 = 0 → pathRange c = false → p = c.prm 0 2 → thas s.sto.paths p = false →
    thas s.sto.nqns (c.prm 4 1) = true → thas s.sto.nqns (c.prm 5 1) = true → connsUsed s + 1 + c.prm 6 2 ≤ 8192 →
    exec (.stoPathAdd c) s = ends opStoPathAdd c ([byte (Config.stoChannel p).toNat] ++ le 4 (pathOf s (stoPlace p)).toNat) s
      (pathConnect p (stoMod (fun y => { y with paths := tput y.paths p {
        transport := c.prm 2 1, flags := c.prm 3 1, hostNqn := c.prm 4 1, subNqn := c.prm 5 1, conns := c.prm 6 2, depth := c.prm 8 2
        inject := c.prm 10 2, remotePort := if c.prm 12 2 == 0 then 4420 else c.prm 12 2, ioTimeout := c.prm 14 2
        localAddr := c.prmBytes 16 16, remoteAddr := c.prmBytes 32 16, kato := c.prm 48 1, st := .connecting, liveConns := 0, attempts := 0
        interval := 1, nextConn := 0, idents := [] } }) s))) ∧
  (∀ c s p, accepts opStoPathRemove c s = true → p = c.prm 0 2 → p < 1024 → thas s.sto.paths p = true →
    (∀ e ∈ s.sto.nss, p ∉ e.2.paths) →
    exec (.stoPathRemove c) s = ends opStoPathRemove c [] s (stoMod (fun x => { x with paths := tdel x.paths p }) s)) ∧
  (∀ c s i n ds, accepts opStoNsAdd c s = true → fld (c.prm 3 1) 3 5 = 0 → i = c.prm 0 2 → i < 1024 → c.prm 2 1 ≤ 3 → c.prm 16 2 ≤ 600 →
    (nsPaths c).all (fun p => decide (p < 1024) && thas s.sto.paths p) = true → isAttached s i = false →
    n = { format := c.prm 2 1, flags := c.prm 3 1, paths := nsPaths c, remoteNsid := c.prm 12 4, hold := c.prm 16 2, st := 0, capacity := 0,
          key := none, turn := 0 } → ds = reported s n →
    exec (.stoNsAdd c) s = ends opStoNsAdd c [] s (stoMod (fun x => { x with
      nss := tput x.nss i { n with st := if ds.any (mismatched n) then 5 else if isXts n then 4 else nsServe s n
                                   capacity := (ds.map fun d => d.nsze).headD 0 }
      checks := tdel x.checks i }) s)) ∧
  (∀ c s i, accepts opStoNsRemove c s = true → i = c.prm 0 2 → i < 1024 → thas s.sto.nss i = true → isAttached s i = false →
    exec (.stoNsRemove c) s =
      ends opStoNsRemove c [] s (stoMod (fun x => { x with nss := tdel x.nss i, checks := tdel x.checks i }) s)) ∧
  (∀ c s i who host nsid, accepts opStoNsAttach c s = true → fld (c.prm 3 1) 2 6 = 0 → i = c.prm 0 2 → i < 1024 →
    attachWho c s = .inr who → host = (c.prm 2 1 == 0) → nsid = c.prm 8 2 → (host = true → nsid ≠ 0 ∧ nsid ≤ 1024) →
    thas s.sto.nss i = true → (s.sto.attach.any fun a => a.who == who && (a.ns == i || (host && a.nsid == nsid))) = false →
    (bit (c.prm 3 1) 0 && writerClash s i (bit (c.prm 3 1) 1)) = false →
    exec (.stoNsAttach c) s = ends opStoNsAttach c [] s (tellChange who nsid (stoMod (fun x => { x with attach := x.attach ++
      [{ ns := i, who := who, nsid := if host then nsid else 0, write := bit (c.prm 3 1) 0, shared := bit (c.prm 3 1) 1, detaching := false }] }) s))) ∧
  (∀ c s i who a, accepts opStoNsDetach c s = true → i = c.prm 0 2 → i < 1024 → attachWho c s = .inr who →
    (s.sto.attach.find? fun a => a.who == who && a.ns == i) = some a → a.detaching = false →
    exec (.stoNsDetach c) s = starts opStoNsDetach c (detachKey i who) s (tellChange who a.nsid (stoMod (fun x => { x with
      attach := x.attach.map fun b => if b.who == who && b.ns == i then { b with detaching := true } else b }) s))) ∧
  (∀ i who f s w, w = (match who with | some b => Submitter.bed b | none => .controller f) →
    (s.sto.attach.any fun a => a.ns == i && a.who == w && a.detaching) = true → (s.sto.cmds.any fun c => c.ns == i && c.who == w && !c.orphan) = false →
    exec (.nsDetachComplete i who f) s = .next (finishKey 0x2407 (detachKey i w) (repOk [])
      (stoMod (fun x => { x with attach := x.attach.filter fun a => !(a.ns == i && a.who == w) }) s))) ∧
  (∀ c s u i n, acceptsKey opStoNsKey c s = true → i = c.prm 0 2 → i < 1024 → c.prm 2 1 ≤ 63 → u = wipe c s → tget u.sto.nss i = some n →
    n.st = 4 →
    exec (.stoNsKey c) s = match importKey c { wrapped := true, size := 64, slot := c.prm 2 1, off := 4 } u with
      | (.inl r, t) => .next (replied opStoNsKey c r u t)
      | (.inr key, t) =>
        if key.take 32 = key.drop 32 then .next (replied opStoNsKey c (badParam 0) u t)
        else if thas t.sto.checks i = true ∧ tget t.sto.checks i ≠ some (cipher (key.take 32 ++ List.replicate 16 0) 8) then
          .next (replied opStoNsKey c (badParam dKeyMismatch) u t)
        else ends opStoNsKey c [] u (pumpNs i (nsUnlock i key { t with sto := { t.sto with
          checks := tput t.sto.checks i (cipher (key.take 32 ++ List.replicate 16 0) 8) } }))) ∧
  (∀ c s i x, accepts opStoRead c s = true → c.prm 0 1 = 0 → i = c.prm 1 2 → i < 1024 → tget s.sto.paths i = some x →
    exec (.stoRead c) s = ends opStoRead c ([byte (pathCode x), byte x.liveConns] ++ le 2 (pathSent s i) ++ le 4 x.attempts) s s) ∧
  (∀ c s i n, accepts opStoRead c s = true → c.prm 0 1 = 1 → i = c.prm 1 2 → i < 1024 → tget s.sto.nss i = some n →
    exec (.stoRead c) s =
      ends opStoRead c ([byte (nsShown s n), byte (liveMask s n)] ++ le 2 (nsSent s i) ++ le 8 n.capacity) s s)

/-- The SVC commands (R418-R424, R429) and what carries a start or stop on (R420, R421). -/
def Obligations.SvcCommandsAct : Prop :=
  (∀ c s slot d, accepts opSvcImageLoad c s = true → slot = c.prm 0 1 → slot < 64 → c.prm 1 1 ≤ 1 → thas s.svc.loading slot = false →
    bufferRefusal s c.queue (c.prm 1 1) (c.prm 8 8) (c.prm 16 4) false = none →
    d = (if c.prm 1 1 = 1 then memRead s (c.prm 8 8) (min (c.prm 16 4) 0x1010000) else []) →
    exec (.svcImageLoad c) s = starts opSvcImageLoad c slot s
      (countBulk (c.prm 8 8) d.length { s with svc := { s.svc with loading := tput s.svc.loading slot d } })) ∧
  (∀ slot data s d t, slot < 64 → tget s.svc.loading slot = some d → t = { s with svc := { s.svc with loading := tdel s.svc.loading slot } } →
    imageFormat (if d.isEmpty then data else d) = true →
    tgetD s.svc.floors (imageOf (if d.isEmpty then data else d)).service 0 ≤ (imageOf (if d.isEmpty then data else d)).version →
    slotBusy t slot = false →
    exec (.svcImageVerified slot data true true) s = .next (finishKey 0x2801 slot (repOk [])
      { t with svc := { t.svc with images := tput t.svc.images slot (imageOf (if d.isEmpty then data else d)) } })) ∧
  (∀ c s b slot i, accepts opSvcStart c s = true → c.prm 2 1 ≤ 1 → b = c.prm 0 1 → b < 32 → slot = c.prm 1 1 → slot < 64 →
    tget s.svc.images slot = some i → bedBusyState (bedGet s b).st = false → bedFits (owing opSvcStart c b s s) b i = true →
    tget (owing opSvcStart c b s s).svc.images slot = some i →
    exec (.svcStart c) s = .next (launchBed b slot (c.prm 2 1 == 1) i (owing opSvcStart c b s s))) ∧
  (∀ c s b, accepts opSvcStop c s = true → b = c.prm 0 1 → b < 32 → (bedGet s b).st = .running →
    exec (.svcStop c) s = .next (stopBed b .stop true (owing opSvcStop c b s s))) ∧
  (∀ c s b slot i k j, accepts opSvcReplace c s = true → b = c.prm 0 1 → b < 32 → slot = c.prm 1 1 → slot < 64 →
    tget s.svc.images slot = some i → (bedGet s b).slot = some k → tget s.svc.images k = some j → j.service = i.service →
    (bedGet s b).st = .running →
    exec (.svcReplace c) s = .next (stopBed b (.replace slot) true (owing opSvcReplace c b s s))) ∧
  (∀ c s b x i, accepts opSvcBedQuery c s = true → b = c.prm 0 1 → b < 32 → x = bedGet s b → i = (x.slot.bind fun k => tget s.svc.images k) →
    exec (.svcBedQuery c) s = ends opSvcBedQuery c ([byte (bedCode x.st), byte (x.slot.getD 0)] ++
      le 2 (match i with | some i => i.service | none => 0) ++ le 4 (match i with | some i => i.version | none => 0) ++
      [byte (bedRestarts s b), byte x.failCause]) s s) ∧
  (∀ c s, accepts opSvcSlotRead c s = true → c.prm 0 1 < 64 →
    exec (.svcSlotRead c) s = ends opSvcSlotRead c (match tget s.svc.images (c.prm 0 1) with
      | some i => le 2 i.service ++ le 4 i.version ++ le 4 i.iface ++ [1]
      | none => List.replicate 11 0) s s) ∧
  (∀ n s b t, n < 85 → t = clustMod n (fun c => { c with readyReg := true }) s → bedOf t n = some b → (bedGet t b).st = .starting →
    ((bedClusters t b).all fun n => (clust t n).readyReg) = true → bedGrafting t b = false →
    exec (.svcReadySet n) s = .next (finishStart b (repOk []) (dirChanged (setBed b .running t)))) ∧
  (∀ n s b t, n < 85 → t = clustMod n (fun c => { c with readyReg := false }) s → bedOf t n = some b → (bedGet t b).st = .stopping →
    ((bedClusters t b).all fun m => !(clust t m).readyReg) = true → bedGrafting t b = false →
    exec (.svcReadyClear n) s = .next (bedStopped b t)) ∧
  (∀ b s, b < 32 → (bedGet s b).st = .starting → bedGrafting s b = false →
    exec (.startTimeout b) s = .next (stopBed b (.fail 1) false (bedMod b (fun x => { x with failCause := 1 }) (finishStart b (aborted 0) s)))) ∧
  (∀ b s, b < 32 → (bedGet s b).st = .stopping → bedGrafting s b = false → exec (.stopGraceExpiry b) s = .next (bedStopped b s))

/-- The DBG commands (R406-R408, R411, R623-R625). `Config.verifies` stands for the token's signature check (assumption 3). -/
def Obligations.DbgCommandsAct : Prop :=
  (∀ c s x n t, accepts opDbgHalt c s = true → sessionOf s c.queue = some x → paramPathBad (c.prm 0 4) s = false → dbgThread c s = some (n, t) →
    mayAlter s x.kind n t = true →
    (threadOf s n t).st = .running → exec (.dbgHalt c) s = ends opDbgHalt c ([byte 1] ++ le 2 (((stagedWords s n t).map fun x => x.1).getD 0xFFFF)) s
      (haltThread n t (sessionNo s c.queue) s)) ∧
  (∀ c s x n t, accepts opDbgResume c s = true → sessionOf s c.queue = some x → paramPathBad (c.prm 0 4) s = false → dbgThread c s = some (n, t) →
    mayAlter s x.kind n t = true →
    (threadOf s n t).st = .halted → c.prm 5 1 ≤ 1 →
    exec (.dbgResume c) s = ends opDbgResume c [] s (if c.prm 5 1 == 1 then
        threadMod n t (fun th => { th with pc := BitVec.ofNat 64 (c.prm 8 8), abandoned := none })
          (threadMod n t (fun th => { th with st := .running, haltedBy := none }) s)
      else threadMod n t (fun th => { th with st := .running, haltedBy := none }) s)) ∧
  (∀ c s x n t ch k remote u, accepts opDbgAbandonMessage c s = true → sessionOf s c.queue = some x → paramPathBad (c.prm 0 4) s = false → dbgThread c s = some (n, t) →
    mayAlter s x.kind n t = true → (threadOf s n t).st = .halted → stagedWords s n t = some (ch, k, remote) →
    u = threadMod n t (fun th => { th with abandoned := some (if remote then 256 + ch else ch) }) (dropStaged n t s) →
    exec (.dbgAbandonMessage c) s = ends opDbgAbandonMessage c [byte k] s
      (raise 0x2807 (corePlace (notice n t 5 (noticeBytes u n t 5 0 0 0 0xFFFF 0 ch) u) n t) [t, ch, k] (notice n t 5 (noticeBytes u n t 5 0 0 0 0xFFFF 0 ch) u))) ∧
  (∀ c s x n t th, accepts opDbgObserve c s = true → sessionOf s c.queue = some x → paramPathBad (c.prm 0 4) s = false → dbgThread c s = some (n, t) → th = threadOf s n t →
    exec (.dbgObserve c) s =
      ends opDbgObserve c ([byte (thCode th.st), byte th.cause] ++ le 2 th.object ++ le 8 th.pc.toNat ++ le 4 th.instret) s s) ∧
  (∀ c s x n t, accepts opDbgReadReg c s = true → sessionOf s c.queue = some x → paramPathBad (c.prm 0 4) s = false → dbgThread c s = some (n, t) →
    mayAlter s x.kind n t = true →
    c.prm 5 1 ≠ 0 → c.prm 5 1 < 32 → (threadOf s n t).st = .halted →
    exec (.dbgReadReg c) s = ends opDbgReadReg c (le 8 (regGet (threadOf s n t) (c.prm 5 1)).toNat) s s) ∧
  (∀ c s tok x, accepts opDbgOpen c s = true → tok = c.prmBytes 2 120 → c.prm 0 2 = 120 → rd tok 0 2 = 1 → rd tok 20 4 = 0 →
    signerPermitted s (rd tok 3 1) = true → kindPermitted s (rd tok 2 1) = true → now32 s < rd tok 12 4 → s.boot.tokenSeq < rd tok 16 4 →
    s.boot.sessions.length < 4 → x = { queue := c.queue, kind := rd tok 2 1, seq := rd tok 16 4, notAfter := rd tok 12 4 } →
    exec (.dbgOpen c) s = if Config.verifies (16 + rd tok 3 1) tok = true ∧ rd tok 4 8 = Config.packageSerial.toNat then
        ends opDbgOpen c (le 4 s.boot.nextSession) s (raise 0x4006 b0Place [s.boot.nextSession, x.kind, x.seq] (toFlash 9 0 (le 4 x.seq)
          { s with boot := { s.boot with
            sessions := tput s.boot.sessions s.boot.nextSession x, nextSession := s.boot.nextSession + 1, tokenSeq := x.seq } }))
      else .next (answer opDbgOpen c (denied dSignature) s)) ∧
  (∀ c s x, accepts opDbgClose c s = true → tget s.boot.sessions (c.prm 0 4) = some x → x.queue = c.queue →
    exec (.dbgClose c) s = ends opDbgClose c [] s (closeSession (c.prm 0 4) 1 s)) ∧
  (∀ k s, thas s.boot.sessions k = true → exec (.debugTokenExpiry k) s = .next (raise 0x4007 b0Place [k, 2] { s with
    boot := { s.boot with sessions := tdel s.boot.sessions k }
    svc := { s.svc with clusters := tmap s.svc.clusters fun _ c => { c with threads := tmap c.threads fun _ th => resumeOf k th } } })) ∧
  (∀ q s, q < 4 → exec (.oobEndpointLoss q) s = .next (closeSessionsOf (.oob q) 3 (stageOwnerLost (.oob q) (queueLost (.oob q) s))))

/-- Register and timer rows of a cluster (R393, R395-R398, R403-R405, R426) under the conditions they need. -/
def Obligations.ClusterEventsAct : Prop :=
  (∀ n k s ch e, n < 85 → k < 64 → tget (clust s n).timers k = some (ch, e) →
    exec (.svcTimerExpiry n k) s = .next (extMessage n ch 4 (extEventBytes 5 (le 8 (timeCsr (clustMod n (fun c => { c with timers := tdel c.timers k }) s))))
      (clustMod n (fun c => { c with timers := tdel c.timers k }) s)).1) ∧
  (∀ n l s m t u v, n < 85 → l < 1024 → (lockOf s n l).holder = some (m, t) → (lockOf s n l).notified = false → fld (clust s n).cfg 32 24 ≠ 0 →
    u = lockMod n l (fun x => { x with notified := true }) s →
    v = notice m t 3 (noticeBytes u m t 3 0 0 0 (lockName n l) 0 (stagedChannel u m t)) u →
    exec (.lockLimitExpiry n l) s = .next (raise 0x2803 (corePlace v m t) [lockName n l, t, v.time.up - (lockOf s n l).since] v)) ∧
  (∀ n s l, n < 85 → l = (span 1 63).filter (fun t => isBlocked (threadOf s n t).st) → l ≠ [] → (clust s n).stallSent = false →
    (∀ t ∈ span 1 63, canAct s n t = false) → (∀ t ∈ l, isStuck s n t = true) → isStuck s n 0 = false →
    exec (.stallTimeout n) s = .next (raise 0x2802 (svcPlace n) (two (blockedMask s n))
      (notice n 0 2 (noticeBytes (clustMod n (fun c => { c with stallSent := true }) s) n 0 2 0 0 0 0xFFFF (blockedMask s n) 0xFFFF)
        (clustMod n (fun c => { c with stallSent := true }) s)))) ∧
  (∀ n l s, n < 85 → l < 1024 → (lockOf s n l).holder.isSome = true → exec (.svcLockRelease n l) s = .next (grantLock n l s)) ∧
  (∀ n t s, n < 85 → t < 64 → (threadOf s n t).st = .stopped ∨ (threadOf s n t).st = .faulted →
    exec (.svcThreadRun n t) s = .next (clustMod n (fun c => { c with stallSent := false }) (threadMod n t (fun th => { th with st := .running }) s))) ∧
  (∀ n ch cfg s v, n < 85 → ch < 255 → v = chanCfgBits (setBit cfg 0) → bit v 0 = true → chEnabled (chanOf s n ch) = false →
    chanFits s n ch v = true → exec (.svcChanEnable n ch cfg) s = .next (chanMod n ch (fun c => { c with cfg := v }) s)) ∧
  (∀ n ch cfg s v, n < 85 → ch < 255 → v = chanCfgBits (clrBit cfg 0) → bit v 0 = false → chEnabled (chanOf s n ch) = true →
    exec (.svcChanDisable n ch cfg) s = .next (chanDisable n ch v s)) ∧
  (∀ n tail s, n < 85 → exec (.svcCmdqDb n tail) s = .next (bedFetch n (cmdqMod n (fun c => { c with tail := tail % 65536 }) s))) ∧
  (∀ n cfg s v, n < 85 → v = setBit cfg 0 % 2 ^ 56 - fld (setBit cfg 0) 1 3 * 2 → bit v 0 = true → bit (clust s n).cmdq.cfg 0 = false →
    (clust s n).cmdq.running = false ∨ queueBusy s (.bed n) = 0 →
    exec (.svcCmdqEnable n cfg) s = .next (bedFetch n (cmdqMod n (fun c => { c with cfg := v, running := true, error := false, cause := 0 }) s))) ∧
  (∀ n cfg s v, n < 85 → v = clrBit cfg 0 % 2 ^ 56 - fld (clrBit cfg 0) 1 3 * 2 → bit v 0 = false →
    exec (.svcCmdqDisable n cfg) s =
      .next (cmdqMod n (fun c => { c with cfg := v, running := c.running || bit (clust s n).cmdq.cfg 0 }) s))

/-- The Oroarnin instructions (R384-R399) of a running thread `t` of cluster `n` that may do what it asks. -/
def Obligations.ThreadInstructionsAct : Prop :=
  (∀ n t rd r1 r2 s ch ws v, n < 85 → t < 64 → (threadOf s n t).st = .running → opTarget s n (xv s n t r1) = some n →
    ch = xv s n t r1 % 256 → v = xv s n t r2 → chEnabled (chanOf s n ch) = true → bit (chanOf s n ch).writers t = true →
    (threadOf s n t).abandoned ≠ some ch → (chanOf s n ch).stage = some (t, ws) → ws ≠ [] → ws.length < 8 →
    exec (.chWr n t rd r1 r2) s = .next (settleAll n ch (retire n t rd (BitVec.ofNat 64 (ws.length + 1)) 4
      (chanMod n ch (fun c => { c with stage := some (t, ws ++ [BitVec.ofNat 64 v]) }) s)))) ∧
  (∀ n t rd r1 r2 s ch ws v, n < 85 → t < 64 → (threadOf s n t).st = .running → opTarget s n (xv s n t r1) = some n →
    ch = xv s n t r1 % 256 → v = xv s n t r2 → chEnabled (chanOf s n ch) = true → bit (chanOf s n ch).writers t = true →
    (threadOf s n t).abandoned ≠ some ch → (chanOf s n ch).stage = some (t, ws) → ws ≠ [] → ws.length < 8 →
    lengthFits (xv s n t r1) (ws.length + 1) = true →
    exec (.chWre n t rd r1 r2) s = .next (settleAll n ch (retire n t rd 0 4 (publish n ch
      { bytes := (wordBytes (ws ++ [BitVec.ofNat 64 v])).take (opLen (xv s n t r1)), ext := false, buffer := none }
      (chanMod n ch (fun c => { c with stage := none }) s))))) ∧
  (∀ n t rd r1 s ch m r, n < 85 → t < 64 → (threadOf s n t).st = .running → localMisuse s n t (xv s n t r1) Chan.readers = none →
    ch = xv s n t r1 % 256 → (chanOf s n ch).msgs = m :: r →
    exec (.chRdh n t rd r1) s = .next (afterTake n ch (retire n t rd (BitVec.ofNat 64 m.bytes.length) 4 (takeHead n ch t s)))) ∧
  (∀ n t rd r1 s ch, n < 85 → t < 64 → (threadOf s n t).st = .running → localMisuse s n t (xv s n t r1) Chan.readers = none →
    ch = xv s n t r1 % 256 → (chanOf s n ch).readersQ = [] →
    exec (.chTry n t rd r1) s = .next (match (chanOf s n ch).msgs with
      | m :: _ => afterTake n ch (retire n t rd (BitVec.ofNat 64 m.bytes.length) 4 (takeHead n ch t s))
      | [] => retire n t rd 0 4 s)) ∧
  (∀ n t rd r1 s b, n < 85 → t < 64 → (threadOf s n t).st = .running → (threadOf s n t).buf = some b → 8 * (xv s n t r1 % 8) < b.length →
    exec (.chRdw n t rd r1) s = .next (retire n t rd (BitVec.ofNat 64 (Machine.rd b (8 * (xv s n t r1 % 8)) 8)) 4 s)) ∧
  (∀ n t r1 s ch ws, n < 85 → t < 64 → (threadOf s n t).st = .running → opTarget s n (xv s n t r1) = some n → ch = xv s n t r1 % 256 →
    localMisuse s n t (xv s n t r1 % 256) Chan.writers = none → (chanOf s n ch).stage = some (t, ws) →
    exec (.chAbt n t r1) s = .next (settleAll n ch (chanMod n ch (fun c => { c with stage := none }) (retire n t 0 0 4 s)))) ∧
  (∀ n t rd r1 s, n < 85 → t < 64 → (threadOf s n t).st = .running → localMisuse s n t (xv s n t r1) Chan.readers = none →
    bit (chanOf s n (xv s n t r1 % 256)).readers t = true →
    exec (.chCnt n t rd r1) s = .next (retire n t rd (BitVec.ofNat 64 (chanOf s n (xv s n t r1 % 256)).msgs.length) 4 s)) ∧
  (∀ n t r1 r2 s ch v, n < 85 → t < 64 → (threadOf s n t).st = .running → localMisuse s n t (xv s n t r1) Chan.readers = none →
    ch = xv s n t r1 % 256 → v = xv s n t r2 % 256 → v ∈ (chanOf s n ch).held →
    exec (.chFree n t r1 r2) s = .next (afterTake n ch (retire n t 0 0 4 (chanMod n ch (fun c => { c with held := c.held.filter (· != v) }) s)))) ∧
  (∀ n t rd r1 s m l, n < 85 → t < 64 → (threadOf s n t).st = .running → lockNamed s n (xv s n t r1) = some (m, l) →
    (lockOf s m l).holder = none →
    exec (.lkAcq n t rd r1) s = .next (retire n t rd 0 4
      (lockMod m l (fun x => { x with holder := some (n, t), since := s.time.up, notified := false }) s))) ∧
  (∀ n t rd r1 s m l, n < 85 → t < 64 → (threadOf s n t).st = .running → lockNamed s n (xv s n t r1) = some (m, l) →
    (lockOf s m l).holder ≠ some (n, t) →
    exec (.lkTry n t rd r1) s = .next (if (lockOf s m l).holder.isNone then
        retire n t rd 1 4 (lockMod m l (fun x => { x with holder := some (n, t), since := s.time.up, notified := false }) s)
      else retire n t rd 0 4 s)) ∧
  (∀ n t r1 s m l, n < 85 → t < 64 → (threadOf s n t).st = .running → lockNamed s n (xv s n t r1) = some (m, l) →
    (lockOf s m l).holder = some (n, t) → exec (.lkRel n t r1) s = .next (grantLock m l (retire n t 0 0 4 s))) ∧
  (∀ n t r1 r2 s k ch v, n < 85 → t < 64 → (threadOf s n t).st = .running → k = xv s n t r1 % 64 → ch = fld (xv s n t r1) 8 8 → v = xv s n t r2 →
    (v ≠ 0 → chEnabled (chanOf s n ch) = true ∧ acceptsExt (chanOf s n ch) 4 = true) →
    exec (.tmSet n t r1 r2) s = .next (retire n t 0 0 4 (clustMod n (fun c => { c with
      timers := if v = 0 then tdel c.timers k else tput c.timers k (ch, s.time.up + min v (2 ^ 32 - 1)) }) s)))

/-- INSTRUCTION_ISSUE, ECALL and EBREAK (R383, R400, R406). The base set is that of the cited standard (assumption 17). -/
def Obligations.ThreadsRun : Prop :=
  (∀ n t s pc w, n ≤ 85 → t < 64 → (threadOf s n t).st = .running → coreStill s (svcPlace n) (t / 8) = false →
    pc = (threadOf s n t).pc.toNat → pc % 2 = 0 → mayFetch s n pc 2 = true → mayFetch s n pc 4 = true → poisonHit s pc 2 = none → poisonHit s pc 4 = none →
    ofLe (memRead s pc 2) % 4 = 3 → w = ofLe (memRead s pc 4) → exec (.instructionIssue n t) s = .next (runWord n t w 4 (countReads pc 4 s))) ∧
  (∀ n t s pc w, n ≤ 85 → t < 64 → (threadOf s n t).st = .running → coreStill s (svcPlace n) (t / 8) = false →
    pc = (threadOf s n t).pc.toNat → pc % 2 = 0 → mayFetch s n pc 2 = true → poisonHit s pc 2 = none → ofLe (memRead s pc 2) % 4 ≠ 3 →
    expand (ofLe (memRead s pc 2)) = some w → exec (.instructionIssue n t) s = .next (runWord n t w 2 (countReads pc 2 s))) ∧
  (∀ n t w len s a b, w % 128 = 0x33 → iF7 w = 0 → a = regGet (threadOf s n t) (iRs1 w) → b = regGet (threadOf s n t) (iRs2 w) →
    runWord n t w len s = retire n t (iRd w) (alu (iF3 w) false a b) len s) ∧
  (∀ n t w len s k sg x, w % 128 = 0x03 → loadForm (iF3 w) = some (k, sg) → x = (regGet (threadOf s n t) (iRs1 w) + immI w).toNat →
    accessFault s n t x k 0 3 = none → svcRegAccess n t x k = none →
    runWord n t w len s = countReads x k
      (retire n t (iRd w) (if sg then sext (8 * k) (ofLe (memRead s x k)) else BitVec.ofNat 64 (ofLe (memRead s x k))) len s)) ∧
  (∀ n t w len s k x, w % 128 = 0x23 → iF3 w < 4 → k = 2 ^ iF3 w → x = (regGet (threadOf s n t) (iRs1 w) + immS w).toNat →
    accessFault s n t x k 1 4 = none → svcRegAccess n t x k = none →
    runWord n t w len s =
      memWrite (retire n t 0 0 len s) x (le k ((regGet (threadOf s n t) (iRs2 w)).toNat % 2 ^ (8 * k)))) ∧
  (∀ n t s, n ≤ 85 → t < 64 → (threadOf s n t).st = .running → exec (.ecall n t) s = .next (threadFaults n t 8 0 0 s)) ∧
  (∀ n t s, n ≤ 85 → t < 64 → (threadOf s n t).st = .running → exec (.ebreak n t) s =
    .next (match coveringSession s n t with | some k => haltThread n t k s | none => threadFaults n t 9 0 0 s))

/-- The TEST commands (R569, R575), the AGE commands (R558) and the CART commands (R526-R528, R537). -/
def Obligations.CareCommandsAct : Prop :=
  (∀ c s p, accepts opTestRun c s = true → p = c.place → 1 ≤ c.prm 0 1 → c.prm 0 1 ≤ 4 → levelOf p ≠ .region → factoryState s = true →
    (exposureOf s p).isSome = false →
    exec (.testRun c) s = .next (let u := owing opTestRun c p s s
      let (b, u) := if c.prm 0 1 == 2 then someBank p u else (0, u)
      addExposure p (c.prm 0 1) none b true 0 u)) ∧
  (∀ c s p k t u, accepts opTestRun c s = true → p = c.place → k = c.prm 0 1 → 1 ≤ k → k ≤ 4 → levelOf p ≠ .region → factoryState s = false →
    routeOf k p ≠ .none → launchTest p k none s = some t → launchTest p k none (owing opTestRun c p s s) = some u →
    exec (.testRun c) s = .next u) ∧
  (∀ c s, accepts opTestResult c s = true → c.prm 0 2 ≤ 7 →
    exec (.testResult c) s = ends opTestResult c (match (tgetD s.test.records c.place [])[c.prm 0 2]? with
      | some r => [byte r.outcome, 0, 0, 0] ++ le 4 r.time ++ le 8 r.fail
      | none => List.replicate 16 0) s s) ∧
  (∀ c s d, accepts opTestSchedule c s = true → d = c.prm 0 2 → 1 ≤ d → d ≤ 365 →
    exec (.testSchedule c) s = ends opTestSchedule c [] s (if levelOf c.place == .package then
        toFlash 11 0 (le 2 d) (testMod (fun t => { t with period := d }) s)
      else toFlash 11 (1 + clusterIndex c.place) (le 2 d) (testMod (fun t => { t with cperiod := tput t.cperiod c.place d }) s))) ∧
  (∀ c s p, accepts opAgeReport c s = true → p = c.place → isCartSlot p = false → levelOf p ≠ .package →
    (levelOf p = .unit → pCluster p < 24) →
    exec (.ageReport c) s = ends opAgeReport c
      (le 4 (placeYears s p) ++ le 2 (dieAge s (pDie p % 5)).rail ++ [byte (wrap 8 (coveredMargin s p))]) s s) ∧
  (∀ c s, accepts opAgeSheetRead c s = true → c.prm 0 2 ≤ 16383 → c.prm 0 2 < s.age.sheets → 16384 ≤ c.prm 16 4 →
    bufferRefusal s c.queue (c.prm 2 1) (c.prm 8 8) 16384 true = none →
    exec (.ageSheetRead c) s = starts opAgeSheetRead c (bufKey (s.age.sheets - 1 - c.prm 0 2) (c.prm 2 1) (c.prm 8 8)) s s) ∧
  (∀ c s, accepts opAgeSheetTime c s = true → c.prm 0 4 ≤ 86399 →
    exec (.ageSheetTime c) s =
      ends opAgeSheetTime c [] s (ageMod (fun a => { a with sheetTime := c.prm 0 4 }) (toFlash 11 4096 (le 4 (c.prm 0 4)) s))) ∧
  (∀ c s sl x, accepts opCartRead c s = true → sl = placeSlot c.place → x = slotOf s sl →
    exec (.cartRead c) s =
      ends opCartRead c ([byte (stateCode x.st), byte x.cls, byte (litCount x), 0] ++ le 4 (litHours s sl) ++ le 4 x.margin) s s) ∧
  (∀ c s sl, accepts opCartPrepareSwap c s = true → sl = placeSlot c.place → (slotOf s sl).busLost = false → (slotOf s (mateSlot sl)).busLost = false →
    (slotOf s sl).st = .sharing → partnerShort s sl = false →
    exec (.cartPrepareSwap c) s = starts opCartPrepareSwap c sl s (slotMod sl (fun x => { x with st := .rampingDown, step := 0 }) s)) ∧
  (∀ c s sl, accepts opCartCancelSwap c s = true → sl = placeSlot c.place → (slotOf s sl).st = .rampingDown ∨ (slotOf s sl).st = .readyToRemove →
    exec (.cartCancelSwap c) s = .next (rampBack sl (owing opCartCancelSwap c sl s s)))

/-- Events of self-test (R561-R576) and of the ageing governor (R539-R558). -/
def Obligations.TestAgeEventsAct : Prop :=
  (∀ p b s t u, levelOf p = .unit → s.boot.lifecycle = .deployed → s.power.fullService = true → scheduledTarget s p = p →
    t = ((testedUnits p).filter hasRoute).foldl (fun s u => checkOverdue u s) s → dark t p = false ∨ isSpare p = true →
    routeOf 1 p ≠ .none → routeOf 1 p ≠ .drained → pCluster p ≠ 17 → launchTest p 1 (some b) t = some u →
    exec (.scheduledExposure p b) s = .next (testMod (fun t => { t with retry := t.retry.filter (· != p) }) u)) ∧
  (∀ p s sp, levelOf p = .unit → p ∈ s.test.retry → spareFor p = some sp → (ledger s sp).state ≠ .suspect →
    exec (.claimRetryTimer p) s = .next (runScheduled p (firstBank (testMod (fun t => { t with retry := t.retry.filter (· != p) }) s) p)
      (testMod (fun t => { t with retry := t.retry.filter (· != p) }) s))) ∧
  (∀ p pass n fails second cause s e, exposureOf s p = some e → e.begun = true → e.result = none → e.kind = 3 → e.why = 0 → e.spare.isSome = true →
    exec (.exposureTestEnd p pass n fails second cause) s = .next (if n < planned 3 p then endClaim p e (recordOf s e 3 n 0) cause s
      else endClaim p e (recordOf s e (if pass && n == planned 3 p then 1 else 2) n 0) 0 s)) ∧
  (∀ p mon light dev s, levelOf p = .unit ∨ levelOf p = .die →
    exec (.referenceCheck p mon light dev) s = .next (if (if light then 20 else 5) < dev.natAbs then raise 0x2C06 p [mon, sw dev] s else s)) ∧
  (∀ d l z s t, hasDie d = true → s.age.active = true → dieUp s d = true → t = pruneWaiting (takeReads d l z s) →
    (∀ r ∈ l, guardFault t d r.unit = false ∧ needs t d r.unit = false) →
    exec (.governorScan d l z) s = .next (dieAgeMod d (fun x => { x with want := if mayLower t d then 2 else 0 }) t)) ∧
  (∀ d s, hasDie d = true → s.age.active = true → (dieAge s d).awaiting = false → (dieAge s d).held = false → (dieAge s d).want = 1 →
    (dieAge s d).rail < (dieAge s d).ceiling →
    exec (.governorRailStep d) s = .next (setRail d (min (dieAge s d).ceiling ((dieAge s d).rail + 5)) s)) ∧
  (∀ d s, hasDie d = true → s.age.active = true → (dieAge s d).awaiting = false → (dieAge s d).held = false → (dieAge s d).want = 2 →
    705 ≤ (dieAge s d).rail → exec (.governorRailStep d) s = .next (setRail d ((dieAge s d).rail - 5) s)) ∧
  (∀ d mv s x t, hasDie d = true → x = dieAge s d → mv ≤ x.rail + 10 → x.rail ≤ mv + 10 → x.want = 0 →
    t = dieAgeMod d (fun x => { x with held := false })
      (testMod (fun t => { t with railHold := t.railHold.filter (· != d) }) (dieAgeMod d (fun x => { x with awaiting := false }) s)) →
    exec (.railMonitorCheck d mv) s = .next (endRun d (ageMod (fun a => { a with
      units := tmap a.units fun p u => if pDie p == d then { u with margin := marginAt x.rail u.slowdown } else u }) t))) ∧
  (∀ i s, ∃ t, exec (.contactSheet i) s = .next t)

/-- Cartridge, laser and engine events (R517-R534) on an existing slot. -/
def Obligations.CartEventsAct : Prop :=
  (∀ sl serial s t, sl < 16 → (slotOf s sl).presence = false →
    t = slotMod sl (fun x => { x with serial := serial % 2 ^ 128 }) (slotMod sl (fun _ => { st := .settling, presence := true }) s) →
    exec (.cartPresenceAssert sl (some (serial, true))) s = .next (emit (.cart sl 3 (challenge 12 t).1) (challenge 12 t).2) ∧
    exec (.cartPresenceAssert sl (some (serial, false))) s = .next (refuseCart sl 1 t)) ∧
  (∀ sl k s, sl < 16 → (slotOf s sl).st = .settling → 1 ≤ k.cls → k.cls ≤ 2 →
    exec (.cartChallengeResponse sl true k) s = .next (settleCart sl k s) ∧
    exec (.cartChallengeResponse sl false k) s = .next (refuseCart sl 2 s)) ∧
  (∀ sl s, sl < 16 → (slotOf s sl).st = .settling → exec (.cartSettleTimeout sl) s = .next (refuseCart sl 4 s)) ∧
  (∀ sl s t, sl < 16 → (slotOf s sl).st = .rampingDown ∨ ((slotOf s sl).st = .rampingUp ∧ s.power.fullService = true) → (slotOf s sl).step < 63 →
    isRamping (slotOf s (mateSlot sl)) = true → dieUp s (sl / 4 + 1) = true →
    t = slotMod sl (fun x => { x with step := x.step + 1 }) (stepLasers sl (64 - (slotOf s sl).step) s) →
    exec (.cartRampStep sl) s = .next (darkened (sl / 2) sl s t)) ∧
  (∀ sl s, sl < 16 → slotLit (slotOf s sl) = true → (slotOf s sl).latch = false →
    exec (.cartLatchOpen sl) s = .next (lightGone sl (slotMod sl (fun x => { x with latch := true }) s))) ∧
  (∀ sl s, sl < 16 → (slotOf s sl).presence = true → (slotOf s sl).st = .readyToRemove →
    exec (.cartPresenceOpen sl) s = .next (raiseSlot 0x3403 sl [1] (darkened (sl / 2) sl s (slotMod sl (fun _ => {}) (lifeOut sl s))))) ∧
  (∀ sl j s t, sl < 16 → j < 16 → bit (slotOf s sl).working j = true → slotLit (slotOf s sl) = true → lifeOf s (slotOf s sl).serial = none →
    t = slotMod sl (fun x => { x with working := clrBit x.working j, lasers := tmod x.lasers j {} fun l => { l with failed := true } }) (setTarget sl j 0 s) →
    supplies (slotOf (rampBack (mateSlot sl) t) (mateSlot sl)) = false → lifeOf t (slotOf s sl).serial = none →
    (slotOf (replaceDue sl 0 (raiseSlot 0x3404 sl [j, 0] (rampBack (mateSlot sl) t))) sl).working ≠ 0 →
    exec (.laserFailure sl j) s = .next (darkened (sl / 2) sl s (replaceDue sl 0 (raiseSlot 0x3404 sl [j, 0] (rampBack (mateSlot sl) t))))) ∧
  (∀ sl s, sl < 16 → slotLit (slotOf s sl) = true → exec (.cartFatalFault sl) s = .next (cartFails sl s)) ∧
  (∀ e c s t, e < 32 → (engineOf s e).fault = false → t = raise 0x340A (enginePlace e) [e, c]
      (cartMod (fun x => { x with engines := tmod x.engines e {} fun y => { y with fault := true, cause := c % 8 } }) s) →
    exec (.opticalEngineFault e c) s = .next ((List.range 32).foldl (fun s l => portDark (32 * e + l) s) t)) ∧
  (∀ p s, p < 1024 → exec (.laneFault p) s = .next (portDark p (cartMod (fun c => { c with
      engines := tmod c.engines (p / 32) {} fun x => { x with laneFault := setBit x.laneFault (p % 32) } }) s))) ∧
  (∀ sl s, sl < 16 → slotLit (slotOf s sl) = true → (slotOf s sl).busLost = false →
    exec (.cartBusSilence sl) s = .next (raiseSlot 0x340B sl [sl / 4] (slotMod sl (fun x => { x with busLost := true }) s))) ∧
  (∀ sl s, sl < 16 → exec (.cartBusRestored sl) s = .next (slotMod sl (fun x => { x with busLost := false }) s)) ∧
  (∀ sl s, sl < 16 → (slotOf s sl).dueAt.isSome = true → exec (.cartReplaceReminder sl) s = .next (replaceDue sl (slotOf s sl).margin s))

/-- The TWIN commands (R598, R604), the LOG commands (R659, R662), and joint commands (R448, R449). -/
def Obligations.TwinLogCommandsAct : Prop :=
  (∀ c s a, accepts opTwinStatus c s = true → s.twin.hbAt = some a →
    exec (.twinStatus c) s = ends opTwinStatus c
      ([byte (twinCode s.twin.state), byte s.twin.version] ++ le 4 (min (s.time.up - a) (2 ^ 32 - 1)) ++ le 4 s.twin.witnessPath) s s) ∧
  (∀ c s, accepts opTwinWitnessSet c s = true → c.prm 0 1 ≤ 1 → (c.prm 0 1 = 1 → c.prm 4 2 ≤ 1023 ∧ c.prm 6 2 ≤ 1023) →
    exec (.twinWitnessSet c) s = ends opTwinWitnessSet c [] s (toFlash 10 (c.prm 0 1) (c.prmBytes 4 20)
      (twinMod (fun t => { t with witnessStaged := some (c.prm 0 1, c.prm 4 2, c.prm 6 2, c.prm 8 16) }) s))) ∧
  (∀ c s, accepts opTwinHandover c s = true → c.prm 0 1 = 1 → s.twin.state = .protectedSt → s.twin.handover = 0 →
    exec (.twinHandover c) s = .next (startHandover (owing opTwinHandover c 1 s s))) ∧
  (∀ c s, accepts opTwinHandover c s = true → c.prm 0 1 = 0 → s.twin.state = .handedOver →
    exec (.twinHandover c) s = .next (takeBack (owing opTwinHandover c 0 s s))) ∧
  (∀ s, s.twin.handover = 1 → s.twin.state = .protectedSt → exec .handoverDrained s =
    .next (finishKey 0x3803 1 (repOk []) ((allPf0 (setTwin .handedOver 6 s)).foldl (fun s f => signalEvent f s) (setTwin .handedOver 6 s)))) ∧
  (∀ c s n, accepts opLogRead c s = true → n = c.prm 8 2 → 1 ≤ n → n ≤ 4096 →
    bufferRefusal s c.queue (c.prm 10 1) (c.prm 16 8) (64 * n) true = none →
    exec (.logRead c) s = starts opLogRead c (bufKey (c.prm 0 8 + 2 ^ 64 * n) (c.prm 10 1) (c.prm 16 8)) s s) ∧
  (∀ c s, accepts opLogTraceArm c s = true → c.prm 0 1 = 1 →
    exec (.logTraceArm c) s = ends opLogTraceArm c [] s
      (evlogMod (fun l => { l with traces := tput l.traces (clusterIndex c.place) { armed := true, entries := [] } }) s)) ∧
  (∀ c s, accepts opLogTraceArm c s = true → c.prm 0 1 = 0 →
    exec (.logTraceArm c) s = ends opLogTraceArm c [] s (traceFreeze c.place 2 s)) ∧
  (∀ c s, accepts opLogTraceRead c s = true → bufferRefusal s c.queue (c.prm 0 1) (c.prm 8 8) 4096 true = none →
    exec (.logTraceRead c) s = starts opLogTraceRead c (bufKey (clusterIndex c.place) (c.prm 0 1) (c.prm 8 8)) s s) ∧
  (∀ tag status detail result s j t, (s.cmd.joint.find? fun j => j.twinTag == tag) = some j → j.acceptedSent = false →
    t = sendReply j.queue j.tag j.opcode 0 j.epoch (rep stAccepted 0) s →
    exec (.twinReplyReceived tag true status detail result) s = .next { t with
      cmd := { t.cmd with joint := t.cmd.joint.map fun x => if x.twinTag == tag then { x with acceptedSent := true } else x } }) ∧
  (∀ tag status detail result s j, (s.cmd.joint.find? fun j => j.twinTag == tag) = some j → j.opcode ≠ 0x0401 →
    exec (.twinReplyReceived tag false status detail result) s =
      .next (closeJoint { j with there := some { status := status, detail := detail, result := result } } s))

/-- Twin liveness and verdicts (R591-R600, R639) of a paired package. -/
def Obligations.TwinVerdictsAct : Prop :=
  (∀ s l, s.twin.paired = true → s.twin.linkUp = true →
    l = (s.spare.lost.filter fun p => levelOf p == .die || levelOf p == .region).map (fun p => pathOf s p) →
    exec .heartbeatSend s = .next (countTwin 0 1 (sendTwin (.heartbeat s.twin.hbSent (twinCode s.twin.state) (curEpoch s) l)
      (twinMod (fun t => { t with hbSent := s.twin.hbSent + 1 }) s)))) ∧
  (∀ seq st ep lost s t, s.twin.paired = true → s.twin.linkUp = true →
    t = twinMod (fun t => { t with hbAt := some s.time.up, missed := 0, peerState := st, peerEpoch := ep, peerLost := lost, peerSeq := seq }) s →
    s.twin.state = .suspect → s.twin.before = .protectedSt →
    exec (.heartbeatReceived seq st ep lost) s = .next (resumeFix (setTwin .protectedSt 8 (twinMod (fun t => { t with claimOut := false }) t)))) ∧
  (∀ seq st ep lost s, s.twin.paired = true → s.twin.linkUp = true → s.twin.state ≠ .suspect →
    exec (.heartbeatReceived seq st ep lost) s = .next (joinOn st ep (twinMod (fun t => { t with
      hbAt := some s.time.up, missed := 0, peerState := st, peerEpoch := ep, peerLost := lost, peerSeq := seq }) s))) ∧
  (∀ s, s.twin.paired = true → s.twin.state = .protectedSt ∨ s.twin.state = .handedOver →
    exec .heartbeatMissed s = .next (enterSuspect (twinMod (fun t => { t with before := s.twin.state })
      (countTwin 1 3 (twinMod (fun t => { t with missed := t.missed + 3 }) s))))) ∧
  (∀ s, s.twin.paired = true → s.power.fullService = true → s.twin.state = .alone → s.twin.hbAt = none →
    exec .twinAbsentAtStart s = .next (enterSuspect (twinMod (fun t => { t with before := .alone }) s))) ∧
  (∀ s, s.twin.state = .suspect → s.twin.claimOut = true → exec .witnessClaimResend s = .next (witnessSend 2 s)) ∧
  (∀ s, s.twin.paired = true → exec .witnessReport s = .next (witnessSend 1 (applyWitness s))) ∧
  (∀ path seq s, s.twin.state = .suspect → s.twin.witSeen < seq → s.twin.witnessReachable = true →
    exec (.witnessGrant path seq true) s = .next (enterSole 2 (twinMod (fun t => { t with
      witSeen := seq, witnessPath := path % 4, witnessReachable := true }) s)) ∧
    exec (.witnessRefusal path seq true) s = .next (enterFenced 3 (twinMod (fun t => { t with
      witSeen := seq, witnessPath := path % 4, witnessReachable := true }) s))) ∧
  (∀ s, s.twin.state = .suspect →
    exec .verdictTimeout s = .next (if s.flash.package == 0 then enterSole 4 s else enterFenced 4 s)) ∧
  (∀ path s, exec (.twinWitnessLost path) s =
    .next (raise 0x3805 t0Place [path] (twinMod (fun t => { t with witnessReachable := false }) s))) ∧
  (∀ s, s.twin.paired = true → s.twin.state ≠ .alone → s.twin.state ≠ .sole → exec .leaveMessageReceived s = .next (enterSole 5 s))

/-- The twin link (R586-R588), joins (R599, R683), LACP (R590, R598) and SA state (R222). -/
def Obligations.TwinLinkActs : Prop :=
  (∀ k s, k < 32 → s.twin.lanes.getLsbD k = false → exec (.twinLaneUp k) s = .next (setLanes (s.twin.lanes ||| (1#32 <<< k)) s)) ∧
  (∀ k s, k < 32 → s.twin.lanes.getLsbD k = true → exec (.twinLaneFailure k) s = .next (setLanes (s.twin.lanes &&& ~~~(1#32 <<< k)) s)) ∧
  (∀ v system package s u, s.twin.paired = true → s.twin.linkUp = true → bit v 1 = true → system = s.flash.system → package ≠ s.flash.package →
    u = raise 0x3803 t0Place [2] (twinMod (fun t => { t with version := 2, pairKey := [] }) s) →
    exec (.twinLinkUp v system package true none) s = .next (twinMod (fun t => { t with
      pairKey := (List.range 4).flatMap fun k => le 8 (Config.free (u.freeIx + k)).toNat }) { u with freeIx := u.freeIx + 4 })) ∧
  (∀ e base slots s t, s.twin.joinStep = 2 → s.twin.leads = true →
    t = sendTwin (.joinStep 3) (twinMod (fun t => { t with joinStep := 3 }) s) →
    exec (.joinConfigApplied e base slots) s = .next ((joinObjs t).foldl (fun s o => sendTwin (.copy o) s) t)) ∧
  (∀ e base slots s l t, s.twin.joinStep = 2 → s.twin.leads = false →
    l = { base := base.foldl (fun t e => tput t e.1 e.2) []
          slots := slots.foldl (fun t x => tput t x.slot {
            active := x.active, prio := x.prio, recs := x.recs.map fun r => { addr := r.1, value := r.2.1, mask := r.2.2 } }) [] } →
    curEpoch s = e → t = cfgMod (fun c => { c with layers := l, live := match c.live with
      | [] => []
      | e :: r => { e with words := effective l } :: r }) s →
    exec (.joinConfigApplied e base slots) s = .next (sendTwin (.joinStep 2) (twinMod (fun t => { t with joinStep := 3 }) t))) ∧
  (∀ objs s t, s.twin.joinStep = 3 → t = (if s.twin.leads then s else refillGroups (objs.foldl (fun s o => applyObj o s) {
      s with tbl := { s.tbl with entries := [], programs := [], templates := [], groups := [], lags := [] }
             cry := if s.twin.version < 2 then s.cry else
               { s.cry with sas := [], mirror := [], holder := s.cry.holder.filter fun e => 2 ^ 21 ≤ e.1 } })) →
    exec (.joinStateCopied objs) s = .next (sendTwin (.joinStep 4) (twinMod (fun t => { t with joinStep := 4 })
      { t with flow := { t.flow with resync := true, resent := 0 } }))) ∧
  (∀ p system key port s t, p < 1024 → regionUp s (portDie p) (portRegion p) = true → (portGet s p).st = .up →
    (portGet s p).lacp ≠ some (system, key, port) → twinSettled s = true →
    t = portMod p (fun x => { x with lacp := some (system, key, port) }) s →
    exec (.lacpduReceived p system key port) s = .next (faultSignal p (sendsFault s p)
      (checkBack (refillGroups (sendTwin (.lacpInfo p (be 8 system ++ be 2 key)) t))))) ∧
  (∀ p system key s, p < 1024 →
    exec (.twinLacpInfoReceived p system key) s = .next (refillGroups (portMod p (fun x => { x with lacpTwin := some (system, key) }) s))) ∧
  (∀ sa seq seen s a, 2 ≤ s.twin.version → tget s.cry.sas sa = some a → a.inbound = true → a.seq < seq →
    exec (.twinSaStateReceived sa seq seen) s = .next { s with cry := { s.cry with sas := tput s.cry.sas sa { a with seq := seq, seen := seen } } }) ∧
  (∀ sa seq seen s a, 2 ≤ s.twin.version → tget s.cry.sas sa = some a → a.inbound = false →
    exec (.twinSaStateReceived sa seq seen) s = .next { s with cry := { s.cry with mirror := tput s.cry.mirror sa (le 8 seq) } })

/-- Faults, grafts and losses (R29, R37, R42, R51, R194, R582-R585). -/
def Obligations.FaultsAndGraftsAct : Prop :=
  (∀ p s, levelOf p = .unit → exec (.unitHang p) s = exec (.unitFault p) s) ∧
  (∀ p sp s t, levelOf p = .unit → outOfService s p = false → dieUp s (pDie p) = true → dark s p = false → isSpare p = false → unitGraft s p = none → isCartSlot p = false → sparedUnit p = some sp →
    claimSuspect sp p (cloche p s) = some t → exec (.unitFault p) s = .next (beginGraft p sp false false t)) ∧
  (∀ p sp s, levelOf p = .unit → outOfService s p = false → dieUp s (pDie p) = true → dark s p = false → isSpare p = false → unitGraft s p = none → isCartSlot p = false → sparedUnit p = some sp →
    claimSuspect sp p (cloche p s) = none → exec (.unitFault p) s = .next (escalate (clusterOf p) (cloche p s))) ∧
  (∀ p s, levelOf p = .unit → outOfService s p = false → dieUp s (pDie p) = true → dark s p = false → isSpare p = false → unitGraft s p = none → sparedUnit p = none →
    exec (.unitFault p) s = .next (if isCartSlot p && slotLit (slotOf s (placeSlot p)) then cartFails (placeSlot p) (contain p s) else contain p s)) ∧
  (∀ sp g s who, isSpare sp = true → graftOf s sp = some g → g.returning = false → who = place g.source.toNat → pUnit who ≠ 127 → pCluster who ≠ 28 →
    (ledger s sp).state = .suspect → exec (.graftComplete sp) s = .next (resumeBeds (startExposure who 1 (some sp) 1 0 true (dropGraft sp s)))) ∧
  (∀ sp g s who t, isSpare sp = true → graftOf s sp = some g → g.returning = true → who = place g.target.toNat → pUnit who ≠ 127 → pCluster who ≠ 28 →
    t = setLedger sp .free none (unclocheAll who (dropGraft sp s)) → exposureOf t who = none →
    exec (.graftComplete sp) s = .next (resumeBeds (pruneWaiting t))) ∧
  (∀ sp g s who, isSpare sp = true → graftOf s sp = some g → g.returning = false → g.healthy = false → who = place g.source.toNat →
    pUnit who ≠ 127 → exposureOf (dropGraft sp s) who = none →
    exec (.graftTimeout sp) s = .next (escalate (clusterOf who) (ownExposure sp (cloche sp (setLedger sp .free none (dropGraft sp s)))))) ∧
  (∀ p s, levelOf p = .region → pDie p ≠ 0 → exec (.elementLoss p) s = .next (loseRegion (pDie p) (pRegion p) s)) ∧
  (∀ p s, levelOf p = .die → pDie p ≠ 0 → exec (.elementLoss p) s = .next (loseDie (pDie p) s)) ∧
  (∀ p s, levelOf p = .unit → exec (.elementLoss p) s = .next (contain p s)) ∧
  (∀ p s, levelOf p = .cluster → exec (.elementLoss p) s = .next (loseCluster p s)) ∧
  (∀ p n s, levelOf p = .unit → pCluster p = 17 → 117 ≤ pUnit p → outOfService s p = false →
    exec (.dieLinkQuarterFail p n) s = .next (loseQuarter p n s))

/-- Link bring-up and loss (R73-R80) on a port of a region in service; the line shows where the port begins or stops to transmit remote
fault (R74, R80). -/
def Obligations.LinkEventsAct : Prop :=
  (∀ p s, p < 1024 → regionUp s (portDie p) (portRegion p) = true → (portGet s p).st = .searching →
    exec (.rateHuntTimeout p) s = .next (faultSignal p (sendsFault s p) (portMod p (fun x => { x with hunt := rateBelow s p x.hunt }) s))) ∧
  (∀ p r s, p < 1024 → regionUp s (portDie p) (portRegion p) = true → (portGet s p).st = .searching → rateOn s p r = true → laneDark s p = false →
    exec (.receiverLock p r) s = .next (faultSignal p (sendsFault s p) (portMod p (fun x => { x with
      st := .settling, lock := some r, cand := r, rate := r, fec := fecFirst s p r, fecWait := false }) s))) ∧
  (∀ p s, p < 1024 → regionUp s (portDie p) (portRegion p) = true → (portGet s p).st = .searching → (portGet s p).lock = none →
    exec (.candidateDwellExpiry p) s = .next (faultSignal p (sendsFault s p) (portMod p (fun x => { x with cand := rateBelow s p x.cand }) s))) ∧
  (∀ p f s, p < 1024 → regionUp s (portDie p) (portRegion p) = true → (portGet s p).st = .settling → (portGet s p).rate = 2 → f < 3 →
    exec (.fecPartnerIdentified p f) s = .next (faultSignal p (sendsFault s p) (if fecOn s p f then portMod p (fun x => { x with fec := min x.fec f, fecWait := false }) s
      else raise 0x0C03 (macPlace p) [(portGet s p).fec, f] (portMod p (fun x => { x with fecWait := true }) s)))) ∧
  (∀ p s, p < 1024 → regionUp s (portDie p) (portRegion p) = true → (portGet s p).st = .settling → (portGet s p).fecWait = true →
    exec (.fecMismatchWaitExpiry p) s = .next (faultSignal p (sendsFault s p) (startSearch p s))) ∧
  (∀ p s, p < 1024 → regionUp s (portDie p) (portRegion p) = true → (portGet s p).st = .settling → (portGet s p).lock ≠ none →
    hasFault (portGet s p) = false → (portGet s p).fecWait = false → exec (.lockHoldExpiry p) s = .next (faultSignal p (sendsFault s p) (lacpStart p false (linkUp p s)))) ∧
  (∀ p s, p < 1024 → regionUp s (portDie p) (portRegion p) = true → (portGet s p).st = .up → exec (.lockLost p) s = .next (faultSignal p (sendsFault s p) (linkDown p 1 s))) ∧
  (∀ p s, p < 1024 → regionUp s (portDie p) (portRegion p) = true → (portGet s p).st = .up → hasFault (portGet s p) = true →
    exec (.linkFaultPersist p) s =
      .next (faultSignal p (sendsFault s p) (linkDown p (if (portGet s p).localFault then 2 else if (portGet s p).remoteFault then 3 else 4) s))) ∧
  (∀ p s, p < 1024 → regionUp s (portDie p) (portRegion p) = true → (portGet s p).st = .held → (portGet s p).loopHeld = false →
    exec (.heldExpiry p) s = .next (faultSignal p (sendsFault s p) (startSearch p s))) ∧
  (∀ p k s, p < 1024 → regionUp s (portDie p) (portRegion p) = true → k < 3 →
    exec (.linkFaultDetected p k) s = .next (faultSignal p (sendsFault s p) (portMod p (fun x => { x with localFault := x.localFault || k == 0, remoteFault := x.remoteFault || k == 1, highBer := x.highBer || k == 2 }) s))) ∧
  (∀ p k s, p < 1024 → regionUp s (portDie p) (portRegion p) = true → k < 3 →
    exec (.linkFaultCleared p k) s = .next (faultSignal p (sendsFault s p) (portMod p (fun x => { x with localFault := x.localFault && k != 0, remoteFault := x.remoteFault && k != 1, highBer := x.highBer && k != 2 }) s)))

/-- Receive checks with the line's errors (R91-R93, R113), flow control (R101-R106), LLDP with DCBX (R83-R88) and the synchroniser (R71,
R108). -/
def Obligations.PortFramesAct : Prop :=
  (∀ p b line o k i plain s n t, p < 1024 → regionUp s (portDie p) (portRegion p) = true → (portGet s p).st = .up → n = b.length + 4 →
    t = countLine p line s →
    exec (.frameReceived p b line o k i plain) s = .next (faultSignal p (sendsFault s p) (
      if o then countPort p 14 1 (portMod p (fun x => { x with syncRx := x.syncRx + 1 }) t)
      else if n < 64 then countPort p 5 1 t
      else if maxFrame t p < n then countPort p 6 1 t
      else if line.fcsOk = false then countPort p 4 1 t
      else rxAccepted p b k i plain (countRx p n (bit (rd b 0 1) 0) (b.take 6 == List.replicate 6 0xFF) t)))) ∧
  (∀ p s t, p < 1024 → regionUp s (portDie p) (portRegion p) = true → t = fcCheck p s → (portGet t p).st = .up →
    exec (.pfcRefreshTimer p) s =
      .next (faultSignal p (sendsFault s p) (fcSend p (fcMode t p == 1) ((fcPrios t p).filter fun n => bit (portGet t p).xoff n) (fun _ => true) t))) ∧
  (∀ p v l s, p < 1024 → regionUp s (portDie p) (portRegion p) = true → (portGet s p).st = .up →
    exec (.pfcFrameReceived p v l) s = .next (faultSignal p (sendsFault s p) (pfcReceived p v l (countRx p 64 true false s)))) ∧
  (∀ p time s, p < 1024 → regionUp s (portDie p) (portRegion p) = true → (portGet s p).st = .up →
    exec (.pauseFrameReceived p time) s = .next (faultSignal p (sendsFault s p) (pauseReceived p time (countRx p 64 true false s)))) ∧
  (∀ p m s, p < 1024 → regionUp s (portDie p) (portRegion p) = true → exec (.pauseTimeExpiry p m) s =
    .next (faultSignal p (sendsFault s p) (portMod p (fun x => { x with paused := ((List.range 8).filter fun n => bit m n).foldl clrBit x.paused }) s))) ∧
  (∀ p raw s, p < 1024 → regionUp s (portDie p) (portRegion p) = true → (portGet s p).st = .up ∨ (portGet s p).loopHeld = true →
    exec (.lldpFrameReceived p raw) s = .next (faultSignal p (sendsFault s p) (lldpReceived p raw (countRx p (max 64 (raw.length + 18)) true false s)))) ∧
  (∀ p s, p < 1024 → regionUp s (portDie p) (portRegion p) = true → (portGet s p).st = .up →
    exec (.lldpTransmitTimer p) s = .next (faultSignal p (sendsFault s p) (lldpSend p (portMod p (fun x => { x with burst := x.burst - 1 }) s)))) ∧
  (∀ p s, p < 1024 → regionUp s (portDie p) (portRegion p) = true → (portGet s p).st = .up → (portGet s p).dcbxAbsent = false →
    ((portGet s p).partner.bind fun q => q.pfc) = none →
    exec (.dcbxAbsentTimeout p) s = .next (faultSignal p (sendsFault s p) (dcbxApply p (portMod p (fun x => { x with dcbxAbsent := true }) s)))) ∧
  (∀ p s t, p < 1024 → regionUp s (portDie p) (portRegion p) = true → t = portMod p (fun x => { x with partner := none }) s →
    exec (.lldpPartnerAgeout p) s = .next (faultSignal p (sendsFault s p) (if (portGet s p).loopHeld then startSearch p t
      else if ((portGet s p).partner.bind fun q => q.pfc).isSome && (portGet s p).st == .up then dcbxApply p t else t))) ∧
  (∀ p s, p < 1024 → regionUp s (portDie p) (portRegion p) = true → (portGet s p).syncRx ≠ 0 →
    exec (.portSyncOverflow p 1) s = .next (faultSignal p (sendsFault s p) (raise 0x0C0D (macPlace p) [1, (portGet s p).syncRx] (portMod p (fun x => { x with syncRx := 0 }) s)))) ∧
  (∀ p s, p < 1024 → regionUp s (portDie p) (portRegion p) = true → (portGet s p).syncTx ≠ 0 →
    exec (.portSyncOverflow p 2) s = .next (faultSignal p (sendsFault s p) (raise 0x0C0D (macPlace p) [2, (portGet s p).syncTx] (portMod p (fun x => { x with syncTx := 0 }) s))))

/-- Parse passes and fragments (R63, R151, R153), delivery (R175), egress (R186-R193) and the twin (R198). -/
def Obligations.PacketPassesAct : Prop :=
  (∀ g n ecc s k t, g < 16 → n < 5 → pipeRuns s g n = true → takePacket g n s = some (k, t) →
    exec (.parsePass g n ecc) s = .next (retireIdle 4 (passOf g ecc k t))) ∧
  (∀ g key s e h r, g < 16 → fragGet s g key = some e → e.held = h :: r →
    exec (.fragmentHoldTimeout g key) s = .next (retireIdle 4 (toException 3 h.1 (countR g 42 1 (fragPut { e with held := r } s))))) ∧
  (∀ g key s e, g < 16 → fragGet s g key = some e → e.held = [] →
    exec (.fragmentEntryTimeout g key) s = .next (countR g 45 1 (fragDel g key s))) ∧
  (∀ d c prio exc s x r ch w st n t, 1 ≤ d → d ≤ 4 → c < 128 → prio < 8 →
    queueGet s (if exc then exceptionKey d else deliveryKey d c prio) = x :: r → x.dest = .chan ch w → storedOf s x.id = some st →
    t = queueSet (if exc then exceptionKey d else deliveryKey d c prio) r s → n = svcIndex (place w.toNat) → x.kind = .normal →
    outOfService t (svcPlace n) = false → hasCluster (pDie (svcPlace n)) (pRegion (svcPlace n)) (pCluster (svcPlace n)) = true →
    (extItem n ch 1 0 st.pkt.bytes (st.pkt.md.take 32) t).2 = .delivered →
    exec (.channelDelivery d c prio exc) s =
      .next (retireIdle 4 (dropCopy x.id (extItem n ch 1 0 st.pkt.bytes (st.pkt.md.take 32) t).1))) ∧
  (∀ p tx s q d c st def_ t, p < 1024 → regionUp s (portDie p) (portRegion p) = true → (portGet s p).st = .up → macUp s p = true →
    (portPipe s p).isSome = true → schedule s p = some (q, (d, c, st), def_) →
    t = portMod p (fun x => { x with
        deficit := def_, turn := if bit (qReg (queueSet (voqKey d p q) ((queueGet s (voqKey d p q)).drop 1) s) p q) 0
          then (portGet (queueSet (voqKey d p q) ((queueGet s (voqKey d p q)).drop 1) s) p).turn else q
        dieTurn := tput x.dieTurn q (d % 4) })
      (queueSet (voqKey d p q) ((queueGet s (voqKey d p q)).drop 1) s) →
    exec (.egressDequeue p tx) s = .next (retireIdle 4 (dropCopy c.id (sendCopy tx p q c st.pkt t)))) ∧
  (∀ tx p q c k s t, portOpen s p = true → regionUp s (portDie p) (portRegion p) = true → usesSak s p = false → nowUs s ≤ k.arrived + holdUs s → egressProg s p k.epoch c.prog = none →
    t = bucketTake p q (fld (qShape s p q) 0 16) (8 * (k.bytes.length + 24))
      (bucketTake p 8 (fld (portNow s p 0x038) 0 16) (8 * (k.bytes.length + 24)) s) →
    sendCopy tx p q c k s = macTransmit p q tx.underrun k t) ∧
  (∀ p tx s, 1025 ≤ p → p ≤ 1028 → exec (.egressDequeue p tx) s = .next (twinDequeue (p - 1024) s)) ∧
  (∀ g q prog epoch frame s v port k, g < 512 → q < 8 → twinSettled s = true → epoch ∈ lookEpochs s → lagAt s epoch g = some v →
    port = v.table.getD ((drawFree s).1 % 256) 1024 → port < 1024 →
    k = { bytes := frame, inPort := 1028, epoch := epoch, prio := 0, md := le 2 port ++ List.replicate 62 0
          arrived := nowUs s, fromTwin := true } →
    exec (.twinPacketReceived g q prog epoch frame) s =
      .next (enqueue (portDie port) k .normal false [(.port port q, prog)] (countA (portG port) 16 1 (drawFree s).2)).2)

/-- MKA (R209, R214, R216), record caches (R221), ESP (R218-R220) and TLS (R226-R230). What the cited ciphers compute is open (assumption
3). -/
def Obligations.SecurityEventsAct : Prop :=
  (∀ p d s t, p < 1024 → regionUp s (portDie p) (portRegion p) = true → (portGet s p).st = .up →
    t = mkaMod p (fun m => { m with cnt := tadd m.cnt 20 1 }) s → (mkaOf t p).cak ≠ none → runsMka t p = true →
    exec (.mkpduReceived p true d) s =
      .next (faultSignal p (sendsFault s p) (lacpStart p (portOpen s p) (withCak p (mkpduApply p d) t)))) ∧
  (∀ p s, p < 1024 → regionUp s (portDie p) (portRegion p) = true → runsMka s p = true → exec (.mkaHelloTimer p) s =
    .next (faultSignal p (sendsFault s p) (mkaSend p s))) ∧
  (∀ p sci s, p < 1024 → regionUp s (portDie p) (portRegion p) = true → ((mkaOf s p).peers.any fun x => x.sci == sci) = true →
    ((mkaOf s p).peers.all fun x => x.sci == sci) = true → exec (.mkaLifeExpiry p sci) s =
      .next (faultSignal p (sendsFault s p) (mkaRestart p (secureLost p 1 (mkaMod p (dropRx sci) s))))) ∧
  (∀ p sci s l u t, p < 1024 → regionUp s (portDie p) (portRegion p) = true → ((mkaOf s p).peers.any fun x => x.sci == sci) = true →
    l = (mkaOf s p).peers.filter (fun x => x.sci != sci) → l ≠ [] → u = mkaMod p (dropRx sci) s →
    t = mkaMod p (fun m => { m with peers := l, keyServer := isKeyServer u p l }) u →
    exec (.mkaLifeExpiry p sci) s = .next (faultSignal p (sendsFault s p) (if (mkaOf t p).keyServer then distributeSak p t else t))) ∧
  (∀ g s i j r n t, g < 16 → needsRecord s g = some i → (tgetD s.cry.inputs g [])[i]? = some j → r = jobRecord j →
    n = (if r < 2 ^ 21 then 256 else 512) → thas s.cry.holder r = true ∨ (ddr5Up s = true ∧ poisonHit s (recordAddr r) n = none) →
    t = (if thas s.cry.holder r then s else countReads (recordAddr r) n s) → (t.cry.holder.filter fun e => e.2 == g).length < 4096 →
    exec (.cryptoRecordFetch g) s =
      .next (cryMod (fun c => { c with holder := tput s.cry.holder r g }) (countC g (if thas s.cry.holder r then 22 else 21) 1 t))) ∧
  (∀ g s j t a u, g < 16 → takeJob g false false s = some (j, t) → tget t.cry.sas j.index = some a → a.inbound = false → a.keyFault = false →
    a.exhausted = false → u = saAdvance g j.index a (drawFree t).2 →
    exec (.cryptoEncrypt g true) s = .next (retireIdle 4
      (if 9600 < (espSeal (drawFree t).2 a a.seq (drawFree t).1 j.pkt).1.length + 4 then releasePacket j.pkt (countC g 9 1 u)
       else leaveCrypto { j.pkt with bytes := (espSeal (drawFree t).2 a a.seq (drawFree t).1 j.pkt).1, front := frontSealed a j.pkt.front } j.fwd
         (countC g 1 (espSeal (drawFree t).2 a a.seq (drawFree t).1 j.pkt).2 (countC g 0 1 u))))) ∧
  (∀ g plain s j t a x o n len pt inner u, g < 16 → takeJob g false true s = some (j, t) → tget t.cry.sas j.index = some a →
    espAt t j.pkt = some x → o = x.l4 + (if a.udpEncap then 8 else 0) → a.inbound = true → o + 34 ≤ x.stop → rdN j.pkt.bytes o 4 = a.spi →
    a.keyFault = false → n = espSeq a (rdN j.pkt.bytes (o + 4) 4) → replayOk a n = true → len = x.stop - o - 32 → pt = fitTo len plain →
    rd pt (len - 2) 1 + 2 ≤ len → (a.tunnel = true → rd pt (len - 1) 1 = 4 ∨ rd pt (len - 1) 1 = 41) → inner = pt.take (len - 2 - rd pt (len - 2) 1) →
    u = mirrorSa j.index (saMod j.index (fun a => replayAccept a n) t) →
    exec (.cryptoDecrypt g true true plain) s = .next (retireIdle 4 (cryptoReturn { j.pkt with bytes := espOpen a x (etherTypeAt u j.pkt x) j.pkt.bytes inner (rd pt (len - 1) 1) }
      (countC g 3 inner.length (countC g 2 1 u))))) ∧
  (∀ g s j t h x lo hi data out h' c u, g < 16 → takeTls g false s = some (j, t) → tget t.cry.tls (tlsKey j.link j.index 0) = some h →
    h.keyFault = false → h.st ≠ 4 → segmentOf j.pkt = some (x, lo, hi) → rdN j.pkt.bytes (x.l4 + 4) 4 = h.nextTcp →
    data = slice j.pkt.bytes lo (hi - lo) → txBytes (openHalf t h) data = (out, h') →
    tlsCount g j.link j.index 0 data.length (sealHalf h h') t = (c, u) →
    exec (.tlsTxSegment g true) s = .next (retireIdle 4 (leaveCrypto { j.pkt with bytes := tcpFix x (splice j.pkt.bytes lo out) } j.fwd
      (countC g 12 data.length (countC g 11 (c.recSeq - h.recSeq) (putHalf j.link j.index 0 c u)))))) ∧
  (∀ g plain ends s j t h x lo hi data r c u v, g < 16 → takeTls g true s = some (j, t) → tget t.cry.tls (tlsKey j.link j.index 1) = some h →
    h.keyFault = false → h.st = 1 → segmentOf j.pkt = some (x, lo, hi) → rdN j.pkt.bytes (x.l4 + 4) 4 = h.nextTcp →
    data = slice j.pkt.bytes lo (hi - lo) → data ≠ [] → r = rxScan { h := h, ends := ends } data plain → r.cause = 0 →
    tlsCount g j.link j.index 1 r.taken r.h t = (c, u) → v = countC g 15 r.failed (countC g 14 r.taken (countC g 13 r.records u)) →
    exec (.tlsRxSegment g true plain ends) s = .next (retireIdle 4 (cryptoReturn
      { j.pkt with bytes := tcpFix x (splice j.pkt.bytes lo r.out)
                   tls := (4 + 8 * b2n (r.failed == 0) + 16 * b2n (r.failed != 0), r.records, r.firstBad) } (putHalf j.link j.index 1 c v))))

/-- Host links (R273, R291, R292, R294, R299). -/
def Obligations.HostLinkEventsAct : Prop :=
  (∀ link half rate width flit s low t, halfExists s link half = true →
    low = (decide (rate < 64) || decide (width < if isBifurcated s link then 8 else 16)) →
    t = raiseFn 0x1801 (pf0 link half) [half, rate, width, b2n flit] (linkMod link half (fun x => { x with
      up := true, rate := rate, width := width, flit := flit, degraded := low, narrow := false, inL1 := false }) s) →
    exec (.hostLinkTrained link half rate width flit) s =
      .next (if low then raiseFn 0x1803 (pf0 link half) [half, rate, width] t else t)) ∧
  (∀ link half s, halfExists s link half = true →
    exec (.perstAssert link half) s = .next (linkReset link half 1
      { s with power := { s.power with perstHigh := tput s.power.perstHigh (linkKey link half) false } })) ∧
  (∀ link half s, halfExists s link half = true →
    exec (.perstDeassert link half) s = .next { s with power := { s.power with perstHigh := tput s.power.perstHigh (linkKey link half) true } }) ∧
  (∀ link half s, halfExists s link half = true → exec (.hotReset link half) s = .next (linkReset link half 2 s)) ∧
  (∀ link half s, halfExists s link half = true → exec (.hostLinkLoss link half) s = .next (linkReset link half 3 s)) ∧
  (∀ link half status s, halfExists s link half = true →
    exec (.hostFatalError link half status) s = .next (linkReset link half 4 (raiseFn 0x1808 (pf0 link half) [fnRef (pf0 link half), 3, status]
      (toHost (pf0 link half) (.aer (pf0 link half) 3 status) (logAer (pf0 link half) status s))))) ∧
  (∀ link half s, halfExists s link half = true → (linkOf s link half).up = true → (linkOf s link half).l0pEnable = true → readsOut s link half ≤ 64 →
    exec (.l0pNarrow link half) s = .next (linkMod link half (fun x => { x with narrow := true }) s)) ∧
  (∀ link half b s, halfExists s link half = true → (linkOf s link half).up = true → (linkOf s link half).l0pEnable = true →
    exec (.l0pPartnerRequest link half b) s = .next (linkMod link half (fun x => { x with narrow := b }) s)) ∧
  (∀ link half s, halfExists s link half = true → (linkOf s link half).up = true → (linkOf s link half).l1Enable = true →
    readsOut s link half = 0 → linkQueued s link half = false → (linkFns s link half).any (doorbellOpen s) = false →
    exec (.aspmL1Entry link half) s = .next (linkMod link half (fun x => { x with inL1 := true }) s))

/-- Resets, power states and Bus Master Enable of a function (R278, R293, R297, R298, R304, R310). -/
def Obligations.FunctionEventsAct : Prop :=
  (∀ f s t, fnExists s f = true → t = resetFn f (if f.num = 0 then clearVfs f s else s) →
    exec (.functionLevelReset f) s =
      .next (raiseFn 0x1805 f [fnRef f, ((funcOf s f).reads.filter fun r => r.st != 2).length] t)) ∧
  (∀ f s t, halfExists s f.link f.half = true → f.pool < 2 → f.num ≤ 128 → (funcOf s f).resetting = true →
    t = funcMod f (fun g => { g with resetting := false, vf := .disabled }) s →
    (funcOf (if f.num = 0 then mbxRelease (pfCode f) t else t) (pfOf f)).vfDeferred = false →
    exec (.flrComplete f) s = .next (if f.num = 0 then mbxRelease (pfCode f) t else t)) ∧
  (∀ f s t, halfExists s f.link f.half = true → f.pool < 2 → f.num ≤ 128 → 0 < f.num → (funcOf s f).resetting = true →
    t = funcMod f (fun g => { g with resetting := false, vf := .disabled }) s →
    (funcOf t (pfOf f)).vfDeferred = true → vfsResetting t f = false →
    exec (.flrComplete f) s = .next (vfsAppear f t)) ∧
  (∀ f s, fnExists s f = true → exec (.powerStateChange f true) s = .next (funcMod f (fun g => { g with d3 := true }) s)) ∧
  (∀ f s, fnExists s f = true →
    exec (.powerStateChange f false) s = .next (serveLink f.link f.half (resumeIssue f (funcMod f (fun g => { g with d3 := false }) s)))) ∧
  (∀ f s, fnExists s f = true → (f.num = 0 ∨ (funcOf s f).vf ≠ .shuttingDown) →
    exec (.busMasterEnableSet f) s =
      .next (vfActivate f (resumeIssue f (funcMod f (fun g => { g with bme := true, bmePending := false }) s)))) ∧
  (∀ f s, fnExists s f = true → f.num ≠ 0 → (funcOf s f).vf = .shuttingDown →
    exec (.busMasterEnableSet f) s = .next (funcMod f (fun g => { g with bmePending := true }) s)) ∧
  (∀ f s, fnExists s f = true → (funcOf s f).bme = false →
    exec (.busMasterEnableClear f) s = .next (funcMod f (fun g => { g with bmePending := false }) s)) ∧
  (∀ f s n t u, fnExists s f = true → (funcOf s f).bme = true → n = ((funcOf s f).reads.filter fun r => r.st == 0).length →
    t = (channelsOf s fun d => d.ownerKind == 0 && d.owner == f && chActive d).foldl (fun s k => chAbort k 7 s) s →
    u = funcMod f (fun g => { g with bme := false, bmePending := false, reads := g.reads.map fun r => { r with st := max 1 r.st } })
      (((funcOf s f).qps.filter fun e => readPending s f (.qpTx e.1)).foldl (fun s e => qpError f e.1 3 (countQp f e.1 7 1 s)) t) →
    exec (.busMasterEnableClear f) s =
      .next (serveLink f.link f.half (if 0 < n then raiseFn 0x1806 f [fnRef f, n] u else u)))

/-- Reads and accesses of a function (R278, R284-R287, R289, R294-R298). -/
def Obligations.FunctionAccessesAct : Prop :=
  (∀ f tag s r t, ((funcOf s f).reads.find? fun r => r.tag == tag) = some r → r.st = 0 → t = readFailed f r 6 2 2 (dropRead f tag s) →
    exec (.completionTimeout f tag) s = .next (serveLink f.link f.half
      (reportAer f 2 (2 ^ 14) (raiseFn 0x1804 f [fnRef f, readQp r, tag] t)))) ∧
  (∀ f tag s r, ((funcOf s f).reads.find? fun r => r.tag == tag) = some r → r.st ≠ 0 →
    exec (.completionTimeout f tag) s = .next (serveLink f.link f.half (dropRead f tag s))) ∧
  (∀ f tag s r data, fnExists s f = true → ((funcOf s f).reads.find? fun r => r.tag == tag) = some r → r.st = 0 →
    exec (.hostCompletionReceived f tag 3 data) s =
      .next (serveLink f.link f.half (reportAer f 2 (2 ^ 12) (readFailed f r 8 5 6 (dropRead f tag s))))) ∧
  (∀ f tag s r data k, fnExists s f = true → ((funcOf s f).reads.find? fun r => r.tag == tag) = some r → r.st = 0 → r.use = .channel k →
    exec (.hostCompletionReceived f tag 0 data) s = .next (serveLink f.link f.half
      (dmaMod k (fun d => { d with landed := d.landed ++ fitTo r.len data }) (dropRead f tag s)))) ∧
  (∀ f tag status s r data, fnExists s f = true → ((funcOf s f).reads.find? fun r => r.tag == tag) = some r → r.st ≠ 0 →
    exec (.hostCompletionReceived f tag status data) s = .next (serveLink f.link f.half (dropRead f tag s))) ∧
  (∀ f tag status s data, fnExists s f = true → ((funcOf s f).reads.find? fun r => r.tag == tag) = none →
    exec (.hostCompletionReceived f tag status data) s = .next (reportAdvisory f (2 ^ 16) s)) ∧
  (∀ f s, fnExists s f = true →
    exec (.bar0UnsupportedAccess f false) s = .next (toHost f (.completion (linkKey f.link f.half) 1 []) s)) ∧
  (∀ f s, fnExists s f = true → exec (.bar0UnsupportedAccess f true) s = .next (reportAdvisory f (2 ^ 20) s)) ∧
  (∀ f off len s k e a, fnExists s f = true → f.num = 0 → k = 2 ^ s.host.winLog2 → e = tgetD (funcOf s f).active (off / k) 0 →
    0 < len → bit e 0 = true → off / k < 64 → off / k = (off + len - 1) / k → a = fld e 12 36 * 4096 + off % k →
    isMemory a len = true → bit e 1 = true → rangeGrants s (pfCode f) a len false = true → poisonHit s a len = none →
    exec (.bar2Access f off len none) s =
      .next (countReads a len (toHost f (.completion (linkKey f.link f.half) 0 (memRead s a len)) s))) ∧
  (∀ f off len d s k e a, fnExists s f = true → f.num = 0 → k = 2 ^ s.host.winLog2 → e = tgetD (funcOf s f).active (off / k) 0 →
    0 < d.length → bit e 0 = true → off / k < 64 → off / k = (off + d.length - 1) / k → a = fld e 12 36 * 4096 + off % k →
    isMemory a d.length = true → bit e 2 = true → rangeGrants s (pfCode f) a d.length true = true → poisonBlocks s a d.length = false →
    exec (.bar2Access f off len (some d)) s = .next (memWrite s a d)) ∧
  (∀ f s t, fnExists s f = true → f.num = 0 →
    t = emit (.readValue 0x108 (funcOf s f).intxCause) (funcMod f (fun g => { g with intxCause := 0 }) s) →
    exec (.pfIntxCauseRead f) s = .next (if intxOn (funcOf s f) then toHost f (.intx f false) t else t)) ∧
  (∀ f s, fnExists s f = true → f.num = 0 →
    exec (.winCommitComplete f) s = .next (funcMod f (fun g => { g with winBusy := false }) s)) ∧
  (∀ f mask s, fnExists s f = true → f.num = 0 → (funcOf s f).winBusy = false →
    (∀ n < 64, bit mask n = true → winRefuses s f (tgetD (funcOf s f).shadow n 0) = false) →
    exec (.winCommit f mask) s = .next (funcMod f (fun g => { g with
      winBusy := true, winRefused := false, winFirst := 0
      active := ((List.range 64).filter fun n => bit mask n).foldl (fun a n => tput a n (tgetD (funcOf s f).shadow n 0)) g.active }) s)) ∧
  (∀ f mask s n, fnExists s f = true → f.num = 0 → (funcOf s f).winBusy = false →
    (((List.range 64).filter fun n => bit mask n).find? fun n => winRefuses s f (tgetD (funcOf s f).shadow n 0)) = some n →
    exec (.winCommit f mask) s = .next (funcMod f (fun g => { g with winRefused := true, winFirst := n }) s))

/-- Command queues of functions, out-of-band and twin queues (R280, R281, R439, R448). -/
def Obligations.CommandQueuesFetch : Prop :=
  (∀ f q tail data s t c, fnExists s f = true → fnQueueOk f q = true → t = cqMod f q (fun c => { c with tail := tail % 65536 }) s →
    c = cqOf t f q → bit c.cfg 0 = true → c.error = false → cqSize c.cfg < (c.tail + 65536 - c.head) % 65536 →
    exec (.pfCqDb f q tail data true) s = .next (cqError f q 1 t)) ∧
  (∀ f q tail data s t c n, fnExists s f = true → fnQueueOk f q = true → t = cqMod f q (fun c => { c with tail := tail % 65536 }) s →
    c = cqOf t f q → bit c.cfg 0 = true → c.error = false → n = (c.tail + 65536 - c.head) % 65536 → n ≤ cqSize c.cfg → n ≠ 0 →
    rqRoom c = true → fnRuns t f = true → canIssue t f = true → exec (.pfCqDb f q tail data false) s = .next (cqError f q 2 t)) ∧
  (∀ f q tail data s t c n l m, fnExists s f = true → fnQueueOk f q = true → t = cqMod f q (fun c => { c with tail := tail % 65536 }) s →
    c = cqOf t f q → bit c.cfg 0 = true → c.error = false → n = (c.tail + 65536 - c.head) % 65536 → n ≤ cqSize c.cfg → n ≠ 0 →
    rqRoom c = true → fnRuns t f = true → canIssue t f = true → ringTake (fnQueue f q) n c.head data n = (l, m, false) →
    exec (.pfCqDb f q tail data true) s = .next (submit l (cqMod f q (fun c => { c with head := (c.head + m) % 65536 }) t))) ∧
  (∀ f q cfg data s t c, fnExists s f = true → fnQueueOk f q = true → cqRunning s f q = false → cqCfgOk s f cfg = true →
    t = cqMod f q (fun c => { c with cfg := setBit (and32 cfg 0x3FFF3) 0, running := true, error := false, cause := 0 }) s →
    c = cqOf t f q → bit c.cfg 0 = true → c.error = false → (c.tail + 65536 - c.head) % 65536 = 0 →
    exec (.pfCqEnable f q cfg data true) s = .next t) ∧
  (∀ f q cfg data s t c n l m, fnExists s f = true → fnQueueOk f q = true → cqRunning s f q = false → cqCfgOk s f cfg = true →
    t = cqMod f q (fun c => { c with cfg := setBit (and32 cfg 0x3FFF3) 0, running := true, error := false, cause := 0 }) s →
    c = cqOf t f q → bit c.cfg 0 = true → c.error = false → n = (c.tail + 65536 - c.head) % 65536 → n ≤ cqSize c.cfg → n ≠ 0 →
    rqRoom c = true → fnRuns t f = true → canIssue t f = true → ringTake (fnQueue f q) n c.head data n = (l, m, false) →
    exec (.pfCqEnable f q cfg data true) s = .next (submit l (cqMod f q (fun c => { c with head := (c.head + m) % 65536 }) t))) ∧
  (∀ f q cfg s, fnExists s f = true → fnQueueOk f q = true → bit (cqOf s f q).cfg 0 = true → cqCfgOk s f cfg = true →
    exec (.pfCqDisable f q cfg) s = .next (cqMod f q (fun c => { c with cfg := clrBit (and32 cfg 0x3FFF3) 0, running := true }) s)) ∧
  (∀ f q i data ok s t u, fnExists s f = true → fnQueueOk f q = true → t = cqMod f q (fun c => { c with rqHead := i % 65536 }) s →
    u = flushReplies f q ((cqOf t f q).backlog.length + 1) t → (cqOf u f q).tail = (cqOf u f q).head → (cqOf u f q).head < 65536 →
    exec (.pfCqRqHead f q i data ok) s = .next u) ∧
  (∀ q body s op c, q < 4 → cmdOf (.oob q) 0 body = (op, c) → queueBusy s (.oob q) < 16 → 64 * slotsTaken c.slots ≤ body.length →
    exec (.oobCommandMessage q body) s = .next (submit [(op, c)] s)) ∧
  (∀ op tag flags target epoch params s,
    exec (.twinForwardedCommand op tag flags target epoch params) s = .next (submit [(op, {
      queue := .twin 0, tag := BitVec.ofNat 16 tag, target := target, epoch := epoch, flags := byte flags
      slots := max 1 (min 16 (ceilDiv (16 + params.length) 64)), rsvd := 0, params := params, slotAt := 0 })] s))

/-- Controllers (R355-R358). -/
def Obligations.NvmeControllerActs : Prop :=
  (∀ f cc s, isNvme s f = true → ccEnabled (nvmeOf s f) = false → bit cc 0 = true →
    exec (.nvmeCcEnable f cc) s = .next (nvmeMod f (fun n => { n with
      cc := and32 cc ccMask, ready := storageUp s, shst := 0, aers := [], changed := [], noticed := false, held := []
      sqs := [(0, { base := (nvmeOf s f).asq, size := fld (nvmeOf s f).aqa 0 12 + 1, cq := 0, tail := 0, head := 0 })]
      cqs := [(0, { base := (nvmeOf s f).acq, size := fld (nvmeOf s f).aqa 16 12 + 1, vector := 0, ien := true, tail := 0, head := 0
                    phase := true, since := 0, timer := false })] }) s)) ∧
  (∀ f cc s, isNvme s f = true → ccEnabled (nvmeOf s f) = true →
    (bit cc 0 = false → exec (.nvmeCcDisable f cc) s =
      .next (nvmeMod f (fun n => { cc := and32 cc ccMask, aqa := n.aqa, asq := n.asq, acq := n.acq }) (orphanCmds (.controller f) s))) ∧
    (bit cc 0 = true → fld cc 14 2 = 1 ∨ fld cc 14 2 = 2 → (nvmeOf s f).shst = 0 → exec (.nvmeCcShutdown f cc) s =
      .next (settleShn f (nvmeMod f (fun n => { n with cc := and32 cc ccMask, shst := 1 }) s)))) ∧
  (∀ f q v s x, isNvme s f = true → tget (nvmeOf s f).sqs q = some x → v < x.size → v < 65536 →
    exec (.nvmeSqDoorbell f q v) s = .next (sqMod f q (fun x => { x with tail := v }) s)) ∧
  (∀ f q v s x, isNvme s f = true → tget (nvmeOf s f).cqs q = some x → v < x.size → v < 65536 →
    exec (.nvmeCqDoorbell f q v) s = .next (ncqFlush f q (ncqMod f q (fun x => { x with head := v, timer := v != x.tail }) s)))

/-- Admin commands (R354, R356, R357, R370). The layouts are those of NVM Express (assumption 34). -/
def Obligations.NvmeAdminCommandsAct : Prop :=
  (∀ f entry list s e t l, nvmeMay s f 0 = true → e = fitTo 64 entry → fld (rd e 1 1) 6 2 = 0 → t = takeEntry f 0 s →
    enOpc e = 0x06 → fld (enDw e 10) 0 8 = 1 →
    dataSegs (nvmePage (nvmeOf t f)) e list identifyController.length = .inr l →
    exec (.nvmeIdentify f entry list) s = .next (nvmeComplete f 0 (enCid e) 0 0 (fillSegs f l identifyController t))) ∧
  (∀ f entry list s e t l a n, nvmeMay s f 0 = true → e = fitTo 64 entry → fld (rd e 1 1) 6 2 = 0 → t = takeEntry f 0 s →
    enOpc e = 0x06 → fld (enDw e 10) 0 8 = 0 → enNsid e ≠ 0 → enNsid e ≤ 1024 → attachOf t (.controller f) (enNsid e) = some a →
    tget t.sto.nss a.ns = some n → dataSegs (nvmePage (nvmeOf t f)) e list (identifyNs n).length = .inr l →
    exec (.nvmeIdentify f entry list) s = .next (nvmeComplete f 0 (enCid e) 0 0 (fillSegs f l (identifyNs n) t))) ∧
  (∀ f entry list s e t l d, nvmeMay s f 0 = true → e = fitTo 64 entry → fld (rd e 1 1) 6 2 = 0 → t = takeEntry f 0 s →
    enOpc e = 0x02 → fld (enDw e 10) 0 8 = 4 → bit (enDw e 10) 15 = false →
    d = slice ((nvmeOf t f).changed.flatMap fun i => le 4 i) (rd e 48 8) (4 * (fld (enDw e 10) 16 16 + 65536 * fld (enDw e 11) 0 16 + 1)) →
    dataSegs (nvmePage (nvmeOf t f)) e list d.length = .inr l →
    exec (.nvmeGetLogPage f entry list) s = .next (nvmeComplete f 0 (enCid e) 0 0
      (nvmeMod f (fun n => { n with changed := [], noticed := false }) (fillSegs f l d t)))) ∧
  (∀ f entry list s e t l d, nvmeMay s f 0 = true → e = fitTo 64 entry → fld (rd e 1 1) 6 2 = 0 → t = takeEntry f 0 s →
    enOpc e = 0x02 → fld (enDw e 10) 0 8 = 1 →
    d = slice [] (rd e 48 8) (4 * (fld (enDw e 10) 16 16 + 65536 * fld (enDw e 11) 0 16 + 1)) →
    dataSegs (nvmePage (nvmeOf t f)) e list d.length = .inr l →
    exec (.nvmeGetLogPage f entry list) s = .next (nvmeComplete f 0 (enCid e) 0 0 (fillSegs f l d t))) ∧
  (∀ f entry s e t, nvmeMay s f 0 = true → e = fitTo 64 entry → fld (rd e 1 1) 6 2 = 0 → t = takeEntry f 0 s →
    enOpc e = 0x09 → bit (enDw e 10) 31 = false → fld (enDw e 10) 0 8 = 7 → hasIoQueue (nvmeOf t f) = false →
    exec (.nvmeSetFeatures f entry) s = .next (nvmeComplete f 0 (enCid e) ((shareQ t f - 1) * 65537) 0 t)) ∧
  (∀ f entry s e t, nvmeMay s f 0 = true → e = fitTo 64 entry → fld (rd e 1 1) 6 2 = 0 → t = takeEntry f 0 s →
    enOpc e = 0x09 → bit (enDw e 10) 31 = false → fld (enDw e 10) 0 8 = 7 → hasIoQueue (nvmeOf t f) = true →
    exec (.nvmeSetFeatures f entry) s = .next (nvmeComplete f 0 (enCid e) 0 0x0C t)) ∧
  (∀ f entry s e t, nvmeMay s f 0 = true → e = fitTo 64 entry → fld (rd e 1 1) 6 2 = 0 → t = takeEntry f 0 s →
    enOpc e = 0x09 → bit (enDw e 10) 31 = false → fld (enDw e 10) 0 8 = 8 →
    exec (.nvmeSetFeatures f entry) s =
      .next (nvmeComplete f 0 (enCid e) 0 0 (nvmeMod f (fun n => { n with coalesce := enDw e 11 % 65536 }) t))) ∧
  (∀ f entry s e t, nvmeMay s f 0 = true → e = fitTo 64 entry → fld (rd e 1 1) 6 2 = 0 → t = takeEntry f 0 s →
    enOpc e = 0x09 → bit (enDw e 10) 31 = false → fld (enDw e 10) 0 8 = 11 →
    exec (.nvmeSetFeatures f entry) s =
      .next (nvmeComplete f 0 (enCid e) 0 0 (nsNotice f (nvmeMod f (fun n => { n with asyncCfg := enDw e 11 }) t)))) ∧
  (∀ f entry s e t, nvmeMay s f 0 = true → e = fitTo 64 entry → fld (rd e 1 1) 6 2 = 0 → t = takeEntry f 0 s →
    enOpc e = 0x0A → fld (enDw e 10) 8 3 = 0 → fld (enDw e 10) 0 8 = 7 →
    exec (.nvmeGetFeatures f entry) s = .next (nvmeComplete f 0 (enCid e) ((shareQ t f - 1) * 65537) 0 t)) ∧
  (∀ f entry s e t, nvmeMay s f 0 = true → e = fitTo 64 entry → fld (rd e 1 1) 6 2 = 0 → t = takeEntry f 0 s →
    enOpc e = 0x0A → fld (enDw e 10) 8 3 = 0 → fld (enDw e 10) 0 8 = 8 →
    exec (.nvmeGetFeatures f entry) s = .next (nvmeComplete f 0 (enCid e) (nvmeOf t f).coalesce 0 t)) ∧
  (∀ f entry s e t, nvmeMay s f 0 = true → e = fitTo 64 entry → fld (rd e 1 1) 6 2 = 0 → t = takeEntry f 0 s →
    enOpc e = 0x0A → fld (enDw e 10) 8 3 = 0 → fld (enDw e 10) 0 8 = 11 →
    exec (.nvmeGetFeatures f entry) s = .next (nvmeComplete f 0 (enCid e) (nvmeOf t f).asyncCfg 0 t)) ∧
  (∀ f entry s e t, nvmeMay s f 0 = true → e = fitTo 64 entry → fld (rd e 1 1) 6 2 = 0 → t = takeEntry f 0 s →
    enOpc e = 0x08 → (t.sto.cmds.find? fun c => c.who == .controller f && c.sq == fld (enDw e 10) 0 16 &&
        c.cid == fld (enDw e 10) 16 16 && !c.sent && !c.unknown && !c.orphan) = none →
    exec (.nvmeAbort f entry) s = .next (nvmeComplete f 0 (enCid e) 1 0 t)) ∧
  (∀ f entry s e t c, nvmeMay s f 0 = true → e = fitTo 64 entry → fld (rd e 1 1) 6 2 = 0 → t = takeEntry f 0 s →
    enOpc e = 0x08 → (t.sto.cmds.find? fun c => c.who == .controller f && c.sq == fld (enDw e 10) 0 16 &&
        c.cid == fld (enDw e 10) 16 16 && !c.sent && !c.unknown && !c.orphan) = some c →
    exec (.nvmeAbort f entry) s = .next (nvmeComplete f 0 (enCid e) 0 0 (endCmd c 0 0x07 t))) ∧
  (∀ f entry s e t, nvmeMay s f 0 = true → e = fitTo 64 entry → fld (rd e 1 1) 6 2 = 0 → t = takeEntry f 0 s →
    enOpc e = 0x0C →
    exec (.nvmeAsyncEventRequest f entry) s =
      .next (nsNotice f (nvmeMod f (fun n => { n with aers := n.aers ++ [enCid e] }) t)))

/-- The queue commands of an NVMe controller (R354, R356). The layouts are those of NVM Express (assumption 34). -/
def Obligations.NvmeQueueCommandsAct : Prop :=
  (∀ f entry s e t q size v, nvmeMay s f 0 = true → e = fitTo 64 entry → fld (rd e 1 1) 6 2 = 0 → t = takeEntry f 0 s →
    enOpc e = 0x05 → q = fld (enDw e 10) 0 16 → q ≠ 0 → q ≤ shareQ t f → size = fld (enDw e 10) 16 16 + 1 → v = fld (enDw e 11) 16 16 →
    2 ≤ size → size ≤ 4096 → bit (enDw e 11) 0 = true → rd e 24 8 % nvmePage (nvmeOf t f) = 0 →
    thas (nvmeOf t f).cqs q = false → v < shareV t f →
    exec (.nvmeCreateIoCq f entry) s = .next (nvmeComplete f 0 (enCid e) 0 0 (nvmeMod f (fun n => { n with cqs := tput n.cqs q {
      base := rd e 24 8, size := size, vector := v, ien := bit (enDw e 11) 1, tail := 0, head := 0, phase := true, since := 0,
      timer := false } }) t))) ∧
  (∀ f entry s e t q size v, nvmeMay s f 0 = true → e = fitTo 64 entry → fld (rd e 1 1) 6 2 = 0 → t = takeEntry f 0 s →
    enOpc e = 0x01 → q = fld (enDw e 10) 0 16 → q ≠ 0 → q ≤ shareQ t f → size = fld (enDw e 10) 16 16 + 1 → v = fld (enDw e 11) 16 16 →
    2 ≤ size → size ≤ 4096 → bit (enDw e 11) 0 = true → rd e 24 8 % nvmePage (nvmeOf t f) = 0 →
    thas (nvmeOf t f).sqs q = false → v ≠ 0 → thas (nvmeOf t f).cqs v = true →
    exec (.nvmeCreateIoSq f entry) s = .next (nvmeComplete f 0 (enCid e) 0 0 (nvmeMod f (fun n => { n with sqs := tput n.sqs q {
      base := rd e 24 8, size := size, cq := v, tail := 0, head := 0 } }) t))) ∧
  (∀ f entry s e t q mine u, nvmeMay s f 0 = true → e = fitTo 64 entry → fld (rd e 1 1) 6 2 = 0 → t = takeEntry f 0 s →
    enOpc e = 0x00 → q = fld (enDw e 10) 0 16 → q ≠ 0 → q ≤ shareQ t f → thas (nvmeOf t f).sqs q = true →
    mine = (fun (c : StoCmd) => c.who == .controller f && c.sq == q && !c.orphan) →
    u = (t.sto.cmds.filter mine).foldl (fun s c => nvmeComplete f q c.cid 0 0x08 s) t →
    exec (.nvmeDeleteIoSq f entry) s = .next (nvmeComplete f 0 (enCid e) 0 0 (nvmeMod f (fun n => { n with sqs := tdel n.sqs q })
      (stoMod (fun x => { x with cmds := (x.cmds.filter fun c => !mine c || c.sent || c.unknown).map fun c =>
        (if mine c then { c with orphan := true } else c) }) u)))) ∧
  (∀ f entry s e t q, nvmeMay s f 0 = true → e = fitTo 64 entry → fld (rd e 1 1) 6 2 = 0 → t = takeEntry f 0 s →
    enOpc e = 0x04 → q = fld (enDw e 10) 0 16 → q ≠ 0 → q ≤ shareQ t f → thas (nvmeOf t f).cqs q = true →
    ((nvmeOf t f).sqs.any fun x => x.2.cq == q) = false →
    exec (.nvmeDeleteIoCq f entry) s = .next (nvmeComplete f 0 (enCid e) 0 0
      (nvmeMod f (fun n => { n with cqs := tdel n.cqs q, held := n.held.filter fun x => x.1 != q }) t)))

/-- I/O commands (R354, R363, R366, R369, R373-R375, R427). -/
def Obligations.StorageCommandsAct : Prop :=
  (∀ f q entry list s e t a n c, q ≠ 0 → nvmeMay s f q = true → nsFull s f entry = false → e = fitTo 64 entry → t = takeEntry f q s →
    attachOf t (.controller f) (enNsid e) = some a → tget t.sto.nss a.ns = some n → nsShown t n = 1 ∨ nsShown t n = 2 →
    c = { id := 0, who := .controller f, sq := q, cid := enCid e, ns := a.ns, opc := enOpc e, ranges := rangesOf e [], path := 0, conn := 0
          sent := false, unknown := false, orphan := false, entry := e, data := [], segs := [], md := rd e 16 8 } →
    (enOpc e = 0 → exec (.nvmeFlush f q entry) s = .next (holdCmd c t)) ∧
    (enOpc e = 8 → a.write = true → exec (.nvmeWriteZeroes f q entry) s = .next (holdCmd c t)) ∧
    (∀ d, enOpc e = 9 → a.write = true → exec (.nvmeDatasetManagement f q entry (some d)) s =
      .next (holdCmd { c with ranges := rangesOf e d, data := fitTo (16 * (fld (enDw e 10) 0 8 + 1)) d } t)) ∧
    (∀ l, dataLen n e ≤ 1048576 → hostSegs t f e list n = .inr l →
      (enOpc e = 2 → exec (.nvmeRead f q entry list) s = .next (holdCmd { c with segs := l } t)) ∧
      (∀ d b, enOpc e = 1 → a.write = true → writeData n e d = .inl b →
        exec (.nvmeWrite f q entry list (some d)) s = .next (holdCmd { c with segs := l, data := b } t)) ∧
      (∀ d b, enOpc e = 5 → writeData n e d = .inl b →
        exec (.nvmeCompare f q entry list (some d)) s = .next (holdCmd { c with segs := l, data := b } t)))) ∧
  (∀ b entry s e a n l, b < 32 → storageUp s = true → e = fitTo 64 entry → enOpc e = 2 → attachOf s (.bed b) (enNsid e) = some a →
    tget s.sto.nss a.ns = some n → bedSegs s b e n = .inr l → dataLen n e ≤ 1048576 → nsShown s n = 1 ∨ nsShown s n = 2 →
    exec (.bedStorageSubmit b entry) s = .next (holdCmd
      { id := 0, who := .bed b, sq := 0, cid := enCid e, ns := a.ns, opc := 2, ranges := rangesOf e []
        path := 0, conn := 0, sent := false, unknown := false, orphan := false, entry := e, data := [], segs := l, md := rd e 16 8 } s)) ∧
  (∀ id dw0 st data plain s c, (s.sto.cmds.find? fun c => c.id == id && c.sent) = some c →
    (fld st 8 3 = 3 → exec (.targetResponse id dw0 st data plain false) s = .next (pumpNs c.ns (stoMod (fun x => { x with cmds := x.cmds.map fun d =>
      if d.id == id then { d with sent := false, unknown := true } else d }) s))) ∧
    (fld st 8 3 ≠ 3 → c.opc ≠ 2 → exec (.targetResponse id dw0 st data plain false) s = .next (pumpNs c.ns (endCmd c dw0 (st % 2 ^ 15) s))) ∧
    ∀ n d pi, fld st 0 11 = 0 → fld st 8 3 ≠ 3 → c.opc = 2 → c.orphan = false → tget s.sto.nss c.ns = some n → readData n c.entry data plain = .inl (d, pi) →
      exec (.targetResponse id dw0 st data plain false) s =
        .next (pumpNs c.ns (endCmd c dw0 (if (deliver c d pi s).1 then st % 2 ^ 15 else 0x06) (deliver c d pi s).2)))

/-- Paths and holds (R360, R361, R364, R367). -/
def Obligations.StoragePathEventsAct : Prop :=
  (∀ p ids s x t, tget s.sto.paths p = some x → x.st ≠ .live → storageUp s = true →
    t = raise 0x2401 (stoPlace p) [p, x.conns + 1] (pathMod p (fun x => { x with
      st := .live, liveConns := x.conns + 1, attempts := 0, interval := 1, nextConn := 0, idents := ids }) s) →
    exec (.stoPathUp p ids) s = .next (pumpAll (t.sto.nss.foldl (fun s e => nsMeets p ids s e.1) t))) ∧
  (∀ p s x down, tget s.sto.paths p = some x → x.st = .live →
    down = (fun cause => (
      let t := stoMod (fun y => { y with cmds := y.cmds.map fun c => if c.sent && c.path == p then { c with sent := false, unknown := true } else c })
        (raise 0x2402 (stoPlace p) [p, cause, pathSent s p] (pathMod p (fun x => { x with st := .down, liveConns := 0, attempts := 0, interval := 1 }) s))
      pumpAll (t.sto.nss.foldl (fun s e => if e.2.st == 1 && (livePaths s e.2).isEmpty then nsSet e.1 2 s else s) t))) →
    exec (.pathConnectionError p) s = .next (down 1) ∧ exec (.keepAliveTimeout p) s = .next (down 2) ∧
    (pathSent s p ≠ 0 → exec (.ioTimeout p) s = .next (down 3)) ∧ (x.transport = 1 → exec (.roceRetryExhausted p) s = .next (down 4)) ∧
    exec (.targetFatalStatus p) s = .next (down 5)) ∧
  (∀ p s x, tget s.sto.paths p = some x → x.st ≠ .live → storageUp s = true →
    exec (.pathReconnectTimer p) s = .next (pathConnect p (pathMod p (fun x => { x with attempts := x.attempts + 1, interval := min 32 (2 * x.interval) }) s))) ∧
  (∀ i s n, tget s.sto.nss i = some n → n.st = 2 → exec (.namespaceHoldExpiry i) s =
    .next (nsSet i 3 ((s.sto.cmds.filter fun c => c.ns == i && !c.sent).foldl (fun s c => endCmd c 0 0x82 s) s)))

/-- Mailboxes (R488-R491). -/
def Obligations.MailboxesAct : Prop :=
  (∀ c len s, c < 32 → (mbxSender s c).isSome = true →
    ((mbxOf s c).recvReset = true → exec (.mbxSend c len) s = .next (signalSender c 5 (mbxMod c (fun m => { m with aborted := true }) s))) ∧
    ((mbxOf s c).recvReset = false → len = 0 ∨ 64 < len ∨ (mbxOf s c).full = true →
      exec (.mbxSend c len) s = .next (signalSender c 4 (mbxMod c (fun m => { m with refused := true }) s))) ∧
    ((mbxOf s c).recvReset = false → 1 ≤ len → len ≤ 64 → (mbxOf s c).full = false →
      exec (.mbxSend c len) s = .next (signalReceiver c 1 (mbxMod c (fun m => { m with msg := fitTo len m.staging, full := true }) s))) ∧
    ∀ w t, t = mbxMod c (fun m => { m with db := m.db ||| w }) s →
      exec (.mbxDbSet c w) s = .next (if w &&& ~~~(mbxOf t c).mask ≠ 0 then signalReceiver c 2 t else t)) ∧
  (∀ c off len s t, c < 32 → t = emit (.readValue (0x00CC00000000 + 0x100 * c + off) (rd (fitTo 64 (mbxOf s c).msg) off len)) s →
    (off ≤ 63 → 63 < off + len → (mbxOf s c).full = true →
      exec (.mbxMsgRead c off len) s = .next (signalSender c 3 (mbxMod c (fun m => { m with full := false }) t))) ∧
    (63 < off ∨ off + len ≤ 63 ∨ (mbxOf s c).full = false → exec (.mbxMsgRead c off len) s = .next t)) ∧
  (∀ c w s, c < 32 → (mbxReceiver s c).isSome = true →
    exec (.mbxDbClear c w) s = .next (mbxMod c (fun m => { m with db := m.db &&& ~~~w }) s) ∧
    ∀ t, t = mbxMod c (fun m => { m with mask := w }) s →
      exec (.mbxDbMaskWrite c w) s = .next (if ((mbxOf s c).mask &&& ~~~w) &&& (mbxOf t c).db ≠ 0 then signalReceiver c 2 t else t))

/-- Memory events (R496-R508). -/
def Obligations.MemoryEventsAct : Prop :=
  (∀ chs s at_ cause present good used speed t u, s.mem.trained = [] → s.boot.romDone = true →
    at_ = (fun c => chs.getD c { slot0 := none, slot1 := none, speed := 0 }) → cause = (fun c => memCause (memCh s c).mark (memRef chs) (at_ c)) →
    present = ((List.range 12).filter fun c => spdDimms (at_ c) != 0) → good = (present.filter fun c => cause c == 0) →
    used = (if good.length < 3 then [] else good) → speed = used.foldl (fun m c => if m == 0 then (at_ c).speed else min m (at_ c).speed) 0 →
    t = (present.filter fun c => cause c != 0).foldl (fun s c => raise 0x3042 (memPlace c) [cause c] s)
      (memMod (fun m => { m with speed := speed, trained := used }) (present.foldl (fun s c => memChMod c (fun x => { x with
        st := if used.contains c then 1 else 2, dimms := spdDimms (at_ c), cause := cause c, gib := (spdKind (at_ c)).1 }) s) s)) →
    u = used.foldl (fun s c => raise 0x3041 (memPlace c) [speed, spdDimms (at_ c), spdDimms (at_ c) * (spdKind (at_ c)).1] s) t →
    exec (.memTrained chs) s = .next (if used.isEmpty then u else
      let v := { u with power := { u.power with areaKept := u.power.selfRefresh && memShape u == u.mem.before, selfRefresh := false } }
      logIntoDdr5 (if u.power.selfRefresh && memShape u == u.mem.before then v else zeroKept v))) ∧
  (∀ a slot sub dev s c t, ddr5Up s = true → c = channelAt s a → (memCh s c).st = 1 → 0x400000000000 ≤ a → t = countMem c 0 1 s →
    exec (.patrolScrubRead a 0 slot sub dev false) s = .next t ∧ exec (.patrolScrubRead a 0 slot sub dev true) s = .next (countMem c 4 1 t) ∧
    exec (.patrolScrubRead a 1 slot sub dev false) s = .next (memCe a slot sub dev (countMem c 5 1 (countMem c 1 1 t))) ∧
    exec (.patrolScrubRead a 2 slot sub dev false) s = .next (memUe a slot t)) ∧
  (∀ c slot temp s halved t, c < 12 → slot < 2 → halved = (decide (95 < temp) || (bit (tgetD (memCh s c).hot slot 0) 1 && decide (90 ≤ temp))) →
    t = memChMod c (fun m => { m with
      hot := tput m.hot slot (b2n (decide (85 < temp)) + 2 * b2n halved), tmax := tput m.tmax slot (max temp (tgetD m.tmax slot 0)) }) s →
    exec (.dimmThermalRead c slot temp) s =
      .next (if halved && !bit (tgetD (memCh s c).hot slot 0) 1 then raise 0x3047 (memPlace c) [slot, temp] t else t)) ∧
  (∀ c k s act t, c < 12 → (memCh s c).st = 1 → act = (twinProtected s && s.mem.autoHandover) →
    t = raise 0x3046 (memPlace c) [k, b2n act] (toFlash 12 c [1] (memChMod c (fun x => { x with st := 3, cause := k, mark := true }) s)) →
    exec (.memoryChannelFailure c k) s =
      .next (if act then startHandover { t with power := { t.power with restartDue := some 5 } } else stopWindowBeds t))

/-- Power and starts (R425, R452, R453, R610-R646). -/
def Obligations.PowerRowsAct : Prop :=
  (∀ ref rst shdn s t, s.power.pwrOk = false → t = powerMod (fun p => { p with
      pwrOk := true, resetN := rst, shdnReqN := shdn, tkRefSel := ref, cause := if s.therm.trip.isSome then 6 else 1 }) (powerUpState s) →
    exec (.pwrOkRise ref rst shdn) s = .next (if rst then romStart t else t)) ∧
  (∀ s, s.power.pwrOk = true →
    exec .pwrOkFall s = .next (powerMod (fun p => { p with pwrOk := false, fullService := false })
      (bootMod (fun b => { b with romDone := false, recovery := false }) (losePackage s))) ∧
    (s.power.resetN = true → exec .resetNAssert s = .next (powerMod (fun p => { p with resetN := false, startAt := s.time.up }) (beginRestart 2 s))) ∧
    (s.power.resetN = false → ∀ b, exec (.resetNRelease b) s = .next (romStart (powerMod (fun p => { p with resetN := true, shdnReqN := b }) s))) ∧
    (s.power.shutdown = 0 → ∀ t, t = powerMod (fun p => { p with shdnReqN := false }) s →
      exec .shdnReqNAssert s = .next (if s.power.fullService = false then stopBoot t
        else if (s.cfg.fix).isSome then powerMod (fun p => { p with shutdown := 1 }) t else beginShutdown t))) ∧
  (∀ d s, 1 ≤ d → d ≤ 4 → s.boot.mgmtRuns = true → diePhase s d = .inReset → ((span 1 4).all fun k => diePhase s k != .windowOpen) = true →
    exec (.fabricBootWindowOpen d) s = .next (dieProtMod d (fun p => { p with windowOpen := true }) (setPhase d .windowOpen s))) ∧
  (∀ d s t, d ≤ 4 → diePhase s d = .windowOpen → t = setPhase d .starting (writeMap d s) →
    exec (.protCtrlLock d) s = .next (if d = 0 then startManagement t else t) ∧
    exec (.bootWindowTimeout d) s =
      .next (dieFails d (raise 0x4004 b0Place [d] (dieProtMod d (fun p => { p with windowOpen := false, timedOut := true }) s)))) ∧
  (∀ d fails s t, d ≤ 4 → diePhase s d = .starting →
    exec (.startTestEnd d fails false) s = .next (dieFails d s) ∧
    (t = retestStored d ((fails.filter fun p => levelOf p == .unit && pDie p == d && clusterOf p != b0Place).foldl (fun s p => startFault p s) s) →
      exec (.startTestEnd d fails true) s = .next (if t.power.dieRestart = some d then setPhase d .copying t
        else if d = 0 then setPhase d .inService t else refillGroups (enablePorts d (setPhase d .inService t))))) ∧
  (∀ a b s t u v, s.boot.mgmtRuns = true → s.power.fullService = false → dieUp s 0 = true →
    t = testMod (fun t => { t with since := some (t.since.getD (now32 (ageMod (fun a => { a with active := true })
      (powerMod (fun p => { p with fullService := true, fullAt := s.time.up }) s)))) })
      (ageMod (fun a => { a with active := true }) (powerMod (fun p => { p with fullService := true, fullAt := s.time.up }) s)) →
    u = raise 0x0005 g0Place [t.power.cause, b2n t.power.areaKept, a, b] t → v = reportTrip u → v.power.cause ≠ 4 →
    exec (.fullService a b) s = .next (autostartBeds v)) ∧
  (∀ s t u v, (s.power.shutdown = 3 →
      t = (List.range 32).foldl (fun s b => if (bedGet s b).st == .stopping then bedStopped b s else s) s → u = writeTime t →
      v = u.spare.flash.foldl (fun s e => toFlash 2 e.1 (ledgerBytes s e.1 e.2) s) u →
      exec .shutdownBedsStopped s = .next (powerMod (fun p => { p with shutdown := 5, selfRefresh := true }) (v.cart.lives.foldl (fun s r => putLife r s) v))) ∧
    (s.power.shutdown = 5 → exec .shutdownLasersDark s = .next (releaseOffSafe (powerMod (fun p => { p with shutdown := 6 }) (allDark s)))) ∧
    ∀ c, s.power.restartDue = some c → c = 3 ∨ s.twin.state = .handedOver → exec .packageRestartBegin s = .next (commandRestart c s)) ∧
  (∀ d s t, 1 ≤ d → d ≤ 4 → s.power.dieRestart = some d →
    (diePhase s d = .draining → exec (.dieRestartDrained d) s = .next (resetDie d s)) ∧
    (diePhase s d = .copying → t = finishKey 0x0006 d (repOk []) (raise 0x0003 g0Place [d, 2] (busReturns d (refillGroups (enablePorts d
        (undrainPath (setPhase d .inService (powerMod (fun p => { p with dieRestart := none }) s)) (diePlace d)))))) →
      exec (.dieRestartReady d) s = .next (match t.power.restartList with
        | [] => t
        | k :: r => if k = 0 then activated t.boot.selected (powerMod (fun p => { p with restartList := r }) t)
          else startDieRestart k false (powerMod (fun p => { p with restartList := r }) t))))

/-- Time (R648-R654), the log (R657, R658), thermal rows (R568, R674-R679). -/
def Obligations.TimeLogThermalEventsAct : Prop :=
  (∀ s, (s.time.refPresent = true → timeSource s ≠ 0 → exec .tkRefLoss s =
      .next (raise 0x3C02 timePlace [1] (timeMod (fun t => { t with refPresent := false, locked := false, holdover := true }) s))) ∧
    (s.time.ppsPresent = true → timeSource s = 2 → exec .tkPpsLoss s =
      .next (raise 0x3C02 timePlace [2] (timeMod (fun t => { t with ppsPresent := false, locked := false, holdover := true }) s))) ∧
    (s.time.masterPresent = true → timeSource s = 3 → exec .ptpMasterLoss s =
      .next (raise 0x3C02 timePlace [3] (timeMod (fun t => { t with masterPresent := false, locked := false, holdover := true }) s))) ∧
    (∀ off, timeSource s = 1 → exec (.timeSourceReturn 1 off) s = .next (timeMod (fun t => { t with refPresent := true }) s)) ∧
    (∀ off t, timeSource s = 2 → t = timeMod (fun t => { t with ppsPresent := true }) s →
      exec (.timeSourceReturn 2 off) s = .next (slewOffset off (measured off t))) ∧
    (∀ off t, timeSource s = 3 → t = timeMod (fun t => { t with masterPresent := true }) s →
      exec (.timeSourceReturn 3 off) s = .next (slewOffset off (measured off t))) ∧
    (refsPresent s = true → timeLocked s = false → exec .timeLockAchieved s = .next (raise 0x3C01 timePlace [timeSource s]
      (timeMod (fun t => { t with locked := true, lockedTo := timeSource s, wasLocked := true, holdover := false }) s))) ∧
    exec .timeFlashWrite s = .next (writeTime s) ∧
    ∀ e r, s.log.intake = e :: r → exec .logAppend s = .next (logAppend e (evlogMod (fun l => { l with intake := r }) s))) ∧
  (∀ p domain sec ns off s t, p < 1024 → fld (portNow s p 0x140) 0 2 = 1 → domain = fld (cfgNow s (cfgBase + 0x300)) 8 8 →
    t = timeMod (fun t => { t with masterPresent := true }) s →
    (s.time.todSet = false → exec (.ptpMessageReceived p true 0 domain sec ns off) s = .next (timeMod (fun t => { t with todSet := true }) (stepTime sec ns t))) ∧
    (s.time.todSet = true → timeSource s = 3 → exec (.ptpMessageReceived p true 0 domain sec ns off) s = .next (slewOffset off (measured off t)))) ∧
  (∀ p s, p < 1024 → exec (.portPtpTxtsRead p) s = .next (portRegRead p 0x150 (emit (.readValue (portAddr p 0x150)
    ((List.range 4).foldl (fun v k => v + portReg s p (0x150 + 4 * k) * 2 ^ (32 * k)) 0)) s))) ∧
  (∀ n temp w s, (n ≤ 4 → exec (.thermalReading n temp w) s =
      .next (junctionRead n temp { s with therm := { s.therm with power := tput s.therm.power n w } })) ∧
    (8 ≤ n → n < 40 → exec (.thermalReading n temp w) s = .next { s with therm := { s.therm with cases := tput s.therm.cases (n - 8) temp } }) ∧
    (n ≤ 4 → s.power.thermtrip = false →
      exec (.firmwareTrip n temp) s = .next (tripPins (tripRecord n 1 temp (allDark (sendLeave s)))) ∧
      exec (.hardwareTrip n temp) s = .next (tripRecord n 2 temp (allDark (junctionRead n temp
        (emit (.pin 1 true) (powerMod (fun p => { p with thermtrip := true }) s)))))))

/-- Register accesses (R18, R278, R616, R619). -/
def Obligations.RegisterAccessesAct : Prop :=
  (∀ f off len v s, fnExists s f = true →
    (wordAccess off len = false → exec (.registerWrite (.bar0 f off) len v) s = .next (reportAdvisory f aerUnsupported s) ∧
      exec (.registerReadClear (.bar0 f off) len) s = .next (complete f 1 [] s)) ∧
    (off % 4 = 0 → exec (.registerWrite (.bar0 f off) 4 v) s = .next (bar0Write f off (v % 2 ^ 32) s) ∧
      exec (.registerReadClear (.bar0 f off) 4) s = .next (bar0ReadEffect f off 4 (emit (.readValue off (bar0Word s f off)) (leaveL1 f.link f.half s)))) ∧
    (off % 8 = 0 → exec (.registerWrite (.bar0 f off) 8 v) s = .next (bar0Write f (off + 4) (v / 2 ^ 32 % 2 ^ 32) (bar0Write f off (v % 2 ^ 32) s))) ∧
    ∀ x, exec (.registerWrite (.pcie f x) len v) s = .next (pcieWrite f x v s)) ∧
  (∀ code a len v s, rangeGrants s code a len true = false → exec (.registerWrite (.internal code a) len v) s = .next (violation (ownerDie a) code 1 a s)) ∧
  (∀ code a len s, rangeGrants s code a len false = false → exec (.registerReadClear (.internal code a) len) s = .next (violation (ownerDie a) code 1 a s)) ∧
  (∀ code a len s, rangeGrants s code a len false = true → wordAccess a len = true → exec (.registerReadClear (.internal code a) len) s =
    .next (intReadEffect code a len (emit (.readValue a (intRead s code a len)) s))) ∧
  (∀ code a v s, rangeGrants s code a 4 true = true → a % 4 = 0 →
    (isAreaEvent a = true → v < 2 ^ 32 → inBlock a svcBase (0x10000 * 85) = false →
      exec (.registerWrite (.internal code a) 4 v) s = .next { s with regs := tput s.regs a (tgetD s.regs a 0 &&& ~~~(BitVec.ofNat 32 v)) }) ∧
    (inBlock a svcBase (0x10000 * 85) = false → exec (.registerWrite (.internal code a) 4 v) s = .next (intWrite code a (v % 2 ^ 32) s)))

/-- A step takes the front of the queue: what every per-command statement says reaches a run through this one. -/
def Obligations.StepRunsFront : Prop :=
  ∀ (c : Instr) (r : List Instr) (s : State), step { s with pending := c :: r } = exec c { s with pending := r }

/-- The model's choice of what a step does on an empty queue (assumption 37), over the packets of R434, R436 and R446. -/
def Obligations.EmptyQueueActs : Prop :=
  (∀ s, s.pending = [] → nextPacket s s.waiting [] = none → step s = .next (tick s)) ∧
  (∀ s code c i, s.pending = [] → nextPacket s s.waiting [] = some (code, c) → instrOf code c = some i → step s = exec i (dropPacket (code, c) s)) ∧
  (∀ s code c, s.pending = [] → nextPacket s s.waiting [] = some (code, c) → instrOf code c = none → s.power.shutdown < 3 → 1 ≤ c.slots → c.slots ≤ 16 →
    fld c.flags.toNat 4 4 = 0 → c.rsvd = 0 → c.staged = false →
    step s = .next (sendReply c.queue c.tag.toNat code 0 (curEpoch s) (rep stBadOpcode 0) (dropPacket (code, c) s))) ∧
  (∀ s l before code c, nextPacket s l before = some (code, c) →
    ∃ p q, l = p ++ (code, c) :: q ∧ c.queue ∉ before ∧ packetWaits code c s = false ∧ p.all (fun x => x.2.queue != c.queue) = true)

/-- Values after reset that the spec gives (R477, R487, R510, R284, R630), with the power-up state as a state of its own; the other
registers' reset values are the model's choice (assumption 1) and are not stated here. -/
def Obligations.ResetState : Prop :=
  State.reset.pending = [] ∧ State.reset.waiting = [] ∧ State.reset.out = [] ∧ State.reset.power.pwrOk = false ∧ State.reset.boot.mgmtRuns = false ∧
  State.reset.cfg.live = [] ∧ curEpoch State.reset = 0 ∧ (∀ c, mbxOf State.reset c = { mask := 0xFFFFFFFF }) ∧
  State.reset.mem.cells = [] ∧ State.reset.mem.trained = [] ∧ State.reset.mem.scrubHours = 24 ∧ State.reset.mem.ceLimit = 1000 ∧
  State.reset.host.winLog2 = 24 ∧ (∀ link half, (linkOf State.reset link half).up = false) ∧ (∀ f, (funcOf State.reset f).queues = []) ∧
  State.reset.flow.entries = [] ∧ State.reset.sto.paths = [] ∧ State.reset.sto.nss = [] ∧ memOk State.reset

/-- The memory's form under every command, every bed's access and every tick (R415, R500). -/
def Obligations.StepKeepsMemoryForm : Prop :=
  ∀ s t, memOk s → step s = .next t → memOk t

/-- Outputs are history; the rollback fuses and the life cycle are one-way (R612, R620); the running index of free values rises (assumptions
2 and 4). -/
def Obligations.StepTakesNothingBack : Prop :=
  ∀ s t, step s = .next t → s.out <+: t.out ∧ s.boot.fuses ≤ t.boot.fuses ∧ (s.boot.lifecycle = .retired → t.boot.lifecycle = .retired) ∧
    s.freeIx ≤ t.freeIx

/-- The frame of all 354 commands: `touched` (Safety) lists, row by row, the parts that a command may move. -/
def Obligations.ExecMovesOnlyItsParts : Prop :=
  ∀ i s t x, exec i s = .next t → x ∉ touched i → agree x s t

/-- No row is refused and no ordinary data ends a run. -/
def Obligations.ExecAnswersOrNamesNothing : Prop :=
  ∀ i s, (∃ t, exec i s = .next t) ∨ exec i s = .fault .noSuchElement

/-- Checks 1, 3 and 4 of R446, with R434, R441 and R442, over all 99 opcodes; the queue memory of a command that carries a key is wiped
before them (R205). -/
def Obligations.FirstFailingCheckAnswers : Prop :=
  ∀ code c i s t ans, instrOf code c = some i → t = checkedAt code c s → s.power.shutdown < 3 → s.boot.mgmtRuns = true → c.fence = false → s.twin.state ≠ .suspect →
    ans = (fun r => sendReply c.queue c.tag.toNat code 0 (curEpoch t) r t) →
    (c.slots = 0 ∨ 16 < c.slots → exec i s = .next (ans (badParam dSlotCount))) ∧
    (1 ≤ c.slots → c.slots ≤ 16 →
      (fld c.flags.toNat 4 4 ≠ 0 ∨ c.rsvd ≠ 0 → exec i s = .next (ans (badParam dReserved))) ∧
      (fld c.flags.toNat 4 4 = 0 → c.rsvd = 0 →
        (c.staged = true → opClass code ≠ 1 → opClass code ≠ 2 → exec i s = .next (ans (badParam dReserved))) ∧
        (c.staged = false ∨ opClass code = 1 ∨ opClass code = 2 →
          (tagInUse t c.queue c.tag.toNat = true → exec i s = .next (ans (badParam dTagInUse))) ∧
          (tagInUse t c.queue c.tag.toNat = false →
            (queueCarries c.queue code = false → exec i s = .next (ans (denied dClass))) ∧
            (queueCarries c.queue code = true → (∀ n, origin c.queue ≠ .bed n) → s.boot.recovery = false →
              (grantsClass t (requester t c.queue) (opClass code) = false →
                exec i s = .next (violation 0 (requester t c.queue) 2 code (ans (denied dProtection)))) ∧
              (grantsClass t (requester t c.queue) (opClass code) = true → namesOwn c code = false → exec i s = .next (ans (denied dNotOwn))))))))

/-- R488, R489 and R492, of a channel whose receiver end is not in reset (R491). -/
def Obligations.MailboxRules : Prop :=
  (∀ c len s, c < 32 → (mbxSender s c).isSome = true → (mbxOf s c).recvReset = false → ∃ t, exec (.mbxSend c len) s = .next t ∧
    (mbxOf t c).staging = (mbxOf s c).staging ∧
    (1 ≤ len → len ≤ 64 → (mbxOf s c).full = false →
      (mbxOf t c).msg = fitTo len (mbxOf s c).staging ∧ (mbxOf t c).msg.length = len ∧ (mbxOf t c).full = true ∧
      t = signalReceiver c 1 (mbxMod c (fun m => { m with msg := fitTo len m.staging, full := true }) s)) ∧
    (len = 0 ∨ 64 < len ∨ (mbxOf s c).full = true →
      (mbxOf t c).refused = true ∧ (mbxOf t c).msg = (mbxOf s c).msg ∧ (mbxOf t c).full = (mbxOf s c).full ∧
      t = signalSender c 4 (mbxMod c (fun m => { m with refused := true }) s))) ∧
  (∀ c off len s, c < 32 → ∃ t, exec (.mbxMsgRead c off len) s = .next t ∧
    (off ≤ 63 → 63 < off + len → (mbxOf t c).full = false ∧ ((mbxOf s c).full = true → t = signalSender c 3 (mbxMod c (fun m => { m with full := false })
      (emit (.readValue (0x00CC00000000 + 0x100 * c + off) (rd (fitTo 64 (mbxOf s c).msg) off len)) s)))) ∧
    (63 < off ∨ off + len ≤ 63 → (mbxOf t c).full = (mbxOf s c).full)) ∧
  (∀ c s t, t = mbxResetSender c s → (mbxOf t c).staging = [] ∧ (mbxOf t c).refused = false ∧ (mbxOf t c).aborted = false ∧
    (mbxOf t c).msg = (mbxOf s c).msg ∧ (mbxOf t c).full = (mbxOf s c).full ∧ (mbxOf t c).db = (mbxOf s c).db ∧
    ((mbxOf s c).full = true → (mbxOf t c).senderReset = true ∧ ∃ u, t = signalReceiver c 6 u ∧ u.out = s.out))

/-- R618 over every owner section. -/
def Obligations.DeployedMapIsClosed : Prop :=
  (∀ s c, s.boot.lifecycle = .deployed → bit (protReq (writeMap 0 s) c) 17 = false ∧ (c < 32 → bit (protReq (writeMap 0 s) c) 18 = false)) ∧
  (∀ s d e r, s.boot.lifecycle = .deployed → (e, r) ∈ (dieProt (writeMap d s) d).ranges → fld r 8 8 = 70 → bit r 0 = false)

/-- R240. -/
def Obligations.FlowKeyHasOneForm : Prop :=
  ∀ x y proto v6 zone, x.1.length = 16 → y.1.length = 16 → x.2 < 65536 → y.2 < 65536 →
    flowKey x y proto v6 zone = flowKey y x proto v6 zone ∧
    (ofBe (x.1 ++ be 2 x.2) ≤ ofBe (y.1 ++ be 2 y.2) → keyA (flowKey x y proto v6 zone) = x ∧ keyB (flowKey x y proto v6 zone) = y)

/-- R399, for every thread and lock; the fault's entry is that of R400. -/
def Obligations.HeldLockTwiceFaults : Prop :=
  ∀ n t rd r1 s m l, n < 85 → t < 64 → (threadOf s n t).st = .running → lockNamed s n (xv s n t r1) = some (m, l) →
    (lockOf s m l).holder = some (n, t) →
    exec (.lkAcq n t rd r1) s = .next (lockMisuse n t 2 s) ∧ exec (.lkTry n t rd r1) s = .next (lockMisuse n t 2 s)

/-- The memory's reads and writes (R500), and the stores of BAR2 (R284) and of the log (R658). -/
def Obligations.MemoryHoldsWhatIsWritten : Prop :=
  (∀ s a d, memOk s → memRead (memWrite s a d) a d.length = d ∧
    ∀ b n, b + n ≤ a ∨ a + d.length ≤ b → memRead (memWrite s a d) b n = memRead s b n) ∧
  (∀ f off d s e a t, memOk s → fnExists s f = true → f.num = 0 → e = tgetD (funcOf s f).active (off / 2 ^ s.host.winLog2) 0 →
    0 < d.length → bit e 0 = true → bit e 2 = true → off / 2 ^ s.host.winLog2 < 64 → off / 2 ^ s.host.winLog2 = (off + d.length - 1) / 2 ^ s.host.winLog2 →
    a = fld e 12 36 * 4096 + off % 2 ^ s.host.winLog2 → isMemory a d.length = true → rangeGrants s (pfCode f) a d.length true = true →
    poisonBlocks s a d.length = false → exec (.bar2Access f off d.length (some d)) s = .next t →
    memRead t a d.length = d ∧ ∀ b n, b + n ≤ a ∨ a + d.length ≤ b → memRead t b n = memRead s b n) ∧
  (∀ s t b n, memOk s → ddr5Up s = true → b + n ≤ logBase + 64 * (s.log.next % 65536) ∨ logBase + 64 * (s.log.next % 65536) + 64 ≤ b →
    exec .logAppend s = .next t → memRead t b n = memRead s b n)

/-- The transitions of R620 with the request of R621. -/
def Obligations.LifeCycleFollowsItsTable : Prop :=
  ∀ s, (lcStep s).boot.lcRequest = none ∧ ((lcStep s).boot.lifecycle = s.boot.lifecycle ∨
    ∃ r, s.boot.lcRequest = some r ∧ r.serial = true ∧ r.signed = true ∧ r.old = lifeCode s.boot.lifecycle ∧
      lifeCode (lcStep s).boot.lifecycle = r.new ∧
      (r.old, r.new) ∈ [(0, 1), (1, 2), (2, 3), (2, 4), (3, 4), (1, 5), (2, 5), (4, 5)])
end

