-- ==== Sys2Proof/Laws/Bits.lean ====
section
/-! SUPPORT. Lengths and values of byte strings. -/

set_option Elab.async false

namespace Sys2Proof.Machine

@[simp] theorem slice_length (b : Bytes) (off len : Nat) : (slice b off len).length = len := by
  simp only [slice, List.length_append, List.length_replicate, List.length_take]; omega

@[simp] theorem fitTo_length (n : Nat) (b : Bytes) : (fitTo n b).length = n := slice_length ..

@[simp] theorem le_length (n v : Nat) : (le n v).length = n := by
  induction n generalizing v with
  | zero => rfl
  | succ n ih => simp [le, ih]

@[simp] theorem be_length (n v : Nat) : (be n v).length = n := by simp [be]

/-- A string of just the length wanted is that slice of itself. -/
theorem fitTo_self {n : Nat} {b : Bytes} (h : b.length = n) : fitTo n b = b := by
  subst h; simp [fitTo, slice]

theorem ofLe_le (n v : Nat) (h : v < 256 ^ n) : ofLe (le n v) = v := by
  induction n generalizing v with
  | zero => simp [le, ofLe] at *; omega
  | succ n ih =>
    have : v / 256 < 256 ^ n := by rw [Nat.div_lt_iff_lt_mul (by decide)]; simpa [Nat.pow_succ] using h
    simp [le, ofLe, ih _ this, byte]; omega

theorem ofLe_lt (b : Bytes) : ofLe b < 256 ^ b.length := by
  induction b with
  | nil => simp [ofLe]
  | cons x r ih =>
    have := x.isLt
    simp only [ofLe, List.length_cons, Nat.pow_succ]; omega

/-- Strings of one length that spell one number are the same. -/
theorem ofLe_inj {a b : Bytes} (hl : a.length = b.length) (h : ofLe a = ofLe b) : a = b := by
  induction a generalizing b with
  | nil => cases b <;> simp_all
  | cons x r ih =>
    cases b with
    | nil => simp at hl
    | cons y t =>
      simp only [ofLe] at h
      have hx := x.isLt
      have hy := y.isLt
      have h1 : x.toNat = y.toNat := by omega
      have h2 : ofLe r = ofLe t := by omega
      rw [BitVec.eq_of_toNat_eq h1, ih (by simpa using hl) h2]

theorem ofBe_inj {a b : Bytes} (hl : a.length = b.length) (h : ofBe a = ofBe b) : a = b :=
  List.reverse_inj.mp (ofLe_inj (by simpa using hl) h)

theorem ofLe_append (a b : Bytes) : ofLe (a ++ b) = ofLe a + 256 ^ a.length * ofLe b := by
  induction a with
  | nil => simp [ofLe]
  | cons x r ih => simp only [List.cons_append, ofLe, ih, List.length_cons, Nat.pow_succ, Nat.mul_add, Nat.add_assoc, Nat.mul_assoc,
      Nat.mul_left_comm]

/-- In network order the later bytes are the lower ones. -/
theorem ofBe_append (a b : Bytes) : ofBe (a ++ b) = ofBe a * 256 ^ b.length + ofBe b := by
  simp only [ofBe, List.reverse_append, ofLe_append, List.length_reverse, Nat.mul_comm, Nat.add_comm]

theorem ofBe_be (n v : Nat) (h : v < 256 ^ n) : ofBe (be n v) = v := by simp [ofBe, be, ofLe_le n v h]

theorem bit_eq_testBit (w i : Nat) : bit w i = w.testBit i := by
  simp only [bit, fld, Nat.pow_one, Nat.testBit_eq_decide_div_mod_eq]
  rfl

/-- A cleared bit is clear and every other bit stands. -/
theorem bit_clrBit (w k j : Nat) : bit (clrBit w k) j = (bit w j && j != k) := by
  have hp : 0 < 2 ^ k := Nat.two_pow_pos k
  have hw : clrBit w k = w / 2 ^ (k + 1) * 2 ^ (k + 1) + w % 2 ^ k := by
    simp only [clrBit, putFld, fld, Nat.zero_mod, Nat.zero_mul, Nat.add_zero, Nat.pow_one]
    have h1 := Nat.div_add_mod w (2 ^ k)
    have h2 := Nat.div_add_mod (w / 2 ^ k) 2
    rw [Nat.div_div_eq_div_mul, ← Nat.pow_succ] at h2
    have h3 : 2 ^ k * (w / 2 ^ k) = 2 ^ k * (2 * (w / 2 ^ (k + 1))) + w / 2 ^ k % 2 * 2 ^ k := by
      rw [← h2]; simp [Nat.mul_add, Nat.mul_comm]
    have h4 : 2 ^ k * (2 * (w / 2 ^ (k + 1))) = w / 2 ^ (k + 1) * 2 ^ (k + 1) := by
      rw [Nat.pow_succ]; simp [Nat.mul_comm, Nat.mul_left_comm, Nat.mul_assoc]
    omega
  have hm : w % 2 ^ k < 2 ^ k := Nat.mod_lt _ hp
  rw [bit_eq_testBit, bit_eq_testBit, hw, Nat.mul_comm]
  have hlt : w % 2 ^ k < 2 ^ (k + 1) := by rw [Nat.pow_succ]; omega
  rw [Nat.testBit_two_pow_mul_add _ hlt]
  split
  · rename_i hj
    by_cases he : j = k
    · subst he; simp [Nat.testBit_mod_two_pow]
    · have : j < k := by omega
      simp [Nat.testBit_mod_two_pow, this, he]
  · rename_i hj
    have he : j ≠ k := by omega
    rw [Nat.testBit_div_two_pow]
    simp [he, show j - (k + 1) + (k + 1) = j by omega]

/-- Clearing a bit moves no field that does not hold it. -/
theorem fld_clrBit_above (w k lo n : Nat) (h : k < lo) : fld (clrBit w k) lo n = fld w lo n := by
  apply Nat.eq_of_testBit_eq
  intro i
  have e : ∀ w, (fld w lo n).testBit i = (decide (i < n) && w.testBit (i + lo)) := by
    intro w; simp only [fld, Nat.testBit_mod_two_pow, Nat.testBit_div_two_pow]
  rw [e, e]
  have := bit_clrBit w k (i + lo)
  rw [bit_eq_testBit, bit_eq_testBit] at this
  have hk : (i + lo != k) = true := by rw [bne_iff_ne]; omega
  rw [this, hk, Bool.and_true]

end Sys2Proof.Machine
end

