-- ==== Sys2Proof/Laws/Memory.lean ====
section
/-! SUPPORT. The memory: what a read gives after a write, and that every operation keeps the canonical form. -/

set_option Elab.async false

namespace Sys2Proof.Machine

/-- The canonical form as a proposition on neighbours: every entry differs from an unlisted byte, and addresses rise. -/
theorem Memory.wf_iff (m : List Host.Cell) :
    Memory.wf m = true ↔ (∀ c ∈ m, c.2 ≠ Memory.empty) ∧ m.Pairwise (fun c d => c.1 < d.1) := by
  induction m with
  | nil => simp [Memory.wf]
  | cons c r ih =>
    obtain ⟨a, b⟩ := c
    cases r with
    | nil => simp [Memory.wf]
    | cons d t =>
      obtain ⟨a', b'⟩ := d
      simp only [Memory.wf, Bool.and_eq_true, bne_iff_ne, ne_eq, decide_eq_true_eq, ih, List.mem_cons, List.pairwise_cons]
      constructor
      · rintro ⟨⟨hb, ha⟩, h1, h2, h3⟩
        refine ⟨?_, ?_, h2, h3⟩
        · rintro c (rfl | hc)
          · exact hb
          · exact h1 c hc
        · rintro c (rfl | hc)
          · exact ha
          · exact Nat.lt_trans ha (h2 c hc)
      · rintro ⟨h1, h2, h3, h4⟩
        exact ⟨⟨h1 (a, b) (Or.inl rfl), h2 (a', b') (Or.inl rfl)⟩, fun c hc => h1 c (Or.inr hc), h3, h4⟩

theorem Memory.wf_filter (m : List Host.Cell) (p : Host.Cell → Bool) (h : Memory.wf m = true) : Memory.wf (m.filter p) = true := by
  rw [Memory.wf_iff] at *
  exact ⟨fun c hc => h.1 c ((List.mem_filter.mp hc).1), h.2.filter _⟩

/-- Addresses after a write: those before and the one written. -/
theorem Memory.mem_write (m : List Host.Cell) (a : Nat) (b : Byte) (c : Host.Cell) (h : c ∈ Memory.write m a b) : c ∈ m ∨ c = (a, b) := by
  induction m with
  | nil => by_cases hb : b = Memory.empty <;> simp [Memory.write, Memory.cell, hb] at h; exact .inr h
  | cons d r ih =>
    obtain ⟨i, x⟩ := d
    simp only [Memory.write, Memory.cell] at h
    split at h
    · split at h
      · exact .inl h
      · rcases List.mem_cons.mp h with h | h
        · exact .inr h
        · exact .inl h
    · split at h
      · split at h
        · exact .inl (List.mem_cons_of_mem _ h)
        · rcases List.mem_cons.mp h with h | h
          · exact .inr h
          · exact .inl (List.mem_cons_of_mem _ h)
      · rcases List.mem_cons.mp h with h | h
        · exact .inl (h ▸ List.mem_cons_self)
        · rcases ih h with h | h
          · exact .inl (List.mem_cons_of_mem _ h)
          · exact .inr h

theorem Memory.wf_cell (a : Nat) (b : Byte) (r : List Host.Cell) (h : Memory.wf r = true) (hr : ∀ c ∈ r, a < c.1) :
    Memory.wf (Memory.cell a b r) = true := by
  unfold Memory.cell
  split
  · exact h
  · rename_i hb
    rw [Memory.wf_iff] at *
    refine ⟨?_, List.pairwise_cons.mpr ⟨hr, h.2⟩⟩
    rintro c (_ | ⟨_, hc⟩)
    · exact hb
    · exact h.1 c hc

theorem Memory.wf_write (m : List Host.Cell) (a : Nat) (b : Byte) (h : Memory.wf m = true) : Memory.wf (Memory.write m a b) = true := by
  induction m with
  | nil => exact Memory.wf_cell a b [] rfl (by simp)
  | cons d r ih =>
    obtain ⟨i, x⟩ := d
    have h' := h
    rw [Memory.wf_iff, List.pairwise_cons] at h'
    obtain ⟨h1, h2, h3⟩ := h'
    have hr : Memory.wf r = true := (Memory.wf_iff r).mpr ⟨fun c hc => h1 c (List.mem_cons_of_mem _ hc), h3⟩
    simp only [Memory.write]
    split
    · rename_i hlt
      refine Memory.wf_cell a b _ h ?_
      rintro c (_ | ⟨_, hc⟩)
      · exact hlt
      · exact Nat.lt_trans hlt (h2 c hc)
    · split
      · rename_i he
        exact Memory.wf_cell a b r hr (he ▸ h2)
      · rename_i hlt hne
        rw [Memory.wf_iff]
        have hw := (Memory.wf_iff _).mp (ih hr)
        refine ⟨?_, List.pairwise_cons.mpr ⟨?_, hw.2⟩⟩
        · rintro c (_ | ⟨_, hc⟩)
          · exact h1 _ List.mem_cons_self
          · exact hw.1 c hc
        · intro c hc
          rcases Memory.mem_write r a b c hc with hc | rfl
          · exact h2 c hc
          · simp only; omega

theorem Memory.wf_writeAll (m : List Host.Cell) (a : Nat) (b : Bytes) (h : Memory.wf m = true) : Memory.wf (Memory.writeAll m a b) = true := by
  induction b generalizing m a with
  | nil => exact h
  | cons x r ih => exact ih _ _ (Memory.wf_write m a x h)

theorem Memory.wf_clear (m : List Host.Cell) (a n : Nat) (h : Memory.wf m = true) : Memory.wf (Memory.clear m a n) = true :=
  Memory.wf_filter m _ h

theorem Memory.read_cell (a : Nat) (b : Byte) (r : List Host.Cell) (hr : ∀ c ∈ r, a < c.1) : Memory.read (Memory.cell a b r) a = b := by
  unfold Memory.cell
  split
  · rename_i hb
    cases r with
    | nil => simp [Memory.read, hb]
    | cons c t =>
      have := hr c List.mem_cons_self
      simp [Memory.read, Nat.ne_of_lt this, this, hb]
  · simp [Memory.read]

theorem Memory.read_cell_ne (a i : Nat) (b : Byte) (r : List Host.Cell) (hr : ∀ c ∈ r, a < c.1) (h : i ≠ a) :
    Memory.read (Memory.cell a b r) i = Memory.read r i := by
  unfold Memory.cell
  split
  · rfl
  · simp only [Memory.read, h, if_false]
    split
    · rename_i hlt
      cases r with
      | nil => rfl
      | cons c t =>
        have := hr c List.mem_cons_self
        have h1 : i < c.1 := by omega
        simp [Memory.read, Nat.ne_of_lt h1, h1]
    · rfl

/-- A read after a write: the byte written there, every other byte as before. -/
theorem Memory.read_write (m : List Host.Cell) (a i : Nat) (b : Byte) (h : Memory.wf m = true) :
    Memory.read (Memory.write m a b) i = if i = a then b else Memory.read m i := by
  induction m with
  | nil =>
    by_cases hi : i = a
    · subst hi; simpa [Memory.write] using Memory.read_cell i b [] (by simp)
    · simpa [Memory.write, hi] using Memory.read_cell_ne a i b [] (by simp) hi
  | cons d r ih =>
    obtain ⟨j, x⟩ := d
    have h' := h
    rw [Memory.wf_iff, List.pairwise_cons] at h'
    obtain ⟨h1, h2, h3⟩ := h'
    have hr : Memory.wf r = true := (Memory.wf_iff r).mpr ⟨fun c hc => h1 c (List.mem_cons_of_mem _ hc), h3⟩
    simp only [Memory.write]
    split
    · rename_i hlt
      have hlt' : ∀ c ∈ (j, x) :: r, a < c.1 := by
        rintro c (_ | ⟨_, hc⟩)
        · exact hlt
        · exact Nat.lt_trans hlt (h2 c hc)
      by_cases hi : i = a
      · subst hi; rw [Memory.read_cell i b _ hlt', if_pos rfl]
      · rw [Memory.read_cell_ne a i b _ hlt' hi, if_neg hi]
    · split
      · rename_i he
        subst he
        by_cases hi : i = a
        · subst hi; rw [Memory.read_cell i b _ h2, if_pos rfl]
        · rw [Memory.read_cell_ne a i b _ h2 hi, if_neg hi]
          simp only [Memory.read, hi, if_false]
          split
          · cases r with
            | nil => rfl
            | cons c t =>
              have := h2 c List.mem_cons_self
              have h1 : i < c.1 := by omega
              simp [Memory.read, Nat.ne_of_lt h1, h1]
          · rfl
      · rename_i hlt hne
        simp only [Memory.read]
        by_cases hi : i = j
        · simp [hi, show j ≠ a by omega]
        · simp only [hi, if_false]
          split
          · rename_i hij
            simp [show i ≠ a by omega]
          · exact ih hr

/-- A read after a write of a string: its byte inside, every other byte as before. -/
theorem Memory.read_writeAll (m : List Host.Cell) (a i : Nat) (d : Bytes) (h : Memory.wf m = true) :
    Memory.read (Memory.writeAll m a d) i = if a ≤ i ∧ i < a + d.length then d.getD (i - a) 0 else Memory.read m i := by
  induction d generalizing m a with
  | nil => simp [Memory.writeAll, show ¬(a ≤ i ∧ i < a) by omega]
  | cons b r ih =>
    simp only [Memory.writeAll, ih _ _ (Memory.wf_write m a b h), Memory.read_write m a i b h, List.length_cons]
    by_cases h1 : i = a
    · subst h1; simp [show ¬(i + 1 ≤ i) by omega]
    · by_cases h2 : a + 1 ≤ i ∧ i < a + 1 + r.length
      · have h3 : a ≤ i ∧ i < a + (r.length + 1) := by omega
        obtain ⟨k, hk⟩ : ∃ k, i - a = k + 1 := ⟨i - a - 1, by omega⟩
        have hk' : i - (a + 1) = k := by omega
        simp [h2, h3, hk, hk']
      · have h3 : ¬(a ≤ i ∧ i < a + (r.length + 1)) := by omega
        rw [if_neg h2, if_neg h1, if_neg h3]

end Sys2Proof.Machine
end

