-- ==== Sys2Proof/Laws/Moves.lean ====
section
/-! SUPPORT. What an operation may change: the parts of State that it moves, and what no operation does. One lemma per operation follows in the
files Sys2Proof/Laws/Moves*.lean. -/

set_option Elab.async false

namespace Sys2Proof.Machine

theorem Moves.refl (l : List Part) (s : State) : Moves l s s :=
  ⟨fun x _ => by cases x <;> rfl, id, List.prefix_refl _, Nat.le_refl _, id, Nat.le_refl _⟩

theorem agree_trans {x : Part} {r s t : State} (h : agree x r s) (h' : agree x s t) : agree x r t := by
  cases x <;> exact h'.trans h

/-- An operation that moves fewer parts follows. -/
theorem Moves.step {l m : List Part} {r s t : State} (h : Moves l r s) (h' : Moves m s t) (hm : m.all l.contains = true) : Moves l r t := by
  refine ⟨fun x hx => agree_trans (h.keeps x hx) (h'.keeps x fun hx' => ?_), h'.mem ∘ h.mem, h.out.trans h'.out,
    Nat.le_trans h.free h'.free, h'.retired ∘ h.retired, Nat.le_trans h.fuses h'.fuses⟩
  have := List.all_eq_true.mp hm x hx'
  exact hx (by simpa using this)

theorem all_self (l : List Part) : l.all l.contains = true := by simp
theorem all_left (l m : List Part) : m.all (m ++ l).contains = true := by simp +contextual
theorem all_right (l m : List Part) : l.all (m ++ l).contains = true := by simp +contextual
theorem all_sub {l m n : List Part} (h : m.all l.contains = true) (h' : n.all m.contains = true) : n.all l.contains = true := by
  simp only [List.all_eq_true, List.contains_iff_mem] at *
  exact fun x hx => h x (h' x hx)

theorem Moves.ite {l : List Part} {r a b : State} {c : Prop} [Decidable c] (h : Moves l r a) (h' : Moves l r b) :
    Moves l r (if c then a else b) := by
  split <;> assumption

theorem Moves.foldl {α : Type} {l : List Part} {r s : State} {g : State → α → State} {xs : List α} (h : Moves l r s)
    (hg : ∀ t x, Moves l r t → Moves l r (g t x)) : Moves l r (xs.foldl g s) := by
  induction xs generalizing s with
  | nil => exact h
  | cons x xs ih => exact ih (hg s x h)

/-- Every state that a value holds. -/
def MovesAll {α : Type} (has : α → State → Prop) (l : List Part) (r : State) (x : α) : Prop := ∀ t, has x t → Moves l r t

theorem MovesAll.ite {α : Type} {has : α → State → Prop} {l : List Part} {r : State} {a b : α} {c : Prop} [Decidable c]
    (h : MovesAll has l r a) (h' : MovesAll has l r b) : MovesAll has l r (if c then a else b) := by
  split <;> assumption

theorem MovesAll.step {α : Type} {has : α → State → Prop} {l m : List Part} {r s : State} {x : α} (h : Moves l r s)
    (h' : MovesAll has m s x) (hm : m.all l.contains = true) : MovesAll has l r x :=
  fun t ht => h.step (h' t ht) hm

def hasFst {β : Type} (x : State × β) (t : State) : Prop := t = x.1
def hasSnd {α : Type} (x : α × State) (t : State) : Prop := t = x.2
def hasSnd2 {α β : Type} (x : α × β × State) (t : State) : Prop := t = x.2.2
def hasOpt (x : Option State) (t : State) : Prop := x = some t
def hasOptFst {β : Type} (x : Option (State × β)) (t : State) : Prop := ∃ b, x = some (t, b)
def hasOptSnd {α : Type} (x : Option (α × State)) (t : State) : Prop := ∃ a, x = some (a, t)
def hasOptFstSnd {β : Type} (x : Option (State × β) × State) (t : State) : Prop := (∃ b, x.1 = some (t, b)) ∨ t = x.2
def hasNext (x : Res) (t : State) : Prop := x = .next t

/-- Every state that the end of an opcode's execution holds, and what it does after its ACCEPTED reply. -/
def DoneMoves (l : List Part) (r : State) (d : Done) : Prop :=
  match d with
  | .refuse _ => True
  | .reply _ t => Moves l r t
  | .accept _ t f => Moves l r t ∧ ∀ u, Moves l u (f u)
  | .later _ t => Moves l r t

theorem Moves.wider {l m : List Part} {r s : State} (h : Moves m r s) (hm : m.all l.contains = true) : Moves l r s :=
  (Moves.refl l r).step h hm

theorem DoneMoves.ite {l : List Part} {r : State} {a b : Done} {c : Prop} [Decidable c] (h : DoneMoves l r a) (h' : DoneMoves l r b) :
    DoneMoves l r (if c then a else b) := by
  split <;> assumption

theorem DoneMoves.step {l m : List Part} {r s : State} {d : Done} (h : Moves l r s) (h' : DoneMoves m s d) (hm : m.all l.contains = true) :
    DoneMoves l r d := by
  cases d with
  | refuse _ => trivial
  | reply _ t => exact Moves.step h h' hm
  | accept _ t f => exact ⟨h.step h'.1 hm, fun u => (h'.2 u).wider hm⟩
  | later _ t => exact Moves.step h h' hm

section
variable {l : List Part} {r s t : State}

theorem MovesAll.get_fst {β : Type} {x : State × β} (h : MovesAll hasFst l r x) : Moves l r x.1 := h _ rfl
theorem MovesAll.get_snd {α : Type} {x : α × State} (h : MovesAll hasSnd l r x) : Moves l r x.2 := h _ rfl

theorem MovesAll.reflRun {β : Type} (l : List Part) (x : State × β) : MovesAll hasFst l x.1 x := by rintro t rfl; exact .refl _ _
theorem MovesAll.stepRun {α β : Type} {has : α → State → Prop} {m : List Part} {x : State × β} {y : α} (h : MovesAll hasFst l r x)
    (h' : MovesAll has m x.1 y) (hm : m.all l.contains = true) : MovesAll has l r y := fun t ht => (h _ rfl).step (h' t ht) hm
theorem MovesAll.foldl {α β : Type} {x : State × β} {g : State × β → α → State × β} {xs : List α} (h : MovesAll hasFst l r x)
    (hg : ∀ t x, MovesAll hasFst l r t → MovesAll hasFst l r (g t x)) : MovesAll hasFst l r (xs.foldl g x) := by
  induction xs generalizing x with
  | nil => exact h
  | cons y ys ih => exact ih (hg x y h)

theorem MovesAll.foldlSnd {α β : Type} {x : β × State} {g : β × State → α → β × State} {xs : List α} (h : Moves l r x.2)
    (hg : ∀ t x, Moves l r t.2 → Moves l r (g t x).2) : Moves l r (xs.foldl g x).2 := by
  induction xs generalizing x with
  | nil => exact h
  | cons y ys ih => exact ih (hg x y h)

theorem hasFst_mk {β : Type} {b : β} (h : Moves l r s) : MovesAll hasFst l r (s, b) := by rintro t rfl; exact h
theorem hasSnd_mk {α : Type} {a : α} (h : Moves l r s) : MovesAll hasSnd l r (a, s) := by rintro t rfl; exact h
theorem hasSnd2_mk {α β : Type} {a : α} {b : β} (h : Moves l r s) : MovesAll hasSnd2 l r (a, b, s) := by rintro t rfl; exact h
theorem hasOpt_none : MovesAll hasOpt l r none := by rintro t ⟨⟩
theorem hasOptFst_none {β : Type} : MovesAll (hasOptFst (β := β)) l r none := by rintro t ⟨_, ⟨⟩⟩
theorem hasOptSnd_none {α : Type} : MovesAll (hasOptSnd (α := α)) l r none := by rintro t ⟨_, ⟨⟩⟩
theorem hasOpt_some (h : Moves l r s) : MovesAll hasOpt l r (some s) := by rintro t ⟨⟩; exact h
theorem hasOptFst_some {β : Type} {b : β} (h : Moves l r s) : MovesAll hasOptFst l r (some (s, b)) := by rintro t ⟨b, ⟨⟩⟩; exact h
theorem hasOptSnd_some {α : Type} {a : α} (h : Moves l r s) : MovesAll hasOptSnd l r (some (a, s)) := by rintro t ⟨b, ⟨⟩⟩; exact h
theorem hasOptFstSnd_mk {β : Type} {o : Option (State × β)} (h : MovesAll hasOptFst l r o) (h' : Moves l r t) :
    MovesAll hasOptFstSnd l r (o, t) := by
  rintro u (hu | rfl)
  · exact h _ hu
  · exact h'
theorem MovesAll.of_eq {α : Type} {has : α → State → Prop} {x y : α} (e : x = y) (hy : has y t) (h : MovesAll has l r x) : Moves l r t :=
  h t (e ▸ hy)
theorem hasNext_next (h : Moves l r s) : MovesAll hasNext l r (.next s : Res) := by rintro t ⟨⟩; exact h
theorem hasNext_fault {f : Fault} : MovesAll hasNext l r (.fault f : Res) := by rintro t ⟨⟩
theorem hasNext_refused {f : Refusal} : MovesAll hasNext l r (.refused f : Res) := by rintro t ⟨⟩
theorem hasNext_onElem {b : Bool} (h : Moves l r s) : MovesAll hasNext l r (onElem b s) := by
  unfold onElem
  exact .ite (hasNext_next h) hasNext_fault
/-- A report of an end of the remote fault goes out, and nothing else moves. -/
theorem faultSignal_out (p : Nat) (was : Bool) (s : State) : Moves [.out] s (faultSignal p was s) := by
  unfold faultSignal
  exact .ite (.refl _ s)
    ⟨by intro x hx; cases x <;> first | rfl | exact absurd (by decide) hx, id, List.prefix_append _ _, Nat.le_refl _, id, Nat.le_refl _⟩

theorem hasNext_onPort {p : Nat} (h : Moves l r s) (h' : Moves l r t) (ho : ([.out] : List Part).all l.contains = true := by rfl) :
    MovesAll hasNext l r (onPort p s t) := by
  unfold onPort
  exact hasNext_onElem (.ite (h'.step (faultSignal_out ..) ho) h)

def hasFragEnd (x : FragEnd) (t : State) : Prop := match x with | .go _ s => t = s | .stop s => t = s
def hasSecEnd (x : SecEnd) (t : State) : Prop := match x with | .pass _ s => t = s | .drop s => t = s
theorem hasFragEnd_go {k : Packet} (h : Moves l r s) : MovesAll hasFragEnd l r (.go k s) := by rintro t rfl; exact h
theorem hasFragEnd_stop (h : Moves l r s) : MovesAll hasFragEnd l r (.stop s) := by rintro t rfl; exact h
theorem hasSecEnd_pass {b : Bytes} (h : Moves l r s) : MovesAll hasSecEnd l r (.pass b s) := by rintro t rfl; exact h
theorem hasSecEnd_drop (h : Moves l r s) : MovesAll hasSecEnd l r (.drop s) := by rintro t rfl; exact h

theorem hasDone_refuse {x : Rep} : DoneMoves l r (.refuse x) := trivial
theorem hasDone_reply {x : Rep} (h : Moves l r s) : DoneMoves l r (.reply x s) := h
theorem hasDone_later {k : Nat} (h : Moves l r s) : DoneMoves l r (.later k s) := h
theorem hasDone_accept {k : Nat} {f : State → State} (h : Moves l r s) (hf : ∀ u, Moves l u (f u)) : DoneMoves l r (.accept k s f) := ⟨h, hf⟩

theorem op_mk {code n : Nat} {z : List (Nat × Nat)} {x : Target} {f : Cmd → State → Done} {c : Cmd} (h : DoneMoves l s (f c s)) :
    DoneMoves l s ((mkOp code n z x f).body c s) := h
theorem op_mkDbg {code n : Nat} {z : List (Nat × Nat)} {x : Bool} {f : Nat → Nat → Cmd → State → Done} {c : Cmd}
    (h : ∀ k t, DoneMoves l s (f k t c s)) : DoneMoves l s ((mkDbg code n z x f).body c s) := by
  unfold mkDbg
  extract_lets -merge -useContext -underBinder src
  change DoneMoves _ s (src.body c s)
  unfold src
  refine op_mk ?_
  split
  · exact hasDone_refuse
  · refine DoneMoves.ite hasDone_refuse ?_
    split
    · exact hasDone_refuse
    · exact DoneMoves.ite hasDone_refuse (h _ _)

theorem Moves.leaf (h : ∀ x, x ∉ l → agree x s t) (hm : t.mem = s.mem) (ho : t.out = s.out) (hf : t.freeIx = s.freeIx)
    (hb : t.boot = s.boot) : Moves l s t :=
  ⟨h, fun hs => by unfold memOk at *; rw [hm]; exact hs, ho ▸ List.prefix_refl _, hf ▸ Nat.le_refl _, by rw [hb]; exact id,
    by rw [hb]⟩

theorem Moves.leafMem (h : ∀ x, x ∉ l → agree x s t) (hm : t.mem.cells = s.mem.cells) (ho : t.out = s.out) (hf : t.freeIx = s.freeIx)
    (hb : t.boot = s.boot) : Moves l s t :=
  ⟨h, fun hs => by unfold memOk at *; rw [hm]; exact hs, ho ▸ List.prefix_refl _, hf ▸ Nat.le_refl _, by rw [hb]; exact id,
    by rw [hb]⟩
theorem Moves.leafFree (h : ∀ x, x ∉ l → agree x s t) (hm : t.mem = s.mem) (ho : t.out = s.out) (hf : s.freeIx ≤ t.freeIx)
    (hb : t.boot = s.boot) : Moves l s t :=
  ⟨h, fun hs => by unfold memOk at *; rw [hm]; exact hs, ho ▸ List.prefix_refl _, hf, by rw [hb]; exact id,
    by rw [hb]⟩

end

end Sys2Proof.Machine
end

