-- ==== Sys2Proof/Laws/Moves1.lean ====
section
/-! SUPPORT. What the operations of Machine/Ops, Fit, Channels, HostOps, Operands, Runner, Tables, Regs, TimeOps, Mailbox, Directory, Optics, Link may change: one lemma `<operation>_moves` per operation. -/

set_option Elab.async false

namespace Sys2Proof.Machine

theorem breakResv_moves (a0 a1 s) : Moves [.svc] s (breakResv a0 a1 s) := by
  unfold breakResv
  extract_lets -merge -useContext -underBinder y0
  clear_value y0
  exact Moves.step (m := [.svc]) (Moves.refl _ s) (Moves.leaf (by intro x hx; cases x <;> first | rfl | exact absurd (by decide) hx) rfl rfl rfl rfl) rfl

theorem countReads_moves (a0 a1 s) : Moves [.mem] s (countReads a0 a1 s) := by
  unfold countReads
  extract_lets -merge -useContext -underBinder y0
  exact Moves.step (m := [.mem]) (Moves.refl _ s) (Moves.leafMem (by intro x hx; cases x <;> first | rfl | exact absurd (by decide) hx) rfl rfl rfl rfl) rfl

theorem memWrite_moves (s a b) : Moves [.svc, .mem] s (memWrite s a b) := by
  unfold memWrite
  refine Moves.step (m := [.svc]) ?_ (breakResv_moves ..) rfl
  refine ⟨by intro x hx; cases x <;> first | rfl | exact absurd (by decide) hx, fun h => ?_, List.prefix_refl _, Nat.le_refl _, id, Nat.le_refl _⟩
  exact Memory.wf_writeAll _ _ _ h

theorem countBulk_moves (a0 a1 s) : Moves [.mem] s (countBulk a0 a1 s) := by
  unfold countBulk
  extract_lets -merge -useContext -underBinder y0
  exact Moves.step (m := [.mem]) (Moves.refl _ s) (Moves.leafMem (by intro x hx; cases x <;> first | rfl | exact absurd (by decide) hx) rfl rfl rfl rfl) rfl

theorem memClear_moves (s a n) : Moves [.svc, .mem] s (memClear s a n) := by
  unfold memClear
  refine Moves.step (m := [.svc]) ?_ (breakResv_moves ..) rfl
  refine ⟨by intro x hx; cases x <;> first | rfl | exact absurd (by decide) hx, fun h => ?_, List.prefix_refl _, Nat.le_refl _, id, Nat.le_refl _⟩
  exact Memory.wf_filter _ _ h

theorem areaRewritten_moves (a0 a1 s) : Moves [.mem] s (areaRewritten a0 a1 s) := by
  unfold areaRewritten
  extract_lets -merge -useContext -underBinder y0
  exact Moves.step (m := [.mem]) (Moves.refl _ s) (Moves.leafMem (by intro x hx; cases x <;> first | rfl | exact absurd (by decide) hx) rfl rfl rfl rfl) rfl

theorem drawFree_moves (s) : MovesAll hasSnd [.freeIx] s (drawFree s) := by
  unfold drawFree
  refine hasSnd_mk ?_
  exact Moves.step (m := [.freeIx]) (Moves.refl _ s) (Moves.leafFree (by intro x hx; cases x <;> first | rfl | exact absurd (by decide) hx) rfl rfl (Nat.le_add_right _ _) rfl) rfl

theorem drawRandom_moves (s) : MovesAll hasSnd [.freeIx] s (drawRandom s) := by
  unfold drawRandom
  refine hasSnd_mk ?_
  exact Moves.step (m := [.freeIx]) (Moves.refl _ s) (Moves.leafFree (by intro x hx; cases x <;> first | rfl | exact absurd (by decide) hx) rfl rfl (Nat.le_add_right _ _) rfl) rfl

theorem emit_moves (o s) : Moves [.out] s (emit o s) :=
  ⟨by intro x hx; cases x <;> first | rfl | exact absurd (by decide) hx, id, List.prefix_append _ _, Nat.le_refl _, id, Nat.le_refl _⟩

theorem emitAll_moves (l s) : Moves [.out] s (emitAll l s) :=
  ⟨by intro x hx; cases x <;> first | rfl | exact absurd (by decide) hx, id, List.prefix_append _ _, Nat.le_refl _, id, Nat.le_refl _⟩

theorem sendTwin_moves (a0 s) : Moves [.out] s (sendTwin a0 s) := by
  unfold sendTwin
  exact Moves.step (Moves.refl _ s) (emit_moves ..) rfl

theorem toFlash_moves (a0 a1 a2 s) : Moves [.out] s (toFlash a0 a1 a2 s) := by
  unfold toFlash
  exact Moves.step (Moves.refl _ s) (emit_moves ..) rfl

theorem setEventBit_moves (a0 a1 s) : Moves [.regs] s (setEventBit a0 a1 s) := by
  unfold setEventBit
  split
  ·
    exact (Moves.refl _ s)
  ·
    extract_lets -merge -useContext -underBinder y0
    clear_value y0
    exact Moves.step (m := [.regs]) (Moves.refl _ s) (Moves.leaf (by intro x hx; cases x <;> first | rfl | exact absurd (by decide) hx) rfl rfl rfl rfl) rfl

theorem intake_moves (a0 a1 a2 s) : Moves [.log] s (intake a0 a1 a2 s) := by
  unfold intake
  extract_lets -merge -useContext -underBinder y0 y1
  refine Moves.ite ?_ ?_
  ·
    exact Moves.step (m := [.log]) (Moves.refl _ s) (Moves.leaf (by intro x hx; cases x <;> first | rfl | exact absurd (by decide) hx) rfl rfl rfl rfl) rfl
  ·
    exact Moves.step (m := [.log]) (Moves.refl _ s) (Moves.leaf (by intro x hx; cases x <;> first | rfl | exact absurd (by decide) hx) rfl rfl rfl rfl) rfl

theorem raiseQuiet_moves (a0 a1 a2 s) : Moves [.regs, .log] s (raiseQuiet a0 a1 a2 s) := by
  unfold raiseQuiet
  extract_lets -merge -useContext -underBinder y0
  have hy0 : Moves [.regs, .log] s y0 := by
    unfold y0
    exact Moves.step (Moves.refl _ s) (setEventBit_moves ..) rfl
  clear_value y0
  refine Moves.ite ?_ ?_
  ·
    exact hy0
  ·
    exact Moves.step hy0 (intake_moves ..) rfl

theorem traceFreeze_moves (a0 a1 s) : Moves [.regs, .log] s (traceFreeze a0 a1 s) := by
  unfold traceFreeze
  extract_lets -merge -useContext -underBinder y0 y1
  clear_value y0
  refine Moves.ite ?_ ?_
  ·
    refine Moves.step ?_ (raiseQuiet_moves ..) rfl
    exact Moves.step (m := [.log]) (Moves.refl _ s) (Moves.leaf (by intro x hx; cases x <;> first | rfl | exact absurd (by decide) hx) rfl rfl rfl rfl) rfl
  ·
    exact (Moves.refl _ s)

theorem traceAdd_moves (a0 a1 a2 a3 s) : Moves [.regs, .log] s (traceAdd a0 a1 a2 a3 s) := by
  unfold traceAdd
  extract_lets -merge -useContext -underBinder y0 y1 y2 y3
  clear_value y0
  clear_value y1
  have hy3 : Moves [.regs, .log] s y3 := by
    unfold y3
    exact Moves.step (m := [.log]) (Moves.refl _ s) (Moves.leaf (by intro x hx; cases x <;> first | rfl | exact absurd (by decide) hx) rfl rfl rfl rfl) rfl
  clear_value y3
  refine Moves.ite ?_ ?_
  ·
    refine Moves.ite ?_ ?_
    ·
      exact Moves.step hy3 (traceFreeze_moves ..) rfl
    ·
      exact hy3
  ·
    exact (Moves.refl _ s)

theorem raise_moves (a0 a1 a2 s) : Moves [.regs, .log] s (raise a0 a1 a2 s) := by
  unfold raise
  extract_lets -merge -useContext -underBinder y0
  have hy0 : Moves [.regs, .log] s y0 := by
    unfold y0
    exact Moves.step (Moves.refl _ s) (traceAdd_moves ..) rfl
  clear_value y0
  exact Moves.step hy0 (raiseQuiet_moves ..) rfl

theorem portMod_moves (a0 a1 s) : Moves [.ports] s (portMod a0 a1 s) := by
  unfold portMod
  exact Moves.step (m := [.ports]) (Moves.refl _ s) (Moves.leaf (by intro x hx; cases x <;> first | rfl | exact absurd (by decide) hx) rfl rfl rfl rfl) rfl

theorem countPort_moves (a0 a1 a2 s) : Moves [.ports] s (countPort a0 a1 a2 s) := by
  unfold countPort
  exact Moves.step (Moves.refl _ s) (portMod_moves ..) rfl

theorem countTwin_moves (a0 a1 s) : Moves [.twin] s (countTwin a0 a1 s) := by
  unfold countTwin
  extract_lets -merge -useContext -underBinder y0
  clear_value y0
  exact Moves.step (m := [.twin]) (Moves.refl _ s) (Moves.leaf (by intro x hx; cases x <;> first | rfl | exact absurd (by decide) hx) rfl rfl rfl rfl) rfl

theorem countCfg_moves (a0 a1 s) : Moves [.cfg] s (countCfg a0 a1 s) := by
  unfold countCfg
  extract_lets -merge -useContext -underBinder y0
  clear_value y0
  exact Moves.step (m := [.cfg]) (Moves.refl _ s) (Moves.leaf (by intro x hx; cases x <;> first | rfl | exact absurd (by decide) hx) rfl rfl rfl rfl) rfl

theorem countR_moves (a0 a1 a2 s) : Moves [.tbl] s (countR a0 a1 a2 s) := by
  unfold countR
  extract_lets -merge -useContext -underBinder y0
  clear_value y0
  exact Moves.step (m := [.tbl]) (Moves.refl _ s) (Moves.leaf (by intro x hx; cases x <;> first | rfl | exact absurd (by decide) hx) rfl rfl rfl rfl) rfl

theorem countA_moves (a0 a1 a2 s) : Moves [.tbl] s (countA a0 a1 a2 s) := by
  unfold countA
  extract_lets -merge -useContext -underBinder y0
  clear_value y0
  exact Moves.step (m := [.tbl]) (Moves.refl _ s) (Moves.leaf (by intro x hx; cases x <;> first | rfl | exact absurd (by decide) hx) rfl rfl rfl rfl) rfl

theorem countC_moves (a0 a1 a2 s) : Moves [.tbl] s (countC a0 a1 a2 s) := by
  unfold countC
  extract_lets -merge -useContext -underBinder y0
  clear_value y0
  exact Moves.step (m := [.tbl]) (Moves.refl _ s) (Moves.leaf (by intro x hx; cases x <;> first | rfl | exact absurd (by decide) hx) rfl rfl rfl rfl) rfl

theorem countF_moves (a0 a1 a2 s) : Moves [.tbl] s (countF a0 a1 a2 s) := by
  unfold countF
  extract_lets -merge -useContext -underBinder y0
  clear_value y0
  exact Moves.step (m := [.tbl]) (Moves.refl _ s) (Moves.leaf (by intro x hx; cases x <;> first | rfl | exact absurd (by decide) hx) rfl rfl rfl rfl) rfl

theorem ageMod_moves (a0 s) : Moves [.age] s (ageMod a0 s) := by
  unfold ageMod
  exact Moves.step (m := [.age]) (Moves.refl _ s) (Moves.leaf (by intro x hx; cases x <;> first | rfl | exact absurd (by decide) hx) rfl rfl rfl rfl) rfl

theorem unitAgeMod_moves (a0 a1 s) : Moves [.age] s (unitAgeMod a0 a1 s) := by
  unfold unitAgeMod
  exact Moves.step (Moves.refl _ s) (ageMod_moves ..) rfl

theorem clustMod_moves (a0 a1 s) : Moves [.svc] s (clustMod a0 a1 s) := by
  unfold clustMod
  extract_lets -merge -useContext -underBinder y0
  clear_value y0
  exact Moves.step (m := [.svc]) (Moves.refl _ s) (Moves.leaf (by intro x hx; cases x <;> first | rfl | exact absurd (by decide) hx) rfl rfl rfl rfl) rfl

theorem chanMod_moves (a0 a1 a2 s) : Moves [.svc] s (chanMod a0 a1 a2 s) := by
  unfold chanMod
  exact Moves.step (Moves.refl _ s) (clustMod_moves ..) rfl

theorem threadMod_moves (a0 a1 a2 s) : Moves [.svc] s (threadMod a0 a1 a2 s) := by
  unfold threadMod
  exact Moves.step (Moves.refl _ s) (clustMod_moves ..) rfl

theorem retire_moves (a0 a1 a2 a3 a4 s) : Moves [.svc] s (retire a0 a1 a2 a3 a4 s) := by
  unfold retire
  refine Moves.step ?_ (threadMod_moves ..) rfl
  exact Moves.step (Moves.refl _ s) (clustMod_moves ..) rfl

theorem takeHead_moves (a0 a1 a2 s) : Moves [.svc] s (takeHead a0 a1 a2 s) := by
  unfold takeHead
  extract_lets -merge -useContext -underBinder y0
  clear_value y0
  split
  ·
    exact (Moves.refl _ s)
  ·
    extract_lets -merge -useContext -underBinder y1 y2
    clear_value y1
    have hy2 : Moves [.svc] s y2 := by
      unfold y2
      exact Moves.step (Moves.refl _ s) (chanMod_moves ..) rfl
    clear_value y2
    exact Moves.step hy2 (threadMod_moves ..) rfl

theorem publish_moves (a0 a1 a2 s) : Moves [.svc] s (publish a0 a1 a2 s) := by
  unfold publish
  exact Moves.step (Moves.refl _ s) (chanMod_moves ..) rfl

theorem stageWord_moves (a0 a1 a2 a3 s) : Moves [.svc] s (stageWord a0 a1 a2 a3 s) := by
  unfold stageWord
  extract_lets -merge -useContext -underBinder y0
  clear_value y0
  split
  ·
    exact (Moves.refl _ s)
  ·
    extract_lets -merge -useContext -underBinder y1 y2 y3
    have hy1 : Moves [.svc] s y1 := by
      unfold y1
      exact Moves.step (Moves.refl _ s) (chanMod_moves ..) rfl
    clear_value y1
    clear_value y2
    have hy3 : Moves [.svc] s y3 := by
      unfold y3
      exact Moves.step (Moves.refl _ s) (chanMod_moves ..) rfl
    clear_value y3
    refine Moves.ite ?_ ?_
    ·
      exact Moves.step hy1 (threadMod_moves ..) rfl
    ·
      refine Moves.ite ?_ ?_
      ·
        refine Moves.step ?_ (retire_moves ..) rfl
        exact Moves.step hy3 (publish_moves ..) rfl
      ·
        refine Moves.step ?_ (retire_moves ..) rfl
        exact Moves.step (Moves.refl _ s) (chanMod_moves ..) rfl

theorem settleRemote_moves (a0 a1 s) : MovesAll hasOpt [.svc] s (settleRemote a0 a1 s) := by
  unfold settleRemote
  extract_lets -merge -useContext -underBinder y0
  clear_value y0
  split
  ·
    exact hasOpt_none
  ·
    extract_lets -merge -useContext -underBinder y1 y2
    have hy1 : Moves [.svc] s y1 := by
      unfold y1
      exact Moves.step (Moves.refl _ s) (chanMod_moves ..) rfl
    clear_value y1
    clear_value y2
    refine MovesAll.ite ?_ ?_
    ·
      exact hasOpt_none
    ·
      refine hasOpt_some ?_
      split
      ·
        extract_lets -merge -useContext -underBinder y3 y4
        clear_value y3
        have hy4 : Moves [.svc] s y4 := by
          unfold y4
          exact Moves.step hy1 (publish_moves ..) rfl
        clear_value y4
        refine Moves.step ?_ (retire_moves ..) rfl
        exact Moves.step hy4 (threadMod_moves ..) rfl
      ·
        exact hy1

theorem settleCredit_moves (a0 a1 s) : MovesAll hasOpt [.svc] s (settleCredit a0 a1 s) := by
  unfold settleCredit
  extract_lets -merge -useContext -underBinder y0
  clear_value y0
  split
  ·
    exact hasOpt_none
  ·
    extract_lets -merge -useContext -underBinder y1
    have hy1 : Moves [.svc] s y1 := by
      unfold y1
      exact Moves.step (Moves.refl _ s) (chanMod_moves ..) rfl
    clear_value y1
    refine MovesAll.ite ?_ ?_
    ·
      exact hasOpt_none
    ·
      refine hasOpt_some ?_
      split
      ·
        exact Moves.step hy1 (stageWord_moves ..) rfl
      ·
        exact hy1

theorem settleOnce_moves (a0 a1 s) : MovesAll hasOpt [.svc] s (settleOnce a0 a1 s) := by
  unfold settleOnce
  extract_lets -merge -useContext -underBinder c
  clear_value c
  split
  · extract_lets -merge -useContext -underBinder t
    have ht : Moves [.svc] s t := by
      unfold t
      refine Moves.step ?_ (takeHead_moves ..) rfl
      exact Moves.step (Moves.refl _ s) (chanMod_moves ..) rfl
    clear_value t
    refine hasOpt_some ?_
    split
    · exact Moves.step ht (retire_moves ..) rfl
    · exact ht
  · split
    · extract_lets -merge -useContext -underBinder t
      have ht : Moves [.svc] s t := by
        unfold t
        exact Moves.step (Moves.refl _ s) (chanMod_moves ..) rfl
      clear_value t
      refine hasOpt_some ?_
      split
      · exact Moves.step ht (stageWord_moves ..) rfl
      · exact Moves.step ht (chanMod_moves ..) rfl
    · intro t ht
      have ht : (settleCredit a0 a1 s).orElse (fun _ => settleRemote a0 a1 s) = some t := ht
      cases hc : settleCredit a0 a1 s with
      | some u => rw [hc] at ht; cases ht; exact Moves.step (Moves.refl _ s) (settleCredit_moves a0 a1 s _ hc) rfl
      | none => rw [hc] at ht; exact Moves.step (Moves.refl _ s) (settleRemote_moves a0 a1 s _ ht) rfl

theorem settle_moves (a0 a1 a2 s) : Moves [.svc] s (settle a0 a1 a2 s) := by
  induction a2 generalizing s with
  | zero => exact Moves.refl _ s
  | succ k ih =>
    unfold settle
    split
    · rename_i t e
      exact Moves.step (settleOnce_moves _ _ _ _ e) (ih t) rfl
    · exact Moves.refl _ s

theorem settleAll_moves (a0 a1 s) : Moves [.svc] s (settleAll a0 a1 s) := by
  unfold settleAll
  extract_lets -merge -useContext -underBinder y0
  clear_value y0
  exact Moves.step (Moves.refl _ s) (settle_moves ..) rfl

theorem pumpNotices_moves (a0 a1 s) : Moves [.svc] s (pumpNotices a0 a1 s) := by
  induction a1 generalizing s with
  | zero => exact Moves.refl _ s
  | succ k ih =>
    unfold pumpNotices
    split
    · exact Moves.refl _ s
    · refine Moves.ite ?_ (Moves.refl _ s)
      extract_lets -merge -useContext -underBinder t u
      refine Moves.step ?_ (ih _) rfl
      refine Moves.step ?_ (settleAll_moves ..) rfl
      unfold u
      refine Moves.step ?_ (publish_moves ..) rfl
      unfold t
      exact Moves.step (Moves.refl _ s) (clustMod_moves ..) rfl

theorem notice_moves (a0 a1 a2 a3 s) : Moves [.regs, .log, .svc] s (notice a0 a1 a2 a3 s) := by
  unfold notice
  extract_lets -merge -useContext -underBinder y0 y1
  have hy0 : Moves [.regs, .log, .svc] s y0 := by
    unfold y0
    exact Moves.step (Moves.refl _ s) (traceAdd_moves ..) rfl
  clear_value y0
  have hy1 : Moves [.regs, .log, .svc] s y1 := by
    unfold y1
    exact Moves.step hy0 (clustMod_moves ..) rfl
  clear_value y1
  exact Moves.step hy1 (pumpNotices_moves ..) rfl

theorem dropStaged_moves (a0 a1 s) : Moves [.svc] s (dropStaged a0 a1 s) := by
  unfold dropStaged
  extract_lets -merge -useContext -underBinder y0
  have hy0 : Moves [.svc] s y0 := by
    unfold y0
    exact Moves.step (Moves.refl _ s) (threadMod_moves ..) rfl
  clear_value y0
  refine Moves.foldl ?_ (fun t1 x2 ht1 => ?_)
  ·
    exact hy0
  ·
    split
    ·
      refine Moves.ite ?_ ?_
      ·
        refine Moves.step ?_ (settleAll_moves ..) rfl
        exact Moves.step ht1 (chanMod_moves ..) rfl
      ·
        exact ht1
    ·
      exact ht1

theorem withdraw_moves (a0 a1 s) : Moves [.svc] s (withdraw a0 a1 s) := by
  unfold withdraw
  extract_lets -merge -useContext -underBinder y0 y1 y2
  clear_value y0
  have hy1 : Moves [.svc] s y1 := by
    unfold y1
    exact Moves.step (m := [.svc]) (Moves.refl _ s) (Moves.leaf (by intro x hx; cases x <;> first | rfl | exact absurd (by decide) hx) rfl rfl rfl rfl) rfl
  clear_value y1
  have hy2 : Moves [.svc] s y2 := by
    unfold y2
    refine Moves.foldl ?_ (fun t3 x4 ht3 => ?_)
    ·
      exact hy1
    ·
      extract_lets -merge -useContext -underBinder y5 y6
      refine Moves.ite ?_ ?_
      ·
        refine Moves.step ?_ (settleAll_moves ..) rfl
        exact Moves.step ht3 (chanMod_moves ..) rfl
      ·
        exact ht3
  clear_value y2
  exact hy2

theorem threadFault_moves (a0 a1 a2 a3 a4 s) : Moves [.regs, .log, .svc] s (threadFault a0 a1 a2 a3 a4 s) := by
  unfold threadFault
  extract_lets -merge -useContext -underBinder y0 y1 y2 y3 y4
  clear_value y0
  have hy1 : Moves [.regs, .log, .svc] s y1 := by
    unfold y1
    refine Moves.step ?_ (dropStaged_moves ..) rfl
    exact Moves.step (Moves.refl _ s) (withdraw_moves ..) rfl
  clear_value y1
  have hy2 : Moves [.regs, .log, .svc] s y2 := by
    unfold y2
    exact Moves.step hy1 (threadMod_moves ..) rfl
  clear_value y2
  have hy3 : Moves [.regs, .log, .svc] s y3 := by
    unfold y3
    refine Moves.ite ?_ ?_
    ·
      exact hy2
    ·
      exact Moves.step hy2 (notice_moves ..) rfl
  clear_value y3
  have hy4 : Moves [.regs, .log, .svc] s y4 := by
    unfold y4
    exact Moves.step hy3 (raise_moves ..) rfl
  clear_value y4
  refine Moves.ite ?_ ?_
  ·
    exact Moves.step hy4 (raise_moves ..) rfl
  ·
    exact hy4

theorem extMessage_moves (a0 a1 a2 a3 s) : MovesAll hasFst [.svc] s (extMessage a0 a1 a2 a3 s) := by
  unfold extMessage
  extract_lets -merge -useContext -underBinder y0
  clear_value y0
  refine MovesAll.ite ?_ ?_
  ·
    refine hasFst_mk ?_
    exact (Moves.refl _ s)
  ·
    refine MovesAll.ite ?_ ?_
    ·
      refine hasFst_mk ?_
      exact Moves.step (Moves.refl _ s) (chanMod_moves ..) rfl
    ·
      refine hasFst_mk ?_
      refine Moves.step ?_ (settleAll_moves ..) rfl
      exact Moves.step (Moves.refl _ s) (publish_moves ..) rfl

theorem extItem_moves (a0 a1 a2 a3 a4 a5 s) : MovesAll hasFst [.svc, .mem] s (extItem a0 a1 a2 a3 a4 a5 s) := by
  unfold extItem
  extract_lets -merge -useContext -underBinder y0 y1 y2 y3 y4
  clear_value y0
  clear_value y1
  clear_value y2
  have hy3 : Moves [.svc, .mem] s y3 := by
    unfold y3
    exact Moves.step (Moves.refl _ s) (memWrite_moves ..) rfl
  clear_value y3
  clear_value y4
  refine MovesAll.ite ?_ ?_
  ·
    refine hasFst_mk ?_
    exact (Moves.refl _ s)
  ·
    refine MovesAll.ite ?_ ?_
    ·
      refine hasFst_mk ?_
      exact Moves.step (Moves.refl _ s) (chanMod_moves ..) rfl
    ·
      refine hasFst_mk ?_
      refine Moves.step ?_ (settleAll_moves ..) rfl
      exact Moves.step hy3 (publish_moves ..) rfl

theorem linkMod_moves (a0 a1 a2 s) : Moves [.host] s (linkMod a0 a1 a2 s) := by
  unfold linkMod
  extract_lets -merge -useContext -underBinder y0
  clear_value y0
  exact Moves.step (m := [.host]) (Moves.refl _ s) (Moves.leaf (by intro x hx; cases x <;> first | rfl | exact absurd (by decide) hx) rfl rfl rfl rfl) rfl

theorem funcMod_moves (a0 a1 s) : Moves [.host] s (funcMod a0 a1 s) := by
  unfold funcMod
  extract_lets -merge -useContext -underBinder y0
  clear_value y0
  exact Moves.step (m := [.host]) (Moves.refl _ s) (Moves.leaf (by intro x hx; cases x <;> first | rfl | exact absurd (by decide) hx) rfl rfl rfl rfl) rfl

theorem leaveL1_moves (a0 a1 s) : Moves [.host] s (leaveL1 a0 a1 s) := by
  unfold leaveL1
  refine Moves.ite ?_ ?_
  ·
    exact Moves.step (Moves.refl _ s) (linkMod_moves ..) rfl
  ·
    exact (Moves.refl _ s)

theorem toHost_moves (a0 a1 s) : Moves [.out, .host] s (toHost a0 a1 s) := by
  unfold toHost
  refine Moves.step ?_ (emit_moves ..) rfl
  exact Moves.step (Moves.refl _ s) (leaveL1_moves ..) rfl

theorem signalVector_moves (a0 a1 s) : Moves [.out, .host] s (signalVector a0 a1 s) := by
  unfold signalVector
  extract_lets -merge -useContext -underBinder y0 y1 y2 y3
  clear_value y0
  clear_value y1
  clear_value y2
  have hy3 : Moves [.out, .host] s y3 := by
    unfold y3
    exact Moves.step (Moves.refl _ s) (funcMod_moves ..) rfl
  clear_value y3
  refine Moves.ite ?_ ?_
  ·
    exact (Moves.refl _ s)
  ·
    refine Moves.ite ?_ ?_
    ·
      exact Moves.step (Moves.refl _ s) (funcMod_moves ..) rfl
    ·
      refine Moves.ite ?_ ?_
      ·
        exact Moves.step (Moves.refl _ s) (funcMod_moves ..) rfl
      ·
        refine Moves.ite ?_ ?_
        ·
          exact Moves.step (Moves.refl _ s) (toHost_moves ..) rfl
        ·
          refine Moves.ite ?_ ?_
          ·
            exact Moves.step hy3 (toHost_moves ..) rfl
          ·
            exact hy3

theorem signalEvent_moves (a0 s) : Moves [.out, .host] s (signalEvent a0 s) := by
  unfold signalEvent
  extract_lets -merge -useContext -underBinder y0
  clear_value y0
  refine Moves.ite ?_ ?_
  ·
    exact Moves.step (Moves.refl _ s) (signalVector_moves ..) rfl
  ·
    exact (Moves.refl _ s)

theorem raiseFn_moves (a0 a1 a2 s) : Moves [.out, .regs, .log, .host] s (raiseFn a0 a1 a2 s) := by
  unfold raiseFn
  extract_lets -merge -useContext -underBinder y0 y1
  have hy0 : Moves [.out, .regs, .log, .host] s y0 := by
    unfold y0
    exact Moves.step (Moves.refl _ s) (raise_moves ..) rfl
  clear_value y0
  have hy1 : Moves [.out, .regs, .log, .host] s y1 := by
    unfold y1
    refine Moves.ite ?_ ?_
    ·
      exact Moves.step hy0 (signalEvent_moves ..) rfl
    ·
      exact hy0
  clear_value y1
  exact Moves.step hy1 (signalEvent_moves ..) rfl

theorem markLogs_moves (a0 a1 a2 s) : Moves [.out, .regs, .log, .host] s (markLogs a0 a1 a2 s) := by
  unfold markLogs
  refine Moves.foldl ?_ (fun t0 x1 ht0 => ?_)
  ·
    exact (Moves.refl _ s)
  ·
    extract_lets -merge -useContext -underBinder y2 y3 y4 y5 y6
    clear_value y2
    clear_value y3
    clear_value y4
    clear_value y5
    have hy6 : Moves [.out, .regs, .log, .host] s y6 := by
      unfold y6
      exact Moves.step (m := [.host]) ht0 (Moves.leaf (by intro x hx; cases x <;> first | rfl | exact absurd (by decide) hx) rfl rfl rfl rfl) rfl
    clear_value y6
    refine Moves.ite ?_ ?_
    ·
      refine Moves.ite ?_ ?_
      ·
        exact Moves.step hy6 (raiseFn_moves ..) rfl
      ·
        exact hy6
    ·
      exact ht0

theorem writeTlps_moves (f t m n a b s) : Moves [.out, .host] s (writeTlps f t m n a b s) := by
  induction n generalizing a b s with
  | zero => exact Moves.refl _ s
  | succ k ih =>
    unfold writeTlps
    refine Moves.ite (Moves.refl _ s) ?_
    exact Moves.step (Moves.step (Moves.refl _ s) (toHost_moves ..) rfl) (ih ..) (all_self _)

theorem sendWrite_moves (a0 a1 a2 a3 s) : Moves [.out, .regs, .log, .host] s (sendWrite a0 a1 a2 a3 s) := by
  unfold sendWrite
  refine Moves.step ?_ (writeTlps_moves ..) rfl
  exact Moves.step (Moves.refl _ s) (markLogs_moves ..) rfl

theorem hostWriteAs_moves (a0 a1 a2 a3 a4 s) : Moves [.out, .regs, .log, .host] s (hostWriteAs a0 a1 a2 a3 a4 s) := by
  unfold hostWriteAs
  extract_lets -merge -useContext -underBinder y0
  clear_value y0
  refine Moves.ite ?_ ?_
  ·
    exact Moves.step (Moves.refl _ s) (sendWrite_moves ..) rfl
  ·
    exact Moves.step (Moves.refl _ s) (funcMod_moves ..) rfl

theorem hostWrite_moves (a0 a1 a2 s) : Moves [.out, .regs, .log, .host] s (hostWrite a0 a1 a2 s) := by
  unfold hostWrite
  exact Moves.step (Moves.refl _ s) (hostWriteAs_moves ..) rfl

theorem cqMod_moves (a0 a1 a2 s) : Moves [.host] s (cqMod a0 a1 a2 s) := by
  unfold cqMod
  exact Moves.step (Moves.refl _ s) (funcMod_moves ..) rfl

theorem flushReplies_moves (a0 a1 a2 s) : Moves [.out, .regs, .log, .host] s (flushReplies a0 a1 a2 s) := by
  induction a2 generalizing s with
  | zero => exact Moves.refl _ s
  | succ k ih =>
    unfold flushReplies
    extract_lets -merge -useContext -underBinder c
    clear_value c
    split
    · exact Moves.refl _ s
    · extract_lets -merge -useContext -underBinder t u v
      refine Moves.ite ?_ (Moves.refl _ s)
      refine Moves.step ?_ (ih _) (all_self _)
      have hu : Moves [.out, .regs, .log, .host] s u := by
        unfold u
        refine Moves.step ?_ (cqMod_moves ..) rfl
        unfold t
        exact Moves.step (Moves.refl _ s) (hostWriteAs_moves ..) rfl
      unfold v
      clear_value u
      refine Moves.ite ?_ hu
      exact Moves.step hu (signalVector_moves ..) rfl

theorem ringReply_moves (a0 a1 a2 s) : Moves [.out, .regs, .log, .host] s (ringReply a0 a1 a2 s) := by
  unfold ringReply
  extract_lets -merge -useContext -underBinder y0
  clear_value y0
  refine Moves.ite ?_ ?_
  ·
    refine Moves.step ?_ (flushReplies_moves ..) rfl
    exact Moves.step (Moves.refl _ s) (cqMod_moves ..) rfl
  ·
    exact (Moves.refl _ s)

theorem resumeIssue_moves (a0 s) : Moves [.out, .regs, .log, .host] s (resumeIssue a0 s) := by
  unfold resumeIssue
  extract_lets -merge -useContext -underBinder y0 y1 y2 y3
  clear_value y0
  have hy1 : Moves [.out, .regs, .log, .host] s y1 := by
    unfold y1
    exact Moves.step (Moves.refl _ s) (funcMod_moves ..) rfl
  clear_value y1
  have hy2 : Moves [.out, .regs, .log, .host] s y2 := by
    unfold y2
    refine Moves.foldl ?_ (fun t4 x5 ht4 => ?_)
    ·
      exact hy1
    ·
      exact Moves.step ht4 (sendWrite_moves ..) rfl
  clear_value y2
  have hy3 : Moves [.out, .regs, .log, .host] s y3 := by
    unfold y3
    refine Moves.foldl ?_ (fun t6 x7 ht6 => ?_)
    ·
      exact hy2
    ·
      exact Moves.step ht6 (flushReplies_moves ..) rfl
  clear_value y3
  refine Moves.ite ?_ ?_
  ·
    exact (Moves.refl _ s)
  ·
    refine Moves.foldl ?_ (fun t8 x9 ht8 => ?_)
    ·
      exact hy3
    ·
      exact Moves.step ht8 (signalVector_moves ..) rfl

theorem dieProtMod_moves (a0 a1 s) : Moves [.prot] s (dieProtMod a0 a1 s) := by
  unfold dieProtMod
  extract_lets -merge -useContext -underBinder y0
  clear_value y0
  exact Moves.step (m := [.prot]) (Moves.refl _ s) (Moves.leaf (by intro x hx; cases x <;> first | rfl | exact absurd (by decide) hx) rfl rfl rfl rfl) rfl

theorem violation_moves (a0 a1 a2 a3 s) : Moves [.regs, .log, .prot] s (violation a0 a1 a2 a3 s) := by
  unfold violation
  extract_lets -merge -useContext -underBinder y0 y1 y2
  clear_value y0
  clear_value y1
  have hy2 : Moves [.regs, .log, .prot] s y2 := by
    unfold y2
    exact Moves.step (Moves.refl _ s) (dieProtMod_moves ..) rfl
  clear_value y2
  refine Moves.ite ?_ ?_
  ·
    exact Moves.step hy2 (raise_moves ..) rfl
  ·
    exact hy2

theorem bufferWrite_moves (a0 a1 a2 a3 s) : MovesAll hasOpt [.out, .regs, .log, .host, .svc, .mem] s (bufferWrite a0 a1 a2 a3 s) := by
  unfold bufferWrite
  refine MovesAll.ite ?_ ?_
  ·
    split
    ·
      extract_lets -merge -useContext -underBinder y0
      clear_value y0
      refine MovesAll.ite ?_ ?_
      ·
        exact hasOpt_none
      ·
        refine hasOpt_some ?_
        exact Moves.step (Moves.refl _ s) (hostWrite_moves ..) rfl
    ·
      exact hasOpt_none
  ·
    refine hasOpt_some ?_
    exact Moves.step (Moves.refl _ s) (memWrite_moves ..) rfl

theorem Done.ok_moves (a0 s) : DoneMoves [] s (Done.ok a0 s) := by
  unfold Done.ok
  refine hasDone_reply ?_
  exact (Moves.refl _ s)

theorem sendReply_moves (a0 a1 a2 a3 a4 a5 s) : Moves [.out, .regs, .log, .host, .svc] s (sendReply a0 a1 a2 a3 a4 a5 s) := by
  unfold sendReply
  extract_lets -merge -useContext -underBinder y0
  clear_value y0
  split
  ·
    refine Moves.step ?_ (ringReply_moves ..) rfl
    exact Moves.step (Moves.refl _ s) (emit_moves ..) rfl
  ·
    refine Moves.step ?_ (ringReply_moves ..) rfl
    exact Moves.step (Moves.refl _ s) (emit_moves ..) rfl
  ·
    exact (Moves.refl _ s)
  ·
    exact Moves.step (Moves.refl _ s) (emit_moves ..) rfl
  ·
    exact Moves.step (Moves.refl _ s) (emit_moves ..) rfl
  ·
    exact Moves.step (Moves.refl _ s) (emit_moves ..) rfl
  ·
    exact Moves.step (Moves.refl _ s) (sendTwin_moves ..) rfl
  ·
    extract_lets -merge -useContext -underBinder y1
    clear_value y1
    refine MovesAll.get_fst ?_
    refine MovesAll.step ?_ (extMessage_moves _ _ _ _ _) rfl
    exact Moves.step (Moves.refl _ s) (emit_moves ..) rfl

theorem dropOwed_moves (a0 a1 s) : Moves [.cmd] s (dropOwed a0 a1 s) := by
  unfold dropOwed
  extract_lets -merge -useContext -underBinder y0
  clear_value y0
  exact Moves.step (m := [.cmd]) (Moves.refl _ s) (Moves.leaf (by intro x hx; cases x <;> first | rfl | exact absurd (by decide) hx) rfl rfl rfl rfl) rfl

theorem dropJoint_moves (a0 a1 s) : Moves [.cmd] s (dropJoint a0 a1 s) := by
  unfold dropJoint
  extract_lets -merge -useContext -underBinder y0
  clear_value y0
  exact Moves.step (m := [.cmd]) (Moves.refl _ s) (Moves.leaf (by intro x hx; cases x <;> first | rfl | exact absurd (by decide) hx) rfl rfl rfl rfl) rfl

theorem closeJoint_moves (a0 s) : Moves [.out, .regs, .log, .cmd, .host, .svc] s (closeJoint a0 s) := by
  unfold closeJoint
  split
  ·
    split
    ·
      refine Moves.step ?_ (sendReply_moves ..) rfl
      exact Moves.step (Moves.refl _ s) (dropJoint_moves ..) rfl
  ·
    extract_lets -merge -useContext -underBinder y0
    clear_value y0
    exact Moves.step (m := [.cmd]) (Moves.refl _ s) (Moves.leaf (by intro x hx; cases x <;> first | rfl | exact absurd (by decide) hx) rfl rfl rfl rfl) rfl

theorem finish_moves (a0 a1 s) : Moves [.out, .regs, .log, .cmd, .host, .svc] s (finish a0 a1 s) := by
  unfold finish
  extract_lets -merge -useContext -underBinder y0
  have hy0 : Moves [.out, .regs, .log, .cmd, .host, .svc] s y0 := by
    unfold y0
    exact Moves.step (Moves.refl _ s) (dropOwed_moves ..) rfl
  clear_value y0
  split
  ·
    exact Moves.step hy0 (closeJoint_moves ..) rfl
  ·
    exact Moves.step hy0 (sendReply_moves ..) rfl

theorem finishKey_moves (a0 a1 a2 s) : Moves [.out, .regs, .log, .cmd, .host, .svc] s (finishKey a0 a1 a2 s) := by
  unfold finishKey
  split
  ·
    exact Moves.step (Moves.refl _ s) (finish_moves ..) rfl
  ·
    exact (Moves.refl _ s)

theorem forward_moves (a0 a1 a2 a3 s) : Moves [.out] s (forward a0 a1 a2 a3 s) := by
  unfold forward
  exact Moves.step (Moves.refl _ s) (sendTwin_moves ..) rfl

theorem openJoint_moves (a0 a1 a2 a3 a4 s) : Moves [.out, .cmd] s (openJoint a0 a1 a2 a3 a4 s) := by
  unfold openJoint
  extract_lets -merge -useContext -underBinder y0 y1 y2
  clear_value y0
  clear_value y1
  clear_value y2
  refine Moves.step ?_ (forward_moves ..) rfl
  exact Moves.step (m := [.cmd]) (Moves.refl _ s) (Moves.leaf (by intro x hx; cases x <;> first | rfl | exact absurd (by decide) hx) rfl rfl rfl rfl) rfl

theorem park_moves (a0 a1 s) : Moves [.waiting] s (park a0 a1 s) := by
  unfold park
  exact Moves.step (m := [.waiting]) (Moves.refl _ s) (Moves.leaf (by intro x hx; cases x <;> first | rfl | exact absurd (by decide) hx) rfl rfl rfl rfl) rfl

theorem answer_moves (a0 a1 a2 s) : Moves [.out, .regs, .log, .host, .svc] s (answer a0 a1 a2 s) := by
  unfold answer
  exact Moves.step (Moves.refl _ s) (sendReply_moves ..) rfl

theorem runCmd_moves {l : List Part} (o c s) (h : DoneMoves l s (o.body c s)) :
    Moves ([.waiting, .out, .regs, .log, .cmd, .prot, .host, .svc] ++ l) s (runCmd o c s) := by
  have hl : ∀ {m : List Part} {r t : State}, Moves m r t →
      m.all [Part.waiting, .out, .regs, .log, .cmd, .prot, .host, .svc].contains = true →
      Moves ([.waiting, .out, .regs, .log, .cmd, .prot, .host, .svc] ++ l) r t := by
    intro m r t k hk
    exact (Moves.wider k hk).wider (all_left _ _)
  have hr : ∀ {t : State}, Moves l s t → Moves ([.waiting, .out, .regs, .log, .cmd, .prot, .host, .svc] ++ l) s t := by
    intro t k
    exact k.wider (all_right _ _)
  have hs : ∀ {m : List Part} {r t u : State}, Moves ([.waiting, .out, .regs, .log, .cmd, .prot, .host, .svc] ++ l) r t → Moves m t u →
      m.all [Part.waiting, .out, .regs, .log, .cmd, .prot, .host, .svc].contains = true →
      Moves ([.waiting, .out, .regs, .log, .cmd, .prot, .host, .svc] ++ l) r u :=
    fun k k' hk => k.step (hl k' hk) (all_self _)
  have hz := Moves.refl ([.waiting, .out, .regs, .log, .cmd, .prot, .host, .svc] ++ l) s
  unfold runCmd
  refine Moves.ite (hs hz (answer_moves ..) rfl) (Moves.ite (hs hz (park_moves ..) rfl) ?_)
  split
  · exact Moves.ite (hs (hs hz (answer_moves ..) rfl) (violation_moves ..) rfl) (hs hz (answer_moves ..) rfl)
  · refine Moves.ite (Moves.ite (hs hz (openJoint_moves ..) rfl) (hs hz (answer_moves ..) rfl)) ?_
    refine Moves.ite (hs hz (answer_moves ..) rfl) ?_
    split
    · exact hs hz (answer_moves ..) rfl
    · extract_lets -merge -useContext -underBinder e
      clear_value e
      split
      · exact hs hz (answer_moves ..) rfl
      · rename_i r t hd
        rw [hd] at h
        have ht := hr h
        exact Moves.ite (hs ht (sendReply_moves ..) rfl) (Moves.ite (hs ht (openJoint_moves ..) rfl)
          (Moves.ite (hs ht (sendReply_moves ..) rfl) (hs ht (sendReply_moves ..) rfl)))
      · rename_i k t f hd
        rw [hd] at h
        extract_lets -merge -useContext -underBinder x y z
        have hy : Moves ([.waiting, .out, .regs, .log, .cmd, .prot, .host, .svc] ++ l) s y :=
          hs (m := [.cmd]) (hr h.1) (Moves.leaf (by intro x hx; cases x <;> first | rfl | exact absurd (by decide) hx) rfl rfl rfl rfl) rfl
        have hz' : Moves ([.waiting, .out, .regs, .log, .cmd, .prot, .host, .svc] ++ l) s z := hs hy (sendReply_moves ..) rfl
        clear_value z
        refine Moves.step ?_ (h.2 _) (all_right _ _)
        exact Moves.ite (hs hz' (openJoint_moves ..) rfl) hz'
      · rename_i k t hd
        rw [hd] at h
        exact hs (m := [.cmd]) (hr h) (Moves.leaf (by intro x hx; cases x <;> first | rfl | exact absurd (by decide) hx) rfl rfl rfl rfl) rfl

theorem touchStage_moves (s) : Moves [.cfg] s (touchStage s) := by
  unfold touchStage
  extract_lets -merge -useContext -underBinder y0
  clear_value y0
  exact Moves.step (m := [.cfg]) (Moves.refl _ s) (Moves.leaf (by intro x hx; cases x <;> first | rfl | exact absurd (by decide) hx) rfl rfl rfl rfl) rfl

theorem opState_moves (a0 s) : Moves [.cfg] s (opState a0 s) := by
  unfold opState
  refine Moves.ite ?_ ?_
  ·
    exact Moves.step (Moves.refl _ s) (touchStage_moves ..) rfl
  ·
    exact (Moves.refl _ s)

theorem loadEvents_moves (a0 a1 a2 s) : Moves [.regs, .log, .tbl] s (loadEvents a0 a1 a2 s) := by
  unfold loadEvents
  extract_lets -merge -useContext -underBinder y0 y1 y2 y3
  clear_value y0
  clear_value y1
  clear_value y2
  have hy3 : Moves [.regs, .log, .tbl] s y3 := by
    unfold y3
    refine Moves.ite ?_ ?_
    ·
      refine Moves.step ?_ (raise_moves ..) rfl
      exact Moves.step (m := [.tbl]) (Moves.refl _ s) (Moves.leaf (by intro x hx; cases x <;> first | rfl | exact absurd (by decide) hx) rfl rfl rfl rfl) rfl
    ·
      exact (Moves.refl _ s)
  clear_value y3
  refine Moves.ite ?_ ?_
  ·
    exact Moves.step hy3 (raise_moves ..) rfl
  ·
    exact hy3

theorem rearmLoads_moves (s) : Moves [.tbl] s (rearmLoads s) := by
  unfold rearmLoads
  extract_lets -merge -useContext -underBinder y0
  clear_value y0
  exact Moves.step (m := [.tbl]) (Moves.refl _ s) (Moves.leaf (by intro x hx; cases x <;> first | rfl | exact absurd (by decide) hx) rfl rfl rfl rfl) rfl

theorem seedOf_moves (a0 s) : MovesAll hasSnd [.freeIx, .tbl] s (seedOf a0 s) := by
  unfold seedOf
  split
  ·
    refine hasSnd_mk ?_
    exact (Moves.refl _ s)
  ·
    split
    ·
      rename_i v0 v1 e2
      have hv1 : Moves [.freeIx, .tbl] s v1 := by
        refine MovesAll.of_eq (has := hasSnd) e2 rfl ?_
        exact MovesAll.step (Moves.refl _ s) (drawRandom_moves _) rfl
      extract_lets -merge -useContext -underBinder y3
      clear_value y3
      refine hasSnd_mk ?_
      exact Moves.step (m := [.tbl]) hv1 (Moves.leaf (by intro x hx; cases x <;> first | rfl | exact absurd (by decide) hx) rfl rfl rfl rfl) rfl

theorem putEntries_moves (a0 a1 a2 s) : Moves [.tbl] s (putEntries a0 a1 a2 s) := by
  unfold putEntries
  extract_lets -merge -useContext -underBinder y0
  clear_value y0
  exact Moves.step (m := [.tbl]) (Moves.refl _ s) (Moves.leaf (by intro x hx; cases x <;> first | rfl | exact absurd (by decide) hx) rfl rfl rfl rfl) rfl

theorem startReseed_moves (a0 a1 a2 a3 s) : DoneMoves [.regs, .log, .tbl] s (startReseed a0 a1 a2 a3 s) := by
  unfold startReseed
  extract_lets -merge -useContext -underBinder y0 y1 y2
  clear_value y0
  clear_value y1
  have hy2 : Moves [.regs, .log, .tbl] s y2 := by
    unfold y2
    exact Moves.step (m := [.tbl]) (Moves.refl _ s) (Moves.leaf (by intro x hx; cases x <;> first | rfl | exact absurd (by decide) hx) rfl rfl rfl rfl) rfl
  clear_value y2
  refine hasDone_accept ?_ (fun u => Moves.refl _ u)
  exact Moves.step hy2 (raise_moves ..) rfl

theorem insertEntry_moves (a0 a1 a2 a3 a4 s) : DoneMoves [.freeIx, .regs, .log, .tbl] s (insertEntry a0 a1 a2 a3 a4 s) := by
  unfold insertEntry
  extract_lets -merge -useContext -underBinder y0 y1
  clear_value y0
  clear_value y1
  split
  ·
    rename_i v2 v3 e4
    have hv3 : Moves [.freeIx, .regs, .log, .tbl] s v3 := by
      refine MovesAll.of_eq (has := hasSnd) e4 rfl ?_
      exact MovesAll.step (Moves.refl _ s) (seedOf_moves _ _) rfl
    extract_lets -merge -useContext -underBinder y5 y6
    clear_value y5
    clear_value y6
    split
    ·
      extract_lets -merge -useContext -underBinder y7 y8 y9
      clear_value y7
      clear_value y8
      clear_value y9
      refine DoneMoves.ite ?_ ?_
      ·
        exact hasDone_refuse
      ·
        refine hasDone_reply ?_
        refine Moves.step ?_ (loadEvents_moves ..) rfl
        exact Moves.step (m := [.tbl]) hv3 (Moves.leaf (by intro x hx; cases x <;> first | rfl | exact absurd (by decide) hx) rfl rfl rfl rfl) rfl
    ·
      refine DoneMoves.ite ?_ ?_
      ·
        exact hasDone_refuse
      ·
        exact DoneMoves.step hv3 (startReseed_moves _ _ _ _ _) rfl

theorem opTblInsert_moves (c s) : DoneMoves [.freeIx, .regs, .log, .cfg, .tbl] s ((opTblInsert).body c s) := by
  unfold opTblInsert
  extract_lets -merge -useContext -underBinder src
  change DoneMoves _ s (src.body c s)
  unfold src
  refine op_mk ?_
  refine DoneMoves.ite ?_ ?_
  ·
    exact hasDone_refuse
  ·
    split
    ·
      exact hasDone_refuse
    ·
      extract_lets -merge -useContext -underBinder y0
      clear_value y0
      refine DoneMoves.ite ?_ ?_
      ·
        exact hasDone_refuse
      ·
        refine DoneMoves.step ?_ (insertEntry_moves _ _ _ _ _ _) rfl
        exact Moves.step (Moves.refl _ s) (opState_moves ..) rfl

theorem execTblInsert_moves (a0 s) : MovesAll hasNext [.waiting, .out, .freeIx, .regs, .log, .cmd, .cfg, .prot, .tbl, .host, .svc] s (execTblInsert a0 s) := by
  unfold execTblInsert
  refine hasNext_next ?_
  exact Moves.step (Moves.refl _ s) (runCmd_moves _ _ _ (opTblInsert_moves ..)) rfl

theorem opTblDelete_moves (c s) : DoneMoves [.cfg, .tbl] s ((opTblDelete).body c s) := by
  unfold opTblDelete
  extract_lets -merge -useContext -underBinder src
  change DoneMoves _ s (src.body c s)
  unfold src
  refine op_mk ?_
  split
  ·
    exact hasDone_refuse
  ·
    split
    ·
      exact hasDone_refuse
    ·
      extract_lets -merge -useContext -underBinder y0 y1 y2
      clear_value y0
      have hy1 : Moves [.cfg, .tbl] s y1 := by
        unfold y1
        exact Moves.step (Moves.refl _ s) (opState_moves ..) rfl
      clear_value y1
      clear_value y2
      refine DoneMoves.ite ?_ ?_
      ·
        exact hasDone_refuse
      ·
        refine hasDone_reply ?_
        exact Moves.step (m := [.tbl]) hy1 (Moves.leaf (by intro x hx; cases x <;> first | rfl | exact absurd (by decide) hx) rfl rfl rfl rfl) rfl

theorem execTblDelete_moves (a0 s) : MovesAll hasNext [.waiting, .out, .regs, .log, .cmd, .cfg, .prot, .tbl, .host, .svc] s (execTblDelete a0 s) := by
  unfold execTblDelete
  refine hasNext_next ?_
  exact Moves.step (Moves.refl _ s) (runCmd_moves _ _ _ (opTblDelete_moves ..)) rfl

theorem opTblModify_moves (c s) : DoneMoves [.freeIx, .regs, .log, .cfg, .tbl] s ((opTblModify).body c s) := by
  unfold opTblModify
  extract_lets -merge -useContext -underBinder src
  change DoneMoves _ s (src.body c s)
  unfold src
  refine op_mk ?_
  refine DoneMoves.ite ?_ ?_
  ·
    exact hasDone_refuse
  ·
    split
    ·
      exact hasDone_refuse
    ·
      extract_lets -merge -useContext -underBinder y0
      clear_value y0
      split
      ·
        exact hasDone_refuse
      ·
        refine DoneMoves.step ?_ (insertEntry_moves _ _ _ _ _ _) rfl
        exact Moves.step (Moves.refl _ s) (opState_moves ..) rfl

theorem execTblModify_moves (a0 s) : MovesAll hasNext [.waiting, .out, .freeIx, .regs, .log, .cmd, .cfg, .prot, .tbl, .host, .svc] s (execTblModify a0 s) := by
  unfold execTblModify
  refine hasNext_next ?_
  exact Moves.step (Moves.refl _ s) (runCmd_moves _ _ _ (opTblModify_moves ..)) rfl

theorem hitBit_moves (a0 a1 s) : Moves [.tbl] s (hitBit a0 a1 s) := by
  unfold hitBit
  extract_lets -merge -useContext -underBinder y0 y1
  clear_value y0
  clear_value y1
  exact Moves.step (m := [.tbl]) (Moves.refl _ s) (Moves.leaf (by intro x hx; cases x <;> first | rfl | exact absurd (by decide) hx) rfl rfl rfl rfl) rfl

theorem opTblLookup_moves (c s) : DoneMoves [.cfg, .tbl] s ((opTblLookup).body c s) := by
  unfold opTblLookup
  extract_lets -merge -useContext -underBinder src
  change DoneMoves _ s (src.body c s)
  unfold src
  refine op_mk ?_
  refine DoneMoves.ite ?_ ?_
  ·
    exact hasDone_refuse
  ·
    refine DoneMoves.ite ?_ ?_
    ·
      exact hasDone_refuse
    ·
      split
      ·
        exact hasDone_refuse
      ·
        split
        ·
          refine hasDone_reply ?_
          exact Moves.step (Moves.refl _ s) (opState_moves ..) rfl
        ·
          extract_lets -merge -useContext -underBinder y0 y1 y2
          clear_value y0
          have hy1 : Moves [.cfg, .tbl] s y1 := by
            unfold y1
            exact Moves.step (Moves.refl _ s) (opState_moves ..) rfl
          clear_value y1
          have hy2 : Moves [.cfg, .tbl] s y2 := by
            unfold y2
            refine Moves.ite ?_ ?_
            ·
              exact Moves.step hy1 (hitBit_moves ..) rfl
            ·
              exact hy1
          clear_value y2
          refine hasDone_reply ?_
          exact hy2

theorem execTblLookup_moves (a0 s) : MovesAll hasNext [.waiting, .out, .regs, .log, .cmd, .cfg, .prot, .tbl, .host, .svc] s (execTblLookup a0 s) := by
  unfold execTblLookup
  refine hasNext_next ?_
  exact Moves.step (Moves.refl _ s) (runCmd_moves _ _ _ (opTblLookup_moves ..)) rfl

theorem tblDiscard_moves (a0 s) : Moves [.tbl] s (tblDiscard a0 s) := by
  unfold tblDiscard
  extract_lets -merge -useContext -underBinder y0
  clear_value y0
  refine Moves.step ?_ (rearmLoads_moves ..) rfl
  exact Moves.step (m := [.tbl]) (Moves.refl _ s) (Moves.leaf (by intro x hx; cases x <;> first | rfl | exact absurd (by decide) hx) rfl rfl rfl rfl) rfl

theorem tblSweep_moves (a0 s) : Moves [.tbl] s (tblSweep a0 s) := by
  unfold tblSweep
  extract_lets -merge -useContext -underBinder y0
  clear_value y0
  refine Moves.step ?_ (rearmLoads_moves ..) rfl
  exact Moves.step (m := [.tbl]) (Moves.refl _ s) (Moves.leaf (by intro x hx; cases x <;> first | rfl | exact absurd (by decide) hx) rfl rfl rfl rfl) rfl

theorem storeVersion_moves {l : List Part} (hb : [Part.cfg].all l.contains = true) {α : Type} {c : Cmd} {s : State} {x : List (Version α)}
    {v : α} {put : List (Version α) → State → State} (h : ∀ y u, Moves l u (put y u)) : DoneMoves l s (storeVersion c s x v put) := by
  unfold storeVersion
  split
  · exact hasDone_refuse
  · exact hasDone_reply (Moves.step (Moves.step (Moves.refl _ s) (opState_moves ..) (all_sub hb rfl)) (h _ _) (all_self _))

theorem opTblProgramSet_moves (c s) : DoneMoves [.cfg, .tbl] s ((opTblProgramSet).body c s) := by
  unfold opTblProgramSet
  extract_lets -merge -useContext -underBinder src
  change DoneMoves _ s (src.body c s)
  unfold src
  refine op_mk ?_
  extract_lets -merge -useContext -underBinder y0 y1 y2
  clear_value y0
  clear_value y1
  clear_value y2
  refine DoneMoves.ite ?_ ?_
  ·
    exact hasDone_refuse
  ·
    refine DoneMoves.ite ?_ ?_
    ·
      exact hasDone_refuse
    ·
      split
      ·
        exact hasDone_refuse
      ·
        refine DoneMoves.step (m := [.cfg, .tbl]) (Moves.refl _ s) (storeVersion_moves rfl (fun u3 u4 => ?_)) rfl
        extract_lets -merge -useContext -underBinder y5
        clear_value y5
        exact Moves.step (m := [.tbl]) (Moves.refl _ u4) (Moves.leaf (by intro x hx; cases x <;> first | rfl | exact absurd (by decide) hx) rfl rfl rfl rfl) rfl

theorem execTblProgramSet_moves (a0 s) : MovesAll hasNext [.waiting, .out, .regs, .log, .cmd, .cfg, .prot, .tbl, .host, .svc] s (execTblProgramSet a0 s) := by
  unfold execTblProgramSet
  refine hasNext_next ?_
  exact Moves.step (Moves.refl _ s) (runCmd_moves _ _ _ (opTblProgramSet_moves ..)) rfl

theorem opTblTemplateSet_moves (c s) : DoneMoves [.cfg, .tbl] s ((opTblTemplateSet).body c s) := by
  unfold opTblTemplateSet
  extract_lets -merge -useContext -underBinder src
  change DoneMoves _ s (src.body c s)
  unfold src
  refine op_mk ?_
  extract_lets -merge -useContext -underBinder y0 y1
  clear_value y0
  clear_value y1
  refine DoneMoves.ite ?_ ?_
  ·
    exact hasDone_refuse
  ·
    refine DoneMoves.ite ?_ ?_
    ·
      exact hasDone_refuse
    ·
      split
      ·
        exact hasDone_refuse
      ·
        refine DoneMoves.step (m := [.cfg, .tbl]) (Moves.refl _ s) (storeVersion_moves rfl (fun u2 u3 => ?_)) rfl
        extract_lets -merge -useContext -underBinder y4
        clear_value y4
        exact Moves.step (m := [.tbl]) (Moves.refl _ u3) (Moves.leaf (by intro x hx; cases x <;> first | rfl | exact absurd (by decide) hx) rfl rfl rfl rfl) rfl

theorem execTblTemplateSet_moves (a0 s) : MovesAll hasNext [.waiting, .out, .regs, .log, .cmd, .cfg, .prot, .tbl, .host, .svc] s (execTblTemplateSet a0 s) := by
  unfold execTblTemplateSet
  refine hasNext_next ?_
  exact Moves.step (Moves.refl _ s) (runCmd_moves _ _ _ (opTblTemplateSet_moves ..)) rfl

theorem opTblGroupSet_moves (c s) : DoneMoves [.cfg, .tbl] s ((opTblGroupSet).body c s) := by
  unfold opTblGroupSet
  extract_lets -merge -useContext -underBinder src
  change DoneMoves _ s (src.body c s)
  unfold src
  refine op_mk ?_
  extract_lets -merge -useContext -underBinder y0 y1 y2 y3 y4 y5
  refine DoneMoves.ite hasDone_refuse ?_
  refine DoneMoves.ite hasDone_refuse ?_
  refine DoneMoves.ite hasDone_refuse ?_
  refine DoneMoves.ite hasDone_refuse ?_
  refine DoneMoves.ite hasDone_refuse ?_
  split
  · exact hasDone_refuse
  · extract_lets -merge -useContext -underBinder y6 y7
    have h7 : ∀ l u, Moves [.tbl] u (y7 l u) := fun l u =>
      Moves.leaf (by intro x hx; cases x <;> first | rfl | exact absurd (by decide) hx) rfl rfl rfl rfl
    split
    · extract_lets -merge -useContext -underBinder y8 y9 y10
      refine DoneMoves.ite hasDone_refuse ?_
      exact hasDone_reply (Moves.step (Moves.step (Moves.refl _ s) (opState_moves ..) rfl) (h7 _ _) rfl)
    · exact DoneMoves.step (m := [.cfg, .tbl]) (Moves.refl [.cfg, .tbl] s) (storeVersion_moves rfl (fun l u => (h7 l u).wider rfl)) rfl

theorem execTblGroupSet_moves (a0 s) : MovesAll hasNext [.waiting, .out, .regs, .log, .cmd, .cfg, .prot, .tbl, .host, .svc] s (execTblGroupSet a0 s) := by
  unfold execTblGroupSet
  refine hasNext_next ?_
  exact Moves.step (Moves.refl _ s) (runCmd_moves _ _ _ (opTblGroupSet_moves ..)) rfl

theorem refillGroups_moves (s) : Moves [.tbl] s (refillGroups s) := by
  unfold refillGroups
  extract_lets -merge -useContext -underBinder y0
  clear_value y0
  exact Moves.step (m := [.tbl]) (Moves.refl _ s) (Moves.leaf (by intro x hx; cases x <;> first | rfl | exact absurd (by decide) hx) rfl rfl rfl rfl) rfl

theorem opTblLagSet_moves (c s) : DoneMoves [.cfg, .tbl] s ((opTblLagSet).body c s) := by
  unfold opTblLagSet
  extract_lets -merge -useContext -underBinder src
  change DoneMoves _ s (src.body c s)
  unfold src
  refine op_mk ?_
  extract_lets -merge -useContext -underBinder y0 y1 y2
  clear_value y0
  clear_value y1
  clear_value y2
  refine DoneMoves.ite ?_ ?_
  ·
    exact hasDone_refuse
  ·
    refine DoneMoves.ite ?_ ?_
    ·
      exact hasDone_refuse
    ·
      refine DoneMoves.ite ?_ ?_
      ·
        exact hasDone_refuse
      ·
        split
        ·
          exact hasDone_refuse
        ·
          refine DoneMoves.step (m := [.cfg, .tbl]) (Moves.refl _ s) (storeVersion_moves rfl (fun u3 u4 => ?_)) rfl
          extract_lets -merge -useContext -underBinder y5
          clear_value y5
          exact Moves.step (m := [.tbl]) (Moves.refl _ u4) (Moves.leaf (by intro x hx; cases x <;> first | rfl | exact absurd (by decide) hx) rfl rfl rfl rfl) rfl

theorem execTblLagSet_moves (a0 s) : MovesAll hasNext [.waiting, .out, .regs, .log, .cmd, .cfg, .prot, .tbl, .host, .svc] s (execTblLagSet a0 s) := by
  unfold execTblLagSet
  refine hasNext_next ?_
  exact Moves.step (Moves.refl _ s) (runCmd_moves _ _ _ (opTblLagSet_moves ..)) rfl

theorem opTblCounterRead_moves (c s) : DoneMoves [.tbl] s ((opTblCounterRead).body c s) := by
  unfold opTblCounterRead
  refine op_mk ?_
  extract_lets -merge -useContext -underBinder y0
  clear_value y0
  split
  ·
    extract_lets -merge -useContext -underBinder y1
    clear_value y1
    refine DoneMoves.ite ?_ ?_
    ·
      exact hasDone_refuse
    ·
      refine hasDone_reply ?_
      refine Moves.ite ?_ ?_
      ·
        exact Moves.step (m := [.tbl]) (Moves.refl _ s) (Moves.leaf (by intro x hx; cases x <;> first | rfl | exact absurd (by decide) hx) rfl rfl rfl rfl) rfl
      ·
        exact (Moves.refl _ s)

theorem execTblCounterRead_moves (a0 s) : MovesAll hasNext [.waiting, .out, .regs, .log, .cmd, .prot, .tbl, .host, .svc] s (execTblCounterRead a0 s) := by
  unfold execTblCounterRead
  refine hasNext_next ?_
  exact Moves.step (Moves.refl _ s) (runCmd_moves _ _ _ (opTblCounterRead_moves ..)) rfl

theorem opTblMeterSet_moves (c s) : DoneMoves [.tbl] s ((opTblMeterSet).body c s) := by
  unfold opTblMeterSet
  refine op_mk ?_
  extract_lets -merge -useContext -underBinder y0 y1
  clear_value y0
  clear_value y1
  refine DoneMoves.ite ?_ ?_
  ·
    exact hasDone_refuse
  ·
    refine DoneMoves.ite ?_ ?_
    ·
      exact hasDone_refuse
    ·
      refine DoneMoves.ite ?_ ?_
      ·
        exact hasDone_refuse
      ·
        refine hasDone_reply ?_
        exact Moves.step (m := [.tbl]) (Moves.refl _ s) (Moves.leaf (by intro x hx; cases x <;> first | rfl | exact absurd (by decide) hx) rfl rfl rfl rfl) rfl

theorem execTblMeterSet_moves (a0 s) : MovesAll hasNext [.waiting, .out, .regs, .log, .cmd, .prot, .tbl, .host, .svc] s (execTblMeterSet a0 s) := by
  unfold execTblMeterSet
  refine hasNext_next ?_
  exact Moves.step (Moves.refl _ s) (runCmd_moves _ _ _ (opTblMeterSet_moves ..)) rfl

theorem mkaMod_moves (a0 a1 s) : Moves [.cry] s (mkaMod a0 a1 s) := by
  unfold mkaMod
  extract_lets -merge -useContext -underBinder y0
  clear_value y0
  exact Moves.step (m := [.cry]) (Moves.refl _ s) (Moves.leaf (by intro x hx; cases x <;> first | rfl | exact absurd (by decide) hx) rfl rfl rfl rfl) rfl

theorem portRegRead_moves (a0 a1 s) : Moves [.ports] s (portRegRead a0 a1 s) := by
  unfold portRegRead
  refine Moves.ite ?_ ?_
  ·
    exact Moves.step (Moves.refl _ s) (portMod_moves ..) rfl
  ·
    refine Moves.ite ?_ ?_
    ·
      exact Moves.step (Moves.refl _ s) (portMod_moves ..) rfl
    ·
      refine Moves.ite ?_ ?_
      ·
        exact Moves.step (Moves.refl _ s) (portMod_moves ..) rfl
      ·
        exact (Moves.refl _ s)

theorem noteFree_moves (a0 s) : Moves [.buf] s (noteFree a0 s) := by
  unfold noteFree
  extract_lets -merge -useContext -underBinder y0
  clear_value y0
  exact Moves.step (m := [.buf]) (Moves.refl _ s) (Moves.leaf (by intro x hx; cases x <;> first | rfl | exact absurd (by decide) hx) rfl rfl rfl rfl) rfl

theorem noteFrees_moves (s) : Moves [.buf] s (noteFrees s) := by
  unfold noteFrees
  refine Moves.foldl ?_ (fun t0 x1 ht0 => ?_)
  ·
    exact (Moves.refl _ s)
  ·
    exact Moves.step ht0 (noteFree_moves ..) rfl

theorem tblRegRead_moves (a0 a1 s) : Moves [.buf] s (tblRegRead a0 a1 s) := by
  unfold tblRegRead
  extract_lets -merge -useContext -underBinder y0
  clear_value y0
  refine Moves.ite ?_ ?_
  ·
    exact Moves.step (m := [.buf]) (Moves.refl _ s) (Moves.leaf (by intro x hx; cases x <;> first | rfl | exact absurd (by decide) hx) rfl rfl rfl rfl) rfl
  ·
    exact (Moves.refl _ s)

theorem areaRead_moves (a0 s) : Moves [.ports, .buf] s (areaRead a0 s) := by
  unfold areaRead
  refine Moves.ite ?_ ?_
  ·
    exact Moves.step (Moves.refl _ s) (portRegRead_moves ..) rfl
  ·
    refine Moves.ite ?_ ?_
    ·
      exact Moves.step (Moves.refl _ s) (tblRegRead_moves ..) rfl
    ·
      exact (Moves.refl _ s)

theorem timeMod_moves (a0 s) : Moves [.time] s (timeMod a0 s) := by
  unfold timeMod
  exact Moves.step (m := [.time]) (Moves.refl _ s) (Moves.leaf (by intro x hx; cases x <;> first | rfl | exact absurd (by decide) hx) rfl rfl rfl rfl) rfl

theorem evlogMod_moves (a0 s) : Moves [.log] s (evlogMod a0 s) := by
  unfold evlogMod
  exact Moves.step (m := [.log]) (Moves.refl _ s) (Moves.leaf (by intro x hx; cases x <;> first | rfl | exact absurd (by decide) hx) rfl rfl rfl rfl) rfl

theorem stepTime_moves (a0 a1 s) : Moves [.regs, .time, .log, .flow] s (stepTime a0 a1 s) := by
  unfold stepTime
  extract_lets -merge -useContext -underBinder y0 y1 y2 y3 y4
  clear_value y0
  clear_value y1
  have hy2 : Moves [.regs, .time, .log, .flow] s y2 := by
    unfold y2
    exact Moves.step (Moves.refl _ s) (timeMod_moves ..) rfl
  clear_value y2
  clear_value y3
  have hy4 : Moves [.regs, .time, .log, .flow] s y4 := by
    unfold y4
    refine Moves.ite ?_ ?_
    ·
      exact Moves.step (m := [.flow]) hy2 (Moves.leaf (by intro x hx; cases x <;> first | rfl | exact absurd (by decide) hx) rfl rfl rfl rfl) rfl
    ·
      exact hy2
  clear_value y4
  exact Moves.step hy4 (raise_moves ..) rfl

theorem slewOffset_moves (a0 s) : Moves [.regs, .time, .log] s (slewOffset a0 s) := by
  unfold slewOffset
  extract_lets -merge -useContext -underBinder y0
  have hy0 : Moves [.regs, .time, .log] s y0 := by
    unfold y0
    exact Moves.step (Moves.refl _ s) (timeMod_moves ..) rfl
  clear_value y0
  refine Moves.ite ?_ ?_
  ·
    exact Moves.step hy0 (raise_moves ..) rfl
  ·
    exact hy0

theorem measured_moves (a0 s) : Moves [.time] s (measured a0 s) := by
  unfold measured
  exact Moves.step (Moves.refl _ s) (timeMod_moves ..) rfl

theorem writeTime_moves (s) : Moves [.out, .flash] s (writeTime s) := by
  unfold writeTime
  extract_lets -merge -useContext -underBinder y0
  clear_value y0
  refine Moves.step ?_ (toFlash_moves ..) rfl
  exact Moves.step (m := [.flash]) (Moves.refl _ s) (Moves.leaf (by intro x hx; cases x <;> first | rfl | exact absurd (by decide) hx) rfl rfl rfl rfl) rfl

theorem logToDdr5_moves (a0 s) : Moves [.log, .svc, .mem] s (logToDdr5 a0 s) := by
  unfold logToDdr5
  extract_lets -merge -useContext -underBinder y0 y1
  clear_value y0
  have hy1 : Moves [.log, .svc, .mem] s y1 := by
    unfold y1
    refine Moves.ite ?_ ?_
    ·
      exact (Moves.refl _ s)
    ·
      exact Moves.step (Moves.refl _ s) (memWrite_moves ..) rfl
  clear_value y1
  refine Moves.ite ?_ ?_
  ·
    exact Moves.step hy1 (evlogMod_moves ..) rfl
  ·
    exact hy1

theorem logToG0_moves (a0 s) : Moves [.log] s (logToG0 a0 s) := by
  unfold logToG0
  exact Moves.step (Moves.refl _ s) (evlogMod_moves ..) rfl

theorem logAppend_moves (a0 s) : Moves [.log, .svc, .mem] s (logAppend a0 s) := by
  unfold logAppend
  extract_lets -merge -useContext -underBinder y0 y1
  clear_value y0
  have hy1 : Moves [.log, .svc, .mem] s y1 := by
    unfold y1
    exact Moves.step (Moves.refl _ s) (evlogMod_moves ..) rfl
  clear_value y1
  refine Moves.ite ?_ ?_
  ·
    exact Moves.step hy1 (logToDdr5_moves ..) rfl
  ·
    exact Moves.step hy1 (logToG0_moves ..) rfl

theorem logIntoDdr5_moves (s) : Moves [.log, .svc, .mem] s (logIntoDdr5 s) := by
  unfold logIntoDdr5
  extract_lets -merge -useContext -underBinder y0 y1 y2
  clear_value y0
  have hy1 : Moves [.log, .svc, .mem] s y1 := by
    unfold y1
    exact Moves.step (Moves.refl _ s) (evlogMod_moves ..) rfl
  clear_value y1
  have hy2 : Moves [.log, .svc, .mem] s y2 := by
    unfold y2
    split
    ·
      exact hy1
    ·
      refine Moves.ite ?_ ?_
      ·
        exact hy1
      ·
        exact Moves.step hy1 (evlogMod_moves ..) rfl
  clear_value y2
  refine Moves.foldl ?_ (fun t3 x4 ht3 => ?_)
  ·
    exact hy2
  ·
    exact Moves.step ht3 (logToDdr5_moves ..) rfl

theorem mbxMod_moves (a0 a1 s) : Moves [.mbx] s (mbxMod a0 a1 s) := by
  unfold mbxMod
  exact Moves.step (m := [.mbx]) (Moves.refl _ s) (Moves.leaf (by intro x hx; cases x <;> first | rfl | exact absurd (by decide) hx) rfl rfl rfl rfl) rfl

theorem mbxSignal_moves (a0 a1 a2 a3 s) : Moves [.out, .host, .svc] s (mbxSignal a0 a1 a2 a3 s) := by
  unfold mbxSignal
  refine Moves.ite ?_ ?_
  ·
    exact (Moves.refl _ s)
  ·
    split
    ·
      exact Moves.step (Moves.refl _ s) (signalVector_moves ..) rfl
    ·
      refine Moves.ite ?_ ?_
      ·
        split
        ·
          refine MovesAll.get_fst ?_
          exact MovesAll.step (Moves.refl _ s) (extMessage_moves _ _ _ _ _) rfl
        ·
          exact (Moves.refl _ s)
      ·
        exact Moves.step (Moves.refl _ s) (emit_moves ..) rfl

theorem signalReceiver_moves (a0 a1 s) : Moves [.out, .host, .svc] s (signalReceiver a0 a1 s) := by
  unfold signalReceiver
  split
  ·
    exact Moves.step (Moves.refl _ s) (mbxSignal_moves ..) rfl
  ·
    exact (Moves.refl _ s)

theorem signalSender_moves (a0 a1 s) : Moves [.out, .host, .svc] s (signalSender a0 a1 s) := by
  unfold signalSender
  split
  ·
    exact Moves.step (Moves.refl _ s) (mbxSignal_moves ..) rfl
  ·
    exact (Moves.refl _ s)

theorem mbxSend_moves (a0 a1 s) : Moves [.out, .host, .svc, .mbx] s (mbxSend a0 a1 s) := by
  unfold mbxSend
  extract_lets -merge -useContext -underBinder y0
  clear_value y0
  refine Moves.ite ?_ ?_
  ·
    refine Moves.step ?_ (signalSender_moves ..) rfl
    exact Moves.step (Moves.refl _ s) (mbxMod_moves ..) rfl
  ·
    refine Moves.ite ?_ ?_
    ·
      refine Moves.step ?_ (signalSender_moves ..) rfl
      exact Moves.step (Moves.refl _ s) (mbxMod_moves ..) rfl
    ·
      refine Moves.step ?_ (signalReceiver_moves ..) rfl
      exact Moves.step (Moves.refl _ s) (mbxMod_moves ..) rfl

theorem mbxRead63_moves (a0 s) : Moves [.out, .host, .svc, .mbx] s (mbxRead63 a0 s) := by
  unfold mbxRead63
  refine Moves.ite ?_ ?_
  ·
    refine Moves.step ?_ (signalSender_moves ..) rfl
    exact Moves.step (Moves.refl _ s) (mbxMod_moves ..) rfl
  ·
    exact (Moves.refl _ s)

theorem mbxDbSet_moves (a0 a1 s) : Moves [.out, .host, .svc, .mbx] s (mbxDbSet a0 a1 s) := by
  unfold mbxDbSet
  extract_lets -merge -useContext -underBinder y0
  have hy0 : Moves [.out, .host, .svc, .mbx] s y0 := by
    unfold y0
    exact Moves.step (Moves.refl _ s) (mbxMod_moves ..) rfl
  clear_value y0
  refine Moves.ite ?_ ?_
  ·
    exact Moves.step hy0 (signalReceiver_moves ..) rfl
  ·
    exact hy0

theorem mbxDbClear_moves (a0 a1 s) : Moves [.mbx] s (mbxDbClear a0 a1 s) := by
  unfold mbxDbClear
  exact Moves.step (Moves.refl _ s) (mbxMod_moves ..) rfl

theorem mbxDbMask_moves (a0 a1 s) : Moves [.out, .host, .svc, .mbx] s (mbxDbMask a0 a1 s) := by
  unfold mbxDbMask
  extract_lets -merge -useContext -underBinder y0 y1
  clear_value y0
  have hy1 : Moves [.out, .host, .svc, .mbx] s y1 := by
    unfold y1
    exact Moves.step (Moves.refl _ s) (mbxMod_moves ..) rfl
  clear_value y1
  refine Moves.ite ?_ ?_
  ·
    exact Moves.step hy1 (signalReceiver_moves ..) rfl
  ·
    exact hy1

theorem mbxResetReceiver_moves (a0 a1 s) : Moves [.out, .host, .svc, .mbx] s (mbxResetReceiver a0 a1 s) := by
  unfold mbxResetReceiver
  refine Moves.step ?_ (signalSender_moves ..) rfl
  exact Moves.step (Moves.refl _ s) (mbxMod_moves ..) rfl

theorem mbxResetSender_moves (a0 s) : Moves [.out, .host, .svc, .mbx] s (mbxResetSender a0 s) := by
  unfold mbxResetSender
  extract_lets -merge -useContext -underBinder y0 y1
  clear_value y0
  have hy1 : Moves [.out, .host, .svc, .mbx] s y1 := by
    unfold y1
    exact Moves.step (Moves.refl _ s) (mbxMod_moves ..) rfl
  clear_value y1
  refine Moves.ite ?_ ?_
  ·
    refine Moves.step ?_ (signalReceiver_moves ..) rfl
    exact Moves.step hy1 (mbxMod_moves ..) rfl
  ·
    exact hy1

theorem mbxResetEnds_moves (a0 a1 s) : Moves [.out, .host, .svc, .mbx] s (mbxResetEnds a0 a1 s) := by
  unfold mbxResetEnds
  extract_lets -merge -useContext -underBinder y0
  have hy0 : Moves [.out, .host, .svc, .mbx] s y0 := by
    unfold y0
    refine Moves.foldl ?_ (fun t1 x2 ht1 => ?_)
    ·
      exact (Moves.refl _ s)
    ·
      refine Moves.ite ?_ ?_
      ·
        exact Moves.step ht1 (mbxResetReceiver_moves ..) rfl
      ·
        exact ht1
  clear_value y0
  refine Moves.foldl ?_ (fun t3 x4 ht3 => ?_)
  ·
    exact hy0
  ·
    refine Moves.ite ?_ ?_
    ·
      exact Moves.step ht3 (mbxResetSender_moves ..) rfl
    ·
      exact ht3

theorem mbxRelease_moves (a0 s) : Moves [.mbx] s (mbxRelease a0 s) := by
  unfold mbxRelease
  refine Moves.foldl ?_ (fun t0 x1 ht0 => ?_)
  ·
    exact (Moves.refl _ s)
  ·
    refine Moves.ite ?_ ?_
    ·
      exact Moves.step ht0 (mbxMod_moves ..) rfl
    ·
      exact ht0

theorem execMbxSend_moves (a0 a1 s) : MovesAll hasNext [.out, .host, .svc, .mbx] s (execMbxSend a0 a1 s) := by
  unfold execMbxSend
  refine hasNext_onElem ?_
  refine Moves.ite ?_ ?_
  ·
    exact Moves.step (Moves.refl _ s) (mbxSend_moves ..) rfl
  ·
    exact (Moves.refl _ s)

theorem execMbxMsgRead_moves (a0 a1 a2 s) : MovesAll hasNext [.out, .host, .svc, .mbx] s (execMbxMsgRead a0 a1 a2 s) := by
  unfold execMbxMsgRead
  extract_lets -merge -useContext -underBinder y0
  have hy0 : Moves [.out, .host, .svc, .mbx] s y0 := by
    unfold y0
    exact Moves.step (Moves.refl _ s) (emit_moves ..) rfl
  clear_value y0
  refine hasNext_onElem ?_
  refine Moves.ite ?_ ?_
  ·
    exact Moves.step hy0 (mbxRead63_moves ..) rfl
  ·
    exact hy0

theorem execMbxDbSet_moves (a0 a1 s) : MovesAll hasNext [.out, .host, .svc, .mbx] s (execMbxDbSet a0 a1 s) := by
  unfold execMbxDbSet
  refine hasNext_onElem ?_
  refine Moves.ite ?_ ?_
  ·
    exact Moves.step (Moves.refl _ s) (mbxDbSet_moves ..) rfl
  ·
    exact (Moves.refl _ s)

theorem execMbxDbClear_moves (a0 a1 s) : MovesAll hasNext [.mbx] s (execMbxDbClear a0 a1 s) := by
  unfold execMbxDbClear
  refine hasNext_onElem ?_
  refine Moves.ite ?_ ?_
  ·
    exact Moves.step (Moves.refl _ s) (mbxDbClear_moves ..) rfl
  ·
    exact (Moves.refl _ s)

theorem execMbxDbMaskWrite_moves (a0 a1 s) : MovesAll hasNext [.out, .host, .svc, .mbx] s (execMbxDbMaskWrite a0 a1 s) := by
  unfold execMbxDbMaskWrite
  refine hasNext_onElem ?_
  refine Moves.ite ?_ ?_
  ·
    exact Moves.step (Moves.refl _ s) (mbxDbMask_moves ..) rfl
  ·
    exact (Moves.refl _ s)

theorem dirChanged_moves (s) : Moves [.out, .regs, .log, .host] s (dirChanged s) := by
  unfold dirChanged
  extract_lets -merge -useContext -underBinder y0 y1
  clear_value y0
  have hy1 : Moves [.out, .regs, .log, .host] s y1 := by
    unfold y1
    exact Moves.step (m := [.host]) (Moves.refl _ s) (Moves.leaf (by intro x hx; cases x <;> first | rfl | exact absurd (by decide) hx) rfl rfl rfl rfl) rfl
  clear_value y1
  refine Moves.foldl ?_ (fun t2 x3 ht2 => ?_)
  ·
    exact hy1
  ·
    exact Moves.step ht2 (raiseFn_moves ..) rfl

theorem cartMod_moves (a0 s) : Moves [.cart] s (cartMod a0 s) := by
  unfold cartMod
  exact Moves.step (m := [.cart]) (Moves.refl _ s) (Moves.leaf (by intro x hx; cases x <;> first | rfl | exact absurd (by decide) hx) rfl rfl rfl rfl) rfl

theorem slotMod_moves (a0 a1 s) : Moves [.cart] s (slotMod a0 a1 s) := by
  unfold slotMod
  exact Moves.step (Moves.refl _ s) (cartMod_moves ..) rfl

theorem setTarget_moves (a0 a1 a2 s) : Moves [.freeIx, .cart] s (setTarget a0 a1 a2 s) := by
  unfold setTarget
  refine Moves.ite ?_ ?_
  ·
    exact Moves.step (Moves.refl _ s) (slotMod_moves ..) rfl
  ·
    split
    ·
      rename_i v0 v1 e2
      have hv1 : Moves [.freeIx, .cart] s v1 := by
        refine MovesAll.of_eq (has := hasSnd) e2 rfl ?_
        exact MovesAll.step (Moves.refl _ s) (drawFree_moves _) rfl
      split
      ·
        rename_i v3 v4 e5
        have hv4 : Moves [.freeIx, .cart] s v4 := by
          refine MovesAll.of_eq (has := hasSnd) e5 rfl ?_
          exact MovesAll.step hv1 (drawFree_moves _) rfl
        extract_lets -merge -useContext -underBinder y6 y7
        clear_value y6
        clear_value y7
        exact Moves.step hv4 (slotMod_moves ..) rfl

theorem faultSignal_moves (a0 a1 s) : Moves [.out] s (faultSignal a0 a1 s) := by
  unfold faultSignal
  refine Moves.ite ?_ ?_
  ·
    exact (Moves.refl _ s)
  ·
    exact Moves.step (Moves.refl _ s) (emit_moves ..) rfl

theorem macSend_moves (a0 a1 s) : Moves [.out, .ports] s (macSend a0 a1 s) := by
  unfold macSend
  extract_lets -merge -useContext -underBinder y0 y1 y2 y3
  have hy0 : Moves [.out, .ports] s y0 := by
    unfold y0
    refine Moves.ite ?_ ?_
    ·
      exact Moves.step (Moves.refl _ s) (countPort_moves ..) rfl
    ·
      exact (Moves.refl _ s)
  clear_value y0
  clear_value y1
  have hy2 : Moves [.out, .ports] s y2 := by
    unfold y2
    refine Moves.step ?_ (countPort_moves ..) rfl
    exact Moves.step hy0 (countPort_moves ..) rfl
  clear_value y2
  have hy3 : Moves [.out, .ports] s y3 := by
    unfold y3
    refine Moves.ite ?_ ?_
    ·
      exact Moves.step hy2 (countPort_moves ..) rfl
    ·
      refine Moves.ite ?_ ?_
      ·
        exact Moves.step hy2 (countPort_moves ..) rfl
      ·
        exact hy2
  clear_value y3
  exact Moves.step hy3 (emit_moves ..) rfl

theorem originate_moves (a0 a1 s) : Moves [.out, .ports, .cry] s (originate a0 a1 s) := by
  unfold originate
  refine Moves.ite ?_ ?_
  ·
    refine Moves.step ?_ (mkaMod_moves ..) rfl
    exact Moves.step (Moves.refl _ s) (macSend_moves ..) rfl
  ·
    exact (Moves.refl _ s)

theorem fcSend_moves (a0 a1 a2 a3 s) : Moves [.out, .ports, .cry] s (fcSend a0 a1 a2 a3 s) := by
  unfold fcSend
  extract_lets -merge -useContext -underBinder y0
  have hy0 : Moves [.out, .ports, .cry] s y0 := by
    unfold y0
    refine Moves.foldl ?_ (fun t1 x2 ht1 => ?_)
    ·
      exact (Moves.refl _ s)
    ·
      exact Moves.step ht1 (countPort_moves ..) rfl
  clear_value y0
  refine Moves.ite ?_ ?_
  ·
    exact (Moves.refl _ s)
  ·
    refine Moves.ite ?_ ?_
    ·
      refine Moves.step ?_ (originate_moves ..) rfl
      exact Moves.step (Moves.refl _ s) (countPort_moves ..) rfl
    ·
      exact Moves.step hy0 (originate_moves ..) rfl

theorem fcCheck_moves (a0 s) : Moves [.out, .ports, .cry] s (fcCheck a0 s) := by
  unfold fcCheck
  extract_lets -merge -useContext -underBinder y0 y1 y2 y3 y4
  clear_value y0
  clear_value y1
  clear_value y2
  clear_value y3
  have hy4 : Moves [.out, .ports, .cry] s y4 := by
    unfold y4
    exact Moves.step (Moves.refl _ s) (fcSend_moves ..) rfl
  clear_value y4
  refine Moves.ite ?_ ?_
  ·
    exact (Moves.refl _ s)
  ·
    exact Moves.step hy4 (portMod_moves ..) rfl

theorem fcRelease_moves (a0 a1 a2 s) : Moves [.out, .ports, .cry] s (fcRelease a0 a1 a2 s) := by
  unfold fcRelease
  extract_lets -merge -useContext -underBinder y0
  clear_value y0
  refine Moves.step ?_ (portMod_moves ..) rfl
  exact Moves.step (Moves.refl _ s) (fcSend_moves ..) rfl

theorem useAdd_moves (a0 a1 a2 s) : Moves [.ports] s (useAdd a0 a1 a2 s) := by
  unfold useAdd
  exact Moves.step (Moves.refl _ s) (portMod_moves ..) rfl

theorem useSub_moves (a0 a1 a2 s) : Moves [.out, .ports, .cry] s (useSub a0 a1 a2 s) := by
  unfold useSub
  refine Moves.step ?_ (fcCheck_moves ..) rfl
  exact Moves.step (Moves.refl _ s) (portMod_moves ..) rfl

theorem execPfcRefreshTimer_moves (a0 s) : MovesAll hasNext [.out, .ports, .cry] s (execPfcRefreshTimer a0 s) := by
  unfold execPfcRefreshTimer
  extract_lets -merge -useContext -underBinder y0 y1
  have hy0 : Moves [.out, .ports, .cry] s y0 := by
    unfold y0
    exact Moves.step (Moves.refl _ s) (fcCheck_moves ..) rfl
  clear_value y0
  clear_value y1
  refine hasNext_onPort ?_ ?_
  ·
    exact (Moves.refl _ s)
  ·
    refine Moves.ite ?_ ?_
    ·
      exact Moves.step hy0 (fcSend_moves ..) rfl
    ·
      exact hy0

theorem countRx_moves (a0 a1 a2 a3 s) : Moves [.ports] s (countRx a0 a1 a2 a3 s) := by
  unfold countRx
  extract_lets -merge -useContext -underBinder y0
  have hy0 : Moves [.ports] s y0 := by
    unfold y0
    refine Moves.step ?_ (countPort_moves ..) rfl
    exact Moves.step (Moves.refl _ s) (countPort_moves ..) rfl
  clear_value y0
  refine Moves.ite ?_ ?_
  ·
    exact Moves.step hy0 (countPort_moves ..) rfl
  ·
    refine Moves.ite ?_ ?_
    ·
      exact Moves.step hy0 (countPort_moves ..) rfl
    ·
      exact hy0

theorem pfcReceived_moves (a0 a1 a2 s) : Moves [.ports] s (pfcReceived a0 a1 a2 s) := by
  unfold pfcReceived
  extract_lets -merge -useContext -underBinder y0 y1 y2
  clear_value y0
  clear_value y1
  have hy2 : Moves [.ports] s y2 := by
    unfold y2
    refine Moves.foldl ?_ (fun t3 x4 ht3 => ?_)
    ·
      exact (Moves.refl _ s)
    ·
      exact Moves.step ht3 (countPort_moves ..) rfl
  clear_value y2
  refine Moves.ite ?_ ?_
  ·
    exact Moves.step hy2 (portMod_moves ..) rfl
  ·
    exact hy2

theorem pauseReceived_moves (a0 a1 s) : Moves [.ports] s (pauseReceived a0 a1 s) := by
  unfold pauseReceived
  extract_lets -merge -useContext -underBinder y0
  have hy0 : Moves [.ports] s y0 := by
    unfold y0
    exact Moves.step (Moves.refl _ s) (countPort_moves ..) rfl
  clear_value y0
  refine Moves.ite ?_ ?_
  ·
    exact Moves.step hy0 (portMod_moves ..) rfl
  ·
    exact hy0

theorem execPfcFrameReceived_moves (a0 a1 a2 s) : MovesAll hasNext [.out, .ports] s (execPfcFrameReceived a0 a1 a2 s) := by
  unfold execPfcFrameReceived
  refine hasNext_onPort ?_ ?_
  ·
    exact (Moves.refl _ s)
  ·
    refine Moves.ite ?_ ?_
    ·
      refine Moves.step ?_ (pfcReceived_moves ..) rfl
      exact Moves.step (Moves.refl _ s) (countRx_moves ..) rfl
    ·
      exact (Moves.refl _ s)

theorem execPauseFrameReceived_moves (a0 a1 s) : MovesAll hasNext [.out, .ports] s (execPauseFrameReceived a0 a1 s) := by
  unfold execPauseFrameReceived
  refine hasNext_onPort ?_ ?_
  ·
    exact (Moves.refl _ s)
  ·
    refine Moves.ite ?_ ?_
    ·
      refine Moves.step ?_ (pauseReceived_moves ..) rfl
      exact Moves.step (Moves.refl _ s) (countRx_moves ..) rfl
    ·
      exact (Moves.refl _ s)

theorem execPauseTimeExpiry_moves (a0 a1 s) : MovesAll hasNext [.out, .ports] s (execPauseTimeExpiry a0 a1 s) := by
  unfold execPauseTimeExpiry
  refine hasNext_onPort ?_ ?_
  ·
    exact (Moves.refl _ s)
  ·
    exact Moves.step (Moves.refl _ s) (portMod_moves ..) rfl

theorem mkaRestart_moves (a0 s) : Moves [.cry] s (mkaRestart a0 s) := by
  unfold mkaRestart
  exact Moves.step (Moves.refl _ s) (mkaMod_moves ..) rfl

theorem secureLost_moves (a0 a1 s) : Moves [.regs, .log, .ports] s (secureLost a0 a1 s) := by
  unfold secureLost
  refine Moves.ite ?_ ?_
  ·
    refine Moves.step ?_ (raise_moves ..) rfl
    exact Moves.step (Moves.refl _ s) (portMod_moves ..) rfl
  ·
    exact Moves.step (Moves.refl _ s) (portMod_moves ..) rfl

theorem lldpSend_moves (a0 s) : Moves [.out, .ports, .cry] s (lldpSend a0 s) := by
  unfold lldpSend
  refine Moves.ite ?_ ?_
  ·
    exact Moves.step (Moves.refl _ s) (originate_moves ..) rfl
  ·
    exact (Moves.refl _ s)

theorem startSearch_moves (a0 s) : Moves [.ports] s (startSearch a0 s) := by
  unfold startSearch
  extract_lets -merge -useContext -underBinder y0
  clear_value y0
  exact Moves.step (Moves.refl _ s) (portMod_moves ..) rfl

theorem dropLink_moves (a0 s) : Moves [.ports] s (dropLink a0 s) := by
  unfold dropLink
  exact Moves.step (Moves.refl _ s) (portMod_moves ..) rfl

theorem goDown_moves (a0 a1 s) : Moves [.regs, .log, .ports, .cry] s (goDown a0 a1 s) := by
  unfold goDown
  extract_lets -merge -useContext -underBinder y0 y1
  have hy0 : Moves [.regs, .log, .ports, .cry] s y0 := by
    unfold y0
    refine Moves.step ?_ (raise_moves ..) rfl
    exact Moves.step (Moves.refl _ s) (countPort_moves ..) rfl
  clear_value y0
  have hy1 : Moves [.regs, .log, .ports, .cry] s y1 := by
    unfold y1
    refine Moves.step ?_ (mkaRestart_moves ..) rfl
    exact Moves.step hy0 (secureLost_moves ..) rfl
  clear_value y1
  exact Moves.step hy1 (dropLink_moves ..) rfl

theorem flapOrSearch_moves (a0 s) : Moves [.regs, .log, .ports] s (flapOrSearch a0 s) := by
  unfold flapOrSearch
  extract_lets -merge -useContext -underBinder y0 y1
  clear_value y0
  have hy1 : Moves [.regs, .log, .ports] s y1 := by
    unfold y1
    exact Moves.step (Moves.refl _ s) (portMod_moves ..) rfl
  clear_value y1
  refine Moves.ite ?_ ?_
  ·
    refine Moves.step ?_ (raise_moves ..) rfl
    exact Moves.step hy1 (portMod_moves ..) rfl
  ·
    exact Moves.step hy1 (startSearch_moves ..) rfl

theorem linkDown_moves (a0 a1 s) : Moves [.regs, .log, .ports, .tbl, .cry] s (linkDown a0 a1 s) := by
  unfold linkDown
  refine Moves.step ?_ (refillGroups_moves ..) rfl
  refine Moves.step ?_ (flapOrSearch_moves ..) rfl
  refine Moves.step ?_ (goDown_moves ..) rfl
  exact Moves.step (Moves.refl _ s) (portMod_moves ..) rfl

theorem linkDisable_moves (a0 s) : Moves [.regs, .log, .ports, .tbl, .cry] s (linkDisable a0 s) := by
  unfold linkDisable
  extract_lets -merge -useContext -underBinder y0 y1
  have hy0 : Moves [.regs, .log, .ports, .tbl, .cry] s y0 := by
    unfold y0
    refine Moves.step ?_ (goDown_moves ..) rfl
    exact Moves.step (Moves.refl _ s) (portMod_moves ..) rfl
  clear_value y0
  have hy1 : Moves [.regs, .log, .ports, .tbl, .cry] s y1 := by
    unfold y1
    refine Moves.ite ?_ ?_
    ·
      exact Moves.step hy0 (portMod_moves ..) rfl
    ·
      exact Moves.step (Moves.refl _ s) (dropLink_moves ..) rfl
  clear_value y1
  refine Moves.step ?_ (refillGroups_moves ..) rfl
  exact Moves.step hy1 (portMod_moves ..) rfl

theorem linkUp_moves (a0 s) : Moves [.out, .regs, .log, .ports, .tbl, .cry] s (linkUp a0 s) := by
  unfold linkUp
  extract_lets -merge -useContext -underBinder y0 y1 y2
  clear_value y0
  have hy1 : Moves [.out, .regs, .log, .ports, .tbl, .cry] s y1 := by
    unfold y1
    exact Moves.step (Moves.refl _ s) (portMod_moves ..) rfl
  clear_value y1
  have hy2 : Moves [.out, .regs, .log, .ports, .tbl, .cry] s y2 := by
    unfold y2
    exact Moves.step hy1 (raise_moves ..) rfl
  clear_value y2
  refine Moves.step ?_ (refillGroups_moves ..) rfl
  exact Moves.step hy2 (lldpSend_moves ..) rfl

theorem execRateHuntTimeout_moves (a0 s) : MovesAll hasNext [.out, .ports] s (execRateHuntTimeout a0 s) := by
  unfold execRateHuntTimeout
  refine hasNext_onPort ?_ ?_
  ·
    exact (Moves.refl _ s)
  ·
    refine Moves.ite ?_ ?_
    ·
      exact Moves.step (Moves.refl _ s) (portMod_moves ..) rfl
    ·
      exact (Moves.refl _ s)

theorem execReceiverLock_moves (a0 a1 s) : MovesAll hasNext [.out, .ports] s (execReceiverLock a0 a1 s) := by
  unfold execReceiverLock
  refine hasNext_onPort ?_ ?_
  ·
    exact (Moves.refl _ s)
  ·
    refine Moves.ite ?_ ?_
    ·
      exact Moves.step (Moves.refl _ s) (portMod_moves ..) rfl
    ·
      exact (Moves.refl _ s)

theorem execCandidateDwellExpiry_moves (a0 s) : MovesAll hasNext [.out, .ports] s (execCandidateDwellExpiry a0 s) := by
  unfold execCandidateDwellExpiry
  refine hasNext_onPort ?_ ?_
  ·
    exact (Moves.refl _ s)
  ·
    refine Moves.ite ?_ ?_
    ·
      exact Moves.step (Moves.refl _ s) (portMod_moves ..) rfl
    ·
      exact (Moves.refl _ s)

theorem execFecPartnerIdentified_moves (a0 a1 s) : MovesAll hasNext [.out, .regs, .log, .ports] s (execFecPartnerIdentified a0 a1 s) := by
  unfold execFecPartnerIdentified
  extract_lets -merge -useContext -underBinder y0
  clear_value y0
  refine hasNext_onPort ?_ ?_
  ·
    exact (Moves.refl _ s)
  ·
    refine Moves.ite ?_ ?_
    ·
      refine Moves.ite ?_ ?_
      ·
        exact Moves.step (Moves.refl _ s) (portMod_moves ..) rfl
      ·
        refine Moves.step ?_ (raise_moves ..) rfl
        exact Moves.step (Moves.refl _ s) (portMod_moves ..) rfl
    ·
      exact (Moves.refl _ s)

theorem execFecMismatchWaitExpiry_moves (a0 s) : MovesAll hasNext [.out, .ports] s (execFecMismatchWaitExpiry a0 s) := by
  unfold execFecMismatchWaitExpiry
  refine hasNext_onPort ?_ ?_
  ·
    exact (Moves.refl _ s)
  ·
    refine Moves.ite ?_ ?_
    ·
      exact Moves.step (Moves.refl _ s) (startSearch_moves ..) rfl
    ·
      exact (Moves.refl _ s)

theorem execLockLost_moves (a0 s) : MovesAll hasNext [.out, .regs, .log, .ports, .tbl, .cry] s (execLockLost a0 s) := by
  unfold execLockLost
  refine hasNext_onPort ?_ ?_
  ·
    exact (Moves.refl _ s)
  ·
    split
    ·
      exact Moves.step (Moves.refl _ s) (linkDown_moves ..) rfl
    ·
      exact Moves.step (Moves.refl _ s) (startSearch_moves ..) rfl
    ·
      exact (Moves.refl _ s)

theorem execLinkFaultDetected_moves (a0 a1 s) : MovesAll hasNext [.out, .ports] s (execLinkFaultDetected a0 a1 s) := by
  unfold execLinkFaultDetected
  refine hasNext_onPort ?_ ?_
  ·
    exact (Moves.refl _ s)
  ·
    exact Moves.step (Moves.refl _ s) (portMod_moves ..) rfl

theorem execLinkFaultCleared_moves (a0 a1 s) : MovesAll hasNext [.out, .ports] s (execLinkFaultCleared a0 a1 s) := by
  unfold execLinkFaultCleared
  refine hasNext_onPort ?_ ?_
  ·
    exact (Moves.refl _ s)
  ·
    exact Moves.step (Moves.refl _ s) (portMod_moves ..) rfl

theorem execLinkFaultPersist_moves (a0 s) : MovesAll hasNext [.out, .regs, .log, .ports, .tbl, .cry] s (execLinkFaultPersist a0 s) := by
  unfold execLinkFaultPersist
  extract_lets -merge -useContext -underBinder y0
  clear_value y0
  refine hasNext_onPort ?_ ?_
  ·
    exact (Moves.refl _ s)
  ·
    refine Moves.ite ?_ ?_
    ·
      exact Moves.step (Moves.refl _ s) (linkDown_moves ..) rfl
    ·
      exact (Moves.refl _ s)

theorem execHeldExpiry_moves (a0 s) : MovesAll hasNext [.out, .ports] s (execHeldExpiry a0 s) := by
  unfold execHeldExpiry
  refine hasNext_onPort ?_ ?_
  ·
    exact (Moves.refl _ s)
  ·
    refine Moves.ite ?_ ?_
    ·
      exact Moves.step (Moves.refl _ s) (startSearch_moves ..) rfl
    ·
      exact (Moves.refl _ s)

theorem dcbxApply_moves (a0 s) : Moves [.out, .regs, .log, .ports, .buf, .cry] s (dcbxApply a0 s) := by
  unfold dcbxApply
  extract_lets -merge -useContext -underBinder y0 y1
  clear_value y0
  clear_value y1
  split
  ·
    extract_lets -merge -useContext -underBinder y2 y3 y4 y5 y6 y7
    clear_value y2
    clear_value y3
    have hy4 : Moves [.out, .regs, .log, .ports, .buf, .cry] s y4 := by
      unfold y4
      refine Moves.ite ?_ ?_
      ·
        exact Moves.step (Moves.refl _ s) (fcRelease_moves ..) rfl
      ·
        exact (Moves.refl _ s)
    clear_value y4
    have hy5 : Moves [.out, .regs, .log, .ports, .buf, .cry] s y5 := by
      unfold y5
      refine Moves.step ?_ (noteFrees_moves ..) rfl
      exact Moves.step hy4 (portMod_moves ..) rfl
    clear_value y5
    have hy6 : Moves [.out, .regs, .log, .ports, .buf, .cry] s y6 := by
      unfold y6
      refine Moves.ite ?_ ?_
      ·
        exact Moves.step hy5 (raise_moves ..) rfl
      ·
        exact hy5
    clear_value y6
    have hy7 : Moves [.out, .regs, .log, .ports, .buf, .cry] s y7 := by
      unfold y7
      refine Moves.ite ?_ ?_
      ·
        exact Moves.step hy6 (raise_moves ..) rfl
      ·
        exact Moves.step hy6 (raise_moves ..) rfl
    clear_value y7
    exact Moves.step hy7 (fcCheck_moves ..) rfl

theorem frameCheck_moves (a0 a1 s) : Moves [.regs, .log] s (frameCheck a0 a1 s) := by
  unfold frameCheck
  refine Moves.ite ?_ ?_
  ·
    exact (Moves.refl _ s)
  ·
    exact Moves.step (Moves.refl _ s) (raise_moves ..) rfl

theorem lldpApply_moves (a0 a1 a2 a3 s) : Moves [.out, .regs, .log, .ports, .tbl, .buf, .cry] s (lldpApply a0 a1 a2 a3 s) := by
  unfold lldpApply
  extract_lets -merge -useContext -underBinder y0 y1 y2 y3 y4 y5 y6
  clear_value y0
  clear_value y1
  have hy2 : Moves [.out, .regs, .log, .ports, .tbl, .buf, .cry] s y2 := by
    unfold y2
    exact Moves.step (Moves.refl _ s) (portMod_moves ..) rfl
  clear_value y2
  clear_value y3
  clear_value y4
  have hy5 : Moves [.out, .regs, .log, .ports, .tbl, .buf, .cry] s y5 := by
    unfold y5
    exact Moves.step hy2 (portMod_moves ..) rfl
  clear_value y5
  have hy6 : Moves [.out, .regs, .log, .ports, .tbl, .buf, .cry] s y6 := by
    unfold y6
    refine Moves.ite ?_ ?_
    ·
      exact hy2
    ·
      exact Moves.step hy2 (dcbxApply_moves ..) rfl
  clear_value y6
  refine Moves.ite ?_ ?_
  ·
    refine Moves.ite ?_ ?_
    ·
      exact hy5
    ·
      exact Moves.step hy5 (startSearch_moves ..) rfl
  ·
    refine Moves.ite ?_ ?_
    ·
      exact hy2
    ·
      split
      ·
        exact hy6
      ·
        extract_lets -merge -useContext -underBinder y7 y8 y9 y10
        have hy7 : Moves [.out, .regs, .log, .ports, .tbl, .buf, .cry] s y7 := by
          unfold y7
          refine Moves.ite ?_ ?_
          ·
            exact hy6
          ·
            exact Moves.step hy6 (frameCheck_moves ..) rfl
        clear_value y7
        clear_value y8
        have hy9 : Moves [.out, .regs, .log, .ports, .tbl, .buf, .cry] s y9 := by
          unfold y9
          refine Moves.step ?_ (goDown_moves ..) rfl
          exact Moves.step hy7 (portMod_moves ..) rfl
        clear_value y9
        have hy10 : Moves [.out, .regs, .log, .ports, .tbl, .buf, .cry] s y10 := by
          unfold y10
          exact Moves.step hy9 (portMod_moves ..) rfl
        clear_value y10
        refine Moves.ite ?_ ?_
        ·
          refine Moves.step ?_ (refillGroups_moves ..) rfl
          exact Moves.step hy10 (raise_moves ..) rfl
        ·
          exact hy7

theorem lldpReceived_moves (a0 a1 s) : Moves [.out, .regs, .log, .ports, .tbl, .buf, .cry] s (lldpReceived a0 a1 s) := by
  unfold lldpReceived
  extract_lets -merge -useContext -underBinder y0 y1
  have hy0 : Moves [.out, .regs, .log, .ports, .tbl, .buf, .cry] s y0 := by
    unfold y0
    exact Moves.step (Moves.refl _ s) (countPort_moves ..) rfl
  clear_value y0
  clear_value y1
  refine Moves.ite ?_ ?_
  ·
    exact Moves.step hy0 (lldpApply_moves ..) rfl
  ·
    exact hy0

theorem execLldpFrameReceived_moves (a0 a1 s) : MovesAll hasNext [.out, .regs, .log, .ports, .tbl, .buf, .cry] s (execLldpFrameReceived a0 a1 s) := by
  unfold execLldpFrameReceived
  extract_lets -merge -useContext -underBinder y0
  clear_value y0
  refine hasNext_onPort ?_ ?_
  ·
    exact (Moves.refl _ s)
  ·
    refine Moves.ite ?_ ?_
    ·
      refine Moves.step ?_ (lldpReceived_moves ..) rfl
      exact Moves.step (Moves.refl _ s) (countRx_moves ..) rfl
    ·
      exact (Moves.refl _ s)

theorem execLldpTransmitTimer_moves (a0 s) : MovesAll hasNext [.out, .ports, .cry] s (execLldpTransmitTimer a0 s) := by
  unfold execLldpTransmitTimer
  refine hasNext_onPort ?_ ?_
  ·
    exact (Moves.refl _ s)
  ·
    refine Moves.ite ?_ ?_
    ·
      refine Moves.step ?_ (lldpSend_moves ..) rfl
      exact Moves.step (Moves.refl _ s) (portMod_moves ..) rfl
    ·
      exact (Moves.refl _ s)

theorem execDcbxAbsentTimeout_moves (a0 s) : MovesAll hasNext [.out, .regs, .log, .ports, .buf, .cry] s (execDcbxAbsentTimeout a0 s) := by
  unfold execDcbxAbsentTimeout
  extract_lets -merge -useContext -underBinder y0
  clear_value y0
  refine hasNext_onPort ?_ ?_
  ·
    exact (Moves.refl _ s)
  ·
    refine Moves.ite ?_ ?_
    ·
      refine Moves.step ?_ (dcbxApply_moves ..) rfl
      exact Moves.step (Moves.refl _ s) (portMod_moves ..) rfl
    ·
      exact (Moves.refl _ s)

theorem execLldpPartnerAgeout_moves (a0 s) : MovesAll hasNext [.out, .regs, .log, .ports, .buf, .cry] s (execLldpPartnerAgeout a0 s) := by
  unfold execLldpPartnerAgeout
  extract_lets -merge -useContext -underBinder y0 y1 y2
  clear_value y0
  clear_value y1
  have hy2 : Moves [.out, .regs, .log, .ports, .buf, .cry] s y2 := by
    unfold y2
    exact Moves.step (Moves.refl _ s) (portMod_moves ..) rfl
  clear_value y2
  refine hasNext_onPort ?_ ?_
  ·
    exact (Moves.refl _ s)
  ·
    refine Moves.ite ?_ ?_
    ·
      exact Moves.step hy2 (startSearch_moves ..) rfl
    ·
      refine Moves.ite ?_ ?_
      ·
        exact Moves.step hy2 (dcbxApply_moves ..) rfl
      ·
        exact hy2

theorem execPortSyncOverflow_moves (a0 a1 s) : MovesAll hasNext [.out, .regs, .log, .ports] s (execPortSyncOverflow a0 a1 s) := by
  unfold execPortSyncOverflow
  extract_lets -merge -useContext -underBinder y0 y1
  clear_value y0
  clear_value y1
  refine hasNext_onPort ?_ ?_
  ·
    exact (Moves.refl _ s)
  ·
    refine Moves.ite ?_ ?_
    ·
      exact (Moves.refl _ s)
    ·
      refine Moves.step ?_ (raise_moves ..) rfl
      exact Moves.step (Moves.refl _ s) (portMod_moves ..) rfl

end Sys2Proof.Machine
end

