-- ==== Sys2Proof/Laws/Moves2.lean ====
section
/-! SUPPORT. What the operations of Machine/MkaOps, BufOps, EpochOps, StoOps, DmaOps, Dma, Submit, Services may change: one lemma `<operation>_moves` per operation. -/

set_option Elab.async false

namespace Sys2Proof.Machine

theorem cakFault_moves (a0 s) : Moves [.regs, .log, .ports, .cry] s (cakFault a0 s) := by
  unfold cakFault
  refine Moves.step ?_ (raise_moves ..) rfl
  refine Moves.step ?_ (mkaMod_moves ..) rfl
  exact Moves.step (Moves.refl _ s) (secureLost_moves ..) rfl

theorem withCak_moves {l : List Part} {p : Nat} {f : State → State} {s : State} (h : ∀ t, Moves l t (f t))
    (hb : ([.freeIx, .regs, .log, .ports, .cry] : List Part).all l.contains = true := by rfl) : Moves l s (withCak p f s) := by
  unfold withCak
  extract_lets -merge -useContext -underBinder t
  have ht : Moves l s t :=
    (Moves.leafFree (by intro x hx; cases x <;> first | rfl | exact absurd (by decide) hx) rfl rfl (Nat.le_add_right _ _) rfl
      : Moves [.freeIx] s t).wider (all_sub hb rfl)
  exact Moves.ite (ht.step (h t) (all_self _)) (ht.step (cakFault_moves ..) (all_sub hb rfl))

theorem mkaSend_moves (a0 s) : Moves [.out, .freeIx, .regs, .log, .ports, .cry] s (mkaSend a0 s) := by
  unfold mkaSend
  extract_lets -merge -useContext -underBinder y0
  clear_value y0
  refine Moves.ite (Moves.refl _ s) (withCak_moves fun t => ?_)
  extract_lets -merge -useContext -underBinder y1
  clear_value y1
  exact Moves.step (Moves.step (Moves.refl _ t) (mkaMod_moves ..) rfl) (originate_moves ..) rfl

theorem drawSak_moves (s) : MovesAll hasSnd [.freeIx] s (drawSak s) := by
  unfold drawSak
  refine hasSnd_mk ?_
  exact Moves.step (m := [.freeIx]) (Moves.refl _ s) (Moves.leafFree (by intro x hx; cases x <;> first | rfl | exact absurd (by decide) hx) rfl rfl (Nat.le_add_right _ _) rfl) rfl

theorem distributeSak_moves (a0 s) : Moves [.out, .freeIx, .regs, .log, .ports, .cry] s (distributeSak a0 s) := by
  unfold distributeSak
  extract_lets -merge -useContext -underBinder y0 y1
  clear_value y0
  clear_value y1
  refine Moves.ite ?_ ?_
  ·
    exact (Moves.refl _ s)
  ·
    split
    ·
      rename_i v2 v3 e4
      have hv3 : Moves [.out, .freeIx, .regs, .log, .ports, .cry] s v3 := by
        refine MovesAll.of_eq (has := hasSnd) e4 rfl ?_
        exact MovesAll.step (Moves.refl _ s) (drawSak_moves _) rfl
      refine Moves.step ?_ (mkaSend_moves ..) rfl
      exact Moves.step hv3 (mkaMod_moves ..) rfl

theorem moveTx_moves (a0 a1 a2 a3 s) : Moves [.regs, .log, .ports, .cry] s (moveTx a0 a1 a2 a3 s) := by
  unfold moveTx
  extract_lets -merge -useContext -underBinder y0 y1
  clear_value y0
  have hy1 : Moves [.regs, .log, .ports, .cry] s y1 := by
    unfold y1
    exact Moves.step (Moves.refl _ s) (mkaMod_moves ..) rfl
  clear_value y1
  refine Moves.ite ?_ ?_
  ·
    refine Moves.step ?_ (raise_moves ..) rfl
    exact Moves.step hy1 (portMod_moves ..) rfl
  ·
    exact Moves.step hy1 (raise_moves ..) rfl

theorem mkpduApply_moves (a0 a1 s) : Moves [.out, .freeIx, .regs, .log, .ports, .cry] s (mkpduApply a0 a1 s) := by
  unfold mkpduApply
  extract_lets -merge -useContext -underBinder y0 y1 y2 y3 y4 y5 y6 y7
  clear_value y0
  clear_value y1
  clear_value y2
  clear_value y3
  clear_value y4
  clear_value y5
  have hy6 : Moves [.out, .freeIx, .regs, .log, .ports, .cry] s y6 := by
    unfold y6
    exact Moves.step (Moves.refl _ s) (mkaMod_moves ..) rfl
  clear_value y6
  clear_value y7
  refine Moves.ite ?_ ?_
  ·
    exact Moves.step (Moves.refl _ s) (mkaMod_moves ..) rfl
  ·
    refine Moves.ite ?_ ?_
    ·
      refine Moves.ite ?_ ?_
      ·
        exact Moves.step hy6 (distributeSak_moves ..) rfl
      ·
        refine Moves.ite ?_ ?_
        ·
          exact Moves.step hy6 (moveTx_moves ..) rfl
        ·
          exact hy6
    ·
      split
      ·
        refine Moves.ite ?_ ?_
        ·
          exact hy6
        ·
          refine Moves.ite ?_ ?_
          ·
            exact hy6
          ·
            refine Moves.step ?_ (mkaSend_moves ..) rfl
            refine Moves.step ?_ (moveTx_moves ..) rfl
            exact Moves.step hy6 (mkaMod_moves ..) rfl
      ·
        exact hy6

theorem execMkaHelloTimer_moves (a0 s) : MovesAll hasNext [.out, .freeIx, .regs, .log, .ports, .cry] s (execMkaHelloTimer a0 s) := by
  unfold execMkaHelloTimer
  refine hasNext_onPort ?_ ?_
  ·
    exact (Moves.refl _ s)
  ·
    refine Moves.ite ?_ ?_
    ·
      exact Moves.step (Moves.refl _ s) (mkaSend_moves ..) rfl
    ·
      exact (Moves.refl _ s)

theorem execMkaLifeExpiry_moves (a0 a1 s) : MovesAll hasNext [.out, .freeIx, .regs, .log, .ports, .cry] s (execMkaLifeExpiry a0 a1 s) := by
  unfold execMkaLifeExpiry
  extract_lets -merge -useContext -underBinder y0 y1 y2 y3
  clear_value y0
  have hy1 : Moves [.out, .freeIx, .regs, .log, .ports, .cry] s y1 := by
    unfold y1
    exact Moves.step (Moves.refl _ s) (mkaMod_moves ..) rfl
  clear_value y1
  clear_value y2
  have hy3 : Moves [.out, .freeIx, .regs, .log, .ports, .cry] s y3 := by
    unfold y3
    exact Moves.step hy1 (mkaMod_moves ..) rfl
  clear_value y3
  refine hasNext_onPort ?_ ?_
  ·
    exact (Moves.refl _ s)
  ·
    refine Moves.ite ?_ ?_
    ·
      exact (Moves.refl _ s)
    ·
      refine Moves.ite ?_ ?_
      ·
        refine Moves.step ?_ (mkaRestart_moves ..) rfl
        exact Moves.step hy1 (secureLost_moves ..) rfl
      ·
        refine Moves.ite ?_ ?_
        ·
          exact Moves.step hy3 (distributeSak_moves ..) rfl
        ·
          exact hy3

theorem applyFlow_moves (a0 a1 s) : Moves [.out, .regs, .log, .ports, .buf, .cry] s (applyFlow a0 a1 s) := by
  unfold applyFlow
  extract_lets -merge -useContext -underBinder y0 y1 y2 y3
  clear_value y0
  clear_value y1
  have hy2 : Moves [.out, .regs, .log, .ports, .buf, .cry] s y2 := by
    unfold y2
    refine Moves.ite ?_ ?_
    ·
      refine Moves.step ?_ (portMod_moves ..) rfl
      exact Moves.step (Moves.refl _ s) (fcRelease_moves ..) rfl
    ·
      exact (Moves.refl _ s)
  clear_value y2
  clear_value y3
  refine Moves.ite ?_ ?_
  ·
    exact Moves.step hy2 (dcbxApply_moves ..) rfl
  ·
    exact Moves.step hy2 (fcCheck_moves ..) rfl

theorem applyMacsec_moves (a0 a1 s) : Moves [.out, .freeIx, .regs, .log, .ports, .cry] s (applyMacsec a0 a1 s) := by
  unfold applyMacsec
  extract_lets -merge -useContext -underBinder y0
  clear_value y0
  refine Moves.ite ?_ ?_
  ·
    refine Moves.step ?_ (mkaRestart_moves ..) rfl
    exact Moves.step (Moves.refl _ s) (portMod_moves ..) rfl
  ·
    refine Moves.ite ?_ ?_
    ·
      exact Moves.step (Moves.refl _ s) (portMod_moves ..) rfl
    ·
      refine Moves.ite ?_ ?_
      ·
        refine Moves.step ?_ (mkaRestart_moves ..) rfl
        exact Moves.step (Moves.refl _ s) (secureLost_moves ..) rfl
      ·
        refine Moves.ite ?_ ?_
        ·
          exact Moves.step (Moves.refl _ s) (distributeSak_moves ..) rfl
        ·
          exact (Moves.refl _ s)

theorem ownFrame_moves (a0 a1 s) : Moves [.regs, .log] s (ownFrame a0 a1 s) := by
  unfold ownFrame
  refine Moves.ite ?_ ?_
  ·
    exact (Moves.refl _ s)
  ·
    split
    ·
      exact Moves.step (Moves.refl _ s) (frameCheck_moves ..) rfl
    ·
      exact (Moves.refl _ s)

theorem applyPort_moves (a0 a1 a2 s) : Moves [.out, .freeIx, .regs, .log, .ports, .tbl, .buf, .cry] s (applyPort a0 a1 a2 s) := by
  unfold applyPort
  extract_lets -merge -useContext -underBinder y0 y1 y2
  clear_value y0
  clear_value y1
  clear_value y2
  refine Moves.step ?_ (faultSignal_moves ..) rfl
  refine Moves.ite ?_ ?_
  ·
    refine Moves.ite ?_ ?_
    ·
      exact (Moves.refl _ s)
    ·
      exact Moves.step (Moves.refl _ s) (linkDisable_moves ..) rfl
  ·
    refine Moves.ite ?_ ?_
    ·
      refine Moves.ite ?_ ?_
      ·
        exact Moves.step (Moves.refl _ s) (startSearch_moves ..) rfl
      ·
        exact (Moves.refl _ s)
    ·
      split
      ·
        refine Moves.ite ?_ ?_
        ·
          exact Moves.step (Moves.refl _ s) (startSearch_moves ..) rfl
        ·
          exact (Moves.refl _ s)
      ·
        refine Moves.ite ?_ ?_
        ·
          exact Moves.step (Moves.refl _ s) (startSearch_moves ..) rfl
        ·
          exact (Moves.refl _ s)
      ·
        extract_lets -merge -useContext -underBinder y3
        have hy3 : Moves [.out, .freeIx, .regs, .log, .ports, .tbl, .buf, .cry] s y3 := by
          unfold y3
          refine Moves.step ?_ (ownFrame_moves ..) rfl
          refine Moves.step ?_ (applyMacsec_moves ..) rfl
          exact Moves.step (Moves.refl _ s) (applyFlow_moves ..) rfl
        clear_value y3
        refine Moves.ite ?_ ?_
        ·
          exact Moves.step (Moves.refl _ s) (linkDown_moves ..) rfl
        ·
          refine Moves.ite ?_ ?_
          ·
            exact Moves.step hy3 (lldpSend_moves ..) rfl
          ·
            exact hy3
      ·
        exact (Moves.refl _ s)

theorem applyPorts_moves (a0 a1 s) : Moves [.out, .freeIx, .regs, .log, .ports, .tbl, .buf, .cry] s (applyPorts a0 a1 s) := by
  unfold applyPorts
  refine Moves.foldl ?_ (fun t0 x1 ht0 => ?_)
  ·
    exact (Moves.refl _ s)
  ·
    exact Moves.step ht0 (applyPort_moves ..) rfl

theorem queueSet_moves (a0 a1 s) : Moves [.buf] s (queueSet a0 a1 s) := by
  unfold queueSet
  extract_lets -merge -useContext -underBinder y0
  clear_value y0
  exact Moves.step (m := [.buf]) (Moves.refl _ s) (Moves.leaf (by intro x hx; cases x <;> first | rfl | exact absurd (by decide) hx) rfl rfl rfl rfl) rfl

theorem releasePacket_moves (a0 s) : Moves [.out, .ports, .cry] s (releasePacket a0 s) := by
  unfold releasePacket
  refine Moves.ite ?_ ?_
  ·
    exact Moves.step (Moves.refl _ s) (useSub_moves ..) rfl
  ·
    exact (Moves.refl _ s)

theorem dropCopy_moves (a0 s) : Moves [.out, .ports, .buf, .cry] s (dropCopy a0 s) := by
  unfold dropCopy
  split
  ·
    exact (Moves.refl _ s)
  ·
    extract_lets -merge -useContext -underBinder y0 y1
    clear_value y0
    clear_value y1
    refine Moves.ite ?_ ?_
    ·
      refine Moves.step ?_ (releasePacket_moves ..) rfl
      exact Moves.step (m := [.buf]) (Moves.refl _ s) (Moves.leaf (by intro x hx; cases x <;> first | rfl | exact absurd (by decide) hx) rfl rfl rfl rfl) rfl
    ·
      exact Moves.step (m := [.buf]) (Moves.refl _ s) (Moves.leaf (by intro x hx; cases x <;> first | rfl | exact absurd (by decide) hx) rfl rfl rfl rfl) rfl

theorem countQ_moves (a0 a1 a2 a3 s) : Moves [.ports] s (countQ a0 a1 a2 a3 s) := by
  unfold countQ
  exact Moves.step (Moves.refl _ s) (portMod_moves ..) rfl

theorem countEpochDrop_moves (a0 a1 s) : Moves [.cfg, .ports, .tbl] s (countEpochDrop a0 a1 s) := by
  unfold countEpochDrop
  refine Moves.ite ?_ ?_
  ·
    exact Moves.step (Moves.refl _ s) (countA_moves ..) rfl
  ·
    split
    ·
      exact Moves.step (Moves.refl _ s) (countQ_moves ..) rfl
    ·
      exact Moves.step (Moves.refl _ s) (countCfg_moves ..) rfl

theorem dropEpoch_moves (a0 a1 s) : MovesAll hasSnd [.out, .cfg, .ports, .tbl, .buf, .cry, .flow] s (dropEpoch a0 a1 s) := by
  unfold dropEpoch
  extract_lets -merge -useContext -underBinder y0 y1 y2 y3 y4 y5 y6 y7 y8 y9 y10
  clear_value y0
  clear_value y1
  clear_value y2
  clear_value y3
  clear_value y4
  clear_value y5
  clear_value y6
  have hy7 : Moves [.out, .cfg, .ports, .tbl, .buf, .cry, .flow] s y7 := by
    unfold y7
    exact Moves.step (m := [.tbl, .buf, .cry, .flow]) (Moves.refl _ s) (Moves.leaf (by intro x hx; cases x <;> first | rfl | exact absurd (by decide) hx) rfl rfl rfl rfl) rfl
  clear_value y7
  have hy8 : Moves [.out, .cfg, .ports, .tbl, .buf, .cry, .flow] s y8 := by
    unfold y8
    refine Moves.foldl ?_ (fun t11 x12 ht11 => ?_)
    ·
      exact hy7
    ·
      refine Moves.step ?_ (releasePacket_moves ..) rfl
      exact Moves.step ht11 (countEpochDrop_moves ..) rfl
  clear_value y8
  clear_value y9
  have hy10 : Moves [.out, .cfg, .ports, .tbl, .buf, .cry, .flow] s y10 := by
    unfold y10
    refine Moves.foldl ?_ (fun t13 x14 ht13 => ?_)
    ·
      exact hy8
    ·
      extract_lets -merge -useContext -underBinder y15 y16
      clear_value y15
      have hy16 : Moves [.out, .cfg, .ports, .tbl, .buf, .cry, .flow] s y16 := by
        unfold y16
        exact Moves.step ht13 (queueSet_moves ..) rfl
      clear_value y16
      refine Moves.ite ?_ ?_
      ·
        exact ht13
      ·
        refine Moves.foldl ?_ (fun t17 x18 ht17 => ?_)
        ·
          exact hy16
        ·
          extract_lets -merge -useContext -underBinder y19
          clear_value y19
          refine Moves.step ?_ (dropCopy_moves ..) rfl
          exact Moves.step ht17 (countEpochDrop_moves ..) rfl
  clear_value y10
  refine hasSnd_mk ?_
  exact hy10

theorem cfgMod_moves (a0 s) : Moves [.cfg] s (cfgMod a0 s) := by
  unfold cfgMod
  exact Moves.step (m := [.cfg]) (Moves.refl _ s) (Moves.leaf (by intro x hx; cases x <;> first | rfl | exact absurd (by decide) hx) rfl rfl rfl rfl) rfl

theorem retire1_moves (a0 a1 s) : Moves [.out, .regs, .log, .cfg, .ports, .tbl, .buf, .cry, .flow] s (retire1 a0 a1 s) := by
  unfold retire1
  split
  ·
    rename_i v0 v1 e2
    have hv1 : Moves [.out, .regs, .log, .cfg, .ports, .tbl, .buf, .cry, .flow] s v1 := by
      refine MovesAll.of_eq (has := hasSnd) e2 rfl ?_
      exact MovesAll.step (Moves.refl _ s) (dropEpoch_moves _ _ _) rfl
    extract_lets -merge -useContext -underBinder y3 y4
    have hy3 : Moves [.out, .regs, .log, .cfg, .ports, .tbl, .buf, .cry, .flow] s y3 := by
      unfold y3
      exact Moves.step hv1 (cfgMod_moves ..) rfl
    clear_value y3
    have hy4 : Moves [.out, .regs, .log, .cfg, .ports, .tbl, .buf, .cry, .flow] s y4 := by
      unfold y4
      refine Moves.step ?_ (countCfg_moves ..) rfl
      refine Moves.ite ?_ ?_
      ·
        exact Moves.step hy3 (countCfg_moves ..) rfl
      ·
        exact hy3
    clear_value y4
    refine Moves.step ?_ (raise_moves ..) rfl
    exact Moves.step hy4 (tblSweep_moves ..) rfl

theorem retireIdle_moves (a0 s) : Moves [.out, .regs, .log, .cfg, .ports, .tbl, .buf, .cry, .flow] s (retireIdle a0 s) := by
  induction a0 generalizing s with
  | zero => exact Moves.refl _ s
  | succ k ih =>
    unfold retireIdle
    split
    · refine Moves.ite ?_ (Moves.refl _ s)
      exact Moves.step (Moves.step (Moves.refl _ s) (retire1_moves ..) rfl) (ih _) rfl
    · exact Moves.refl _ s

theorem applySeeds_moves (a0 s) : Moves [.freeIx, .tbl] s (applySeeds a0 s) := by
  unfold applySeeds
  refine Moves.foldl ?_ (fun t0 x1 ht0 => ?_)
  ·
    exact (Moves.refl _ s)
  ·
    extract_lets -merge -useContext -underBinder y2
    clear_value y2
    refine Moves.ite ?_ ?_
    ·
      refine MovesAll.get_snd ?_
      exact MovesAll.step ht0 (seedOf_moves _ _) rfl
    ·
      exact Moves.step (m := [.tbl]) ht0 (Moves.leaf (by intro x hx; cases x <;> first | rfl | exact absurd (by decide) hx) rfl rfl rfl rfl) rfl

theorem dropBeds_moves (s) : Moves [.svc] s (dropBeds s) := by
  unfold dropBeds
  extract_lets -merge -useContext -underBinder y0
  clear_value y0
  exact Moves.step (m := [.svc]) (Moves.refl _ s) (Moves.leaf (by intro x hx; cases x <;> first | rfl | exact absurd (by decide) hx) rfl rfl rfl rfl) rfl

theorem makeCurrent_moves (a0 a1 a2 s) : Moves [.out, .freeIx, .regs, .log, .cfg, .ports, .tbl, .buf, .cry, .flow, .svc] s (makeCurrent a0 a1 a2 s) := by
  unfold makeCurrent
  extract_lets -merge -useContext -underBinder y0 y1 y2 y3
  clear_value y0
  clear_value y1
  clear_value y2
  have hy3 : Moves [.out, .freeIx, .regs, .log, .cfg, .ports, .tbl, .buf, .cry, .flow, .svc] s y3 := by
    unfold y3
    exact Moves.step (Moves.refl _ s) (cfgMod_moves ..) rfl
  clear_value y3
  refine Moves.step ?_ (noteFrees_moves ..) rfl
  refine Moves.step ?_ (retireIdle_moves ..) rfl
  refine Moves.step ?_ (dropBeds_moves ..) rfl
  refine Moves.step ?_ (refillGroups_moves ..) rfl
  refine Moves.step ?_ (applyPorts_moves ..) rfl
  exact Moves.step hy3 (applySeeds_moves ..) rfl

theorem discardStage_moves (a0 s) : Moves [.regs, .log, .cfg, .tbl] s (discardStage a0 s) := by
  unfold discardStage
  split
  ·
    exact (Moves.refl _ s)
  ·
    extract_lets -merge -useContext -underBinder y0
    have hy0 : Moves [.regs, .log, .cfg, .tbl] s y0 := by
      unfold y0
      refine Moves.step ?_ (tblDiscard_moves ..) rfl
      exact Moves.step (Moves.refl _ s) (cfgMod_moves ..) rfl
    clear_value y0
    refine Moves.step ?_ (raise_moves ..) rfl
    exact Moves.step hy0 (countCfg_moves ..) rfl

theorem discardBoth_moves (a0 s) : Moves [.out, .regs, .log, .cfg, .tbl] s (discardBoth a0 s) := by
  unfold discardBoth
  split
  ·
    exact (Moves.refl _ s)
  ·
    extract_lets -merge -useContext -underBinder y0 y1 y2
    clear_value y0
    clear_value y1
    have hy2 : Moves [.out, .regs, .log, .cfg, .tbl] s y2 := by
      unfold y2
      exact Moves.step (Moves.refl _ s) (discardStage_moves ..) rfl
    clear_value y2
    refine Moves.ite ?_ ?_
    ·
      exact Moves.step hy2 (sendTwin_moves ..) rfl
    ·
      exact hy2

theorem stageOwnerLost_moves (a0 s) : Moves [.out, .regs, .log, .cfg, .tbl] s (stageOwnerLost a0 s) := by
  unfold stageOwnerLost
  split
  ·
    refine Moves.ite ?_ ?_
    ·
      exact Moves.step (Moves.refl _ s) (discardBoth_moves ..) rfl
    ·
      exact (Moves.refl _ s)
  ·
    exact (Moves.refl _ s)

theorem freezeStage_moves (a0 s) : Moves [.cfg] s (freezeStage a0 s) := by
  unfold freezeStage
  exact Moves.step (Moves.refl _ s) (cfgMod_moves ..) rfl

theorem finishFix_moves (a0 a1 s) : Moves [.out, .regs, .log, .cmd, .cfg, .host, .svc] s (finishFix a0 a1 s) := by
  unfold finishFix
  split
  ·
    exact (Moves.refl _ s)
  ·
    extract_lets -merge -useContext -underBinder y0
    have hy0 : Moves [.out, .regs, .log, .cmd, .cfg, .host, .svc] s y0 := by
      unfold y0
      exact Moves.step (Moves.refl _ s) (cfgMod_moves ..) rfl
    clear_value y0
    refine Moves.ite ?_ ?_
    ·
      refine Moves.step ?_ (sendReply_moves ..) rfl
      exact Moves.step hy0 (dropOwed_moves ..) rfl
    ·
      exact hy0

theorem refuseFix_moves (a0 a1 a2 s) : Moves [.out, .regs, .log, .cmd, .cfg, .host, .svc] s (refuseFix a0 a1 a2 s) := by
  unfold refuseFix
  extract_lets -merge -useContext -underBinder y0
  have hy0 : Moves [.out, .regs, .log, .cmd, .cfg, .host, .svc] s y0 := by
    unfold y0
    refine Moves.step ?_ (raise_moves ..) rfl
    refine Moves.step ?_ (countCfg_moves ..) rfl
    exact Moves.step (Moves.refl _ s) (freezeStage_moves ..) rfl
  clear_value y0
  exact Moves.step hy0 (finishFix_moves ..) rfl

theorem endFix_moves (a0 a1 s) : Moves [.out, .regs, .log, .cmd, .cfg, .host, .svc] s (endFix a0 a1 s) := by
  unfold endFix
  extract_lets -merge -useContext -underBinder y0 y1 y2
  have hy0 : Moves [.out, .regs, .log, .cmd, .cfg, .host, .svc] s y0 := by
    unfold y0
    refine Moves.step ?_ (countCfg_moves ..) rfl
    refine Moves.ite ?_ ?_
    ·
      exact Moves.step (Moves.refl _ s) (countCfg_moves ..) rfl
    ·
      exact (Moves.refl _ s)
  clear_value y0
  clear_value y1
  have hy2 : Moves [.out, .regs, .log, .cmd, .cfg, .host, .svc] s y2 := by
    unfold y2
    exact Moves.step hy0 (raise_moves ..) rfl
  clear_value y2
  exact Moves.step hy2 (finishFix_moves ..) rfl

theorem commitFix_moves (a0 a1 s) : Moves [.out, .freeIx, .regs, .log, .cmd, .cfg, .ports, .tbl, .buf, .cry, .flow, .host, .svc] s (commitFix a0 a1 s) := by
  unfold commitFix
  split
  ·
    extract_lets -merge -useContext -underBinder y0
    have hy0 : Moves [.out, .freeIx, .regs, .log, .cmd, .cfg, .ports, .tbl, .buf, .cry, .flow, .host, .svc] s y0 := by
      unfold y0
      exact Moves.step (Moves.refl _ s) (makeCurrent_moves ..) rfl
    clear_value y0
    refine Moves.ite ?_ ?_
    ·
      exact (Moves.refl _ s)
    ·
      refine Moves.ite ?_ ?_
      ·
        exact Moves.step (Moves.refl _ s) (cfgMod_moves ..) rfl
      ·
        refine Moves.ite ?_ ?_
        ·
          exact Moves.step hy0 (endFix_moves ..) rfl
        ·
          refine Moves.step ?_ (sendTwin_moves ..) rfl
          exact Moves.step hy0 (cfgMod_moves ..) rfl
  ·
    exact (Moves.refl _ s)

theorem resumeFix_moves (s) : Moves [.out, .freeIx, .regs, .log, .cmd, .cfg, .ports, .tbl, .buf, .cry, .flow, .host, .svc] s (resumeFix s) := by
  unfold resumeFix
  split
  ·
    refine Moves.ite ?_ ?_
    ·
      exact Moves.step (Moves.refl _ s) (commitFix_moves ..) rfl
    ·
      exact (Moves.refl _ s)
  ·
    exact (Moves.refl _ s)

theorem fixTwinLost_moves (s) : Moves [.out, .freeIx, .regs, .log, .cmd, .cfg, .ports, .tbl, .buf, .cry, .flow, .host, .svc] s (fixTwinLost s) := by
  unfold fixTwinLost
  split
  ·
    exact (Moves.refl _ s)
  ·
    refine Moves.ite ?_ ?_
    ·
      exact Moves.step (Moves.refl _ s) (endFix_moves ..) rfl
    ·
      refine Moves.ite ?_ ?_
      ·
        exact Moves.step (Moves.refl _ s) (refuseFix_moves ..) rfl
      ·
        exact Moves.step (Moves.refl _ s) (commitFix_moves ..) rfl

theorem dropPrepared_moves (s) : Moves [.out, .cfg, .ports, .tbl, .buf, .cry, .flow] s (dropPrepared s) := by
  unfold dropPrepared
  split
  ·
    exact (Moves.refl _ s)
  ·
    refine Moves.step ?_ (freezeStage_moves ..) rfl
    refine Moves.step ?_ (cfgMod_moves ..) rfl
    refine MovesAll.get_snd ?_
    exact MovesAll.step (Moves.refl _ s) (dropEpoch_moves _ _ _) rfl

theorem splitStage_moves (s) : Moves [.out, .regs, .log, .cfg, .ports, .tbl, .buf, .cry, .flow] s (splitStage s) := by
  unfold splitStage
  extract_lets -merge -useContext -underBinder y0
  have hy0 : Moves [.out, .regs, .log, .cfg, .ports, .tbl, .buf, .cry, .flow] s y0 := by
    unfold y0
    exact Moves.step (Moves.refl _ s) (dropPrepared_moves ..) rfl
  clear_value y0
  split
  ·
    split
    ·
      exact Moves.step hy0 (discardStage_moves ..) rfl
    ·
      exact hy0
  ·
    exact hy0

theorem stoMod_moves (a0 s) : Moves [.sto] s (stoMod a0 s) := by
  unfold stoMod
  exact Moves.step (m := [.sto]) (Moves.refl _ s) (Moves.leaf (by intro x hx; cases x <;> first | rfl | exact absurd (by decide) hx) rfl rfl rfl rfl) rfl

theorem nvmeMod_moves (a0 a1 s) : Moves [.sto] s (nvmeMod a0 a1 s) := by
  unfold nvmeMod
  exact Moves.step (Moves.refl _ s) (stoMod_moves ..) rfl

theorem sqMod_moves (a0 a1 a2 s) : Moves [.sto] s (sqMod a0 a1 a2 s) := by
  unfold sqMod
  exact Moves.step (Moves.refl _ s) (nvmeMod_moves ..) rfl

theorem ncqMod_moves (a0 a1 a2 s) : Moves [.sto] s (ncqMod a0 a1 a2 s) := by
  unfold ncqMod
  exact Moves.step (Moves.refl _ s) (nvmeMod_moves ..) rfl

theorem ncqSignal_moves (a0 a1 s) : Moves [.out, .host, .sto] s (ncqSignal a0 a1 s) := by
  unfold ncqSignal
  split
  ·
    exact (Moves.refl _ s)
  ·
    refine Moves.ite ?_ ?_
    ·
      exact (Moves.refl _ s)
    ·
      refine Moves.step ?_ (signalVector_moves ..) rfl
      exact Moves.step (Moves.refl _ s) (ncqMod_moves ..) rfl

theorem ncqWrite_moves (a0 a1 a2 a3 s) : Moves [.out, .regs, .log, .host, .sto] s (ncqWrite a0 a1 a2 a3 s) := by
  unfold ncqWrite
  extract_lets -merge -useContext -underBinder y0 y1 y2 y3
  clear_value y0
  have hy1 : Moves [.out, .regs, .log, .host, .sto] s y1 := by
    unfold y1
    exact Moves.step (Moves.refl _ s) (hostWrite_moves ..) rfl
  clear_value y1
  clear_value y2
  have hy3 : Moves [.out, .regs, .log, .host, .sto] s y3 := by
    unfold y3
    exact Moves.step hy1 (ncqMod_moves ..) rfl
  clear_value y3
  refine Moves.ite ?_ ?_
  ·
    exact Moves.step hy3 (ncqSignal_moves ..) rfl
  ·
    exact hy3

theorem ncqPost_moves (a0 a1 a2 s) : Moves [.out, .regs, .log, .host, .sto] s (ncqPost a0 a1 a2 s) := by
  unfold ncqPost
  split
  ·
    exact (Moves.refl _ s)
  ·
    refine Moves.ite ?_ ?_
    ·
      exact Moves.step (Moves.refl _ s) (nvmeMod_moves ..) rfl
    ·
      exact Moves.step (Moves.refl _ s) (ncqWrite_moves ..) rfl

theorem ncqFlush_moves (a0 a1 s) : Moves [.out, .regs, .log, .host, .sto] s (ncqFlush a0 a1 s) := by
  unfold ncqFlush
  extract_lets -merge -useContext -underBinder y0
  clear_value y0
  refine Moves.foldl ?_ (fun t1 x2 ht1 => ?_)
  ·
    exact Moves.step (Moves.refl _ s) (nvmeMod_moves ..) rfl
  ·
    exact Moves.step ht1 (ncqPost_moves ..) rfl

theorem nvmeComplete_moves (a0 a1 a2 a3 a4 s) : Moves [.out, .regs, .log, .host, .sto] s (nvmeComplete a0 a1 a2 a3 a4 s) := by
  unfold nvmeComplete
  split
  ·
    exact (Moves.refl _ s)
  ·
    exact Moves.step (Moves.refl _ s) (ncqPost_moves ..) rfl

theorem settleShn_moves (a0 s) : Moves [.sto] s (settleShn a0 s) := by
  unfold settleShn
  refine Moves.ite ?_ ?_
  ·
    exact Moves.step (Moves.refl _ s) (nvmeMod_moves ..) rfl
  ·
    exact (Moves.refl _ s)

theorem nsNotice_moves (a0 s) : Moves [.out, .regs, .log, .host, .sto] s (nsNotice a0 s) := by
  unfold nsNotice
  extract_lets -merge -useContext -underBinder y0
  clear_value y0
  split
  ·
    refine Moves.ite ?_ ?_
    ·
      refine Moves.step ?_ (nvmeComplete_moves ..) rfl
      exact Moves.step (Moves.refl _ s) (nvmeMod_moves ..) rfl
    ·
      exact (Moves.refl _ s)
  ·
    exact (Moves.refl _ s)

theorem nsChanged_moves (a0 a1 s) : Moves [.out, .regs, .log, .host, .sto] s (nsChanged a0 a1 s) := by
  unfold nsChanged
  refine Moves.ite ?_ ?_
  ·
    refine Moves.step ?_ (nsNotice_moves ..) rfl
    exact Moves.step (Moves.refl _ s) (nvmeMod_moves ..) rfl
  ·
    exact (Moves.refl _ s)

theorem orphanCmds_moves (a0 s) : Moves [.sto] s (orphanCmds a0 s) := by
  unfold orphanCmds
  exact Moves.step (Moves.refl _ s) (stoMod_moves ..) rfl

theorem bedComplete_moves (a0 a1 a2 a3 s) : Moves [.svc] s (bedComplete a0 a1 a2 a3 s) := by
  unfold bedComplete
  split
  ·
    exact (Moves.refl _ s)
  ·
    refine MovesAll.get_fst ?_
    exact MovesAll.step (Moves.refl _ s) (extMessage_moves _ _ _ _ _) rfl

theorem stoAnswer_moves (a0 a1 a2 a3 a4 s) : Moves [.out, .regs, .log, .host, .sto, .svc] s (stoAnswer a0 a1 a2 a3 a4 s) := by
  unfold stoAnswer
  split
  ·
    refine Moves.step ?_ (settleShn_moves ..) rfl
    exact Moves.step (Moves.refl _ s) (nvmeComplete_moves ..) rfl
  ·
    exact Moves.step (Moves.refl _ s) (bedComplete_moves ..) rfl

theorem endCmd_moves (a0 a1 a2 s) : Moves [.out, .regs, .log, .host, .sto, .svc] s (endCmd a0 a1 a2 s) := by
  unfold endCmd
  extract_lets -merge -useContext -underBinder y0
  have hy0 : Moves [.out, .regs, .log, .host, .sto, .svc] s y0 := by
    unfold y0
    exact Moves.step (Moves.refl _ s) (stoMod_moves ..) rfl
  clear_value y0
  refine Moves.ite ?_ ?_
  ·
    exact hy0
  ·
    exact Moves.step hy0 (stoAnswer_moves ..) rfl

theorem nsMod_moves (a0 a1 s) : Moves [.sto] s (nsMod a0 a1 s) := by
  unfold nsMod
  exact Moves.step (Moves.refl _ s) (stoMod_moves ..) rfl

theorem nsSet_moves (a0 a1 s) : Moves [.regs, .log, .sto] s (nsSet a0 a1 s) := by
  unfold nsSet
  split
  ·
    exact (Moves.refl _ s)
  ·
    refine Moves.ite ?_ ?_
    ·
      exact (Moves.refl _ s)
    ·
      refine Moves.step ?_ (raise_moves ..) rfl
      exact Moves.step (Moves.refl _ s) (nsMod_moves ..) rfl

theorem nsUnlock_moves (a0 a1 s) : Moves [.regs, .log, .sto] s (nsUnlock a0 a1 s) := by
  unfold nsUnlock
  split
  ·
    exact (Moves.refl _ s)
  ·
    extract_lets -merge -useContext -underBinder y0
    have hy0 : Moves [.regs, .log, .sto] s y0 := by
      unfold y0
      exact Moves.step (Moves.refl _ s) (nsMod_moves ..) rfl
    clear_value y0
    refine Moves.ite ?_ ?_
    ·
      exact Moves.step hy0 (nsSet_moves ..) rfl
    ·
      exact hy0

theorem toTransport_moves (a0 a1 a2 s) : Moves [.out, .freeIx, .buf] s (toTransport a0 a1 a2 s) := by
  unfold toTransport
  extract_lets -merge -useContext -underBinder y0 y1
  have hy1 : Moves [.out, .freeIx, .buf] s y1 := by
    unfold y1
    refine Moves.step ?_ (emit_moves ..) rfl
    exact Moves.leafFree (by intro x hx; cases x <;> first | rfl | exact absurd (by decide) hx) rfl rfl (Nat.le_succ _) rfl
  clear_value y1
  refine Moves.ite hy1 (Moves.step (m := [.buf]) hy1 ?_ rfl)
  exact Moves.leaf (by intro x hx; cases x <;> first | rfl | exact absurd (by decide) hx) rfl rfl rfl rfl

theorem sendCmd_moves (a0 s) : MovesAll hasSnd [.out, .freeIx, .buf, .sto] s (sendCmd a0 s) := by
  unfold sendCmd
  split
  ·
    refine hasSnd_mk ?_
    exact (Moves.refl _ s)
  ·
    extract_lets -merge -useContext -underBinder y0 y1
    clear_value y0
    clear_value y1
    refine MovesAll.ite ?_ ?_
    ·
      refine hasSnd_mk ?_
      exact (Moves.refl _ s)
    ·
      split
      ·
        refine hasSnd_mk ?_
        exact (Moves.refl _ s)
      ·
        split
        ·
          refine hasSnd_mk ?_
          exact (Moves.refl _ s)
        ·
          extract_lets -merge -useContext -underBinder y2
          have hy2 : Moves [.out, .freeIx, .buf, .sto] s y2 := by
            unfold y2
            exact Moves.step (Moves.refl _ s) (stoMod_moves ..) rfl
          clear_value y2
          refine hasSnd_mk ?_
          exact Moves.step hy2 (toTransport_moves ..) rfl

theorem pumpList_moves (a0 a1 s) : Moves [.out, .freeIx, .buf, .sto] s (pumpList a0 a1 s) := by
  induction a0 generalizing a1 s with
  | nil => exact Moves.refl _ s
  | cons c r ih =>
    unfold pumpList
    refine Moves.ite (ih _ _) ?_
    split
    rename_i d t e
    refine Moves.step ?_ (ih _ _) rfl
    exact Moves.step (Moves.refl _ s) (MovesAll.of_eq (has := hasSnd) e rfl (sendCmd_moves c s)) rfl

theorem pumpNs_moves (a0 s) : Moves [.out, .freeIx, .buf, .sto] s (pumpNs a0 s) := by
  unfold pumpNs
  exact Moves.step (Moves.refl _ s) (pumpList_moves ..) rfl

theorem pumpAll_moves (s) : Moves [.out, .freeIx, .buf, .sto] s (pumpAll s) := by
  unfold pumpAll
  refine Moves.foldl ?_ (fun t0 x1 ht0 => ?_)
  ·
    exact (Moves.refl _ s)
  ·
    exact Moves.step ht0 (pumpNs_moves ..) rfl

theorem piError_moves (a0 a1 a2 a3 a4 s) : Moves [.regs, .log] s (piError a0 a1 a2 a3 a4 s) := by
  unfold piError
  exact Moves.step (Moves.refl _ s) (raise_moves ..) rfl

theorem fillSegs_moves (a0 a1 a2 s) : Moves [.out, .regs, .log, .host] s (fillSegs a0 a1 a2 s) := by
  induction a1 generalizing a2 s with
  | nil => exact Moves.refl _ s
  | cons c r ih =>
    unfold fillSegs
    refine Moves.ite (Moves.refl _ s) ?_
    exact Moves.step (Moves.step (Moves.refl _ s) (hostWrite_moves ..) rfl) (ih _ _) rfl

theorem deliver_moves (a0 a1 a2 s) : MovesAll hasSnd [.out, .regs, .log, .host, .svc, .mem] s (deliver a0 a1 a2 s) := by
  unfold deliver
  split
  ·
    extract_lets -merge -useContext -underBinder y0
    have hy0 : Moves [.out, .regs, .log, .host, .svc, .mem] s y0 := by
      unfold y0
      exact Moves.step (Moves.refl _ s) (fillSegs_moves ..) rfl
    clear_value y0
    refine hasSnd_mk ?_
    refine Moves.ite ?_ ?_
    ·
      exact hy0
    ·
      exact Moves.step hy0 (hostWrite_moves ..) rfl
  ·
    extract_lets -merge -useContext -underBinder y1 y2
    clear_value y1
    have hy2 : Moves [.out, .regs, .log, .host, .svc, .mem] s y2 := by
      unfold y2
      exact Moves.step (Moves.refl _ s) (memWrite_moves ..) rfl
    clear_value y2
    refine MovesAll.ite ?_ ?_
    ·
      refine hasSnd_mk ?_
      exact (Moves.refl _ s)
    ·
      refine hasSnd_mk ?_
      refine Moves.ite ?_ ?_
      ·
        exact hy2
      ·
        exact Moves.step hy2 (memWrite_moves ..) rfl

theorem qpMod_moves (a0 a1 a2 s) : Moves [.host] s (qpMod a0 a1 a2 s) := by
  unfold qpMod
  exact Moves.step (Moves.refl _ s) (funcMod_moves ..) rfl

theorem countQp_moves (a0 a1 a2 a3 s) : Moves [.host] s (countQp a0 a1 a2 a3 s) := by
  unfold countQp
  extract_lets -merge -useContext -underBinder y0
  clear_value y0
  exact Moves.step (m := [.host]) (Moves.refl _ s) (Moves.leaf (by intro x hx; cases x <;> first | rfl | exact absurd (by decide) hx) rfl rfl rfl rfl) rfl

theorem qpError_moves (a0 a1 a2 s) : Moves [.regs, .log, .host] s (qpError a0 a1 a2 s) := by
  unfold qpError
  refine Moves.step ?_ (raise_moves ..) rfl
  exact Moves.step (Moves.refl _ s) (qpMod_moves ..) rfl

theorem qpSignal_moves (a0 a1 s) : Moves [.out, .host] s (qpSignal a0 a1 s) := by
  unfold qpSignal
  extract_lets -merge -useContext -underBinder y0
  clear_value y0
  refine Moves.step ?_ (signalVector_moves ..) rfl
  exact Moves.step (Moves.refl _ s) (qpMod_moves ..) rfl

theorem writeCompletion_moves (a0 a1 a2 s) : Moves [.out, .regs, .log, .host] s (writeCompletion a0 a1 a2 s) := by
  unfold writeCompletion
  extract_lets -merge -useContext -underBinder y0 y1 y2 y3 y4 y5 y6
  clear_value y0
  clear_value y1
  clear_value y2
  have hy3 : Moves [.out, .regs, .log, .host] s y3 := by
    unfold y3
    exact Moves.step (Moves.refl _ s) (hostWriteAs_moves ..) rfl
  clear_value y3
  clear_value y4
  have hy5 : Moves [.out, .regs, .log, .host] s y5 := by
    unfold y5
    exact Moves.step hy3 (qpMod_moves ..) rfl
  clear_value y5
  clear_value y6
  refine Moves.ite ?_ ?_
  ·
    exact Moves.step hy5 (qpSignal_moves ..) rfl
  ·
    exact hy5

theorem qpCut_moves (a0 a1 s) : Moves [.regs, .log, .host] s (qpCut a0 a1 s) := by
  unfold qpCut
  extract_lets -merge -useContext -underBinder y0 y1
  clear_value y0
  have hy1 : Moves [.regs, .log, .host] s y1 := by
    unfold y1
    refine Moves.ite ?_ ?_
    ·
      exact Moves.step (Moves.refl _ s) (countQp_moves ..) rfl
    ·
      exact (Moves.refl _ s)
  clear_value y1
  refine Moves.ite ?_ ?_
  ·
    refine Moves.step ?_ (qpError_moves ..) rfl
    exact Moves.step hy1 (funcMod_moves ..) rfl
  ·
    exact (Moves.refl _ s)

theorem dmaMod_moves (a0 a1 s) : Moves [.host] s (dmaMod a0 a1 s) := by
  unfold dmaMod
  extract_lets -merge -useContext -underBinder y0
  clear_value y0
  exact Moves.step (m := [.host]) (Moves.refl _ s) (Moves.leaf (by intro x hx; cases x <;> first | rfl | exact absurd (by decide) hx) rfl rfl rfl rfl) rfl

theorem chEnable_moves (a0 a1 s) : Moves [.host] s (chEnable a0 a1 s) := by
  unfold chEnable
  extract_lets -merge -useContext -underBinder y0
  clear_value y0
  refine Moves.ite ?_ ?_
  ·
    exact Moves.step (Moves.refl _ s) (dmaMod_moves ..) rfl
  ·
    exact Moves.step (Moves.refl _ s) (dmaMod_moves ..) rfl

theorem chDisable_moves (a0 s) : Moves [.freeIx, .host] s (chDisable a0 s) := by
  unfold chDisable
  split
  ·
    rename_i v0 v1 e2
    have hv1 : Moves [.freeIx, .host] s v1 := by
      refine MovesAll.of_eq (has := hasSnd) e2 rfl ?_
      exact MovesAll.step (Moves.refl _ s) (drawFree_moves _) rfl
    extract_lets -merge -useContext -underBinder y3 y4
    clear_value y3
    have hy4 : Moves [.freeIx, .host] s y4 := by
      unfold y4
      exact Moves.step hv1 (dmaMod_moves ..) rfl
    clear_value y4
    refine Moves.ite ?_ ?_
    ·
      exact Moves.step hy4 (funcMod_moves ..) rfl
    ·
      exact hy4

theorem chAbort_moves (a0 a1 s) : Moves [.regs, .log, .host] s (chAbort a0 a1 s) := by
  unfold chAbort
  extract_lets -merge -useContext -underBinder y0
  have hy0 : Moves [.regs, .log, .host] s y0 := by
    unfold y0
    exact Moves.step (Moves.refl _ s) (dmaMod_moves ..) rfl
  clear_value y0
  exact Moves.step hy0 (raise_moves ..) rfl

theorem widen_moves (a0 a1 s) : Moves [.host] s (widen a0 a1 s) := by
  unfold widen
  refine Moves.ite ?_ ?_
  ·
    exact Moves.step (Moves.refl _ s) (linkMod_moves ..) rfl
  ·
    exact (Moves.refl _ s)

theorem issueRead_moves (a0 a1 a2 a3 a4 s) : Moves [.out, .host] s (issueRead a0 a1 a2 a3 a4 s) := by
  unfold issueRead
  split
  ·
    extract_lets -merge -useContext -underBinder y0
    clear_value y0
    refine Moves.ite ?_ ?_
    ·
      exact (Moves.refl _ s)
    ·
      split
      ·
        exact (Moves.refl _ s)
      ·
        extract_lets -merge -useContext -underBinder y1 y2 y3 y4
        clear_value y1
        have hy2 : Moves [.out, .host] s y2 := by
          unfold y2
          exact Moves.step (m := [.host]) (Moves.refl _ s) (Moves.leaf (by intro x hx; cases x <;> first | rfl | exact absurd (by decide) hx) rfl rfl rfl rfl) rfl
        clear_value y2
        have hy3 : Moves [.out, .host] s y3 := by
          unfold y3
          exact Moves.step hy2 (funcMod_moves ..) rfl
        clear_value y3
        have hy4 : Moves [.out, .host] s y4 := by
          unfold y4
          refine Moves.ite ?_ ?_
          ·
            exact Moves.step hy3 (widen_moves ..) rfl
          ·
            exact hy3
        clear_value y4
        exact Moves.step hy4 (toHost_moves ..) rfl

theorem serveQps_moves (a0 a1 s) : Moves [.out, .host] s (serveQps a0 a1 s) := by
  induction a1 generalizing s with
  | zero => exact Moves.refl _ s
  | succ k ih =>
    unfold serveQps
    split
    · exact Moves.refl _ s
    · refine Moves.ite (Moves.refl _ s) ?_
      split
      extract_lets -merge -useContext -underBinder q h t
      clear_value q h
      have ht : Moves [.out, .host] s t :=
        Moves.step (m := [.host]) (Moves.refl _ s) (Moves.leaf (by intro x hx; cases x <;> first | rfl | exact absurd (by decide) hx) rfl rfl rfl rfl) rfl
      clear_value t
      exact Moves.step (Moves.step ht (issueRead_moves ..) rfl) (ih _) (all_self _)

theorem qpFetch_moves (a0 a1 s) : Moves [.out, .host] s (qpFetch a0 a1 s) := by
  unfold qpFetch
  exact Moves.step (Moves.refl _ s) (serveQps_moves ..) rfl

theorem serveLink_moves (a0 a1 s) : Moves [.out, .host] s (serveLink a0 a1 s) := by
  unfold serveLink
  refine Moves.foldl ?_ (fun t0 x1 ht0 => ?_)
  ·
    exact (Moves.refl _ s)
  ·
    exact Moves.step ht0 (serveQps_moves ..) rfl

theorem opDmaQpSet_moves (c s) : DoneMoves [.host] s ((opDmaQpSet).body c s) := by
  unfold opDmaQpSet
  refine op_mk ?_
  split
  ·
    exact hasDone_refuse
  ·
    extract_lets -merge -useContext -underBinder y0 y1 y2
    clear_value y0
    clear_value y1
    clear_value y2
    refine DoneMoves.ite ?_ ?_
    ·
      exact hasDone_refuse
    ·
      refine DoneMoves.ite ?_ ?_
      ·
        exact hasDone_refuse
      ·
        refine DoneMoves.ite ?_ ?_
        ·
          exact hasDone_refuse
        ·
          refine hasDone_reply ?_
          exact Moves.step (Moves.refl _ s) (qpMod_moves ..) rfl

theorem execDmaQpSet_moves (a0 s) : MovesAll hasNext [.waiting, .out, .regs, .log, .cmd, .prot, .host, .svc] s (execDmaQpSet a0 s) := by
  unfold execDmaQpSet
  refine hasNext_next ?_
  exact Moves.step (Moves.refl _ s) (runCmd_moves _ _ _ (opDmaQpSet_moves ..)) rfl

theorem opDmaQpStart_moves (c s) : DoneMoves [.out, .host] s ((opDmaQpStart).body c s) := by
  unfold opDmaQpStart
  refine op_mk ?_
  split
  ·
    exact hasDone_refuse
  ·
    extract_lets -merge -useContext -underBinder y0 y1 y2
    clear_value y0
    clear_value y1
    clear_value y2
    refine DoneMoves.ite ?_ ?_
    ·
      exact hasDone_refuse
    ·
      refine DoneMoves.ite ?_ ?_
      ·
        refine hasDone_reply ?_
        refine Moves.step ?_ (qpFetch_moves ..) rfl
        exact Moves.step (Moves.refl _ s) (qpMod_moves ..) rfl
      ·
        refine hasDone_reply ?_
        exact (Moves.refl _ s)

theorem execDmaQpStart_moves (a0 s) : MovesAll hasNext [.waiting, .out, .regs, .log, .cmd, .prot, .host, .svc] s (execDmaQpStart a0 s) := by
  unfold execDmaQpStart
  refine hasNext_next ?_
  exact Moves.step (Moves.refl _ s) (runCmd_moves _ _ _ (opDmaQpStart_moves ..)) rfl

theorem opDmaQpStop_moves (c s) : DoneMoves [.out, .host] s ((opDmaQpStop).body c s) := by
  unfold opDmaQpStop
  refine op_mk ?_
  split
  ·
    exact hasDone_refuse
  ·
    extract_lets -merge -useContext -underBinder y0 y1
    clear_value y0
    clear_value y1
    refine DoneMoves.ite ?_ ?_
    ·
      refine hasDone_reply ?_
      refine Moves.step ?_ (qpFetch_moves ..) rfl
      refine Moves.step ?_ (funcMod_moves ..) rfl
      exact Moves.step (Moves.refl _ s) (qpMod_moves ..) rfl
    ·
      refine hasDone_reply ?_
      exact (Moves.refl _ s)

theorem execDmaQpStop_moves (a0 s) : MovesAll hasNext [.waiting, .out, .regs, .log, .cmd, .prot, .host, .svc] s (execDmaQpStop a0 s) := by
  unfold execDmaQpStop
  refine hasNext_next ?_
  exact Moves.step (Moves.refl _ s) (runCmd_moves _ _ _ (opDmaQpStop_moves ..)) rfl

theorem opDmaQpFlush_moves (c s) : DoneMoves [.host] s ((opDmaQpFlush).body c s) := by
  unfold opDmaQpFlush
  refine op_mk ?_
  split
  ·
    exact hasDone_refuse
  ·
    extract_lets -merge -useContext -underBinder y0 y1
    clear_value y0
    clear_value y1
    refine hasDone_accept ?_ (fun u => Moves.refl _ u)
    exact Moves.step (Moves.refl _ s) (qpMod_moves ..) rfl

theorem execDmaQpFlush_moves (a0 s) : MovesAll hasNext [.waiting, .out, .regs, .log, .cmd, .prot, .host, .svc] s (execDmaQpFlush a0 s) := by
  unfold execDmaQpFlush
  refine hasNext_next ?_
  exact Moves.step (Moves.refl _ s) (runCmd_moves _ _ _ (opDmaQpFlush_moves ..)) rfl

theorem opDmaQpRead_moves (c s) : DoneMoves [] s ((opDmaQpRead).body c s) := by
  unfold opDmaQpRead
  refine op_mk ?_
  split
  ·
    exact hasDone_refuse
  ·
    refine hasDone_reply ?_
    exact (Moves.refl _ s)

theorem execDmaQpRead_moves (a0 s) : MovesAll hasNext [.waiting, .out, .regs, .log, .cmd, .prot, .host, .svc] s (execDmaQpRead a0 s) := by
  unfold execDmaQpRead
  refine hasNext_next ?_
  exact Moves.step (Moves.refl _ s) (runCmd_moves _ _ _ (opDmaQpRead_moves ..)) rfl

theorem flushTx_moves (a0 a1 a2 s) : Moves [.out, .regs, .log, .host] s (flushTx a0 a1 a2 s) := by
  induction a2 generalizing s with
  | zero => exact Moves.refl _ s
  | succ k ih =>
    unfold flushTx
    extract_lets -merge -useContext -underBinder q t
    refine Moves.ite (Moves.refl _ s) ?_
    refine Moves.step ?_ (ih _) rfl
    refine Moves.step ?_ (writeCompletion_moves ..) rfl
    unfold t
    exact Moves.step (Moves.refl _ s) (qpMod_moves ..) rfl

theorem execDmaQpFlushed_moves (a0 a1 s) : MovesAll hasNext [.out, .regs, .log, .cmd, .host, .svc] s (execDmaQpFlushed a0 a1 s) := by
  unfold execDmaQpFlushed
  extract_lets -merge -useContext -underBinder y0 y1 y2 y3 y4 y5 y6
  clear_value y0
  clear_value y1
  clear_value y2
  have hy3 : Moves [.out, .regs, .log, .cmd, .host, .svc] s y3 := by
    unfold y3
    exact Moves.step (Moves.refl _ s) (flushTx_moves ..) rfl
  clear_value y3
  have hy4 : Moves [.out, .regs, .log, .cmd, .host, .svc] s y4 := by
    unfold y4
    refine Moves.ite ?_ ?_
    ·
      exact hy3
    ·
      refine Moves.step ?_ (qpMod_moves ..) rfl
      exact Moves.step hy3 (writeCompletion_moves ..) rfl
  clear_value y4
  have hy5 : Moves [.out, .regs, .log, .cmd, .host, .svc] s y5 := by
    unfold y5
    exact Moves.step hy4 (qpMod_moves ..) rfl
  clear_value y5
  have hy6 : Moves [.out, .regs, .log, .cmd, .host, .svc] s y6 := by
    unfold y6
    exact Moves.step hy5 (raise_moves ..) rfl
  clear_value y6
  refine hasNext_onElem ?_
  refine Moves.ite ?_ ?_
  ·
    exact (Moves.refl _ s)
  ·
    exact Moves.step hy6 (finishKey_moves ..) rfl

theorem execQpDbTx_moves (a0 a1 a2 s) : MovesAll hasNext [.out, .regs, .log, .host] s (execQpDbTx a0 a1 a2 s) := by
  unfold execQpDbTx
  extract_lets -merge -useContext -underBinder y0 y1 y2
  clear_value y0
  have hy1 : Moves [.out, .regs, .log, .host] s y1 := by
    unfold y1
    exact Moves.step (Moves.refl _ s) (qpMod_moves ..) rfl
  clear_value y1
  clear_value y2
  refine hasNext_onElem ?_
  refine Moves.ite ?_ ?_
  ·
    exact (Moves.refl _ s)
  ·
    refine Moves.ite ?_ ?_
    ·
      exact Moves.step hy1 (qpError_moves ..) rfl
    ·
      exact Moves.step hy1 (qpFetch_moves ..) rfl

theorem execQpDbRx_moves (a0 a1 a2 s) : MovesAll hasNext [.regs, .log, .host] s (execQpDbRx a0 a1 a2 s) := by
  unfold execQpDbRx
  extract_lets -merge -useContext -underBinder y0 y1 y2
  clear_value y0
  have hy1 : Moves [.regs, .log, .host] s y1 := by
    unfold y1
    exact Moves.step (Moves.refl _ s) (qpMod_moves ..) rfl
  clear_value y1
  clear_value y2
  refine hasNext_onElem ?_
  refine Moves.ite ?_ ?_
  ·
    exact (Moves.refl _ s)
  ·
    refine Moves.ite ?_ ?_
    ·
      exact Moves.step hy1 (qpError_moves ..) rfl
    ·
      exact hy1

theorem execQpDbCq_moves (a0 a1 a2 s) : MovesAll hasNext [.out, .regs, .log, .host] s (execQpDbCq a0 a1 a2 s) := by
  unfold execQpDbCq
  extract_lets -merge -useContext -underBinder y0 y1 y2
  clear_value y0
  clear_value y1
  have hy2 : Moves [.out, .regs, .log, .host] s y2 := by
    unfold y2
    exact Moves.step (Moves.refl _ s) (qpMod_moves ..) rfl
  clear_value y2
  refine hasNext_onElem ?_
  refine Moves.ite ?_ ?_
  ·
    exact (Moves.refl _ s)
  ·
    refine Moves.ite ?_ ?_
    ·
      exact Moves.step hy2 (qpError_moves ..) rfl
    ·
      exact Moves.step hy2 (qpFetch_moves ..) rfl

theorem execInterruptModerationTimer_moves (a0 a1 s) : MovesAll hasNext [.out, .host, .sto] s (execInterruptModerationTimer a0 a1 s) := by
  unfold execInterruptModerationTimer
  extract_lets -merge -useContext -underBinder y0
  clear_value y0
  refine hasNext_onElem ?_
  refine Moves.ite ?_ ?_
  ·
    split
    ·
      refine Moves.ite ?_ ?_
      ·
        exact Moves.step (Moves.refl _ s) (ncqSignal_moves ..) rfl
      ·
        exact (Moves.refl _ s)
    ·
      exact (Moves.refl _ s)
  ·
    refine Moves.ite ?_ ?_
    ·
      exact Moves.step (Moves.refl _ s) (qpSignal_moves ..) rfl
    ·
      exact (Moves.refl _ s)

theorem opDmaChAssign_moves (c s) : DoneMoves [.host] s ((opDmaChAssign).body c s) := by
  unfold opDmaChAssign
  refine op_mk ?_
  extract_lets -merge -useContext -underBinder y0 y1 y2 y3 y4 y5
  clear_value y0
  clear_value y1
  clear_value y2
  clear_value y3
  clear_value y4
  clear_value y5
  refine DoneMoves.ite ?_ ?_
  ·
    exact hasDone_refuse
  ·
    refine DoneMoves.ite ?_ ?_
    ·
      exact hasDone_refuse
    ·
      refine DoneMoves.ite ?_ ?_
      ·
        exact hasDone_refuse
      ·
        refine DoneMoves.ite ?_ ?_
        ·
          exact hasDone_refuse
        ·
          refine DoneMoves.ite ?_ ?_
          ·
            exact hasDone_refuse
          ·
            refine hasDone_reply ?_
            exact Moves.step (Moves.refl _ s) (dmaMod_moves ..) rfl

theorem execDmaChAssign_moves (a0 s) : MovesAll hasNext [.waiting, .out, .regs, .log, .cmd, .prot, .host, .svc] s (execDmaChAssign a0 s) := by
  unfold execDmaChAssign
  refine hasNext_next ?_
  exact Moves.step (Moves.refl _ s) (runCmd_moves _ _ _ (opDmaChAssign_moves ..)) rfl

theorem opDmaChProgram_moves (c s) : DoneMoves [.host] s ((opDmaChProgram).body c s) := by
  unfold opDmaChProgram
  refine op_mk ?_
  extract_lets -merge -useContext -underBinder y0 y1
  clear_value y0
  clear_value y1
  refine DoneMoves.ite ?_ ?_
  ·
    exact hasDone_refuse
  ·
    refine DoneMoves.ite ?_ ?_
    ·
      exact hasDone_refuse
    ·
      refine hasDone_reply ?_
      exact Moves.step (Moves.refl _ s) (dmaMod_moves ..) rfl

theorem execDmaChProgram_moves (a0 s) : MovesAll hasNext [.waiting, .out, .regs, .log, .cmd, .prot, .host, .svc] s (execDmaChProgram a0 s) := by
  unfold execDmaChProgram
  refine hasNext_next ?_
  exact Moves.step (Moves.refl _ s) (runCmd_moves _ _ _ (opDmaChProgram_moves ..)) rfl

theorem opDmaChEnable_moves (c s) : DoneMoves [.freeIx, .host] s ((opDmaChEnable).body c s) := by
  unfold opDmaChEnable
  refine op_mk ?_
  extract_lets -merge -useContext -underBinder y0 y1 y2 y3 y4
  clear_value y0
  clear_value y1
  clear_value y2
  clear_value y3
  clear_value y4
  refine DoneMoves.ite ?_ ?_
  ·
    exact hasDone_refuse
  ·
    refine DoneMoves.ite ?_ ?_
    ·
      exact hasDone_refuse
    ·
      refine DoneMoves.ite ?_ ?_
      ·
        refine DoneMoves.ite ?_ ?_
        ·
          refine hasDone_reply ?_
          exact Moves.step (Moves.refl _ s) (chEnable_moves ..) rfl
        ·
          refine hasDone_reply ?_
          exact Moves.step (Moves.refl _ s) (chEnable_moves ..) rfl
      ·
        refine DoneMoves.ite ?_ ?_
        ·
          refine hasDone_reply ?_
          exact Moves.step (Moves.refl _ s) (chDisable_moves ..) rfl
        ·
          refine hasDone_reply ?_
          exact Moves.step (Moves.refl _ s) (dmaMod_moves ..) rfl

theorem execDmaChEnable_moves (a0 s) : MovesAll hasNext [.waiting, .out, .freeIx, .regs, .log, .cmd, .prot, .host, .svc] s (execDmaChEnable a0 s) := by
  unfold execDmaChEnable
  refine hasNext_next ?_
  exact Moves.step (Moves.refl _ s) (runCmd_moves _ _ _ (opDmaChEnable_moves ..)) rfl

theorem opDmaChRead_moves (c s) : DoneMoves [] s ((opDmaChRead).body c s) := by
  unfold opDmaChRead
  refine op_mk ?_
  extract_lets -merge -useContext -underBinder y0 y1 y2
  clear_value y0
  clear_value y1
  clear_value y2
  refine DoneMoves.ite ?_ ?_
  ·
    exact hasDone_refuse
  ·
    refine DoneMoves.ite ?_ ?_
    ·
      exact hasDone_refuse
    ·
      refine hasDone_reply ?_
      exact (Moves.refl _ s)

theorem execDmaChRead_moves (a0 s) : MovesAll hasNext [.waiting, .out, .regs, .log, .cmd, .prot, .host, .svc] s (execDmaChRead a0 s) := by
  unfold execDmaChRead
  refine hasNext_next ?_
  exact Moves.step (Moves.refl _ s) (runCmd_moves _ _ _ (opDmaChRead_moves ..)) rfl

theorem flushMerge_moves (a0 a1 a2 s) : Moves [.out, .regs, .log, .host] s (flushMerge a0 a1 a2 s) := by
  induction a2 generalizing s with
  | zero => exact Moves.refl _ s
  | succ k ih =>
    unfold flushMerge
    extract_lets -merge -useContext -underBinder d x p run t
    clear_value d x p run
    refine Moves.ite (Moves.refl _ s) ?_
    have ht : Moves [.out, .regs, .log, .host] s t := by
      unfold t
      exact Moves.step (Moves.refl _ s) (dmaMod_moves ..) rfl
    clear_value t
    exact Moves.step (Moves.step ht (hostWriteAs_moves ..) rfl) (ih _) (all_self _)

theorem afterWrite_moves (a0 s) : Moves [.out, .regs, .log, .host] s (afterWrite a0 s) := by
  unfold afterWrite
  extract_lets -merge -useContext -underBinder y0 y1 y2 y3
  clear_value y0
  clear_value y1
  clear_value y2
  have hy3 : Moves [.out, .regs, .log, .host] s y3 := by
    unfold y3
    exact Moves.step (Moves.refl _ s) (flushMerge_moves ..) rfl
  clear_value y3
  refine Moves.ite ?_ ?_
  ·
    exact Moves.step hy3 (dmaMod_moves ..) rfl
  ·
    refine Moves.ite ?_ ?_
    ·
      exact Moves.step hy3 (dmaMod_moves ..) rfl
    ·
      exact hy3

theorem chBeat_moves (a0 s) : Moves [.out, .regs, .log, .host, .svc, .mem] s (chBeat a0 s) := by
  unfold chBeat
  extract_lets -merge -useContext -underBinder y0 y1 y2 y3 y4 y5 y6 y7 y8
  clear_value y0
  clear_value y1
  clear_value y2
  clear_value y3
  clear_value y4
  have hy5 : Moves [.out, .regs, .log, .host, .svc, .mem] s y5 := by
    unfold y5
    exact Moves.step (Moves.refl _ s) (dmaMod_moves ..) rfl
  clear_value y5
  clear_value y6
  clear_value y7
  clear_value y8
  refine Moves.ite ?_ ?_
  ·
    refine Moves.ite ?_ ?_
    ·
      refine Moves.step ?_ (afterWrite_moves ..) rfl
      exact Moves.step hy5 (dmaMod_moves ..) rfl
    ·
      refine Moves.ite ?_ ?_
      ·
        refine Moves.step ?_ (afterWrite_moves ..) rfl
        exact Moves.step hy5 (memWrite_moves ..) rfl
      ·
        exact Moves.step (Moves.refl _ s) (chAbort_moves ..) rfl
  ·
    refine Moves.ite ?_ ?_
    ·
      refine Moves.ite ?_ ?_
      ·
        refine Moves.ite ?_ ?_
        ·
          refine Moves.step ?_ (dmaMod_moves ..) rfl
          exact Moves.step (Moves.refl _ s) (countReads_moves ..) rfl
        ·
          exact Moves.step (Moves.refl _ s) (chAbort_moves ..) rfl
      ·
        refine Moves.ite ?_ ?_
        ·
          exact Moves.step (Moves.refl _ s) (dmaMod_moves ..) rfl
        ·
          exact Moves.step (Moves.refl _ s) (issueRead_moves ..) rfl
    ·
      exact (Moves.refl _ s)

theorem execDmaBeat_moves (a0 s) : MovesAll hasNext [.out, .regs, .log, .host, .svc, .mem] s (execDmaBeat a0 s) := by
  unfold execDmaBeat
  refine hasNext_onElem ?_
  split
  ·
    exact (Moves.refl _ s)
  ·
    extract_lets -merge -useContext -underBinder y0 y1 y2 y3
    clear_value y0
    have hy1 : Moves [.out, .regs, .log, .host, .svc, .mem] s y1 := by
      unfold y1
      refine Moves.foldl ?_ (fun t4 x5 ht4 => ?_)
      ·
        exact (Moves.refl _ s)
      ·
        extract_lets -merge -useContext -underBinder y6
        clear_value y6
        refine Moves.ite ?_ ?_
        ·
          exact Moves.step ht4 (dmaMod_moves ..) rfl
        ·
          exact ht4
    clear_value y1
    clear_value y2
    have hy3 : Moves [.out, .regs, .log, .host, .svc, .mem] s y3 := by
      unfold y3
      exact Moves.step (m := [.host]) hy1 (Moves.leaf (by intro x hx; cases x <;> first | rfl | exact absurd (by decide) hx) rfl rfl rfl rfl) rfl
    clear_value y3
    refine Moves.step ?_ (chBeat_moves ..) rfl
    exact Moves.step hy3 (dmaMod_moves ..) rfl

theorem armBursts_moves (s) : Moves [.host] s (armBursts s) := by
  unfold armBursts
  refine Moves.foldl ?_ (fun t0 x1 ht0 => ?_)
  ·
    exact (Moves.refl _ s)
  ·
    extract_lets -merge -useContext -underBinder y2
    clear_value y2
    refine Moves.ite ?_ ?_
    ·
      exact Moves.step ht0 (dmaMod_moves ..) rfl
    ·
      exact ht0

theorem execDmaRequestLineAssert_moves (a0 a1 s) : MovesAll hasNext [.host] s (execDmaRequestLineAssert a0 a1 s) := by
  unfold execDmaRequestLineAssert
  extract_lets -merge -useContext -underBinder y0 y1 y2
  clear_value y0
  have hy1 : Moves [.host] s y1 := by
    unfold y1
    refine Moves.step ?_ (armBursts_moves ..) rfl
    exact Moves.step (m := [.host]) (Moves.refl _ s) (Moves.leaf (by intro x hx; cases x <;> first | rfl | exact absurd (by decide) hx) rfl rfl rfl rfl) rfl
  clear_value y1
  clear_value y2
  refine hasNext_onElem ?_
  exact Moves.step (m := [.host]) hy1 (Moves.leaf (by intro x hx; cases x <;> first | rfl | exact absurd (by decide) hx) rfl rfl rfl rfl) rfl

theorem submit_moves (a0 s) : Moves [.waiting] s (submit a0 s) := by
  unfold submit
  exact Moves.step (m := [.waiting]) (Moves.refl _ s) (Moves.leaf (by intro x hx; cases x <;> first | rfl | exact absurd (by decide) hx) rfl rfl rfl rfl) rfl

theorem cqError_moves (a0 a1 a2 s) : Moves [.regs, .log, .host] s (cqError a0 a1 a2 s) := by
  unfold cqError
  refine Moves.step ?_ (raise_moves ..) rfl
  exact Moves.step (Moves.refl _ s) (cqMod_moves ..) rfl

theorem cqFetch_moves (a0 a1 a2 a3 s) : Moves [.waiting, .regs, .log, .host] s (cqFetch a0 a1 a2 a3 s) := by
  unfold cqFetch
  extract_lets -merge -useContext -underBinder y0 y1
  clear_value y0
  clear_value y1
  refine Moves.ite ?_ ?_
  ·
    exact (Moves.refl _ s)
  ·
    refine Moves.ite ?_ ?_
    ·
      exact Moves.step (Moves.refl _ s) (cqError_moves ..) rfl
    ·
      refine Moves.ite ?_ ?_
      ·
        exact (Moves.refl _ s)
      ·
        refine Moves.ite ?_ ?_
        ·
          exact Moves.step (Moves.refl _ s) (cqError_moves ..) rfl
        ·
          split
          ·
            extract_lets -merge -useContext -underBinder y2
            have hy2 : Moves [.waiting, .regs, .log, .host] s y2 := by
              unfold y2
              refine Moves.step ?_ (submit_moves ..) rfl
              exact Moves.step (Moves.refl _ s) (cqMod_moves ..) rfl
            clear_value y2
            refine Moves.ite ?_ ?_
            ·
              exact Moves.step hy2 (cqError_moves ..) rfl
            ·
              exact hy2

theorem execPfCqDb_moves (a0 a1 a2 a3 a4 s) : MovesAll hasNext [.waiting, .regs, .log, .host] s (execPfCqDb a0 a1 a2 a3 a4 s) := by
  unfold execPfCqDb
  refine hasNext_onElem ?_
  refine Moves.step ?_ (cqFetch_moves ..) rfl
  exact Moves.step (Moves.refl _ s) (cqMod_moves ..) rfl

theorem execPfCqEnable_moves (a0 a1 a2 a3 a4 s) : MovesAll hasNext [.waiting, .regs, .log, .host] s (execPfCqEnable a0 a1 a2 a3 a4 s) := by
  unfold execPfCqEnable
  refine hasNext_onElem ?_
  refine Moves.ite ?_ ?_
  ·
    exact (Moves.refl _ s)
  ·
    refine Moves.step ?_ (cqFetch_moves ..) rfl
    exact Moves.step (Moves.refl _ s) (cqMod_moves ..) rfl

theorem execPfCqDisable_moves (a0 a1 a2 s) : MovesAll hasNext [.host] s (execPfCqDisable a0 a1 a2 s) := by
  unfold execPfCqDisable
  refine hasNext_onElem ?_
  refine Moves.ite ?_ ?_
  ·
    exact Moves.step (Moves.refl _ s) (cqMod_moves ..) rfl
  ·
    exact (Moves.refl _ s)

theorem execPfCqRqHead_moves (a0 a1 a2 a3 a4 s) : MovesAll hasNext [.waiting, .out, .regs, .log, .host] s (execPfCqRqHead a0 a1 a2 a3 a4 s) := by
  unfold execPfCqRqHead
  extract_lets -merge -useContext -underBinder y0
  have hy0 : Moves [.waiting, .out, .regs, .log, .host] s y0 := by
    unfold y0
    exact Moves.step (Moves.refl _ s) (cqMod_moves ..) rfl
  clear_value y0
  refine hasNext_onElem ?_
  refine Moves.step ?_ (cqFetch_moves ..) rfl
  exact Moves.step hy0 (flushReplies_moves ..) rfl

theorem cmdqMod_moves (a0 a1 s) : Moves [.svc] s (cmdqMod a0 a1 s) := by
  unfold cmdqMod
  exact Moves.step (Moves.refl _ s) (clustMod_moves ..) rfl

theorem cmdqError_moves (a0 a1 s) : Moves [.regs, .log, .svc] s (cmdqError a0 a1 s) := by
  unfold cmdqError
  refine Moves.step ?_ (raise_moves ..) rfl
  exact Moves.step (Moves.refl _ s) (cmdqMod_moves ..) rfl

theorem bedFetch_moves (a0 s) : Moves [.waiting, .regs, .log, .svc, .mem] s (bedFetch a0 s) := by
  unfold bedFetch
  extract_lets -merge -useContext -underBinder y0 y1
  clear_value y0
  clear_value y1
  refine Moves.ite ?_ ?_
  ·
    exact (Moves.refl _ s)
  ·
    refine Moves.ite ?_ ?_
    ·
      exact Moves.step (Moves.refl _ s) (cmdqError_moves ..) rfl
    ·
      refine Moves.ite ?_ ?_
      ·
        exact (Moves.refl _ s)
      ·
        refine Moves.ite ?_ ?_
        ·
          exact Moves.step (Moves.refl _ s) (cmdqError_moves ..) rfl
        ·
          split
          ·
            extract_lets -merge -useContext -underBinder y2 y3
            have hy2 : Moves [.waiting, .regs, .log, .svc, .mem] s y2 := by
              unfold y2
              refine Moves.foldl ?_ (fun t4 x5 ht4 => ?_)
              ·
                exact (Moves.refl _ s)
              ·
                exact Moves.step ht4 (countReads_moves ..) rfl
            clear_value y2
            have hy3 : Moves [.waiting, .regs, .log, .svc, .mem] s y3 := by
              unfold y3
              refine Moves.step ?_ (submit_moves ..) rfl
              exact Moves.step hy2 (cmdqMod_moves ..) rfl
            clear_value y3
            refine Moves.ite ?_ ?_
            ·
              exact Moves.step hy3 (cmdqError_moves ..) rfl
            ·
              exact hy3

theorem cmdqDb_moves (a0 a1 s) : Moves [.waiting, .regs, .log, .svc, .mem] s (cmdqDb a0 a1 s) := by
  unfold cmdqDb
  refine Moves.step ?_ (bedFetch_moves ..) rfl
  exact Moves.step (Moves.refl _ s) (cmdqMod_moves ..) rfl

theorem cmdqCfg_moves (a0 a1 s) : Moves [.waiting, .regs, .log, .svc, .mem] s (cmdqCfg a0 a1 s) := by
  unfold cmdqCfg
  extract_lets -merge -useContext -underBinder y0 y1
  clear_value y0
  clear_value y1
  refine Moves.ite ?_ ?_
  ·
    refine Moves.ite ?_ ?_
    ·
      exact (Moves.refl _ s)
    ·
      refine Moves.step ?_ (bedFetch_moves ..) rfl
      exact Moves.step (Moves.refl _ s) (cmdqMod_moves ..) rfl
  ·
    exact Moves.step (Moves.refl _ s) (cmdqMod_moves ..) rfl

theorem execSvcCmdqDb_moves (a0 a1 s) : MovesAll hasNext [.waiting, .regs, .log, .svc, .mem] s (execSvcCmdqDb a0 a1 s) := by
  unfold execSvcCmdqDb
  refine hasNext_onElem ?_
  exact Moves.step (Moves.refl _ s) (cmdqDb_moves ..) rfl

theorem execSvcCmdqEnable_moves (a0 a1 s) : MovesAll hasNext [.waiting, .regs, .log, .svc, .mem] s (execSvcCmdqEnable a0 a1 s) := by
  unfold execSvcCmdqEnable
  refine hasNext_onElem ?_
  exact Moves.step (Moves.refl _ s) (cmdqCfg_moves ..) rfl

theorem execSvcCmdqDisable_moves (a0 a1 s) : MovesAll hasNext [.waiting, .regs, .log, .svc, .mem] s (execSvcCmdqDisable a0 a1 s) := by
  unfold execSvcCmdqDisable
  refine hasNext_onElem ?_
  exact Moves.step (Moves.refl _ s) (cmdqCfg_moves ..) rfl

theorem execOobCommandMessage_moves (a0 a1 s) : MovesAll hasNext [.waiting, .out, .regs, .log, .host, .svc] s (execOobCommandMessage a0 a1 s) := by
  unfold execOobCommandMessage
  refine hasNext_onElem ?_
  split
  ·
    refine Moves.ite ?_ ?_
    ·
      exact Moves.step (Moves.refl _ s) (sendReply_moves ..) rfl
    ·
      refine Moves.ite ?_ ?_
      ·
        exact Moves.step (Moves.refl _ s) (sendReply_moves ..) rfl
      ·
        exact Moves.step (Moves.refl _ s) (submit_moves ..) rfl

theorem execTwinForwardedCommand_moves (a0 a1 a2 a3 a4 a5 s) : MovesAll hasNext [.waiting] s (execTwinForwardedCommand a0 a1 a2 a3 a4 a5 s) := by
  unfold execTwinForwardedCommand
  refine hasNext_next ?_
  exact Moves.step (Moves.refl _ s) (submit_moves ..) rfl

theorem queueLost_moves (a0 s) : Moves [.waiting, .cmd, .cfg] s (queueLost a0 s) := by
  unfold queueLost
  extract_lets -merge -useContext -underBinder y0 y1
  clear_value y0
  clear_value y1
  exact Moves.step (m := [.waiting, .cmd, .cfg]) (Moves.refl _ s) (Moves.leaf (by intro x hx; cases x <;> first | rfl | exact absurd (by decide) hx) rfl rfl rfl rfl) rfl

theorem bedMod_moves (a0 a1 s) : Moves [.svc] s (bedMod a0 a1 s) := by
  unfold bedMod
  extract_lets -merge -useContext -underBinder y0
  clear_value y0
  exact Moves.step (m := [.svc]) (Moves.refl _ s) (Moves.leaf (by intro x hx; cases x <;> first | rfl | exact absurd (by decide) hx) rfl rfl rfl rfl) rfl

theorem setBed_moves (a0 a1 s) : Moves [.regs, .log, .svc] s (setBed a0 a1 s) := by
  unfold setBed
  extract_lets -merge -useContext -underBinder y0
  clear_value y0
  refine Moves.step ?_ (raise_moves ..) rfl
  exact Moves.step (Moves.refl _ s) (bedMod_moves ..) rfl

theorem lockMod_moves (a0 a1 a2 s) : Moves [.svc] s (lockMod a0 a1 a2 s) := by
  unfold lockMod
  exact Moves.step (Moves.refl _ s) (clustMod_moves ..) rfl

theorem grantLock_moves (a0 a1 s) : Moves [.svc] s (grantLock a0 a1 s) := by
  unfold grantLock
  split
  ·
    exact Moves.step (Moves.refl _ s) (lockMod_moves ..) rfl
  ·
    extract_lets -merge -useContext -underBinder y0
    have hy0 : Moves [.svc] s y0 := by
      unfold y0
      exact Moves.step (Moves.refl _ s) (lockMod_moves ..) rfl
    clear_value y0
    split
    ·
      exact Moves.step hy0 (retire_moves ..) rfl
    ·
      exact hy0

theorem forceLock_moves (a0 a1 s) : Moves [.svc] s (forceLock a0 a1 s) := by
  unfold forceLock
  refine Moves.ite ?_ ?_
  ·
    exact Moves.step (Moves.refl _ s) (grantLock_moves ..) rfl
  ·
    exact (Moves.refl _ s)

theorem haltBed_moves (a0 s) : Moves [.waiting, .out, .freeIx, .regs, .log, .cmd, .cfg, .tbl, .host, .sto, .svc, .mbx] s (haltBed a0 s) := by
  unfold haltBed
  extract_lets -merge -useContext -underBinder y0 y1 y2 y3
  have hy0 : Moves [.waiting, .out, .freeIx, .regs, .log, .cmd, .cfg, .tbl, .host, .sto, .svc, .mbx] s y0 := by
    unfold y0
    refine Moves.foldl ?_ (fun t4 x5 ht4 => ?_)
    ·
      exact (Moves.refl _ s)
    ·
      exact Moves.step ht4 (clustMod_moves ..) rfl
  clear_value y0
  have hy1 : Moves [.waiting, .out, .freeIx, .regs, .log, .cmd, .cfg, .tbl, .host, .sto, .svc, .mbx] s y1 := by
    unfold y1
    refine Moves.foldl ?_ (fun t6 x7 ht6 => ?_)
    ·
      exact hy0
    ·
      exact Moves.step ht6 (chDisable_moves ..) rfl
  clear_value y1
  have hy2 : Moves [.waiting, .out, .freeIx, .regs, .log, .cmd, .cfg, .tbl, .host, .sto, .svc, .mbx] s y2 := by
    unfold y2
    exact Moves.step hy1 (orphanCmds_moves ..) rfl
  clear_value y2
  have hy3 : Moves [.waiting, .out, .freeIx, .regs, .log, .cmd, .cfg, .tbl, .host, .sto, .svc, .mbx] s y3 := by
    unfold y3
    refine Moves.foldl ?_ (fun t8 x9 ht8 => ?_)
    ·
      exact hy2
    ·
      refine Moves.step ?_ (stageOwnerLost_moves ..) rfl
      exact Moves.step ht8 (queueLost_moves ..) rfl
  clear_value y3
  exact Moves.step hy3 (mbxResetEnds_moves ..) rfl

theorem launchBed_moves (a0 a1 a2 a3 s) : Moves [.regs, .log, .svc, .mbx, .mem] s (launchBed a0 a1 a2 a3 s) := by
  unfold launchBed
  extract_lets -merge -useContext -underBinder y0 y1 y2 y3 y4
  clear_value y0
  have hy1 : Moves [.regs, .log, .svc, .mbx, .mem] s y1 := by
    unfold y1
    refine Moves.ite ?_ ?_
    ·
      exact Moves.step (m := [.svc]) (Moves.refl _ s) (Moves.leaf (by intro x hx; cases x <;> first | rfl | exact absurd (by decide) hx) rfl rfl rfl rfl) rfl
    ·
      exact (Moves.refl _ s)
  clear_value y1
  clear_value y2
  have hy3 : Moves [.regs, .log, .svc, .mbx, .mem] s y3 := by
    unfold y3
    refine Moves.foldl ?_ (fun t5 x6 ht5 => ?_)
    ·
      exact hy1
    ·
      refine Moves.step ?_ (clustMod_moves ..) rfl
      exact Moves.step ht5 (memClear_moves ..) rfl
  clear_value y3
  have hy4 : Moves [.regs, .log, .svc, .mbx, .mem] s y4 := by
    unfold y4
    refine Moves.ite ?_ ?_
    ·
      exact hy3
    ·
      refine Moves.foldl ?_ (fun t7 x8 ht7 => ?_)
      ·
        exact hy3
      ·
        split
        ·
          exact Moves.step ht7 (memClear_moves ..) rfl
  clear_value y4
  split
  ·
    extract_lets -merge -useContext -underBinder y9 y10
    have hy9 : Moves [.regs, .log, .svc, .mbx, .mem] s y9 := by
      unfold y9
      exact Moves.step hy4 (memWrite_moves ..) rfl
    clear_value y9
    have hy10 : Moves [.regs, .log, .svc, .mbx, .mem] s y10 := by
      unfold y10
      refine Moves.foldl ?_ (fun t11 x12 ht11 => ?_)
      ·
        exact hy9
      ·
        refine Moves.step ?_ (threadMod_moves ..) rfl
        exact Moves.step ht11 (clustMod_moves ..) rfl
    clear_value y10
    refine Moves.step ?_ (setBed_moves ..) rfl
    refine Moves.step ?_ (bedMod_moves ..) rfl
    exact Moves.step hy10 (mbxRelease_moves ..) rfl

theorem startBed_moves (a0 a1 a2 s) : MovesAll hasOpt [.regs, .log, .svc, .mbx, .mem] s (startBed a0 a1 a2 s) := by
  unfold startBed
  split
  ·
    refine MovesAll.ite ?_ ?_
    ·
      refine hasOpt_some ?_
      exact Moves.step (Moves.refl _ s) (launchBed_moves ..) rfl
    ·
      exact hasOpt_none
  ·
    exact hasOpt_none

theorem finishStart_moves (a0 a1 s) : Moves [.out, .regs, .log, .cmd, .host, .svc] s (finishStart a0 a1 s) := by
  unfold finishStart
  refine Moves.step ?_ (finishKey_moves ..) rfl
  exact Moves.step (Moves.refl _ s) (finishKey_moves ..) rfl

theorem bedReady_moves (a0 s) : Moves [.out, .regs, .log, .cmd, .host, .svc] s (bedReady a0 s) := by
  unfold bedReady
  refine Moves.ite ?_ ?_
  ·
    refine Moves.step ?_ (finishStart_moves ..) rfl
    refine Moves.step ?_ (dirChanged_moves ..) rfl
    exact Moves.step (Moves.refl _ s) (setBed_moves ..) rfl
  ·
    exact (Moves.refl _ s)

theorem failBed_moves (a0 a1 s) : Moves [.regs, .log, .svc] s (failBed a0 a1 s) := by
  unfold failBed
  extract_lets -merge -useContext -underBinder y0
  have hy0 : Moves [.regs, .log, .svc] s y0 := by
    unfold y0
    refine Moves.step ?_ (setBed_moves ..) rfl
    exact Moves.step (Moves.refl _ s) (bedMod_moves ..) rfl
  clear_value y0
  exact Moves.step hy0 (raise_moves ..) rfl

theorem bedStopped_moves (a0 s) : Moves [.waiting, .out, .freeIx, .regs, .log, .cmd, .cfg, .tbl, .host, .sto, .svc, .mbx, .mem] s (bedStopped a0 s) := by
  unfold bedStopped
  extract_lets -merge -useContext -underBinder y0 y1
  clear_value y0
  have hy1 : Moves [.waiting, .out, .freeIx, .regs, .log, .cmd, .cfg, .tbl, .host, .sto, .svc, .mbx, .mem] s y1 := by
    unfold y1
    refine Moves.step ?_ (dirChanged_moves ..) rfl
    exact Moves.step (Moves.refl _ s) (haltBed_moves ..) rfl
  clear_value y1
  split
  ·
    refine Moves.step ?_ (finishKey_moves ..) rfl
    exact Moves.step hy1 (setBed_moves ..) rfl
  ·
    exact Moves.step hy1 (setBed_moves ..) rfl
  ·
    extract_lets -merge -useContext -underBinder y2
    have hy2 : Moves [.waiting, .out, .freeIx, .regs, .log, .cmd, .cfg, .tbl, .host, .sto, .svc, .mbx, .mem] s y2 := by
      unfold y2
      exact Moves.step hy1 (setBed_moves ..) rfl
    clear_value y2
    split
    ·
      rename_i v3 e4
      have hv3 : Moves [.waiting, .out, .freeIx, .regs, .log, .cmd, .cfg, .tbl, .host, .sto, .svc, .mbx, .mem] s v3 := by
        refine MovesAll.of_eq (has := hasOpt) e4 rfl ?_
        exact MovesAll.step hy2 (startBed_moves _ _ _ _) rfl
      exact hv3
    ·
      exact Moves.step hy2 (finishKey_moves ..) rfl
  ·
    exact Moves.step hy1 (failBed_moves ..) rfl
  ·
    extract_lets -merge -useContext -underBinder y5
    have hy5 : Moves [.waiting, .out, .freeIx, .regs, .log, .cmd, .cfg, .tbl, .host, .sto, .svc, .mbx, .mem] s y5 := by
      unfold y5
      exact Moves.step hy1 (bedMod_moves ..) rfl
    clear_value y5
    split
    ·
      rename_i v6 e7
      have hv6 : Moves [.waiting, .out, .freeIx, .regs, .log, .cmd, .cfg, .tbl, .host, .sto, .svc, .mbx, .mem] s v6 := by
        refine MovesAll.of_eq (has := hasOpt) e7 rfl ?_
        exact MovesAll.step hy5 (startBed_moves _ _ _ _) rfl
      exact hv6
    ·
      exact Moves.step hy5 (failBed_moves ..) rfl

theorem bedQuiet_moves (a0 s) : Moves [.waiting, .out, .freeIx, .regs, .log, .cmd, .cfg, .tbl, .host, .sto, .svc, .mbx, .mem] s (bedQuiet a0 s) := by
  unfold bedQuiet
  refine Moves.ite ?_ ?_
  ·
    exact Moves.step (Moves.refl _ s) (bedStopped_moves ..) rfl
  ·
    exact (Moves.refl _ s)

theorem resumeBeds_moves (s) : Moves [.waiting, .out, .freeIx, .regs, .log, .cmd, .cfg, .tbl, .host, .sto, .svc, .mbx, .mem] s (resumeBeds s) := by
  unfold resumeBeds
  refine Moves.foldl ?_ (fun t0 x1 ht0 => ?_)
  ·
    exact (Moves.refl _ s)
  ·
    refine Moves.step ?_ (bedQuiet_moves ..) rfl
    exact Moves.step ht0 (bedReady_moves ..) rfl

theorem stopBed_moves (a0 a1 a2 s) : Moves [.waiting, .out, .freeIx, .regs, .log, .cmd, .cfg, .tbl, .host, .sto, .svc, .mbx, .mem] s (stopBed a0 a1 a2 s) := by
  unfold stopBed
  extract_lets -merge -useContext -underBinder y0 y1
  have hy0 : Moves [.waiting, .out, .freeIx, .regs, .log, .cmd, .cfg, .tbl, .host, .sto, .svc, .mbx, .mem] s y0 := by
    unfold y0
    refine Moves.foldl ?_ (fun t2 x3 ht2 => ?_)
    ·
      exact (Moves.refl _ s)
    ·
      exact Moves.step ht2 (notice_moves ..) rfl
  clear_value y0
  have hy1 : Moves [.waiting, .out, .freeIx, .regs, .log, .cmd, .cfg, .tbl, .host, .sto, .svc, .mbx, .mem] s y1 := by
    unfold y1
    refine Moves.step ?_ (setBed_moves ..) rfl
    exact Moves.step hy0 (bedMod_moves ..) rfl
  clear_value y1
  refine Moves.ite ?_ ?_
  ·
    exact Moves.step hy1 (bedStopped_moves ..) rfl
  ·
    exact Moves.step hy1 (bedQuiet_moves ..) rfl

theorem deviceStop_moves (a0 a1 s) : Moves [.waiting, .out, .freeIx, .regs, .log, .cmd, .cfg, .tbl, .host, .sto, .svc, .mbx, .mem] s (deviceStop a0 a1 s) := by
  unfold deviceStop
  extract_lets -merge -useContext -underBinder y0 y1 y2
  clear_value y0
  clear_value y1
  have hy2 : Moves [.waiting, .out, .freeIx, .regs, .log, .cmd, .cfg, .tbl, .host, .sto, .svc, .mbx, .mem] s y2 := by
    unfold y2
    exact Moves.step (Moves.refl _ s) (finishStart_moves ..) rfl
  clear_value y2
  refine Moves.ite ?_ ?_
  ·
    refine Moves.step ?_ (stopBed_moves ..) rfl
    exact Moves.step hy2 (bedMod_moves ..) rfl
  ·
    exact (Moves.refl _ s)

theorem threadFaults_moves (a0 a1 a2 a3 a4 s) : Moves [.waiting, .out, .freeIx, .regs, .log, .cmd, .cfg, .tbl, .host, .sto, .svc, .mbx, .mem] s (threadFaults a0 a1 a2 a3 a4 s) := by
  unfold threadFaults
  extract_lets -merge -useContext -underBinder y0
  have hy0 : Moves [.waiting, .out, .freeIx, .regs, .log, .cmd, .cfg, .tbl, .host, .sto, .svc, .mbx, .mem] s y0 := by
    unfold y0
    exact Moves.step (Moves.refl _ s) (threadFault_moves ..) rfl
  clear_value y0
  refine Moves.ite ?_ ?_
  ·
    split
    ·
      exact Moves.step hy0 (deviceStop_moves ..) rfl
    ·
      exact hy0
  ·
    exact hy0

theorem stopLostBeds_moves (s) : Moves [.waiting, .out, .freeIx, .regs, .log, .cmd, .cfg, .tbl, .host, .sto, .svc, .mbx, .mem] s (stopLostBeds s) := by
  unfold stopLostBeds
  refine Moves.foldl ?_ (fun t0 x1 ht0 => ?_)
  ·
    exact (Moves.refl _ s)
  ·
    refine Moves.ite ?_ ?_
    ·
      exact Moves.step ht0 (deviceStop_moves ..) rfl
    ·
      exact ht0

theorem stopWindowBeds_moves (s) : Moves [.waiting, .out, .freeIx, .regs, .log, .cmd, .cfg, .tbl, .host, .sto, .svc, .mbx, .mem] s (stopWindowBeds s) := by
  unfold stopWindowBeds
  refine Moves.foldl ?_ (fun t0 x1 ht0 => ?_)
  ·
    exact (Moves.refl _ s)
  ·
    refine Moves.ite ?_ ?_
    ·
      exact Moves.step ht0 (deviceStop_moves ..) rfl
    ·
      exact ht0

theorem chanDisable_moves (a0 a1 a2 s) : Moves [.waiting, .out, .freeIx, .regs, .log, .cmd, .cfg, .tbl, .host, .sto, .svc, .mbx, .mem] s (chanDisable a0 a1 a2 s) := by
  unfold chanDisable
  extract_lets -merge -useContext -underBinder y0 y1 y2
  clear_value y0
  have hy1 : Moves [.waiting, .out, .freeIx, .regs, .log, .cmd, .cfg, .tbl, .host, .sto, .svc, .mbx, .mem] s y1 := by
    unfold y1
    exact Moves.step (Moves.refl _ s) (chanMod_moves ..) rfl
  clear_value y1
  have hy2 : Moves [.waiting, .out, .freeIx, .regs, .log, .cmd, .cfg, .tbl, .host, .sto, .svc, .mbx, .mem] s y2 := by
    unfold y2
    refine Moves.foldl ?_ (fun t3 x4 ht3 => ?_)
    ·
      exact hy1
    ·
      exact Moves.step ht3 (threadFaults_moves ..) rfl
  clear_value y2
  refine Moves.foldl ?_ (fun t5 x6 ht5 => ?_)
  ·
    exact hy2
  ·
    exact Moves.step ht5 (threadFaults_moves ..) rfl

theorem chanCfgWrite_moves (a0 a1 a2 s) : Moves [.waiting, .out, .freeIx, .regs, .log, .cmd, .cfg, .tbl, .host, .sto, .svc, .mbx, .mem] s (chanCfgWrite a0 a1 a2 s) := by
  unfold chanCfgWrite
  extract_lets -merge -useContext -underBinder y0 y1
  clear_value y0
  clear_value y1
  refine Moves.ite ?_ ?_
  ·
    exact (Moves.refl _ s)
  ·
    refine Moves.ite ?_ ?_
    ·
      refine Moves.ite ?_ ?_
      ·
        exact (Moves.refl _ s)
      ·
        exact Moves.step (Moves.refl _ s) (chanDisable_moves ..) rfl
    ·
      refine Moves.ite ?_ ?_
      ·
        exact Moves.step (Moves.refl _ s) (chanMod_moves ..) rfl
      ·
        refine Moves.ite ?_ ?_
        ·
          exact Moves.step (Moves.refl _ s) (chanMod_moves ..) rfl
        ·
          exact Moves.step (Moves.refl _ s) (chanMod_moves ..) rfl

theorem threadRun_moves (a0 a1 s) : Moves [.svc] s (threadRun a0 a1 s) := by
  unfold threadRun
  extract_lets -merge -useContext -underBinder y0
  clear_value y0
  refine Moves.ite ?_ ?_
  ·
    refine Moves.step ?_ (clustMod_moves ..) rfl
    exact Moves.step (Moves.refl _ s) (threadMod_moves ..) rfl
  ·
    exact (Moves.refl _ s)

theorem readySet_moves (a0 s) : Moves [.out, .regs, .log, .cmd, .host, .svc] s (readySet a0 s) := by
  unfold readySet
  extract_lets -merge -useContext -underBinder y0
  have hy0 : Moves [.out, .regs, .log, .cmd, .host, .svc] s y0 := by
    unfold y0
    exact Moves.step (Moves.refl _ s) (clustMod_moves ..) rfl
  clear_value y0
  split
  ·
    exact Moves.step hy0 (bedReady_moves ..) rfl
  ·
    exact hy0

theorem readyClear_moves (a0 s) : Moves [.waiting, .out, .freeIx, .regs, .log, .cmd, .cfg, .tbl, .host, .sto, .svc, .mbx, .mem] s (readyClear a0 s) := by
  unfold readyClear
  extract_lets -merge -useContext -underBinder y0
  have hy0 : Moves [.waiting, .out, .freeIx, .regs, .log, .cmd, .cfg, .tbl, .host, .sto, .svc, .mbx, .mem] s y0 := by
    unfold y0
    exact Moves.step (Moves.refl _ s) (clustMod_moves ..) rfl
  clear_value y0
  split
  ·
    refine Moves.ite ?_ ?_
    ·
      exact Moves.step hy0 (bedStopped_moves ..) rfl
    ·
      exact hy0
  ·
    exact hy0

theorem svcRegReadEffect_moves (a0 a1 a2 s) : Moves [.svc] s (svcRegReadEffect a0 a1 a2 s) := by
  unfold svcRegReadEffect
  refine Moves.ite ?_ ?_
  ·
    exact Moves.step (Moves.refl _ s) (chanMod_moves ..) rfl
  ·
    exact (Moves.refl _ s)

theorem svcRegWrite_moves (a0 a1 a2 a3 s) : Moves [.waiting, .out, .freeIx, .regs, .log, .cmd, .cfg, .tbl, .host, .sto, .svc, .mbx, .mem] s (svcRegWrite a0 a1 a2 a3 s) := by
  unfold svcRegWrite
  extract_lets -merge -useContext -underBinder y0 y1 y2 y3 y4 y5
  clear_value y0
  clear_value y1
  clear_value y2
  clear_value y3
  clear_value y4
  clear_value y5
  refine Moves.ite ?_ ?_
  ·
    split
    ·
      exact Moves.step (Moves.refl _ s) (chanCfgWrite_moves ..) rfl
    ·
      refine Moves.ite ?_ ?_
      ·
        exact Moves.step (Moves.refl _ s) (chanMod_moves ..) rfl
      ·
        exact (Moves.refl _ s)
    ·
      refine Moves.ite ?_ ?_
      ·
        exact Moves.step (Moves.refl _ s) (chanMod_moves ..) rfl
      ·
        exact (Moves.refl _ s)
    ·
      refine Moves.ite ?_ ?_
      ·
        exact Moves.step (Moves.refl _ s) (chanMod_moves ..) rfl
      ·
        exact (Moves.refl _ s)
    ·
      refine Moves.ite ?_ ?_
      ·
        exact Moves.step (Moves.refl _ s) (chanMod_moves ..) rfl
      ·
        exact (Moves.refl _ s)
    ·
      exact (Moves.refl _ s)
  ·
    refine Moves.ite ?_ ?_
    ·
      exact Moves.step (Moves.refl _ s) (clustMod_moves ..) rfl
    ·
      refine Moves.ite ?_ ?_
      ·
        refine Moves.ite ?_ ?_
        ·
          exact Moves.step (Moves.refl _ s) (readySet_moves ..) rfl
        ·
          exact Moves.step (Moves.refl _ s) (readyClear_moves ..) rfl
      ·
        refine Moves.ite ?_ ?_
        ·
          exact Moves.step (Moves.refl _ s) (cmdqCfg_moves ..) rfl
        ·
          refine Moves.ite ?_ ?_
          ·
            exact Moves.step (Moves.refl _ s) (cmdqDb_moves ..) rfl
          ·
            refine Moves.ite ?_ ?_
            ·
              refine Moves.ite ?_ ?_
              ·
                refine Moves.ite ?_ ?_
                ·
                  exact Moves.step (Moves.refl _ s) (threadRun_moves ..) rfl
                ·
                  exact (Moves.refl _ s)
              ·
                refine Moves.ite ?_ ?_
                ·
                  exact Moves.step (Moves.refl _ s) (threadMod_moves ..) rfl
                ·
                  exact (Moves.refl _ s)
            ·
              refine Moves.ite ?_ ?_
              ·
                refine Moves.ite ?_ ?_
                ·
                  exact Moves.step (Moves.refl _ s) (forceLock_moves ..) rfl
                ·
                  exact (Moves.refl _ s)
              ·
                exact (Moves.refl _ s)

theorem execSvcLockRelease_moves (a0 a1 s) : MovesAll hasNext [.svc] s (execSvcLockRelease a0 a1 s) := by
  unfold execSvcLockRelease
  refine hasNext_onElem ?_
  exact Moves.step (Moves.refl _ s) (forceLock_moves ..) rfl

theorem execSvcThreadRun_moves (a0 a1 s) : MovesAll hasNext [.svc] s (execSvcThreadRun a0 a1 s) := by
  unfold execSvcThreadRun
  refine hasNext_onElem ?_
  exact Moves.step (Moves.refl _ s) (threadRun_moves ..) rfl

theorem execSvcChanEnable_moves (a0 a1 a2 s) : MovesAll hasNext [.waiting, .out, .freeIx, .regs, .log, .cmd, .cfg, .tbl, .host, .sto, .svc, .mbx, .mem] s (execSvcChanEnable a0 a1 a2 s) := by
  unfold execSvcChanEnable
  refine hasNext_onElem ?_
  exact Moves.step (Moves.refl _ s) (chanCfgWrite_moves ..) rfl

theorem execSvcChanDisable_moves (a0 a1 a2 s) : MovesAll hasNext [.waiting, .out, .freeIx, .regs, .log, .cmd, .cfg, .tbl, .host, .sto, .svc, .mbx, .mem] s (execSvcChanDisable a0 a1 a2 s) := by
  unfold execSvcChanDisable
  refine hasNext_onElem ?_
  exact Moves.step (Moves.refl _ s) (chanCfgWrite_moves ..) rfl

theorem execSvcReadySet_moves (a0 s) : MovesAll hasNext [.out, .regs, .log, .cmd, .host, .svc] s (execSvcReadySet a0 s) := by
  unfold execSvcReadySet
  refine hasNext_onElem ?_
  exact Moves.step (Moves.refl _ s) (readySet_moves ..) rfl

theorem execSvcReadyClear_moves (a0 s) : MovesAll hasNext [.waiting, .out, .freeIx, .regs, .log, .cmd, .cfg, .tbl, .host, .sto, .svc, .mbx, .mem] s (execSvcReadyClear a0 s) := by
  unfold execSvcReadyClear
  refine hasNext_onElem ?_
  exact Moves.step (Moves.refl _ s) (readyClear_moves ..) rfl

theorem execSvcTimerExpiry_moves (a0 a1 s) : MovesAll hasNext [.svc] s (execSvcTimerExpiry a0 a1 s) := by
  unfold execSvcTimerExpiry
  refine hasNext_onElem ?_
  split
  ·
    exact (Moves.refl _ s)
  ·
    extract_lets -merge -useContext -underBinder y0
    have hy0 : Moves [.svc] s y0 := by
      unfold y0
      exact Moves.step (Moves.refl _ s) (clustMod_moves ..) rfl
    clear_value y0
    refine MovesAll.get_fst ?_
    exact MovesAll.step hy0 (extMessage_moves _ _ _ _ _) rfl

theorem execLockLimitExpiry_moves (a0 a1 s) : MovesAll hasNext [.regs, .log, .svc] s (execLockLimitExpiry a0 a1 s) := by
  unfold execLockLimitExpiry
  extract_lets -merge -useContext -underBinder y0
  clear_value y0
  refine hasNext_onElem ?_
  split
  ·
    extract_lets -merge -useContext -underBinder y1 y2
    have hy1 : Moves [.regs, .log, .svc] s y1 := by
      unfold y1
      exact Moves.step (Moves.refl _ s) (lockMod_moves ..) rfl
    clear_value y1
    have hy2 : Moves [.regs, .log, .svc] s y2 := by
      unfold y2
      exact Moves.step hy1 (notice_moves ..) rfl
    clear_value y2
    refine Moves.ite ?_ ?_
    ·
      exact (Moves.refl _ s)
    ·
      exact Moves.step hy2 (raise_moves ..) rfl
  ·
    exact (Moves.refl _ s)

theorem execStallTimeout_moves (a0 s) : MovesAll hasNext [.waiting, .out, .freeIx, .regs, .log, .cmd, .cfg, .tbl, .host, .sto, .svc, .mbx, .mem] s (execStallTimeout a0 s) := by
  unfold execStallTimeout
  extract_lets -merge -useContext -underBinder y0 y1 y2 y3 y4 y5 y6 y7 y8
  clear_value y0
  clear_value y1
  clear_value y2
  clear_value y3
  have hy4 : Moves [.waiting, .out, .freeIx, .regs, .log, .cmd, .cfg, .tbl, .host, .sto, .svc, .mbx, .mem] s y4 := by
    unfold y4
    exact Moves.step (Moves.refl _ s) (clustMod_moves ..) rfl
  clear_value y4
  have hy5 : Moves [.waiting, .out, .freeIx, .regs, .log, .cmd, .cfg, .tbl, .host, .sto, .svc, .mbx, .mem] s y5 := by
    unfold y5
    exact Moves.step hy4 (notice_moves ..) rfl
  clear_value y5
  have hy6 : Moves [.waiting, .out, .freeIx, .regs, .log, .cmd, .cfg, .tbl, .host, .sto, .svc, .mbx, .mem] s y6 := by
    unfold y6
    exact Moves.step hy5 (raise_moves ..) rfl
  clear_value y6
  clear_value y7
  have hy8 : Moves [.waiting, .out, .freeIx, .regs, .log, .cmd, .cfg, .tbl, .host, .sto, .svc, .mbx, .mem] s y8 := by
    unfold y8
    exact Moves.step hy6 (raise_moves ..) rfl
  clear_value y8
  refine hasNext_onElem ?_
  refine Moves.ite ?_ ?_
  ·
    exact (Moves.refl _ s)
  ·
    refine Moves.ite ?_ ?_
    ·
      split
      ·
        exact Moves.step hy8 (deviceStop_moves ..) rfl
      ·
        exact hy8
    ·
      exact hy6

theorem execStartTimeout_moves (a0 s) : MovesAll hasNext [.waiting, .out, .freeIx, .regs, .log, .cmd, .cfg, .tbl, .host, .sto, .svc, .mbx, .mem] s (execStartTimeout a0 s) := by
  unfold execStartTimeout
  refine hasNext_onElem ?_
  refine Moves.ite ?_ ?_
  ·
    exact Moves.step (Moves.refl _ s) (deviceStop_moves ..) rfl
  ·
    exact (Moves.refl _ s)

theorem execStopGraceExpiry_moves (a0 s) : MovesAll hasNext [.waiting, .out, .freeIx, .regs, .log, .cmd, .cfg, .tbl, .host, .sto, .svc, .mbx, .mem] s (execStopGraceExpiry a0 s) := by
  unfold execStopGraceExpiry
  refine hasNext_onElem ?_
  refine Moves.ite ?_ ?_
  ·
    exact Moves.step (Moves.refl _ s) (bedStopped_moves ..) rfl
  ·
    exact (Moves.refl _ s)

theorem opSvcImageLoad_moves (c s) : DoneMoves [.svc, .mem] s ((opSvcImageLoad).body c s) := by
  unfold opSvcImageLoad
  refine op_mk ?_
  extract_lets -merge -useContext -underBinder y0 y1
  clear_value y0
  clear_value y1
  refine DoneMoves.ite ?_ ?_
  ·
    exact hasDone_refuse
  ·
    refine DoneMoves.ite ?_ ?_
    ·
      exact hasDone_refuse
    ·
      split
      ·
        exact hasDone_refuse
      ·
        extract_lets -merge -useContext -underBinder y2 y3
        clear_value y2
        clear_value y3
        refine hasDone_accept ?_ (fun u => Moves.refl _ u)
        refine Moves.step ?_ (countBulk_moves ..) rfl
        exact Moves.step (m := [.svc]) (Moves.refl _ s) (Moves.leaf (by intro x hx; cases x <;> first | rfl | exact absurd (by decide) hx) rfl rfl rfl rfl) rfl

theorem execSvcImageLoad_moves (a0 s) : MovesAll hasNext [.waiting, .out, .regs, .log, .cmd, .prot, .host, .svc, .mem] s (execSvcImageLoad a0 s) := by
  unfold execSvcImageLoad
  refine hasNext_next ?_
  exact Moves.step (Moves.refl _ s) (runCmd_moves _ _ _ (opSvcImageLoad_moves ..)) rfl

theorem execSvcImageVerified_moves (a0 a1 a2 a3 s) : MovesAll hasNext [.out, .regs, .log, .cmd, .host, .svc] s (execSvcImageVerified a0 a1 a2 a3 s) := by
  unfold execSvcImageVerified
  refine hasNext_onElem ?_
  split
  ·
    exact (Moves.refl _ s)
  ·
    extract_lets -merge -useContext -underBinder y0 y1 y2 y3 y4 y5
    clear_value y0
    clear_value y1
    have hy2 : Moves [.out, .regs, .log, .cmd, .host, .svc] s y2 := by
      unfold y2
      exact Moves.step (m := [.svc]) (Moves.refl _ s) (Moves.leaf (by intro x hx; cases x <;> first | rfl | exact absurd (by decide) hx) rfl rfl rfl rfl) rfl
    clear_value y2
    clear_value y3
    clear_value y5
    unfold y4
    refine Moves.ite ?_ ?_
    ·
      exact Moves.step hy2 (finishKey_moves ..) rfl
    ·
      refine Moves.ite ?_ ?_
      ·
        refine Moves.step ?_ (finishKey_moves ..) rfl
        exact Moves.step hy2 (raise_moves ..) rfl
      ·
        refine Moves.ite ?_ ?_
        ·
          refine Moves.step ?_ (finishKey_moves ..) rfl
          exact Moves.step hy2 (raise_moves ..) rfl
        ·
          refine Moves.ite ?_ ?_
          ·
            refine Moves.step ?_ (finishKey_moves ..) rfl
            exact Moves.step hy2 (raise_moves ..) rfl
          ·
            refine Moves.ite ?_ ?_
            ·
              refine Moves.step ?_ (finishKey_moves ..) rfl
              exact Moves.step hy2 (raise_moves ..) rfl
            ·
              refine Moves.step ?_ (finishKey_moves ..) rfl
              exact Moves.step (m := [.svc]) hy2 (Moves.leaf (by intro x hx; cases x <;> first | rfl | exact absurd (by decide) hx) rfl rfl rfl rfl) rfl

theorem opSvcStart_moves (c s) : DoneMoves [.out, .regs, .log, .cmd, .host, .svc, .mbx, .mem] s ((opSvcStart).body c s) := by
  unfold opSvcStart
  refine op_mk ?_
  extract_lets -merge -useContext -underBinder y0 y1
  clear_value y0
  clear_value y1
  refine DoneMoves.ite ?_ ?_
  ·
    exact hasDone_refuse
  ·
    refine DoneMoves.ite ?_ ?_
    ·
      exact hasDone_refuse
    ·
      refine DoneMoves.ite ?_ ?_
      ·
        exact hasDone_refuse
      ·
        refine DoneMoves.ite ?_ ?_
        ·
          exact hasDone_refuse
        ·
          refine hasDone_accept ?_ ?_
          ·
            exact (Moves.refl _ s)
          ·
            intro u2
            split
            ·
              rename_i v3 e4
              have hv3 : Moves [.out, .regs, .log, .cmd, .host, .svc, .mbx, .mem] u2 v3 := by
                refine MovesAll.of_eq (has := hasOpt) e4 rfl ?_
                exact MovesAll.step (Moves.refl _ u2) (startBed_moves _ _ _ _) rfl
              exact hv3
            ·
              exact Moves.step (Moves.refl _ u2) (finishKey_moves ..) rfl

theorem execSvcStart_moves (a0 s) : MovesAll hasNext [.waiting, .out, .regs, .log, .cmd, .prot, .host, .svc, .mbx, .mem] s (execSvcStart a0 s) := by
  unfold execSvcStart
  refine hasNext_next ?_
  exact Moves.step (Moves.refl _ s) (runCmd_moves _ _ _ (opSvcStart_moves ..)) rfl

theorem opSvcStop_moves (c s) : DoneMoves [.waiting, .out, .freeIx, .regs, .log, .cmd, .cfg, .tbl, .host, .sto, .svc, .mbx, .mem] s ((opSvcStop).body c s) := by
  unfold opSvcStop
  refine op_mk ?_
  extract_lets -merge -useContext -underBinder y0
  clear_value y0
  refine DoneMoves.ite ?_ ?_
  ·
    exact hasDone_refuse
  ·
    split
    ·
      exact hasDone_refuse
    ·
      refine hasDone_accept ?_ ?_
      ·
        exact (Moves.refl _ s)
      ·
        intro u1
        refine Moves.step ?_ (stopBed_moves ..) rfl
        exact Moves.step (Moves.refl _ u1) (finishStart_moves ..) rfl
    ·
      refine hasDone_accept ?_ ?_
      ·
        exact (Moves.refl _ s)
      ·
        intro u2
        exact Moves.step (Moves.refl _ u2) (stopBed_moves ..) rfl
    ·
      refine hasDone_reply ?_
      exact (Moves.refl _ s)

theorem execSvcStop_moves (a0 s) : MovesAll hasNext [.waiting, .out, .freeIx, .regs, .log, .cmd, .cfg, .prot, .tbl, .host, .sto, .svc, .mbx, .mem] s (execSvcStop a0 s) := by
  unfold execSvcStop
  refine hasNext_next ?_
  exact Moves.step (Moves.refl _ s) (runCmd_moves _ _ _ (opSvcStop_moves ..)) rfl

theorem opSvcReplace_moves (c s) : DoneMoves [.waiting, .out, .freeIx, .regs, .log, .cmd, .cfg, .tbl, .host, .sto, .svc, .mbx, .mem] s ((opSvcReplace).body c s) := by
  unfold opSvcReplace
  refine op_mk ?_
  extract_lets -merge -useContext -underBinder y0 y1
  clear_value y0
  clear_value y1
  refine DoneMoves.ite ?_ ?_
  ·
    exact hasDone_refuse
  ·
    split
    ·
      exact hasDone_refuse
    ·
      extract_lets -merge -useContext -underBinder y2
      clear_value y2
      refine DoneMoves.ite ?_ ?_
      ·
        exact hasDone_refuse
      ·
        refine DoneMoves.ite ?_ ?_
        ·
          exact hasDone_refuse
        ·
          refine DoneMoves.ite ?_ ?_
          ·
            refine hasDone_accept ?_ ?_
            ·
              exact (Moves.refl _ s)
            ·
              intro u3
              exact Moves.step (Moves.refl _ u3) (stopBed_moves ..) rfl
          ·
            refine hasDone_accept ?_ ?_
            ·
              exact (Moves.refl _ s)
            ·
              intro u4
              split
              ·
                rename_i v5 e6
                have hv5 : Moves [.waiting, .out, .freeIx, .regs, .log, .cmd, .cfg, .tbl, .host, .sto, .svc, .mbx, .mem] u4 v5 := by
                  refine MovesAll.of_eq (has := hasOpt) e6 rfl ?_
                  exact MovesAll.step (Moves.refl _ u4) (startBed_moves _ _ _ _) rfl
                exact hv5
              ·
                exact Moves.step (Moves.refl _ u4) (finishKey_moves ..) rfl

theorem execSvcReplace_moves (a0 s) : MovesAll hasNext [.waiting, .out, .freeIx, .regs, .log, .cmd, .cfg, .prot, .tbl, .host, .sto, .svc, .mbx, .mem] s (execSvcReplace a0 s) := by
  unfold execSvcReplace
  refine hasNext_next ?_
  exact Moves.step (Moves.refl _ s) (runCmd_moves _ _ _ (opSvcReplace_moves ..)) rfl

theorem opSvcBedQuery_moves (c s) : DoneMoves [] s ((opSvcBedQuery).body c s) := by
  unfold opSvcBedQuery
  refine op_mk ?_
  extract_lets -merge -useContext -underBinder y0 y1 y2
  clear_value y0
  clear_value y1
  clear_value y2
  refine DoneMoves.ite ?_ ?_
  ·
    exact hasDone_refuse
  ·
    refine hasDone_reply ?_
    exact (Moves.refl _ s)

theorem execSvcBedQuery_moves (a0 s) : MovesAll hasNext [.waiting, .out, .regs, .log, .cmd, .prot, .host, .svc] s (execSvcBedQuery a0 s) := by
  unfold execSvcBedQuery
  refine hasNext_next ?_
  exact Moves.step (Moves.refl _ s) (runCmd_moves _ _ _ (opSvcBedQuery_moves ..)) rfl

theorem opSvcSlotRead_moves (c s) : DoneMoves [] s ((opSvcSlotRead).body c s) := by
  unfold opSvcSlotRead
  refine op_mk ?_
  refine DoneMoves.ite ?_ ?_
  ·
    exact hasDone_refuse
  ·
    split
    ·
      refine hasDone_reply ?_
      exact (Moves.refl _ s)
    ·
      refine hasDone_reply ?_
      exact (Moves.refl _ s)

theorem execSvcSlotRead_moves (a0 s) : MovesAll hasNext [.waiting, .out, .regs, .log, .cmd, .prot, .host, .svc] s (execSvcSlotRead a0 s) := by
  unfold execSvcSlotRead
  refine hasNext_next ?_
  exact Moves.step (Moves.refl _ s) (runCmd_moves _ _ _ (opSvcSlotRead_moves ..)) rfl

end Sys2Proof.Machine
end

