-- ==== Sys2Proof/Laws/Moves3.lean ====
section
/-! SUPPORT. What the operations of Machine/Threads, Debug, HostLinks, Macsec, TwinOps, Mem may change: one lemma `<operation>_moves` per operation. -/

set_option Elab.async false

namespace Sys2Proof.Machine

theorem loadEffect_moves (a0 a1 a2 a3 s) : Moves [.svc, .mem] s (loadEffect a0 a1 a2 a3 s) := by
  unfold loadEffect
  split
  ·
    exact Moves.step (Moves.refl _ s) (svcRegReadEffect_moves ..) rfl
  ·
    exact Moves.step (Moves.refl _ s) (countReads_moves ..) rfl

theorem storeValue_moves (a0 a1 a2 a3 a4 s) : Moves [.waiting, .out, .freeIx, .regs, .log, .cmd, .cfg, .tbl, .host, .sto, .svc, .mbx, .mem] s (storeValue a0 a1 a2 a3 a4 s) := by
  unfold storeValue
  split
  ·
    exact Moves.step (Moves.refl _ s) (svcRegWrite_moves ..) rfl
  ·
    exact Moves.step (Moves.refl _ s) (memWrite_moves ..) rfl

theorem illegal_moves (a0 a1 s) : Moves [.waiting, .out, .freeIx, .regs, .log, .cmd, .cfg, .tbl, .host, .sto, .svc, .mbx, .mem] s (illegal a0 a1 s) := by
  unfold illegal
  exact Moves.step (Moves.refl _ s) (threadFaults_moves ..) rfl

theorem result_moves (a0 a1 a2 a3 a4 s) : Moves [.svc] s (result a0 a1 a2 a3 a4 s) := by
  unfold result
  exact Moves.step (Moves.refl _ s) (retire_moves ..) rfl

theorem jumpTo_moves (a0 a1 a2 a3 a4 s) : Moves [.svc] s (jumpTo a0 a1 a2 a3 a4 s) := by
  unfold jumpTo
  refine Moves.step ?_ (threadMod_moves ..) rfl
  exact Moves.step (Moves.refl _ s) (retire_moves ..) rfl

theorem setResv_moves (a0 a1 a2 s) : Moves [.svc] s (setResv a0 a1 a2 s) := by
  unfold setResv
  exact Moves.step (Moves.refl _ s) (threadMod_moves ..) rfl

theorem atomic_moves (a0 a1 a2 a3 a4 s) : Moves [.waiting, .out, .freeIx, .regs, .log, .cmd, .cfg, .tbl, .host, .sto, .svc, .mbx, .mem] s (atomic a0 a1 a2 a3 a4 s) := by
  unfold atomic
  extract_lets -merge -useContext -underBinder y0 y1 y2 y3 y4 y5 y6
  clear_value y0
  clear_value y1
  clear_value y2
  clear_value y3
  clear_value y4
  clear_value y5
  clear_value y6
  refine Moves.ite ?_ ?_
  ·
    refine Moves.ite ?_ ?_
    ·
      exact Moves.step (Moves.refl _ s) (illegal_moves ..) rfl
    ·
      split
      ·
        exact Moves.step (Moves.refl _ s) (threadFaults_moves ..) rfl
      ·
        refine Moves.step ?_ (result_moves ..) rfl
        exact Moves.step (Moves.refl _ s) (setResv_moves ..) rfl
  ·
    refine Moves.ite ?_ ?_
    ·
      split
      ·
        exact Moves.step (Moves.refl _ s) (threadFaults_moves ..) rfl
      ·
        refine Moves.ite ?_ ?_
        ·
          refine Moves.step ?_ (storeValue_moves ..) rfl
          refine Moves.step ?_ (result_moves ..) rfl
          exact Moves.step (Moves.refl _ s) (setResv_moves ..) rfl
        ·
          refine Moves.step ?_ (result_moves ..) rfl
          exact Moves.step (Moves.refl _ s) (setResv_moves ..) rfl
    ·
      split
      ·
        exact Moves.step (Moves.refl _ s) (illegal_moves ..) rfl
      ·
        split
        ·
          exact Moves.step (Moves.refl _ s) (threadFaults_moves ..) rfl
        ·
          refine Moves.ite ?_ ?_
          ·
            exact Moves.step (Moves.refl _ s) (threadFaults_moves ..) rfl
          ·
            refine Moves.step ?_ (storeValue_moves ..) rfl
            exact Moves.step (Moves.refl _ s) (result_moves ..) rfl

theorem csrInstr_moves (a0 a1 a2 a3 s) : Moves [.waiting, .out, .freeIx, .regs, .log, .cmd, .cfg, .tbl, .host, .sto, .svc, .mbx, .mem] s (csrInstr a0 a1 a2 a3 s) := by
  unfold csrInstr
  extract_lets -merge -useContext -underBinder y0
  clear_value y0
  split
  ·
    refine Moves.ite ?_ ?_
    ·
      exact Moves.step (Moves.refl _ s) (illegal_moves ..) rfl
    ·
      exact Moves.step (Moves.refl _ s) (result_moves ..) rfl
  ·
    exact Moves.step (Moves.refl _ s) (illegal_moves ..) rfl

theorem haltThread_moves (a0 a1 a2 s) : Moves [.regs, .log, .svc] s (haltThread a0 a1 a2 s) := by
  unfold haltThread
  extract_lets -merge -useContext -underBinder y0 y1 y2 y3 y4 y5
  clear_value y0
  clear_value y1
  clear_value y2
  have hy3 : Moves [.regs, .log, .svc] s y3 := by
    unfold y3
    exact Moves.step (Moves.refl _ s) (withdraw_moves ..) rfl
  clear_value y3
  have hy4 : Moves [.regs, .log, .svc] s y4 := by
    unfold y4
    exact Moves.step hy3 (threadMod_moves ..) rfl
  clear_value y4
  have hy5 : Moves [.regs, .log, .svc] s y5 := by
    unfold y5
    refine Moves.ite ?_ ?_
    ·
      exact hy4
    ·
      exact Moves.step hy4 (notice_moves ..) rfl
  clear_value y5
  exact Moves.step hy5 (raise_moves ..) rfl

theorem misuse_moves (a0 a1 a2 s) : Moves [.waiting, .out, .freeIx, .regs, .log, .cmd, .cfg, .tbl, .host, .sto, .svc, .mbx, .mem] s (misuse a0 a1 a2 s) := by
  unfold misuse
  exact Moves.step (Moves.refl _ s) (threadFaults_moves ..) rfl

theorem blockOn_moves (a0 a1 a2 a3 a4 s) : Moves [.svc] s (blockOn a0 a1 a2 a3 a4 s) := by
  unfold blockOn
  exact Moves.step (Moves.refl _ s) (threadMod_moves ..) rfl

theorem writeLocal_moves (a0 a1 a2 s) : Moves [.waiting, .out, .freeIx, .regs, .log, .cmd, .cfg, .tbl, .host, .sto, .svc, .mbx, .mem] s (writeLocal a0 a1 a2 s) := by
  unfold writeLocal
  extract_lets -merge -useContext -underBinder y0 y1 y2 y3 y4 y5
  clear_value y2
  clear_value y4
  have hy5 : Moves [.waiting, .out, .freeIx, .regs, .log, .cmd, .cfg, .tbl, .host, .sto, .svc, .mbx, .mem] s y5 := by
    unfold y5
    refine Moves.ite ?_ ?_
    ·
      exact (Moves.refl _ s)
    ·
      exact Moves.step (Moves.refl _ s) (chanMod_moves ..) rfl
  clear_value y5
  refine Moves.ite ?_ ?_
  ·
    exact Moves.step (Moves.refl _ s) (misuse_moves ..) rfl
  ·
    refine Moves.ite ?_ ?_
    ·
      exact Moves.step (Moves.refl _ s) (misuse_moves ..) rfl
    ·
      refine Moves.ite ?_ ?_
      ·
        refine Moves.step ?_ (misuse_moves ..) rfl
        exact Moves.step (Moves.refl _ s) (threadMod_moves ..) rfl
      ·
        refine Moves.ite ?_ ?_
        ·
          exact Moves.step (Moves.refl _ s) (misuse_moves ..) rfl
        ·
          refine Moves.ite ?_ ?_
          ·
            exact Moves.step (Moves.refl _ s) (misuse_moves ..) rfl
          ·
            refine Moves.ite ?_ ?_
            ·
              exact Moves.step (Moves.refl _ s) (misuse_moves ..) rfl
            ·
              refine Moves.ite ?_ ?_
              ·
                refine Moves.step ?_ (blockOn_moves ..) rfl
                exact Moves.step (Moves.refl _ s) (chanMod_moves ..) rfl
              ·
                refine Moves.step ?_ (settleAll_moves ..) rfl
                exact Moves.step hy5 (stageWord_moves ..) rfl

theorem writeRemote_moves (a0 a1 a2 a3 s) : Moves [.waiting, .out, .freeIx, .regs, .log, .cmd, .cfg, .tbl, .host, .sto, .svc, .mbx, .mem] s (writeRemote a0 a1 a2 a3 s) := by
  unfold writeRemote
  extract_lets -merge -useContext -underBinder y0 y1 y2 y3 y4
  clear_value y0
  clear_value y1
  clear_value y2
  clear_value y3
  have hy4 : Moves [.waiting, .out, .freeIx, .regs, .log, .cmd, .cfg, .tbl, .host, .sto, .svc, .mbx, .mem] s y4 := by
    unfold y4
    exact Moves.step (Moves.refl _ s) (threadMod_moves ..) rfl
  clear_value y4
  refine Moves.ite ?_ ?_
  ·
    exact Moves.step (Moves.refl _ s) (misuse_moves ..) rfl
  ·
    refine Moves.ite ?_ ?_
    ·
      refine Moves.step ?_ (misuse_moves ..) rfl
      exact Moves.step (Moves.refl _ s) (threadMod_moves ..) rfl
    ·
      refine Moves.ite ?_ ?_
      ·
        exact Moves.step (Moves.refl _ s) (misuse_moves ..) rfl
      ·
        refine Moves.ite ?_ ?_
        ·
          exact Moves.step (Moves.refl _ s) (misuse_moves ..) rfl
        ·
          refine Moves.ite ?_ ?_
          ·
            refine Moves.step ?_ (result_moves ..) rfl
            exact Moves.step (Moves.refl _ s) (threadMod_moves ..) rfl
          ·
            refine Moves.step ?_ (settleAll_moves ..) rfl
            refine Moves.step ?_ (blockOn_moves ..) rfl
            exact Moves.step hy4 (chanMod_moves ..) rfl

theorem chanWrite_moves (a0 a1 a2 a3 a4 a5 s) : Moves [.waiting, .out, .freeIx, .regs, .log, .cmd, .cfg, .tbl, .host, .sto, .svc, .mbx, .mem] s (chanWrite a0 a1 a2 a3 a4 a5 s) := by
  unfold chanWrite
  extract_lets -merge -useContext -underBinder y0
  clear_value y0
  split
  ·
    exact Moves.step (Moves.refl _ s) (misuse_moves ..) rfl
  ·
    refine Moves.ite ?_ ?_
    ·
      exact Moves.step (Moves.refl _ s) (writeLocal_moves ..) rfl
    ·
      exact Moves.step (Moves.refl _ s) (writeRemote_moves ..) rfl

theorem afterTake_moves (a0 a1 s) : Moves [.waiting, .regs, .log, .svc, .mem] s (afterTake a0 a1 s) := by
  unfold afterTake
  extract_lets -merge -useContext -underBinder y0 y1
  have hy0 : Moves [.waiting, .regs, .log, .svc, .mem] s y0 := by
    unfold y0
    exact Moves.step (Moves.refl _ s) (settleAll_moves ..) rfl
  clear_value y0
  have hy1 : Moves [.waiting, .regs, .log, .svc, .mem] s y1 := by
    unfold y1
    refine Moves.ite ?_ ?_
    ·
      exact Moves.step hy0 (pumpNotices_moves ..) rfl
    ·
      exact hy0
  clear_value y1
  exact Moves.step hy1 (bedFetch_moves ..) rfl

theorem chanRead_moves (a0 a1 a2 a3 s) : Moves [.waiting, .out, .freeIx, .regs, .log, .cmd, .cfg, .tbl, .host, .sto, .svc, .mbx, .mem] s (chanRead a0 a1 a2 a3 s) := by
  unfold chanRead
  extract_lets -merge -useContext -underBinder y0 y1
  clear_value y0
  clear_value y1
  split
  ·
    exact Moves.step (Moves.refl _ s) (misuse_moves ..) rfl
  ·
    split
    ·
      refine Moves.step ?_ (afterTake_moves ..) rfl
      refine Moves.step ?_ (result_moves ..) rfl
      exact Moves.step (Moves.refl _ s) (takeHead_moves ..) rfl
    ·
      refine Moves.ite ?_ ?_
      ·
        exact Moves.step (Moves.refl _ s) (misuse_moves ..) rfl
      ·
        refine Moves.step ?_ (blockOn_moves ..) rfl
        exact Moves.step (Moves.refl _ s) (chanMod_moves ..) rfl

theorem chanTry_moves (a0 a1 a2 a3 s) : Moves [.waiting, .out, .freeIx, .regs, .log, .cmd, .cfg, .tbl, .host, .sto, .svc, .mbx, .mem] s (chanTry a0 a1 a2 a3 s) := by
  unfold chanTry
  extract_lets -merge -useContext -underBinder y0 y1
  clear_value y0
  clear_value y1
  split
  ·
    exact Moves.step (Moves.refl _ s) (misuse_moves ..) rfl
  ·
    split
    ·
      refine Moves.ite ?_ ?_
      ·
        refine Moves.step ?_ (afterTake_moves ..) rfl
        refine Moves.step ?_ (result_moves ..) rfl
        exact Moves.step (Moves.refl _ s) (takeHead_moves ..) rfl
      ·
        exact Moves.step (Moves.refl _ s) (result_moves ..) rfl
    ·
      exact Moves.step (Moves.refl _ s) (result_moves ..) rfl

theorem chanWord_moves (a0 a1 a2 a3 s) : Moves [.waiting, .out, .freeIx, .regs, .log, .cmd, .cfg, .tbl, .host, .sto, .svc, .mbx, .mem] s (chanWord a0 a1 a2 a3 s) := by
  unfold chanWord
  split
  ·
    refine Moves.ite ?_ ?_
    ·
      exact Moves.step (Moves.refl _ s) (result_moves ..) rfl
    ·
      exact Moves.step (Moves.refl _ s) (misuse_moves ..) rfl
  ·
    exact Moves.step (Moves.refl _ s) (misuse_moves ..) rfl

theorem chanAbort_moves (a0 a1 a2 s) : Moves [.waiting, .out, .freeIx, .regs, .log, .cmd, .cfg, .tbl, .host, .sto, .svc, .mbx, .mem] s (chanAbort a0 a1 a2 s) := by
  unfold chanAbort
  extract_lets -merge -useContext -underBinder y0
  clear_value y0
  split
  ·
    exact Moves.step (Moves.refl _ s) (misuse_moves ..) rfl
  ·
    refine Moves.ite ?_ ?_
    ·
      refine Moves.step ?_ (result_moves ..) rfl
      exact Moves.step (Moves.refl _ s) (threadMod_moves ..) rfl
    ·
      split
      ·
        exact Moves.step (Moves.refl _ s) (misuse_moves ..) rfl
      ·
        extract_lets -merge -useContext -underBinder y1 y2
        clear_value y1
        have hy2 : Moves [.waiting, .out, .freeIx, .regs, .log, .cmd, .cfg, .tbl, .host, .sto, .svc, .mbx, .mem] s y2 := by
          unfold y2
          exact Moves.step (Moves.refl _ s) (result_moves ..) rfl
        clear_value y2
        refine Moves.ite ?_ ?_
        ·
          refine Moves.step ?_ (settleAll_moves ..) rfl
          exact Moves.step hy2 (chanMod_moves ..) rfl
        ·
          exact hy2

theorem chanCount_moves (a0 a1 a2 a3 s) : Moves [.waiting, .out, .freeIx, .regs, .log, .cmd, .cfg, .tbl, .host, .sto, .svc, .mbx, .mem] s (chanCount a0 a1 a2 a3 s) := by
  unfold chanCount
  split
  ·
    exact Moves.step (Moves.refl _ s) (misuse_moves ..) rfl
  ·
    exact Moves.step (Moves.refl _ s) (result_moves ..) rfl

theorem chanFree_moves (a0 a1 a2 a3 s) : Moves [.waiting, .out, .freeIx, .regs, .log, .cmd, .cfg, .tbl, .host, .sto, .svc, .mbx, .mem] s (chanFree a0 a1 a2 a3 s) := by
  unfold chanFree
  extract_lets -merge -useContext -underBinder y0
  clear_value y0
  split
  ·
    exact Moves.step (Moves.refl _ s) (misuse_moves ..) rfl
  ·
    refine Moves.ite ?_ ?_
    ·
      refine Moves.step ?_ (afterTake_moves ..) rfl
      refine Moves.step ?_ (result_moves ..) rfl
      exact Moves.step (Moves.refl _ s) (chanMod_moves ..) rfl
    ·
      exact Moves.step (Moves.refl _ s) (misuse_moves ..) rfl

theorem lockMisuse_moves (a0 a1 a2 s) : Moves [.waiting, .out, .freeIx, .regs, .log, .cmd, .cfg, .tbl, .host, .sto, .svc, .mbx, .mem] s (lockMisuse a0 a1 a2 s) := by
  unfold lockMisuse
  exact Moves.step (Moves.refl _ s) (threadFaults_moves ..) rfl

theorem lockAcquire_moves (a0 a1 a2 a3 a4 s) : Moves [.waiting, .out, .freeIx, .regs, .log, .cmd, .cfg, .tbl, .host, .sto, .svc, .mbx, .mem] s (lockAcquire a0 a1 a2 a3 a4 s) := by
  unfold lockAcquire
  split
  ·
    exact Moves.step (Moves.refl _ s) (lockMisuse_moves ..) rfl
  ·
    split
    ·
      refine Moves.step ?_ (result_moves ..) rfl
      exact Moves.step (Moves.refl _ s) (lockMod_moves ..) rfl
    ·
      refine Moves.ite ?_ ?_
      ·
        exact Moves.step (Moves.refl _ s) (lockMisuse_moves ..) rfl
      ·
        refine Moves.ite ?_ ?_
        ·
          exact Moves.step (Moves.refl _ s) (result_moves ..) rfl
        ·
          refine Moves.step ?_ (blockOn_moves ..) rfl
          exact Moves.step (Moves.refl _ s) (lockMod_moves ..) rfl

theorem lockRelease_moves (a0 a1 a2 s) : Moves [.waiting, .out, .freeIx, .regs, .log, .cmd, .cfg, .tbl, .host, .sto, .svc, .mbx, .mem] s (lockRelease a0 a1 a2 s) := by
  unfold lockRelease
  split
  ·
    exact Moves.step (Moves.refl _ s) (lockMisuse_moves ..) rfl
  ·
    refine Moves.ite ?_ ?_
    ·
      refine Moves.step ?_ (grantLock_moves ..) rfl
      exact Moves.step (Moves.refl _ s) (result_moves ..) rfl
    ·
      exact Moves.step (Moves.refl _ s) (lockMisuse_moves ..) rfl

theorem timerSet_moves (a0 a1 a2 a3 s) : Moves [.waiting, .out, .freeIx, .regs, .log, .cmd, .cfg, .tbl, .host, .sto, .svc, .mbx, .mem] s (timerSet a0 a1 a2 a3 s) := by
  unfold timerSet
  extract_lets -merge -useContext -underBinder y0 y1 y2
  clear_value y0
  clear_value y1
  clear_value y2
  refine Moves.ite ?_ ?_
  ·
    refine Moves.step ?_ (result_moves ..) rfl
    exact Moves.step (Moves.refl _ s) (clustMod_moves ..) rfl
  ·
    refine Moves.ite ?_ ?_
    ·
      exact Moves.step (Moves.refl _ s) (misuse_moves ..) rfl
    ·
      refine Moves.ite ?_ ?_
      ·
        exact Moves.step (Moves.refl _ s) (misuse_moves ..) rfl
      ·
        refine Moves.step ?_ (result_moves ..) rfl
        exact Moves.step (Moves.refl _ s) (clustMod_moves ..) rfl

theorem customIssue_moves {l : List Part} (hb : [Part.waiting, .out, .freeIx, .regs, .log, .cmd, .cfg, .tbl, .host, .sto, .svc, .mbx, .mem].all l.contains = true)
    {n t : Nat} {f : State → State} {s : State} (h : ∀ u, Moves l u (f u)) : Moves l s (customIssue n t f s) := by
  unfold customIssue
  refine Moves.ite (Moves.refl _ s) (Moves.ite ?_ (h s))
  exact (illegal_moves ..).wider (all_sub hb rfl)

theorem execChWr_moves (a0 a1 a2 a3 a4 s) : MovesAll hasNext [.waiting, .out, .freeIx, .regs, .log, .cmd, .cfg, .tbl, .host, .sto, .svc, .mbx, .mem] s (execChWr a0 a1 a2 a3 a4 s) := by
  unfold execChWr
  refine hasNext_onElem ?_
  refine Moves.step (m := [.waiting, .out, .freeIx, .regs, .log, .cmd, .cfg, .tbl, .host, .sto, .svc, .mbx, .mem]) (Moves.refl _ s) (customIssue_moves rfl (fun u0 => ?_)) rfl
  exact Moves.step (Moves.refl _ u0) (chanWrite_moves ..) rfl

theorem execChWre_moves (a0 a1 a2 a3 a4 s) : MovesAll hasNext [.waiting, .out, .freeIx, .regs, .log, .cmd, .cfg, .tbl, .host, .sto, .svc, .mbx, .mem] s (execChWre a0 a1 a2 a3 a4 s) := by
  unfold execChWre
  refine hasNext_onElem ?_
  refine Moves.step (m := [.waiting, .out, .freeIx, .regs, .log, .cmd, .cfg, .tbl, .host, .sto, .svc, .mbx, .mem]) (Moves.refl _ s) (customIssue_moves rfl (fun u0 => ?_)) rfl
  exact Moves.step (Moves.refl _ u0) (chanWrite_moves ..) rfl

theorem execChRdh_moves (a0 a1 a2 a3 s) : MovesAll hasNext [.waiting, .out, .freeIx, .regs, .log, .cmd, .cfg, .tbl, .host, .sto, .svc, .mbx, .mem] s (execChRdh a0 a1 a2 a3 s) := by
  unfold execChRdh
  refine hasNext_onElem ?_
  refine Moves.step (m := [.waiting, .out, .freeIx, .regs, .log, .cmd, .cfg, .tbl, .host, .sto, .svc, .mbx, .mem]) (Moves.refl _ s) (customIssue_moves rfl (fun u0 => ?_)) rfl
  exact Moves.step (Moves.refl _ u0) (chanRead_moves ..) rfl

theorem execChTry_moves (a0 a1 a2 a3 s) : MovesAll hasNext [.waiting, .out, .freeIx, .regs, .log, .cmd, .cfg, .tbl, .host, .sto, .svc, .mbx, .mem] s (execChTry a0 a1 a2 a3 s) := by
  unfold execChTry
  refine hasNext_onElem ?_
  refine Moves.step (m := [.waiting, .out, .freeIx, .regs, .log, .cmd, .cfg, .tbl, .host, .sto, .svc, .mbx, .mem]) (Moves.refl _ s) (customIssue_moves rfl (fun u0 => ?_)) rfl
  exact Moves.step (Moves.refl _ u0) (chanTry_moves ..) rfl

theorem execChRdw_moves (a0 a1 a2 a3 s) : MovesAll hasNext [.waiting, .out, .freeIx, .regs, .log, .cmd, .cfg, .tbl, .host, .sto, .svc, .mbx, .mem] s (execChRdw a0 a1 a2 a3 s) := by
  unfold execChRdw
  refine hasNext_onElem ?_
  refine Moves.step (m := [.waiting, .out, .freeIx, .regs, .log, .cmd, .cfg, .tbl, .host, .sto, .svc, .mbx, .mem]) (Moves.refl _ s) (customIssue_moves rfl (fun u0 => ?_)) rfl
  exact Moves.step (Moves.refl _ u0) (chanWord_moves ..) rfl

theorem execChAbt_moves (a0 a1 a2 s) : MovesAll hasNext [.waiting, .out, .freeIx, .regs, .log, .cmd, .cfg, .tbl, .host, .sto, .svc, .mbx, .mem] s (execChAbt a0 a1 a2 s) := by
  unfold execChAbt
  refine hasNext_onElem ?_
  refine Moves.step (m := [.waiting, .out, .freeIx, .regs, .log, .cmd, .cfg, .tbl, .host, .sto, .svc, .mbx, .mem]) (Moves.refl _ s) (customIssue_moves rfl (fun u0 => ?_)) rfl
  exact Moves.step (Moves.refl _ u0) (chanAbort_moves ..) rfl

theorem execChCnt_moves (a0 a1 a2 a3 s) : MovesAll hasNext [.waiting, .out, .freeIx, .regs, .log, .cmd, .cfg, .tbl, .host, .sto, .svc, .mbx, .mem] s (execChCnt a0 a1 a2 a3 s) := by
  unfold execChCnt
  refine hasNext_onElem ?_
  refine Moves.step (m := [.waiting, .out, .freeIx, .regs, .log, .cmd, .cfg, .tbl, .host, .sto, .svc, .mbx, .mem]) (Moves.refl _ s) (customIssue_moves rfl (fun u0 => ?_)) rfl
  exact Moves.step (Moves.refl _ u0) (chanCount_moves ..) rfl

theorem execChFree_moves (a0 a1 a2 a3 s) : MovesAll hasNext [.waiting, .out, .freeIx, .regs, .log, .cmd, .cfg, .tbl, .host, .sto, .svc, .mbx, .mem] s (execChFree a0 a1 a2 a3 s) := by
  unfold execChFree
  refine hasNext_onElem ?_
  refine Moves.step (m := [.waiting, .out, .freeIx, .regs, .log, .cmd, .cfg, .tbl, .host, .sto, .svc, .mbx, .mem]) (Moves.refl _ s) (customIssue_moves rfl (fun u0 => ?_)) rfl
  exact Moves.step (Moves.refl _ u0) (chanFree_moves ..) rfl

theorem execLkAcq_moves (a0 a1 a2 a3 s) : MovesAll hasNext [.waiting, .out, .freeIx, .regs, .log, .cmd, .cfg, .tbl, .host, .sto, .svc, .mbx, .mem] s (execLkAcq a0 a1 a2 a3 s) := by
  unfold execLkAcq
  refine hasNext_onElem ?_
  refine Moves.step (m := [.waiting, .out, .freeIx, .regs, .log, .cmd, .cfg, .tbl, .host, .sto, .svc, .mbx, .mem]) (Moves.refl _ s) (customIssue_moves rfl (fun u0 => ?_)) rfl
  exact Moves.step (Moves.refl _ u0) (lockAcquire_moves ..) rfl

theorem execLkTry_moves (a0 a1 a2 a3 s) : MovesAll hasNext [.waiting, .out, .freeIx, .regs, .log, .cmd, .cfg, .tbl, .host, .sto, .svc, .mbx, .mem] s (execLkTry a0 a1 a2 a3 s) := by
  unfold execLkTry
  refine hasNext_onElem ?_
  refine Moves.step (m := [.waiting, .out, .freeIx, .regs, .log, .cmd, .cfg, .tbl, .host, .sto, .svc, .mbx, .mem]) (Moves.refl _ s) (customIssue_moves rfl (fun u0 => ?_)) rfl
  exact Moves.step (Moves.refl _ u0) (lockAcquire_moves ..) rfl

theorem execLkRel_moves (a0 a1 a2 s) : MovesAll hasNext [.waiting, .out, .freeIx, .regs, .log, .cmd, .cfg, .tbl, .host, .sto, .svc, .mbx, .mem] s (execLkRel a0 a1 a2 s) := by
  unfold execLkRel
  refine hasNext_onElem ?_
  refine Moves.step (m := [.waiting, .out, .freeIx, .regs, .log, .cmd, .cfg, .tbl, .host, .sto, .svc, .mbx, .mem]) (Moves.refl _ s) (customIssue_moves rfl (fun u0 => ?_)) rfl
  exact Moves.step (Moves.refl _ u0) (lockRelease_moves ..) rfl

theorem execTmSet_moves (a0 a1 a2 a3 s) : MovesAll hasNext [.waiting, .out, .freeIx, .regs, .log, .cmd, .cfg, .tbl, .host, .sto, .svc, .mbx, .mem] s (execTmSet a0 a1 a2 a3 s) := by
  unfold execTmSet
  refine hasNext_onElem ?_
  refine Moves.step (m := [.waiting, .out, .freeIx, .regs, .log, .cmd, .cfg, .tbl, .host, .sto, .svc, .mbx, .mem]) (Moves.refl _ s) (customIssue_moves rfl (fun u0 => ?_)) rfl
  exact Moves.step (Moves.refl _ u0) (timerSet_moves ..) rfl

theorem ecall_moves (a0 a1 s) : Moves [.waiting, .out, .freeIx, .regs, .log, .cmd, .cfg, .tbl, .host, .sto, .svc, .mbx, .mem] s (ecall a0 a1 s) := by
  unfold ecall
  exact Moves.step (Moves.refl _ s) (threadFaults_moves ..) rfl

theorem ebreak_moves (a0 a1 s) : Moves [.waiting, .out, .freeIx, .regs, .log, .cmd, .cfg, .tbl, .host, .sto, .svc, .mbx, .mem] s (ebreak a0 a1 s) := by
  unfold ebreak
  split
  ·
    exact Moves.step (Moves.refl _ s) (haltThread_moves ..) rfl
  ·
    exact Moves.step (Moves.refl _ s) (threadFaults_moves ..) rfl

theorem execEcall_moves (a0 a1 s) : MovesAll hasNext [.waiting, .out, .freeIx, .regs, .log, .cmd, .cfg, .tbl, .host, .sto, .svc, .mbx, .mem] s (execEcall a0 a1 s) := by
  unfold execEcall
  refine hasNext_onElem ?_
  refine Moves.ite ?_ ?_
  ·
    exact Moves.step (Moves.refl _ s) (ecall_moves ..) rfl
  ·
    exact (Moves.refl _ s)

theorem execEbreak_moves (a0 a1 s) : MovesAll hasNext [.waiting, .out, .freeIx, .regs, .log, .cmd, .cfg, .tbl, .host, .sto, .svc, .mbx, .mem] s (execEbreak a0 a1 s) := by
  unfold execEbreak
  refine hasNext_onElem ?_
  refine Moves.ite ?_ ?_
  ·
    exact Moves.step (Moves.refl _ s) (ebreak_moves ..) rfl
  ·
    exact (Moves.refl _ s)

theorem custom0_moves (a0 a1 a2 s) : Moves [.waiting, .out, .freeIx, .regs, .log, .cmd, .cfg, .tbl, .host, .sto, .svc, .mbx, .mem] s (custom0 a0 a1 a2 s) := by
  unfold custom0
  extract_lets -merge -useContext -underBinder y0 y1 y2 y3 y4
  clear_value y0
  clear_value y1
  clear_value y2
  clear_value y3
  clear_value y4
  refine Moves.ite ?_ ?_
  ·
    exact Moves.step (Moves.refl _ s) (illegal_moves ..) rfl
  ·
    split
    ·
      exact Moves.step (Moves.refl _ s) (chanWrite_moves ..) rfl
    ·
      exact Moves.step (Moves.refl _ s) (chanWrite_moves ..) rfl
    ·
      refine Moves.ite ?_ ?_
      ·
        exact Moves.step (Moves.refl _ s) (chanRead_moves ..) rfl
      ·
        exact Moves.step (Moves.refl _ s) (illegal_moves ..) rfl
    ·
      refine Moves.ite ?_ ?_
      ·
        exact Moves.step (Moves.refl _ s) (chanTry_moves ..) rfl
      ·
        exact Moves.step (Moves.refl _ s) (illegal_moves ..) rfl
    ·
      refine Moves.ite ?_ ?_
      ·
        exact Moves.step (Moves.refl _ s) (chanWord_moves ..) rfl
      ·
        exact Moves.step (Moves.refl _ s) (illegal_moves ..) rfl
    ·
      refine Moves.ite ?_ ?_
      ·
        exact Moves.step (Moves.refl _ s) (chanAbort_moves ..) rfl
      ·
        exact Moves.step (Moves.refl _ s) (illegal_moves ..) rfl
    ·
      refine Moves.ite ?_ ?_
      ·
        exact Moves.step (Moves.refl _ s) (chanCount_moves ..) rfl
      ·
        exact Moves.step (Moves.refl _ s) (illegal_moves ..) rfl
    ·
      refine Moves.ite ?_ ?_
      ·
        exact Moves.step (Moves.refl _ s) (chanFree_moves ..) rfl
      ·
        exact Moves.step (Moves.refl _ s) (illegal_moves ..) rfl
    ·
      refine Moves.ite ?_ ?_
      ·
        exact Moves.step (Moves.refl _ s) (lockAcquire_moves ..) rfl
      ·
        exact Moves.step (Moves.refl _ s) (illegal_moves ..) rfl
    ·
      refine Moves.ite ?_ ?_
      ·
        exact Moves.step (Moves.refl _ s) (lockAcquire_moves ..) rfl
      ·
        exact Moves.step (Moves.refl _ s) (illegal_moves ..) rfl
    ·
      refine Moves.ite ?_ ?_
      ·
        exact Moves.step (Moves.refl _ s) (lockRelease_moves ..) rfl
      ·
        exact Moves.step (Moves.refl _ s) (illegal_moves ..) rfl
    ·
      refine Moves.ite ?_ ?_
      ·
        exact Moves.step (Moves.refl _ s) (timerSet_moves ..) rfl
      ·
        exact Moves.step (Moves.refl _ s) (illegal_moves ..) rfl
    ·
      exact Moves.step (Moves.refl _ s) (illegal_moves ..) rfl

theorem runWord_moves (a0 a1 a2 a3 s) : Moves [.waiting, .out, .freeIx, .regs, .log, .cmd, .cfg, .tbl, .host, .sto, .svc, .mbx, .mem] s (runWord a0 a1 a2 a3 s) := by
  unfold runWord
  extract_lets -merge -useContext -underBinder y0 y1 y2 y3 y4 y5
  clear_value y0
  clear_value y1
  clear_value y2
  clear_value y3
  clear_value y4
  clear_value y5
  split
  ·
    exact Moves.step (Moves.refl _ s) (result_moves ..) rfl
  ·
    exact Moves.step (Moves.refl _ s) (result_moves ..) rfl
  ·
    exact Moves.step (Moves.refl _ s) (jumpTo_moves ..) rfl
  ·
    refine Moves.ite ?_ ?_
    ·
      exact Moves.step (Moves.refl _ s) (jumpTo_moves ..) rfl
    ·
      exact Moves.step (Moves.refl _ s) (illegal_moves ..) rfl
  ·
    split
    ·
      exact Moves.step (Moves.refl _ s) (jumpTo_moves ..) rfl
    ·
      exact Moves.step (Moves.refl _ s) (result_moves ..) rfl
    ·
      exact Moves.step (Moves.refl _ s) (illegal_moves ..) rfl
  ·
    split
    ·
      exact Moves.step (Moves.refl _ s) (illegal_moves ..) rfl
    ·
      extract_lets -merge -useContext -underBinder y6
      clear_value y6
      split
      ·
        exact Moves.step (Moves.refl _ s) (threadFaults_moves ..) rfl
      ·
        extract_lets -merge -useContext -underBinder y7
        clear_value y7
        refine Moves.step ?_ (loadEffect_moves ..) rfl
        exact Moves.step (Moves.refl _ s) (result_moves ..) rfl
  ·
    extract_lets -merge -useContext -underBinder y8 y9
    clear_value y8
    clear_value y9
    refine Moves.ite ?_ ?_
    ·
      exact Moves.step (Moves.refl _ s) (illegal_moves ..) rfl
    ·
      split
      ·
        exact Moves.step (Moves.refl _ s) (threadFaults_moves ..) rfl
      ·
        refine Moves.step ?_ (storeValue_moves ..) rfl
        exact Moves.step (Moves.refl _ s) (result_moves ..) rfl
  ·
    refine Moves.ite ?_ ?_
    ·
      refine Moves.ite ?_ ?_
      ·
        exact Moves.step (Moves.refl _ s) (result_moves ..) rfl
      ·
        exact Moves.step (Moves.refl _ s) (illegal_moves ..) rfl
    ·
      refine Moves.ite ?_ ?_
      ·
        refine Moves.ite ?_ ?_
        ·
          exact Moves.step (Moves.refl _ s) (result_moves ..) rfl
        ·
          refine Moves.ite ?_ ?_
          ·
            exact Moves.step (Moves.refl _ s) (result_moves ..) rfl
          ·
            exact Moves.step (Moves.refl _ s) (illegal_moves ..) rfl
      ·
        exact Moves.step (Moves.refl _ s) (result_moves ..) rfl
  ·
    refine Moves.ite ?_ ?_
    ·
      exact Moves.step (Moves.refl _ s) (result_moves ..) rfl
    ·
      refine Moves.ite ?_ ?_
      ·
        exact Moves.step (Moves.refl _ s) (result_moves ..) rfl
      ·
        refine Moves.ite ?_ ?_
        ·
          exact Moves.step (Moves.refl _ s) (result_moves ..) rfl
        ·
          exact Moves.step (Moves.refl _ s) (illegal_moves ..) rfl
  ·
    refine Moves.ite ?_ ?_
    ·
      exact Moves.step (Moves.refl _ s) (result_moves ..) rfl
    ·
      refine Moves.ite ?_ ?_
      ·
        exact Moves.step (Moves.refl _ s) (result_moves ..) rfl
      ·
        refine Moves.ite ?_ ?_
        ·
          exact Moves.step (Moves.refl _ s) (result_moves ..) rfl
        ·
          exact Moves.step (Moves.refl _ s) (illegal_moves ..) rfl
  ·
    refine Moves.ite ?_ ?_
    ·
      exact Moves.step (Moves.refl _ s) (result_moves ..) rfl
    ·
      refine Moves.ite ?_ ?_
      ·
        exact Moves.step (Moves.refl _ s) (result_moves ..) rfl
      ·
        refine Moves.ite ?_ ?_
        ·
          split
          ·
            exact Moves.step (Moves.refl _ s) (result_moves ..) rfl
          ·
            exact Moves.step (Moves.refl _ s) (illegal_moves ..) rfl
        ·
          exact Moves.step (Moves.refl _ s) (illegal_moves ..) rfl
  ·
    refine Moves.ite ?_ ?_
    ·
      exact Moves.step (Moves.refl _ s) (result_moves ..) rfl
    ·
      exact Moves.step (Moves.refl _ s) (illegal_moves ..) rfl
  ·
    refine Moves.ite ?_ ?_
    ·
      exact Moves.step (Moves.refl _ s) (atomic_moves ..) rfl
    ·
      refine Moves.ite ?_ ?_
      ·
        exact Moves.step (Moves.refl _ s) (atomic_moves ..) rfl
      ·
        exact Moves.step (Moves.refl _ s) (illegal_moves ..) rfl
  ·
    refine Moves.ite ?_ ?_
    ·
      exact Moves.step (Moves.refl _ s) (ecall_moves ..) rfl
    ·
      refine Moves.ite ?_ ?_
      ·
        exact Moves.step (Moves.refl _ s) (ebreak_moves ..) rfl
      ·
        refine Moves.ite ?_ ?_
        ·
          exact Moves.step (Moves.refl _ s) (illegal_moves ..) rfl
        ·
          exact Moves.step (Moves.refl _ s) (csrInstr_moves ..) rfl
  ·
    exact Moves.step (Moves.refl _ s) (custom0_moves ..) rfl
  ·
    exact Moves.step (Moves.refl _ s) (illegal_moves ..) rfl

theorem issue_moves (a0 a1 s) : Moves [.waiting, .out, .freeIx, .regs, .log, .cmd, .cfg, .tbl, .host, .sto, .svc, .mbx, .mem] s (issue a0 a1 s) := by
  unfold issue
  extract_lets -merge -useContext -underBinder y0 y1
  clear_value y0
  clear_value y1
  refine Moves.ite ?_ ?_
  ·
    exact Moves.step (Moves.refl _ s) (threadFaults_moves ..) rfl
  ·
    split
    ·
      exact Moves.step (Moves.refl _ s) (threadFaults_moves ..) rfl
    ·
      refine Moves.ite ?_ ?_
      ·
        split
        ·
          refine Moves.step ?_ (runWord_moves ..) rfl
          exact Moves.step (Moves.refl _ s) (countReads_moves ..) rfl
        ·
          exact Moves.step (Moves.refl _ s) (illegal_moves ..) rfl
      ·
        refine Moves.ite ?_ ?_
        ·
          exact Moves.step (Moves.refl _ s) (threadFaults_moves ..) rfl
        ·
          split
          ·
            exact Moves.step (Moves.refl _ s) (threadFaults_moves ..) rfl
          ·
            refine Moves.step ?_ (runWord_moves ..) rfl
            exact Moves.step (Moves.refl _ s) (countReads_moves ..) rfl

theorem execInstructionIssue_moves (a0 a1 s) : MovesAll hasNext [.waiting, .out, .freeIx, .regs, .log, .cmd, .cfg, .tbl, .host, .sto, .svc, .mbx, .mem] s (execInstructionIssue a0 a1 s) := by
  unfold execInstructionIssue
  refine hasNext_onElem ?_
  refine Moves.ite ?_ ?_
  ·
    exact Moves.step (Moves.refl _ s) (issue_moves ..) rfl
  ·
    exact (Moves.refl _ s)

theorem closeSession_moves (a0 a1 s) : Moves [.regs, .log, .boot, .svc] s (closeSession a0 a1 s) := by
  unfold closeSession
  extract_lets -merge -useContext -underBinder t
  refine Moves.ite (Moves.refl _ s) ?_
  refine Moves.step ?_ (raise_moves ..) rfl
  exact ⟨by intro x hx; cases x <;> first | rfl | exact absurd (by decide) hx, id, List.prefix_refl _, Nat.le_refl _, id, Nat.le_refl _⟩

theorem closeSessionsOf_moves (a0 a1 s) : Moves [.regs, .log, .boot, .svc] s (closeSessionsOf a0 a1 s) := by
  unfold closeSessionsOf
  refine Moves.foldl ?_ (fun t0 x1 ht0 => ?_)
  ·
    exact (Moves.refl _ s)
  ·
    refine Moves.ite ?_ ?_
    ·
      exact Moves.step ht0 (closeSession_moves ..) rfl
    ·
      exact ht0

theorem opDbgHalt_moves (c s) : DoneMoves [.regs, .log, .svc] s ((opDbgHalt).body c s) := by
  unfold opDbgHalt
  refine op_mkDbg (fun k t => ?_)
  extract_lets -merge -useContext -underBinder y0 y1
  clear_value y0
  clear_value y1
  refine DoneMoves.ite ?_ ?_
  ·
    refine hasDone_reply ?_
    exact Moves.step (Moves.refl _ s) (haltThread_moves ..) rfl
  ·
    refine hasDone_reply ?_
    exact (Moves.refl _ s)

theorem execDbgHalt_moves (a0 s) : MovesAll hasNext [.waiting, .out, .regs, .log, .cmd, .prot, .host, .svc] s (execDbgHalt a0 s) := by
  unfold execDbgHalt
  refine hasNext_next ?_
  exact Moves.step (Moves.refl _ s) (runCmd_moves _ _ _ (opDbgHalt_moves ..)) rfl

theorem opDbgResume_moves (c s) : DoneMoves [.svc] s ((opDbgResume).body c s) := by
  unfold opDbgResume
  refine op_mkDbg (fun k t => ?_)
  extract_lets -merge -useContext -underBinder y0 y1
  clear_value y0
  have hy1 : Moves [.svc] s y1 := by
    unfold y1
    exact Moves.step (Moves.refl _ s) (threadMod_moves ..) rfl
  clear_value y1
  refine DoneMoves.ite ?_ ?_
  ·
    exact hasDone_refuse
  ·
    refine DoneMoves.ite ?_ ?_
    ·
      exact hasDone_refuse
    ·
      refine hasDone_reply ?_
      refine Moves.ite ?_ ?_
      ·
        exact Moves.step hy1 (threadMod_moves ..) rfl
      ·
        exact hy1

theorem execDbgResume_moves (a0 s) : MovesAll hasNext [.waiting, .out, .regs, .log, .cmd, .prot, .host, .svc] s (execDbgResume a0 s) := by
  unfold execDbgResume
  refine hasNext_next ?_
  exact Moves.step (Moves.refl _ s) (runCmd_moves _ _ _ (opDbgResume_moves ..)) rfl

theorem opDbgAbandonMessage_moves (c s) : DoneMoves [.regs, .log, .svc] s ((opDbgAbandonMessage).body c s) := by
  unfold opDbgAbandonMessage
  refine op_mkDbg (fun k t => ?_)
  refine DoneMoves.ite ?_ ?_
  ·
    exact hasDone_refuse
  ·
    split
    ·
      exact hasDone_refuse
    ·
      extract_lets -merge -useContext -underBinder y0 y1 y2
      have hy0 : Moves [.regs, .log, .svc] s y0 := by
        unfold y0
        exact Moves.step (Moves.refl _ s) (dropStaged_moves ..) rfl
      clear_value y0
      have hy1 : Moves [.regs, .log, .svc] s y1 := by
        unfold y1
        exact Moves.step hy0 (threadMod_moves ..) rfl
      clear_value y1
      have hy2 : Moves [.regs, .log, .svc] s y2 := by
        unfold y2
        exact Moves.step hy1 (notice_moves ..) rfl
      clear_value y2
      refine hasDone_reply ?_
      exact Moves.step hy2 (raise_moves ..) rfl

theorem execDbgAbandonMessage_moves (a0 s) : MovesAll hasNext [.waiting, .out, .regs, .log, .cmd, .prot, .host, .svc] s (execDbgAbandonMessage a0 s) := by
  unfold execDbgAbandonMessage
  refine hasNext_next ?_
  exact Moves.step (Moves.refl _ s) (runCmd_moves _ _ _ (opDbgAbandonMessage_moves ..)) rfl

theorem opDbgObserve_moves (c s) : DoneMoves [] s ((opDbgObserve).body c s) := by
  unfold opDbgObserve
  refine op_mkDbg (fun k t => ?_)
  extract_lets -merge -useContext -underBinder y0
  clear_value y0
  refine hasDone_reply ?_
  exact (Moves.refl _ s)

theorem execDbgObserve_moves (a0 s) : MovesAll hasNext [.waiting, .out, .regs, .log, .cmd, .prot, .host, .svc] s (execDbgObserve a0 s) := by
  unfold execDbgObserve
  refine hasNext_next ?_
  exact Moves.step (Moves.refl _ s) (runCmd_moves _ _ _ (opDbgObserve_moves ..)) rfl

theorem opDbgReadReg_moves (c s) : DoneMoves [] s ((opDbgReadReg).body c s) := by
  unfold opDbgReadReg
  refine op_mkDbg (fun k t => ?_)
  extract_lets -merge -useContext -underBinder y0 y1
  clear_value y0
  clear_value y1
  refine DoneMoves.ite ?_ ?_
  ·
    exact hasDone_refuse
  ·
    refine DoneMoves.ite ?_ ?_
    ·
      exact hasDone_refuse
    ·
      refine hasDone_reply ?_
      exact (Moves.refl _ s)

theorem execDbgReadReg_moves (a0 s) : MovesAll hasNext [.waiting, .out, .regs, .log, .cmd, .prot, .host, .svc] s (execDbgReadReg a0 s) := by
  unfold execDbgReadReg
  refine hasNext_next ?_
  exact Moves.step (Moves.refl _ s) (runCmd_moves _ _ _ (opDbgReadReg_moves ..)) rfl

theorem opDbgOpen_moves (c s) : DoneMoves [.out, .regs, .log, .boot] s ((opDbgOpen).body c s) := by
  unfold opDbgOpen
  extract_lets -merge -useContext -underBinder src
  change DoneMoves _ s (src.body c s)
  unfold src
  refine op_mk ?_
  extract_lets -merge -useContext -underBinder y0 y1 y2 y3 y4 y5 y6
  have hy6 : Moves [.out, .regs, .log, .boot] s y6 :=
    ⟨by intro x hx; cases x <;> first | rfl | exact absurd (by decide) hx, id, List.prefix_refl _, Nat.le_refl _, id, Nat.le_refl _⟩
  clear_value y6
  refine DoneMoves.ite hasDone_refuse (DoneMoves.ite hasDone_refuse (DoneMoves.ite hasDone_refuse (DoneMoves.ite hasDone_refuse
    (DoneMoves.ite hasDone_refuse (hasDone_reply ?_)))))
  refine Moves.step ?_ (raise_moves ..) rfl
  exact Moves.step hy6 (toFlash_moves ..) rfl

theorem execDbgOpen_moves (a0 s) : MovesAll hasNext [.waiting, .out, .regs, .log, .cmd, .prot, .boot, .host, .svc] s (execDbgOpen a0 s) := by
  unfold execDbgOpen
  refine hasNext_next ?_
  exact Moves.step (Moves.refl _ s) (runCmd_moves _ _ _ (opDbgOpen_moves ..)) rfl

theorem opDbgClose_moves (c s) : DoneMoves [.regs, .log, .boot, .svc] s ((opDbgClose).body c s) := by
  unfold opDbgClose
  extract_lets -merge -useContext -underBinder src
  change DoneMoves _ s (src.body c s)
  unfold src
  refine op_mk ?_
  split
  ·
    refine DoneMoves.ite ?_ ?_
    ·
      refine hasDone_reply ?_
      exact Moves.step (Moves.refl _ s) (closeSession_moves ..) rfl
    ·
      exact hasDone_refuse
  ·
    exact hasDone_refuse

theorem execDbgClose_moves (a0 s) : MovesAll hasNext [.waiting, .out, .regs, .log, .cmd, .prot, .boot, .host, .svc] s (execDbgClose a0 s) := by
  unfold execDbgClose
  refine hasNext_next ?_
  exact Moves.step (Moves.refl _ s) (runCmd_moves _ _ _ (opDbgClose_moves ..)) rfl

theorem execDebugTokenExpiry_moves (a0 s) : MovesAll hasNext [.regs, .log, .boot, .svc] s (execDebugTokenExpiry a0 s) := by
  unfold execDebugTokenExpiry
  refine hasNext_next ?_
  exact Moves.step (Moves.refl _ s) (closeSession_moves ..) rfl

theorem execOobEndpointLoss_moves (a0 s) : MovesAll hasNext [.waiting, .out, .regs, .log, .cmd, .cfg, .boot, .tbl, .svc] s (execOobEndpointLoss a0 s) := by
  unfold execOobEndpointLoss
  refine hasNext_onElem ?_
  refine Moves.step ?_ (closeSessionsOf_moves ..) rfl
  refine Moves.step ?_ (stageOwnerLost_moves ..) rfl
  exact Moves.step (Moves.refl _ s) (queueLost_moves ..) rfl

theorem logAer_moves (a0 a1 s) : Moves [.freeIx, .host] s (logAer a0 a1 s) := by
  unfold logAer
  split
  ·
    rename_i v0 v1 e2
    have hv1 : Moves [.freeIx, .host] s v1 := by
      refine MovesAll.of_eq (has := hasSnd) e2 rfl ?_
      exact MovesAll.step (Moves.refl _ s) (drawFree_moves _) rfl
    exact Moves.step hv1 (funcMod_moves ..) rfl

theorem reportAer_moves (a0 a1 a2 s) : Moves [.out, .freeIx, .regs, .log, .host] s (reportAer a0 a1 a2 s) := by
  unfold reportAer
  refine Moves.step ?_ (raiseFn_moves ..) rfl
  refine Moves.step ?_ (toHost_moves ..) rfl
  exact Moves.step (Moves.refl _ s) (logAer_moves ..) rfl

theorem reportAdvisory_moves (a0 a1 s) : Moves [.out, .freeIx, .host] s (reportAdvisory a0 a1 s) := by
  unfold reportAdvisory
  refine Moves.step ?_ (toHost_moves ..) rfl
  refine Moves.step ?_ (funcMod_moves ..) rfl
  exact Moves.step (Moves.refl _ s) (logAer_moves ..) rfl

theorem clearPba_moves (a0 s) : Moves [.host] s (clearPba a0 s) := by
  unfold clearPba
  extract_lets -merge -useContext -underBinder y0
  clear_value y0
  exact Moves.step (Moves.refl _ s) (funcMod_moves ..) rfl

theorem sharesSet_moves (a0 s) : Moves [.out, .regs, .log, .host] s (sharesSet a0 s) := by
  unfold sharesSet
  extract_lets -merge -useContext -underBinder y0 y1 y2 y3
  clear_value y0
  have hy1 : Moves [.out, .regs, .log, .host] s y1 := by
    unfold y1
    refine Moves.step ?_ (dirChanged_moves ..) rfl
    exact Moves.step (Moves.refl _ s) (clearPba_moves ..) rfl
  clear_value y1
  have hy2 : Moves [.out, .regs, .log, .host] s y2 := by
    unfold y2
    exact Moves.step hy1 (raiseFn_moves ..) rfl
  clear_value y2
  clear_value y3
  refine Moves.ite ?_ ?_
  ·
    exact hy2
  ·
    refine Moves.step ?_ (raiseFn_moves ..) rfl
    refine Moves.foldl ?_ (fun t4 x5 ht4 => ?_)
    ·
      exact hy2
    ·
      exact Moves.step ht4 (qpCut_moves ..) rfl

theorem vfsAppear_moves (a0 s) : Moves [.out, .regs, .log, .host] s (vfsAppear a0 s) := by
  unfold vfsAppear
  extract_lets -merge -useContext -underBinder y0 y1 y2
  clear_value y0
  have hy1 : Moves [.out, .regs, .log, .host] s y1 := by
    unfold y1
    exact Moves.step (Moves.refl _ s) (funcMod_moves ..) rfl
  clear_value y1
  have hy2 : Moves [.out, .regs, .log, .host] s y2 := by
    unfold y2
    refine Moves.foldl ?_ (fun t3 x4 ht3 => ?_)
    ·
      exact hy1
    ·
      exact Moves.step ht3 (funcMod_moves ..) rfl
  clear_value y2
  exact Moves.step hy2 (sharesSet_moves ..) rfl

theorem endOwed_moves (a0 s) : Moves [.out, .regs, .log, .cmd, .host, .svc] s (endOwed a0 s) := by
  unfold endOwed
  refine Moves.foldl ?_ (fun t0 x1 ht0 => ?_)
  ·
    exact (Moves.refl _ s)
  ·
    exact Moves.step ht0 (finish_moves ..) rfl

theorem resetFn_moves (a0 s) : Moves [.waiting, .out, .freeIx, .regs, .log, .cmd, .cfg, .boot, .tbl, .host, .sto, .svc, .mbx] s (resetFn a0 s) := by
  unfold resetFn
  extract_lets -merge -useContext -underBinder y0 y1 y2 y3 y4 y5 y6
  clear_value y0
  have hy1 : Moves [.waiting, .out, .freeIx, .regs, .log, .cmd, .cfg, .boot, .tbl, .host, .sto, .svc, .mbx] s y1 := by
    unfold y1
    refine Moves.foldl ?_ (fun t7 x8 ht7 => ?_)
    ·
      exact (Moves.refl _ s)
    ·
      exact Moves.step ht7 (qpCut_moves ..) rfl
  clear_value y1
  have hy2 : Moves [.waiting, .out, .freeIx, .regs, .log, .cmd, .cfg, .boot, .tbl, .host, .sto, .svc, .mbx] s y2 := by
    unfold y2
    refine Moves.foldl ?_ (fun t9 x10 ht9 => ?_)
    ·
      exact hy1
    ·
      exact Moves.step ht9 (chDisable_moves ..) rfl
  clear_value y2
  have hy3 : Moves [.waiting, .out, .freeIx, .regs, .log, .cmd, .cfg, .boot, .tbl, .host, .sto, .svc, .mbx] s y3 := by
    unfold y3
    refine Moves.foldl ?_ (fun t11 x12 ht11 => ?_)
    ·
      exact hy2
    ·
      refine Moves.step ?_ (closeSessionsOf_moves ..) rfl
      refine Moves.step ?_ (stageOwnerLost_moves ..) rfl
      exact Moves.step ht11 (queueLost_moves ..) rfl
  clear_value y3
  have hy4 : Moves [.waiting, .out, .freeIx, .regs, .log, .cmd, .cfg, .boot, .tbl, .host, .sto, .svc, .mbx] s y4 := by
    unfold y4
    refine Moves.ite ?_ ?_
    ·
      exact Moves.step hy3 (mbxResetEnds_moves ..) rfl
    ·
      exact hy3
  clear_value y4
  have hy5 : Moves [.waiting, .out, .freeIx, .regs, .log, .cmd, .cfg, .boot, .tbl, .host, .sto, .svc, .mbx] s y5 := by
    unfold y5
    refine Moves.step ?_ (stoMod_moves ..) rfl
    exact Moves.step hy4 (orphanCmds_moves ..) rfl
  clear_value y5
  have hy6 : Moves [.waiting, .out, .freeIx, .regs, .log, .cmd, .cfg, .boot, .tbl, .host, .sto, .svc, .mbx] s y6 := by
    unfold y6
    refine Moves.step ?_ (endOwed_moves ..) rfl
    refine Moves.ite ?_ ?_
    ·
      exact Moves.step hy5 (toHost_moves ..) rfl
    ·
      exact hy5
  clear_value y6
  exact Moves.step hy6 (funcMod_moves ..) rfl

theorem clearVfs_moves (a0 s) : Moves [.waiting, .out, .freeIx, .regs, .log, .cmd, .cfg, .boot, .tbl, .host, .sto, .svc, .mbx] s (clearVfs a0 s) := by
  unfold clearVfs
  extract_lets -merge -useContext -underBinder y0 y1
  clear_value y0
  have hy1 : Moves [.waiting, .out, .freeIx, .regs, .log, .cmd, .cfg, .boot, .tbl, .host, .sto, .svc, .mbx] s y1 := by
    unfold y1
    refine Moves.foldl ?_ (fun t2 x3 ht2 => ?_)
    ·
      exact (Moves.refl _ s)
    ·
      exact Moves.step ht2 (resetFn_moves ..) rfl
  clear_value y1
  refine Moves.ite ?_ ?_
  ·
    exact (Moves.refl _ s)
  ·
    refine Moves.step ?_ (sharesSet_moves ..) rfl
    exact Moves.step hy1 (funcMod_moves ..) rfl

theorem flr_moves (a0 s) : Moves [.waiting, .out, .freeIx, .regs, .log, .cmd, .cfg, .boot, .tbl, .host, .sto, .svc, .mbx] s (flr a0 s) := by
  unfold flr
  extract_lets -merge -useContext -underBinder y0 y1
  clear_value y0
  have hy1 : Moves [.waiting, .out, .freeIx, .regs, .log, .cmd, .cfg, .boot, .tbl, .host, .sto, .svc, .mbx] s y1 := by
    unfold y1
    refine Moves.ite ?_ ?_
    ·
      exact Moves.step (Moves.refl _ s) (clearVfs_moves ..) rfl
    ·
      exact (Moves.refl _ s)
  clear_value y1
  refine Moves.step ?_ (raiseFn_moves ..) rfl
  exact Moves.step hy1 (resetFn_moves ..) rfl

theorem execFunctionLevelReset_moves (a0 s) : MovesAll hasNext [.waiting, .out, .freeIx, .regs, .log, .cmd, .cfg, .boot, .tbl, .host, .sto, .svc, .mbx] s (execFunctionLevelReset a0 s) := by
  unfold execFunctionLevelReset
  refine hasNext_onElem ?_
  exact Moves.step (Moves.refl _ s) (flr_moves ..) rfl

theorem execFlrComplete_moves (a0 s) : MovesAll hasNext [.out, .regs, .log, .host, .mbx] s (execFlrComplete a0 s) := by
  unfold execFlrComplete
  extract_lets -merge -useContext -underBinder y0 y1
  have hy0 : Moves [.out, .regs, .log, .host, .mbx] s y0 := by
    unfold y0
    exact Moves.step (Moves.refl _ s) (funcMod_moves ..) rfl
  clear_value y0
  have hy1 : Moves [.out, .regs, .log, .host, .mbx] s y1 := by
    unfold y1
    refine Moves.ite ?_ ?_
    ·
      exact Moves.step hy0 (mbxRelease_moves ..) rfl
    ·
      exact hy0
  clear_value y1
  refine hasNext_onElem ?_
  refine Moves.ite ?_ ?_
  ·
    exact (Moves.refl _ s)
  ·
    refine Moves.ite ?_ ?_
    ·
      exact Moves.step hy1 (vfsAppear_moves ..) rfl
    ·
      exact hy1

theorem linkReset_moves (a0 a1 a2 s) : Moves [.waiting, .out, .freeIx, .regs, .log, .cmd, .cfg, .boot, .tbl, .host, .sto, .svc, .mbx] s (linkReset a0 a1 a2 s) := by
  unfold linkReset
  extract_lets -merge -useContext -underBinder y0 y1
  have hy0 : Moves [.waiting, .out, .freeIx, .regs, .log, .cmd, .cfg, .boot, .tbl, .host, .sto, .svc, .mbx] s y0 := by
    unfold y0
    refine Moves.foldl ?_ (fun t2 x3 ht2 => ?_)
    ·
      exact (Moves.refl _ s)
    ·
      refine Moves.ite ?_ ?_
      ·
        exact Moves.step ht2 (flr_moves ..) rfl
      ·
        exact ht2
  clear_value y0
  have hy1 : Moves [.waiting, .out, .freeIx, .regs, .log, .cmd, .cfg, .boot, .tbl, .host, .sto, .svc, .mbx] s y1 := by
    unfold y1
    exact Moves.step hy0 (linkMod_moves ..) rfl
  clear_value y1
  exact Moves.step hy1 (raiseFn_moves ..) rfl

theorem execHostLinkTrained_moves (a0 a1 a2 a3 a4 s) : MovesAll hasNext [.out, .regs, .log, .host] s (execHostLinkTrained a0 a1 a2 a3 a4 s) := by
  unfold execHostLinkTrained
  extract_lets -merge -useContext -underBinder y0 y1 y2
  clear_value y0
  have hy1 : Moves [.out, .regs, .log, .host] s y1 := by
    unfold y1
    exact Moves.step (Moves.refl _ s) (linkMod_moves ..) rfl
  clear_value y1
  have hy2 : Moves [.out, .regs, .log, .host] s y2 := by
    unfold y2
    exact Moves.step hy1 (raiseFn_moves ..) rfl
  clear_value y2
  refine hasNext_onElem ?_
  refine Moves.ite ?_ ?_
  ·
    exact Moves.step hy2 (raiseFn_moves ..) rfl
  ·
    exact hy2

theorem execPerstAssert_moves (a0 a1 s) : MovesAll hasNext [.waiting, .out, .freeIx, .regs, .log, .cmd, .cfg, .boot, .power, .tbl, .host, .sto, .svc, .mbx] s (execPerstAssert a0 a1 s) := by
  unfold execPerstAssert
  extract_lets -merge -useContext -underBinder y0 y1
  clear_value y0
  have hy1 : Moves [.waiting, .out, .freeIx, .regs, .log, .cmd, .cfg, .boot, .power, .tbl, .host, .sto, .svc, .mbx] s y1 := by
    unfold y1
    exact Moves.step (m := [.power]) (Moves.refl _ s) (Moves.leaf (by intro x hx; cases x <;> first | rfl | exact absurd (by decide) hx) rfl rfl rfl rfl) rfl
  clear_value y1
  refine hasNext_onElem ?_
  exact Moves.step hy1 (linkReset_moves ..) rfl

theorem execPerstDeassert_moves (a0 a1 s) : MovesAll hasNext [.power] s (execPerstDeassert a0 a1 s) := by
  unfold execPerstDeassert
  extract_lets -merge -useContext -underBinder y0
  clear_value y0
  refine hasNext_onElem ?_
  exact Moves.step (m := [.power]) (Moves.refl _ s) (Moves.leaf (by intro x hx; cases x <;> first | rfl | exact absurd (by decide) hx) rfl rfl rfl rfl) rfl

theorem execHotReset_moves (a0 a1 s) : MovesAll hasNext [.waiting, .out, .freeIx, .regs, .log, .cmd, .cfg, .boot, .tbl, .host, .sto, .svc, .mbx] s (execHotReset a0 a1 s) := by
  unfold execHotReset
  refine hasNext_onElem ?_
  exact Moves.step (Moves.refl _ s) (linkReset_moves ..) rfl

theorem execHostLinkLoss_moves (a0 a1 s) : MovesAll hasNext [.waiting, .out, .freeIx, .regs, .log, .cmd, .cfg, .boot, .tbl, .host, .sto, .svc, .mbx] s (execHostLinkLoss a0 a1 s) := by
  unfold execHostLinkLoss
  refine hasNext_onElem ?_
  exact Moves.step (Moves.refl _ s) (linkReset_moves ..) rfl

theorem execHostFatalError_moves (a0 a1 a2 s) : MovesAll hasNext [.waiting, .out, .freeIx, .regs, .log, .cmd, .cfg, .boot, .tbl, .host, .sto, .svc, .mbx] s (execHostFatalError a0 a1 a2 s) := by
  unfold execHostFatalError
  refine hasNext_onElem ?_
  refine Moves.step ?_ (linkReset_moves ..) rfl
  exact Moves.step (Moves.refl _ s) (reportAer_moves ..) rfl

theorem execL0pNarrow_moves (a0 a1 s) : MovesAll hasNext [.host] s (execL0pNarrow a0 a1 s) := by
  unfold execL0pNarrow
  refine hasNext_onElem ?_
  refine Moves.ite ?_ ?_
  ·
    exact Moves.step (Moves.refl _ s) (linkMod_moves ..) rfl
  ·
    exact (Moves.refl _ s)

theorem execL0pPartnerRequest_moves (a0 a1 a2 s) : MovesAll hasNext [.host] s (execL0pPartnerRequest a0 a1 a2 s) := by
  unfold execL0pPartnerRequest
  refine hasNext_onElem ?_
  refine Moves.ite ?_ ?_
  ·
    exact Moves.step (Moves.refl _ s) (linkMod_moves ..) rfl
  ·
    exact (Moves.refl _ s)

theorem execAspmL1Entry_moves (a0 a1 s) : MovesAll hasNext [.host] s (execAspmL1Entry a0 a1 s) := by
  unfold execAspmL1Entry
  refine hasNext_onElem ?_
  refine Moves.ite ?_ ?_
  ·
    exact Moves.step (Moves.refl _ s) (linkMod_moves ..) rfl
  ·
    exact (Moves.refl _ s)

theorem execPowerStateChange_moves (a0 a1 s) : MovesAll hasNext [.out, .regs, .log, .host] s (execPowerStateChange a0 a1 s) := by
  unfold execPowerStateChange
  extract_lets -merge -useContext -underBinder y0
  have hy0 : Moves [.out, .regs, .log, .host] s y0 := by
    unfold y0
    exact Moves.step (Moves.refl _ s) (funcMod_moves ..) rfl
  clear_value y0
  refine hasNext_onElem ?_
  refine Moves.ite ?_ ?_
  ·
    exact hy0
  ·
    refine Moves.step ?_ (serveLink_moves ..) rfl
    exact Moves.step hy0 (resumeIssue_moves ..) rfl

theorem vfActivate_moves (a0 s) : Moves [.host] s (vfActivate a0 s) := by
  unfold vfActivate
  extract_lets -merge -useContext -underBinder y0
  clear_value y0
  refine Moves.ite ?_ ?_
  ·
    exact Moves.step (Moves.refl _ s) (funcMod_moves ..) rfl
  ·
    exact (Moves.refl _ s)

theorem execBusMasterEnableClear_moves (a0 s) : MovesAll hasNext [.out, .regs, .log, .host] s (execBusMasterEnableClear a0 s) := by
  unfold execBusMasterEnableClear
  extract_lets -merge -useContext -underBinder y0 y1 y2 y3 y4 y5 y6
  clear_value y0
  clear_value y1
  clear_value y2
  have hy3 : Moves [.out, .regs, .log, .host] s y3 := by
    unfold y3
    refine Moves.foldl ?_ (fun t7 x8 ht7 => ?_)
    ·
      exact (Moves.refl _ s)
    ·
      exact Moves.step ht7 (chAbort_moves ..) rfl
  clear_value y3
  have hy4 : Moves [.out, .regs, .log, .host] s y4 := by
    unfold y4
    refine Moves.foldl ?_ (fun t9 x10 ht9 => ?_)
    ·
      exact hy3
    ·
      refine Moves.step ?_ (qpError_moves ..) rfl
      exact Moves.step ht9 (countQp_moves ..) rfl
  clear_value y4
  have hy5 : Moves [.out, .regs, .log, .host] s y5 := by
    unfold y5
    exact Moves.step hy4 (funcMod_moves ..) rfl
  clear_value y5
  have hy6 : Moves [.out, .regs, .log, .host] s y6 := by
    unfold y6
    refine Moves.ite ?_ ?_
    ·
      exact Moves.step hy5 (raiseFn_moves ..) rfl
    ·
      exact hy5
  clear_value y6
  refine hasNext_onElem ?_
  refine Moves.ite ?_ ?_
  ·
    exact Moves.step (Moves.refl _ s) (funcMod_moves ..) rfl
  ·
    exact Moves.step hy6 (serveLink_moves ..) rfl

theorem setBme_moves (a0 s) : Moves [.out, .regs, .log, .host] s (setBme a0 s) := by
  unfold setBme
  refine Moves.step ?_ (vfActivate_moves ..) rfl
  refine Moves.step ?_ (resumeIssue_moves ..) rfl
  exact Moves.step (Moves.refl _ s) (funcMod_moves ..) rfl

theorem execBusMasterEnableSet_moves (a0 s) : MovesAll hasNext [.out, .regs, .log, .host] s (execBusMasterEnableSet a0 s) := by
  unfold execBusMasterEnableSet
  refine hasNext_onElem ?_
  refine Moves.ite ?_ ?_
  ·
    exact Moves.step (Moves.refl _ s) (funcMod_moves ..) rfl
  ·
    exact Moves.step (Moves.refl _ s) (setBme_moves ..) rfl

theorem dropRead_moves (a0 a1 s) : Moves [.host] s (dropRead a0 a1 s) := by
  unfold dropRead
  exact Moves.step (Moves.refl _ s) (funcMod_moves ..) rfl

theorem readFailed_moves (a0 a1 a2 a3 a4 s) : Moves [.out, .regs, .log, .host] s (readFailed a0 a1 a2 a3 a4 s) := by
  unfold readFailed
  split
  ·
    exact Moves.step (Moves.refl _ s) (chAbort_moves ..) rfl
  ·
    extract_lets -merge -useContext -underBinder y0 y1 y2
    clear_value y0
    have hy1 : Moves [.out, .regs, .log, .host] s y1 := by
      unfold y1
      exact Moves.step (Moves.refl _ s) (countQp_moves ..) rfl
    clear_value y1
    have hy2 : Moves [.out, .regs, .log, .host] s y2 := by
      unfold y2
      exact Moves.step hy1 (writeCompletion_moves ..) rfl
    clear_value y2
    refine Moves.step ?_ (qpSignal_moves ..) rfl
    exact Moves.step hy2 (qpError_moves ..) rfl
  ·
    refine Moves.step ?_ (qpError_moves ..) rfl
    exact Moves.step (Moves.refl _ s) (countQp_moves ..) rfl
  ·
    exact Moves.step (Moves.refl _ s) (cqError_moves ..) rfl
  ·
    exact (Moves.refl _ s)

theorem execCompletionTimeout_moves (a0 a1 s) : MovesAll hasNext [.out, .freeIx, .regs, .log, .host] s (execCompletionTimeout a0 a1 s) := by
  unfold execCompletionTimeout
  refine hasNext_next ?_
  split
  ·
    exact (Moves.refl _ s)
  ·
    extract_lets -merge -useContext -underBinder y0 y1
    have hy0 : Moves [.out, .freeIx, .regs, .log, .host] s y0 := by
      unfold y0
      exact Moves.step (Moves.refl _ s) (dropRead_moves ..) rfl
    clear_value y0
    have hy1 : Moves [.out, .freeIx, .regs, .log, .host] s y1 := by
      unfold y1
      refine Moves.ite ?_ ?_
      ·
        exact hy0
      ·
        refine Moves.step ?_ (reportAer_moves ..) rfl
        refine Moves.step ?_ (raiseFn_moves ..) rfl
        exact Moves.step hy0 (readFailed_moves ..) rfl
    clear_value y1
    exact Moves.step hy1 (serveLink_moves ..) rfl

theorem readDone_moves (a0 a1 a2 a3 s) : Moves [.out, .freeIx, .regs, .log, .host] s (readDone a0 a1 a2 a3 s) := by
  unfold readDone
  refine Moves.ite ?_ ?_
  ·
    refine Moves.step ?_ (reportAer_moves ..) rfl
    exact Moves.step (Moves.refl _ s) (readFailed_moves ..) rfl
  ·
    split
    ·
      exact Moves.step (Moves.refl _ s) (dmaMod_moves ..) rfl
    ·
      exact (Moves.refl _ s)

theorem execHostCompletionReceived_moves (a0 a1 a2 a3 s) : MovesAll hasNext [.out, .freeIx, .regs, .log, .host] s (execHostCompletionReceived a0 a1 a2 a3 s) := by
  unfold execHostCompletionReceived
  refine hasNext_onElem ?_
  split
  ·
    exact Moves.step (Moves.refl _ s) (reportAdvisory_moves ..) rfl
  ·
    extract_lets -merge -useContext -underBinder y0
    have hy0 : Moves [.out, .freeIx, .regs, .log, .host] s y0 := by
      unfold y0
      exact Moves.step (Moves.refl _ s) (dropRead_moves ..) rfl
    clear_value y0
    refine Moves.step ?_ (serveLink_moves ..) rfl
    refine Moves.ite ?_ ?_
    ·
      exact hy0
    ·
      exact Moves.step hy0 (readDone_moves ..) rfl

theorem complete_moves (a0 a1 a2 s) : Moves [.out, .host] s (complete a0 a1 a2 s) := by
  unfold complete
  exact Moves.step (Moves.refl _ s) (toHost_moves ..) rfl

theorem unsupported_moves (a0 a1 s) : Moves [.out, .freeIx, .host] s (unsupported a0 a1 s) := by
  unfold unsupported
  refine Moves.ite ?_ ?_
  ·
    exact Moves.step (Moves.refl _ s) (reportAdvisory_moves ..) rfl
  ·
    exact Moves.step (Moves.refl _ s) (complete_moves ..) rfl

theorem execBar0UnsupportedAccess_moves (a0 a1 s) : MovesAll hasNext [.out, .freeIx, .host] s (execBar0UnsupportedAccess a0 a1 s) := by
  unfold execBar0UnsupportedAccess
  refine hasNext_onElem ?_
  exact Moves.step (Moves.refl _ s) (unsupported_moves ..) rfl

theorem execPfIntxCauseRead_moves (a0 s) : MovesAll hasNext [.out, .host] s (execPfIntxCauseRead a0 s) := by
  unfold execPfIntxCauseRead
  extract_lets -merge -useContext -underBinder y0 y1
  clear_value y0
  have hy1 : Moves [.out, .host] s y1 := by
    unfold y1
    refine Moves.step ?_ (emit_moves ..) rfl
    exact Moves.step (Moves.refl _ s) (funcMod_moves ..) rfl
  clear_value y1
  refine hasNext_onElem ?_
  refine Moves.ite ?_ ?_
  ·
    exact Moves.step hy1 (toHost_moves ..) rfl
  ·
    exact hy1

theorem execWinCommit_moves (a0 a1 s) : MovesAll hasNext [.host] s (execWinCommit a0 a1 s) := by
  unfold execWinCommit
  extract_lets -merge -useContext -underBinder y0 y1
  clear_value y0
  clear_value y1
  refine hasNext_onElem ?_
  refine Moves.ite ?_ ?_
  ·
    exact (Moves.refl _ s)
  ·
    split
    ·
      exact Moves.step (Moves.refl _ s) (funcMod_moves ..) rfl
    ·
      exact Moves.step (Moves.refl _ s) (funcMod_moves ..) rfl

theorem execWinCommitComplete_moves (a0 s) : MovesAll hasNext [.host] s (execWinCommitComplete a0 s) := by
  unfold execWinCommitComplete
  refine hasNext_onElem ?_
  exact Moves.step (Moves.refl _ s) (funcMod_moves ..) rfl

theorem secCount_moves (a0 a1 a2 s) : Moves [.cry] s (secCount a0 a1 a2 s) := by
  unfold secCount
  exact Moves.step (Moves.refl _ s) (mkaMod_moves ..) rfl

theorem pnUsed_moves (a0 a1 s) : Moves [.out, .freeIx, .regs, .log, .ports, .cry] s (pnUsed a0 a1 s) := by
  unfold pnUsed
  extract_lets -merge -useContext -underBinder y0 y1 y2
  clear_value y0
  have hy1 : Moves [.out, .freeIx, .regs, .log, .ports, .cry] s y1 := by
    unfold y1
    exact Moves.step (Moves.refl _ s) (mkaMod_moves ..) rfl
  clear_value y1
  have hy2 : Moves [.out, .freeIx, .regs, .log, .ports, .cry] s y2 := by
    unfold y2
    refine Moves.ite ?_ ?_
    ·
      refine Moves.ite ?_ ?_
      ·
        exact Moves.step hy1 (distributeSak_moves ..) rfl
      ·
        exact Moves.step hy1 (mkaSend_moves ..) rfl
    ·
      exact hy1
  clear_value y2
  refine Moves.ite ?_ ?_
  ·
    exact Moves.step hy2 (secureLost_moves ..) rfl
  ·
    exact hy2

theorem macFrame_moves (a0 a1 a2 s) : Moves [.out, .ports] s (macFrame a0 a1 a2 s) := by
  unfold macFrame
  refine Moves.ite ?_ ?_
  ·
    refine Moves.step ?_ (emit_moves ..) rfl
    refine Moves.step ?_ (countPort_moves ..) rfl
    exact Moves.step (Moves.refl _ s) (portMod_moves ..) rfl
  ·
    exact Moves.step (Moves.refl _ s) (macSend_moves ..) rfl

theorem secureSend_moves (a0 a1 a2 a3 s) : Moves [.out, .freeIx, .regs, .log, .ports, .cry] s (secureSend a0 a1 a2 a3 s) := by
  unfold secureSend
  extract_lets -merge -useContext -underBinder y0 y1 y2 y3 y4
  clear_value y0
  clear_value y1
  clear_value y2
  clear_value y3
  have hy4 : Moves [.out, .freeIx, .regs, .log, .ports, .cry] s y4 := by
    unfold y4
    refine Moves.ite ?_ ?_
    ·
      refine Moves.step ?_ (secCount_moves ..) rfl
      exact Moves.step (Moves.refl _ s) (secCount_moves ..) rfl
    ·
      refine Moves.step ?_ (secCount_moves ..) rfl
      exact Moves.step (Moves.refl _ s) (secCount_moves ..) rfl
  clear_value y4
  refine Moves.ite ?_ ?_
  ·
    refine Moves.ite ?_ ?_
    ·
      exact Moves.step (Moves.refl _ s) (macFrame_moves ..) rfl
    ·
      exact (Moves.refl _ s)
  ·
    refine Moves.ite ?_ ?_
    ·
      exact Moves.step (Moves.refl _ s) (secCount_moves ..) rfl
    ·
      refine Moves.ite ?_ ?_
      ·
        exact Moves.step (Moves.refl _ s) (countPort_moves ..) rfl
      ·
        refine Moves.ite ?_ ?_
        ·
          exact Moves.step (Moves.refl _ s) (secCount_moves ..) rfl
        ·
          refine Moves.step ?_ (pnUsed_moves ..) rfl
          exact Moves.step hy4 (macFrame_moves ..) rfl

theorem sakFault_moves (a0 s) : Moves [.regs, .log, .ports, .cry] s (sakFault a0 s) := by
  unfold sakFault
  refine Moves.step ?_ (raise_moves ..) rfl
  refine Moves.step ?_ (mkaMod_moves ..) rfl
  exact Moves.step (Moves.refl _ s) (secureLost_moves ..) rfl

theorem secUnlessStrict_moves (p a b enc clear s) : MovesAll hasSecEnd [.cry] s (secUnlessStrict p a b enc clear s) := by
  unfold secUnlessStrict
  exact MovesAll.ite (hasSecEnd_drop (secCount_moves ..)) (hasSecEnd_pass (secCount_moves ..))

theorem secReceive_moves (p b ok x s) : MovesAll hasSecEnd [.cry] s (secReceive p b ok x s) := by
  unfold secReceive
  extract_lets -merge -useContext -underBinder m tci sl low sc hl enc user clear ch
  refine MovesAll.ite ?_ ?_
  · exact MovesAll.ite (hasSecEnd_drop (secCount_moves ..)) (hasSecEnd_pass (secCount_moves ..))
  refine MovesAll.ite ?_ ?_
  · exact hasSecEnd_drop (secCount_moves ..)
  clear_value ch
  split
  · exact secUnlessStrict_moves _ _ _ _ _ _
  · extract_lets -merge -useContext -underBinder k
    split
    · exact secUnlessStrict_moves _ _ _ _ _ _
    · extract_lets -merge -useContext -underBinder pn z
      refine MovesAll.ite (secUnlessStrict_moves _ _ _ _ _ _) ?_
      refine MovesAll.ite (hasSecEnd_drop (secCount_moves ..)) ?_
      refine MovesAll.ite (hasSecEnd_pass (secCount_moves ..)) ?_
      refine MovesAll.ite (secUnlessStrict_moves _ _ _ _ _ _) (hasSecEnd_pass ?_)
      exact Moves.step (Moves.step (Moves.step (Moves.refl _ s) (mkaMod_moves ..) rfl) (secCount_moves ..) rfl) (secCount_moves ..) rfl

theorem lacpSend_moves (a0 s) : Moves [.out, .freeIx, .regs, .log, .ports, .cry] s (lacpSend a0 s) := by
  unfold lacpSend
  split
  ·
    exact Moves.step (Moves.refl _ s) (secureSend_moves ..) rfl
  ·
    exact (Moves.refl _ s)

theorem lacpStart_moves (a0 a1 s) : Moves [.out, .freeIx, .regs, .log, .ports, .cry] s (lacpStart a0 a1 s) := by
  unfold lacpStart
  refine Moves.ite ?_ ?_
  ·
    exact Moves.step (Moves.refl _ s) (lacpSend_moves ..) rfl
  ·
    exact (Moves.refl _ s)

theorem execLockHoldExpiry_moves (a0 s) : MovesAll hasNext [.out, .freeIx, .regs, .log, .ports, .tbl, .cry] s (execLockHoldExpiry a0 s) := by
  unfold execLockHoldExpiry
  extract_lets -merge -useContext -underBinder y0
  clear_value y0
  refine hasNext_onPort ?_ ?_
  ·
    exact (Moves.refl _ s)
  ·
    refine Moves.ite ?_ ?_
    ·
      refine Moves.step ?_ (lacpStart_moves ..) rfl
      exact Moves.step (Moves.refl _ s) (linkUp_moves ..) rfl
    ·
      exact (Moves.refl _ s)

theorem execMkpduReceived_moves (a0 a1 a2 s) : MovesAll hasNext [.out, .freeIx, .regs, .log, .ports, .cry] s (execMkpduReceived a0 a1 a2 s) := by
  unfold execMkpduReceived
  extract_lets -merge -useContext -underBinder y0 y1
  clear_value y0
  have hy1 : Moves [.out, .freeIx, .regs, .log, .ports, .cry] s y1 := by
    unfold y1
    exact Moves.step (Moves.refl _ s) (mkaMod_moves ..) rfl
  clear_value y1
  refine hasNext_onPort (Moves.refl _ s) (Moves.ite (Moves.refl _ s) (Moves.ite ?_ (Moves.ite ?_ hy1)))
  · exact Moves.step hy1 (mkaMod_moves ..) rfl
  · refine Moves.step ?_ (lacpStart_moves ..) rfl
    exact Moves.step (m := [.out, .freeIx, .regs, .log, .ports, .cry]) hy1 (withCak_moves fun t => Moves.step (Moves.refl _ t) (mkpduApply_moves ..) rfl) rfl

theorem twinMod_moves (a0 s) : Moves [.twin] s (twinMod a0 s) := by
  unfold twinMod
  exact Moves.step (m := [.twin]) (Moves.refl _ s) (Moves.leaf (by intro x hx; cases x <;> first | rfl | exact absurd (by decide) hx) rfl rfl rfl rfl) rfl

theorem lacpAll_moves (s) : Moves [.out, .freeIx, .regs, .log, .ports, .tbl, .cry] s (lacpAll s) := by
  unfold lacpAll
  refine Moves.step ?_ (refillGroups_moves ..) rfl
  refine Moves.foldl ?_ (fun t0 x1 ht0 => ?_)
  ·
    exact (Moves.refl _ s)
  ·
    refine Moves.ite ?_ ?_
    ·
      exact Moves.step ht0 (lacpSend_moves ..) rfl
    ·
      exact ht0

theorem setTwin_moves (a0 a1 s) : Moves [.out, .freeIx, .regs, .log, .twin, .ports, .tbl, .cry] s (setTwin a0 a1 s) := by
  unfold setTwin
  extract_lets -merge -useContext -underBinder y0 y1
  clear_value y0
  have hy1 : Moves [.out, .freeIx, .regs, .log, .twin, .ports, .tbl, .cry] s y1 := by
    unfold y1
    exact Moves.step (Moves.refl _ s) (twinMod_moves ..) rfl
  clear_value y1
  refine Moves.step ?_ (lacpAll_moves ..) rfl
  exact Moves.step hy1 (raise_moves ..) rfl

theorem cryMod_moves (a0 s) : Moves [.cry] s (cryMod a0 s) := by
  unfold cryMod
  exact Moves.step (m := [.cry]) (Moves.refl _ s) (Moves.leaf (by intro x hx; cases x <;> first | rfl | exact absurd (by decide) hx) rfl rfl rfl rfl) rfl

theorem useKek_moves (a0 s) : MovesAll hasSnd [.freeIx, .regs, .log, .cry] s (useKek a0 s) := by
  unfold useKek
  split
  ·
    refine hasSnd_mk ?_
    exact (Moves.refl _ s)
  ·
    refine MovesAll.ite ?_ ?_
    ·
      refine hasSnd_mk ?_
      exact (Moves.refl _ s)
    ·
      refine MovesAll.ite ?_ ?_
      ·
        refine hasSnd_mk ?_
        exact Moves.step (m := [.freeIx]) (Moves.refl _ s) (Moves.leafFree (by intro x hx; cases x <;> first | rfl | exact absurd (by decide) hx) rfl rfl (Nat.le_add_right _ _) rfl) rfl
      ·
        refine hasSnd_mk ?_
        refine Moves.step ?_ (raise_moves ..) rfl
        refine Moves.step ?_ (cryMod_moves ..) rfl
        exact Moves.step (m := [.freeIx]) (Moves.refl _ s) (Moves.leafFree (by intro x hx; cases x <;> first | rfl | exact absurd (by decide) hx) rfl rfl (Nat.le_add_right _ _) rfl) rfl

theorem witnessSend_moves (a0 s) : Moves [.out, .freeIx, .regs, .log, .twin, .cry] s (witnessSend a0 s) := by
  unfold witnessSend
  extract_lets -merge -useContext -underBinder y0 y1
  clear_value y0
  clear_value y1
  split
  ·
    rename_i v2 v3 e4
    have hv3 : Moves [.out, .freeIx, .regs, .log, .twin, .cry] s v3 := by
      refine MovesAll.of_eq (has := hasSnd) e4 rfl ?_
      refine MovesAll.step ?_ (useKek_moves _ _) rfl
      exact Moves.step (Moves.refl _ s) (twinMod_moves ..) rfl
    split
    ·
      exact Moves.step hv3 (emitAll_moves ..) rfl
    ·
      refine Moves.ite ?_ ?_
      ·
        exact hv3
      ·
        exact Moves.step hv3 (emitAll_moves ..) rfl

theorem enterSuspect_moves (s) : Moves [.out, .freeIx, .regs, .log, .twin, .ports, .tbl, .cry] s (enterSuspect s) := by
  unfold enterSuspect
  refine Moves.step ?_ (witnessSend_moves ..) rfl
  refine Moves.step ?_ (setTwin_moves ..) rfl
  refine Moves.step ?_ (countTwin_moves ..) rfl
  exact Moves.step (Moves.refl _ s) (twinMod_moves ..) rfl

theorem jointTwinLost_moves (s) : Moves [.out, .regs, .log, .cmd, .host, .svc] s (jointTwinLost s) := by
  unfold jointTwinLost
  refine Moves.foldl ?_ (fun t0 x1 ht0 => ?_)
  ·
    exact (Moves.refl _ s)
  ·
    refine Moves.ite ?_ ?_
    ·
      refine Moves.step ?_ (sendReply_moves ..) rfl
      exact Moves.step ht0 (dropJoint_moves ..) rfl
    ·
      exact Moves.step ht0 (closeJoint_moves ..) rfl

theorem takeOverSas_moves (s) : Moves [.cry] s (takeOverSas s) := by
  unfold takeOverSas
  extract_lets -merge -useContext -underBinder y0
  clear_value y0
  exact Moves.step (m := [.cry]) (Moves.refl _ s) (Moves.leaf (by intro x hx; cases x <;> first | rfl | exact absurd (by decide) hx) rfl rfl rfl rfl) rfl

theorem undrainFabric_moves (s) : Moves [.cmd] s (undrainFabric s) := by
  unfold undrainFabric
  extract_lets -merge -useContext -underBinder y0 y1
  clear_value y0
  clear_value y1
  exact Moves.step (m := [.cmd]) (Moves.refl _ s) (Moves.leaf (by intro x hx; cases x <;> first | rfl | exact absurd (by decide) hx) rfl rfl rfl rfl) rfl

theorem pairSplit_moves (s) : Moves [.out, .freeIx, .regs, .log, .cmd, .cfg, .twin, .ports, .tbl, .buf, .cry, .flow, .host, .svc] s (pairSplit s) := by
  unfold pairSplit
  extract_lets -merge -useContext -underBinder y0 y1 y2 y3
  have hy0 : Moves [.out, .freeIx, .regs, .log, .cmd, .cfg, .twin, .ports, .tbl, .buf, .cry, .flow, .host, .svc] s y0 := by
    unfold y0
    refine Moves.ite ?_ ?_
    ·
      refine Moves.step ?_ (undrainFabric_moves ..) rfl
      exact Moves.step (Moves.refl _ s) (finishKey_moves ..) rfl
    ·
      exact (Moves.refl _ s)
  clear_value y0
  have hy1 : Moves [.out, .freeIx, .regs, .log, .cmd, .cfg, .twin, .ports, .tbl, .buf, .cry, .flow, .host, .svc] s y1 := by
    unfold y1
    exact Moves.step hy0 (twinMod_moves ..) rfl
  clear_value y1
  clear_value y2
  have hy3 : Moves [.out, .freeIx, .regs, .log, .cmd, .cfg, .twin, .ports, .tbl, .buf, .cry, .flow, .host, .svc] s y3 := by
    unfold y3
    exact Moves.step (m := [.flow]) hy1 (Moves.leaf (by intro x hx; cases x <;> first | rfl | exact absurd (by decide) hx) rfl rfl rfl rfl) rfl
  clear_value y3
  refine Moves.step ?_ (jointTwinLost_moves ..) rfl
  refine Moves.step ?_ (splitStage_moves ..) rfl
  exact Moves.step hy3 (fixTwinLost_moves ..) rfl

theorem enterSole_moves (a0 s) : Moves [.out, .freeIx, .regs, .log, .cmd, .cfg, .twin, .ports, .tbl, .buf, .cry, .flow, .host, .svc] s (enterSole a0 s) := by
  unfold enterSole
  extract_lets -merge -useContext -underBinder y0
  have hy0 : Moves [.out, .freeIx, .regs, .log, .cmd, .cfg, .twin, .ports, .tbl, .buf, .cry, .flow, .host, .svc] s y0 := by
    unfold y0
    refine Moves.ite ?_ ?_
    ·
      exact (Moves.refl _ s)
    ·
      exact Moves.step (Moves.refl _ s) (countTwin_moves ..) rfl
  clear_value y0
  refine Moves.step ?_ (takeOverSas_moves ..) rfl
  refine Moves.step ?_ (pairSplit_moves ..) rfl
  exact Moves.step hy0 (setTwin_moves ..) rfl

theorem enterFenced_moves (a0 s) : Moves [.out, .freeIx, .regs, .log, .cmd, .cfg, .twin, .ports, .tbl, .buf, .cry, .flow, .host, .svc] s (enterFenced a0 s) := by
  unfold enterFenced
  refine Moves.step ?_ (pairSplit_moves ..) rfl
  refine Moves.step ?_ (setTwin_moves ..) rfl
  exact Moves.step (Moves.refl _ s) (countTwin_moves ..) rfl

theorem twinLinkDown_moves (s) : Moves [.out, .freeIx, .regs, .log, .twin, .ports, .tbl, .cry, .flow] s (twinLinkDown s) := by
  unfold twinLinkDown
  extract_lets -merge -useContext -underBinder y0 y1 y2
  have hy0 : Moves [.out, .freeIx, .regs, .log, .twin, .ports, .tbl, .cry, .flow] s y0 := by
    unfold y0
    exact Moves.step (Moves.refl _ s) (twinMod_moves ..) rfl
  clear_value y0
  clear_value y1
  have hy2 : Moves [.out, .freeIx, .regs, .log, .twin, .ports, .tbl, .cry, .flow] s y2 := by
    unfold y2
    exact Moves.step (m := [.flow]) hy0 (Moves.leaf (by intro x hx; cases x <;> first | rfl | exact absurd (by decide) hx) rfl rfl rfl rfl) rfl
  clear_value y2
  refine Moves.ite ?_ ?_
  ·
    exact Moves.step hy2 (setTwin_moves ..) rfl
  ·
    exact hy2

theorem startHandover_moves (s) : Moves [.out, .freeIx, .regs, .log, .cmd, .twin, .ports, .tbl, .cry] s (startHandover s) := by
  unfold startHandover
  extract_lets -merge -useContext -underBinder y0 y1
  have hy0 : Moves [.out, .freeIx, .regs, .log, .cmd, .twin, .ports, .tbl, .cry] s y0 := by
    unfold y0
    refine Moves.step ?_ (sendTwin_moves ..) rfl
    exact Moves.step (Moves.refl _ s) (twinMod_moves ..) rfl
  clear_value y0
  clear_value y1
  refine Moves.step ?_ (lacpAll_moves ..) rfl
  exact Moves.step (m := [.cmd]) hy0 (Moves.leaf (by intro x hx; cases x <;> first | rfl | exact absurd (by decide) hx) rfl rfl rfl rfl) rfl

theorem memMod_moves (f s) (h : (f s.mem).cells = s.mem.cells) : Moves [.mem] s (memMod f s) :=
  ⟨by intro x hx; cases x <;> first | rfl | exact absurd (by decide) hx, fun hs => by unfold memOk memMod at *; rw [h]; exact hs,
    List.prefix_refl _, Nat.le_refl _, id, Nat.le_refl _⟩

theorem memChMod_moves (a0 a1 s) : Moves [.mem] s (memChMod a0 a1 s) := by
  unfold memChMod
  exact Moves.step (Moves.refl _ s) (memMod_moves _ _ rfl) rfl

theorem countMem_moves (a0 a1 a2 s) : Moves [.mem] s (countMem a0 a1 a2 s) := by
  unfold countMem
  exact Moves.step (Moves.refl _ s) (memChMod_moves ..) rfl

theorem renumberLog_moves (s) : Moves [.log] s (renumberLog s) := by
  unfold renumberLog
  extract_lets -merge -useContext -underBinder y0 y1 y2
  clear_value y0
  clear_value y1
  exact Moves.step (m := [.log]) (Moves.refl _ s) (Moves.leaf (by intro x hx; cases x <;> first | rfl | exact absurd (by decide) hx) rfl rfl rfl rfl) rfl

theorem zeroKept_moves (s) : Moves [.log, .svc, .mem] s (zeroKept s) := by
  unfold zeroKept
  extract_lets -merge -useContext -underBinder y0
  have hy0 : Moves [.log, .svc, .mem] s y0 := by
    unfold y0
    refine Moves.foldl ?_ (fun t1 x2 ht1 => ?_)
    ·
      exact (Moves.refl _ s)
    ·
      refine Moves.foldl ?_ (fun t3 x4 ht3 => ?_)
      ·
        exact ht1
      ·
        split
        ·
          refine Moves.ite ?_ ?_
          ·
            exact ht3
          ·
            exact Moves.step ht3 (memClear_moves ..) rfl
  clear_value y0
  refine Moves.step ?_ (memClear_moves ..) rfl
  exact Moves.step hy0 (renumberLog_moves ..) rfl

theorem execMemTrained_moves (a0 s) : MovesAll hasNext [.regs, .log, .power, .svc, .mem] s (execMemTrained a0 s) := by
  unfold execMemTrained
  extract_lets -merge -useContext -underBinder y0 y1 y2 y3 y4 y5 y6 y7 y8 y9 y10 y11 y12 y13
  clear_value y0
  clear_value y1
  clear_value y2
  clear_value y3
  clear_value y4
  clear_value y5
  clear_value y6
  have hy7 : Moves [.regs, .log, .power, .svc, .mem] s y7 := by
    unfold y7
    refine Moves.foldl ?_ (fun t14 x15 ht14 => ?_)
    ·
      exact (Moves.refl _ s)
    ·
      exact Moves.step ht14 (memChMod_moves ..) rfl
  clear_value y7
  have hy8 : Moves [.regs, .log, .power, .svc, .mem] s y8 := by
    unfold y8
    exact Moves.step hy7 (memMod_moves _ _ rfl) rfl
  clear_value y8
  have hy9 : Moves [.regs, .log, .power, .svc, .mem] s y9 := by
    unfold y9
    refine Moves.foldl ?_ (fun t16 x17 ht16 => ?_)
    ·
      exact hy8
    ·
      exact Moves.step ht16 (raise_moves ..) rfl
  clear_value y9
  have hy10 : Moves [.regs, .log, .power, .svc, .mem] s y10 := by
    unfold y10
    refine Moves.foldl ?_ (fun t18 x19 ht18 => ?_)
    ·
      exact hy9
    ·
      exact Moves.step ht18 (raise_moves ..) rfl
  clear_value y10
  clear_value y11
  clear_value y12
  have hy13 : Moves [.regs, .log, .power, .svc, .mem] s y13 := by
    unfold y13
    exact Moves.step (m := [.power]) hy10 (Moves.leaf (by intro x hx; cases x <;> first | rfl | exact absurd (by decide) hx) rfl rfl rfl rfl) rfl
  clear_value y13
  refine hasNext_next ?_
  refine Moves.ite ?_ ?_
  ·
    exact (Moves.refl _ s)
  ·
    refine Moves.ite ?_ ?_
    ·
      exact hy10
    ·
      refine Moves.step ?_ (logIntoDdr5_moves ..) rfl
      refine Moves.ite ?_ ?_
      ·
        exact hy13
      ·
        exact Moves.step hy13 (zeroKept_moves ..) rfl

theorem loseChannel_moves (a0 a1 s) : Moves [.waiting, .out, .freeIx, .regs, .log, .cmd, .cfg, .power, .twin, .ports, .tbl, .cry, .host, .sto, .svc, .mbx, .mem] s (loseChannel a0 a1 s) := by
  unfold loseChannel
  extract_lets -merge -useContext -underBinder y0 y1 y2 y3
  clear_value y0
  have hy1 : Moves [.waiting, .out, .freeIx, .regs, .log, .cmd, .cfg, .power, .twin, .ports, .tbl, .cry, .host, .sto, .svc, .mbx, .mem] s y1 := by
    unfold y1
    exact Moves.step (Moves.refl _ s) (memChMod_moves ..) rfl
  clear_value y1
  have hy2 : Moves [.waiting, .out, .freeIx, .regs, .log, .cmd, .cfg, .power, .twin, .ports, .tbl, .cry, .host, .sto, .svc, .mbx, .mem] s y2 := by
    unfold y2
    refine Moves.step ?_ (raise_moves ..) rfl
    exact Moves.step hy1 (toFlash_moves ..) rfl
  clear_value y2
  clear_value y3
  refine Moves.ite ?_ ?_
  ·
    exact (Moves.refl _ s)
  ·
    refine Moves.ite ?_ ?_
    ·
      refine Moves.step ?_ (startHandover_moves ..) rfl
      exact Moves.step (m := [.power]) hy2 (Moves.leaf (by intro x hx; cases x <;> first | rfl | exact absurd (by decide) hx) rfl rfl rfl rfl) rfl
    ·
      exact Moves.step hy2 (stopWindowBeds_moves ..) rfl

theorem memUe_moves (a0 a1 s) : Moves [.waiting, .out, .freeIx, .regs, .log, .cmd, .cfg, .power, .twin, .ports, .tbl, .cry, .host, .sto, .svc, .mbx, .mem] s (memUe a0 a1 s) := by
  unfold memUe
  extract_lets -merge -useContext -underBinder y0 y1 y2 y3 y4
  clear_value y0
  clear_value y1
  have hy2 : Moves [.waiting, .out, .freeIx, .regs, .log, .cmd, .cfg, .power, .twin, .ports, .tbl, .cry, .host, .sto, .svc, .mbx, .mem] s y2 := by
    unfold y2
    refine Moves.step ?_ (countMem_moves ..) rfl
    exact Moves.step (Moves.refl _ s) (memChMod_moves ..) rfl
  clear_value y2
  have hy3 : Moves [.waiting, .out, .freeIx, .regs, .log, .cmd, .cfg, .power, .twin, .ports, .tbl, .cry, .host, .sto, .svc, .mbx, .mem] s y3 := by
    unfold y3
    refine Moves.step ?_ (countMem_moves ..) rfl
    exact Moves.step hy2 (memMod_moves _ _ rfl) rfl
  clear_value y3
  have hy4 : Moves [.waiting, .out, .freeIx, .regs, .log, .cmd, .cfg, .power, .twin, .ports, .tbl, .cry, .host, .sto, .svc, .mbx, .mem] s y4 := by
    unfold y4
    refine Moves.ite ?_ ?_
    ·
      exact hy2
    ·
      exact Moves.step hy3 (raise_moves ..) rfl
  clear_value y4
  refine Moves.ite ?_ ?_
  ·
    exact Moves.step hy4 (loseChannel_moves ..) rfl
  ·
    exact hy4

theorem memCe_moves (a0 a1 a2 a3 s) : Moves [.regs, .log, .mem] s (memCe a0 a1 a2 a3 s) := by
  unfold memCe
  extract_lets -merge -useContext -underBinder y0 y1 y2 y3 y4 y5 y6 y7
  clear_value y0
  clear_value y1
  clear_value y2
  have hy3 : Moves [.regs, .log, .mem] s y3 := by
    unfold y3
    refine Moves.step ?_ (countMem_moves ..) rfl
    exact Moves.step (Moves.refl _ s) (memChMod_moves ..) rfl
  clear_value y3
  clear_value y4
  clear_value y5
  clear_value y6
  have hy7 : Moves [.regs, .log, .mem] s y7 := by
    unfold y7
    refine Moves.ite ?_ ?_
    ·
      refine Moves.step ?_ (raise_moves ..) rfl
      exact Moves.step hy3 (memChMod_moves ..) rfl
    ·
      exact hy3
  clear_value y7
  refine Moves.ite ?_ ?_
  ·
    refine Moves.step ?_ (raise_moves ..) rfl
    exact Moves.step hy7 (memChMod_moves ..) rfl
  ·
    exact hy7

theorem execPatrolScrubRead_moves (a0 a1 a2 a3 a4 a5 s) : MovesAll hasNext [.waiting, .out, .freeIx, .regs, .log, .cmd, .cfg, .power, .twin, .ports, .tbl, .cry, .host, .sto, .svc, .mbx, .mem] s (execPatrolScrubRead a0 a1 a2 a3 a4 a5 s) := by
  unfold execPatrolScrubRead
  extract_lets -merge -useContext -underBinder y0 y1 y2
  clear_value y0
  have hy1 : Moves [.waiting, .out, .freeIx, .regs, .log, .cmd, .cfg, .power, .twin, .ports, .tbl, .cry, .host, .sto, .svc, .mbx, .mem] s y1 := by
    unfold y1
    exact Moves.step (Moves.refl _ s) (countMem_moves ..) rfl
  clear_value y1
  have hy2 : Moves [.waiting, .out, .freeIx, .regs, .log, .cmd, .cfg, .power, .twin, .ports, .tbl, .cry, .host, .sto, .svc, .mbx, .mem] s y2 := by
    unfold y2
    refine Moves.ite ?_ ?_
    ·
      refine Moves.step ?_ (memCe_moves ..) rfl
      refine Moves.step ?_ (countMem_moves ..) rfl
      exact Moves.step hy1 (countMem_moves ..) rfl
    ·
      refine Moves.ite ?_ ?_
      ·
        exact Moves.step hy1 (memUe_moves ..) rfl
      ·
        exact hy1
  clear_value y2
  refine hasNext_next ?_
  refine Moves.ite ?_ ?_
  ·
    exact (Moves.refl _ s)
  ·
    refine Moves.ite ?_ ?_
    ·
      exact Moves.step hy2 (countMem_moves ..) rfl
    ·
      exact hy2

theorem execDimmThermalRead_moves (a0 a1 a2 s) : MovesAll hasNext [.regs, .log, .mem] s (execDimmThermalRead a0 a1 a2 s) := by
  unfold execDimmThermalRead
  extract_lets -merge -useContext -underBinder y0 y1 y2 y3
  clear_value y0
  clear_value y1
  clear_value y2
  have hy3 : Moves [.regs, .log, .mem] s y3 := by
    unfold y3
    exact Moves.step (Moves.refl _ s) (memChMod_moves ..) rfl
  clear_value y3
  refine hasNext_onElem ?_
  refine Moves.ite ?_ ?_
  ·
    exact Moves.step hy3 (raise_moves ..) rfl
  ·
    exact hy3

theorem execMemoryChannelFailure_moves (a0 a1 s) : MovesAll hasNext [.waiting, .out, .freeIx, .regs, .log, .cmd, .cfg, .power, .twin, .ports, .tbl, .cry, .host, .sto, .svc, .mbx, .mem] s (execMemoryChannelFailure a0 a1 s) := by
  unfold execMemoryChannelFailure
  refine hasNext_onElem ?_
  exact Moves.step (Moves.refl _ s) (loseChannel_moves ..) rfl

end Sys2Proof.Machine
end

