-- ==== Sys2Proof/Laws/Moves4.lean ====
section
/-! SUPPORT. What the operations of Machine/SpareOps, Test, Age, Cart may change: one lemma `<operation>_moves` per operation. -/

set_option Elab.async false

namespace Sys2Proof.Machine

theorem spareMod_moves (a0 s) : Moves [.spare] s (spareMod a0 s) := by
  unfold spareMod
  exact Moves.step (m := [.spare]) (Moves.refl _ s) (Moves.leaf (by intro x hx; cases x <;> first | rfl | exact absurd (by decide) hx) rfl rfl rfl rfl) rfl

theorem testMod_moves (a0 s) : Moves [.test] s (testMod a0 s) := by
  unfold testMod
  exact Moves.step (m := [.test]) (Moves.refl _ s) (Moves.leaf (by intro x hx; cases x <;> first | rfl | exact absurd (by decide) hx) rfl rfl rfl rfl) rfl

theorem setLedger_moves (a0 a1 a2 s) : Moves [.out, .spare] s (setLedger a0 a1 a2 s) := by
  unfold setLedger
  extract_lets -merge -useContext -underBinder y0 y1 y2 y3 y4
  clear_value y0
  clear_value y1
  clear_value y2
  clear_value y3
  have hy4 : Moves [.out, .spare] s y4 := by
    unfold y4
    exact Moves.step (Moves.refl _ s) (spareMod_moves ..) rfl
  clear_value y4
  refine Moves.ite ?_ ?_
  ·
    exact Moves.step hy4 (toFlash_moves ..) rfl
  ·
    exact hy4

theorem cloche_moves (a0 s) : Moves [.spare] s (cloche a0 s) := by
  unfold cloche
  exact Moves.step (Moves.refl _ s) (spareMod_moves ..) rfl

theorem uncloche_moves (a0 s) : Moves [.spare] s (uncloche a0 s) := by
  unfold uncloche
  exact Moves.step (Moves.refl _ s) (spareMod_moves ..) rfl

theorem retirePlace_moves (a0 s) : Moves [.spare] s (retirePlace a0 s) := by
  unfold retirePlace
  exact Moves.step (Moves.refl _ s) (spareMod_moves ..) rfl

theorem dropGraft_moves (a0 s) : Moves [.spare] s (dropGraft a0 s) := by
  unfold dropGraft
  exact Moves.step (Moves.refl _ s) (spareMod_moves ..) rfl

theorem loseInside_moves (a0 s) : Moves [.out, .ports, .tbl, .cry] s (loseInside a0 s) := by
  unfold loseInside
  extract_lets -merge -useContext -underBinder y0 y1 y2
  clear_value y0
  clear_value y1
  clear_value y2
  refine Moves.ite ?_ ?_
  ·
    exact (Moves.refl _ s)
  ·
    split
    ·
      exact (Moves.refl _ s)
    ·
      extract_lets -merge -useContext -underBinder y3
      clear_value y3
      refine Moves.step ?_ (releasePacket_moves ..) rfl
      refine Moves.step ?_ (countC_moves ..) rfl
      exact Moves.step (m := [.cry]) (Moves.refl _ s) (Moves.leaf (by intro x hx; cases x <;> first | rfl | exact absurd (by decide) hx) rfl rfl rfl rfl) rfl

theorem beginGraft_moves (a0 a1 a2 a3 s) : Moves [.out, .regs, .log, .spare, .ports, .tbl, .cry, .age] s (beginGraft a0 a1 a2 a3 s) := by
  unfold beginGraft
  extract_lets -merge -useContext -underBinder y0 y1
  clear_value y0
  have hy1 : Moves [.out, .regs, .log, .spare, .ports, .tbl, .cry, .age] s y1 := by
    unfold y1
    refine Moves.step ?_ (spareMod_moves ..) rfl
    refine Moves.ite ?_ ?_
    ·
      exact (Moves.refl _ s)
    ·
      exact Moves.step (Moves.refl _ s) (loseInside_moves ..) rfl
  clear_value y1
  refine Moves.ite ?_ ?_
  ·
    refine Moves.step ?_ (raise_moves ..) rfl
    exact Moves.step hy1 (ageMod_moves ..) rfl
  ·
    exact hy1

theorem dropExposure_moves (a0 s) : Moves [.test] s (dropExposure a0 s) := by
  unfold dropExposure
  exact Moves.step (Moves.refl _ s) (testMod_moves ..) rfl

theorem putExposure_moves (a0 s) : Moves [.test] s (putExposure a0 s) := by
  unfold putExposure
  exact Moves.step (Moves.refl _ s) (testMod_moves ..) rfl

theorem endRecord_moves (a0 a1 a2 s) : Moves [.out, .regs, .log, .cmd, .host, .svc, .test] s (endRecord a0 a1 a2 s) := by
  unfold endRecord
  extract_lets -merge -useContext -underBinder y0 y1 y2 y3 y4
  clear_value y0
  have hy1 : Moves [.out, .regs, .log, .cmd, .host, .svc, .test] s y1 := by
    unfold y1
    exact Moves.step (Moves.refl _ s) (testMod_moves ..) rfl
  clear_value y1
  clear_value y2
  have hy3 : Moves [.out, .regs, .log, .cmd, .host, .svc, .test] s y3 := by
    unfold y3
    refine Moves.ite ?_ ?_
    ·
      exact Moves.step hy1 (raise_moves ..) rfl
    ·
      refine Moves.ite ?_ ?_
      ·
        exact Moves.step hy1 (raise_moves ..) rfl
      ·
        exact hy1
  clear_value y3
  clear_value y4
  exact Moves.step hy3 (finishKey_moves ..) rfl

theorem cutRecord_moves (a0 s) : MovesAll hasSnd [.freeIx] s (cutRecord a0 s) := by
  unfold cutRecord
  extract_lets -merge -useContext -underBinder y0
  clear_value y0
  refine MovesAll.ite ?_ ?_
  ·
    split
    ·
      rename_i v1 v2 e3
      have hv2 : Moves [.freeIx] s v2 := by
        refine MovesAll.of_eq (has := hasSnd) e3 rfl ?_
        exact MovesAll.step (Moves.refl _ s) (drawFree_moves _) rfl
      refine hasSnd_mk ?_
      exact hv2
  ·
    refine hasSnd_mk ?_
    exact (Moves.refl _ s)

theorem retryLater_moves (a0 s) : Moves [.test] s (retryLater a0 s) := by
  unfold retryLater
  exact Moves.step (Moves.refl _ s) (testMod_moves ..) rfl

theorem cutExposure_moves (a0 a1 s) : Moves [.out, .freeIx, .regs, .log, .cmd, .host, .svc, .test] s (cutExposure a0 a1 s) := by
  unfold cutExposure
  extract_lets -merge -useContext -underBinder y0
  clear_value y0
  split
  ·
    rename_i v1 v2 e3
    have hv2 : Moves [.out, .freeIx, .regs, .log, .cmd, .host, .svc, .test] s v2 := by
      refine MovesAll.of_eq (has := hasSnd) e3 rfl ?_
      exact MovesAll.step (Moves.refl _ s) (cutRecord_moves _ _) rfl
    extract_lets -merge -useContext -underBinder y4
    have hy4 : Moves [.out, .freeIx, .regs, .log, .cmd, .host, .svc, .test] s y4 := by
      unfold y4
      refine Moves.step ?_ (endRecord_moves ..) rfl
      exact Moves.step hv2 (dropExposure_moves ..) rfl
    clear_value y4
    refine Moves.ite ?_ ?_
    ·
      exact hy4
    ·
      exact Moves.step hy4 (retryLater_moves ..) rfl

theorem startExposure_moves (a0 a1 a2 a3 a4 a5 s) : Moves [.test] s (startExposure a0 a1 a2 a3 a4 a5 s) := by
  unfold startExposure
  extract_lets -merge -useContext -underBinder y0
  clear_value y0
  refine Moves.ite ?_ ?_
  ·
    exact Moves.step (Moves.refl _ s) (testMod_moves ..) rfl
  ·
    exact Moves.step (Moves.refl _ s) (retryLater_moves ..) rfl

theorem ownExposure_moves (a0 s) : Moves [.test] s (ownExposure a0 s) := by
  unfold ownExposure
  exact Moves.step (Moves.refl _ s) (startExposure_moves ..) rfl

theorem preempt_moves (a0 s) : Moves [.out, .freeIx, .regs, .log, .cmd, .spare, .host, .svc, .test] s (preempt a0 s) := by
  unfold preempt
  extract_lets -merge -useContext -underBinder y0 y1
  clear_value y0
  have hy1 : Moves [.out, .freeIx, .regs, .log, .cmd, .spare, .host, .svc, .test] s y1 := by
    unfold y1
    split
    ·
      exact Moves.step (Moves.refl _ s) (cutExposure_moves ..) rfl
    ·
      exact (Moves.refl _ s)
  clear_value y1
  refine Moves.step ?_ (setLedger_moves ..) rfl
  refine Moves.step ?_ (uncloche_moves ..) rfl
  exact Moves.step hy1 (dropGraft_moves ..) rfl

theorem claimSuspect_moves (a0 a1 s) : MovesAll hasOpt [.out, .freeIx, .regs, .log, .cmd, .spare, .host, .svc, .test] s (claimSuspect a0 a1 s) := by
  unfold claimSuspect
  extract_lets -merge -useContext -underBinder y0 y1
  clear_value y0
  have hy1 : Moves [.out, .freeIx, .regs, .log, .cmd, .spare, .host, .svc, .test] s y1 := by
    unfold y1
    split
    ·
      exact Moves.step (Moves.refl _ s) (cutExposure_moves ..) rfl
    ·
      exact (Moves.refl _ s)
  clear_value y1
  refine MovesAll.ite ?_ ?_
  ·
    exact hasOpt_none
  ·
    refine MovesAll.ite ?_ ?_
    ·
      refine hasOpt_some ?_
      exact Moves.step hy1 (setLedger_moves ..) rfl
    ·
      refine MovesAll.ite ?_ ?_
      ·
        refine hasOpt_some ?_
        refine Moves.step ?_ (setLedger_moves ..) rfl
        exact Moves.step hy1 (preempt_moves ..) rfl
      ·
        exact hasOpt_none

theorem losePackets_moves (a0 s) : Moves [.out, .ports, .buf, .cry] s (losePackets a0 s) := by
  unfold losePackets
  refine Moves.foldl ?_ (fun t0 x1 ht0 => ?_)
  ·
    exact (Moves.refl _ s)
  ·
    extract_lets -merge -useContext -underBinder y2
    clear_value y2
    refine Moves.ite ?_ ?_
    ·
      exact ht0
    ·
      refine Moves.foldl ?_ (fun t3 x4 ht3 => ?_)
      ·
        exact Moves.step ht0 (queueSet_moves ..) rfl
      ·
        exact Moves.step ht3 (dropCopy_moves ..) rfl

theorem bankVictims_moves (a0 a1 a2 s) : MovesAll hasSnd [.freeIx] s (bankVictims a0 a1 a2 s) := by
  induction a2 generalizing s with
  | nil => exact hasSnd_mk (Moves.refl _ s)
  | cons c r ih =>
    unfold bankVictims
    refine MovesAll.ite ?_ (ih _)
    split
    rename_i v t e
    split
    rename_i ids u e'
    refine hasSnd_mk ?_
    exact Moves.step (drawFree_moves s t (by simp [hasSnd, e])) (ih t u (by simp [hasSnd, e'])) rfl

theorem loseCache_moves (a0 s) : Moves [.flow] s (loseCache a0 s) := by
  unfold loseCache
  extract_lets -merge -useContext -underBinder y0 y1
  clear_value y0
  clear_value y1
  exact Moves.step (m := [.flow]) (Moves.refl _ s) (Moves.leaf (by intro x hx; cases x <;> first | rfl | exact absurd (by decide) hx) rfl rfl rfl rfl) rfl

theorem loseCrypto_moves (a0 s) : Moves [.out, .ports, .tbl, .cry] s (loseCrypto a0 s) := by
  unfold loseCrypto
  extract_lets -merge -useContext -underBinder y0 y1 y2
  clear_value y0
  clear_value y1
  have hy2 : Moves [.out, .ports, .tbl, .cry] s y2 := by
    unfold y2
    exact Moves.step (m := [.cry]) (Moves.refl _ s) (Moves.leaf (by intro x hx; cases x <;> first | rfl | exact absurd (by decide) hx) rfl rfl rfl rfl) rfl
  clear_value y2
  refine Moves.step ?_ (countC_moves ..) rfl
  refine Moves.foldl ?_ (fun t3 x4 ht3 => ?_)
  ·
    exact hy2
  ·
    exact Moves.step ht3 (releasePacket_moves ..) rfl

theorem darkPorts_moves (a0 a1 s) : Moves [.ports, .tbl, .cry] s (darkPorts a0 a1 s) := by
  unfold darkPorts
  refine Moves.step ?_ (refillGroups_moves ..) rfl
  refine Moves.foldl ?_ (fun t0 x1 ht0 => ?_)
  ·
    exact (Moves.refl _ s)
  ·
    refine Moves.step ?_ (portMod_moves ..) rfl
    refine Moves.step ?_ (dropLink_moves ..) rfl
    exact Moves.step ht0 (mkaRestart_moves ..) rfl

theorem loseRegionState_moves (a0 s) : Moves [.out, .spare, .ports, .tbl, .buf, .cry, .flow, .test] s (loseRegionState a0 s) := by
  unfold loseRegionState
  extract_lets -merge -useContext -underBinder y0 y1 y2 y3 y4 y5 y6 y7 y8 y9
  clear_value y0
  clear_value y1
  clear_value y2
  clear_value y3
  clear_value y4
  have hy5 : Moves [.out, .spare, .ports, .tbl, .buf, .cry, .flow, .test] s y5 := by
    unfold y5
    exact Moves.step (m := [.tbl, .buf]) (Moves.refl _ s) (Moves.leaf (by intro x hx; cases x <;> first | rfl | exact absurd (by decide) hx) rfl rfl rfl rfl) rfl
  clear_value y5
  have hy6 : Moves [.out, .spare, .ports, .tbl, .buf, .cry, .flow, .test] s y6 := by
    unfold y6
    refine Moves.foldl ?_ (fun t10 x11 ht10 => ?_)
    ·
      exact hy5
    ·
      exact Moves.step ht10 (releasePacket_moves ..) rfl
  clear_value y6
  clear_value y7
  have hy8 : Moves [.out, .spare, .ports, .tbl, .buf, .cry, .flow, .test] s y8 := by
    unfold y8
    exact Moves.step hy6 (testMod_moves ..) rfl
  clear_value y8
  have hy9 : Moves [.out, .spare, .ports, .tbl, .buf, .cry, .flow, .test] s y9 := by
    unfold y9
    exact Moves.step hy8 (spareMod_moves ..) rfl
  clear_value y9
  refine Moves.step ?_ (loseCrypto_moves ..) rfl
  exact Moves.step hy9 (loseCache_moves ..) rfl

theorem markLost_moves (a0 s) : Moves [.spare] s (markLost a0 s) := by
  unfold markLost
  exact Moves.step (Moves.refl _ s) (spareMod_moves ..) rfl

theorem loseRegion_moves (a0 a1 s) : Moves [.waiting, .out, .freeIx, .regs, .log, .cmd, .cfg, .spare, .ports, .tbl, .buf, .cry, .flow, .host, .sto, .svc, .mbx, .mem, .test] s (loseRegion a0 a1 s) := by
  unfold loseRegion
  extract_lets -merge -useContext -underBinder y0 y1
  clear_value y0
  have hy1 : Moves [.waiting, .out, .freeIx, .regs, .log, .cmd, .cfg, .spare, .ports, .tbl, .buf, .cry, .flow, .host, .sto, .svc, .mbx, .mem, .test] s y1 := by
    unfold y1
    exact Moves.step (Moves.refl _ s) (markLost_moves ..) rfl
  clear_value y1
  refine Moves.ite ?_ ?_
  ·
    exact (Moves.refl _ s)
  ·
    split
    ·
      rename_i v2 v3 e4
      have hv3 : Moves [.waiting, .out, .freeIx, .regs, .log, .cmd, .cfg, .spare, .ports, .tbl, .buf, .cry, .flow, .host, .sto, .svc, .mbx, .mem, .test] s v3 := by
        refine MovesAll.of_eq (has := hasSnd) e4 rfl ?_
        exact MovesAll.step hy1 (bankVictims_moves _ _ _ _) rfl
      extract_lets -merge -useContext -underBinder y5
      have hy5 : Moves [.waiting, .out, .freeIx, .regs, .log, .cmd, .cfg, .spare, .ports, .tbl, .buf, .cry, .flow, .host, .sto, .svc, .mbx, .mem, .test] s y5 := by
        unfold y5
        refine Moves.step ?_ (noteFrees_moves ..) rfl
        refine Moves.step ?_ (loseRegionState_moves ..) rfl
        exact Moves.step hv3 (losePackets_moves ..) rfl
      clear_value y5
      refine Moves.step ?_ (retireIdle_moves ..) rfl
      refine Moves.step ?_ (stopLostBeds_moves ..) rfl
      exact Moves.step hy5 (darkPorts_moves ..) rfl

theorem loseDie_moves (a0 s) : Moves [.waiting, .out, .freeIx, .regs, .log, .cmd, .cfg, .spare, .ports, .tbl, .buf, .cry, .flow, .host, .sto, .svc, .mbx, .mem, .test] s (loseDie a0 s) := by
  unfold loseDie
  extract_lets -merge -useContext -underBinder y0 y1 y2 y3
  have hy0 : Moves [.waiting, .out, .freeIx, .regs, .log, .cmd, .cfg, .spare, .ports, .tbl, .buf, .cry, .flow, .host, .sto, .svc, .mbx, .mem, .test] s y0 := by
    unfold y0
    exact Moves.step (Moves.refl _ s) (markLost_moves ..) rfl
  clear_value y0
  clear_value y1
  have hy2 : Moves [.waiting, .out, .freeIx, .regs, .log, .cmd, .cfg, .spare, .ports, .tbl, .buf, .cry, .flow, .host, .sto, .svc, .mbx, .mem, .test] s y2 := by
    unfold y2
    exact Moves.step hy0 (losePackets_moves ..) rfl
  clear_value y2
  have hy3 : Moves [.waiting, .out, .freeIx, .regs, .log, .cmd, .cfg, .spare, .ports, .tbl, .buf, .cry, .flow, .host, .sto, .svc, .mbx, .mem, .test] s y3 := by
    unfold y3
    refine Moves.foldl ?_ (fun t4 x5 ht4 => ?_)
    ·
      exact hy2
    ·
      exact Moves.step ht4 (loseRegionState_moves ..) rfl
  clear_value y3
  refine Moves.step ?_ (retireIdle_moves ..) rfl
  refine Moves.step ?_ (stopLostBeds_moves ..) rfl
  exact Moves.step hy3 (darkPorts_moves ..) rfl

theorem losePackage_moves (s) : Moves [.boot, .twin, .spare, .ports, .tbl, .cry, .age, .test] s (losePackage s) := by
  unfold losePackage
  extract_lets -merge -useContext -underBinder t b u
  have ht : Moves [.boot, .twin, .spare, .ports, .tbl, .cry, .age, .test] s t := by
    unfold t
    refine Moves.step ?_ (testMod_moves ..) rfl
    refine Moves.step ?_ (markLost_moves ..) rfl
    exact Moves.step (Moves.refl _ s) (darkPorts_moves ..) rfl
  have hu : Moves [.boot, .twin, .spare, .ports, .tbl, .cry, .age, .test] s u := by
    refine Moves.step (m := [.boot]) ht ?_ rfl
    exact ⟨by intro x hx; cases x <;> first | rfl | exact absurd (by decide) hx, id, List.prefix_refl _, Nat.le_refl _, id, Nat.le_refl _⟩
  refine Moves.step ?_ (ageMod_moves ..) rfl
  exact Moves.step hu (twinMod_moves ..) rfl

theorem loseHostLink_moves (a0 s) : Moves [.waiting, .out, .freeIx, .regs, .log, .cmd, .cfg, .boot, .tbl, .host, .sto, .svc, .mbx] s (loseHostLink a0 s) := by
  unfold loseHostLink
  refine Moves.foldl ?_ (fun t0 x1 ht0 => ?_)
  ·
    exact (Moves.refl _ s)
  ·
    refine Moves.ite ?_ ?_
    ·
      refine Moves.step ?_ (linkReset_moves ..) rfl
      exact Moves.step ht0 (reportAer_moves ..) rfl
    ·
      exact ht0

theorem loseCluster_moves (a0 s) : Moves [.waiting, .out, .freeIx, .regs, .log, .cmd, .cfg, .boot, .power, .twin, .spare, .ports, .tbl, .buf, .cry, .flow, .host, .sto, .svc, .mbx, .mem, .age, .test] s (loseCluster a0 s) := by
  unfold loseCluster
  extract_lets -merge -useContext -underBinder y0 y1 y2
  clear_value y0
  clear_value y1
  have hy2 : Moves [.waiting, .out, .freeIx, .regs, .log, .cmd, .cfg, .boot, .power, .twin, .spare, .ports, .tbl, .buf, .cry, .flow, .host, .sto, .svc, .mbx, .mem, .age, .test] s y2 := by
    unfold y2
    exact Moves.step (Moves.refl _ s) (markLost_moves ..) rfl
  clear_value y2
  refine Moves.ite ?_ ?_
  ·
    refine Moves.ite ?_ ?_
    ·
      exact Moves.step hy2 (loseRegion_moves ..) rfl
    ·
      refine Moves.ite ?_ ?_
      ·
        exact Moves.step hy2 (loseCrypto_moves ..) rfl
      ·
        refine Moves.ite ?_ ?_
        ·
          refine Moves.ite ?_ ?_
          ·
            exact Moves.step hy2 (emit_moves ..) rfl
          ·
            exact Moves.step hy2 (loseRegion_moves ..) rfl
        ·
          exact Moves.step hy2 (stopLostBeds_moves ..) rfl
  ·
    refine Moves.ite ?_ ?_
    ·
      exact Moves.step hy2 (stopLostBeds_moves ..) rfl
    ·
      refine Moves.ite ?_ ?_
      ·
        exact Moves.step hy2 (loseHostLink_moves ..) rfl
      ·
        refine Moves.ite ?_ ?_
        ·
          refine Moves.foldl ?_ (fun t3 x4 ht3 => ?_)
          ·
            exact hy2
          ·
            exact Moves.step ht3 (loseChannel_moves ..) rfl
        ·
          refine Moves.ite ?_ ?_
          ·
            refine Moves.step ?_ (twinLinkDown_moves ..) rfl
            exact Moves.step hy2 (twinMod_moves ..) rfl
          ·
            exact Moves.step hy2 (losePackage_moves ..) rfl

theorem loseFlight_moves (a0 a1 s) : Moves [.out, .ports, .tbl, .buf, .cry] s (loseFlight a0 a1 s) := by
  induction a1 generalizing s with
  | zero => exact Moves.refl _ s
  | succ k ih =>
    unfold loseFlight
    extract_lets -merge -useContext -underBinder d next
    clear_value d next
    split
    · refine Moves.step ?_ (ih _) (all_self _)
      refine Moves.step ?_ (countA_moves ..) rfl
      refine Moves.step ?_ (dropCopy_moves ..) rfl
      exact Moves.step (Moves.refl _ s) (queueSet_moves ..) rfl
    · exact Moves.refl _ s

theorem loseQuarter_moves (a0 a1 s) : Moves [.waiting, .out, .freeIx, .regs, .log, .cmd, .cfg, .spare, .ports, .tbl, .buf, .cry, .flow, .host, .sto, .svc, .mbx, .mem, .test] s (loseQuarter a0 a1 s) := by
  unfold loseQuarter
  extract_lets -merge -useContext -underBinder y0
  have hy0 : Moves [.waiting, .out, .freeIx, .regs, .log, .cmd, .cfg, .spare, .ports, .tbl, .buf, .cry, .flow, .host, .sto, .svc, .mbx, .mem, .test] s y0 := by
    unfold y0
    refine Moves.step ?_ (retireIdle_moves ..) rfl
    refine Moves.step ?_ (loseFlight_moves ..) rfl
    exact Moves.step (Moves.refl _ s) (cloche_moves ..) rfl
  clear_value y0
  refine Moves.ite ?_ ?_
  ·
    exact Moves.step hy0 (loseDie_moves ..) rfl
  ·
    exact hy0

theorem claimAge_moves (a0 a1 s) : MovesAll hasOpt [.out, .regs, .log, .spare, .ports, .tbl, .cry, .age] s (claimAge a0 a1 s) := by
  unfold claimAge
  refine MovesAll.ite ?_ ?_
  ·
    refine hasOpt_some ?_
    refine Moves.step ?_ (beginGraft_moves ..) rfl
    exact Moves.step (Moves.refl _ s) (setLedger_moves ..) rfl
  ·
    exact hasOpt_none

theorem pruneWaits_moves (a0 s) : Moves [.regs, .log, .age] s (pruneWaits a0 s) := by
  unfold pruneWaits
  refine Moves.step ?_ (raise_moves ..) rfl
  exact Moves.step (Moves.refl _ s) (ageMod_moves ..) rfl

theorem claimOr_moves {r o s : State} (p q sp) (ho : Moves [.out, .regs, .log, .spare, .ports, .tbl, .cry, .age] r o) (hs : Moves [.out, .regs, .log, .spare, .ports, .tbl, .cry, .age] r s) :
    Moves [.out, .regs, .log, .spare, .ports, .tbl, .cry, .age] r (claimOr p q sp o s) := by
  unfold claimOr
  split
  · exact ho
  · split
    · rename_i v e
      exact MovesAll.of_eq (has := hasOpt) e rfl (MovesAll.step hs (claimAge_moves _ _ _) rfl)
    · exact Moves.ite (Moves.step hs (pruneWaits_moves ..) rfl) ho

theorem prune_moves (a0 s) : Moves [.out, .regs, .log, .spare, .ports, .tbl, .cry, .age] s (prune a0 s) := by
  unfold prune
  extract_lets -merge -useContext -underBinder y0
  have hy0 : Moves [.out, .regs, .log, .spare, .ports, .tbl, .cry, .age] s y0 := Moves.step (Moves.refl _ s) (ageMod_moves ..) rfl
  exact claimOr_moves _ _ _ (claimOr_moves _ _ _ (Moves.step hy0 (raise_moves ..) rfl) hy0) hy0

theorem takePrune_moves (p x) : MovesAll hasSnd [.out, .regs, .log, .spare, .ports, .tbl, .cry, .age] x.2 (takePrune p x) := by
  unfold takePrune
  split
  rename_i taken s
  have hw : ∀ f, MovesAll hasSnd [.out, .regs, .log, .spare, .ports, .tbl, .cry, .age] s (taken, ageMod f s) := fun f =>
    hasSnd_mk (Moves.step (Moves.refl _ s) (ageMod_moves ..) rfl)
  refine MovesAll.ite (hw _) (MovesAll.ite (hasSnd_mk (Moves.refl _ s)) (MovesAll.ite (hw _) ?_))
  exact hasSnd_mk (Moves.step (Moves.refl _ s) (prune_moves ..) rfl)

theorem pruneWaiting_moves (s) : Moves [.out, .regs, .log, .spare, .ports, .tbl, .cry, .age] s (pruneWaiting s) :=
  MovesAll.foldlSnd (Moves.refl _ s) fun x p h => Moves.step h (takePrune_moves p x).get_snd rfl

theorem unclocheAll_moves (a0 s) : Moves [.spare] s (unclocheAll a0 s) := by
  unfold unclocheAll
  extract_lets -merge -useContext -underBinder y0
  clear_value y0
  exact Moves.step (Moves.refl _ s) (spareMod_moves ..) rfl

theorem graftEnds_moves (a0 s) : Moves [.out, .regs, .log, .cmd, .spare, .ports, .tbl, .cry, .host, .svc, .age, .test] s (graftEnds a0 s) := by
  unfold graftEnds
  split
  ·
    exact (Moves.refl _ s)
  ·
    extract_lets -merge -useContext -underBinder y0 y1 y2 y3 y4 y5 y6 y7
    have hy0 : Moves [.out, .regs, .log, .cmd, .spare, .ports, .tbl, .cry, .host, .svc, .age, .test] s y0 := by
      unfold y0
      exact Moves.step (Moves.refl _ s) (dropGraft_moves ..) rfl
    clear_value y0
    clear_value y1
    have hy2 : Moves [.out, .regs, .log, .cmd, .spare, .ports, .tbl, .cry, .host, .svc, .age, .test] s y2 := by
      unfold y2
      exact Moves.step hy0 (traceFreeze_moves ..) rfl
    clear_value y2
    have hy4 : Moves [.out, .regs, .log, .cmd, .spare, .ports, .tbl, .cry, .host, .svc, .age, .test] s y4 := by
      unfold y4
      refine Moves.ite ?_ ?_
      ·
        exact Moves.step (m := [.log]) hy2 (Moves.leaf (by intro x hx; cases x <;> first | rfl | exact absurd (by decide) hx) rfl rfl rfl rfl) rfl
      ·
        exact hy0
    clear_value y4
    have hy5 : Moves [.out, .regs, .log, .cmd, .spare, .ports, .tbl, .cry, .host, .svc, .age, .test] s y5 := by
      unfold y5
      refine Moves.ite ?_ ?_
      ·
        exact Moves.step hy4 (ageMod_moves ..) rfl
      ·
        exact hy4
    clear_value y5
    have hy6 : Moves [.out, .regs, .log, .cmd, .spare, .ports, .tbl, .cry, .host, .svc, .age, .test] s y6 := by
      unfold y6
      refine Moves.step ?_ (setLedger_moves ..) rfl
      exact Moves.step hy5 (unclocheAll_moves ..) rfl
    clear_value y6
    have hy7 : Moves [.out, .regs, .log, .cmd, .spare, .ports, .tbl, .cry, .host, .svc, .age, .test] s y7 := by
      unfold y7
      split
      ·
        split
        ·
          refine Moves.step ?_ (endRecord_moves ..) rfl
          exact Moves.step hy6 (dropExposure_moves ..) rfl
        ·
          exact Moves.step hy6 (dropExposure_moves ..) rfl
      ·
        exact hy6
    clear_value y7
    refine Moves.ite ?_ ?_
    ·
      exact Moves.step hy7 (pruneWaiting_moves ..) rfl
    ·
      split
      ·
        split
        ·
          exact Moves.step hy5 (putExposure_moves ..) rfl
        ·
          exact hy5
      ·
        exact Moves.step hy5 (startExposure_moves ..) rfl
      ·
        extract_lets -merge -useContext -underBinder y8
        have hy8 : Moves [.out, .regs, .log, .cmd, .spare, .ports, .tbl, .cry, .host, .svc, .age, .test] s y8 := by
          unfold y8
          exact Moves.step hy5 (ageMod_moves ..) rfl
        clear_value y8
        refine Moves.step ?_ (raise_moves ..) rfl
        exact Moves.step hy8 (retirePlace_moves ..) rfl
      ·
        exact hy5

theorem graftDone_moves (a0 s) : Moves [.waiting, .out, .freeIx, .regs, .log, .cmd, .cfg, .spare, .ports, .tbl, .cry, .host, .sto, .svc, .mbx, .mem, .age, .test] s (graftDone a0 s) := by
  unfold graftDone
  refine Moves.step ?_ (resumeBeds_moves ..) rfl
  exact Moves.step (Moves.refl _ s) (graftEnds_moves ..) rfl

theorem escalate_moves (a0 s) : Moves [.waiting, .out, .freeIx, .regs, .log, .cmd, .cfg, .boot, .power, .twin, .spare, .ports, .tbl, .buf, .cry, .flow, .host, .sto, .svc, .mbx, .mem, .age, .test] s (escalate a0 s) := by
  unfold escalate
  split
  ·
    exact Moves.step (Moves.refl _ s) (loseCluster_moves ..) rfl
  ·
    split
    ·
      rename_i v0 e1
      have hv0 : Moves [.waiting, .out, .freeIx, .regs, .log, .cmd, .cfg, .boot, .power, .twin, .spare, .ports, .tbl, .buf, .cry, .flow, .host, .sto, .svc, .mbx, .mem, .age, .test] s v0 := by
        refine MovesAll.of_eq (has := hasOpt) e1 rfl ?_
        exact MovesAll.step (Moves.refl _ s) (claimSuspect_moves _ _ _) rfl
      refine Moves.step ?_ (beginGraft_moves ..) rfl
      exact Moves.step hv0 (cloche_moves ..) rfl
    ·
      exact Moves.step (Moves.refl _ s) (loseCluster_moves ..) rfl

theorem portDark_moves (a0 s) : Moves [.regs, .log, .ports, .tbl, .cry] s (portDark a0 s) := by
  unfold portDark
  split
  ·
    exact Moves.step (Moves.refl _ s) (linkDown_moves ..) rfl
  ·
    exact Moves.step (Moves.refl _ s) (startSearch_moves ..) rfl
  ·
    exact (Moves.refl _ s)

theorem engineFault_moves (a0 a1 s) : Moves [.regs, .log, .ports, .tbl, .cry, .cart] s (engineFault a0 a1 s) := by
  unfold engineFault
  extract_lets -merge -useContext -underBinder y0 y1
  have hy0 : Moves [.regs, .log, .ports, .tbl, .cry, .cart] s y0 := by
    unfold y0
    exact Moves.step (Moves.refl _ s) (cartMod_moves ..) rfl
  clear_value y0
  have hy1 : Moves [.regs, .log, .ports, .tbl, .cry, .cart] s y1 := by
    unfold y1
    exact Moves.step hy0 (raise_moves ..) rfl
  clear_value y1
  refine Moves.ite ?_ ?_
  ·
    exact (Moves.refl _ s)
  ·
    refine Moves.foldl ?_ (fun t2 x3 ht2 => ?_)
    ·
      exact hy1
    ·
      exact Moves.step ht2 (portDark_moves ..) rfl

theorem contain_moves (a0 s) : Moves [.waiting, .out, .freeIx, .regs, .log, .cmd, .cfg, .boot, .power, .twin, .spare, .ports, .tbl, .buf, .cry, .flow, .host, .sto, .svc, .mbx, .mem, .cart, .age, .test] s (contain a0 s) := by
  unfold contain
  extract_lets -merge -useContext -underBinder y0 y1
  clear_value y0
  clear_value y1
  refine Moves.ite ?_ ?_
  ·
    refine Moves.ite ?_ ?_
    ·
      exact Moves.step (Moves.refl _ s) (startExposure_moves ..) rfl
    ·
      refine Moves.ite ?_ ?_
      ·
        exact Moves.step (Moves.refl _ s) (loseQuarter_moves ..) rfl
      ·
        refine Moves.ite ?_ ?_
        ·
          exact Moves.step (Moves.refl _ s) (cloche_moves ..) rfl
        ·
          refine Moves.ite ?_ ?_
          ·
            refine Moves.step ?_ (engineFault_moves ..) rfl
            exact Moves.step (Moves.refl _ s) (cloche_moves ..) rfl
          ·
            refine Moves.step ?_ (loseCluster_moves ..) rfl
            exact Moves.step (Moves.refl _ s) (cloche_moves ..) rfl
  ·
    refine Moves.ite ?_ ?_
    ·
      refine Moves.step ?_ (escalate_moves ..) rfl
      exact Moves.step (Moves.refl _ s) (cloche_moves ..) rfl
    ·
      refine Moves.ite ?_ ?_
      ·
        refine Moves.step ?_ (loseChannel_moves ..) rfl
        exact Moves.step (Moves.refl _ s) (cloche_moves ..) rfl
      ·
        refine Moves.ite ?_ ?_
        ·
          refine Moves.step ?_ (loseDie_moves ..) rfl
          exact Moves.step (Moves.refl _ s) (cloche_moves ..) rfl
        ·
          refine Moves.step ?_ (loseCluster_moves ..) rfl
          exact Moves.step (Moves.refl _ s) (cloche_moves ..) rfl

theorem graftFails_moves (a0 s) : Moves [.waiting, .out, .freeIx, .regs, .log, .cmd, .cfg, .boot, .power, .twin, .spare, .ports, .tbl, .buf, .cry, .flow, .host, .sto, .svc, .mbx, .mem, .age, .test] s (graftFails a0 s) := by
  unfold graftFails
  split
  ·
    exact (Moves.refl _ s)
  ·
    extract_lets -merge -useContext -underBinder y0 y1 y2 y3 y4 y5 y6
    have hy0 : Moves [.waiting, .out, .freeIx, .regs, .log, .cmd, .cfg, .boot, .power, .twin, .spare, .ports, .tbl, .buf, .cry, .flow, .host, .sto, .svc, .mbx, .mem, .age, .test] s y0 := by
      unfold y0
      exact Moves.step (Moves.refl _ s) (dropGraft_moves ..) rfl
    clear_value y0
    clear_value y1
    have hy2 : Moves [.waiting, .out, .freeIx, .regs, .log, .cmd, .cfg, .boot, .power, .twin, .spare, .ports, .tbl, .buf, .cry, .flow, .host, .sto, .svc, .mbx, .mem, .age, .test] s y2 := by
      unfold y2
      split
      ·
        split
        ·
          refine Moves.step ?_ (endRecord_moves ..) rfl
          exact Moves.step hy0 (dropExposure_moves ..) rfl
        ·
          exact Moves.step hy0 (dropExposure_moves ..) rfl
      ·
        exact hy0
    clear_value y2
    clear_value y3
    have hy4 : Moves [.waiting, .out, .freeIx, .regs, .log, .cmd, .cfg, .boot, .power, .twin, .spare, .ports, .tbl, .buf, .cry, .flow, .host, .sto, .svc, .mbx, .mem, .age, .test] s y4 := by
      unfold y4
      split
      ·
        exact Moves.step hy0 (cutExposure_moves ..) rfl
      ·
        exact hy0
    clear_value y4
    have hy5 : Moves [.waiting, .out, .freeIx, .regs, .log, .cmd, .cfg, .boot, .power, .twin, .spare, .ports, .tbl, .buf, .cry, .flow, .host, .sto, .svc, .mbx, .mem, .age, .test] s y5 := by
      unfold y5
      refine Moves.step ?_ (ownExposure_moves ..) rfl
      refine Moves.step ?_ (cloche_moves ..) rfl
      exact Moves.step hy4 (setLedger_moves ..) rfl
    clear_value y5
    have hy6 : Moves [.waiting, .out, .freeIx, .regs, .log, .cmd, .cfg, .boot, .power, .twin, .spare, .ports, .tbl, .buf, .cry, .flow, .host, .sto, .svc, .mbx, .mem, .age, .test] s y6 := by
      unfold y6
      refine Moves.ite ?_ ?_
      ·
        exact Moves.step hy5 (ageMod_moves ..) rfl
      ·
        exact hy5
    clear_value y6
    refine Moves.ite ?_ ?_
    ·
      refine Moves.step ?_ (startExposure_moves ..) rfl
      refine Moves.step ?_ (cloche_moves ..) rfl
      exact Moves.step hy2 (setLedger_moves ..) rfl
    ·
      refine Moves.ite ?_ ?_
      ·
        refine Moves.ite ?_ ?_
        ·
          exact hy6
        ·
          exact Moves.step hy6 (uncloche_moves ..) rfl
      ·
        refine Moves.ite ?_ ?_
        ·
          exact Moves.step hy5 (loseCluster_moves ..) rfl
        ·
          exact Moves.step hy5 (escalate_moves ..) rfl

theorem spareFaults_moves (a0 s) : Moves [.waiting, .out, .freeIx, .regs, .log, .cmd, .cfg, .boot, .power, .twin, .spare, .ports, .tbl, .buf, .cry, .flow, .host, .sto, .svc, .mbx, .mem, .age, .test] s (spareFaults a0 s) := by
  unfold spareFaults
  split
  ·
    refine Moves.ite ?_ ?_
    ·
      refine Moves.step ?_ (ownExposure_moves ..) rfl
      refine Moves.step ?_ (graftDone_moves ..) rfl
      exact Moves.step (Moves.refl _ s) (cloche_moves ..) rfl
    ·
      exact Moves.step (Moves.refl _ s) (graftFails_moves ..) rfl
  ·
    extract_lets -merge -useContext -underBinder y0
    clear_value y0
    split
    ·
      extract_lets -merge -useContext -underBinder y1
      have hy1 : Moves [.waiting, .out, .freeIx, .regs, .log, .cmd, .cfg, .boot, .power, .twin, .spare, .ports, .tbl, .buf, .cry, .flow, .host, .sto, .svc, .mbx, .mem, .age, .test] s y1 := by
        unfold y1
        split
        ·
          exact Moves.step (Moves.refl _ s) (cutExposure_moves ..) rfl
        ·
          exact (Moves.refl _ s)
      clear_value y1
      refine Moves.step ?_ (ownExposure_moves ..) rfl
      refine Moves.step ?_ (cloche_moves ..) rfl
      refine Moves.step ?_ (setLedger_moves ..) rfl
      exact Moves.step hy1 (uncloche_moves ..) rfl
    ·
      refine Moves.step ?_ (escalate_moves ..) rfl
      exact Moves.step (Moves.refl _ s) (cloche_moves ..) rfl
    ·
      refine Moves.step ?_ (escalate_moves ..) rfl
      exact Moves.step (Moves.refl _ s) (cloche_moves ..) rfl
    ·
      refine Moves.step ?_ (escalate_moves ..) rfl
      exact Moves.step (Moves.refl _ s) (cloche_moves ..) rfl
    ·
      exact (Moves.refl _ s)

theorem sourceFaults_moves (a0 a1 s) : Moves [.out, .freeIx, .regs, .log, .cmd, .spare, .host, .svc, .test] s (sourceFaults a0 a1 s) := by
  unfold sourceFaults
  extract_lets -merge -useContext -underBinder y0 y1
  have hy0 : Moves [.out, .freeIx, .regs, .log, .cmd, .spare, .host, .svc, .test] s y0 := by
    unfold y0
    exact Moves.step (Moves.refl _ s) (spareMod_moves ..) rfl
  clear_value y0
  have hy1 : Moves [.out, .freeIx, .regs, .log, .cmd, .spare, .host, .svc, .test] s y1 := by
    unfold y1
    split
    ·
      exact Moves.step hy0 (cutExposure_moves ..) rfl
    ·
      exact hy0
  clear_value y1
  refine Moves.ite ?_ ?_
  ·
    refine Moves.step ?_ (setLedger_moves ..) rfl
    exact Moves.step hy1 (setLedger_moves ..) rfl
  ·
    exact hy0

theorem faultAny_moves (a0 s) : Moves [.waiting, .out, .freeIx, .regs, .log, .cmd, .cfg, .boot, .power, .twin, .spare, .ports, .tbl, .buf, .cry, .flow, .host, .sto, .svc, .mbx, .mem, .cart, .age, .test] s (faultAny a0 s) := by
  unfold faultAny
  refine Moves.ite ?_ ?_
  ·
    exact (Moves.refl _ s)
  ·
    refine Moves.ite ?_ ?_
    ·
      refine Moves.ite ?_ ?_
      ·
        exact (Moves.refl _ s)
      ·
        exact Moves.step (Moves.refl _ s) (spareFaults_moves ..) rfl
    ·
      split
      ·
        extract_lets -merge -useContext -underBinder y0 y1
        clear_value y0
        clear_value y1
        refine Moves.ite ?_ ?_
        ·
          exact Moves.step (Moves.refl _ s) (graftFails_moves ..) rfl
        ·
          refine Moves.step ?_ (sourceFaults_moves ..) rfl
          exact Moves.step (Moves.refl _ s) (cloche_moves ..) rfl
      ·
        refine Moves.ite ?_ ?_
        ·
          exact (Moves.refl _ s)
        ·
          split
          ·
            exact Moves.step (Moves.refl _ s) (contain_moves ..) rfl
          ·
            extract_lets -merge -useContext -underBinder y2
            have hy2 : Moves [.waiting, .out, .freeIx, .regs, .log, .cmd, .cfg, .boot, .power, .twin, .spare, .ports, .tbl, .buf, .cry, .flow, .host, .sto, .svc, .mbx, .mem, .cart, .age, .test] s y2 := by
              unfold y2
              exact Moves.step (Moves.refl _ s) (cloche_moves ..) rfl
            clear_value y2
            split
            ·
              rename_i v3 e4
              have hv3 : Moves [.waiting, .out, .freeIx, .regs, .log, .cmd, .cfg, .boot, .power, .twin, .spare, .ports, .tbl, .buf, .cry, .flow, .host, .sto, .svc, .mbx, .mem, .cart, .age, .test] s v3 := by
                refine MovesAll.of_eq (has := hasOpt) e4 rfl ?_
                exact MovesAll.step hy2 (claimSuspect_moves _ _ _) rfl
              exact Moves.step hv3 (beginGraft_moves ..) rfl
            ·
              exact Moves.step hy2 (escalate_moves ..) rfl

theorem faultUnit_moves (a0 s) : Moves [.waiting, .out, .freeIx, .regs, .log, .cmd, .cfg, .boot, .power, .twin, .spare, .ports, .tbl, .buf, .cry, .flow, .host, .sto, .svc, .mbx, .mem, .cart, .age, .test] s (faultUnit a0 s) := by
  unfold faultUnit
  refine Moves.ite ?_ ?_
  ·
    exact (Moves.refl _ s)
  ·
    exact Moves.step (Moves.refl _ s) (faultAny_moves ..) rfl

theorem arrayEnd_moves (a0 a1 a2 a3 s) : MovesAll hasSnd2 [.out, .regs, .log, .test] s (arrayEnd a0 a1 a2 a3 s) := by
  unfold arrayEnd
  split
  ·
    refine hasSnd2_mk ?_
    exact (Moves.refl _ s)
  ·
    extract_lets -merge -useContext -underBinder y0 y1 y2 y3 y4 y5 y6 y7
    clear_value y0
    clear_value y1
    clear_value y2
    clear_value y4
    clear_value y5
    clear_value y6
    have hy7 : Moves [.out, .regs, .log, .test] s y7 := by
      unfold y7
      exact Moves.step (Moves.refl _ s) (testMod_moves ..) rfl
    clear_value y7
    refine MovesAll.ite ?_ ?_
    ·
      refine hasSnd2_mk ?_
      refine Moves.step ?_ (raise_moves ..) rfl
      refine Moves.step ?_ (toFlash_moves ..) rfl
      exact Moves.step (Moves.refl _ s) (testMod_moves ..) rfl
    ·
      refine hasSnd2_mk ?_
      refine Moves.step ?_ (raise_moves ..) rfl
      exact Moves.step hy7 (toFlash_moves ..) rfl

theorem endClaim_moves (a0 a1 a2 a3 s) : Moves [.out, .regs, .log, .cmd, .spare, .ports, .tbl, .cry, .host, .svc, .age, .test] s (endClaim a0 a1 a2 a3 s) := by
  unfold endClaim
  split
  ·
    extract_lets -merge -useContext -underBinder y0
    have hy0 : Moves [.out, .regs, .log, .cmd, .spare, .ports, .tbl, .cry, .host, .svc, .age, .test] s y0 := by
      unfold y0
      refine Moves.ite ?_ ?_
      ·
        exact Moves.step (Moves.refl _ s) (retryLater_moves ..) rfl
      ·
        exact (Moves.refl _ s)
    clear_value y0
    refine Moves.ite ?_ ?_
    ·
      refine Moves.ite ?_ ?_
      ·
        refine Moves.step ?_ (pruneWaiting_moves ..) rfl
        refine Moves.step ?_ (endRecord_moves ..) rfl
        refine Moves.step ?_ (dropExposure_moves ..) rfl
        refine Moves.step ?_ (retirePlace_moves ..) rfl
        exact Moves.step (Moves.refl _ s) (setLedger_moves ..) rfl
      ·
        refine Moves.step ?_ (beginGraft_moves ..) rfl
        exact Moves.step hy0 (putExposure_moves ..) rfl
    ·
      refine Moves.ite ?_ ?_
      ·
        refine Moves.step ?_ (beginGraft_moves ..) rfl
        exact Moves.step (Moves.refl _ s) (putExposure_moves ..) rfl
      ·
        refine Moves.step ?_ (pruneWaiting_moves ..) rfl
        refine Moves.step ?_ (endRecord_moves ..) rfl
        refine Moves.step ?_ (dropExposure_moves ..) rfl
        refine Moves.step ?_ (retirePlace_moves ..) rfl
        exact Moves.step (Moves.refl _ s) (setLedger_moves ..) rfl
  ·
    extract_lets -merge -useContext -underBinder y1
    have hy1 : Moves [.out, .regs, .log, .cmd, .spare, .ports, .tbl, .cry, .host, .svc, .age, .test] s y1 := by
      unfold y1
      refine Moves.step ?_ (endRecord_moves ..) rfl
      exact Moves.step (Moves.refl _ s) (dropExposure_moves ..) rfl
    clear_value y1
    refine Moves.ite ?_ ?_
    ·
      refine Moves.step ?_ (pruneWaiting_moves ..) rfl
      refine Moves.ite ?_ ?_
      ·
        refine Moves.step ?_ (setLedger_moves ..) rfl
        exact Moves.step hy1 (cloche_moves ..) rfl
      ·
        refine Moves.ite ?_ ?_
        ·
          exact Moves.step hy1 (retryLater_moves ..) rfl
        ·
          exact Moves.step hy1 (uncloche_moves ..) rfl
    ·
      refine Moves.ite ?_ ?_
      ·
        exact Moves.step hy1 (retryLater_moves ..) rfl
      ·
        exact hy1

theorem cutDie_moves (a0 a1 s) : Moves [.out, .freeIx, .regs, .log, .cmd, .spare, .ports, .tbl, .cry, .host, .svc, .age, .test] s (cutDie a0 a1 s) := by
  unfold cutDie
  refine Moves.foldl ?_ (fun t0 x1 ht0 => ?_)
  ·
    exact (Moves.refl _ s)
  ·
    extract_lets -merge -useContext -underBinder y2
    clear_value y2
    refine Moves.ite ?_ ?_
    ·
      exact ht0
    ·
      split
      ·
        rename_i v3 v4 e5
        have hv4 : Moves [.out, .freeIx, .regs, .log, .cmd, .spare, .ports, .tbl, .cry, .host, .svc, .age, .test] s v4 := by
          refine MovesAll.of_eq (has := hasSnd) e5 rfl ?_
          exact MovesAll.step ht0 (cutRecord_moves _ _) rfl
        exact Moves.step hv4 (endClaim_moves ..) rfl

theorem someBank_moves (a0 s) : MovesAll hasSnd [.freeIx] s (someBank a0 s) := by
  unfold someBank
  extract_lets -merge -useContext -underBinder y0
  clear_value y0
  split
  ·
    rename_i v1 v2 e3
    have hv2 : Moves [.freeIx] s v2 := by
      refine MovesAll.of_eq (has := hasSnd) e3 rfl ?_
      exact MovesAll.step (Moves.refl _ s) (drawFree_moves _) rfl
    refine hasSnd_mk ?_
    exact hv2

theorem addExposure_moves (a0 a1 a2 a3 a4 a5 s) : Moves [.test] s (addExposure a0 a1 a2 a3 a4 a5 s) := by
  unfold addExposure
  exact Moves.step (Moves.refl _ s) (testMod_moves ..) rfl

theorem launchTest_moves (a0 a1 a2 s) : MovesAll hasOpt [.out, .freeIx, .regs, .log, .spare, .ports, .tbl, .cry, .age, .test] s (launchTest a0 a1 a2 s) := by
  unfold launchTest
  refine MovesAll.ite ?_ ?_
  ·
    refine MovesAll.ite ?_ ?_
    ·
      exact hasOpt_none
    ·
      refine hasOpt_some ?_
      exact Moves.step (Moves.refl _ s) (addExposure_moves ..) rfl
  ·
    refine MovesAll.ite ?_ ?_
    ·
      exact hasOpt_none
    ·
      split
      ·
        refine MovesAll.ite ?_ ?_
        ·
          refine hasOpt_some ?_
          refine Moves.step ?_ (beginGraft_moves ..) rfl
          refine Moves.step ?_ (cloche_moves ..) rfl
          refine Moves.step ?_ (addExposure_moves ..) rfl
          exact Moves.step (Moves.refl _ s) (setLedger_moves ..) rfl
        ·
          exact hasOpt_none
      ·
        refine MovesAll.ite ?_ ?_
        ·
          refine hasOpt_some ?_
          exact Moves.step (Moves.refl _ s) (addExposure_moves ..) rfl
        ·
          exact hasOpt_none
      ·
        split
        ·
          rename_i v0 v1 e2
          have hv1 : Moves [.out, .freeIx, .regs, .log, .spare, .ports, .tbl, .cry, .age, .test] s v1 := by
            refine MovesAll.of_eq (has := hasSnd) e2 rfl ?_
            split
            ·
              refine hasSnd_mk ?_
              exact (Moves.refl _ s)
            ·
              exact MovesAll.step (Moves.refl _ s) (someBank_moves _ _) rfl
          refine hasOpt_some ?_
          exact Moves.step hv1 (addExposure_moves ..) rfl
      ·
        refine MovesAll.ite ?_ ?_
        ·
          exact hasOpt_none
        ·
          refine hasOpt_some ?_
          refine Moves.step ?_ (addExposure_moves ..) rfl
          exact Moves.step (Moves.refl _ s) (cloche_moves ..) rfl
      ·
        refine MovesAll.ite ?_ ?_
        ·
          refine hasOpt_some ?_
          exact Moves.step (Moves.refl _ s) (addExposure_moves ..) rfl
        ·
          exact hasOpt_none
      ·
        exact hasOpt_none
      ·
        exact hasOpt_none

theorem opTestRun_moves (c s) : DoneMoves [.out, .freeIx, .regs, .log, .spare, .ports, .tbl, .cry, .age, .test] s ((opTestRun).body c s) := by
  unfold opTestRun
  extract_lets -merge -useContext -underBinder src
  change DoneMoves _ s (src.body c s)
  unfold src
  refine op_mk ?_
  extract_lets -merge -useContext -underBinder k p
  clear_value k
  clear_value p
  refine DoneMoves.ite hasDone_refuse (DoneMoves.ite hasDone_refuse (DoneMoves.ite (DoneMoves.ite hasDone_refuse ?_)
    (DoneMoves.ite hasDone_refuse ?_)))
  · refine hasDone_accept (Moves.refl _ s) (fun u => ?_)
    split
    rename_i e
    refine Moves.step ?_ (addExposure_moves ..) rfl
    refine MovesAll.of_eq (has := hasSnd) e rfl (MovesAll.ite ?_ (hasSnd_mk (Moves.refl _ u)))
    exact MovesAll.step (Moves.refl _ u) (someBank_moves _ _) rfl
  · split
    · exact hasDone_refuse
    · refine hasDone_accept (Moves.refl _ s) (fun u => ?_)
      cases h : launchTest p k none u with
      | none => exact Moves.refl _ u
      | some v => exact Moves.step (Moves.refl _ u) (launchTest_moves _ _ _ _ v h) rfl

theorem execTestRun_moves (a0 s) : MovesAll hasNext [.waiting, .out, .freeIx, .regs, .log, .cmd, .prot, .spare, .ports, .tbl, .cry, .host, .svc, .age, .test] s (execTestRun a0 s) := by
  unfold execTestRun
  refine hasNext_next ?_
  exact Moves.step (Moves.refl _ s) (runCmd_moves _ _ _ (opTestRun_moves ..)) rfl

theorem opTestResult_moves (c s) : DoneMoves [] s ((opTestResult).body c s) := by
  unfold opTestResult
  extract_lets -merge -useContext -underBinder src
  change DoneMoves _ s (src.body c s)
  unfold src
  refine op_mk ?_
  extract_lets -merge -useContext -underBinder y0
  clear_value y0
  refine DoneMoves.ite ?_ ?_
  ·
    exact hasDone_refuse
  ·
    split
    ·
      refine hasDone_reply ?_
      exact (Moves.refl _ s)
    ·
      refine hasDone_reply ?_
      exact (Moves.refl _ s)

theorem execTestResult_moves (a0 s) : MovesAll hasNext [.waiting, .out, .regs, .log, .cmd, .prot, .host, .svc] s (execTestResult a0 s) := by
  unfold execTestResult
  refine hasNext_next ?_
  exact Moves.step (Moves.refl _ s) (runCmd_moves _ _ _ (opTestResult_moves ..)) rfl

theorem opTestSchedule_moves (c s) : DoneMoves [.out, .test] s ((opTestSchedule).body c s) := by
  unfold opTestSchedule
  extract_lets -merge -useContext -underBinder src
  change DoneMoves _ s (src.body c s)
  unfold src
  refine op_mk ?_
  extract_lets -merge -useContext -underBinder y0
  clear_value y0
  refine DoneMoves.ite ?_ ?_
  ·
    exact hasDone_refuse
  ·
    refine DoneMoves.ite ?_ ?_
    ·
      refine hasDone_reply ?_
      refine Moves.step ?_ (toFlash_moves ..) rfl
      exact Moves.step (Moves.refl _ s) (testMod_moves ..) rfl
    ·
      refine hasDone_reply ?_
      refine Moves.step ?_ (toFlash_moves ..) rfl
      exact Moves.step (Moves.refl _ s) (testMod_moves ..) rfl

theorem execTestSchedule_moves (a0 s) : MovesAll hasNext [.waiting, .out, .regs, .log, .cmd, .prot, .host, .svc, .test] s (execTestSchedule a0 s) := by
  unfold execTestSchedule
  refine hasNext_next ?_
  exact Moves.step (Moves.refl _ s) (runCmd_moves _ _ _ (opTestSchedule_moves ..)) rfl

theorem checkOverdue_moves (a0 s) : Moves [.regs, .log, .test] s (checkOverdue a0 s) := by
  unfold checkOverdue
  extract_lets -merge -useContext -underBinder y0 y1
  clear_value y0
  clear_value y1
  refine Moves.ite ?_ ?_
  ·
    refine Moves.step ?_ (raise_moves ..) rfl
    exact Moves.step (Moves.refl _ s) (testMod_moves ..) rfl
  ·
    exact (Moves.refl _ s)

theorem runScheduled_moves (a0 a1 s) : Moves [.out, .freeIx, .regs, .log, .spare, .ports, .tbl, .cry, .age, .test] s (runScheduled a0 a1 s) := by
  unfold runScheduled
  extract_lets -merge -useContext -underBinder y0 y1 y2
  clear_value y0 y1
  have hy2 : Moves [.out, .freeIx, .regs, .log, .spare, .ports, .tbl, .cry, .age, .test] s y2 := by
    unfold y2
    exact Moves.foldl (Moves.refl _ s) fun t x h => Moves.step h (checkOverdue_moves ..) rfl
  clear_value y2
  refine Moves.ite (Moves.refl _ s) (Moves.ite hy2 (Moves.ite ?_ (Moves.ite hy2 ?_)))
  · cases h : launchTest y0 y1 none y2 with
    | none => exact hy2
    | some v => exact Moves.step hy2 (launchTest_moves _ _ _ _ v h) rfl
  · split
    · rename_i v3 e4
      exact Moves.step (Moves.step hy2 (launchTest_moves _ _ _ _ v3 e4) rfl) (testMod_moves ..) rfl
    · exact Moves.step hy2 (retryLater_moves ..) rfl

theorem execScheduledExposure_moves (a0 a1 s) : MovesAll hasNext [.out, .freeIx, .regs, .log, .spare, .ports, .tbl, .cry, .age, .test] s (execScheduledExposure a0 a1 s) := by
  unfold execScheduledExposure
  refine hasNext_onElem ?_
  exact Moves.step (Moves.refl _ s) (runScheduled_moves ..) rfl

theorem execClaimRetryTimer_moves (a0 s) : MovesAll hasNext [.out, .freeIx, .regs, .log, .spare, .ports, .tbl, .cry, .age, .test] s (execClaimRetryTimer a0 s) := by
  unfold execClaimRetryTimer
  extract_lets -merge -useContext -underBinder y0
  have hy0 : Moves [.out, .freeIx, .regs, .log, .spare, .ports, .tbl, .cry, .age, .test] s y0 := by
    unfold y0
    exact Moves.step (Moves.refl _ s) (testMod_moves ..) rfl
  clear_value y0
  refine hasNext_onElem ?_
  refine Moves.ite ?_ ?_
  ·
    exact (Moves.refl _ s)
  ·
    split
    ·
      refine Moves.ite ?_ ?_
      ·
        refine Moves.ite ?_ ?_
        ·
          exact hy0
        ·
          exact Moves.step hy0 (startExposure_moves ..) rfl
      ·
        exact Moves.step hy0 (runScheduled_moves ..) rfl
    ·
      refine Moves.ite ?_ ?_
      ·
        refine Moves.ite ?_ ?_
        ·
          exact Moves.step hy0 (ownExposure_moves ..) rfl
        ·
          exact hy0
      ·
        exact Moves.step hy0 (runScheduled_moves ..) rfl

theorem macTested_moves (a0 s) : Moves [.regs, .log, .ports, .tbl, .cry] s (macTested a0 s) := by
  unfold macTested
  extract_lets -merge -useContext -underBinder y0
  clear_value y0
  refine Moves.ite ?_ ?_
  ·
    exact Moves.step (Moves.refl _ s) (linkDown_moves ..) rfl
  ·
    refine Moves.ite ?_ ?_
    ·
      exact (Moves.refl _ s)
    ·
      refine Moves.step ?_ (startSearch_moves ..) rfl
      exact Moves.step (Moves.refl _ s) (mkaRestart_moves ..) rfl

theorem execExposureTestEnd_moves (a0 a1 a2 a3 a4 a5 s) : MovesAll hasNext [.out, .regs, .log, .cmd, .spare, .ports, .tbl, .cry, .host, .svc, .age, .test] s (execExposureTestEnd a0 a1 a2 a3 a4 a5 s) := by
  unfold execExposureTestEnd
  refine hasNext_next ?_
  split
  ·
    exact (Moves.refl _ s)
  ·
    extract_lets -merge -useContext -underBinder y0 y1 y2
    have hy0 : Moves [.out, .regs, .log, .cmd, .spare, .ports, .tbl, .cry, .host, .svc, .age, .test] s y0 := by
      unfold y0
      refine Moves.ite ?_ ?_
      ·
        exact Moves.step (Moves.refl _ s) (macTested_moves ..) rfl
      ·
        exact (Moves.refl _ s)
    clear_value y0
    clear_value y1
    have hy2 : Moves [.out, .regs, .log, .cmd, .spare, .ports, .tbl, .cry, .host, .svc, .age, .test] s y2 := by
      unfold y2
      refine Moves.ite ?_ ?_
      ·
        exact Moves.step hy0 (uncloche_moves ..) rfl
      ·
        exact hy0
    clear_value y2
    refine Moves.ite ?_ ?_
    ·
      exact (Moves.refl _ s)
    ·
      refine Moves.ite ?_ ?_
      ·
        refine Moves.step ?_ (endClaim_moves ..) rfl
        refine Moves.ite ?_ ?_
        ·
          exact Moves.step hy0 (uncloche_moves ..) rfl
        ·
          exact hy0
      ·
        refine Moves.ite ?_ ?_
        ·
          split
          ·
            rename_i v3 v4 v5 e6
            have hv5 : Moves [.out, .regs, .log, .cmd, .spare, .ports, .tbl, .cry, .host, .svc, .age, .test] s v5 := by
              refine MovesAll.of_eq (has := hasSnd2) e6 rfl ?_
              exact MovesAll.step hy0 (arrayEnd_moves _ _ _ _ _) rfl
            exact Moves.step hv5 (endClaim_moves ..) rfl
        ·
          exact Moves.step hy2 (endClaim_moves ..) rfl

theorem execReferenceCheck_moves (a0 a1 a2 a3 s) : MovesAll hasNext [.regs, .log] s (execReferenceCheck a0 a1 a2 a3 s) := by
  unfold execReferenceCheck
  refine hasNext_onElem ?_
  refine Moves.ite ?_ ?_
  ·
    exact Moves.step (Moves.refl _ s) (raise_moves ..) rfl
  ·
    exact (Moves.refl _ s)

theorem dieAgeMod_moves (a0 a1 s) : Moves [.age] s (dieAgeMod a0 a1 s) := by
  unfold dieAgeMod
  exact Moves.step (Moves.refl _ s) (ageMod_moves ..) rfl

theorem countService_moves (a0 a1 s) : Moves [.age] s (countService a0 a1 s) := by
  unfold countService
  extract_lets -merge -useContext -underBinder y0
  clear_value y0
  exact Moves.step (Moves.refl _ s) (ageMod_moves ..) rfl

theorem takeReads_moves (a0 a1 a2 s) : Moves [.age] s (takeReads a0 a1 a2 s) := by
  unfold takeReads
  extract_lets -merge -useContext -underBinder y0 y1 y2 y3
  clear_value y0
  clear_value y1
  have hy2 : Moves [.age] s y2 := by
    unfold y2
    refine Moves.step ?_ (countService_moves ..) rfl
    exact Moves.step (Moves.refl _ s) (ageMod_moves ..) rfl
  clear_value y2
  have hy3 : Moves [.age] s y3 := by
    unfold y3
    refine Moves.foldl ?_ (fun t4 x5 ht4 => ?_)
    ·
      exact hy2
    ·
      refine Moves.ite ?_ ?_
      ·
        exact Moves.step ht4 (unitAgeMod_moves ..) rfl
      ·
        exact ht4
  clear_value y3
  exact Moves.step hy3 (dieAgeMod_moves ..) rfl

theorem setTap_moves (a0 a1 a2 s) : Moves [.out, .age] s (setTap a0 a1 a2 s) := by
  unfold setTap
  refine Moves.step ?_ (unitAgeMod_moves ..) rfl
  exact Moves.step (Moves.refl _ s) (toFlash_moves ..) rfl

theorem marginLow_moves (a0 s) : Moves [.regs, .log, .age] s (marginLow a0 s) := by
  unfold marginLow
  refine Moves.ite ?_ ?_
  ·
    exact (Moves.refl _ s)
  ·
    refine Moves.step ?_ (raise_moves ..) rfl
    exact Moves.step (Moves.refl _ s) (unitAgeMod_moves ..) rfl

theorem act_moves (a0 a1 s) : MovesAll hasSnd [.out, .regs, .log, .spare, .ports, .tbl, .cry, .age] s (act a0 a1 s) := by
  unfold act
  extract_lets -merge -useContext -underBinder y0 y1 y2
  clear_value y0
  clear_value y1
  clear_value y2
  split
  ·
    refine hasSnd_mk ?_
    exact Moves.step (Moves.refl _ s) (setTap_moves ..) rfl
  ·
    split
    ·
      refine hasSnd_mk ?_
      exact Moves.step (Moves.refl _ s) (setTap_moves ..) rfl
    ·
      extract_lets -merge -useContext -underBinder y3
      have hy3 : Moves [.out, .regs, .log, .spare, .ports, .tbl, .cry, .age] s y3 := by
        unfold y3
        exact Moves.step (Moves.refl _ s) (prune_moves ..) rfl
      clear_value y3
      refine MovesAll.ite ?_ ?_
      ·
        refine hasSnd_mk ?_
        exact Moves.step (Moves.refl _ s) (dieAgeMod_moves ..) rfl
      ·
        refine MovesAll.ite ?_ ?_
        ·
          refine hasSnd_mk ?_
          exact Moves.step (Moves.refl _ s) (marginLow_moves ..) rfl
        ·
          refine MovesAll.ite ?_ ?_
          ·
            refine hasSnd_mk ?_
            exact (Moves.refl _ s)
          ·
            refine hasSnd_mk ?_
            exact hy3

theorem actAll_moves (a0 a1 s) : Moves [.out, .regs, .log, .spare, .ports, .tbl, .cry, .age] s (actAll a0 a1 s) := by
  induction a1 generalizing s with
  | nil => exact Moves.refl _ s
  | cons r l ih =>
    unfold actAll
    have h : Moves [.out, .regs, .log, .spare, .ports, .tbl, .cry, .age] s (act a0 r s).2 := Moves.step (Moves.refl _ s) (act_moves a0 r s).get_snd rfl
    exact Moves.ite h (Moves.step h (ih _) (all_self _))

theorem execGovernorScan_moves (a0 a1 a2 s) : MovesAll hasNext [.waiting, .out, .freeIx, .regs, .log, .cmd, .cfg, .boot, .power, .twin, .spare, .ports, .tbl, .buf, .cry, .flow, .host, .sto, .svc, .mbx, .mem, .cart, .age, .test] s (execGovernorScan a0 a1 a2 s) := by
  unfold execGovernorScan
  extract_lets -merge -useContext -underBinder y0 y1 y2 y3 y4
  have hy0 : Moves [.waiting, .out, .freeIx, .regs, .log, .cmd, .cfg, .boot, .power, .twin, .spare, .ports, .tbl, .buf, .cry, .flow, .host, .sto, .svc, .mbx, .mem, .cart, .age, .test] s y0 := by
    unfold y0
    refine Moves.step ?_ (pruneWaiting_moves ..) rfl
    exact Moves.step (Moves.refl _ s) (takeReads_moves ..) rfl
  clear_value y0
  clear_value y1
  clear_value y2
  have hy3 : Moves [.waiting, .out, .freeIx, .regs, .log, .cmd, .cfg, .boot, .power, .twin, .spare, .ports, .tbl, .buf, .cry, .flow, .host, .sto, .svc, .mbx, .mem, .cart, .age, .test] s y3 := by
    unfold y3
    refine Moves.foldl ?_ (fun t5 x6 ht5 => ?_)
    ·
      exact hy0
    ·
      refine Moves.step ?_ (faultUnit_moves ..) rfl
      exact Moves.step ht5 (raise_moves ..) rfl
  clear_value y3
  clear_value y4
  refine hasNext_onElem ?_
  refine Moves.ite ?_ ?_
  ·
    exact (Moves.refl _ s)
  ·
    refine Moves.ite ?_ ?_
    ·
      exact Moves.step hy3 (dieAgeMod_moves ..) rfl
    ·
      exact Moves.step hy3 (actAll_moves ..) rfl

theorem setRail_moves (a0 a1 s) : Moves [.out, .age] s (setRail a0 a1 s) := by
  unfold setRail
  refine Moves.step ?_ (emit_moves ..) rfl
  refine Moves.step ?_ (dieAgeMod_moves ..) rfl
  exact Moves.step (Moves.refl _ s) (toFlash_moves ..) rfl

theorem execGovernorRailStep_moves (a0 s) : MovesAll hasNext [.out, .age] s (execGovernorRailStep a0 s) := by
  unfold execGovernorRailStep
  extract_lets -merge -useContext -underBinder y0
  clear_value y0
  refine hasNext_onElem ?_
  refine Moves.ite ?_ ?_
  ·
    exact (Moves.refl _ s)
  ·
    refine Moves.ite ?_ ?_
    ·
      exact Moves.step (Moves.refl _ s) (setRail_moves ..) rfl
    ·
      refine Moves.ite ?_ ?_
      ·
        exact Moves.step (Moves.refl _ s) (setRail_moves ..) rfl
      ·
        exact (Moves.refl _ s)

theorem endRun_moves (a0 s) : Moves [.regs, .log, .age] s (endRun a0 s) := by
  unfold endRun
  extract_lets -merge -useContext -underBinder y0 y1
  clear_value y0
  have hy1 : Moves [.regs, .log, .age] s y1 := by
    unfold y1
    exact Moves.step (Moves.refl _ s) (dieAgeMod_moves ..) rfl
  clear_value y1
  split
  ·
    exact Moves.step hy1 (raise_moves ..) rfl
  ·
    exact hy1

theorem execRailMonitorCheck_moves (a0 a1 s) : MovesAll hasNext [.out, .freeIx, .regs, .log, .cmd, .spare, .ports, .tbl, .cry, .host, .svc, .age, .test] s (execRailMonitorCheck a0 a1 s) := by
  unfold execRailMonitorCheck
  extract_lets -merge -useContext -underBinder y0 y1 y2 y3 y4 y5 y6
  clear_value y0
  have hy1 : Moves [.out, .freeIx, .regs, .log, .cmd, .spare, .ports, .tbl, .cry, .host, .svc, .age, .test] s y1 := by
    unfold y1
    exact Moves.step (Moves.refl _ s) (dieAgeMod_moves ..) rfl
  clear_value y1
  have hy2 : Moves [.out, .freeIx, .regs, .log, .cmd, .spare, .ports, .tbl, .cry, .host, .svc, .age, .test] s y2 := by
    unfold y2
    refine Moves.step ?_ (raise_moves ..) rfl
    exact Moves.step hy1 (dieAgeMod_moves ..) rfl
  clear_value y2
  have hy3 : Moves [.out, .freeIx, .regs, .log, .cmd, .spare, .ports, .tbl, .cry, .host, .svc, .age, .test] s y3 := by
    unfold y3
    refine Moves.step ?_ (dieAgeMod_moves ..) rfl
    exact Moves.step hy1 (testMod_moves ..) rfl
  clear_value y3
  clear_value y4
  have hy5 : Moves [.out, .freeIx, .regs, .log, .cmd, .spare, .ports, .tbl, .cry, .host, .svc, .age, .test] s y5 := by
    unfold y5
    exact Moves.step hy3 (ageMod_moves ..) rfl
  clear_value y5
  clear_value y6
  refine hasNext_onElem ?_
  refine Moves.ite ?_ ?_
  ·
    refine Moves.ite ?_ ?_
    ·
      exact hy1
    ·
      refine Moves.step ?_ (cutDie_moves ..) rfl
      refine Moves.step ?_ (endRun_moves ..) rfl
      exact Moves.step hy2 (testMod_moves ..) rfl
  ·
    refine Moves.ite ?_ ?_
    ·
      exact hy5
    ·
      exact Moves.step hy5 (endRun_moves ..) rfl

theorem finishBuffer_moves (a0 a1 a2 a3 s) : Moves [.out, .regs, .log, .cmd, .host, .svc, .mem] s (finishBuffer a0 a1 a2 a3 s) := by
  unfold finishBuffer
  extract_lets -merge -useContext -underBinder y0
  clear_value y0
  refine Moves.ite ?_ ?_
  ·
    exact Moves.step (Moves.refl _ s) (finish_moves ..) rfl
  ·
    split
    ·
      rename_i v1 e2
      have hv1 : Moves [.out, .regs, .log, .cmd, .host, .svc, .mem] s v1 := by
        refine MovesAll.of_eq (has := hasOpt) e2 rfl ?_
        exact MovesAll.step (Moves.refl _ s) (bufferWrite_moves _ _ _ _ _) rfl
      exact Moves.step hv1 (finish_moves ..) rfl
    ·
      exact Moves.step (Moves.refl _ s) (finish_moves ..) rfl

theorem opAgeSheetRead_moves (c s) : DoneMoves [] s ((opAgeSheetRead).body c s) := by
  unfold opAgeSheetRead
  refine op_mk ?_
  extract_lets -merge -useContext -underBinder y0 y1 y2
  clear_value y0
  clear_value y1
  clear_value y2
  refine DoneMoves.ite ?_ ?_
  ·
    exact hasDone_refuse
  ·
    refine DoneMoves.ite ?_ ?_
    ·
      exact hasDone_refuse
    ·
      split
      ·
        exact hasDone_refuse
      ·
        refine hasDone_accept ?_ (fun u => Moves.refl _ u)
        exact (Moves.refl _ s)

theorem execAgeSheetRead_moves (a0 s) : MovesAll hasNext [.waiting, .out, .regs, .log, .cmd, .prot, .host, .svc] s (execAgeSheetRead a0 s) := by
  unfold execAgeSheetRead
  refine hasNext_next ?_
  exact Moves.step (Moves.refl _ s) (runCmd_moves _ _ _ (opAgeSheetRead_moves ..)) rfl

theorem execAgeSheetReadComplete_moves (a0 a1 a2 s) : MovesAll hasNext [.out, .regs, .log, .cmd, .host, .svc, .mem] s (execAgeSheetReadComplete a0 a1 a2 s) := by
  unfold execAgeSheetReadComplete
  refine hasNext_next ?_
  split
  ·
    exact (Moves.refl _ s)
  ·
    extract_lets -merge -useContext -underBinder y0
    clear_value y0
    refine Moves.ite ?_ ?_
    ·
      exact Moves.step (Moves.refl _ s) (finish_moves ..) rfl
    ·
      exact Moves.step (Moves.refl _ s) (finishBuffer_moves ..) rfl

theorem opAgeSheetTime_moves (c s) : DoneMoves [.out, .age] s ((opAgeSheetTime).body c s) := by
  unfold opAgeSheetTime
  refine op_mk ?_
  refine DoneMoves.ite ?_ ?_
  ·
    exact hasDone_refuse
  ·
    refine hasDone_reply ?_
    refine Moves.step ?_ (ageMod_moves ..) rfl
    exact Moves.step (Moves.refl _ s) (toFlash_moves ..) rfl

theorem execAgeSheetTime_moves (a0 s) : MovesAll hasNext [.waiting, .out, .regs, .log, .cmd, .prot, .host, .svc, .age] s (execAgeSheetTime a0 s) := by
  unfold execAgeSheetTime
  refine hasNext_next ?_
  exact Moves.step (Moves.refl _ s) (runCmd_moves _ _ _ (opAgeSheetTime_moves ..)) rfl

theorem onSlot_moves (a0 s) : MovesAll hasNext [] s (onSlot a0 s) := by
  unfold onSlot
  refine hasNext_onElem ?_
  exact (Moves.refl _ s)

theorem raiseSlot_moves (a0 a1 a2 s) : Moves [.regs, .log] s (raiseSlot a0 a1 a2 s) := by
  unfold raiseSlot
  exact Moves.step (Moves.refl _ s) (raise_moves ..) rfl

theorem darkened_moves (a0 a1 a2 s) : Moves [.regs, .log, .ports, .tbl, .cry] s (darkened a0 a1 a2 s) := by
  unfold darkened
  refine Moves.foldl ?_ (fun t0 x1 ht0 => ?_)
  ·
    exact (Moves.refl _ s)
  ·
    refine Moves.ite ?_ ?_
    ·
      refine Moves.foldl ?_ (fun t2 x3 ht2 => ?_)
      ·
        exact Moves.step ht0 (raiseSlot_moves ..) rfl
      ·
        exact Moves.step ht2 (portDark_moves ..) rfl
    ·
      exact ht0

theorem stepUp_moves (a0 s) : Moves [.freeIx, .cart] s (stepUp a0 s) := by
  unfold stepUp
  refine Moves.foldl ?_ (fun t0 x1 ht0 => ?_)
  ·
    exact (Moves.refl _ s)
  ·
    extract_lets -merge -useContext -underBinder y2
    clear_value y2
    refine Moves.ite ?_ ?_
    ·
      exact Moves.step ht0 (setTarget_moves ..) rfl
    ·
      exact ht0

theorem nowAlone_moves (a0 s) : Moves [.cart] s (nowAlone a0 s) := by
  unfold nowAlone
  refine Moves.ite ?_ ?_
  ·
    exact Moves.step (Moves.refl _ s) (slotMod_moves ..) rfl
  ·
    exact (Moves.refl _ s)

theorem unbias_moves (a0 s) : Moves [.freeIx, .cart] s (unbias a0 s) := by
  unfold unbias
  refine Moves.foldl ?_ (fun t0 x1 ht0 => ?_)
  ·
    exact (Moves.refl _ s)
  ·
    exact Moves.step ht0 (setTarget_moves ..) rfl

theorem rampBack_moves (a0 s) : Moves [.out, .regs, .log, .cmd, .host, .svc, .cart] s (rampBack a0 s) := by
  unfold rampBack
  extract_lets -merge -useContext -underBinder y0
  clear_value y0
  refine Moves.ite ?_ ?_
  ·
    refine Moves.step ?_ (finishKey_moves ..) rfl
    exact Moves.step (Moves.refl _ s) (slotMod_moves ..) rfl
  ·
    refine Moves.ite ?_ ?_
    ·
      exact Moves.step (Moves.refl _ s) (slotMod_moves ..) rfl
    ·
      exact (Moves.refl _ s)

theorem lightGone_moves (a0 s) : Moves [.out, .freeIx, .regs, .log, .cmd, .host, .svc, .cart] s (lightGone a0 s) := by
  unfold lightGone
  extract_lets -merge -useContext -underBinder y0
  have hy0 : Moves [.out, .freeIx, .regs, .log, .cmd, .host, .svc, .cart] s y0 := by
    unfold y0
    refine Moves.step ?_ (finishKey_moves ..) rfl
    exact Moves.step (Moves.refl _ s) (finishKey_moves ..) rfl
  clear_value y0
  refine Moves.step ?_ (nowAlone_moves ..) rfl
  refine Moves.step ?_ (stepUp_moves ..) rfl
  exact Moves.step hy0 (rampBack_moves ..) rfl

theorem putLife_moves (a0 s) : Moves [.out, .cart] s (putLife a0 s) := by
  unfold putLife
  refine Moves.step ?_ (toFlash_moves ..) rfl
  exact Moves.step (Moves.refl _ s) (cartMod_moves ..) rfl

theorem openLife_moves (a0 s) : Moves [.out, .cart] s (openLife a0 s) := by
  unfold openLife
  extract_lets -merge -useContext -underBinder y0 y1
  clear_value y0
  clear_value y1
  refine Moves.step ?_ (putLife_moves ..) rfl
  exact Moves.step (Moves.refl _ s) (cartMod_moves ..) rfl

theorem replaceDue_moves (a0 a1 s) : Moves [.regs, .log, .cart] s (replaceDue a0 a1 s) := by
  unfold replaceDue
  refine Moves.step ?_ (raiseSlot_moves ..) rfl
  exact Moves.step (Moves.refl _ s) (slotMod_moves ..) rfl

theorem refuseCart_moves (a0 a1 s) : Moves [.regs, .log, .cart] s (refuseCart a0 a1 s) := by
  unfold refuseCart
  refine Moves.step ?_ (raiseSlot_moves ..) rfl
  exact Moves.step (Moves.refl _ s) (slotMod_moves ..) rfl

theorem challenge_moves (a0 s) : MovesAll hasSnd [.freeIx] s (challenge a0 s) := by
  induction a0 generalizing s with
  | zero => exact hasSnd_mk (Moves.refl _ s)
  | succ k ih =>
    unfold challenge
    split
    rename_i v t e
    split
    rename_i ids u e'
    refine hasSnd_mk ?_
    exact Moves.step (drawRandom_moves s t (by simp [hasSnd, e])) (ih t u (by simp [hasSnd, e'])) rfl

theorem execCartPresenceAssert_moves (a0 a1 s) : MovesAll hasNext [.out, .freeIx, .regs, .log, .cart] s (execCartPresenceAssert a0 a1 s) := by
  unfold execCartPresenceAssert
  extract_lets -merge -useContext -underBinder y0
  have hy0 : Moves [.out, .freeIx, .regs, .log, .cart] s y0 := by
    unfold y0
    exact Moves.step (Moves.refl _ s) (slotMod_moves ..) rfl
  clear_value y0
  refine MovesAll.step ?_ (onSlot_moves _ _) rfl
  refine Moves.ite ?_ ?_
  ·
    exact (Moves.refl _ s)
  ·
    split
    ·
      exact hy0
    ·
      extract_lets -merge -useContext -underBinder y1
      have hy1 : Moves [.out, .freeIx, .regs, .log, .cart] s y1 := by
        unfold y1
        exact Moves.step hy0 (slotMod_moves ..) rfl
      clear_value y1
      refine Moves.ite ?_ ?_
      ·
        exact Moves.step hy1 (refuseCart_moves ..) rfl
      ·
        split
        ·
          rename_i v2 v3 e4
          have hv3 : Moves [.out, .freeIx, .regs, .log, .cart] s v3 := by
            refine MovesAll.of_eq (has := hasSnd) e4 rfl ?_
            exact MovesAll.step hy1 (challenge_moves _ _) rfl
          exact Moves.step hv3 (emit_moves ..) rfl

theorem settleLife_moves (a0 a1 s) : Moves [.out, .regs, .log, .cart] s (settleLife a0 a1 s) := by
  unfold settleLife
  extract_lets -merge -useContext -underBinder y0
  clear_value y0
  split
  ·
    extract_lets -merge -useContext -underBinder y1
    have hy1 : Moves [.out, .regs, .log, .cart] s y1 := by
      unfold y1
      refine Moves.ite ?_ ?_
      ·
        exact Moves.step (Moves.refl _ s) (raiseSlot_moves ..) rfl
      ·
        exact (Moves.refl _ s)
    clear_value y1
    exact Moves.step hy1 (putLife_moves ..) rfl
  ·
    exact Moves.step (Moves.refl _ s) (openLife_moves ..) rfl

theorem settleCart_moves (a0 a1 s) : Moves [.out, .regs, .log, .cart] s (settleCart a0 a1 s) := by
  unfold settleCart
  extract_lets -merge -useContext -underBinder y0 y1 y2 y3 y4 y5 y6 y7 y8
  have hy0 : Moves [.out, .regs, .log, .cart] s y0 := by
    unfold y0
    exact Moves.step (Moves.refl _ s) (settleLife_moves ..) rfl
  clear_value y0
  clear_value y1
  clear_value y2
  clear_value y3
  clear_value y4
  have hy5 : Moves [.out, .regs, .log, .cart] s y5 := by
    unfold y5
    exact Moves.step hy0 (slotMod_moves ..) rfl
  clear_value y5
  have hy6 : Moves [.out, .regs, .log, .cart] s y6 := by
    unfold y6
    split
    ·
      exact Moves.step hy5 (slotMod_moves ..) rfl
    ·
      exact hy5
  clear_value y6
  have hy7 : Moves [.out, .regs, .log, .cart] s y7 := by
    unfold y7
    exact Moves.step hy6 (raiseSlot_moves ..) rfl
  clear_value y7
  have hy8 : Moves [.out, .regs, .log, .cart] s y8 := by
    unfold y8
    refine Moves.ite ?_ ?_
    ·
      exact Moves.step hy7 (replaceDue_moves ..) rfl
    ·
      exact hy7
  clear_value y8
  refine Moves.ite ?_ ?_
  ·
    exact Moves.step hy8 (slotMod_moves ..) rfl
  ·
    exact hy8

theorem execCartChallengeResponse_moves (a0 a1 a2 s) : MovesAll hasNext [.out, .regs, .log, .cart] s (execCartChallengeResponse a0 a1 a2 s) := by
  unfold execCartChallengeResponse
  refine MovesAll.step ?_ (onSlot_moves _ _) rfl
  refine Moves.ite ?_ ?_
  ·
    exact (Moves.refl _ s)
  ·
    refine Moves.ite ?_ ?_
    ·
      exact Moves.step (Moves.refl _ s) (refuseCart_moves ..) rfl
    ·
      refine Moves.ite ?_ ?_
      ·
        exact Moves.step (Moves.refl _ s) (refuseCart_moves ..) rfl
      ·
        exact Moves.step (Moves.refl _ s) (settleCart_moves ..) rfl

theorem execCartSettleTimeout_moves (a0 s) : MovesAll hasNext [.regs, .log, .cart] s (execCartSettleTimeout a0 s) := by
  unfold execCartSettleTimeout
  refine MovesAll.step ?_ (onSlot_moves _ _) rfl
  refine Moves.ite ?_ ?_
  ·
    exact Moves.step (Moves.refl _ s) (refuseCart_moves ..) rfl
  ·
    exact (Moves.refl _ s)

theorem stepLasers_moves (a0 a1 s) : Moves [.freeIx, .cart] s (stepLasers a0 a1 s) := by
  unfold stepLasers
  refine Moves.foldl ?_ (fun t0 x1 ht0 => ?_)
  ·
    exact (Moves.refl _ s)
  ·
    extract_lets -merge -useContext -underBinder y2 y3
    clear_value y2
    clear_value y3
    refine Moves.ite ?_ ?_
    ·
      exact ht0
    ·
      exact Moves.step ht0 (setTarget_moves ..) rfl

theorem rampedDown_moves (a0 s) : Moves [.out, .freeIx, .regs, .log, .cmd, .host, .svc, .cart] s (rampedDown a0 s) := by
  unfold rampedDown
  extract_lets -merge -useContext -underBinder y0
  have hy0 : Moves [.out, .freeIx, .regs, .log, .cmd, .host, .svc, .cart] s y0 := by
    unfold y0
    refine Moves.step ?_ (slotMod_moves ..) rfl
    exact Moves.step (Moves.refl _ s) (unbias_moves ..) rfl
  clear_value y0
  refine Moves.step ?_ (finishKey_moves ..) rfl
  refine Moves.step ?_ (raiseSlot_moves ..) rfl
  exact Moves.step hy0 (nowAlone_moves ..) rfl

theorem rampedUp_moves (a0 s) : Moves [.out, .regs, .log, .cmd, .host, .svc, .cart] s (rampedUp a0 s) := by
  unfold rampedUp
  extract_lets -merge -useContext -underBinder y0 y1 y2 y3 y4
  clear_value y0
  clear_value y1
  have hy2 : Moves [.out, .regs, .log, .cmd, .host, .svc, .cart] s y2 := by
    unfold y2
    exact Moves.step (Moves.refl _ s) (slotMod_moves ..) rfl
  clear_value y2
  have hy3 : Moves [.out, .regs, .log, .cmd, .host, .svc, .cart] s y3 := by
    unfold y3
    refine Moves.ite ?_ ?_
    ·
      exact Moves.step hy2 (slotMod_moves ..) rfl
    ·
      exact hy2
  clear_value y3
  have hy4 : Moves [.out, .regs, .log, .cmd, .host, .svc, .cart] s y4 := by
    unfold y4
    refine Moves.ite ?_ ?_
    ·
      exact Moves.step hy3 (raiseSlot_moves ..) rfl
    ·
      exact hy3
  clear_value y4
  refine Moves.ite ?_ ?_
  ·
    exact Moves.step hy4 (finishKey_moves ..) rfl
  ·
    refine Moves.step ?_ (finishKey_moves ..) rfl
    exact Moves.step (Moves.refl _ s) (slotMod_moves ..) rfl

theorem execCartRampStep_moves (a0 s) : MovesAll hasNext [.out, .freeIx, .regs, .log, .cmd, .ports, .tbl, .cry, .host, .svc, .cart] s (execCartRampStep a0 s) := by
  unfold execCartRampStep
  extract_lets -merge -useContext -underBinder y0 y1 y2 y3 y4
  clear_value y0
  have hy1 : Moves [.out, .freeIx, .regs, .log, .cmd, .ports, .tbl, .cry, .host, .svc, .cart] s y1 := by
    unfold y1
    exact Moves.step (Moves.refl _ s) (stepLasers_moves ..) rfl
  clear_value y1
  have hy2 : Moves [.out, .freeIx, .regs, .log, .cmd, .ports, .tbl, .cry, .host, .svc, .cart] s y2 := by
    unfold y2
    refine Moves.ite ?_ ?_
    ·
      exact hy1
    ·
      exact Moves.step hy1 (stepLasers_moves ..) rfl
  clear_value y2
  have hy3 : Moves [.out, .freeIx, .regs, .log, .cmd, .ports, .tbl, .cry, .host, .svc, .cart] s y3 := by
    unfold y3
    exact Moves.step hy2 (slotMod_moves ..) rfl
  clear_value y3
  have hy4 : Moves [.out, .freeIx, .regs, .log, .cmd, .ports, .tbl, .cry, .host, .svc, .cart] s y4 := by
    unfold y4
    exact Moves.step hy3 (darkened_moves ..) rfl
  clear_value y4
  refine MovesAll.step ?_ (onSlot_moves _ _) rfl
  refine Moves.ite ?_ ?_
  ·
    exact (Moves.refl _ s)
  ·
    refine Moves.ite ?_ ?_
    ·
      exact hy4
    ·
      refine Moves.ite ?_ ?_
      ·
        exact Moves.step hy4 (rampedDown_moves ..) rfl
      ·
        exact Moves.step hy4 (rampedUp_moves ..) rfl

theorem cartFails_moves (a0 s) : Moves [.out, .freeIx, .regs, .log, .cmd, .ports, .tbl, .cry, .host, .svc, .cart] s (cartFails a0 s) := by
  unfold cartFails
  extract_lets -merge -useContext -underBinder y0
  have hy0 : Moves [.out, .freeIx, .regs, .log, .cmd, .ports, .tbl, .cry, .host, .svc, .cart] s y0 := by
    unfold y0
    refine Moves.step ?_ (slotMod_moves ..) rfl
    exact Moves.step (Moves.refl _ s) (unbias_moves ..) rfl
  clear_value y0
  refine Moves.step ?_ (darkened_moves ..) rfl
  exact Moves.step hy0 (lightGone_moves ..) rfl

theorem execLaserFailure_moves (a0 a1 s) : MovesAll hasNext [.out, .freeIx, .regs, .log, .cmd, .ports, .tbl, .cry, .host, .svc, .cart] s (execLaserFailure a0 a1 s) := by
  unfold execLaserFailure
  extract_lets -merge -useContext -underBinder y0 y1 y2 y3 y4 y5 y6 y7 y8
  clear_value y0
  have hy1 : Moves [.out, .freeIx, .regs, .log, .cmd, .ports, .tbl, .cry, .host, .svc, .cart] s y1 := by
    unfold y1
    exact Moves.step (Moves.refl _ s) (setTarget_moves ..) rfl
  clear_value y1
  have hy2 : Moves [.out, .freeIx, .regs, .log, .cmd, .ports, .tbl, .cry, .host, .svc, .cart] s y2 := by
    unfold y2
    exact Moves.step hy1 (slotMod_moves ..) rfl
  clear_value y2
  have hy3 : Moves [.out, .freeIx, .regs, .log, .cmd, .ports, .tbl, .cry, .host, .svc, .cart] s y3 := by
    unfold y3
    split
    ·
      exact Moves.step hy2 (putLife_moves ..) rfl
    ·
      exact hy2
  clear_value y3
  have hy4 : Moves [.out, .freeIx, .regs, .log, .cmd, .ports, .tbl, .cry, .host, .svc, .cart] s y4 := by
    unfold y4
    exact Moves.step hy3 (rampBack_moves ..) rfl
  clear_value y4
  clear_value y5
  clear_value y6
  have hy7 : Moves [.out, .freeIx, .regs, .log, .cmd, .ports, .tbl, .cry, .host, .svc, .cart] s y7 := by
    unfold y7
    refine Moves.ite ?_ ?_
    ·
      exact Moves.step hy4 (setTarget_moves ..) rfl
    ·
      exact hy4
  clear_value y7
  have hy8 : Moves [.out, .freeIx, .regs, .log, .cmd, .ports, .tbl, .cry, .host, .svc, .cart] s y8 := by
    unfold y8
    refine Moves.step ?_ (replaceDue_moves ..) rfl
    exact Moves.step hy7 (raiseSlot_moves ..) rfl
  clear_value y8
  refine hasNext_onElem ?_
  refine Moves.ite ?_ ?_
  ·
    exact (Moves.refl _ s)
  ·
    refine Moves.ite ?_ ?_
    ·
      refine Moves.step ?_ (darkened_moves ..) rfl
      refine Moves.step ?_ (lightGone_moves ..) rfl
      exact Moves.step hy8 (slotMod_moves ..) rfl
    ·
      exact Moves.step hy8 (darkened_moves ..) rfl

theorem execCartFatalFault_moves (a0 s) : MovesAll hasNext [.out, .freeIx, .regs, .log, .cmd, .ports, .tbl, .cry, .host, .svc, .cart] s (execCartFatalFault a0 s) := by
  unfold execCartFatalFault
  refine MovesAll.step ?_ (onSlot_moves _ _) rfl
  refine Moves.ite ?_ ?_
  ·
    exact Moves.step (Moves.refl _ s) (cartFails_moves ..) rfl
  ·
    exact (Moves.refl _ s)

theorem execCartLatchOpen_moves (a0 s) : MovesAll hasNext [.out, .freeIx, .regs, .log, .cmd, .host, .svc, .cart] s (execCartLatchOpen a0 s) := by
  unfold execCartLatchOpen
  refine MovesAll.step ?_ (onSlot_moves _ _) rfl
  refine Moves.ite ?_ ?_
  ·
    refine Moves.step ?_ (lightGone_moves ..) rfl
    exact Moves.step (Moves.refl _ s) (slotMod_moves ..) rfl
  ·
    exact (Moves.refl _ s)

theorem lifeOut_moves (a0 s) : Moves [.out, .cart] s (lifeOut a0 s) := by
  unfold lifeOut
  split
  ·
    exact Moves.step (Moves.refl _ s) (putLife_moves ..) rfl
  ·
    exact (Moves.refl _ s)

theorem execCartPresenceOpen_moves (a0 s) : MovesAll hasNext [.out, .freeIx, .regs, .log, .cmd, .ports, .tbl, .cry, .host, .svc, .cart] s (execCartPresenceOpen a0 s) := by
  unfold execCartPresenceOpen
  extract_lets -merge -useContext -underBinder y0 y1 y2 y3 y4
  clear_value y0
  clear_value y1
  have hy2 : Moves [.out, .freeIx, .regs, .log, .cmd, .ports, .tbl, .cry, .host, .svc, .cart] s y2 := by
    unfold y2
    exact Moves.step (Moves.refl _ s) (lifeOut_moves ..) rfl
  clear_value y2
  have hy3 : Moves [.out, .freeIx, .regs, .log, .cmd, .ports, .tbl, .cry, .host, .svc, .cart] s y3 := by
    unfold y3
    refine Moves.ite ?_ ?_
    ·
      refine Moves.step ?_ (lightGone_moves ..) rfl
      exact Moves.step hy2 (slotMod_moves ..) rfl
    ·
      exact hy2
  clear_value y3
  have hy4 : Moves [.out, .freeIx, .regs, .log, .cmd, .ports, .tbl, .cry, .host, .svc, .cart] s y4 := by
    unfold y4
    refine Moves.step ?_ (darkened_moves ..) rfl
    exact Moves.step hy3 (slotMod_moves ..) rfl
  clear_value y4
  refine MovesAll.step ?_ (onSlot_moves _ _) rfl
  refine Moves.ite ?_ ?_
  ·
    exact (Moves.refl _ s)
  ·
    refine Moves.ite ?_ ?_
    ·
      exact Moves.step hy4 (raiseSlot_moves ..) rfl
    ·
      refine Moves.ite ?_ ?_
      ·
        exact Moves.step hy4 (raiseSlot_moves ..) rfl
      ·
        exact hy4

theorem execOpticalEngineFault_moves (a0 a1 s) : MovesAll hasNext [.regs, .log, .ports, .tbl, .cry, .cart] s (execOpticalEngineFault a0 a1 s) := by
  unfold execOpticalEngineFault
  refine hasNext_onElem ?_
  exact Moves.step (Moves.refl _ s) (engineFault_moves ..) rfl

theorem execLaneFault_moves (a0 s) : MovesAll hasNext [.regs, .log, .ports, .tbl, .cry, .cart] s (execLaneFault a0 s) := by
  unfold execLaneFault
  refine hasNext_onElem ?_
  refine Moves.step ?_ (portDark_moves ..) rfl
  exact Moves.step (Moves.refl _ s) (cartMod_moves ..) rfl

theorem execCartBusSilence_moves (a0 s) : MovesAll hasNext [.regs, .log, .cart] s (execCartBusSilence a0 s) := by
  unfold execCartBusSilence
  refine MovesAll.step ?_ (onSlot_moves _ _) rfl
  refine Moves.ite ?_ ?_
  ·
    refine Moves.step ?_ (raiseSlot_moves ..) rfl
    exact Moves.step (Moves.refl _ s) (slotMod_moves ..) rfl
  ·
    exact (Moves.refl _ s)

theorem execCartBusRestored_moves (a0 s) : MovesAll hasNext [.cart] s (execCartBusRestored a0 s) := by
  unfold execCartBusRestored
  refine MovesAll.step ?_ (onSlot_moves _ _) rfl
  exact Moves.step (Moves.refl _ s) (slotMod_moves ..) rfl

theorem execCartReplaceReminder_moves (a0 s) : MovesAll hasNext [.regs, .log, .cart] s (execCartReplaceReminder a0 s) := by
  unfold execCartReplaceReminder
  refine MovesAll.step ?_ (onSlot_moves _ _) rfl
  refine Moves.ite ?_ ?_
  ·
    exact Moves.step (Moves.refl _ s) (replaceDue_moves ..) rfl
  ·
    exact (Moves.refl _ s)

theorem busReturns.rampBackIfDown_moves (a0 s) : Moves [.out, .regs, .log, .cmd, .host, .svc, .cart] s (busReturns.rampBackIfDown a0 s) := by
  unfold busReturns.rampBackIfDown
  refine Moves.ite ?_ ?_
  ·
    exact Moves.step (Moves.refl _ s) (rampBack_moves ..) rfl
  ·
    exact (Moves.refl _ s)

theorem busReturns_moves (a0 s) : Moves [.out, .regs, .log, .cmd, .host, .svc, .cart] s (busReturns a0 s) := by
  unfold busReturns
  refine Moves.foldl ?_ (fun t0 x1 ht0 => ?_)
  ·
    exact (Moves.refl _ s)
  ·
    exact Moves.step ht0 (busReturns.rampBackIfDown_moves ..) rfl

theorem opCartRead_moves (c s) : DoneMoves [] s ((opCartRead).body c s) := by
  unfold opCartRead
  refine op_mk ?_
  extract_lets -merge -useContext -underBinder y0 y1
  clear_value y0
  clear_value y1
  refine hasDone_reply ?_
  exact (Moves.refl _ s)

theorem execCartRead_moves (a0 s) : MovesAll hasNext [.waiting, .out, .regs, .log, .cmd, .prot, .host, .svc] s (execCartRead a0 s) := by
  unfold execCartRead
  refine hasNext_next ?_
  exact Moves.step (Moves.refl _ s) (runCmd_moves _ _ _ (opCartRead_moves ..)) rfl

theorem opCartPrepareSwap_moves (c s) : DoneMoves [.cart] s ((opCartPrepareSwap).body c s) := by
  unfold opCartPrepareSwap
  refine op_mk ?_
  extract_lets -merge -useContext -underBinder y0
  clear_value y0
  refine DoneMoves.ite ?_ ?_
  ·
    exact hasDone_refuse
  ·
    refine DoneMoves.ite ?_ ?_
    ·
      exact hasDone_refuse
    ·
      refine hasDone_accept ?_ (fun u => Moves.refl _ u)
      exact Moves.step (Moves.refl _ s) (slotMod_moves ..) rfl

theorem execCartPrepareSwap_moves (a0 s) : MovesAll hasNext [.waiting, .out, .regs, .log, .cmd, .prot, .host, .svc, .cart] s (execCartPrepareSwap a0 s) := by
  unfold execCartPrepareSwap
  refine hasNext_next ?_
  exact Moves.step (Moves.refl _ s) (runCmd_moves _ _ _ (opCartPrepareSwap_moves ..)) rfl

theorem opCartCancelSwap_moves (c s) : DoneMoves [.out, .regs, .log, .cmd, .host, .svc, .cart] s ((opCartCancelSwap).body c s) := by
  unfold opCartCancelSwap
  refine op_mk ?_
  extract_lets -merge -useContext -underBinder y0 y1
  clear_value y0
  clear_value y1
  refine DoneMoves.ite ?_ ?_
  ·
    refine hasDone_reply ?_
    exact (Moves.refl _ s)
  ·
    refine DoneMoves.ite ?_ ?_
    ·
      refine hasDone_accept ?_ ?_
      ·
        exact (Moves.refl _ s)
      ·
        intro u2
        exact Moves.step (Moves.refl _ u2) (rampBack_moves ..) rfl
    ·
      exact hasDone_refuse

theorem execCartCancelSwap_moves (a0 s) : MovesAll hasNext [.waiting, .out, .regs, .log, .cmd, .prot, .host, .svc, .cart] s (execCartCancelSwap a0 s) := by
  unfold execCartCancelSwap
  refine hasNext_next ?_
  exact Moves.step (Moves.refl _ s) (runCmd_moves _ _ _ (opCartCancelSwap_moves ..)) rfl

end Sys2Proof.Machine
end

