-- ==== Sys2Proof/Laws/Moves5.lean ====
section
/-! SUPPORT. What the operations of Machine/Sheet, CfgCmds, Twin, Boot, Power may change: one lemma `<operation>_moves` per operation. -/

set_option Elab.async false

namespace Sys2Proof.Machine

theorem opAgeReport_moves (c s) : DoneMoves [.freeIx] s ((opAgeReport).body c s) := by
  unfold opAgeReport
  refine op_mk ?_
  extract_lets -merge -useContext -underBinder y0 y1
  clear_value y0
  clear_value y1
  refine DoneMoves.ite ?_ ?_
  ·
    refine hasDone_reply ?_
    exact (Moves.refl _ s)
  ·
    refine DoneMoves.ite ?_ ?_
    ·
      refine hasDone_reply ?_
      exact (Moves.refl _ s)
    ·
      split
      ·
        rename_i v2 v3 e4
        have hv3 : Moves [.freeIx] s v3 := by
          refine MovesAll.of_eq (has := hasSnd) e4 rfl ?_
          refine MovesAll.ite ?_ ?_
          ·
            exact MovesAll.step (Moves.refl _ s) (drawFree_moves _) rfl
          ·
            refine hasSnd_mk ?_
            exact (Moves.refl _ s)
        refine hasDone_reply ?_
        exact hv3

theorem execAgeReport_moves (a0 s) : MovesAll hasNext [.waiting, .out, .freeIx, .regs, .log, .cmd, .prot, .host, .svc] s (execAgeReport a0 s) := by
  unfold execAgeReport
  refine hasNext_next ?_
  exact Moves.step (Moves.refl _ s) (runCmd_moves _ _ _ (opAgeReport_moves ..)) rfl

theorem lifeSample_moves (a0 s) : Moves [.cart] s (lifeSample a0 s) := by
  unfold lifeSample
  split
  ·
    extract_lets -merge -useContext -underBinder y0
    have hy0 : Moves [.cart] s y0 := by
      unfold y0
      exact Moves.step (Moves.refl _ s) (slotMod_moves ..) rfl
    clear_value y0
    refine Moves.ite ?_ ?_
    ·
      split
      ·
        extract_lets -merge -useContext -underBinder y1 y2
        clear_value y1
        clear_value y2
        exact Moves.step hy0 (cartMod_moves ..) rfl
      ·
        exact hy0
    ·
      exact (Moves.refl _ s)

theorem cartDay_moves (a0 a1 s) : Moves [.out, .regs, .log, .cart] s (cartDay a0 a1 s) := by
  unfold cartDay
  split
  ·
    exact (Moves.refl _ s)
  ·
    extract_lets -merge -useContext -underBinder y0 y1 y2 y3 y4
    clear_value y0
    have hy1 : Moves [.out, .regs, .log, .cart] s y1 := by
      unfold y1
      refine Moves.ite ?_ ?_
      ·
        exact Moves.step (Moves.refl _ s) (putLife_moves ..) rfl
      ·
        exact (Moves.refl _ s)
    clear_value y1
    clear_value y2
    have hy3 : Moves [.out, .regs, .log, .cart] s y3 := by
      unfold y3
      exact Moves.step hy1 (slotMod_moves ..) rfl
    clear_value y3
    have hy4 : Moves [.out, .regs, .log, .cart] s y4 := by
      unfold y4
      refine Moves.ite ?_ ?_
      ·
        exact hy3
      ·
        exact Moves.step hy3 (emit_moves ..) rfl
    clear_value y4
    refine Moves.ite ?_ ?_
    ·
      exact Moves.step hy4 (replaceDue_moves ..) rfl
    ·
      exact hy4

theorem projectionLow_moves (a0 s) : Moves [.regs, .log, .age] s (projectionLow a0 s) := by
  unfold projectionLow
  extract_lets -merge -useContext -underBinder y0 y1 y2 y3
  clear_value y0
  clear_value y1
  clear_value y2
  have hy3 : Moves [.regs, .log, .age] s y3 := by
    unfold y3
    exact Moves.step (Moves.refl _ s) (ageMod_moves ..) rfl
  clear_value y3
  refine Moves.ite ?_ ?_
  ·
    exact Moves.step hy3 (raise_moves ..) rfl
  ·
    exact hy3

theorem execContactSheet_moves (a0 s) : MovesAll hasNext [.out, .regs, .log, .mem, .cart, .age, .flash] s (execContactSheet a0 s) := by
  unfold execContactSheet
  extract_lets -merge -useContext -underBinder y0 y1 y2 y3 y4 y5 y6 y7 y8 y9 y10 y11 y12
  have hy0 : Moves [.out, .regs, .log, .mem, .cart, .age, .flash] s y0 := by
    unfold y0
    refine Moves.foldl ?_ (fun t13 x14 ht13 => ?_)
    ·
      exact (Moves.refl _ s)
    ·
      refine Moves.ite ?_ ?_
      ·
        exact ht13
      ·
        refine Moves.step ?_ (raise_moves ..) rfl
        exact Moves.step ht13 (ageMod_moves ..) rfl
  clear_value y0
  have hy1 : Moves [.out, .regs, .log, .mem, .cart, .age, .flash] s y1 := by
    unfold y1
    refine Moves.foldl ?_ (fun t15 x16 ht15 => ?_)
    ·
      exact hy0
    ·
      exact Moves.step ht15 (dieAgeMod_moves ..) rfl
  clear_value y1
  have hy2 : Moves [.out, .regs, .log, .mem, .cart, .age, .flash] s y2 := by
    unfold y2
    exact Moves.step hy1 (ageMod_moves ..) rfl
  clear_value y2
  have hy3 : Moves [.out, .regs, .log, .mem, .cart, .age, .flash] s y3 := by
    unfold y3
    refine Moves.foldl ?_ (fun t17 x18 ht17 => ?_)
    ·
      exact hy2
    ·
      exact Moves.step ht17 (lifeSample_moves ..) rfl
  clear_value y3
  have hy4 : Moves [.out, .regs, .log, .mem, .cart, .age, .flash] s y4 := by
    unfold y4
    refine Moves.foldl ?_ (fun t19 x20 ht19 => ?_)
    ·
      exact hy3
    ·
      exact Moves.step ht19 (cartDay_moves ..) rfl
  clear_value y4
  clear_value y5
  clear_value y6
  clear_value y7
  clear_value y8
  have hy9 : Moves [.out, .regs, .log, .mem, .cart, .age, .flash] s y9 := by
    unfold y9
    refine Moves.step ?_ (toFlash_moves ..) rfl
    exact Moves.step hy4 (ageMod_moves ..) rfl
  clear_value y9
  have hy11 : Moves [.out, .regs, .log, .mem, .cart, .age, .flash] s y11 := by
    unfold y11
    exact Moves.step (m := [.mem]) hy9 (Moves.leafMem (by intro x hx; cases x <;> first | rfl | exact absurd (by decide) hx) rfl rfl rfl rfl) rfl
  clear_value y11
  have hy12 : Moves [.out, .regs, .log, .mem, .cart, .age, .flash] s y12 := by
    unfold y12
    exact Moves.step hy11 (writeTime_moves ..) rfl
  clear_value y12
  refine hasNext_next ?_
  refine Moves.step ?_ (projectionLow_moves ..) rfl
  exact Moves.step hy12 (raise_moves ..) rfl

theorem opCfgStage_moves (c s) : DoneMoves [.cfg] s ((opCfgStage).body c s) := by
  unfold opCfgStage
  extract_lets -merge -useContext -underBinder src
  change DoneMoves _ s (src.body c s)
  unfold src
  refine op_mk ?_
  refine DoneMoves.ite ?_ ?_
  ·
    exact hasDone_refuse
  ·
    split
    ·
      exact hasDone_refuse
    ·
      extract_lets -merge -useContext -underBinder y0 y1
      clear_value y0
      clear_value y1
      refine hasDone_reply ?_
      exact Moves.step (Moves.refl _ s) (cfgMod_moves ..) rfl

theorem execCfgStage_moves (a0 s) : MovesAll hasNext [.waiting, .out, .regs, .log, .cmd, .cfg, .prot, .host, .svc] s (execCfgStage a0 s) := by
  unfold execCfgStage
  refine hasNext_next ?_
  exact Moves.step (Moves.refl _ s) (runCmd_moves _ _ _ (opCfgStage_moves ..)) rfl

theorem opCfgDiscard_moves (c s) : DoneMoves [.regs, .log, .cfg, .tbl] s ((opCfgDiscard).body c s) := by
  unfold opCfgDiscard
  extract_lets -merge -useContext -underBinder src
  change DoneMoves _ s (src.body c s)
  unfold src
  refine op_mk ?_
  split
  ·
    exact hasDone_refuse
  ·
    refine hasDone_reply ?_
    exact Moves.step (Moves.refl _ s) (discardStage_moves ..) rfl

theorem execCfgDiscard_moves (a0 s) : MovesAll hasNext [.waiting, .out, .regs, .log, .cmd, .cfg, .prot, .tbl, .host, .svc] s (execCfgDiscard a0 s) := by
  unfold execCfgDiscard
  refine hasNext_next ?_
  exact Moves.step (Moves.refl _ s) (runCmd_moves _ _ _ (opCfgDiscard_moves ..)) rfl

theorem restage_moves (s) : Moves [.mem] s (restage s) := by
  unfold restage
  exact Moves.step (Moves.refl _ s) (areaRewritten_moves ..) rfl

theorem startFix_moves (a0 s) : Moves [.out, .freeIx, .regs, .log, .cmd, .cfg, .ports, .tbl, .buf, .cry, .flow, .host, .svc, .mem] s (startFix a0 s) := by
  unfold startFix
  split
  ·
    exact (Moves.refl _ s)
  ·
    extract_lets -merge -useContext -underBinder y0 y1 y2
    have hy0 : Moves [.out, .freeIx, .regs, .log, .cmd, .cfg, .ports, .tbl, .buf, .cry, .flow, .host, .svc, .mem] s y0 := by
      unfold y0
      refine Moves.step ?_ (freezeStage_moves ..) rfl
      refine Moves.step ?_ (touchStage_moves ..) rfl
      exact Moves.step (Moves.refl _ s) (restage_moves ..) rfl
    clear_value y0
    clear_value y1
    have hy2 : Moves [.out, .freeIx, .regs, .log, .cmd, .cfg, .ports, .tbl, .buf, .cry, .flow, .host, .svc, .mem] s y2 := by
      unfold y2
      exact Moves.step hy0 (cfgMod_moves ..) rfl
    clear_value y2
    split
    ·
      exact Moves.step hy2 (refuseFix_moves ..) rfl
    ·
      extract_lets -merge -useContext -underBinder y3
      have hy3 : Moves [.out, .freeIx, .regs, .log, .cmd, .cfg, .ports, .tbl, .buf, .cry, .flow, .host, .svc, .mem] s y3 := by
        unfold y3
        exact Moves.step hy2 (toFlash_moves ..) rfl
      clear_value y3
      refine Moves.ite ?_ ?_
      ·
        exact Moves.step hy3 (sendTwin_moves ..) rfl
      ·
        exact Moves.step hy3 (commitFix_moves ..) rfl

theorem opCfgFix_moves (c s) : DoneMoves [.out, .freeIx, .regs, .log, .cmd, .cfg, .ports, .tbl, .buf, .cry, .flow, .host, .svc, .mem] s ((opCfgFix).body c s) := by
  unfold opCfgFix
  extract_lets -merge -useContext -underBinder src
  change DoneMoves _ s (src.body c s)
  unfold src
  refine op_mk ?_
  split
  ·
    exact hasDone_refuse
  ·
    refine DoneMoves.ite ?_ ?_
    ·
      exact hasDone_refuse
    ·
      refine hasDone_accept ?_ ?_
      ·
        exact (Moves.refl _ s)
      ·
        intro u0
        exact Moves.step (Moves.refl _ u0) (startFix_moves ..) rfl

theorem execCfgFix_moves (a0 s) : MovesAll hasNext [.waiting, .out, .freeIx, .regs, .log, .cmd, .cfg, .prot, .ports, .tbl, .buf, .cry, .flow, .host, .svc, .mem] s (execCfgFix a0 s) := by
  unfold execCfgFix
  refine hasNext_next ?_
  exact Moves.step (Moves.refl _ s) (runCmd_moves _ _ _ (opCfgFix_moves ..)) rfl

theorem opCfgWrite_moves (c s) : DoneMoves [.cfg] s ((opCfgWrite).body c s) := by
  unfold opCfgWrite
  extract_lets -merge -useContext -underBinder src
  change DoneMoves _ s (src.body c s)
  unfold src
  refine op_mk ?_
  extract_lets -merge -useContext -underBinder y0 y1 y2 y3 y4
  clear_value y0
  clear_value y1
  clear_value y2
  clear_value y3
  clear_value y4
  refine DoneMoves.ite ?_ ?_
  ·
    exact hasDone_refuse
  ·
    refine DoneMoves.ite ?_ ?_
    ·
      exact hasDone_refuse
    ·
      refine DoneMoves.ite ?_ ?_
      ·
        exact hasDone_refuse
      ·
        split
        ·
          exact hasDone_refuse
        ·
          split
          ·
            exact hasDone_refuse
          ·
            extract_lets -merge -useContext -underBinder y5
            clear_value y5
            refine DoneMoves.ite ?_ ?_
            ·
              exact hasDone_refuse
            ·
              refine hasDone_reply ?_
              refine Moves.step ?_ (touchStage_moves ..) rfl
              exact Moves.step (Moves.refl _ s) (cfgMod_moves ..) rfl

theorem execCfgWrite_moves (a0 s) : MovesAll hasNext [.waiting, .out, .regs, .log, .cmd, .cfg, .prot, .host, .svc] s (execCfgWrite a0 s) := by
  unfold execCfgWrite
  refine hasNext_next ?_
  exact Moves.step (Moves.refl _ s) (runCmd_moves _ _ _ (opCfgWrite_moves ..)) rfl

theorem opCfgOverlay_moves (c s) : DoneMoves [.cfg] s ((opCfgOverlay).body c s) := by
  unfold opCfgOverlay
  extract_lets -merge -useContext -underBinder src
  change DoneMoves _ s (src.body c s)
  unfold src
  refine op_mk ?_
  extract_lets -merge -useContext -underBinder y0 y1 y2
  clear_value y0
  clear_value y1
  clear_value y2
  refine DoneMoves.ite ?_ ?_
  ·
    exact hasDone_refuse
  ·
    refine DoneMoves.ite ?_ ?_
    ·
      exact hasDone_refuse
    ·
      split
      ·
        exact hasDone_refuse
      ·
        split
        ·
          exact hasDone_refuse
        ·
          extract_lets -merge -useContext -underBinder y3
          unfold y3
          split
          ·
            refine hasDone_reply ?_
            refine Moves.step ?_ (touchStage_moves ..) rfl
            exact Moves.step (Moves.refl _ s) (cfgMod_moves ..) rfl
          ·
            refine hasDone_reply ?_
            refine Moves.step ?_ (touchStage_moves ..) rfl
            exact Moves.step (Moves.refl _ s) (cfgMod_moves ..) rfl
          ·
            refine DoneMoves.ite ?_ ?_
            ·
              exact hasDone_refuse
            ·
              refine hasDone_reply ?_
              refine Moves.step ?_ (touchStage_moves ..) rfl
              exact Moves.step (Moves.refl _ s) (cfgMod_moves ..) rfl
          ·
            refine hasDone_reply ?_
            refine Moves.step ?_ (touchStage_moves ..) rfl
            exact Moves.step (Moves.refl _ s) (cfgMod_moves ..) rfl

theorem execCfgOverlay_moves (a0 s) : MovesAll hasNext [.waiting, .out, .regs, .log, .cmd, .cfg, .prot, .host, .svc] s (execCfgOverlay a0 s) := by
  unfold execCfgOverlay
  refine hasNext_next ?_
  exact Moves.step (Moves.refl _ s) (runCmd_moves _ _ _ (opCfgOverlay_moves ..)) rfl

theorem opCfgRead_moves (c s) : DoneMoves [.ports, .buf] s ((opCfgRead).body c s) := by
  unfold opCfgRead
  refine op_mk ?_
  extract_lets -merge -useContext -underBinder y0 y1 y2 y3 y4 y5 y6 y7
  clear_value y0
  clear_value y1
  clear_value y2
  clear_value y3
  clear_value y4
  clear_value y5
  clear_value y6
  clear_value y7
  refine DoneMoves.ite ?_ ?_
  ·
    exact hasDone_refuse
  ·
    refine DoneMoves.ite ?_ ?_
    ·
      exact hasDone_refuse
    ·
      split
      ·
        refine hasDone_reply ?_
        refine Moves.foldl ?_ (fun t8 x9 ht8 => ?_)
        ·
          exact (Moves.refl _ s)
        ·
          exact Moves.step ht8 (areaRead_moves ..) rfl
      ·
        split
        ·
          exact hasDone_refuse
        ·
          refine hasDone_reply ?_
          exact (Moves.refl _ s)
      ·
        refine hasDone_reply ?_
        exact (Moves.refl _ s)
      ·
        extract_lets -merge -useContext -underBinder y10
        clear_value y10
        refine hasDone_reply ?_
        exact (Moves.refl _ s)

theorem execCfgRead_moves (a0 s) : MovesAll hasNext [.waiting, .out, .regs, .log, .cmd, .prot, .ports, .buf, .host, .svc] s (execCfgRead a0 s) := by
  unfold execCfgRead
  refine hasNext_next ?_
  exact Moves.step (Moves.refl _ s) (runCmd_moves _ _ _ (opCfgRead_moves ..)) rfl

theorem execPrepareReceived_moves (a0 s) : MovesAll hasNext [.out, .cfg, .mem] s (execPrepareReceived a0 s) := by
  unfold execPrepareReceived
  extract_lets -merge -useContext -underBinder y0
  have hy0 : Moves [.out, .cfg, .mem] s y0 := by
    unfold y0
    exact Moves.step (Moves.refl _ s) (restage_moves ..) rfl
  clear_value y0
  refine hasNext_next ?_
  split
  ·
    exact Moves.step hy0 (sendTwin_moves ..) rfl
  ·
    refine Moves.ite ?_ ?_
    ·
      exact Moves.step hy0 (sendTwin_moves ..) rfl
    ·
      split
      ·
        exact Moves.step hy0 (sendTwin_moves ..) rfl
      ·
        extract_lets -merge -useContext -underBinder y1
        clear_value y1
        refine Moves.step ?_ (sendTwin_moves ..) rfl
        refine Moves.step ?_ (toFlash_moves ..) rfl
        refine Moves.step ?_ (freezeStage_moves ..) rfl
        exact Moves.step hy0 (cfgMod_moves ..) rfl

theorem execPreparedReceived_moves (a0 s) : MovesAll hasNext [.out, .freeIx, .regs, .log, .cmd, .cfg, .ports, .tbl, .buf, .cry, .flow, .host, .svc] s (execPreparedReceived a0 s) := by
  unfold execPreparedReceived
  refine hasNext_next ?_
  split
  ·
    refine Moves.ite ?_ ?_
    ·
      exact Moves.step (Moves.refl _ s) (commitFix_moves ..) rfl
    ·
      exact (Moves.refl _ s)
  ·
    exact (Moves.refl _ s)

theorem execRefusedReceived_moves (a0 a1 a2 s) : MovesAll hasNext [.out, .regs, .log, .cmd, .cfg, .host, .svc] s (execRefusedReceived a0 a1 a2 s) := by
  unfold execRefusedReceived
  refine hasNext_next ?_
  split
  ·
    extract_lets -merge -useContext -underBinder y0
    clear_value y0
    refine Moves.ite ?_ ?_
    ·
      exact Moves.step (Moves.refl _ s) (refuseFix_moves ..) rfl
    ·
      exact (Moves.refl _ s)
  ·
    exact (Moves.refl _ s)

theorem execCommitReceived_moves (a0 s) : MovesAll hasNext [.out, .freeIx, .regs, .log, .cfg, .ports, .tbl, .buf, .cry, .flow, .svc] s (execCommitReceived a0 s) := by
  unfold execCommitReceived
  refine hasNext_next ?_
  split
  ·
    extract_lets -merge -useContext -underBinder y0
    have hy0 : Moves [.out, .freeIx, .regs, .log, .cfg, .ports, .tbl, .buf, .cry, .flow, .svc] s y0 := by
      unfold y0
      exact Moves.step (Moves.refl _ s) (makeCurrent_moves ..) rfl
    clear_value y0
    refine Moves.ite ?_ ?_
    ·
      refine Moves.step ?_ (sendTwin_moves ..) rfl
      refine Moves.step ?_ (raise_moves ..) rfl
      exact Moves.step hy0 (countCfg_moves ..) rfl
    ·
      exact (Moves.refl _ s)
  ·
    exact (Moves.refl _ s)

theorem execCommittedReceived_moves (a0 s) : MovesAll hasNext [.out, .regs, .log, .cmd, .cfg, .host, .svc] s (execCommittedReceived a0 s) := by
  unfold execCommittedReceived
  refine hasNext_next ?_
  split
  ·
    refine Moves.ite ?_ ?_
    ·
      exact Moves.step (Moves.refl _ s) (endFix_moves ..) rfl
    ·
      exact (Moves.refl _ s)
  ·
    exact (Moves.refl _ s)

theorem execAbortReceived_moves (a0 s) : MovesAll hasNext [.out, .cfg, .ports, .tbl, .buf, .cry, .flow] s (execAbortReceived a0 s) := by
  unfold execAbortReceived
  refine hasNext_next ?_
  split
  ·
    refine Moves.ite ?_ ?_
    ·
      exact Moves.step (Moves.refl _ s) (dropPrepared_moves ..) rfl
    ·
      exact (Moves.refl _ s)
  ·
    exact (Moves.refl _ s)

theorem execPrepareReplyTimeout_moves (s) : MovesAll hasNext [.out, .regs, .log, .cmd, .cfg, .host, .svc] s (execPrepareReplyTimeout s) := by
  unfold execPrepareReplyTimeout
  refine hasNext_next ?_
  split
  ·
    refine Moves.ite ?_ ?_
    ·
      exact (Moves.refl _ s)
    ·
      refine Moves.step ?_ (refuseFix_moves ..) rfl
      exact Moves.step (Moves.refl _ s) (sendTwin_moves ..) rfl
  ·
    exact (Moves.refl _ s)

theorem execStageTimeout_moves (s) : MovesAll hasNext [.out, .regs, .log, .cfg, .tbl] s (execStageTimeout s) := by
  unfold execStageTimeout
  refine hasNext_next ?_
  split
  ·
    refine Moves.ite ?_ ?_
    ·
      exact (Moves.refl _ s)
    ·
      exact Moves.step (Moves.refl _ s) (discardBoth_moves ..) rfl
  ·
    exact (Moves.refl _ s)

theorem execEpochHoldExpiry_moves (a0 s) : MovesAll hasNext [.out, .regs, .log, .cfg, .ports, .tbl, .buf, .cry, .flow] s (execEpochHoldExpiry a0 s) := by
  unfold execEpochHoldExpiry
  refine hasNext_next ?_
  split
  ·
    refine Moves.ite ?_ ?_
    ·
      refine Moves.step ?_ (retireIdle_moves ..) rfl
      exact Moves.step (Moves.refl _ s) (retire1_moves ..) rfl
    ·
      exact (Moves.refl _ s)
  ·
    exact (Moves.refl _ s)

theorem endReseed_moves (a0 a1 s) : Moves [.out, .freeIx, .regs, .log, .cmd, .tbl, .host, .svc] s (endReseed a0 a1 s) := by
  unfold endReseed
  extract_lets -merge -useContext -underBinder y0 y1
  clear_value y0 y1
  split
  rename_i v2 v3 e4
  have hv3 : Moves [.out, .freeIx, .regs, .log, .cmd, .tbl, .host, .svc] s v3 := by
    refine MovesAll.of_eq (has := hasSnd) e4 rfl ?_
    exact MovesAll.step (Moves.refl _ s) (drawRandom_moves _) rfl
  extract_lets -merge -useContext -underBinder y5 y6 y7 y8
  clear_value y5 y6 y7
  have hd : ∀ t, Moves [.out, .freeIx, .regs, .log, .cmd, .tbl, .host, .svc] t (y8 t) := by
    intro t
    unfold y8
    refine Moves.step ?_ (raise_moves ..) rfl
    exact Moves.step (m := [.tbl]) (Moves.refl _ t) (Moves.leaf (by intro x hx; cases x <;> first | rfl | exact absurd (by decide) hx) rfl rfl rfl rfl) rfl
  clear_value y8
  refine Moves.ite (Moves.step (Moves.step hv3 (finishKey_moves ..) rfl) (hd _) rfl) ?_
  split
  · exact hv3
  · extract_lets -merge -useContext -underBinder y10 y11 y12 y13 y14 y15
    clear_value y10 y11
    have hy13 : Moves [.out, .freeIx, .regs, .log, .cmd, .tbl, .host, .svc] s y13 := by
      unfold y13
      refine Moves.step ?_ (putEntries_moves ..) rfl
      exact Moves.step (m := [.tbl]) hv3 (Moves.leaf (by intro x hx; cases x <;> first | rfl | exact absurd (by decide) hx) rfl rfl rfl rfl) rfl
    clear_value y13 y14 y15
    refine Moves.ite hv3 ?_
    refine Moves.step ?_ (finishKey_moves ..) rfl
    exact Moves.step (Moves.step hy13 (loadEvents_moves ..) rfl) (hd _) rfl

theorem execTblReseedDone_moves (a0 s) : MovesAll hasNext [.out, .freeIx, .regs, .log, .cmd, .cfg, .ports, .tbl, .buf, .cry, .flow, .host, .svc] s (execTblReseedDone a0 s) := by
  unfold execTblReseedDone
  refine hasNext_onElem ?_
  split
  ·
    refine Moves.step ?_ (resumeFix_moves ..) rfl
    exact Moves.step (Moves.refl _ s) (endReseed_moves ..) rfl
  ·
    exact (Moves.refl _ s)

theorem joinDone_moves (s) : Moves [.out, .freeIx, .regs, .log, .twin, .ports, .tbl, .cry] s (joinDone s) := by
  unfold joinDone
  refine Moves.ite ?_ ?_
  ·
    refine Moves.step ?_ (setTwin_moves ..) rfl
    refine Moves.step ?_ (countTwin_moves ..) rfl
    exact Moves.step (Moves.refl _ s) (twinMod_moves ..) rfl
  ·
    exact (Moves.refl _ s)

theorem leadJoin_moves (s) : Moves [.out, .twin] s (leadJoin s) := by
  unfold leadJoin
  extract_lets -merge -useContext -underBinder y0 y1
  clear_value y0
  have hy1 : Moves [.out, .twin] s y1 := by
    unfold y1
    exact Moves.step (Moves.refl _ s) (twinMod_moves ..) rfl
  clear_value y1
  refine Moves.step ?_ (sendTwin_moves ..) rfl
  exact Moves.step hy1 (sendTwin_moves ..) rfl

theorem becomeJoiner_moves (s) : Moves [.out, .freeIx, .regs, .log, .twin, .ports, .tbl, .cry] s (becomeJoiner s) := by
  unfold becomeJoiner
  extract_lets -merge -useContext -underBinder y0
  clear_value y0
  refine Moves.step ?_ (setTwin_moves ..) rfl
  exact Moves.step (Moves.refl _ s) (twinMod_moves ..) rfl

theorem joinOn_moves (a0 a1 s) : Moves [.out, .freeIx, .regs, .log, .twin, .ports, .tbl, .cry] s (joinOn a0 a1 s) := by
  unfold joinOn
  refine Moves.ite ?_ ?_
  ·
    exact (Moves.refl _ s)
  ·
    split
    ·
      refine Moves.ite ?_ ?_
      ·
        exact Moves.step (Moves.refl _ s) (becomeJoiner_moves ..) rfl
      ·
        exact (Moves.refl _ s)
    ·
      extract_lets -merge -useContext -underBinder y0
      clear_value y0
      refine Moves.ite ?_ ?_
      ·
        exact Moves.step (Moves.refl _ s) (becomeJoiner_moves ..) rfl
      ·
        refine Moves.ite ?_ ?_
        ·
          refine Moves.ite ?_ ?_
          ·
            exact Moves.step (Moves.refl _ s) (leadJoin_moves ..) rfl
          ·
            exact Moves.step (Moves.refl _ s) (becomeJoiner_moves ..) rfl
        ·
          exact (Moves.refl _ s)
    ·
      refine Moves.ite ?_ ?_
      ·
        exact Moves.step (Moves.refl _ s) (leadJoin_moves ..) rfl
      ·
        exact (Moves.refl _ s)
    ·
      exact (Moves.refl _ s)

theorem execHeartbeatSend_moves (s) : MovesAll hasNext [.out, .twin] s (execHeartbeatSend s) := by
  unfold execHeartbeatSend
  extract_lets -merge -useContext -underBinder y0 y1
  clear_value y0
  clear_value y1
  refine hasNext_next ?_
  refine Moves.ite ?_ ?_
  ·
    exact (Moves.refl _ s)
  ·
    refine Moves.step ?_ (countTwin_moves ..) rfl
    refine Moves.step ?_ (sendTwin_moves ..) rfl
    exact Moves.step (Moves.refl _ s) (twinMod_moves ..) rfl

theorem execHeartbeatReceived_moves (a0 a1 a2 a3 s) : MovesAll hasNext [.out, .freeIx, .regs, .log, .cmd, .cfg, .twin, .ports, .tbl, .buf, .cry, .flow, .host, .svc] s (execHeartbeatReceived a0 a1 a2 a3 s) := by
  unfold execHeartbeatReceived
  extract_lets -merge -useContext -underBinder y0 y1
  have hy0 : Moves [.out, .freeIx, .regs, .log, .cmd, .cfg, .twin, .ports, .tbl, .buf, .cry, .flow, .host, .svc] s y0 := by
    unfold y0
    exact Moves.step (Moves.refl _ s) (twinMod_moves ..) rfl
  clear_value y0
  have hy1 : Moves [.out, .freeIx, .regs, .log, .cmd, .cfg, .twin, .ports, .tbl, .buf, .cry, .flow, .host, .svc] s y1 := by
    unfold y1
    exact Moves.step hy0 (twinMod_moves ..) rfl
  clear_value y1
  refine hasNext_next ?_
  refine Moves.ite ?_ ?_
  ·
    exact (Moves.refl _ s)
  ·
    refine Moves.ite ?_ ?_
    ·
      split
      ·
        exact Moves.step hy1 (setTwin_moves ..) rfl
      ·
        refine Moves.step ?_ (joinOn_moves ..) rfl
        exact Moves.step hy1 (setTwin_moves ..) rfl
      ·
        refine Moves.step ?_ (resumeFix_moves ..) rfl
        exact Moves.step hy1 (setTwin_moves ..) rfl
    ·
      exact Moves.step hy0 (joinOn_moves ..) rfl

theorem execHeartbeatMissed_moves (s) : MovesAll hasNext [.out, .freeIx, .regs, .log, .twin, .ports, .tbl, .cry] s (execHeartbeatMissed s) := by
  unfold execHeartbeatMissed
  extract_lets -merge -useContext -underBinder y0 y1
  clear_value y0
  have hy1 : Moves [.out, .freeIx, .regs, .log, .twin, .ports, .tbl, .cry] s y1 := by
    unfold y1
    refine Moves.step ?_ (countTwin_moves ..) rfl
    exact Moves.step (Moves.refl _ s) (twinMod_moves ..) rfl
  clear_value y1
  refine hasNext_next ?_
  refine Moves.ite ?_ ?_
  ·
    exact (Moves.refl _ s)
  ·
    refine Moves.ite ?_ ?_
    ·
      refine Moves.step ?_ (enterSuspect_moves ..) rfl
      exact Moves.step hy1 (twinMod_moves ..) rfl
    ·
      exact hy1

theorem execTwinAbsentAtStart_moves (s) : MovesAll hasNext [.out, .freeIx, .regs, .log, .twin, .ports, .tbl, .cry] s (execTwinAbsentAtStart s) := by
  unfold execTwinAbsentAtStart
  refine hasNext_next ?_
  refine Moves.ite ?_ ?_
  ·
    refine Moves.step ?_ (enterSuspect_moves ..) rfl
    exact Moves.step (Moves.refl _ s) (twinMod_moves ..) rfl
  ·
    exact (Moves.refl _ s)

theorem execWitnessClaimResend_moves (s) : MovesAll hasNext [.out, .freeIx, .regs, .log, .twin, .cry] s (execWitnessClaimResend s) := by
  unfold execWitnessClaimResend
  refine hasNext_next ?_
  refine Moves.ite ?_ ?_
  ·
    exact Moves.step (Moves.refl _ s) (witnessSend_moves ..) rfl
  ·
    exact (Moves.refl _ s)

theorem applyWitness_moves (s) : Moves [.twin] s (applyWitness s) := by
  unfold applyWitness
  split
  ·
    exact (Moves.refl _ s)
  ·
    exact Moves.step (Moves.refl _ s) (twinMod_moves ..) rfl

theorem execWitnessReport_moves (s) : MovesAll hasNext [.out, .freeIx, .regs, .log, .twin, .cry] s (execWitnessReport s) := by
  unfold execWitnessReport
  refine hasNext_next ?_
  refine Moves.ite ?_ ?_
  ·
    refine Moves.step ?_ (witnessSend_moves ..) rfl
    exact Moves.step (Moves.refl _ s) (applyWitness_moves ..) rfl
  ·
    exact (Moves.refl _ s)

theorem takeVerdict_moves (a0 a1 a2 s) : MovesAll hasOpt [.regs, .log, .twin] s (takeVerdict a0 a1 a2 s) := by
  unfold takeVerdict
  extract_lets -merge -useContext -underBinder y0 y1
  clear_value y0
  have hy1 : Moves [.regs, .log, .twin] s y1 := by
    unfold y1
    exact Moves.step (Moves.refl _ s) (twinMod_moves ..) rfl
  clear_value y1
  refine MovesAll.ite ?_ ?_
  ·
    exact hasOpt_none
  ·
    refine hasOpt_some ?_
    refine Moves.ite ?_ ?_
    ·
      exact Moves.step hy1 (raise_moves ..) rfl
    ·
      exact hy1

theorem execWitnessGrant_moves (a0 a1 a2 s) : MovesAll hasNext [.out, .freeIx, .regs, .log, .cmd, .cfg, .twin, .ports, .tbl, .buf, .cry, .flow, .host, .svc] s (execWitnessGrant a0 a1 a2 s) := by
  unfold execWitnessGrant
  refine hasNext_next ?_
  split
  ·
    exact (Moves.refl _ s)
  ·
    rename_i v0 e1
    have hv0 : Moves [.out, .freeIx, .regs, .log, .cmd, .cfg, .twin, .ports, .tbl, .buf, .cry, .flow, .host, .svc] s v0 := by
      refine MovesAll.of_eq (has := hasOpt) e1 rfl ?_
      exact MovesAll.step (Moves.refl _ s) (takeVerdict_moves _ _ _ _) rfl
    refine Moves.ite ?_ ?_
    ·
      exact Moves.step hv0 (enterSole_moves ..) rfl
    ·
      exact hv0

theorem execWitnessRefusal_moves (a0 a1 a2 s) : MovesAll hasNext [.out, .freeIx, .regs, .log, .cmd, .cfg, .twin, .ports, .tbl, .buf, .cry, .flow, .host, .svc] s (execWitnessRefusal a0 a1 a2 s) := by
  unfold execWitnessRefusal
  refine hasNext_next ?_
  split
  ·
    exact (Moves.refl _ s)
  ·
    rename_i v0 e1
    have hv0 : Moves [.out, .freeIx, .regs, .log, .cmd, .cfg, .twin, .ports, .tbl, .buf, .cry, .flow, .host, .svc] s v0 := by
      refine MovesAll.of_eq (has := hasOpt) e1 rfl ?_
      exact MovesAll.step (Moves.refl _ s) (takeVerdict_moves _ _ _ _) rfl
    refine Moves.ite ?_ ?_
    ·
      exact Moves.step hv0 (enterFenced_moves ..) rfl
    ·
      exact hv0

theorem execVerdictTimeout_moves (s) : MovesAll hasNext [.out, .freeIx, .regs, .log, .cmd, .cfg, .twin, .ports, .tbl, .buf, .cry, .flow, .host, .svc] s (execVerdictTimeout s) := by
  unfold execVerdictTimeout
  refine hasNext_next ?_
  refine Moves.ite ?_ ?_
  ·
    refine Moves.ite ?_ ?_
    ·
      exact Moves.step (Moves.refl _ s) (enterSole_moves ..) rfl
    ·
      exact Moves.step (Moves.refl _ s) (enterFenced_moves ..) rfl
  ·
    exact (Moves.refl _ s)

theorem execTwinWitnessLost_moves (a0 s) : MovesAll hasNext [.regs, .log, .twin] s (execTwinWitnessLost a0 s) := by
  unfold execTwinWitnessLost
  refine hasNext_next ?_
  refine Moves.step ?_ (raise_moves ..) rfl
  exact Moves.step (Moves.refl _ s) (twinMod_moves ..) rfl

theorem execLeaveMessageReceived_moves (s) : MovesAll hasNext [.out, .freeIx, .regs, .log, .cmd, .cfg, .twin, .ports, .tbl, .buf, .cry, .flow, .host, .svc] s (execLeaveMessageReceived s) := by
  unfold execLeaveMessageReceived
  refine hasNext_next ?_
  refine Moves.ite ?_ ?_
  ·
    exact (Moves.refl _ s)
  ·
    exact Moves.step (Moves.refl _ s) (enterSole_moves ..) rfl

theorem setLanes_moves (a0 s) : Moves [.out, .freeIx, .regs, .log, .twin, .ports, .tbl, .cry, .flow] s (setLanes a0 s) := by
  unfold setLanes
  extract_lets -merge -useContext -underBinder y0 y1 y2 y3 y4 y5
  clear_value y0
  have hy1 : Moves [.out, .freeIx, .regs, .log, .twin, .ports, .tbl, .cry, .flow] s y1 := by
    unfold y1
    exact Moves.step (Moves.refl _ s) (twinMod_moves ..) rfl
  clear_value y1
  have hy2 : Moves [.out, .freeIx, .regs, .log, .twin, .ports, .tbl, .cry, .flow] s y2 := by
    unfold y2
    exact Moves.step hy1 (raise_moves ..) rfl
  clear_value y2
  clear_value y3
  clear_value y4
  have hy5 : Moves [.out, .freeIx, .regs, .log, .twin, .ports, .tbl, .cry, .flow] s y5 := by
    unfold y5
    refine Moves.ite ?_ ?_
    ·
      exact Moves.step (m := [.flow]) hy2 (Moves.leaf (by intro x hx; cases x <;> first | rfl | exact absurd (by decide) hx) rfl rfl rfl rfl) rfl
    ·
      exact hy2
  clear_value y5
  refine Moves.ite ?_ ?_
  ·
    exact Moves.step hy5 (twinMod_moves ..) rfl
  ·
    refine Moves.ite ?_ ?_
    ·
      exact Moves.step hy2 (twinLinkDown_moves ..) rfl
    ·
      exact hy2

theorem execTwinLaneUp_moves (a0 s) : MovesAll hasNext [.out, .freeIx, .regs, .log, .twin, .ports, .tbl, .cry, .flow] s (execTwinLaneUp a0 s) := by
  unfold execTwinLaneUp
  refine hasNext_onElem ?_
  refine Moves.ite ?_ ?_
  ·
    exact (Moves.refl _ s)
  ·
    exact Moves.step (Moves.refl _ s) (setLanes_moves ..) rfl

theorem execTwinLaneFailure_moves (a0 s) : MovesAll hasNext [.out, .freeIx, .regs, .log, .twin, .ports, .tbl, .cry, .flow] s (execTwinLaneFailure a0 s) := by
  unfold execTwinLaneFailure
  refine hasNext_onElem ?_
  refine Moves.ite ?_ ?_
  ·
    exact Moves.step (Moves.refl _ s) (setLanes_moves ..) rfl
  ·
    exact (Moves.refl _ s)

theorem execTwinLinkUp_moves (a0 a1 a2 a3 a4 s) : MovesAll hasNext [.out, .freeIx, .regs, .time, .log, .twin, .ports, .tbl, .cry, .flow] s (execTwinLinkUp a0 a1 a2 a3 a4 s) := by
  unfold execTwinLinkUp
  extract_lets -merge -useContext -underBinder y0 y1 y2 y3 y4
  clear_value y0
  have hy1 : Moves [.out, .freeIx, .regs, .time, .log, .twin, .ports, .tbl, .cry, .flow] s y1 := by
    unfold y1
    refine Moves.step ?_ (raise_moves ..) rfl
    exact Moves.step (Moves.refl _ s) (twinMod_moves ..) rfl
  clear_value y1
  clear_value y2
  have hy4 : Moves [.out, .freeIx, .regs, .time, .log, .twin, .ports, .tbl, .cry, .flow] s y4 := by
    unfold y4
    refine Moves.step ?_ (twinMod_moves ..) rfl
    exact Moves.step (m := [.freeIx]) hy1 (Moves.leafFree (by intro x hx; cases x <;> first | rfl | exact absurd (by decide) hx) rfl rfl (Nat.le_add_right _ _) rfl) rfl
  clear_value y4
  refine hasNext_next ?_
  refine Moves.ite ?_ ?_
  ·
    exact (Moves.refl _ s)
  ·
    refine Moves.ite ?_ ?_
    ·
      refine Moves.ite ?_ ?_
      ·
        exact hy1
      ·
        split
        ·
          rename_i v5 v6 e7
          have hv6 : Moves [.out, .freeIx, .regs, .time, .log, .twin, .ports, .tbl, .cry, .flow] s v6 := by
            refine MovesAll.of_eq (has := hasSnd) e7 rfl ?_
            exact MovesAll.step hy1 (drawFree_moves _) rfl
          exact Moves.step hv6 (setTwin_moves ..) rfl
    ·
      refine Moves.ite ?_ ?_
      ·
        exact Moves.step hy1 (raise_moves ..) rfl
      ·
        split
        ·
          exact hy4
        ·
          refine Moves.ite ?_ ?_
          ·
            exact hy4
          ·
            refine Moves.step ?_ (timeMod_moves ..) rfl
            exact Moves.step hy4 (stepTime_moves ..) rfl

theorem execJoinConfigApplied_moves (a0 a1 a2 s) : MovesAll hasNext [.out, .freeIx, .regs, .log, .cfg, .twin, .ports, .tbl, .buf, .cry, .flow, .svc] s (execJoinConfigApplied a0 a1 a2 s) := by
  unfold execJoinConfigApplied
  extract_lets -merge -useContext -underBinder y0 y1 y2 y3 y4
  have hy0 : Moves [.out, .freeIx, .regs, .log, .cfg, .twin, .ports, .tbl, .buf, .cry, .flow, .svc] s y0 := by
    unfold y0
    refine Moves.step ?_ (sendTwin_moves ..) rfl
    exact Moves.step (Moves.refl _ s) (twinMod_moves ..) rfl
  clear_value y0
  clear_value y1
  clear_value y2
  have hy3 : Moves [.out, .freeIx, .regs, .log, .cfg, .twin, .ports, .tbl, .buf, .cry, .flow, .svc] s y3 := by
    unfold y3
    split
    ·
      exact Moves.step (Moves.refl _ s) (retire1_moves ..) rfl
    ·
      exact (Moves.refl _ s)
  clear_value y3
  have hy4 : Moves [.out, .freeIx, .regs, .log, .cfg, .twin, .ports, .tbl, .buf, .cry, .flow, .svc] s y4 := by
    unfold y4
    refine Moves.ite ?_ ?_
    ·
      exact Moves.step (Moves.refl _ s) (cfgMod_moves ..) rfl
    ·
      exact Moves.step hy3 (makeCurrent_moves ..) rfl
  clear_value y4
  refine hasNext_next ?_
  refine Moves.ite ?_ ?_
  ·
    exact (Moves.refl _ s)
  ·
    refine Moves.ite ?_ ?_
    ·
      refine Moves.foldl ?_ (fun t5 x6 ht5 => ?_)
      ·
        exact hy0
      ·
        exact Moves.step ht5 (sendTwin_moves ..) rfl
    ·
      refine Moves.step ?_ (sendTwin_moves ..) rfl
      exact Moves.step hy4 (twinMod_moves ..) rfl

theorem applyObj_moves (a0 s) : Moves [.freeIx, .regs, .log, .tbl, .cry, .sto] s (applyObj a0 s) := by
  unfold applyObj
  split
  ·
    exact (Moves.refl _ s)
  ·
    extract_lets -merge -useContext -underBinder y0 y1 y2 y3 y4 y5 y6 y7 y8 y9 y10 y11
    clear_value y0
    clear_value y1
    clear_value y2
    clear_value y3
    clear_value y4
    clear_value y5
    clear_value y6
    clear_value y7
    clear_value y8
    clear_value y9
    clear_value y10
    clear_value y11
    refine Moves.ite ?_ ?_
    ·
      split
      ·
        rename_i v12 v13 e14
        have hv13 : Moves [.freeIx, .regs, .log, .tbl, .cry, .sto] s v13 := by
          refine MovesAll.of_eq (has := hasSnd) e14 rfl ?_
          exact MovesAll.step (Moves.refl _ s) (seedOf_moves _ _) rfl
        split
        ·
          exact Moves.step hv13 (putEntries_moves ..) rfl
        ·
          exact hv13
    ·
      refine Moves.ite ?_ ?_
      ·
        exact Moves.step (m := [.tbl]) (Moves.refl _ s) (Moves.leaf (by intro x hx; cases x <;> first | rfl | exact absurd (by decide) hx) rfl rfl rfl rfl) rfl
      ·
        refine Moves.ite ?_ ?_
        ·
          exact Moves.step (m := [.tbl]) (Moves.refl _ s) (Moves.leaf (by intro x hx; cases x <;> first | rfl | exact absurd (by decide) hx) rfl rfl rfl rfl) rfl
        ·
          refine Moves.ite ?_ ?_
          ·
            exact Moves.step (m := [.tbl]) (Moves.refl _ s) (Moves.leaf (by intro x hx; cases x <;> first | rfl | exact absurd (by decide) hx) rfl rfl rfl rfl) rfl
          ·
            refine Moves.ite ?_ ?_
            ·
              exact Moves.step (m := [.tbl]) (Moves.refl _ s) (Moves.leaf (by intro x hx; cases x <;> first | rfl | exact absurd (by decide) hx) rfl rfl rfl rfl) rfl
            ·
              refine Moves.ite ?_ ?_
              ·
                exact Moves.step (Moves.refl _ s) (nsUnlock_moves ..) rfl
              ·
                exact Moves.step (m := [.cry]) (Moves.refl _ s) (Moves.leaf (by intro x hx; cases x <;> first | rfl | exact absurd (by decide) hx) rfl rfl rfl rfl) rfl

theorem execJoinStateCopied_moves (a0 s) : MovesAll hasNext [.out, .freeIx, .regs, .log, .twin, .tbl, .cry, .flow, .sto] s (execJoinStateCopied a0 s) := by
  unfold execJoinStateCopied
  extract_lets -merge -useContext -underBinder y0 y1 y2 y3 y4 y5 y6
  clear_value y0
  have hy1 : Moves [.out, .freeIx, .regs, .log, .twin, .tbl, .cry, .flow, .sto] s y1 := by
    unfold y1
    exact Moves.step (m := [.tbl]) (Moves.refl _ s) (Moves.leaf (by intro x hx; cases x <;> first | rfl | exact absurd (by decide) hx) rfl rfl rfl rfl) rfl
  have hy3 : Moves [.out, .freeIx, .regs, .log, .twin, .tbl, .cry, .flow, .sto] s y3 := by
    unfold y3
    refine Moves.ite ?_ ?_
    ·
      exact hy1
    ·
      exact Moves.step (m := [.cry]) hy1 (Moves.leaf (by intro x hx; cases x <;> first | rfl | exact absurd (by decide) hx) rfl rfl rfl rfl) rfl
  clear_value y3
  have hy4 : Moves [.out, .freeIx, .regs, .log, .twin, .tbl, .cry, .flow, .sto] s y4 := by
    unfold y4
    refine Moves.ite ?_ ?_
    ·
      exact (Moves.refl _ s)
    ·
      refine Moves.step ?_ (refillGroups_moves ..) rfl
      refine Moves.foldl ?_ (fun t7 x8 ht7 => ?_)
      ·
        exact hy3
      ·
        exact Moves.step ht7 (applyObj_moves ..) rfl
  clear_value y4
  clear_value y5
  have hy6 : Moves [.out, .freeIx, .regs, .log, .twin, .tbl, .cry, .flow, .sto] s y6 := by
    unfold y6
    exact Moves.step (m := [.flow]) hy4 (Moves.leaf (by intro x hx; cases x <;> first | rfl | exact absurd (by decide) hx) rfl rfl rfl rfl) rfl
  clear_value y6
  refine hasNext_next ?_
  refine Moves.ite ?_ ?_
  ·
    exact (Moves.refl _ s)
  ·
    refine Moves.step ?_ (sendTwin_moves ..) rfl
    exact Moves.step hy6 (twinMod_moves ..) rfl

theorem checkBack_moves (s) : Moves [.out, .regs, .log, .cmd, .twin, .host, .svc] s (checkBack s) := by
  unfold checkBack
  refine Moves.ite ?_ ?_
  ·
    refine Moves.step ?_ (finishKey_moves ..) rfl
    exact Moves.step (Moves.refl _ s) (twinMod_moves ..) rfl
  ·
    exact (Moves.refl _ s)

theorem execLacpduReceived_moves (a0 a1 a2 a3 s) : MovesAll hasNext [.out, .regs, .log, .cmd, .twin, .ports, .tbl, .host, .svc] s (execLacpduReceived a0 a1 a2 a3 s) := by
  unfold execLacpduReceived
  extract_lets -merge -useContext -underBinder y0 y1 y2
  clear_value y0
  have hy1 : Moves [.out, .regs, .log, .cmd, .twin, .ports, .tbl, .host, .svc] s y1 := by
    unfold y1
    exact Moves.step (Moves.refl _ s) (portMod_moves ..) rfl
  clear_value y1
  have hy2 : Moves [.out, .regs, .log, .cmd, .twin, .ports, .tbl, .host, .svc] s y2 := by
    unfold y2
    refine Moves.ite ?_ ?_
    ·
      exact Moves.step hy1 (sendTwin_moves ..) rfl
    ·
      exact hy1
  clear_value y2
  refine hasNext_onPort ?_ ?_
  ·
    exact (Moves.refl _ s)
  ·
    refine Moves.ite ?_ ?_
    ·
      exact (Moves.refl _ s)
    ·
      refine Moves.step ?_ (checkBack_moves ..) rfl
      exact Moves.step hy2 (refillGroups_moves ..) rfl

theorem execTwinLacpInfoReceived_moves (a0 a1 a2 s) : MovesAll hasNext [.ports, .tbl] s (execTwinLacpInfoReceived a0 a1 a2 s) := by
  unfold execTwinLacpInfoReceived
  refine hasNext_onElem ?_
  refine Moves.step ?_ (refillGroups_moves ..) rfl
  exact Moves.step (Moves.refl _ s) (portMod_moves ..) rfl

theorem execTwinSaStateReceived_moves (a0 a1 a2 s) : MovesAll hasNext [.cry] s (execTwinSaStateReceived a0 a1 a2 s) := by
  unfold execTwinSaStateReceived
  refine hasNext_next ?_
  refine Moves.ite ?_ ?_
  ·
    exact (Moves.refl _ s)
  ·
    split
    ·
      exact (Moves.refl _ s)
    ·
      extract_lets -merge -useContext -underBinder y0 y1
      clear_value y0
      clear_value y1
      refine Moves.ite ?_ ?_
      ·
        refine Moves.ite ?_ ?_
        ·
          exact Moves.step (m := [.cry]) (Moves.refl _ s) (Moves.leaf (by intro x hx; cases x <;> first | rfl | exact absurd (by decide) hx) rfl rfl rfl rfl) rfl
        ·
          exact (Moves.refl _ s)
      ·
        exact Moves.step (m := [.cry]) (Moves.refl _ s) (Moves.leaf (by intro x hx; cases x <;> first | rfl | exact absurd (by decide) hx) rfl rfl rfl rfl) rfl

theorem execTwinReplyReceived_moves (a0 a1 a2 a3 a4 s) : MovesAll hasNext [.out, .regs, .log, .cmd, .cfg, .host, .svc] s (execTwinReplyReceived a0 a1 a2 a3 a4 s) := by
  unfold execTwinReplyReceived
  refine hasNext_next ?_
  split
  ·
    exact (Moves.refl _ s)
  ·
    extract_lets -merge -useContext -underBinder y0 y1 y2
    have hy0 : Moves [.out, .regs, .log, .cmd, .cfg, .host, .svc] s y0 := by
      unfold y0
      exact Moves.step (Moves.refl _ s) (sendReply_moves ..) rfl
    clear_value y0
    clear_value y1
    have hy2 : Moves [.out, .regs, .log, .cmd, .cfg, .host, .svc] s y2 := by
      unfold y2
      refine Moves.ite ?_ ?_
      ·
        exact Moves.step (Moves.refl _ s) (cfgMod_moves ..) rfl
      ·
        exact (Moves.refl _ s)
    clear_value y2
    refine Moves.ite ?_ ?_
    ·
      refine Moves.ite ?_ ?_
      ·
        exact (Moves.refl _ s)
      ·
        exact Moves.step (m := [.cmd]) hy0 (Moves.leaf (by intro x hx; cases x <;> first | rfl | exact absurd (by decide) hx) rfl rfl rfl rfl) rfl
    ·
      exact Moves.step hy2 (closeJoint_moves ..) rfl

theorem opTwinStatus_moves (c s) : DoneMoves [.freeIx] s ((opTwinStatus).body c s) := by
  unfold opTwinStatus
  refine op_mk ?_
  split
  ·
    rename_i v0 v1 e2
    have hv1 : Moves [.freeIx] s v1 := by
      refine MovesAll.of_eq (has := hasSnd) e2 rfl ?_
      split
      ·
        refine hasSnd_mk ?_
        exact (Moves.refl _ s)
      ·
        exact MovesAll.step (Moves.refl _ s) (drawFree_moves _) rfl
    refine hasDone_reply ?_
    exact hv1

theorem execTwinStatus_moves (a0 s) : MovesAll hasNext [.waiting, .out, .freeIx, .regs, .log, .cmd, .prot, .host, .svc] s (execTwinStatus a0 s) := by
  unfold execTwinStatus
  refine hasNext_next ?_
  exact Moves.step (Moves.refl _ s) (runCmd_moves _ _ _ (opTwinStatus_moves ..)) rfl

theorem opTwinWitnessSet_moves (c s) : DoneMoves [.out, .twin] s ((opTwinWitnessSet).body c s) := by
  unfold opTwinWitnessSet
  refine op_mk ?_
  refine DoneMoves.ite ?_ ?_
  ·
    exact hasDone_refuse
  ·
    refine hasDone_reply ?_
    refine Moves.step ?_ (toFlash_moves ..) rfl
    exact Moves.step (Moves.refl _ s) (twinMod_moves ..) rfl

theorem execTwinWitnessSet_moves (a0 s) : MovesAll hasNext [.waiting, .out, .regs, .log, .cmd, .prot, .twin, .host, .svc] s (execTwinWitnessSet a0 s) := by
  unfold execTwinWitnessSet
  refine hasNext_next ?_
  exact Moves.step (Moves.refl _ s) (runCmd_moves _ _ _ (opTwinWitnessSet_moves ..)) rfl

theorem takeBack_moves (s) : Moves [.out, .freeIx, .regs, .log, .cmd, .twin, .ports, .tbl, .cry, .host, .svc] s (takeBack s) := by
  unfold takeBack
  extract_lets -merge -useContext -underBinder y0
  have hy0 : Moves [.out, .freeIx, .regs, .log, .cmd, .twin, .ports, .tbl, .cry, .host, .svc] s y0 := by
    unfold y0
    refine Moves.step ?_ (sendTwin_moves ..) rfl
    refine Moves.step ?_ (twinMod_moves ..) rfl
    exact Moves.step (Moves.refl _ s) (undrainFabric_moves ..) rfl
  clear_value y0
  refine Moves.step ?_ (checkBack_moves ..) rfl
  exact Moves.step hy0 (setTwin_moves ..) rfl

theorem opTwinHandover_moves (c s) : DoneMoves [.out, .freeIx, .regs, .log, .cmd, .twin, .ports, .tbl, .cry, .host, .svc] s ((opTwinHandover).body c s) := by
  unfold opTwinHandover
  refine op_mk ?_
  refine DoneMoves.ite ?_ ?_
  ·
    refine DoneMoves.ite ?_ ?_
    ·
      refine hasDone_accept ?_ ?_
      ·
        exact (Moves.refl _ s)
      ·
        intro u0
        exact Moves.step (Moves.refl _ u0) (startHandover_moves ..) rfl
    ·
      exact hasDone_refuse
  ·
    refine DoneMoves.ite ?_ ?_
    ·
      refine DoneMoves.ite ?_ ?_
      ·
        refine hasDone_accept ?_ ?_
        ·
          exact (Moves.refl _ s)
        ·
          intro u1
          exact Moves.step (Moves.refl _ u1) (takeBack_moves ..) rfl
      ·
        exact DoneMoves.ite hasDone_refuse (hasDone_reply (Moves.refl _ s))
    ·
      exact hasDone_refuse

theorem execTwinHandover_moves (a0 s) : MovesAll hasNext [.waiting, .out, .freeIx, .regs, .log, .cmd, .prot, .twin, .ports, .tbl, .cry, .host, .svc] s (execTwinHandover a0 s) := by
  unfold execTwinHandover
  refine hasNext_next ?_
  exact Moves.step (Moves.refl _ s) (runCmd_moves _ _ _ (opTwinHandover_moves ..)) rfl

theorem execHandoverDrained_moves (s) : MovesAll hasNext [.out, .freeIx, .regs, .log, .cmd, .twin, .ports, .tbl, .cry, .host, .svc] s (execHandoverDrained s) := by
  unfold execHandoverDrained
  extract_lets -merge -useContext -underBinder y0 y1
  have hy0 : Moves [.out, .freeIx, .regs, .log, .cmd, .twin, .ports, .tbl, .cry, .host, .svc] s y0 := by
    unfold y0
    exact Moves.step (Moves.refl _ s) (setTwin_moves ..) rfl
  clear_value y0
  have hy1 : Moves [.out, .freeIx, .regs, .log, .cmd, .twin, .ports, .tbl, .cry, .host, .svc] s y1 := by
    unfold y1
    refine Moves.foldl ?_ (fun t2 x3 ht2 => ?_)
    ·
      exact hy0
    ·
      exact Moves.step ht2 (signalEvent_moves ..) rfl
  clear_value y1
  refine hasNext_next ?_
  refine Moves.ite ?_ ?_
  ·
    exact Moves.step hy1 (finishKey_moves ..) rfl
  ·
    exact (Moves.refl _ s)

theorem bootMod_moves (f s) (h : (f s.boot).lifecycle = s.boot.lifecycle) (h' : (f s.boot).fuses = s.boot.fuses) :
    Moves [.boot] s (bootMod f s) :=
  ⟨by intro x hx; cases x <;> first | rfl | exact absurd (by decide) hx, id, List.prefix_refl _, Nat.le_refl _,
    fun hs => by unfold bootMod; rw [h]; exact hs, by unfold bootMod; exact h' ▸ Nat.le_refl _⟩

theorem powerMod_moves (a0 s) : Moves [.power] s (powerMod a0 s) := by
  unfold powerMod
  exact Moves.step (m := [.power]) (Moves.refl _ s) (Moves.leaf (by intro x hx; cases x <;> first | rfl | exact absurd (by decide) hx) rfl rfl rfl rfl) rfl

theorem setPhase_moves (a0 a1 s) : Moves [.boot] s (setPhase a0 a1 s) := by
  unfold setPhase
  exact Moves.step (Moves.refl _ s) (bootMod_moves _ _ (by first | rfl | (split <;> rfl)) (by first | rfl | (split <;> rfl))) rfl

theorem coldState_moves (s) : Moves [.waiting, .regs, .time, .log, .cmd, .cfg, .prot, .boot, .power, .twin, .spare, .ports, .tbl, .buf, .cry, .flow, .host, .sto, .svc, .mbx, .mem, .cart, .age, .test, .therm] s (coldState s) := by
  unfold coldState
  refine ⟨by intro x hx; cases x <;> first | rfl | exact absurd (by decide) hx, fun h => ?_, List.prefix_refl _, Nat.le_refl _, id,
    Nat.le_refl _⟩
  exact Memory.wf_filter _ _ h

theorem restartEnds_moves (a0 s) : Moves [.out, .freeIx, .regs, .log, .cmd, .host, .svc, .test] s (restartEnds a0 s) := by
  unfold restartEnds
  extract_lets -merge -useContext -underBinder y0
  have hy0 : Moves [.out, .freeIx, .regs, .log, .cmd, .host, .svc, .test] s y0 := by
    unfold y0
    refine Moves.foldl ?_ (fun t1 x2 ht1 => ?_)
    ·
      exact (Moves.refl _ s)
    ·
      split
      ·
        exact Moves.step ht1 (endRecord_moves ..) rfl
      ·
        split
        ·
          rename_i v3 v4 e5
          have hv4 : Moves [.out, .freeIx, .regs, .log, .cmd, .host, .svc, .test] s v4 := by
            refine MovesAll.of_eq (has := hasSnd) e5 rfl ?_
            exact MovesAll.step ht1 (cutRecord_moves _ _) rfl
          exact Moves.step hv4 (endRecord_moves ..) rfl
  clear_value y0
  refine Moves.foldl ?_ (fun t6 x7 ht6 => ?_)
  ·
    exact hy0
  ·
    exact Moves.step ht6 (raise_moves ..) rfl

theorem beginRestart_moves (a0 s) : Moves [.waiting, .out, .freeIx, .regs, .time, .log, .cmd, .cfg, .prot, .boot, .power, .twin, .spare, .ports, .tbl, .buf, .cry, .flow, .host, .sto, .svc, .mbx, .mem, .cart, .age, .test, .therm] s (beginRestart a0 s) := by
  unfold beginRestart
  refine Moves.step ?_ (restartEnds_moves ..) rfl
  refine Moves.step ?_ (powerMod_moves ..) rfl
  exact Moves.step (Moves.refl _ s) (coldState_moves ..) rfl

theorem powerUpState_moves (s) : Moves [.waiting, .regs, .time, .log, .cmd, .cfg, .prot, .boot, .power, .twin, .spare, .ports, .tbl, .buf, .cry, .flow, .host, .sto, .svc, .mbx, .mem, .cart, .age, .test, .therm] s (powerUpState s) := by
  unfold powerUpState
  extract_lets -merge -useContext -underBinder t
  have ht : Moves [.waiting, .regs, .time, .log, .cmd, .cfg, .prot, .boot, .power, .twin, .spare, .ports, .tbl, .buf, .cry, .flow, .host, .sto, .svc, .mbx, .mem, .cart, .age, .test, .therm] s t := by
    unfold t
    exact Moves.step (Moves.refl _ s) (coldState_moves ..) rfl
  clear_value t
  refine Moves.step (m := [.time, .log, .mem, .test, .power]) ht ?_ rfl
  exact ⟨by intro x hx; cases x <;> first | rfl | exact absurd (by decide) hx, fun _ => rfl, List.prefix_refl _, Nat.le_refl _, id,
    Nat.le_refl _⟩

theorem imageMod_moves (a0 a1 s) : Moves [.boot] s (imageMod a0 a1 s) := by
  unfold imageMod
  exact Moves.step (Moves.refl _ s) (bootMod_moves _ _ (by first | rfl | (split <;> rfl)) (by first | rfl | (split <;> rfl))) rfl

theorem eraseOwner_moves (s) : Moves [.boot, .twin, .cry, .sto] s (eraseOwner s) := by
  unfold eraseOwner
  extract_lets -merge -useContext -underBinder y0 y1 y2 y3
  have hy0 : Moves [.boot, .twin, .cry, .sto] s y0 := by
    unfold y0
    exact Moves.step (Moves.refl _ s) (bootMod_moves _ _ (by first | rfl | (split <;> rfl)) (by first | rfl | (split <;> rfl))) rfl
  clear_value y0
  clear_value y1
  clear_value y2
  clear_value y3
  exact Moves.step (m := [.twin, .cry, .sto]) hy0 (Moves.leaf (by intro x hx; cases x <;> first | rfl | exact absurd (by decide) hx) rfl rfl rfl rfl) rfl

theorem randomBytes_moves (a0 s) : MovesAll hasSnd [.freeIx] s (randomBytes a0 s) := by
  induction a0 generalizing s with
  | zero => exact hasSnd_mk (Moves.refl _ s)
  | succ k ih =>
    unfold randomBytes
    split
    rename_i v t e
    split
    rename_i ids u e'
    refine hasSnd_mk ?_
    exact Moves.step (drawRandom_moves s t (by simp [hasSnd, e])) (ih t u (by simp [hasSnd, e'])) rfl

theorem lcStep_moves (s) : Moves [.out, .freeIx, .regs, .log, .boot, .twin, .cry, .sto] s (lcStep s) := by
  unfold lcStep
  split
  · exact Moves.refl _ s
  · rename_i r hr
    extract_lets -merge -useContext -underBinder t u v w
    have ht : Moves [.out, .freeIx, .regs, .log, .boot, .twin, .cry, .sto] s t := by
      unfold t
      exact Moves.step (Moves.refl _ s) (bootMod_moves _ _ rfl rfl) rfl
    by_cases hc : (r.serial && r.signed && r.old == lifeCode t.boot.lifecycle && lcAllowed r) = true
    · rw [if_pos hc]
      refine Moves.step ?_ (raise_moves ..) rfl
      have hn : t.boot.lifecycle ≠ .retired := by
        intro h
        rw [h] at hc
        simp only [Bool.and_eq_true, beq_iff_eq] at hc
        obtain ⟨⟨_, h5⟩, h6⟩ := hc
        unfold lcAllowed at h6
        rw [show r.old = 5 from h5] at h6
        simp at h6
      have hu : Moves [.out, .freeIx, .regs, .log, .boot, .twin, .cry, .sto] s u := by
        unfold u
        refine Moves.step ?_ (toFlash_moves ..) rfl
        refine Moves.step (m := [.boot]) ht ?_ rfl
        exact ⟨by intro x hx; cases x <;> first | rfl | exact absurd (by decide) hx, id, List.prefix_refl _, Nat.le_refl _,
          fun h => absurd h hn, Nat.le_refl _⟩
      clear_value u
      unfold w
      refine Moves.ite ?_ (Moves.ite ?_ hu)
      · split
        rename_i k z e
        have hz : Moves [.out, .freeIx, .regs, .log, .boot, .twin, .cry, .sto] s z := by
          refine MovesAll.of_eq (has := hasSnd) e rfl ?_
          refine MovesAll.step ?_ (randomBytes_moves _ _) rfl
          exact Moves.step (m := [.cry]) hu (Moves.leaf (by intro x hx; cases x <;> first | rfl | exact absurd (by decide) hx) rfl rfl rfl rfl) rfl
        refine Moves.step ?_ (emit_moves ..) rfl
        exact Moves.step hz (bootMod_moves _ _ rfl rfl) rfl
      · exact Moves.step hu (eraseOwner_moves ..) rfl
    · rw [if_neg hc]
      exact ht

theorem bootImage_moves (s) : Moves [.regs, .log, .prot, .boot] s (bootImage s) := by
  unfold bootImage
  extract_lets -merge -useContext -underBinder a b i t n v w
  refine Moves.ite (Moves.step (Moves.refl _ s) (bootMod_moves _ _ rfl rfl) rfl) ?_
  have ht : Moves [.regs, .log, .prot, .boot] s t := by
    unfold t
    exact Moves.step (Moves.refl _ s) (bootMod_moves _ _ rfl rfl) rfl
  have hw : Moves [.regs, .log, .prot, .boot] s w := by
    unfold w
    by_cases h : n < v
    · rw [if_pos h]
      refine Moves.step ?_ (raise_moves ..) rfl
      refine Moves.step (m := [.boot]) ht ?_ rfl
      exact ⟨by intro x hx; cases x <;> first | rfl | exact absurd (by decide) hx, id, List.prefix_refl _, Nat.le_refl _, id,
        Nat.le_of_lt h⟩
    · rw [if_neg h]
      exact ht
  refine Moves.step ?_ (dieProtMod_moves ..) rfl
  refine Moves.step ?_ (setPhase_moves ..) rfl
  exact Moves.step hw (bootMod_moves _ _ rfl rfl) rfl

theorem releaseOffSafe_moves (s) : Moves [.out, .power] s (releaseOffSafe s) := by
  unfold releaseOffSafe
  refine Moves.step ?_ (emit_moves ..) rfl
  exact Moves.step (Moves.refl _ s) (powerMod_moves ..) rfl

theorem stopBoot_moves (s) : Moves [.out, .boot, .power] s (stopBoot s) := by
  unfold stopBoot
  refine Moves.step ?_ (releaseOffSafe_moves ..) rfl
  refine Moves.step ?_ (powerMod_moves ..) rfl
  exact Moves.step (Moves.refl _ s) (bootMod_moves _ _ (by first | rfl | (split <;> rfl)) (by first | rfl | (split <;> rfl))) rfl

theorem drawKeys_moves (s) : Moves [.freeIx, .cry, .flow] s (drawKeys s) := by
  unfold drawKeys
  split
  ·
    rename_i v0 v1 e2
    have hv1 : Moves [.freeIx, .cry, .flow] s v1 := by
      refine MovesAll.of_eq (has := hasSnd) e2 rfl ?_
      exact MovesAll.step (Moves.refl _ s) (randomBytes_moves _ _) rfl
    split
    ·
      rename_i v3 v4 e5
      have hv4 : Moves [.freeIx, .cry, .flow] s v4 := by
        refine MovesAll.of_eq (has := hasSnd) e5 rfl ?_
        exact MovesAll.step hv1 (drawRandom_moves _) rfl
      extract_lets -merge -useContext -underBinder y6 y7
      clear_value y6
      clear_value y7
      exact Moves.step (m := [.cry, .flow]) hv4 (Moves.leaf (by intro x hx; cases x <;> first | rfl | exact absurd (by decide) hx) rfl rfl rfl rfl) rfl

theorem romStart_moves (s) : Moves [.out, .freeIx, .regs, .log, .prot, .boot, .power, .twin, .cry, .flow, .sto] s (romStart s) := by
  unfold romStart
  extract_lets -merge -useContext -underBinder y0 y1 y2
  have hy0 : Moves [.out, .freeIx, .regs, .log, .prot, .boot, .power, .twin, .cry, .flow, .sto] s y0 := by
    unfold y0
    refine Moves.step ?_ (drawKeys_moves ..) rfl
    exact Moves.step (Moves.refl _ s) (powerMod_moves ..) rfl
  clear_value y0
  have hy1 : Moves [.out, .freeIx, .regs, .log, .prot, .boot, .power, .twin, .cry, .flow, .sto] s y1 := by
    unfold y1
    refine Moves.ite ?_ ?_
    ·
      exact Moves.step hy0 (eraseOwner_moves ..) rfl
    ·
      exact hy0
  clear_value y1
  have hy2 : Moves [.out, .freeIx, .regs, .log, .prot, .boot, .power, .twin, .cry, .flow, .sto] s y2 := by
    unfold y2
    exact Moves.step hy1 (lcStep_moves ..) rfl
  clear_value y2
  refine Moves.ite ?_ ?_
  ·
    exact Moves.step hy2 (bootImage_moves ..) rfl
  ·
    exact Moves.step hy2 (stopBoot_moves ..) rfl

theorem commandRestart_moves (a0 s) : Moves [.waiting, .out, .freeIx, .regs, .time, .log, .cmd, .cfg, .prot, .boot, .power, .twin, .spare, .ports, .tbl, .buf, .cry, .flow, .host, .sto, .svc, .mbx, .mem, .cart, .age, .test, .therm] s (commandRestart a0 s) := by
  unfold commandRestart
  refine Moves.step ?_ (romStart_moves ..) rfl
  exact Moves.step (Moves.refl _ s) (beginRestart_moves ..) rfl

theorem writeMap_moves (a0 s) : Moves [.prot] s (writeMap a0 s) := by
  unfold writeMap
  extract_lets -merge -useContext -underBinder y0 y1
  have hy0 : Moves [.prot] s y0 := by
    unfold y0
    exact Moves.step (Moves.refl _ s) (dieProtMod_moves ..) rfl
  clear_value y0
  clear_value y1
  refine Moves.ite ?_ ?_
  ·
    exact Moves.step (m := [.prot]) hy0 (Moves.leaf (by intro x hx; cases x <;> first | rfl | exact absurd (by decide) hx) rfl rfl rfl rfl) rfl
  ·
    exact hy0

theorem loadConfig_moves (s) : Moves [.freeIx, .cfg, .tbl] s (loadConfig s) := by
  unfold loadConfig
  extract_lets -merge -useContext -underBinder y0 y1
  clear_value y0
  clear_value y1
  refine Moves.step ?_ (applySeeds_moves ..) rfl
  exact Moves.step (Moves.refl _ s) (cfgMod_moves ..) rfl

theorem startManagement_moves (s) : Moves [.out, .freeIx, .regs, .log, .cfg, .boot, .tbl, .host, .svc] s (startManagement s) := by
  unfold startManagement
  extract_lets -merge -useContext -underBinder y0 y1 y2
  have hy0 : Moves [.out, .freeIx, .regs, .log, .cfg, .boot, .tbl, .host, .svc] s y0 := by
    unfold y0
    exact Moves.step (Moves.refl _ s) (bootMod_moves _ _ (by first | rfl | (split <;> rfl)) (by first | rfl | (split <;> rfl))) rfl
  clear_value y0
  have hy1 : Moves [.out, .freeIx, .regs, .log, .cfg, .boot, .tbl, .host, .svc] s y1 := by
    unfold y1
    exact Moves.step hy0 (threadMod_moves ..) rfl
  clear_value y1
  have hy2 : Moves [.out, .freeIx, .regs, .log, .cfg, .boot, .tbl, .host, .svc] s y2 := by
    unfold y2
    split
    ·
      exact Moves.step hy1 (raise_moves ..) rfl
    ·
      exact hy1
  clear_value y2
  refine Moves.step ?_ (dirChanged_moves ..) rfl
  exact Moves.step hy2 (loadConfig_moves ..) rfl

theorem execFabricBootWindowOpen_moves (a0 s) : MovesAll hasNext [.prot, .boot] s (execFabricBootWindowOpen a0 s) := by
  unfold execFabricBootWindowOpen
  refine hasNext_onElem ?_
  refine Moves.ite ?_ ?_
  ·
    refine Moves.step ?_ (dieProtMod_moves ..) rfl
    exact Moves.step (Moves.refl _ s) (setPhase_moves ..) rfl
  ·
    exact (Moves.refl _ s)

theorem execProtCtrlLock_moves (a0 s) : MovesAll hasNext [.out, .freeIx, .regs, .log, .cfg, .prot, .boot, .tbl, .host, .svc] s (execProtCtrlLock a0 s) := by
  unfold execProtCtrlLock
  extract_lets -merge -useContext -underBinder y0
  have hy0 : Moves [.out, .freeIx, .regs, .log, .cfg, .prot, .boot, .tbl, .host, .svc] s y0 := by
    unfold y0
    refine Moves.step ?_ (setPhase_moves ..) rfl
    exact Moves.step (Moves.refl _ s) (writeMap_moves ..) rfl
  clear_value y0
  refine hasNext_onElem ?_
  refine Moves.ite ?_ ?_
  ·
    refine Moves.ite ?_ ?_
    ·
      exact Moves.step hy0 (startManagement_moves ..) rfl
    ·
      exact hy0
  ·
    exact (Moves.refl _ s)

theorem dieFails_moves (a0 s) : Moves [.waiting, .out, .freeIx, .regs, .log, .cmd, .cfg, .boot, .power, .twin, .spare, .ports, .tbl, .buf, .cry, .flow, .host, .sto, .svc, .mbx, .mem, .age, .test] s (dieFails a0 s) := by
  unfold dieFails
  extract_lets -merge -useContext -underBinder y0 y1 y2 y3
  have hy0 : Moves [.waiting, .out, .freeIx, .regs, .log, .cmd, .cfg, .boot, .power, .twin, .spare, .ports, .tbl, .buf, .cry, .flow, .host, .sto, .svc, .mbx, .mem, .age, .test] s y0 := by
    unfold y0
    exact Moves.step (Moves.refl _ s) (setPhase_moves ..) rfl
  clear_value y0
  have hy1 : Moves [.waiting, .out, .freeIx, .regs, .log, .cmd, .cfg, .boot, .power, .twin, .spare, .ports, .tbl, .buf, .cry, .flow, .host, .sto, .svc, .mbx, .mem, .age, .test] s y1 := by
    unfold y1
    refine Moves.ite ?_ ?_
    ·
      exact Moves.step hy0 (losePackage_moves ..) rfl
    ·
      exact Moves.step hy0 (loseDie_moves ..) rfl
  clear_value y1
  clear_value y2
  have hy3 : Moves [.waiting, .out, .freeIx, .regs, .log, .cmd, .cfg, .boot, .power, .twin, .spare, .ports, .tbl, .buf, .cry, .flow, .host, .sto, .svc, .mbx, .mem, .age, .test] s y3 := by
    unfold y3
    refine Moves.step ?_ (finishKey_moves ..) rfl
    exact Moves.step hy1 (powerMod_moves ..) rfl
  clear_value y3
  refine Moves.ite ?_ ?_
  ·
    refine Moves.ite ?_ ?_
    ·
      exact hy3
    ·
      refine Moves.step ?_ (finishKey_moves ..) rfl
      exact Moves.step hy3 (powerMod_moves ..) rfl
  ·
    exact hy1

theorem execBootWindowTimeout_moves (a0 s) : MovesAll hasNext [.waiting, .out, .freeIx, .regs, .log, .cmd, .cfg, .prot, .boot, .power, .twin, .spare, .ports, .tbl, .buf, .cry, .flow, .host, .sto, .svc, .mbx, .mem, .age, .test] s (execBootWindowTimeout a0 s) := by
  unfold execBootWindowTimeout
  refine hasNext_onElem ?_
  refine Moves.ite ?_ ?_
  ·
    refine Moves.step ?_ (dieFails_moves ..) rfl
    refine Moves.step ?_ (raise_moves ..) rfl
    exact Moves.step (Moves.refl _ s) (dieProtMod_moves ..) rfl
  ·
    exact (Moves.refl _ s)

theorem enablePorts_moves (a0 s) : Moves [.ports] s (enablePorts a0 s) := by
  unfold enablePorts
  refine Moves.foldl ?_ (fun t0 x1 ht0 => ?_)
  ·
    exact (Moves.refl _ s)
  ·
    refine Moves.ite ?_ ?_
    ·
      exact Moves.step ht0 (startSearch_moves ..) rfl
    ·
      exact ht0

theorem startFault_moves (a0 s) : Moves [.waiting, .out, .freeIx, .regs, .log, .cmd, .cfg, .boot, .power, .twin, .spare, .ports, .tbl, .buf, .cry, .flow, .host, .sto, .svc, .mbx, .mem, .cart, .age, .test] s (startFault a0 s) := by
  unfold startFault
  refine Moves.ite ?_ ?_
  ·
    refine Moves.step ?_ (setLedger_moves ..) rfl
    exact Moves.step (Moves.refl _ s) (cloche_moves ..) rfl
  ·
    exact Moves.step (Moves.refl _ s) (faultAny_moves ..) rfl

theorem retestStored_moves (a0 s) : Moves [.test] s (retestStored a0 s) := by
  unfold retestStored
  refine Moves.foldl ?_ (fun t0 x1 ht0 => ?_)
  ·
    exact (Moves.refl _ s)
  ·
    extract_lets -merge -useContext -underBinder y2
    clear_value y2
    refine Moves.ite ?_ ?_
    ·
      exact Moves.step ht0 (startExposure_moves ..) rfl
    ·
      exact ht0

theorem execStartTestEnd_moves (a0 a1 a2 s) : MovesAll hasNext [.waiting, .out, .freeIx, .regs, .log, .cmd, .cfg, .boot, .power, .twin, .spare, .ports, .tbl, .buf, .cry, .flow, .host, .sto, .svc, .mbx, .mem, .cart, .age, .test] s (execStartTestEnd a0 a1 a2 s) := by
  unfold execStartTestEnd
  extract_lets -merge -useContext -underBinder y0 y1 y2 y3
  clear_value y0
  have hy1 : Moves [.waiting, .out, .freeIx, .regs, .log, .cmd, .cfg, .boot, .power, .twin, .spare, .ports, .tbl, .buf, .cry, .flow, .host, .sto, .svc, .mbx, .mem, .cart, .age, .test] s y1 := by
    unfold y1
    refine Moves.foldl ?_ (fun t4 x5 ht4 => ?_)
    ·
      exact (Moves.refl _ s)
    ·
      exact Moves.step ht4 (startFault_moves ..) rfl
  clear_value y1
  have hy2 : Moves [.waiting, .out, .freeIx, .regs, .log, .cmd, .cfg, .boot, .power, .twin, .spare, .ports, .tbl, .buf, .cry, .flow, .host, .sto, .svc, .mbx, .mem, .cart, .age, .test] s y2 := by
    unfold y2
    exact Moves.step hy1 (retestStored_moves ..) rfl
  clear_value y2
  have hy3 : Moves [.waiting, .out, .freeIx, .regs, .log, .cmd, .cfg, .boot, .power, .twin, .spare, .ports, .tbl, .buf, .cry, .flow, .host, .sto, .svc, .mbx, .mem, .cart, .age, .test] s y3 := by
    unfold y3
    exact Moves.step hy2 (setPhase_moves ..) rfl
  clear_value y3
  refine hasNext_onElem ?_
  refine Moves.ite ?_ ?_
  ·
    refine Moves.ite ?_ ?_
    ·
      exact Moves.step (Moves.refl _ s) (dieFails_moves ..) rfl
    ·
      refine Moves.ite ?_ ?_
      ·
        exact Moves.step hy2 (setPhase_moves ..) rfl
      ·
        refine Moves.ite ?_ ?_
        ·
          exact hy3
        ·
          refine Moves.step ?_ (refillGroups_moves ..) rfl
          exact Moves.step hy3 (enablePorts_moves ..) rfl
  ·
    exact (Moves.refl _ s)

theorem execPwrOkRise_moves (a0 a1 a2 s) : MovesAll hasNext [.waiting, .out, .freeIx, .regs, .time, .log, .cmd, .cfg, .prot, .boot, .power, .twin, .spare, .ports, .tbl, .buf, .cry, .flow, .host, .sto, .svc, .mbx, .mem, .cart, .age, .test, .therm] s (execPwrOkRise a0 a1 a2 s) := by
  unfold execPwrOkRise
  extract_lets -merge -useContext -underBinder y0
  have hy0 : Moves [.waiting, .out, .freeIx, .regs, .time, .log, .cmd, .cfg, .prot, .boot, .power, .twin, .spare, .ports, .tbl, .buf, .cry, .flow, .host, .sto, .svc, .mbx, .mem, .cart, .age, .test, .therm] s y0 := by
    unfold y0
    refine Moves.step ?_ (powerMod_moves ..) rfl
    exact Moves.step (Moves.refl _ s) (powerUpState_moves ..) rfl
  clear_value y0
  refine hasNext_next ?_
  refine Moves.ite ?_ ?_
  ·
    exact (Moves.refl _ s)
  ·
    refine Moves.ite ?_ ?_
    ·
      exact Moves.step hy0 (romStart_moves ..) rfl
    ·
      exact hy0

theorem execPwrOkFall_moves (s) : MovesAll hasNext [.boot, .power, .twin, .spare, .ports, .tbl, .cry, .age, .test] s (execPwrOkFall s) := by
  unfold execPwrOkFall
  extract_lets -merge -useContext -underBinder y0
  have hy0 : Moves [.boot, .power, .twin, .spare, .ports, .tbl, .cry, .age, .test] s y0 := by
    unfold y0
    refine Moves.step ?_ (bootMod_moves _ _ (by first | rfl | (split <;> rfl)) (by first | rfl | (split <;> rfl))) rfl
    exact Moves.step (Moves.refl _ s) (losePackage_moves ..) rfl
  clear_value y0
  refine hasNext_next ?_
  refine Moves.ite ?_ ?_
  ·
    exact (Moves.refl _ s)
  ·
    exact Moves.step hy0 (powerMod_moves ..) rfl

theorem execResetNAssert_moves (s) : MovesAll hasNext [.waiting, .out, .freeIx, .regs, .time, .log, .cmd, .cfg, .prot, .boot, .power, .twin, .spare, .ports, .tbl, .buf, .cry, .flow, .host, .sto, .svc, .mbx, .mem, .cart, .age, .test, .therm] s (execResetNAssert s) := by
  unfold execResetNAssert
  extract_lets -merge -useContext -underBinder y0 y1
  clear_value y0
  have hy1 : Moves [.waiting, .out, .freeIx, .regs, .time, .log, .cmd, .cfg, .prot, .boot, .power, .twin, .spare, .ports, .tbl, .buf, .cry, .flow, .host, .sto, .svc, .mbx, .mem, .cart, .age, .test, .therm] s y1 := by
    unfold y1
    exact Moves.step (Moves.refl _ s) (beginRestart_moves ..) rfl
  clear_value y1
  refine hasNext_next ?_
  refine Moves.ite ?_ ?_
  ·
    exact Moves.step hy1 (powerMod_moves ..) rfl
  ·
    exact Moves.step (Moves.refl _ s) (powerMod_moves ..) rfl

theorem execResetNRelease_moves (a0 s) : MovesAll hasNext [.out, .freeIx, .regs, .log, .prot, .boot, .power, .twin, .cry, .flow, .sto] s (execResetNRelease a0 s) := by
  unfold execResetNRelease
  extract_lets -merge -useContext -underBinder y0
  have hy0 : Moves [.out, .freeIx, .regs, .log, .prot, .boot, .power, .twin, .cry, .flow, .sto] s y0 := by
    unfold y0
    exact Moves.step (Moves.refl _ s) (powerMod_moves ..) rfl
  clear_value y0
  refine hasNext_next ?_
  refine Moves.ite ?_ ?_
  ·
    exact (Moves.refl _ s)
  ·
    refine Moves.ite ?_ ?_
    ·
      exact Moves.step hy0 (romStart_moves ..) rfl
    ·
      exact hy0

theorem autostartBeds_moves (s) : Moves [.regs, .log, .svc, .mbx, .mem] s (autostartBeds s) := by
  unfold autostartBeds
  refine Moves.foldl (Moves.refl _ s) (fun t x ht => ?_)
  split
  · refine Moves.ite ?_ ht
    cases h : startBed x _ true t with
    | none => exact ht
    | some u => exact Moves.step ht (startBed_moves _ _ _ _ u h) rfl
  · exact ht

theorem reportTrip_moves (s) : Moves [.regs, .log, .therm] s (reportTrip s) := by
  unfold reportTrip
  split
  ·
    exact (Moves.refl _ s)
  ·
    extract_lets -merge -useContext -underBinder y0
    clear_value y0
    refine Moves.step ?_ (raise_moves ..) rfl
    exact Moves.step (m := [.therm]) (Moves.refl _ s) (Moves.leaf (by intro x hx; cases x <;> first | rfl | exact absurd (by decide) hx) rfl rfl rfl rfl) rfl

theorem execFullService_moves (a0 a1 s) : MovesAll hasNext [.regs, .log, .power, .svc, .mbx, .mem, .age, .test, .therm] s (execFullService a0 a1 s) := by
  unfold execFullService
  extract_lets -merge -useContext -underBinder y0 y1 y2 y3 y4
  have hy0 : Moves [.regs, .log, .power, .svc, .mbx, .mem, .age, .test, .therm] s y0 := by
    unfold y0
    exact Moves.step (Moves.refl _ s) (powerMod_moves ..) rfl
  clear_value y0
  have hy1 : Moves [.regs, .log, .power, .svc, .mbx, .mem, .age, .test, .therm] s y1 := by
    unfold y1
    exact Moves.step hy0 (ageMod_moves ..) rfl
  clear_value y1
  have hy2 : Moves [.regs, .log, .power, .svc, .mbx, .mem, .age, .test, .therm] s y2 := by
    unfold y2
    exact Moves.step hy1 (testMod_moves ..) rfl
  clear_value y2
  have hy3 : Moves [.regs, .log, .power, .svc, .mbx, .mem, .age, .test, .therm] s y3 := by
    unfold y3
    refine Moves.step ?_ (reportTrip_moves ..) rfl
    exact Moves.step hy2 (raise_moves ..) rfl
  clear_value y3
  have hy4 : Moves [.regs, .log, .power, .svc, .mbx, .mem, .age, .test, .therm] s y4 := by
    unfold y4
    refine Moves.ite ?_ ?_
    ·
      exact Moves.step hy3 (raise_moves ..) rfl
    ·
      exact hy3
  clear_value y4
  refine hasNext_next ?_
  refine Moves.ite ?_ ?_
  ·
    exact (Moves.refl _ s)
  ·
    exact Moves.step hy4 (autostartBeds_moves ..) rfl

theorem sendLeave_moves (s) : Moves [.out] s (sendLeave s) := by
  unfold sendLeave
  refine Moves.ite ?_ ?_
  ·
    exact Moves.step (Moves.refl _ s) (sendTwin_moves ..) rfl
  ·
    exact (Moves.refl _ s)

theorem beginShutdown_moves (s) : Moves [.waiting, .out, .freeIx, .regs, .log, .cmd, .cfg, .power, .tbl, .host, .sto, .svc, .mbx, .mem, .test] s (beginShutdown s) := by
  unfold beginShutdown
  extract_lets -merge -useContext -underBinder y0 y1
  have hy0 : Moves [.waiting, .out, .freeIx, .regs, .log, .cmd, .cfg, .power, .tbl, .host, .sto, .svc, .mbx, .mem, .test] s y0 := by
    unfold y0
    refine Moves.step ?_ (sendLeave_moves ..) rfl
    exact Moves.step (Moves.refl _ s) (powerMod_moves ..) rfl
  clear_value y0
  have hy1 : Moves [.waiting, .out, .freeIx, .regs, .log, .cmd, .cfg, .power, .tbl, .host, .sto, .svc, .mbx, .mem, .test] s y1 := by
    unfold y1
    refine Moves.foldl ?_ (fun t2 x3 ht2 => ?_)
    ·
      exact hy0
    ·
      refine Moves.ite ?_ ?_
      ·
        exact ht2
      ·
        exact Moves.step ht2 (cutExposure_moves ..) rfl
  clear_value y1
  refine Moves.foldl ?_ (fun t4 x5 ht4 => ?_)
  ·
    exact hy1
  ·
    split
    ·
      exact Moves.step ht4 (stopBed_moves ..) rfl
    ·
      refine Moves.step ?_ (stopBed_moves ..) rfl
      exact Moves.step ht4 (finishStart_moves ..) rfl
    ·
      refine Moves.ite ?_ ?_
      ·
        exact ht4
      ·
        refine Moves.step ?_ (bedMod_moves ..) rfl
        exact Moves.step ht4 (finishStart_moves ..) rfl
    ·
      exact ht4

theorem execShdnReqNAssert_moves (s) : MovesAll hasNext [.waiting, .out, .freeIx, .regs, .log, .cmd, .cfg, .boot, .power, .tbl, .host, .sto, .svc, .mbx, .mem, .test] s (execShdnReqNAssert s) := by
  unfold execShdnReqNAssert
  extract_lets -merge -useContext -underBinder y0
  have hy0 : Moves [.waiting, .out, .freeIx, .regs, .log, .cmd, .cfg, .boot, .power, .tbl, .host, .sto, .svc, .mbx, .mem, .test] s y0 := by
    unfold y0
    exact Moves.step (Moves.refl _ s) (powerMod_moves ..) rfl
  clear_value y0
  refine hasNext_next ?_
  refine Moves.ite ?_ ?_
  ·
    exact hy0
  ·
    refine Moves.ite ?_ ?_
    ·
      exact Moves.step hy0 (stopBoot_moves ..) rfl
    ·
      refine Moves.ite ?_ ?_
      ·
        exact Moves.step hy0 (powerMod_moves ..) rfl
      ·
        exact Moves.step hy0 (beginShutdown_moves ..) rfl

theorem execShutdownBedsStopped_moves (s) : MovesAll hasNext [.waiting, .out, .freeIx, .regs, .log, .cmd, .cfg, .power, .tbl, .host, .sto, .svc, .mbx, .mem, .cart, .flash] s (execShutdownBedsStopped s) := by
  unfold execShutdownBedsStopped
  extract_lets -merge -useContext -underBinder y0 y1 y2 y3
  have hy0 : Moves [.waiting, .out, .freeIx, .regs, .log, .cmd, .cfg, .power, .tbl, .host, .sto, .svc, .mbx, .mem, .cart, .flash] s y0 := by
    unfold y0
    refine Moves.foldl ?_ (fun t4 x5 ht4 => ?_)
    ·
      exact (Moves.refl _ s)
    ·
      refine Moves.ite ?_ ?_
      ·
        exact Moves.step ht4 (bedStopped_moves ..) rfl
      ·
        exact ht4
  clear_value y0
  have hy1 : Moves [.waiting, .out, .freeIx, .regs, .log, .cmd, .cfg, .power, .tbl, .host, .sto, .svc, .mbx, .mem, .cart, .flash] s y1 := by
    unfold y1
    exact Moves.step hy0 (writeTime_moves ..) rfl
  clear_value y1
  have hy2 : Moves [.waiting, .out, .freeIx, .regs, .log, .cmd, .cfg, .power, .tbl, .host, .sto, .svc, .mbx, .mem, .cart, .flash] s y2 := by
    unfold y2
    refine Moves.foldl ?_ (fun t6 x7 ht6 => ?_)
    ·
      exact hy1
    ·
      exact Moves.step ht6 (toFlash_moves ..) rfl
  clear_value y2
  have hy3 : Moves [.waiting, .out, .freeIx, .regs, .log, .cmd, .cfg, .power, .tbl, .host, .sto, .svc, .mbx, .mem, .cart, .flash] s y3 := by
    unfold y3
    refine Moves.foldl ?_ (fun t8 x9 ht8 => ?_)
    ·
      exact hy2
    ·
      exact Moves.step ht8 (putLife_moves ..) rfl
  clear_value y3
  refine hasNext_next ?_
  refine Moves.ite ?_ ?_
  ·
    exact (Moves.refl _ s)
  ·
    exact Moves.step hy3 (powerMod_moves ..) rfl

theorem allDark_moves (s) : Moves [.freeIx, .regs, .log, .ports, .tbl, .cry, .cart] s (allDark s) := by
  unfold allDark
  extract_lets -merge -useContext -underBinder y0
  have hy0 : Moves [.freeIx, .regs, .log, .ports, .tbl, .cry, .cart] s y0 := by
    unfold y0
    refine Moves.foldl ?_ (fun t1 x2 ht1 => ?_)
    ·
      exact (Moves.refl _ s)
    ·
      exact Moves.step ht1 (unbias_moves ..) rfl
  clear_value y0
  refine Moves.foldl ?_ (fun t3 x4 ht3 => ?_)
  ·
    exact hy0
  ·
    exact Moves.step ht3 (portDark_moves ..) rfl

theorem execShutdownLasersDark_moves (s) : MovesAll hasNext [.out, .freeIx, .regs, .log, .power, .ports, .tbl, .cry, .cart] s (execShutdownLasersDark s) := by
  unfold execShutdownLasersDark
  refine hasNext_next ?_
  refine Moves.ite ?_ ?_
  ·
    exact (Moves.refl _ s)
  ·
    refine Moves.step ?_ (releaseOffSafe_moves ..) rfl
    refine Moves.step ?_ (powerMod_moves ..) rfl
    exact Moves.step (Moves.refl _ s) (allDark_moves ..) rfl

theorem drainPath_moves (s a1) : Moves [.cmd, .tbl] s (drainPath s a1) := by
  unfold drainPath
  extract_lets -merge -useContext -underBinder y0
  clear_value y0
  refine Moves.step ?_ (refillGroups_moves ..) rfl
  exact Moves.step (m := [.cmd]) (Moves.refl _ s) (Moves.leaf (by intro x hx; cases x <;> first | rfl | exact absurd (by decide) hx) rfl rfl rfl rfl) rfl

theorem undrainPath_moves (s a1) : Moves [.cmd, .tbl] s (undrainPath s a1) := by
  unfold undrainPath
  extract_lets -merge -useContext -underBinder y0
  clear_value y0
  refine Moves.step ?_ (refillGroups_moves ..) rfl
  exact Moves.step (m := [.cmd]) (Moves.refl _ s) (Moves.leaf (by intro x hx; cases x <;> first | rfl | exact absurd (by decide) hx) rfl rfl rfl rfl) rfl

theorem writeBack_moves (a0 s) : Moves [.flow] s (writeBack a0 s) := by
  unfold writeBack
  extract_lets -merge -useContext -underBinder y0 y1
  clear_value y0
  clear_value y1
  exact Moves.step (m := [.flow]) (Moves.refl _ s) (Moves.leaf (by intro x hx; cases x <;> first | rfl | exact absurd (by decide) hx) rfl rfl rfl rfl) rfl

theorem resetDie_moves (a0 s) : Moves [.waiting, .out, .freeIx, .regs, .log, .cmd, .cfg, .prot, .boot, .spare, .ports, .tbl, .buf, .cry, .flow, .host, .sto, .svc, .mbx, .mem, .test] s (resetDie a0 s) := by
  unfold resetDie
  extract_lets -merge -useContext -underBinder y0 y1 y2 y3 y4 y5 y6 y7 y8 y9 y10 y11 y12 y13 y14 y15 y16 y17
  clear_value y0
  have hy1 : Moves [.waiting, .out, .freeIx, .regs, .log, .cmd, .cfg, .prot, .boot, .spare, .ports, .tbl, .buf, .cry, .flow, .host, .sto, .svc, .mbx, .mem, .test] s y1 := by
    unfold y1
    exact (Moves.refl _ s)
  clear_value y1
  clear_value y2
  have hy3 : Moves [.waiting, .out, .freeIx, .regs, .log, .cmd, .cfg, .prot, .boot, .spare, .ports, .tbl, .buf, .cry, .flow, .host, .sto, .svc, .mbx, .mem, .test] s y3 := by
    unfold y3
    refine Moves.foldl ?_ (fun t18 x19 ht18 => ?_)
    ·
      exact Moves.step (Moves.refl _ s) (losePackets_moves ..) rfl
    ·
      refine Moves.step ?_ (loseRegionState_moves ..) rfl
      exact Moves.step ht18 (writeBack_moves ..) rfl
  clear_value y3
  clear_value y4
  clear_value y5
  clear_value y7
  clear_value y8
  clear_value y9
  clear_value y10
  have hy11 : Moves [.waiting, .out, .freeIx, .regs, .log, .cmd, .cfg, .prot, .boot, .spare, .ports, .tbl, .buf, .cry, .flow, .host, .sto, .svc, .mbx, .mem, .test] s y11 := by
    unfold y11
    exact Moves.step (m := [.regs, .log, .prot, .spare, .ports, .tbl, .buf, .cry]) hy3 (Moves.leaf (by intro x hx; cases x <;> first | rfl | exact absurd (by decide) hx) rfl rfl rfl rfl) rfl
  clear_value y11
  have hy12 : Moves [.waiting, .out, .freeIx, .regs, .log, .cmd, .cfg, .prot, .boot, .spare, .ports, .tbl, .buf, .cry, .flow, .host, .sto, .svc, .mbx, .mem, .test] s y12 := by
    unfold y12
    exact Moves.step hy11 (testMod_moves ..) rfl
  clear_value y12
  have hy13 : Moves [.waiting, .out, .freeIx, .regs, .log, .cmd, .cfg, .prot, .boot, .spare, .ports, .tbl, .buf, .cry, .flow, .host, .sto, .svc, .mbx, .mem, .test] s y13 := by
    unfold y13
    refine Moves.foldl ?_ (fun t20 x21 ht20 => ?_)
    ·
      exact hy12
    ·
      split
      ·
        rename_i v22 v23 e24
        have hv23 : Moves [.waiting, .out, .freeIx, .regs, .log, .cmd, .cfg, .prot, .boot, .spare, .ports, .tbl, .buf, .cry, .flow, .host, .sto, .svc, .mbx, .mem, .test] s v23 := by
          refine MovesAll.of_eq (has := hasSnd) e24 rfl ?_
          exact MovesAll.step ht20 (cutRecord_moves _ _) rfl
        exact Moves.step hv23 (endRecord_moves ..) rfl
  clear_value y13
  have hy14 : Moves [.waiting, .out, .freeIx, .regs, .log, .cmd, .cfg, .prot, .boot, .spare, .ports, .tbl, .buf, .cry, .flow, .host, .sto, .svc, .mbx, .mem, .test] s y14 := by
    unfold y14
    refine Moves.step ?_ (stopLostBeds_moves ..) rfl
    refine Moves.step ?_ (raise_moves ..) rfl
    exact Moves.step hy13 (setPhase_moves ..) rfl
  clear_value y14
  clear_value y15
  clear_value y16
  have hy17 : Moves [.waiting, .out, .freeIx, .regs, .log, .cmd, .cfg, .prot, .boot, .spare, .ports, .tbl, .buf, .cry, .flow, .host, .sto, .svc, .mbx, .mem, .test] s y17 := by
    unfold y17
    exact Moves.step (m := [.svc]) hy14 (Moves.leaf (by intro x hx; cases x <;> first | rfl | exact absurd (by decide) hx) rfl rfl rfl rfl) rfl
  clear_value y17
  refine Moves.step ?_ (retireIdle_moves ..) rfl
  refine Moves.step ?_ (refillGroups_moves ..) rfl
  exact Moves.step hy17 (dieProtMod_moves ..) rfl

theorem startDieRestart_moves (a0 a1 s) : Moves [.waiting, .out, .freeIx, .regs, .log, .cmd, .cfg, .prot, .boot, .power, .spare, .ports, .tbl, .buf, .cry, .flow, .host, .sto, .svc, .mbx, .mem, .test] s (startDieRestart a0 a1 s) := by
  unfold startDieRestart
  extract_lets -merge -useContext -underBinder y0 y1
  clear_value y0
  have hy1 : Moves [.waiting, .out, .freeIx, .regs, .log, .cmd, .cfg, .prot, .boot, .power, .spare, .ports, .tbl, .buf, .cry, .flow, .host, .sto, .svc, .mbx, .mem, .test] s y1 := by
    unfold y1
    exact Moves.step (Moves.refl _ s) (powerMod_moves ..) rfl
  clear_value y1
  refine Moves.ite ?_ ?_
  ·
    exact Moves.step hy1 (resetDie_moves ..) rfl
  ·
    refine Moves.step ?_ (setPhase_moves ..) rfl
    exact Moves.step hy1 (drainPath_moves ..) rfl

theorem execDieRestartDrained_moves (a0 s) : MovesAll hasNext [.waiting, .out, .freeIx, .regs, .log, .cmd, .cfg, .prot, .boot, .spare, .ports, .tbl, .buf, .cry, .flow, .host, .sto, .svc, .mbx, .mem, .test] s (execDieRestartDrained a0 s) := by
  unfold execDieRestartDrained
  refine hasNext_onElem ?_
  refine Moves.ite ?_ ?_
  ·
    exact Moves.step (Moves.refl _ s) (resetDie_moves ..) rfl
  ·
    exact (Moves.refl _ s)

theorem activated_moves (a0 s) : Moves [.out, .regs, .log, .cmd, .boot, .host, .svc] s (activated a0 s) := by
  unfold activated
  refine Moves.step ?_ (finishKey_moves ..) rfl
  refine Moves.step ?_ (raise_moves ..) rfl
  exact Moves.step (Moves.refl _ s) (bootMod_moves _ _ (by first | rfl | (split <;> rfl)) (by first | rfl | (split <;> rfl))) rfl

theorem execDieRestartReady_moves (a0 s) : MovesAll hasNext [.waiting, .out, .freeIx, .regs, .log, .cmd, .cfg, .prot, .boot, .power, .spare, .ports, .tbl, .buf, .cry, .flow, .host, .sto, .svc, .mbx, .mem, .cart, .test] s (execDieRestartReady a0 s) := by
  unfold execDieRestartReady
  extract_lets -merge -useContext -underBinder y0 y1 y2
  have hy0 : Moves [.waiting, .out, .freeIx, .regs, .log, .cmd, .cfg, .prot, .boot, .power, .spare, .ports, .tbl, .buf, .cry, .flow, .host, .sto, .svc, .mbx, .mem, .cart, .test] s y0 := by
    unfold y0
    refine Moves.step ?_ (undrainPath_moves ..) rfl
    refine Moves.step ?_ (setPhase_moves ..) rfl
    exact Moves.step (Moves.refl _ s) (powerMod_moves ..) rfl
  clear_value y0
  have hy1 : Moves [.waiting, .out, .freeIx, .regs, .log, .cmd, .cfg, .prot, .boot, .power, .spare, .ports, .tbl, .buf, .cry, .flow, .host, .sto, .svc, .mbx, .mem, .cart, .test] s y1 := by
    unfold y1
    refine Moves.step ?_ (raise_moves ..) rfl
    refine Moves.step ?_ (busReturns_moves ..) rfl
    refine Moves.step ?_ (refillGroups_moves ..) rfl
    exact Moves.step hy0 (enablePorts_moves ..) rfl
  clear_value y1
  have hy2 : Moves [.waiting, .out, .freeIx, .regs, .log, .cmd, .cfg, .prot, .boot, .power, .spare, .ports, .tbl, .buf, .cry, .flow, .host, .sto, .svc, .mbx, .mem, .cart, .test] s y2 := by
    unfold y2
    exact Moves.step hy1 (finishKey_moves ..) rfl
  clear_value y2
  refine hasNext_onElem ?_
  refine Moves.ite ?_ ?_
  ·
    split
    ·
      exact hy2
    ·
      extract_lets -merge -useContext -underBinder y3
      have hy3 : Moves [.waiting, .out, .freeIx, .regs, .log, .cmd, .cfg, .prot, .boot, .power, .spare, .ports, .tbl, .buf, .cry, .flow, .host, .sto, .svc, .mbx, .mem, .cart, .test] s y3 := by
        unfold y3
        exact Moves.step hy2 (powerMod_moves ..) rfl
      clear_value y3
      refine Moves.ite ?_ ?_
      ·
        exact Moves.step hy3 (activated_moves ..) rfl
      ·
        exact Moves.step hy3 (startDieRestart_moves ..) rfl
  ·
    exact (Moves.refl _ s)

theorem execPackageRestartBegin_moves (s) : MovesAll hasNext [.waiting, .out, .freeIx, .regs, .time, .log, .cmd, .cfg, .prot, .boot, .power, .twin, .spare, .ports, .tbl, .buf, .cry, .flow, .host, .sto, .svc, .mbx, .mem, .cart, .age, .test, .therm] s (execPackageRestartBegin s) := by
  unfold execPackageRestartBegin
  refine hasNext_next ?_
  split
  ·
    exact (Moves.refl _ s)
  ·
    refine Moves.ite ?_ ?_
    ·
      exact Moves.step (Moves.refl _ s) (commandRestart_moves ..) rfl
    ·
      exact (Moves.refl _ s)

theorem junctionRead_moves (a0 a1 s) : Moves [.out, .freeIx, .regs, .log, .cmd, .spare, .ports, .tbl, .cry, .host, .svc, .age, .test, .therm] s (junctionRead a0 a1 s) := by
  unfold junctionRead
  extract_lets -merge -useContext -underBinder y0 y1 y2 y3 y4 y5
  clear_value y0
  have hy1 : Moves [.out, .freeIx, .regs, .log, .cmd, .spare, .ports, .tbl, .cry, .host, .svc, .age, .test, .therm] s y1 := by
    unfold y1
    exact Moves.step (m := [.therm]) (Moves.refl _ s) (Moves.leaf (by intro x hx; cases x <;> first | rfl | exact absurd (by decide) hx) rfl rfl rfl rfl) rfl
  clear_value y1
  clear_value y2
  have hy3 : Moves [.out, .freeIx, .regs, .log, .cmd, .spare, .ports, .tbl, .cry, .host, .svc, .age, .test, .therm] s y3 := by
    unfold y3
    exact Moves.step (m := [.therm]) hy1 (Moves.leaf (by intro x hx; cases x <;> first | rfl | exact absurd (by decide) hx) rfl rfl rfl rfl) rfl
  clear_value y3
  clear_value y4
  have hy5 : Moves [.out, .freeIx, .regs, .log, .cmd, .spare, .ports, .tbl, .cry, .host, .svc, .age, .test, .therm] s y5 := by
    unfold y5
    exact Moves.step (m := [.therm]) hy1 (Moves.leaf (by intro x hx; cases x <;> first | rfl | exact absurd (by decide) hx) rfl rfl rfl rfl) rfl
  clear_value y5
  refine Moves.ite ?_ ?_
  ·
    refine Moves.step ?_ (cutDie_moves ..) rfl
    refine Moves.step ?_ (testMod_moves ..) rfl
    exact Moves.step hy3 (raise_moves ..) rfl
  ·
    refine Moves.ite ?_ ?_
    ·
      refine Moves.step ?_ (testMod_moves ..) rfl
      exact Moves.step hy5 (raise_moves ..) rfl
    ·
      exact hy1

theorem execThermalReading_moves (a0 a1 a2 s) : MovesAll hasNext [.out, .freeIx, .regs, .log, .cmd, .spare, .ports, .tbl, .cry, .host, .svc, .age, .test, .therm] s (execThermalReading a0 a1 a2 s) := by
  unfold execThermalReading
  extract_lets -merge -useContext -underBinder y0 y1
  clear_value y0
  clear_value y1
  refine hasNext_onElem ?_
  refine Moves.ite ?_ ?_
  ·
    exact Moves.step (m := [.therm]) (Moves.refl _ s) (Moves.leaf (by intro x hx; cases x <;> first | rfl | exact absurd (by decide) hx) rfl rfl rfl rfl) rfl
  ·
    refine Moves.step ?_ (junctionRead_moves ..) rfl
    exact Moves.step (m := [.therm]) (Moves.refl _ s) (Moves.leaf (by intro x hx; cases x <;> first | rfl | exact absurd (by decide) hx) rfl rfl rfl rfl) rfl

theorem tripRecord_moves (a0 a1 a2 s) : Moves [.out, .therm] s (tripRecord a0 a1 a2 s) := by
  unfold tripRecord
  extract_lets -merge -useContext -underBinder y0
  clear_value y0
  refine Moves.step ?_ (toFlash_moves ..) rfl
  exact Moves.step (m := [.therm]) (Moves.refl _ s) (Moves.leaf (by intro x hx; cases x <;> first | rfl | exact absurd (by decide) hx) rfl rfl rfl rfl) rfl

theorem tripPins_moves (s) : Moves [.out, .power] s (tripPins s) := by
  unfold tripPins
  refine Moves.step ?_ (releaseOffSafe_moves ..) rfl
  refine Moves.step ?_ (emit_moves ..) rfl
  exact Moves.step (Moves.refl _ s) (powerMod_moves ..) rfl

theorem execFirmwareTrip_moves (a0 a1 s) : MovesAll hasNext [.out, .freeIx, .regs, .log, .power, .ports, .tbl, .cry, .cart, .therm] s (execFirmwareTrip a0 a1 s) := by
  unfold execFirmwareTrip
  refine hasNext_onElem ?_
  refine Moves.ite ?_ ?_
  ·
    exact (Moves.refl _ s)
  ·
    refine Moves.step ?_ (tripPins_moves ..) rfl
    refine Moves.step ?_ (tripRecord_moves ..) rfl
    refine Moves.step ?_ (allDark_moves ..) rfl
    exact Moves.step (Moves.refl _ s) (sendLeave_moves ..) rfl

theorem execHardwareTrip_moves (a0 a1 s) : MovesAll hasNext [.out, .freeIx, .regs, .log, .cmd, .power, .spare, .ports, .tbl, .cry, .host, .svc, .cart, .age, .test, .therm] s (execHardwareTrip a0 a1 s) := by
  unfold execHardwareTrip
  refine hasNext_onElem ?_
  refine Moves.ite ?_ ?_
  ·
    exact (Moves.refl _ s)
  ·
    refine Moves.step ?_ (tripRecord_moves ..) rfl
    refine Moves.step ?_ (allDark_moves ..) rfl
    refine Moves.step ?_ (junctionRead_moves ..) rfl
    refine Moves.step ?_ (emit_moves ..) rfl
    exact Moves.step (Moves.refl _ s) (powerMod_moves ..) rfl

theorem pwrRegRead_moves (a0 s) : Moves [.therm] s (pwrRegRead a0 s) := by
  unfold pwrRegRead
  extract_lets -merge -useContext -underBinder y0 y1
  clear_value y0
  clear_value y1
  refine Moves.ite ?_ ?_
  ·
    exact Moves.step (m := [.therm]) (Moves.refl _ s) (Moves.leaf (by intro x hx; cases x <;> first | rfl | exact absurd (by decide) hx) rfl rfl rfl rfl) rfl
  ·
    exact (Moves.refl _ s)

end Sys2Proof.Machine
end

