-- ==== Sys2Proof/Laws/Moves6.lean ====
section
/-! SUPPORT. What the operations of Machine/Storage, Vf, Access, Edits, Enqueue, Actions may change: one lemma `<operation>_moves` per operation. -/

set_option Elab.async false

namespace Sys2Proof.Machine

theorem execNvmeCcEnable_moves (a0 a1 s) : MovesAll hasNext [.sto] s (execNvmeCcEnable a0 a1 s) := by
  unfold execNvmeCcEnable
  extract_lets -merge -useContext -underBinder y0
  clear_value y0
  refine hasNext_onElem ?_
  refine Moves.ite ?_ ?_
  ·
    exact (Moves.refl _ s)
  ·
    exact Moves.step (Moves.refl _ s) (nvmeMod_moves ..) rfl

theorem execNvmeCcDisable_moves (a0 a1 s) : MovesAll hasNext [.sto] s (execNvmeCcDisable a0 a1 s) := by
  unfold execNvmeCcDisable
  refine hasNext_onElem ?_
  refine Moves.ite ?_ ?_
  ·
    exact (Moves.refl _ s)
  ·
    refine Moves.step ?_ (nvmeMod_moves ..) rfl
    exact Moves.step (Moves.refl _ s) (orphanCmds_moves ..) rfl

theorem execNvmeCcShutdown_moves (a0 a1 s) : MovesAll hasNext [.sto] s (execNvmeCcShutdown a0 a1 s) := by
  unfold execNvmeCcShutdown
  extract_lets -merge -useContext -underBinder y0
  clear_value y0
  refine hasNext_onElem ?_
  refine Moves.ite ?_ ?_
  ·
    exact (Moves.refl _ s)
  ·
    refine Moves.step ?_ (settleShn_moves ..) rfl
    exact Moves.step (Moves.refl _ s) (nvmeMod_moves ..) rfl

theorem execNvmeSqDoorbell_moves (a0 a1 a2 s) : MovesAll hasNext [.sto] s (execNvmeSqDoorbell a0 a1 a2 s) := by
  unfold execNvmeSqDoorbell
  refine hasNext_onElem ?_
  split
  ·
    refine Moves.ite ?_ ?_
    ·
      exact Moves.step (Moves.refl _ s) (sqMod_moves ..) rfl
    ·
      exact (Moves.refl _ s)
  ·
    exact (Moves.refl _ s)

theorem execNvmeCqDoorbell_moves (a0 a1 a2 s) : MovesAll hasNext [.out, .regs, .log, .host, .sto] s (execNvmeCqDoorbell a0 a1 a2 s) := by
  unfold execNvmeCqDoorbell
  refine hasNext_onElem ?_
  split
  ·
    refine Moves.ite ?_ ?_
    ·
      refine Moves.step ?_ (ncqFlush_moves ..) rfl
      exact Moves.step (Moves.refl _ s) (ncqMod_moves ..) rfl
    ·
      exact (Moves.refl _ s)
  ·
    exact (Moves.refl _ s)

theorem takeEntry_moves (a0 a1 s) : Moves [.sto] s (takeEntry a0 a1 s) := by
  unfold takeEntry
  exact Moves.step (Moves.refl _ s) (sqMod_moves ..) rfl

theorem fetch_moves {l : List Part} (hb : [Part.out, .regs, .log, .host, .sto].all l.contains = true) {opc : Nat} {f : Fn} {q : Nat}
    {entry : Bytes} {act : Bytes → State → State} {s : State} (h : ∀ e u, Moves l u (act e u)) :
    MovesAll hasNext l s (fetch opc f q entry act s) := by
  have hl : ∀ {r t : State}, Moves [Part.out, .regs, .log, .host, .sto] r t → Moves l r t := fun k => k.wider hb
  unfold fetch
  extract_lets -merge -useContext -underBinder e ops
  clear_value e ops
  refine hasNext_onElem ?_
  refine Moves.ite (Moves.refl _ s) (Moves.ite ?_ (Moves.ite (Moves.refl _ s) ?_))
  · exact hl (Moves.step (Moves.step (Moves.refl _ s) (takeEntry_moves ..) rfl) (nvmeComplete_moves ..) rfl)
  · exact Moves.step (hl (Moves.step (Moves.refl _ s) (takeEntry_moves ..) rfl)) (h _ _) (all_self _)

theorem admin_moves {l : List Part} (hb : [Part.out, .regs, .log, .host, .sto].all l.contains = true) {opc : Nat} {f : Fn}
    {entry : Bytes} {body : Bytes → State → (Nat × Nat) × State} {s : State} (h : ∀ e u, MovesAll hasSnd l u (body e u)) :
    MovesAll hasNext l s (admin opc f entry body s) := by
  unfold admin
  refine fetch_moves hb (fun e u => ?_)
  refine Moves.ite ((nvmeComplete_moves ..).wider (all_sub hb rfl)) ?_
  split
  rename_i dw st t e'
  exact Moves.step (h e u t (by simp [hasSnd, e'])) ((nvmeComplete_moves ..).wider hb) (by simp)

theorem adminData_moves (a0 a1 a2 a3 s) : MovesAll hasSnd [.out, .regs, .log, .host] s (adminData a0 a1 a2 a3 s) := by
  unfold adminData
  split
  ·
    refine hasSnd_mk ?_
    exact (Moves.refl _ s)
  ·
    refine hasSnd_mk ?_
    exact Moves.step (Moves.refl _ s) (fillSegs_moves ..) rfl

theorem execNvmeIdentify_moves (a0 a1 a2 s) : MovesAll hasNext [.out, .regs, .log, .host, .sto] s (execNvmeIdentify a0 a1 a2 s) := by
  unfold execNvmeIdentify
  refine MovesAll.step (m := [.out, .regs, .log, .host, .sto]) (Moves.refl _ s) (admin_moves rfl (fun u0 u1 => ?_)) rfl
  extract_lets -merge -useContext -underBinder y2 y3
  clear_value y2
  clear_value y3
  split
  ·
    refine MovesAll.ite ?_ ?_
    ·
      refine hasSnd_mk ?_
      exact (Moves.refl _ u1)
    ·
      exact MovesAll.step (Moves.refl _ u1) (adminData_moves _ _ _ _ _) rfl
  ·
    exact MovesAll.step (Moves.refl _ u1) (adminData_moves _ _ _ _ _) rfl
  ·
    extract_lets -merge -useContext -underBinder y4
    clear_value y4
    exact MovesAll.step (Moves.refl _ u1) (adminData_moves _ _ _ _ _) rfl
  ·
    refine MovesAll.ite ?_ ?_
    ·
      refine hasSnd_mk ?_
      exact (Moves.refl _ u1)
    ·
      exact MovesAll.step (Moves.refl _ u1) (adminData_moves _ _ _ _ _) rfl
  ·
    refine hasSnd_mk ?_
    exact (Moves.refl _ u1)

theorem execNvmeGetLogPage_moves (a0 a1 a2 s) : MovesAll hasNext [.out, .freeIx, .regs, .log, .host, .sto] s (execNvmeGetLogPage a0 a1 a2 s) := by
  unfold execNvmeGetLogPage
  refine MovesAll.step (m := [.out, .freeIx, .regs, .log, .host, .sto]) (Moves.refl _ s) (admin_moves rfl (fun u0 u1 => ?_)) rfl
  extract_lets -merge -useContext -underBinder y2 y3 y4
  clear_value y2
  clear_value y3
  clear_value y4
  split
  ·
    exact MovesAll.step (Moves.refl _ u1) (adminData_moves _ _ _ _ _) rfl
  ·
    extract_lets -merge -useContext -underBinder y5
    clear_value y5
    refine MovesAll.step ?_ (adminData_moves _ _ _ _ _) rfl
    exact Moves.step (m := [.freeIx]) (Moves.refl _ u1) (Moves.leafFree (by intro x hx; cases x <;> first | rfl | exact absurd (by decide) hx) rfl rfl (Nat.le_add_right _ _) rfl) rfl
  ·
    extract_lets -merge -useContext -underBinder y6
    clear_value y6
    split
    ·
      rename_i v7 v8 e9
      have hv8 : Moves [.out, .freeIx, .regs, .log, .host, .sto] u1 v8 := by
        refine MovesAll.of_eq (has := hasSnd) e9 rfl ?_
        exact MovesAll.step (Moves.refl _ u1) (adminData_moves _ _ _ _ _) rfl
      refine hasSnd_mk ?_
      refine Moves.ite ?_ ?_
      ·
        exact hv8
      ·
        exact Moves.step hv8 (nvmeMod_moves ..) rfl
  ·
    refine hasSnd_mk ?_
    exact (Moves.refl _ u1)

theorem execNvmeSetFeatures_moves (a0 a1 s) : MovesAll hasNext [.out, .regs, .log, .host, .sto] s (execNvmeSetFeatures a0 a1 s) := by
  unfold execNvmeSetFeatures
  refine MovesAll.step (m := [.out, .regs, .log, .host, .sto]) (Moves.refl _ s) (admin_moves rfl (fun u0 u1 => ?_)) rfl
  extract_lets -merge -useContext -underBinder y2
  clear_value y2
  refine MovesAll.ite ?_ ?_
  ·
    refine hasSnd_mk ?_
    exact (Moves.refl _ u1)
  ·
    split
    ·
      refine MovesAll.ite ?_ ?_
      ·
        refine hasSnd_mk ?_
        exact (Moves.refl _ u1)
      ·
        refine hasSnd_mk ?_
        exact (Moves.refl _ u1)
    ·
      refine hasSnd_mk ?_
      exact Moves.step (Moves.refl _ u1) (nvmeMod_moves ..) rfl
    ·
      refine hasSnd_mk ?_
      refine Moves.step ?_ (nsNotice_moves ..) rfl
      exact Moves.step (Moves.refl _ u1) (nvmeMod_moves ..) rfl
    ·
      refine hasSnd_mk ?_
      exact (Moves.refl _ u1)

theorem execNvmeGetFeatures_moves (a0 a1 s) : MovesAll hasNext [.out, .regs, .log, .host, .sto] s (execNvmeGetFeatures a0 a1 s) := by
  unfold execNvmeGetFeatures
  refine MovesAll.step (m := [.out, .regs, .log, .host, .sto]) (Moves.refl _ s) (admin_moves rfl (fun u0 u1 => ?_)) rfl
  extract_lets -merge -useContext -underBinder y2 y3
  clear_value y2
  unfold y3
  split
  ·
    split
    ·
      refine hasSnd_mk ?_
      exact (Moves.refl _ u1)
    ·
      refine hasSnd_mk ?_
      exact (Moves.refl _ u1)
    ·
      refine hasSnd_mk ?_
      exact (Moves.refl _ u1)
  ·
    split
    ·
      refine hasSnd_mk ?_
      exact (Moves.refl _ u1)
    ·
      refine hasSnd_mk ?_
      exact (Moves.refl _ u1)
    ·
      refine hasSnd_mk ?_
      exact (Moves.refl _ u1)
  ·
    split
    ·
      refine hasSnd_mk ?_
      exact (Moves.refl _ u1)
    ·
      refine hasSnd_mk ?_
      exact (Moves.refl _ u1)
    ·
      refine hasSnd_mk ?_
      exact (Moves.refl _ u1)
  ·
    refine hasSnd_mk ?_
    exact (Moves.refl _ u1)

theorem execNvmeCreateIoCq_moves (a0 a1 s) : MovesAll hasNext [.out, .regs, .log, .host, .sto] s (execNvmeCreateIoCq a0 a1 s) := by
  unfold execNvmeCreateIoCq
  refine MovesAll.step (m := [.out, .regs, .log, .host, .sto]) (Moves.refl _ s) (admin_moves rfl (fun u0 u1 => ?_)) rfl
  extract_lets -merge -useContext -underBinder y2 y3 y4 y5
  clear_value y2
  clear_value y3
  clear_value y4
  clear_value y5
  refine MovesAll.ite ?_ ?_
  ·
    refine hasSnd_mk ?_
    exact (Moves.refl _ u1)
  ·
    refine MovesAll.ite ?_ ?_
    ·
      refine hasSnd_mk ?_
      exact (Moves.refl _ u1)
    ·
      refine MovesAll.ite ?_ ?_
      ·
        refine hasSnd_mk ?_
        exact (Moves.refl _ u1)
      ·
        refine MovesAll.ite ?_ ?_
        ·
          refine hasSnd_mk ?_
          exact (Moves.refl _ u1)
        ·
          refine MovesAll.ite ?_ ?_
          ·
            refine hasSnd_mk ?_
            exact (Moves.refl _ u1)
          ·
            refine hasSnd_mk ?_
            exact Moves.step (Moves.refl _ u1) (nvmeMod_moves ..) rfl

theorem execNvmeCreateIoSq_moves (a0 a1 s) : MovesAll hasNext [.out, .regs, .log, .host, .sto] s (execNvmeCreateIoSq a0 a1 s) := by
  unfold execNvmeCreateIoSq
  refine MovesAll.step (m := [.out, .regs, .log, .host, .sto]) (Moves.refl _ s) (admin_moves rfl (fun u0 u1 => ?_)) rfl
  extract_lets -merge -useContext -underBinder y2 y3 y4
  clear_value y2
  clear_value y3
  clear_value y4
  refine MovesAll.ite ?_ ?_
  ·
    refine hasSnd_mk ?_
    exact (Moves.refl _ u1)
  ·
    refine MovesAll.ite ?_ ?_
    ·
      refine hasSnd_mk ?_
      exact (Moves.refl _ u1)
    ·
      refine MovesAll.ite ?_ ?_
      ·
        refine hasSnd_mk ?_
        exact (Moves.refl _ u1)
      ·
        refine MovesAll.ite ?_ ?_
        ·
          refine hasSnd_mk ?_
          exact (Moves.refl _ u1)
        ·
          refine MovesAll.ite ?_ ?_
          ·
            refine hasSnd_mk ?_
            exact (Moves.refl _ u1)
          ·
            refine hasSnd_mk ?_
            exact Moves.step (Moves.refl _ u1) (nvmeMod_moves ..) rfl

theorem execNvmeDeleteIoSq_moves (a0 a1 s) : MovesAll hasNext [.out, .regs, .log, .host, .sto] s (execNvmeDeleteIoSq a0 a1 s) := by
  unfold execNvmeDeleteIoSq
  refine MovesAll.step (m := [.out, .regs, .log, .host, .sto]) (Moves.refl _ s) (admin_moves rfl (fun u0 u1 => ?_)) rfl
  extract_lets -merge -useContext -underBinder y2 y3 y4 y5 y6
  clear_value y2
  clear_value y3
  have hy4 : Moves [.out, .regs, .log, .host, .sto] u1 y4 := by
    unfold y4
    refine Moves.foldl ?_ (fun t7 x8 ht7 => ?_)
    ·
      exact (Moves.refl _ u1)
    ·
      exact Moves.step ht7 (nvmeComplete_moves ..) rfl
  clear_value y4
  clear_value y5
  have hy6 : Moves [.out, .regs, .log, .host, .sto] u1 y6 := by
    unfold y6
    exact Moves.step hy4 (stoMod_moves ..) rfl
  clear_value y6
  refine MovesAll.ite ?_ ?_
  ·
    refine hasSnd_mk ?_
    exact (Moves.refl _ u1)
  ·
    refine hasSnd_mk ?_
    exact Moves.step hy6 (nvmeMod_moves ..) rfl

theorem execNvmeDeleteIoCq_moves (a0 a1 s) : MovesAll hasNext [.out, .regs, .log, .host, .sto] s (execNvmeDeleteIoCq a0 a1 s) := by
  unfold execNvmeDeleteIoCq
  refine MovesAll.step (m := [.out, .regs, .log, .host, .sto]) (Moves.refl _ s) (admin_moves rfl (fun u0 u1 => ?_)) rfl
  extract_lets -merge -useContext -underBinder y2
  clear_value y2
  refine MovesAll.ite ?_ ?_
  ·
    refine hasSnd_mk ?_
    exact (Moves.refl _ u1)
  ·
    refine MovesAll.ite ?_ ?_
    ·
      refine hasSnd_mk ?_
      exact (Moves.refl _ u1)
    ·
      refine hasSnd_mk ?_
      exact Moves.step (Moves.refl _ u1) (nvmeMod_moves ..) rfl

theorem execNvmeAbort_moves (a0 a1 s) : MovesAll hasNext [.out, .regs, .log, .host, .sto, .svc] s (execNvmeAbort a0 a1 s) := by
  unfold execNvmeAbort
  refine MovesAll.step (m := [.out, .regs, .log, .host, .sto, .svc]) (Moves.refl _ s) (admin_moves rfl (fun u0 u1 => ?_)) rfl
  extract_lets -merge -useContext -underBinder y2 y3
  clear_value y2
  clear_value y3
  split
  ·
    refine hasSnd_mk ?_
    exact Moves.step (Moves.refl _ u1) (endCmd_moves ..) rfl
  ·
    refine hasSnd_mk ?_
    exact (Moves.refl _ u1)

theorem execNvmeAsyncEventRequest_moves (a0 a1 s) : MovesAll hasNext [.out, .regs, .log, .host, .sto] s (execNvmeAsyncEventRequest a0 a1 s) := by
  unfold execNvmeAsyncEventRequest
  refine MovesAll.step (m := [.out, .regs, .log, .host, .sto]) (Moves.refl _ s) (fetch_moves rfl (fun u0 u1 => ?_)) rfl
  refine Moves.step ?_ (nsNotice_moves ..) rfl
  exact Moves.step (Moves.refl _ u1) (nvmeMod_moves ..) rfl

theorem holdCmd_moves (a0 s) : Moves [.out, .freeIx, .buf, .sto] s (holdCmd a0 s) := by
  unfold holdCmd
  refine Moves.step ?_ (pumpNs_moves ..) rfl
  exact Moves.step (Moves.refl _ s) (stoMod_moves ..) rfl

theorem ioCommand_moves (a0 a1 a2 a3 a4 s) : Moves [.out, .freeIx, .regs, .log, .buf, .host, .sto, .svc] s (ioCommand a0 a1 a2 a3 a4 s) := by
  unfold ioCommand
  extract_lets -merge -useContext -underBinder y0 y1
  clear_value y0
  unfold y1
  split
  ·
    exact Moves.step (Moves.refl _ s) (stoAnswer_moves ..) rfl
  ·
    split
    ·
      exact Moves.step (Moves.refl _ s) (stoAnswer_moves ..) rfl
    ·
      extract_lets -merge -useContext -underBinder y2
      clear_value y2
      refine Moves.ite ?_ ?_
      ·
        exact Moves.step (Moves.refl _ s) (stoAnswer_moves ..) rfl
      ·
        refine Moves.ite ?_ ?_
        ·
          exact Moves.step (Moves.refl _ s) (stoAnswer_moves ..) rfl
        ·
          refine Moves.ite ?_ ?_
          ·
            exact Moves.step (Moves.refl _ s) (stoAnswer_moves ..) rfl
          ·
            split
            ·
              exact Moves.step (Moves.refl _ s) (stoAnswer_moves ..) rfl
            ·
              extract_lets -merge -useContext -underBinder y3
              clear_value y3
              refine Moves.ite ?_ ?_
              ·
                split
                ·
                  exact Moves.step (Moves.refl _ s) (stoAnswer_moves ..) rfl
                ·
                  split
                  ·
                    refine Moves.step ?_ (stoAnswer_moves ..) rfl
                    exact Moves.step (Moves.refl _ s) (piError_moves ..) rfl
                  ·
                    exact Moves.step (Moves.refl _ s) (holdCmd_moves ..) rfl
              ·
                refine Moves.ite ?_ ?_
                ·
                  split
                  ·
                    exact Moves.step (Moves.refl _ s) (stoAnswer_moves ..) rfl
                  ·
                    exact Moves.step (Moves.refl _ s) (holdCmd_moves ..) rfl
                ·
                  exact Moves.step (Moves.refl _ s) (holdCmd_moves ..) rfl

theorem hostIo_moves {l : List Part} (hb : [Part.out, .regs, .log, .host, .sto].all l.contains = true) {opc : Nat} {f : Fn} {q : Nat}
    {entry : Bytes} {act : Bytes → State → State} {s : State} (h : ∀ e u, Moves l u (act e u)) :
    MovesAll hasNext l s (hostIo opc f q entry act s) := by
  unfold hostIo
  refine MovesAll.ite (hasNext_onElem (Moves.refl _ s)) (MovesAll.ite (hasNext_onElem (Moves.refl _ s)) ?_)
  exact fetch_moves hb h

theorem execNvmeRead_moves (a0 a1 a2 a3 s) : MovesAll hasNext [.out, .freeIx, .regs, .log, .buf, .host, .sto, .svc] s (execNvmeRead a0 a1 a2 a3 s) := by
  unfold execNvmeRead
  refine MovesAll.step (m := [.out, .freeIx, .regs, .log, .buf, .host, .sto, .svc]) (Moves.refl _ s) (hostIo_moves rfl (fun u0 u1 => ?_)) rfl
  exact Moves.step (Moves.refl _ u1) (ioCommand_moves ..) rfl

theorem execNvmeWrite_moves (a0 a1 a2 a3 a4 s) : MovesAll hasNext [.out, .freeIx, .regs, .log, .buf, .host, .sto, .svc] s (execNvmeWrite a0 a1 a2 a3 a4 s) := by
  unfold execNvmeWrite
  refine MovesAll.step (m := [.out, .freeIx, .regs, .log, .buf, .host, .sto, .svc]) (Moves.refl _ s) (hostIo_moves rfl (fun u0 u1 => ?_)) rfl
  exact Moves.step (Moves.refl _ u1) (ioCommand_moves ..) rfl

theorem execNvmeCompare_moves (a0 a1 a2 a3 a4 s) : MovesAll hasNext [.out, .freeIx, .regs, .log, .buf, .host, .sto, .svc] s (execNvmeCompare a0 a1 a2 a3 a4 s) := by
  unfold execNvmeCompare
  refine MovesAll.step (m := [.out, .freeIx, .regs, .log, .buf, .host, .sto, .svc]) (Moves.refl _ s) (hostIo_moves rfl (fun u0 u1 => ?_)) rfl
  exact Moves.step (Moves.refl _ u1) (ioCommand_moves ..) rfl

theorem execNvmeFlush_moves (a0 a1 a2 s) : MovesAll hasNext [.out, .freeIx, .regs, .log, .buf, .host, .sto, .svc] s (execNvmeFlush a0 a1 a2 s) := by
  unfold execNvmeFlush
  refine MovesAll.step (m := [.out, .freeIx, .regs, .log, .buf, .host, .sto, .svc]) (Moves.refl _ s) (hostIo_moves rfl (fun u0 u1 => ?_)) rfl
  exact Moves.step (Moves.refl _ u1) (ioCommand_moves ..) rfl

theorem execNvmeWriteZeroes_moves (a0 a1 a2 s) : MovesAll hasNext [.out, .freeIx, .regs, .log, .buf, .host, .sto, .svc] s (execNvmeWriteZeroes a0 a1 a2 s) := by
  unfold execNvmeWriteZeroes
  refine MovesAll.step (m := [.out, .freeIx, .regs, .log, .buf, .host, .sto, .svc]) (Moves.refl _ s) (hostIo_moves rfl (fun u0 u1 => ?_)) rfl
  exact Moves.step (Moves.refl _ u1) (ioCommand_moves ..) rfl

theorem execNvmeDatasetManagement_moves (a0 a1 a2 a3 s) : MovesAll hasNext [.out, .freeIx, .regs, .log, .buf, .host, .sto, .svc] s (execNvmeDatasetManagement a0 a1 a2 a3 s) := by
  unfold execNvmeDatasetManagement
  refine MovesAll.step (m := [.out, .freeIx, .regs, .log, .buf, .host, .sto, .svc]) (Moves.refl _ s) (hostIo_moves rfl (fun u0 u1 => ?_)) rfl
  exact Moves.step (Moves.refl _ u1) (ioCommand_moves ..) rfl

theorem execBedStorageSubmit_moves (a0 a1 s) : MovesAll hasNext [.out, .freeIx, .regs, .log, .buf, .host, .sto, .svc, .mem] s (execBedStorageSubmit a0 a1 s) := by
  unfold execBedStorageSubmit
  extract_lets -merge -useContext -underBinder y0 y1 y2
  clear_value y0
  clear_value y1
  clear_value y2
  refine hasNext_onElem ?_
  refine Moves.ite ?_ ?_
  ·
    exact (Moves.refl _ s)
  ·
    refine Moves.ite ?_ ?_
    ·
      exact Moves.step (Moves.refl _ s) (stoAnswer_moves ..) rfl
    ·
      split
      ·
        exact Moves.step (Moves.refl _ s) (stoAnswer_moves ..) rfl
      ·
        split
        ·
          exact Moves.step (Moves.refl _ s) (stoAnswer_moves ..) rfl
        ·
          split
          ·
            exact Moves.step (Moves.refl _ s) (stoAnswer_moves ..) rfl
          ·
            extract_lets -merge -useContext -underBinder y3 y4 y5 y6 y7
            clear_value y3
            clear_value y4
            clear_value y5
            have hy6 : Moves [.out, .freeIx, .regs, .log, .buf, .host, .sto, .svc, .mem] s y6 := by
              unfold y6
              refine Moves.ite ?_ ?_
              ·
                refine Moves.step ?_ (countReads_moves ..) rfl
                refine Moves.ite ?_ ?_
                ·
                  exact (Moves.refl _ s)
                ·
                  exact Moves.step (Moves.refl _ s) (countReads_moves ..) rfl
              ·
                exact (Moves.refl _ s)
            clear_value y6
            clear_value y7
            refine Moves.ite ?_ ?_
            ·
              exact Moves.step (Moves.refl _ s) (stoAnswer_moves ..) rfl
            ·
              exact Moves.step hy6 (ioCommand_moves ..) rfl

theorem execTargetResponse_moves (a0 a1 a2 a3 a4 a5 s) : MovesAll hasNext [.out, .freeIx, .regs, .log, .buf, .host, .sto, .svc, .mem] s (execTargetResponse a0 a1 a2 a3 a4 a5 s) := by
  unfold execTargetResponse
  refine hasNext_next ?_
  split
  ·
    exact (Moves.refl _ s)
  ·
    extract_lets -merge -useContext -underBinder y0
    clear_value y0
    refine Moves.ite ?_ ?_
    ·
      refine Moves.step ?_ (pumpNs_moves ..) rfl
      exact Moves.step (Moves.refl _ s) (stoMod_moves ..) rfl
    ·
      refine Moves.ite ?_ ?_
      ·
        refine Moves.step ?_ (pumpNs_moves ..) rfl
        exact Moves.step (Moves.refl _ s) (endCmd_moves ..) rfl
      ·
        refine Moves.ite ?_ ?_
        ·
          refine Moves.step ?_ (pumpNs_moves ..) rfl
          exact Moves.step (Moves.refl _ s) (endCmd_moves ..) rfl
        ·
          split
          ·
            exact Moves.step (Moves.refl _ s) (endCmd_moves ..) rfl
          ·
            split
            ·
              refine Moves.step ?_ (pumpNs_moves ..) rfl
              refine Moves.step ?_ (endCmd_moves ..) rfl
              exact Moves.step (Moves.refl _ s) (piError_moves ..) rfl
            ·
              split
              ·
                rename_i v1 v2 e3
                have hv2 : Moves [.out, .freeIx, .regs, .log, .buf, .host, .sto, .svc, .mem] s v2 := by
                  refine MovesAll.of_eq (has := hasSnd) e3 rfl ?_
                  exact MovesAll.step (Moves.refl _ s) (deliver_moves _ _ _ _) rfl
                refine Moves.step ?_ (pumpNs_moves ..) rfl
                exact Moves.step hv2 (endCmd_moves ..) rfl

theorem pathMod_moves (a0 a1 s) : Moves [.sto] s (pathMod a0 a1 s) := by
  unfold pathMod
  exact Moves.step (Moves.refl _ s) (stoMod_moves ..) rfl

theorem pathConnect_moves (a0 s) : Moves [.out, .freeIx, .buf, .sto] s (pathConnect a0 s) := by
  unfold pathConnect
  split
  ·
    exact (Moves.refl _ s)
  ·
    refine Moves.foldl ?_ (fun t0 x1 ht0 => ?_)
    · exact Moves.step (Moves.refl _ s) (pathMod_moves ..) rfl
    · exact Moves.step ht0 (toTransport_moves ..) rfl

theorem nsMeets_moves (a0 a1 s a3) : Moves [.regs, .log, .sto] s (nsMeets a0 a1 s a3) := by
  unfold nsMeets
  split
  ·
    exact (Moves.refl _ s)
  ·
    refine Moves.ite ?_ ?_
    ·
      exact (Moves.refl _ s)
    ·
      split
      ·
        extract_lets -merge -useContext -underBinder y0
        have hy0 : Moves [.regs, .log, .sto] s y0 := by
          unfold y0
          exact Moves.step (Moves.refl _ s) (nsMod_moves ..) rfl
        clear_value y0
        refine Moves.ite ?_ ?_
        ·
          exact Moves.step (Moves.refl _ s) (nsSet_moves ..) rfl
        ·
          refine Moves.ite ?_ ?_
          ·
            exact Moves.step hy0 (nsSet_moves ..) rfl
          ·
            exact hy0
      ·
        refine Moves.ite ?_ ?_
        ·
          exact Moves.step (Moves.refl _ s) (nsSet_moves ..) rfl
        ·
          exact (Moves.refl _ s)

theorem execStoPathUp_moves (a0 a1 s) : MovesAll hasNext [.out, .freeIx, .regs, .log, .buf, .sto] s (execStoPathUp a0 a1 s) := by
  unfold execStoPathUp
  refine hasNext_next ?_
  split
  ·
    exact (Moves.refl _ s)
  ·
    extract_lets -merge -useContext -underBinder y0 y1
    have hy0 : Moves [.out, .freeIx, .regs, .log, .buf, .sto] s y0 := by
      unfold y0
      exact Moves.step (Moves.refl _ s) (pathMod_moves ..) rfl
    clear_value y0
    have hy1 : Moves [.out, .freeIx, .regs, .log, .buf, .sto] s y1 := by
      unfold y1
      exact Moves.step hy0 (raise_moves ..) rfl
    clear_value y1
    refine Moves.ite ?_ ?_
    ·
      exact (Moves.refl _ s)
    ·
      refine Moves.step ?_ (pumpAll_moves ..) rfl
      refine Moves.foldl ?_ (fun t2 x3 ht2 => ?_)
      ·
        exact hy1
      ·
        exact Moves.step ht2 (nsMeets_moves ..) rfl

theorem pathDown_moves (a0 a1 s) : Moves [.out, .freeIx, .regs, .log, .buf, .sto] s (pathDown a0 a1 s) := by
  unfold pathDown
  split
  ·
    exact (Moves.refl _ s)
  ·
    extract_lets -merge -useContext -underBinder y0 y1 y2 y3
    clear_value y0
    have hy1 : Moves [.out, .freeIx, .regs, .log, .buf, .sto] s y1 := by
      unfold y1
      exact Moves.step (Moves.refl _ s) (pathMod_moves ..) rfl
    clear_value y1
    have hy2 : Moves [.out, .freeIx, .regs, .log, .buf, .sto] s y2 := by
      unfold y2
      exact Moves.step hy1 (raise_moves ..) rfl
    clear_value y2
    have hy3 : Moves [.out, .freeIx, .regs, .log, .buf, .sto] s y3 := by
      unfold y3
      exact Moves.step hy2 (stoMod_moves ..) rfl
    clear_value y3
    refine Moves.ite ?_ ?_
    ·
      exact Moves.step (Moves.refl _ s) (pathMod_moves ..) rfl
    ·
      refine Moves.step ?_ (pumpAll_moves ..) rfl
      refine Moves.foldl ?_ (fun t4 x5 ht4 => ?_)
      ·
        exact hy3
      ·
        refine Moves.ite ?_ ?_
        ·
          exact Moves.step ht4 (nsSet_moves ..) rfl
        ·
          exact ht4

theorem execPathConnectionError_moves (a0 s) : MovesAll hasNext [.out, .freeIx, .regs, .log, .buf, .sto] s (execPathConnectionError a0 s) := by
  unfold execPathConnectionError
  refine hasNext_next ?_
  exact Moves.step (Moves.refl _ s) (pathDown_moves ..) rfl

theorem execKeepAliveTimeout_moves (a0 s) : MovesAll hasNext [.out, .freeIx, .regs, .log, .buf, .sto] s (execKeepAliveTimeout a0 s) := by
  unfold execKeepAliveTimeout
  refine hasNext_next ?_
  exact Moves.step (Moves.refl _ s) (pathDown_moves ..) rfl

theorem execIoTimeout_moves (a0 s) : MovesAll hasNext [.out, .freeIx, .regs, .log, .buf, .sto] s (execIoTimeout a0 s) := by
  unfold execIoTimeout
  refine hasNext_next ?_
  refine Moves.ite ?_ ?_
  ·
    exact (Moves.refl _ s)
  ·
    exact Moves.step (Moves.refl _ s) (pathDown_moves ..) rfl

theorem execRoceRetryExhausted_moves (a0 s) : MovesAll hasNext [.out, .freeIx, .regs, .log, .buf, .sto] s (execRoceRetryExhausted a0 s) := by
  unfold execRoceRetryExhausted
  refine hasNext_next ?_
  split
  ·
    refine Moves.ite ?_ ?_
    ·
      exact Moves.step (Moves.refl _ s) (pathDown_moves ..) rfl
    ·
      exact (Moves.refl _ s)
  ·
    exact (Moves.refl _ s)

theorem execTargetFatalStatus_moves (a0 s) : MovesAll hasNext [.out, .freeIx, .regs, .log, .buf, .sto] s (execTargetFatalStatus a0 s) := by
  unfold execTargetFatalStatus
  refine hasNext_next ?_
  exact Moves.step (Moves.refl _ s) (pathDown_moves ..) rfl

theorem execPathReconnectTimer_moves (a0 s) : MovesAll hasNext [.out, .freeIx, .buf, .sto] s (execPathReconnectTimer a0 s) := by
  unfold execPathReconnectTimer
  refine hasNext_next ?_
  split
  ·
    exact (Moves.refl _ s)
  ·
    refine Moves.ite ?_ ?_
    ·
      exact (Moves.refl _ s)
    ·
      refine Moves.step ?_ (pathConnect_moves ..) rfl
      exact Moves.step (Moves.refl _ s) (pathMod_moves ..) rfl

theorem execNamespaceHoldExpiry_moves (a0 s) : MovesAll hasNext [.out, .regs, .log, .host, .sto, .svc] s (execNamespaceHoldExpiry a0 s) := by
  unfold execNamespaceHoldExpiry
  refine hasNext_next ?_
  split
  ·
    exact (Moves.refl _ s)
  ·
    refine Moves.ite ?_ ?_
    ·
      exact (Moves.refl _ s)
    ·
      refine Moves.step ?_ (nsSet_moves ..) rfl
      refine Moves.foldl ?_ (fun t0 x1 ht0 => ?_)
      ·
        exact (Moves.refl _ s)
      ·
        exact Moves.step ht0 (endCmd_moves ..) rfl

theorem execNumvfsWrite_moves (a0 a1 s) : MovesAll hasNext [.host] s (execNumvfsWrite a0 a1 s) := by
  unfold execNumvfsWrite
  refine hasNext_onElem ?_
  refine Moves.ite ?_ ?_
  ·
    exact (Moves.refl _ s)
  ·
    exact Moves.step (Moves.refl _ s) (funcMod_moves ..) rfl

theorem execVfEnableSet_moves (a0 s) : MovesAll hasNext [.out, .regs, .log, .host] s (execVfEnableSet a0 s) := by
  unfold execVfEnableSet
  refine hasNext_onElem ?_
  refine Moves.ite ?_ ?_
  ·
    exact (Moves.refl _ s)
  ·
    refine Moves.ite ?_ ?_
    ·
      exact Moves.step (Moves.refl _ s) (funcMod_moves ..) rfl
    ·
      exact Moves.step (Moves.refl _ s) (vfsAppear_moves ..) rfl

theorem execVfEnableClear_moves (a0 s) : MovesAll hasNext [.waiting, .out, .freeIx, .regs, .log, .cmd, .cfg, .boot, .tbl, .host, .sto, .svc, .mbx] s (execVfEnableClear a0 s) := by
  unfold execVfEnableClear
  refine hasNext_onElem ?_
  refine Moves.step ?_ (clearVfs_moves ..) rfl
  exact Moves.step (Moves.refl _ s) (funcMod_moves ..) rfl

theorem vfCtrlWrite_moves (a0 a1 s) : Moves [.host] s (vfCtrlWrite a0 a1 s) := by
  unfold vfCtrlWrite
  extract_lets -merge -useContext -underBinder y0 y1
  clear_value y0
  have hy1 : Moves [.host] s y1 := by
    unfold y1
    exact Moves.step (Moves.refl _ s) (funcMod_moves ..) rfl
  clear_value y1
  refine Moves.ite ?_ ?_
  ·
    refine Moves.ite ?_ ?_
    ·
      exact Moves.step hy1 (funcMod_moves ..) rfl
    ·
      exact Moves.step hy1 (vfActivate_moves ..) rfl
  ·
    split
    ·
      exact Moves.step hy1 (funcMod_moves ..) rfl
    ·
      exact Moves.step hy1 (funcMod_moves ..) rfl
    ·
      exact hy1

theorem execVfCtrlEnableSet_moves (a0 s) : MovesAll hasNext [.host] s (execVfCtrlEnableSet a0 s) := by
  unfold execVfCtrlEnableSet
  refine hasNext_onElem ?_
  exact Moves.step (Moves.refl _ s) (vfCtrlWrite_moves ..) rfl

theorem execVfCtrlEnableClear_moves (a0 s) : MovesAll hasNext [.host] s (execVfCtrlEnableClear a0 s) := by
  unfold execVfCtrlEnableClear
  refine hasNext_onElem ?_
  exact Moves.step (Moves.refl _ s) (vfCtrlWrite_moves ..) rfl

theorem execVfShutdownDone_moves (a0 s) : MovesAll hasNext [.out, .regs, .log, .host] s (execVfShutdownDone a0 s) := by
  unfold execVfShutdownDone
  extract_lets -merge -useContext -underBinder y0 y1 y2 y3 y4
  clear_value y0
  have hy1 : Moves [.out, .regs, .log, .host] s y1 := by
    unfold y1
    refine Moves.foldl ?_ (fun t5 x6 ht5 => ?_)
    ·
      exact (Moves.refl _ s)
    ·
      exact Moves.step ht5 (qpCut_moves ..) rfl
  clear_value y1
  have hy2 : Moves [.out, .regs, .log, .host] s y2 := by
    unfold y2
    refine Moves.ite ?_ ?_
    ·
      exact Moves.step hy1 (setBme_moves ..) rfl
    ·
      exact hy1
  clear_value y2
  clear_value y3
  have hy4 : Moves [.out, .regs, .log, .host] s y4 := by
    unfold y4
    exact Moves.step hy2 (funcMod_moves ..) rfl
  clear_value y4
  refine hasNext_onElem ?_
  refine Moves.ite ?_ ?_
  ·
    exact (Moves.refl _ s)
  ·
    exact Moves.step hy4 (raiseFn_moves ..) rfl

theorem opVfQuery_moves (c s) : DoneMoves [] s ((opVfQuery).body c s) := by
  unfold opVfQuery
  refine op_mk ?_
  extract_lets -merge -useContext -underBinder y0 y1
  clear_value y0
  clear_value y1
  refine DoneMoves.ite ?_ ?_
  ·
    exact hasDone_refuse
  ·
    refine DoneMoves.ite ?_ ?_
    ·
      exact hasDone_refuse
    ·
      refine DoneMoves.ite ?_ ?_
      ·
        refine hasDone_reply ?_
        exact (Moves.refl _ s)
      ·
        refine hasDone_reply ?_
        exact (Moves.refl _ s)

theorem execVfQuery_moves (a0 s) : MovesAll hasNext [.waiting, .out, .regs, .log, .cmd, .prot, .host, .svc] s (execVfQuery a0 s) := by
  unfold execVfQuery
  refine hasNext_next ?_
  exact Moves.step (Moves.refl _ s) (runCmd_moves _ _ _ (opVfQuery_moves ..)) rfl

theorem opVfSuspend_moves (c s) : DoneMoves [.host] s ((opVfSuspend).body c s) := by
  unfold opVfSuspend
  refine op_mk ?_
  split
  ·
    exact hasDone_refuse
  ·
    extract_lets -merge -useContext -underBinder y0
    clear_value y0
    refine DoneMoves.ite ?_ ?_
    ·
      exact hasDone_refuse
    ·
      refine hasDone_later ?_
      exact Moves.step (Moves.refl _ s) (funcMod_moves ..) rfl

theorem execVfSuspend_moves (a0 s) : MovesAll hasNext [.waiting, .out, .regs, .log, .cmd, .prot, .host, .svc] s (execVfSuspend a0 s) := by
  unfold execVfSuspend
  refine hasNext_next ?_
  exact Moves.step (Moves.refl _ s) (runCmd_moves _ _ _ (opVfSuspend_moves ..)) rfl

theorem execVfSuspendComplete_moves (a0 s) : MovesAll hasNext [.out, .regs, .log, .cmd, .host, .svc] s (execVfSuspendComplete a0 s) := by
  unfold execVfSuspendComplete
  refine hasNext_onElem ?_
  refine Moves.ite ?_ ?_
  ·
    refine Moves.step ?_ (finishKey_moves ..) rfl
    exact Moves.step (Moves.refl _ s) (funcMod_moves ..) rfl
  ·
    exact (Moves.refl _ s)

theorem opVfResume_moves (c s) : DoneMoves [.out, .host] s ((opVfResume).body c s) := by
  unfold opVfResume
  refine op_mk ?_
  split
  ·
    exact hasDone_refuse
  ·
    extract_lets -merge -useContext -underBinder y0 y1
    clear_value y0
    have hy1 : Moves [.out, .host] s y1 := by
      unfold y1
      exact Moves.step (Moves.refl _ s) (funcMod_moves ..) rfl
    clear_value y1
    refine DoneMoves.ite ?_ ?_
    ·
      exact hasDone_refuse
    ·
      refine hasDone_reply ?_
      refine Moves.foldl ?_ (fun t2 x3 ht2 => ?_)
      ·
        exact hy1
      ·
        exact Moves.step ht2 (qpFetch_moves ..) rfl

theorem execVfResume_moves (a0 s) : MovesAll hasNext [.waiting, .out, .regs, .log, .cmd, .prot, .host, .svc] s (execVfResume a0 s) := by
  unfold execVfResume
  refine hasNext_next ?_
  exact Moves.step (Moves.refl _ s) (runCmd_moves _ _ _ (opVfResume_moves ..)) rfl

theorem logMod_moves (a0 a1 s) : Moves [.host] s (logMod a0 a1 s) := by
  unfold logMod
  extract_lets -merge -useContext -underBinder y0
  clear_value y0
  exact Moves.step (m := [.host]) (Moves.refl _ s) (Moves.leaf (by intro x hx; cases x <;> first | rfl | exact absurd (by decide) hx) rfl rfl rfl rfl) rfl

theorem logDel_moves (a0 s) : Moves [.host] s (logDel a0 s) := by
  unfold logDel
  extract_lets -merge -useContext -underBinder y0
  clear_value y0
  exact Moves.step (m := [.host]) (Moves.refl _ s) (Moves.leaf (by intro x hx; cases x <;> first | rfl | exact absurd (by decide) hx) rfl rfl rfl rfl) rfl

theorem opVfLogStart_moves (c s) : DoneMoves [.host] s ((opVfLogStart).body c s) := by
  unfold opVfLogStart
  refine op_mk ?_
  split
  ·
    exact hasDone_refuse
  ·
    extract_lets -merge -useContext -underBinder y0 y1 y2
    clear_value y0
    clear_value y1
    clear_value y2
    refine DoneMoves.ite ?_ ?_
    ·
      exact hasDone_refuse
    ·
      refine DoneMoves.ite ?_ ?_
      ·
        exact hasDone_refuse
      ·
        split
        ·
          exact hasDone_refuse
        ·
          refine hasDone_reply ?_
          exact Moves.step (Moves.refl _ s) (logMod_moves ..) rfl

theorem execVfLogStart_moves (a0 s) : MovesAll hasNext [.waiting, .out, .regs, .log, .cmd, .prot, .host, .svc] s (execVfLogStart a0 s) := by
  unfold execVfLogStart
  refine hasNext_next ?_
  exact Moves.step (Moves.refl _ s) (runCmd_moves _ _ _ (opVfLogStart_moves ..)) rfl

theorem opVfLogHarvest_moves (c s) : DoneMoves [.host] s ((opVfLogHarvest).body c s) := by
  unfold opVfLogHarvest
  refine op_mk ?_
  split
  ·
    exact hasDone_refuse
  ·
    split
    ·
      exact hasDone_refuse
    ·
      split
      ·
        exact hasDone_refuse
      ·
        refine DoneMoves.ite ?_ ?_
        ·
          exact hasDone_refuse
        ·
          refine hasDone_accept ?_ (fun u => Moves.refl _ u)
          exact Moves.step (Moves.refl _ s) (logMod_moves ..) rfl

theorem execVfLogHarvest_moves (a0 s) : MovesAll hasNext [.waiting, .out, .regs, .log, .cmd, .prot, .host, .svc] s (execVfLogHarvest a0 s) := by
  unfold execVfLogHarvest
  refine hasNext_next ?_
  exact Moves.step (Moves.refl _ s) (runCmd_moves _ _ _ (opVfLogHarvest_moves ..)) rfl

theorem execVfLogHarvestComplete_moves (a0 a1 s) : MovesAll hasNext [.out, .regs, .log, .cmd, .host, .svc, .mem] s (execVfLogHarvestComplete a0 a1 s) := by
  unfold execVfLogHarvestComplete
  refine hasNext_next ?_
  split
  ·
    exact (Moves.refl _ s)
  ·
    split
    ·
      exact (Moves.refl _ s)
    ·
      extract_lets -merge -useContext -underBinder y0 y1
      clear_value y0
      have hy1 : Moves [.out, .regs, .log, .cmd, .host, .svc, .mem] s y1 := by
        unfold y1
        refine Moves.step ?_ (hostWrite_moves ..) rfl
        exact Moves.step (Moves.refl _ s) (areaRewritten_moves ..) rfl
      clear_value y1
      refine Moves.ite ?_ ?_
      ·
        exact (Moves.refl _ s)
      ·
        refine Moves.ite ?_ ?_
        ·
          refine Moves.step ?_ (finishKey_moves ..) rfl
          exact Moves.step (Moves.refl _ s) (logDel_moves ..) rfl
        ·
          split
          ·
            exact hy1
          ·
            refine Moves.step ?_ (finishKey_moves ..) rfl
            exact Moves.step hy1 (logMod_moves ..) rfl

theorem opVfLogStop_moves (c s) : DoneMoves [.host] s ((opVfLogStop).body c s) := by
  unfold opVfLogStop
  refine op_mk ?_
  split
  ·
    exact hasDone_refuse
  ·
    split
    ·
      exact hasDone_refuse
    ·
      refine DoneMoves.ite ?_ ?_
      ·
        exact hasDone_refuse
      ·
        refine hasDone_reply ?_
        exact Moves.step (Moves.refl _ s) (logDel_moves ..) rfl

theorem execVfLogStop_moves (a0 s) : MovesAll hasNext [.waiting, .out, .regs, .log, .cmd, .prot, .host, .svc] s (execVfLogStop a0 s) := by
  unfold execVfLogStop
  refine hasNext_next ?_
  exact Moves.step (Moves.refl _ s) (runCmd_moves _ _ _ (opVfLogStop_moves ..)) rfl

theorem opVfSave_moves (c s) : DoneMoves [.out, .regs, .log, .host] s ((opVfSave).body c s) := by
  unfold opVfSave
  refine op_mk ?_
  split
  ·
    exact hasDone_refuse
  ·
    extract_lets -merge -useContext -underBinder y0
    clear_value y0
    refine DoneMoves.ite ?_ ?_
    ·
      exact hasDone_refuse
    ·
      refine DoneMoves.ite ?_ ?_
      ·
        exact hasDone_refuse
      ·
        refine DoneMoves.ite ?_ ?_
        ·
          exact hasDone_refuse
        ·
          refine hasDone_accept ?_ ?_
          ·
            exact (Moves.refl _ s)
          ·
            intro u1
            exact Moves.step (Moves.refl _ u1) (hostWrite_moves ..) rfl

theorem execVfSave_moves (a0 s) : MovesAll hasNext [.waiting, .out, .regs, .log, .cmd, .prot, .host, .svc] s (execVfSave a0 s) := by
  unfold execVfSave
  refine hasNext_next ?_
  exact Moves.step (Moves.refl _ s) (runCmd_moves _ _ _ (opVfSave_moves ..)) rfl

theorem execVfSaveComplete_moves (a0 a1 s) : MovesAll hasNext [.out, .regs, .log, .cmd, .host, .svc] s (execVfSaveComplete a0 a1 s) := by
  unfold execVfSaveComplete
  refine hasNext_next ?_
  exact Moves.step (Moves.refl _ s) (finishKey_moves ..) rfl

theorem opVfRestore_moves (c s) : DoneMoves [] s ((opVfRestore).body c s) := by
  unfold opVfRestore
  refine op_mk ?_
  split
  ·
    exact hasDone_refuse
  ·
    extract_lets -merge -useContext -underBinder y0
    clear_value y0
    refine DoneMoves.ite ?_ ?_
    ·
      exact hasDone_refuse
    ·
      refine DoneMoves.ite ?_ ?_
      ·
        exact hasDone_refuse
      ·
        refine hasDone_accept ?_ (fun u => Moves.refl _ u)
        exact (Moves.refl _ s)

theorem execVfRestore_moves (a0 s) : MovesAll hasNext [.waiting, .out, .regs, .log, .cmd, .prot, .host, .svc] s (execVfRestore a0 s) := by
  unfold execVfRestore
  refine hasNext_next ?_
  exact Moves.step (Moves.refl _ s) (runCmd_moves _ _ _ (opVfRestore_moves ..)) rfl

theorem execVfRestored_moves (a0 a1 a2 s) : MovesAll hasNext [.out, .regs, .log, .cmd, .host, .svc] s (execVfRestored a0 a1 a2 s) := by
  unfold execVfRestored
  extract_lets -merge -useContext -underBinder y0 y1 y2 y3 y4
  clear_value y0
  clear_value y1
  clear_value y2
  have hy4 : Moves [.out, .regs, .log, .cmd, .host, .svc] s y4 := by
    unfold y4
    exact Moves.step (Moves.refl _ s) (funcMod_moves ..) rfl
  clear_value y4
  unfold y3
  refine hasNext_onElem ?_
  refine Moves.ite ?_ ?_
  ·
    exact (Moves.refl _ s)
  ·
    refine Moves.ite ?_ ?_
    ·
      exact Moves.step (Moves.refl _ s) (finishKey_moves ..) rfl
    ·
      refine Moves.ite ?_ ?_
      ·
        exact Moves.step (Moves.refl _ s) (finishKey_moves ..) rfl
      ·
        refine Moves.ite ?_ ?_
        ·
          exact Moves.step (Moves.refl _ s) (finishKey_moves ..) rfl
        ·
          refine Moves.step ?_ (finishKey_moves ..) rfl
          exact Moves.step hy4 (raiseFn_moves ..) rfl

theorem chWrite_moves (a0 a1 a2 s) : Moves [.freeIx, .host] s (chWrite a0 a1 a2 s) := by
  unfold chWrite
  extract_lets -merge -useContext -underBinder y0 y1
  clear_value y0
  have hy1 : Moves [.freeIx, .host] s y1 := by
    unfold y1
    refine Moves.ite ?_ ?_
    ·
      exact Moves.step (Moves.refl _ s) (chDisable_moves ..) rfl
    ·
      exact (Moves.refl _ s)
  clear_value y1
  refine Moves.ite ?_ ?_
  ·
    refine Moves.ite ?_ ?_
    ·
      refine Moves.ite ?_ ?_
      ·
        exact (Moves.refl _ s)
      ·
        exact Moves.step (Moves.refl _ s) (chEnable_moves ..) rfl
    ·
      exact Moves.step hy1 (dmaMod_moves ..) rfl
  ·
    refine Moves.ite ?_ ?_
    ·
      refine Moves.ite ?_ ?_
      ·
        exact Moves.step (Moves.refl _ s) (dmaMod_moves ..) rfl
      ·
        exact (Moves.refl _ s)
    ·
      refine Moves.ite ?_ ?_
      ·
        exact Moves.step (Moves.refl _ s) (dmaMod_moves ..) rfl
      ·
        exact (Moves.refl _ s)

theorem mbxWrite_moves (a0 a1 a2 a3 s) : Moves [.out, .host, .svc, .mbx] s (mbxWrite a0 a1 a2 a3 s) := by
  unfold mbxWrite
  extract_lets -merge -useContext -underBinder y0
  clear_value y0
  refine Moves.ite ?_ ?_
  ·
    exact (Moves.refl _ s)
  ·
    refine Moves.ite ?_ ?_
    ·
      refine Moves.ite ?_ ?_
      ·
        exact Moves.step (Moves.refl _ s) (mbxMod_moves ..) rfl
      ·
        refine Moves.ite ?_ ?_
        ·
          exact Moves.step (Moves.refl _ s) (mbxSend_moves ..) rfl
        ·
          refine Moves.ite ?_ ?_
          ·
            exact Moves.step (Moves.refl _ s) (mbxMod_moves ..) rfl
          ·
            refine Moves.ite ?_ ?_
            ·
              exact Moves.step (Moves.refl _ s) (mbxMod_moves ..) rfl
            ·
              refine Moves.ite ?_ ?_
              ·
                exact Moves.step (Moves.refl _ s) (mbxDbSet_moves ..) rfl
              ·
                exact (Moves.refl _ s)
    ·
      refine Moves.ite ?_ ?_
      ·
        exact Moves.step (Moves.refl _ s) (mbxMod_moves ..) rfl
      ·
        refine Moves.ite ?_ ?_
        ·
          exact Moves.step (Moves.refl _ s) (mbxMod_moves ..) rfl
        ·
          refine Moves.ite ?_ ?_
          ·
            exact Moves.step (Moves.refl _ s) (mbxDbClear_moves ..) rfl
          ·
            refine Moves.ite ?_ ?_
            ·
              exact Moves.step (Moves.refl _ s) (mbxDbMask_moves ..) rfl
            ·
              exact (Moves.refl _ s)

theorem mbxReadEffect_moves (a0 a1 a2 a3 s) : Moves [.out, .host, .svc, .mbx] s (mbxReadEffect a0 a1 a2 a3 s) := by
  unfold mbxReadEffect
  refine Moves.ite ?_ ?_
  ·
    exact Moves.step (Moves.refl _ s) (mbxRead63_moves ..) rfl
  ·
    exact (Moves.refl _ s)

theorem intReadEffect_moves (a0 a1 a2 s) : Moves [.out, .prot, .ports, .buf, .host, .svc, .mbx, .therm] s (intReadEffect a0 a1 a2 s) := by
  unfold intReadEffect
  extract_lets -merge -useContext -underBinder y0
  clear_value y0
  refine Moves.ite ?_ ?_
  ·
    exact Moves.step (Moves.refl _ s) (svcRegReadEffect_moves ..) rfl
  ·
    refine Moves.ite ?_ ?_
    ·
      split
      ·
        exact Moves.step (Moves.refl _ s) (mbxReadEffect_moves ..) rfl
      ·
        exact (Moves.refl _ s)
    ·
      refine Moves.ite ?_ ?_
      ·
        refine Moves.ite ?_ ?_
        ·
          exact Moves.step (Moves.refl _ s) (dieProtMod_moves ..) rfl
        ·
          exact (Moves.refl _ s)
      ·
        refine Moves.ite ?_ ?_
        ·
          refine Moves.foldl ?_ (fun t1 x2 ht1 => ?_)
          ·
            exact (Moves.refl _ s)
          ·
            exact Moves.step ht1 (pwrRegRead_moves ..) rfl
        ·
          refine Moves.foldl ?_ (fun t3 x4 ht3 => ?_)
          ·
            exact (Moves.refl _ s)
          ·
            exact Moves.step ht3 (areaRead_moves ..) rfl

theorem clearEvents_moves (a0 a1 s) : Moves [.regs] s (clearEvents a0 a1 s) := by
  unfold clearEvents
  exact Moves.step (m := [.regs]) (Moves.refl _ s) (Moves.leaf (by intro x hx; cases x <;> first | rfl | exact absurd (by decide) hx) rfl rfl rfl rfl) rfl

theorem intWrite_moves (a0 a1 a2 s) : Moves [.waiting, .out, .freeIx, .regs, .log, .cmd, .cfg, .prot, .tbl, .host, .sto, .svc, .mbx, .mem] s (intWrite a0 a1 a2 s) := by
  unfold intWrite
  refine Moves.ite ?_ ?_
  ·
    exact Moves.step (Moves.refl _ s) (clearEvents_moves ..) rfl
  ·
    split
    ·
      exact Moves.step (m := [.regs]) (Moves.refl _ s) (Moves.leaf (by intro x hx; cases x <;> first | rfl | exact absurd (by decide) hx) rfl rfl rfl rfl) rfl
    ·
      extract_lets -merge -useContext -underBinder y0 y1
      clear_value y0
      clear_value y1
      refine Moves.ite ?_ ?_
      ·
        refine Moves.ite ?_ ?_
        ·
          exact Moves.step (Moves.refl _ s) (svcRegWrite_moves ..) rfl
        ·
          exact (Moves.refl _ s)
      ·
        refine Moves.ite ?_ ?_
        ·
          split
          ·
            exact Moves.step (Moves.refl _ s) (mbxWrite_moves ..) rfl
          ·
            exact (Moves.refl _ s)
        ·
          refine Moves.ite ?_ ?_
          ·
            refine Moves.ite ?_ ?_
            ·
              exact Moves.step (Moves.refl _ s) (chWrite_moves ..) rfl
            ·
              exact (Moves.refl _ s)
          ·
            refine Moves.ite ?_ ?_
            ·
              exact Moves.step (Moves.refl _ s) (violation_moves ..) rfl
            ·
              exact (Moves.refl _ s)

theorem intWrites_moves (a0 a1 a2 a3 s) : Moves [.waiting, .out, .freeIx, .regs, .log, .cmd, .cfg, .prot, .tbl, .host, .sto, .svc, .mbx, .mem] s (intWrites a0 a1 a2 a3 s) := by
  unfold intWrites
  extract_lets -merge -useContext -underBinder y0
  have hy0 : Moves [.waiting, .out, .freeIx, .regs, .log, .cmd, .cfg, .prot, .tbl, .host, .sto, .svc, .mbx, .mem] s y0 := by
    unfold y0
    exact Moves.step (Moves.refl _ s) (intWrite_moves ..) rfl
  clear_value y0
  refine Moves.ite ?_ ?_
  ·
    exact Moves.step (Moves.refl _ s) (svcRegWrite_moves ..) rfl
  ·
    refine Moves.ite ?_ ?_
    ·
      exact Moves.step hy0 (intWrite_moves ..) rfl
    ·
      exact hy0

theorem queueWrite_moves (a0 a1 a2 a3 s) : Moves [.host] s (queueWrite a0 a1 a2 a3 s) := by
  unfold queueWrite
  exact Moves.step (Moves.refl _ s) (cqMod_moves ..) rfl

theorem msixWrite_moves (a0 a1 a2 s) : Moves [.out, .host] s (msixWrite a0 a1 a2 s) := by
  unfold msixWrite
  extract_lets -merge -useContext -underBinder y0 y1 y2
  clear_value y0
  clear_value y1
  unfold y2
  split
  ·
    exact Moves.step (Moves.refl _ s) (funcMod_moves ..) rfl
  ·
    exact Moves.step (Moves.refl _ s) (funcMod_moves ..) rfl
  ·
    exact Moves.step (Moves.refl _ s) (funcMod_moves ..) rfl
  ·
    refine Moves.ite ?_ ?_
    ·
      refine Moves.step ?_ (signalVector_moves ..) rfl
      exact Moves.step (Moves.refl _ s) (funcMod_moves ..) rfl
    ·
      exact Moves.step (Moves.refl _ s) (funcMod_moves ..) rfl

theorem winWrite_moves (a0 a1 a2 s) : Moves [.host] s (winWrite a0 a1 a2 s) := by
  unfold winWrite
  extract_lets -merge -useContext -underBinder y0
  clear_value y0
  refine Moves.ite ?_ ?_
  ·
    exact Moves.step (Moves.refl _ s) (funcMod_moves ..) rfl
  ·
    exact (Moves.refl _ s)

theorem nvmeWrite_moves (a0 a1 a2 s) : Moves [.out, .host, .sto] s (nvmeWrite a0 a1 a2 s) := by
  unfold nvmeWrite
  extract_lets -merge -useContext -underBinder y0
  clear_value y0
  split
  ·
    exact Moves.step (Moves.refl _ s) (nvmeMod_moves ..) rfl
  ·
    extract_lets -merge -useContext -underBinder y1
    have hy1 : Moves [.out, .host, .sto] s y1 := by
      unfold y1
      exact Moves.step (Moves.refl _ s) (nvmeMod_moves ..) rfl
    clear_value y1
    refine Moves.foldl ?_ (fun t2 x3 ht2 => ?_)
    ·
      exact hy1
    ·
      refine Moves.ite ?_ ?_
      ·
        exact Moves.step ht2 (ncqSignal_moves ..) rfl
      ·
        exact ht2
  ·
    refine Moves.ite ?_ ?_
    ·
      exact Moves.step (Moves.refl _ s) (nvmeMod_moves ..) rfl
    ·
      exact (Moves.refl _ s)
  ·
    exact Moves.step (Moves.refl _ s) (nvmeMod_moves ..) rfl
  ·
    exact Moves.step (Moves.refl _ s) (nvmeMod_moves ..) rfl
  ·
    exact Moves.step (Moves.refl _ s) (nvmeMod_moves ..) rfl
  ·
    exact Moves.step (Moves.refl _ s) (nvmeMod_moves ..) rfl
  ·
    exact Moves.step (Moves.refl _ s) (nvmeMod_moves ..) rfl
  ·
    exact (Moves.refl _ s)

theorem ctrlWrite_moves (a0 a1 s) : Moves [.host] s (ctrlWrite a0 a1 s) := by
  unfold ctrlWrite
  refine Moves.ite ?_ ?_
  ·
    exact (Moves.refl _ s)
  ·
    exact Moves.step (Moves.refl _ s) (funcMod_moves ..) rfl

theorem maskWrite_moves (a0 a1 s) : Moves [.out, .host] s (maskWrite a0 a1 s) := by
  unfold maskWrite
  extract_lets -merge -useContext -underBinder y0 y1 y2
  clear_value y0
  have hy1 : Moves [.out, .host] s y1 := by
    unfold y1
    exact Moves.step (Moves.refl _ s) (funcMod_moves ..) rfl
  clear_value y1
  clear_value y2
  refine Moves.ite ?_ ?_
  ·
    exact hy1
  ·
    exact Moves.step hy1 (toHost_moves ..) rfl

theorem pfWrite_moves (a0 a1 a2 s) : Moves [.out, .host, .sto, .svc, .mbx] s (pfWrite a0 a1 a2 s) := by
  unfold pfWrite
  extract_lets -merge -useContext -underBinder y0
  clear_value y0
  refine Moves.ite ?_ ?_
  ·
    exact Moves.step (Moves.refl _ s) (ctrlWrite_moves ..) rfl
  ·
    refine Moves.ite ?_ ?_
    ·
      exact Moves.step (Moves.refl _ s) (maskWrite_moves ..) rfl
    ·
      refine Moves.ite ?_ ?_
      ·
        exact Moves.step (Moves.refl _ s) (queueWrite_moves ..) rfl
      ·
        refine Moves.ite ?_ ?_
        ·
          split
          ·
            exact Moves.step (Moves.refl _ s) (mbxWrite_moves ..) rfl
          ·
            exact (Moves.refl _ s)
        ·
          refine Moves.ite ?_ ?_
          ·
            exact Moves.step (Moves.refl _ s) (msixWrite_moves ..) rfl
          ·
            refine Moves.ite ?_ ?_
            ·
              exact Moves.step (Moves.refl _ s) (winWrite_moves ..) rfl
            ·
              refine Moves.ite ?_ ?_
              ·
                exact Moves.step (Moves.refl _ s) (nvmeWrite_moves ..) rfl
              ·
                exact (Moves.refl _ s)

theorem vfWrite_moves (a0 a1 a2 s) : Moves [.out, .host, .sto] s (vfWrite a0 a1 a2 s) := by
  unfold vfWrite
  refine Moves.ite ?_ ?_
  ·
    exact Moves.step (Moves.refl _ s) (ctrlWrite_moves ..) rfl
  ·
    refine Moves.ite ?_ ?_
    ·
      exact Moves.step (Moves.refl _ s) (queueWrite_moves ..) rfl
    ·
      refine Moves.ite ?_ ?_
      ·
        exact Moves.step (Moves.refl _ s) (msixWrite_moves ..) rfl
      ·
        refine Moves.ite ?_ ?_
        ·
          exact Moves.step (Moves.refl _ s) (nvmeWrite_moves ..) rfl
        ·
          exact (Moves.refl _ s)

theorem bar0Write_moves (a0 a1 a2 s) : Moves [.out, .host, .sto, .svc, .mbx] s (bar0Write a0 a1 a2 s) := by
  unfold bar0Write
  refine Moves.ite ?_ ?_
  ·
    exact Moves.step (Moves.refl _ s) (pfWrite_moves ..) rfl
  ·
    exact Moves.step (Moves.refl _ s) (vfWrite_moves ..) rfl

theorem bar0ReadEffect_moves (a0 a1 a2 s) : Moves [.out, .host, .svc, .mbx] s (bar0ReadEffect a0 a1 a2 s) := by
  unfold bar0ReadEffect
  extract_lets -merge -useContext -underBinder y0 y1 y2
  clear_value y0
  have hy1 : Moves [.out, .host, .svc, .mbx] s y1 := by
    unfold y1
    exact Moves.step (Moves.refl _ s) (funcMod_moves ..) rfl
  clear_value y1
  clear_value y2
  refine Moves.ite ?_ ?_
  ·
    exact (Moves.refl _ s)
  ·
    refine Moves.ite ?_ ?_
    ·
      refine Moves.ite ?_ ?_
      ·
        exact Moves.step hy1 (toHost_moves ..) rfl
      ·
        exact hy1
    ·
      refine Moves.ite ?_ ?_
      ·
        split
        ·
          exact Moves.step (Moves.refl _ s) (mbxReadEffect_moves ..) rfl
        ·
          exact (Moves.refl _ s)
      ·
        exact (Moves.refl _ s)

theorem barWrite_moves (a0 a1 a2 s) : Moves [.host] s (barWrite a0 a1 a2 s) := by
  unfold barWrite
  refine Moves.ite ?_ ?_
  ·
    exact (Moves.refl _ s)
  ·
    exact Moves.step (Moves.refl _ s) (funcMod_moves ..) rfl

theorem linkCtl_moves (a0 a1 s) : Moves [.host] s (linkCtl a0 a1 s) := by
  unfold linkCtl
  refine Moves.ite ?_ ?_
  ·
    exact Moves.step (Moves.refl _ s) (linkMod_moves ..) rfl
  ·
    exact (Moves.refl _ s)

theorem pcieWrite_moves (a0 a1 a2 s) : Moves [.host] s (pcieWrite a0 a1 a2 s) := by
  unfold pcieWrite
  extract_lets -merge -useContext -underBinder y0
  unfold y0
  split
  ·
    exact Moves.step (Moves.refl _ s) (funcMod_moves ..) rfl
  ·
    exact Moves.step (Moves.refl _ s) (funcMod_moves ..) rfl
  ·
    exact Moves.step (Moves.refl _ s) (funcMod_moves ..) rfl
  ·
    exact Moves.step (Moves.refl _ s) (funcMod_moves ..) rfl
  ·
    exact Moves.step (Moves.refl _ s) (funcMod_moves ..) rfl
  ·
    exact Moves.step (Moves.refl _ s) (funcMod_moves ..) rfl
  ·
    exact Moves.step (Moves.refl _ s) (funcMod_moves ..) rfl
  ·
    exact Moves.step (Moves.refl _ s) (funcMod_moves ..) rfl
  ·
    exact Moves.step (Moves.refl _ s) (linkCtl_moves ..) rfl
  ·
    exact Moves.step (Moves.refl _ s) (linkCtl_moves ..) rfl
  ·
    exact Moves.step (Moves.refl _ s) (funcMod_moves ..) rfl
  ·
    exact Moves.step (Moves.refl _ s) (funcMod_moves ..) rfl
  ·
    refine Moves.ite ?_ ?_
    ·
      exact Moves.step (Moves.refl _ s) (barWrite_moves ..) rfl
    ·
      exact (Moves.refl _ s)
  ·
    refine Moves.ite ?_ ?_
    ·
      exact Moves.step (Moves.refl _ s) (barWrite_moves ..) rfl
    ·
      exact (Moves.refl _ s)
  ·
    exact (Moves.refl _ s)

theorem execRegisterWrite_moves (a0 a1 a2 s) : MovesAll hasNext [.waiting, .out, .freeIx, .regs, .log, .cmd, .cfg, .prot, .tbl, .host, .sto, .svc, .mbx, .mem] s (execRegisterWrite a0 a1 a2 s) := by
  unfold execRegisterWrite
  split
  ·
    extract_lets -merge -useContext -underBinder y0
    have hy0 : Moves [.waiting, .out, .freeIx, .regs, .log, .cmd, .cfg, .prot, .tbl, .host, .sto, .svc, .mbx, .mem] s y0 := by
      unfold y0
      exact Moves.step (Moves.refl _ s) (bar0Write_moves ..) rfl
    clear_value y0
    refine hasNext_onElem ?_
    refine Moves.ite ?_ ?_
    ·
      exact Moves.step (Moves.refl _ s) (unsupported_moves ..) rfl
    ·
      refine Moves.ite ?_ ?_
      ·
        exact Moves.step hy0 (bar0Write_moves ..) rfl
      ·
        exact hy0
  ·
    refine hasNext_onElem ?_
    exact Moves.step (Moves.refl _ s) (reportAer_moves ..) rfl
  ·
    refine hasNext_onElem ?_
    exact Moves.step (Moves.refl _ s) (pcieWrite_moves ..) rfl
  ·
    refine hasNext_next ?_
    refine Moves.ite ?_ ?_
    ·
      exact Moves.step (Moves.refl _ s) (violation_moves ..) rfl
    ·
      refine Moves.ite ?_ ?_
      ·
        exact Moves.step (Moves.refl _ s) (intWrites_moves ..) rfl
      ·
        exact (Moves.refl _ s)

theorem execRegisterReadClear_moves (a0 a1 s) : MovesAll hasNext [.out, .freeIx, .regs, .log, .prot, .ports, .buf, .host, .svc, .mbx, .therm] s (execRegisterReadClear a0 a1 s) := by
  unfold execRegisterReadClear
  split
  ·
    extract_lets -merge -useContext -underBinder y0
    clear_value y0
    refine hasNext_onElem ?_
    refine Moves.ite ?_ ?_
    ·
      exact Moves.step (Moves.refl _ s) (unsupported_moves ..) rfl
    ·
      refine Moves.step ?_ (bar0ReadEffect_moves ..) rfl
      refine Moves.step ?_ (emit_moves ..) rfl
      exact Moves.step (Moves.refl _ s) (leaveL1_moves ..) rfl
  ·
    refine hasNext_onElem ?_
    exact (Moves.refl _ s)
  ·
    refine hasNext_onElem ?_
    refine Moves.step ?_ (emit_moves ..) rfl
    exact Moves.step (Moves.refl _ s) (leaveL1_moves ..) rfl
  ·
    refine hasNext_next ?_
    refine Moves.ite ?_ ?_
    ·
      exact Moves.step (Moves.refl _ s) (violation_moves ..) rfl
    ·
      refine Moves.ite ?_ ?_
      ·
        refine Moves.step ?_ (intReadEffect_moves ..) rfl
        exact Moves.step (Moves.refl _ s) (emit_moves ..) rfl
      ·
        exact (Moves.refl _ s)

theorem busWrite_moves (a0 a1 a2 s) : Moves [.waiting, .out, .freeIx, .regs, .log, .cmd, .cfg, .prot, .tbl, .host, .sto, .svc, .mbx, .mem] s (busWrite a0 a1 a2 s) := by
  unfold busWrite
  refine Moves.ite ?_ ?_
  ·
    exact Moves.step (Moves.refl _ s) (memWrite_moves ..) rfl
  ·
    refine Moves.ite ?_ ?_
    ·
      exact Moves.step (Moves.refl _ s) (intWrites_moves ..) rfl
    ·
      exact (Moves.refl _ s)

theorem execBar2Access_moves (a0 a1 a2 a3 s) : MovesAll hasNext [.waiting, .out, .freeIx, .regs, .log, .cmd, .cfg, .prot, .ports, .tbl, .buf, .host, .sto, .svc, .mbx, .mem, .therm] s (execBar2Access a0 a1 a2 a3 s) := by
  unfold execBar2Access
  extract_lets -merge -useContext -underBinder y0 y1 y2 y3 y4 y5 y6
  clear_value y0
  clear_value y1
  clear_value y2
  clear_value y3
  clear_value y5
  clear_value y6
  unfold y4
  refine hasNext_onElem ?_
  refine Moves.ite ?_ ?_
  ·
    exact Moves.step (Moves.refl _ s) (unsupported_moves ..) rfl
  ·
    refine Moves.ite ?_ ?_
    ·
      refine Moves.step ?_ (reportAer_moves ..) rfl
      refine Moves.ite ?_ ?_
      ·
        exact (Moves.refl _ s)
      ·
        exact Moves.step (Moves.refl _ s) (complete_moves ..) rfl
    ·
      refine Moves.ite ?_ ?_
      ·
        refine Moves.step ?_ (reportAer_moves ..) rfl
        refine Moves.ite ?_ ?_
        ·
          exact Moves.step (Moves.refl _ s) (violation_moves ..) rfl
        ·
          refine Moves.step ?_ (complete_moves ..) rfl
          exact Moves.step (Moves.refl _ s) (violation_moves ..) rfl
      ·
        split
        ·
          refine Moves.ite ?_ ?_
          ·
            exact (Moves.refl _ s)
          ·
            exact Moves.step (Moves.refl _ s) (busWrite_moves ..) rfl
        ·
          extract_lets -merge -useContext -underBinder y7
          have hy7 : Moves [.waiting, .out, .freeIx, .regs, .log, .cmd, .cfg, .prot, .ports, .tbl, .buf, .host, .sto, .svc, .mbx, .mem, .therm] s y7 := by
            unfold y7
            exact Moves.step (Moves.refl _ s) (complete_moves ..) rfl
          clear_value y7
          refine Moves.ite ?_ ?_
          ·
            refine Moves.step ?_ (reportAer_moves ..) rfl
            refine Moves.ite ?_ ?_
            ·
              exact (Moves.refl _ s)
            ·
              exact Moves.step (Moves.refl _ s) (complete_moves ..) rfl
          ·
            refine Moves.ite ?_ ?_
            ·
              exact Moves.step hy7 (countReads_moves ..) rfl
            ·
              exact Moves.step hy7 (intReadEffect_moves ..) rfl

theorem editPass_moves (a0 a1 s) : MovesAll hasFst [.freeIx] s (editPass a0 a1 s) := by
  unfold editPass
  refine hasFst_mk ?_
  refine Moves.ite ?_ ?_
  ·
    exact Moves.step (m := [.freeIx]) (Moves.refl _ s) (Moves.leafFree (by intro x hx; cases x <;> first | rfl | exact absurd (by decide) hx) rfl rfl (Nat.le_add_right _ _) rfl) rfl
  ·
    exact (Moves.refl _ s)

theorem countAdmitDrop_moves (a0 a1 a2 s) : Moves [.ports] s (countAdmitDrop a0 a1 a2 s) := by
  unfold countAdmitDrop
  extract_lets -merge -useContext -underBinder y0
  have hy0 : Moves [.ports] s y0 := by
    unfold y0
    refine Moves.ite ?_ ?_
    ·
      exact (Moves.refl _ s)
    ·
      exact Moves.step (Moves.refl _ s) (countPort_moves ..) rfl
  clear_value y0
  split
  ·
    exact hy0
  ·
    exact Moves.step hy0 (countQ_moves ..) rfl
  ·
    exact hy0

theorem reCell_moves (a0 a1 s) : Moves [.out, .ports, .cry] s (reCell a0 a1 s) := by
  unfold reCell
  refine Moves.ite ?_ ?_
  ·
    exact (Moves.refl _ s)
  ·
    refine Moves.ite ?_ ?_
    ·
      refine Moves.step ?_ (fcCheck_moves ..) rfl
      exact Moves.step (Moves.refl _ s) (useAdd_moves ..) rfl
    ·
      refine Moves.ite ?_ ?_
      ·
        exact Moves.step (Moves.refl _ s) (useSub_moves ..) rfl
      ·
        exact (Moves.refl _ s)

theorem letInAll_moves (a0 a1 a2 a3 a4 a5 a6 a7 a8 a9 s) :
    MovesAll hasSnd2 [.ports, .tbl, .buf] s (letInAll a0 a1 a2 a3 a4 a5 a6 a7 a8 a9 s) := by
  induction a7 generalizing a8 a9 s with
  | nil => exact hasSnd2_mk (Moves.refl _ s)
  | cons c r ih =>
    unfold letInAll
    split
    · extract_lets -merge -useContext -underBinder t
      refine MovesAll.step ?_ (ih _ _ _) rfl
      have ht : Moves [.ports, .tbl, .buf] s t := by
        unfold t
        exact Moves.step (Moves.refl _ s) (countAdmitDrop_moves ..) rfl
      clear_value t
      exact Moves.ite (Moves.step ht (countA_moves ..) rfl) ht
    · extract_lets -merge -useContext -underBinder key c
      refine MovesAll.step ?_ (ih _ _ _) rfl
      exact Moves.step (Moves.refl _ s) (queueSet_moves ..) rfl

theorem backlogWidens_moves (a0 s) : Moves [.host] s (backlogWidens a0 s) := by
  unfold backlogWidens
  refine Moves.ite ?_ ?_
  ·
    exact Moves.step (Moves.refl _ s) (widen_moves ..) rfl
  ·
    exact (Moves.refl _ s)

theorem enqueue_moves (a0 a1 a2 a3 a4 s) : MovesAll hasSnd [.out, .ports, .tbl, .buf, .cry, .host] s (enqueue a0 a1 a2 a3 a4 s) := by
  unfold enqueue
  extract_lets -merge -useContext -underBinder y0 y1
  clear_value y0
  clear_value y1
  split
  ·
    rename_i v2 v3 v4 e5
    have hv4 : Moves [.out, .ports, .tbl, .buf, .cry, .host] s v4 := by
      refine MovesAll.of_eq (has := hasSnd2) e5 rfl ?_
      exact MovesAll.step (Moves.refl _ s) (letInAll_moves _ _ _ _ _ _ _ _ _ _ _) rfl
    extract_lets -merge -useContext -underBinder y6 y7 y8 y9
    have hy6 : Moves [.out, .ports, .tbl, .buf, .cry, .host] s y6 := by
      unfold y6
      exact Moves.step hv4 (reCell_moves ..) rfl
    clear_value y6
    clear_value y7
    clear_value y8
    have hy9 : Moves [.out, .ports, .tbl, .buf, .cry, .host] s y9 := by
      unfold y9
      refine Moves.step ?_ (noteFree_moves ..) rfl
      exact Moves.step (m := [.buf]) hy6 (Moves.leaf (by intro x hx; cases x <;> first | rfl | exact absurd (by decide) hx) rfl rfl rfl rfl) rfl
    clear_value y9
    refine MovesAll.ite ?_ ?_
    ·
      refine hasSnd_mk ?_
      exact Moves.step hv4 (releasePacket_moves ..) rfl
    ·
      refine hasSnd_mk ?_
      refine Moves.foldl ?_ (fun t10 x11 ht10 => ?_)
      ·
        exact hy9
      ·
        split
        ·
          exact Moves.step ht10 (backlogWidens_moves ..) rfl
        ·
          exact ht10

theorem replicate_moves (a0 a1 a2 s) : Moves [.out, .freeIx, .ports, .tbl, .buf, .cry, .host] s (replicate a0 a1 a2 s) := by
  unfold replicate
  split
  ·
    exact Moves.step (Moves.refl _ s) (releasePacket_moves ..) rfl
  ·
    extract_lets -merge -useContext -underBinder y0 y1 y2 y3
    clear_value y0
    clear_value y1
    have hy2 : Moves [.out, .freeIx, .ports, .tbl, .buf, .cry, .host] s y2 := by
      unfold y2
      refine Moves.step ?_ (countA_moves ..) rfl
      exact Moves.step (Moves.refl _ s) (countA_moves ..) rfl
    clear_value y2
    have hy3 : Moves [.out, .freeIx, .ports, .tbl, .buf, .cry, .host] s y3 := by
      unfold y3
      refine Moves.ite ?_ ?_
      ·
        exact Moves.step hy2 (countA_moves ..) rfl
      ·
        exact hy2
    clear_value y3
    refine MovesAll.get_snd ?_
    refine MovesAll.step ?_ (enqueue_moves _ _ _ _ _ _) rfl
    exact Moves.step (m := [.freeIx]) hy3 (Moves.leafFree (by intro x hx; cases x <;> first | rfl | exact absurd (by decide) hx) rfl rfl (Nat.le_add_right _ _) rfl) rfl

theorem forwardPacket_moves (a0 a1 a2 s) : Moves [.out, .freeIx, .ports, .tbl, .buf, .cry, .host] s (forwardPacket a0 a1 a2 s) := by
  unfold forwardPacket
  split
  ·
    exact Moves.step (Moves.refl _ s) (replicate_moves ..) rfl
  ·
    split
    ·
      refine MovesAll.get_snd ?_
      refine MovesAll.step ?_ (enqueue_moves _ _ _ _ _ _) rfl
      exact Moves.step (m := [.freeIx]) (Moves.refl _ s) (Moves.leafFree (by intro x hx; cases x <;> first | rfl | exact absurd (by decide) hx) rfl rfl (Nat.le_add_right _ _) rfl) rfl
    ·
      exact Moves.step (Moves.refl _ s) (releasePacket_moves ..) rfl

theorem excRate_moves (a0 a1 s) : MovesAll hasSnd [.buf] s (excRate a0 a1 s) := by
  unfold excRate
  extract_lets -merge -useContext -underBinder y0 y1 y2 y3
  clear_value y0
  clear_value y1
  clear_value y2
  clear_value y3
  refine MovesAll.ite ?_ ?_
  ·
    refine hasSnd_mk ?_
    exact (Moves.refl _ s)
  ·
    refine MovesAll.ite ?_ ?_
    ·
      refine hasSnd_mk ?_
      exact Moves.step (m := [.buf]) (Moves.refl _ s) (Moves.leaf (by intro x hx; cases x <;> first | rfl | exact absurd (by decide) hx) rfl rfl rfl rfl) rfl
    ·
      refine hasSnd_mk ?_
      exact (Moves.refl _ s)

theorem excOut_moves (a0 a1 a2 s) : Moves [.out, .freeIx, .ports, .tbl, .buf, .cry, .host] s (excOut a0 a1 a2 s) := by
  unfold excOut
  split
  ·
    exact Moves.step (Moves.refl _ s) (releasePacket_moves ..) rfl
  ·
    extract_lets -merge -useContext -underBinder y0
    have hy0 : MovesAll hasSnd [.out, .freeIx, .ports, .tbl, .buf, .cry, .host] s y0 := by
      unfold y0
      refine MovesAll.step ?_ (excRate_moves _ _ _) rfl
      exact Moves.step (m := [.freeIx]) (Moves.refl _ s) (Moves.leafFree (by intro x hx; cases x <;> first | rfl | exact absurd (by decide) hx) rfl rfl (Nat.le_add_right _ _) rfl) rfl
    clear_value y0
    refine Moves.ite ?_ ?_
    ·
      refine MovesAll.get_snd ?_
      refine MovesAll.step ?_ (enqueue_moves _ _ _ _ _ _) rfl
      exact hy0 _ rfl
    ·
      refine Moves.step ?_ (releasePacket_moves ..) rfl
      refine Moves.step ?_ (countA_moves ..) rfl
      exact hy0 _ rfl

theorem toException_moves (a0 a1 s) : Moves [.out, .freeIx, .ports, .tbl, .buf, .cry, .host] s (toException a0 a1 s) := by
  unfold toException
  extract_lets -merge -useContext -underBinder y0
  have hy0 : Moves [.out, .freeIx, .ports, .tbl, .buf, .cry, .host] s y0 := by
    unfold y0
    exact Moves.step (Moves.refl _ s) (countA_moves ..) rfl
  clear_value y0
  exact Moves.step hy0 (excOut_moves ..) rfl

theorem mirrorCopy_moves (a0 a1 s) : Moves [.out, .freeIx, .ports, .tbl, .buf, .cry, .host] s (mirrorCopy a0 a1 s) := by
  unfold mirrorCopy
  extract_lets -merge -useContext -underBinder y0 y1 y2
  clear_value y0
  clear_value y1
  clear_value y2
  refine Moves.ite ?_ ?_
  ·
    exact (Moves.refl _ s)
  ·
    split
    ·
      exact Moves.step (Moves.refl _ s) (countA_moves ..) rfl
    ·
      refine Moves.ite ?_ ?_
      ·
        exact Moves.step (Moves.refl _ s) (countA_moves ..) rfl
      ·
        split
        ·
          rename_i v3 v4 e5
          have hv4 : Moves [.out, .freeIx, .ports, .tbl, .buf, .cry, .host] s v4 := by
            refine MovesAll.of_eq (has := hasSnd) e5 rfl ?_
            refine MovesAll.step ?_ (enqueue_moves _ _ _ _ _ _) rfl
            exact Moves.step (m := [.freeIx]) (Moves.refl _ s) (Moves.leafFree (by intro x hx; cases x <;> first | rfl | exact absurd (by decide) hx) rfl rfl (Nat.le_add_right _ _) rfl) rfl
          refine Moves.ite ?_ ?_
          ·
            exact Moves.step hv4 (countA_moves ..) rfl
          ·
            exact hv4

theorem meterRun_moves (a0 a1 a2 a3 s) : MovesAll hasSnd [.tbl] s (meterRun a0 a1 a2 a3 s) := by
  unfold meterRun
  extract_lets -merge -useContext -underBinder y0 y1
  clear_value y0
  clear_value y1
  refine MovesAll.ite ?_ ?_
  ·
    refine hasSnd_mk ?_
    exact (Moves.refl _ s)
  ·
    split
    ·
      extract_lets -merge -useContext -underBinder y2 y3
      clear_value y2
      clear_value y3
      refine hasSnd_mk ?_
      exact Moves.step (m := [.tbl]) (Moves.refl _ s) (Moves.leaf (by intro x hx; cases x <;> first | rfl | exact absurd (by decide) hx) rfl rfl rfl rfl) rfl

theorem skip_moves (a0 s) : MovesAll hasFst [.tbl] s.1 (skip a0 s) := by
  unfold skip
  refine hasFst_mk ?_
  refine Moves.step ?_ (countA_moves ..) rfl
  exact (MovesAll.reflRun _ s) _ rfl

theorem actFault_moves (a0 a1 s) : MovesAll hasFst [.tbl] s.1 (actFault a0 a1 s) := by
  unfold actFault
  extract_lets -merge -useContext -underBinder y0 y1
  clear_value y0
  clear_value y1
  refine MovesAll.ite ?_ ?_
  ·
    refine hasFst_mk ?_
    refine Moves.step ?_ (countA_moves ..) rfl
    exact (MovesAll.reflRun _ s) _ rfl
  ·
    refine hasFst_mk ?_
    refine Moves.step ?_ (countA_moves ..) rfl
    exact (MovesAll.reflRun _ s) _ rfl

theorem runWrite_moves (a0 a1 a2 a3 a4 s) : MovesAll hasFst [.tbl] s.1 (runWrite a0 a1 a2 a3 a4 s) := by
  unfold runWrite
  refine MovesAll.ite ?_ ?_
  ·
    refine hasFst_mk ?_
    exact (MovesAll.reflRun _ s) _ rfl
  ·
    split
    ·
      refine MovesAll.stepRun ?_ (skip_moves _ _) rfl
      exact (MovesAll.reflRun _ s)
    ·
      refine MovesAll.ite ?_ ?_
      ·
        refine MovesAll.stepRun ?_ (skip_moves _ _) rfl
        exact (MovesAll.reflRun _ s)
      ·
        refine MovesAll.ite ?_ ?_
        ·
          refine MovesAll.stepRun ?_ (actFault_moves _ _ _) rfl
          exact (MovesAll.reflRun _ s)
        ·
          refine hasFst_mk ?_
          exact (MovesAll.reflRun _ s) _ rfl

theorem runPush_moves (a0 a1 a2 a3 s) : MovesAll hasFst [.freeIx, .tbl] s.1 (runPush a0 a1 a2 a3 s) := by
  unfold runPush
  extract_lets -merge -useContext -underBinder y0
  clear_value y0
  split
  · exact MovesAll.stepRun (MovesAll.reflRun _ s) (skip_moves _ _) rfl
  · split
    · exact MovesAll.stepRun (MovesAll.reflRun _ s) (actFault_moves _ _ _) rfl
    · extract_lets -merge -useContext -underBinder y1 y2 y3 y4 y5 y6
      refine MovesAll.ite (MovesAll.stepRun (MovesAll.reflRun _ s) (actFault_moves _ _ _) rfl) (hasFst_mk ?_)
      exact Moves.step (m := [.freeIx]) (Moves.refl _ s.1) (Moves.leafFree (by intro x hx; cases x <;> first | rfl | exact absurd (by decide) hx) rfl rfl (Nat.le_add_right _ _) rfl) rfl

theorem runPop_moves (a0 a1 a2 s) : MovesAll hasFst [.tbl] s.1 (runPop a0 a1 a2 s) := by
  unfold runPop
  split
  ·
    refine MovesAll.stepRun ?_ (skip_moves _ _) rfl
    exact (MovesAll.reflRun _ s)
  ·
    extract_lets -merge -useContext -underBinder y0 y1 y2
    clear_value y0
    clear_value y1
    clear_value y2
    refine MovesAll.ite ?_ ?_
    ·
      refine MovesAll.stepRun ?_ (skip_moves _ _) rfl
      exact (MovesAll.reflRun _ s)
    ·
      refine MovesAll.ite ?_ ?_
      ·
        refine MovesAll.stepRun ?_ (actFault_moves _ _ _) rfl
        exact (MovesAll.reflRun _ s)
      ·
        refine hasFst_mk ?_
        exact (MovesAll.reflRun _ s) _ rfl

theorem runDecTtl_moves (a0 a1 a2 s) : MovesAll hasFst [.tbl] s.1 (runDecTtl a0 a1 a2 s) := by
  unfold runDecTtl
  split
  ·
    refine MovesAll.stepRun ?_ (skip_moves _ _) rfl
    exact (MovesAll.reflRun _ s)
  ·
    extract_lets -merge -useContext -underBinder y0 y1 y2 y3 y4 y5 y6 y7
    clear_value y0
    clear_value y1
    clear_value y2
    clear_value y3
    clear_value y4
    clear_value y5
    clear_value y6
    clear_value y7
    refine MovesAll.ite ?_ ?_
    ·
      refine MovesAll.stepRun ?_ (skip_moves _ _) rfl
      exact (MovesAll.reflRun _ s)
    ·
      refine MovesAll.ite ?_ ?_
      ·
        refine MovesAll.stepRun ?_ (actFault_moves _ _ _) rfl
        exact (MovesAll.reflRun _ s)
      ·
        refine MovesAll.ite ?_ ?_
        ·
          refine hasFst_mk ?_
          refine Moves.step ?_ (countA_moves ..) rfl
          exact (MovesAll.reflRun _ s) _ rfl
        ·
          refine hasFst_mk ?_
          exact (MovesAll.reflRun _ s) _ rfl

theorem runMeter_moves (a0 a1 s) : MovesAll hasFst [.tbl] s.1 (runMeter a0 a1 s) := by
  unfold runMeter
  extract_lets -merge -useContext -underBinder y0
  clear_value y0
  split
  ·
    rename_i v1 v2 e3
    have hv2 : Moves [.tbl] s.1 v2 := by
      refine MovesAll.of_eq (has := hasSnd) e3 rfl ?_
      refine MovesAll.step ?_ (meterRun_moves _ _ _ _ _) rfl
      exact (MovesAll.reflRun _ s) _ rfl
    extract_lets -merge -useContext -underBinder y4 y5
    clear_value y4
    clear_value y5
    refine MovesAll.ite ?_ ?_
    ·
      refine hasFst_mk ?_
      exact Moves.step hv2 (countA_moves ..) rfl
    ·
      refine hasFst_mk ?_
      exact hv2

theorem runMirror_moves (a0 a1 s) : MovesAll hasFst [.out, .freeIx, .ports, .tbl, .buf, .cry, .host] s.1 (runMirror a0 a1 s) := by
  unfold runMirror
  extract_lets -merge -useContext -underBinder y0 y1
  clear_value y0
  clear_value y1
  refine MovesAll.ite ?_ ?_
  ·
    refine MovesAll.stepRun ?_ (skip_moves _ _) rfl
    exact (MovesAll.reflRun _ s)
  ·
    refine hasFst_mk ?_
    refine Moves.step ?_ (mirrorCopy_moves ..) rfl
    exact (MovesAll.reflRun _ s) _ rfl

theorem runPrim_moves (a0 a1 a2 a3 s) : MovesAll hasFst [.out, .freeIx, .ports, .tbl, .buf, .cry, .host] s.1 (runPrim a0 a1 a2 a3 s) := by
  unfold runPrim
  extract_lets -merge -useContext -underBinder y0 y1
  clear_value y0
  unfold y1
  refine MovesAll.ite ?_ ?_
  ·
    refine hasFst_mk ?_
    refine Moves.step ?_ (countA_moves ..) rfl
    exact (MovesAll.reflRun _ s) _ rfl
  ·
    split
    ·
      refine MovesAll.stepRun ?_ (runWrite_moves _ _ _ _ _ _) rfl
      exact (MovesAll.reflRun _ s)
    ·
      split
      ·
        refine MovesAll.stepRun ?_ (skip_moves _ _) rfl
        exact (MovesAll.reflRun _ s)
      ·
        refine MovesAll.stepRun ?_ (runWrite_moves _ _ _ _ _ _) rfl
        exact (MovesAll.reflRun _ s)
    ·
      refine MovesAll.stepRun ?_ (runPush_moves _ _ _ _ _) rfl
      exact (MovesAll.reflRun _ s)
    ·
      refine MovesAll.stepRun ?_ (runPop_moves _ _ _ _) rfl
      exact (MovesAll.reflRun _ s)
    ·
      refine MovesAll.stepRun ?_ (runDecTtl_moves _ _ _ _) rfl
      exact (MovesAll.reflRun _ s)
    ·
      refine hasFst_mk ?_
      exact (MovesAll.reflRun _ s) _ rfl
    ·
      refine MovesAll.stepRun ?_ (runMeter_moves _ _ _) rfl
      exact (MovesAll.reflRun _ s)
    ·
      refine MovesAll.stepRun ?_ (runMirror_moves _ _ _) rfl
      exact (MovesAll.reflRun _ s)
    ·
      refine MovesAll.ite ?_ ?_
      ·
        refine MovesAll.stepRun ?_ (actFault_moves _ _ _) rfl
        exact (MovesAll.reflRun _ s)
      ·
        refine hasFst_mk ?_
        exact (MovesAll.reflRun _ s) _ rfl
    ·
      refine hasFst_mk ?_
      exact (MovesAll.reflRun _ s) _ rfl
    ·
      refine hasFst_mk ?_
      exact (MovesAll.reflRun _ s) _ rfl
    ·
      refine hasFst_mk ?_
      exact (MovesAll.reflRun _ s) _ rfl
    ·
      refine hasFst_mk ?_
      exact (MovesAll.reflRun _ s) _ rfl
    ·
      refine hasFst_mk ?_
      exact (MovesAll.reflRun _ s) _ rfl
    ·
      refine hasFst_mk ?_
      exact (MovesAll.reflRun _ s) _ rfl
    ·
      refine hasFst_mk ?_
      refine Moves.ite ?_ ?_
      ·
        exact (MovesAll.reflRun _ s) _ rfl
      ·
        refine Moves.step ?_ (countA_moves ..) rfl
        exact (MovesAll.reflRun _ s) _ rfl
    ·
      refine hasFst_mk ?_
      exact (MovesAll.reflRun _ s) _ rfl
    ·
      exact (MovesAll.reflRun _ s)

theorem runPrims_moves (a0 a1 a2 a3 s) : MovesAll hasFst [.out, .freeIx, .ports, .tbl, .buf, .cry, .host] s.1 (runPrims a0 a1 a2 a3 s) := by
  induction a3 generalizing s with
  | nil => exact MovesAll.reflRun _ s
  | cons w r ih =>
    unfold runPrims
    refine MovesAll.ite (MovesAll.reflRun _ s) ?_
    exact MovesAll.stepRun (runPrim_moves _ _ _ _ _) (ih _) rfl

theorem runProgram_moves (a0 a1 a2 s) : MovesAll hasFst [.out, .freeIx, .ports, .tbl, .buf, .cry, .host] s.1 (runProgram a0 a1 a2 s) := by
  unfold runProgram
  split
  ·
    refine MovesAll.stepRun ?_ (runPrims_moves _ _ _ _ _) rfl
    exact (MovesAll.reflRun _ s)
  ·
    refine MovesAll.stepRun ?_ (actFault_moves _ _ _) rfl
    exact (MovesAll.reflRun _ s)

theorem countPass_moves (a0 a1 a2 s) : Moves [.tbl] s (countPass a0 a1 a2 s) := by
  unfold countPass
  refine Moves.foldl ?_ (fun t0 x1 ht0 => ?_)
  ·
    exact (Moves.refl _ s)
  ·
    extract_lets -merge -useContext -underBinder y2
    clear_value y2
    split
    ·
      extract_lets -merge -useContext -underBinder y3
      clear_value y3
      exact Moves.step (m := [.tbl]) ht0 (Moves.leaf (by intro x hx; cases x <;> first | rfl | exact absurd (by decide) hx) rfl rfl rfl rfl) rfl

theorem eccError_moves (a0 a1 a2 s) : MovesAll hasFst [.regs, .log, .tbl] s.1 (eccError a0 a1 a2 s) := by
  unfold eccError
  extract_lets -merge -useContext -underBinder y0 y1 y2
  clear_value y0
  have hy1 : Moves [.regs, .log, .tbl] s.1 y1 := by
    unfold y1
    refine Moves.step ?_ (raise_moves ..) rfl
    refine Moves.step ?_ (countR_moves ..) rfl
    exact (MovesAll.reflRun _ s) _ rfl
  clear_value y1
  clear_value y2
  refine hasFst_mk ?_
  exact hy1

theorem stageProgram_moves (a0 a1 a2 s) : MovesAll hasFst [.out, .freeIx, .ports, .tbl, .buf, .cry, .host] s.1 (stageProgram a0 a1 a2 s) := by
  unfold stageProgram
  refine MovesAll.ite ?_ ?_
  ·
    exact (MovesAll.reflRun _ s)
  ·
    refine MovesAll.stepRun ?_ (runProgram_moves _ _ _ _) rfl
    exact (MovesAll.reflRun _ s)

theorem runTable.look_moves (a0 a1 a2 a3 s a5) : MovesAll hasFst [.out, .freeIx, .ports, .tbl, .buf, .cry, .host] s.1 (runTable.look a0 a1 a2 a3 s a5) := by
  unfold runTable.look
  split
  ·
    extract_lets -merge -useContext -underBinder y0
    have hy0 : Moves [.out, .freeIx, .ports, .tbl, .buf, .cry, .host] s.1 y0 := by
      unfold y0
      refine Moves.step ?_ (countR_moves ..) rfl
      refine Moves.ite ?_ ?_
      ·
        refine Moves.step ?_ (countR_moves ..) rfl
        exact (MovesAll.reflRun _ s) _ rfl
      ·
        exact (MovesAll.reflRun _ s) _ rfl
    clear_value y0
    refine MovesAll.stepRun ?_ (stageProgram_moves _ _ _ _) rfl
    refine hasFst_mk ?_
    exact Moves.step hy0 (hitBit_moves ..) rfl
  ·
    extract_lets -merge -useContext -underBinder y1
    have hy1 : Moves [.out, .freeIx, .ports, .tbl, .buf, .cry, .host] s.1 y1 := by
      unfold y1
      refine Moves.step ?_ (countR_moves ..) rfl
      exact (MovesAll.reflRun _ s) _ rfl
    clear_value y1
    split
    ·
      refine MovesAll.stepRun ?_ (stageProgram_moves _ _ _ _) rfl
      refine hasFst_mk ?_
      exact hy1
    ·
      refine hasFst_mk ?_
      exact hy1

theorem runTable_moves (a0 a1 a2 a3 a4 s) : MovesAll hasFst [.out, .freeIx, .regs, .log, .ports, .tbl, .buf, .cry, .host] s.1 (runTable a0 a1 a2 a3 a4 s) := by
  unfold runTable
  split
  ·
    refine hasFst_mk ?_
    refine Moves.step ?_ (countR_moves ..) rfl
    exact (MovesAll.reflRun _ s) _ rfl
  ·
    split
    ·
      refine MovesAll.ite ?_ ?_
      ·
        refine MovesAll.stepRun ?_ (eccError_moves _ _ _ _) rfl
        exact (MovesAll.reflRun _ s)
      ·
        refine MovesAll.stepRun ?_ (runTable.look_moves _ _ _ _ _ _) rfl
        exact (MovesAll.reflRun _ s)
    ·
      refine MovesAll.stepRun ?_ (runTable.look_moves _ _ _ _ _ _) rfl
      exact (MovesAll.reflRun _ s)

theorem runStage_moves (a0 a1 a2 s a4) : MovesAll hasFst [.out, .freeIx, .regs, .log, .ports, .tbl, .buf, .cry, .host] s.1 (runStage a0 a1 a2 s a4) := by
  unfold runStage
  refine MovesAll.ite ?_ ?_
  ·
    exact (MovesAll.reflRun _ s)
  ·
    refine MovesAll.foldl ?_ (fun t0 x1 ht0 => ?_)
    ·
      exact (MovesAll.reflRun _ s)
    ·
      refine MovesAll.stepRun ?_ (runTable_moves _ _ _ _ _ _) rfl
      exact ht0

theorem runStages_moves (a0 a1 a2 s) : MovesAll hasFst [.out, .freeIx, .regs, .log, .ports, .tbl, .buf, .cry, .host] s.1 (runStages a0 a1 a2 s) := by
  unfold runStages
  refine MovesAll.foldl ?_ (fun t0 x1 ht0 => ?_)
  ·
    exact (MovesAll.reflRun _ s)
  ·
    refine MovesAll.stepRun ?_ (runStage_moves _ _ _ _ _) rfl
    exact ht0

end Sys2Proof.Machine
end

