-- ==== Sys2Proof/Laws/Moves7.lean ====
section
/-! SUPPORT. What the operations of Machine/FlowOps, Pipeline, Crypto, CryCmds, Egress may change: one lemma `<operation>_moves` per operation. -/

set_option Elab.async false

namespace Sys2Proof.Machine

theorem flowMod_moves (a0 s) : Moves [.flow] s (flowMod a0 s) := by
  unfold flowMod
  exact Moves.step (m := [.flow]) (Moves.refl _ s) (Moves.leaf (by intro x hx; cases x <;> first | rfl | exact absurd (by decide) hx) rfl rfl rfl rfl) rfl

theorem reindex_moves (a0 a1 s) : Moves [.flow] s (reindex a0 a1 s) := by
  unfold reindex
  exact Moves.step (Moves.refl _ s) (flowMod_moves ..) rfl

theorem moveFlows_moves (a0 a1 s) : MovesAll hasFst [.flow] s (moveFlows a0 a1 s) := by
  induction a0 generalizing a1 s with
  | nil => exact hasFst_mk (Moves.refl _ s)
  | cons c r ih =>
    unfold moveFlows
    exact MovesAll.step (Moves.step (Moves.refl _ s) (reindex_moves ..) rfl) (ih _ _) rfl

theorem flowPlace_moves (a0 s) : MovesAll hasOptFst [.flow] s (flowPlace a0 s) := by
  unfold flowPlace
  extract_lets -merge -useContext -underBinder es lost
  clear_value es lost
  split
  split
  · exact hasOptFst_some (Moves.refl _ s)
  · split
    · exact hasOptFst_some (Moves.refl _ s)
    · extract_lets -merge -useContext -underBinder alt there first
      have hm : ∀ ch i t b, moveFlows ch i s = (t, b) → Moves [.flow] s t := fun ch i t b e =>
        MovesAll.of_eq e (has := hasFst) rfl (moveFlows_moves _ _ _)
      split
      · rename_i ch i _
        rintro t ⟨b, hb⟩
        exact hm ch i t b (Option.some.inj hb)
      · refine MovesAll.ite ?_ hasOptFst_none
        rintro t ⟨b, hb⟩
        obtain ⟨⟨ch, i⟩, -, e⟩ := Option.map_eq_some_iff.mp hb
        exact hm ch i t b e

theorem flowLoadEvents_moves (s) : Moves [.regs, .log, .flow] s (flowLoadEvents s) := by
  unfold flowLoadEvents
  extract_lets -merge -useContext -underBinder y0
  clear_value y0
  refine Moves.ite ?_ ?_
  ·
    refine Moves.step ?_ (raise_moves ..) rfl
    exact Moves.step (Moves.refl _ s) (flowMod_moves ..) rfl
  ·
    refine Moves.ite ?_ ?_
    ·
      exact Moves.step (Moves.refl _ s) (flowMod_moves ..) rfl
    ·
      exact (Moves.refl _ s)

theorem flowDelta_moves (a0 a1 s) : Moves [.flow] s (flowDelta a0 a1 s) := by
  unfold flowDelta
  refine Moves.ite ?_ ?_
  ·
    exact (Moves.refl _ s)
  ·
    refine Moves.ite ?_ ?_
    ·
      exact Moves.step (Moves.refl _ s) (flowMod_moves ..) rfl
    ·
      exact Moves.step (Moves.refl _ s) (flowMod_moves ..) rfl

theorem flowPut_moves (a0 s) : Moves [.flow] s (flowPut a0 s) := by
  unfold flowPut
  exact Moves.step (Moves.refl _ s) (flowMod_moves ..) rfl

theorem storeWritten_moves (a0 s) : Moves [.mem] s (storeWritten a0 s) := by
  unfold storeWritten
  extract_lets -merge -useContext -underBinder y0
  exact Moves.step (m := [.mem]) (Moves.refl _ s) (Moves.leafMem (by intro x hx; cases x <;> first | rfl | exact absurd (by decide) hx) rfl rfl rfl rfl) rfl

theorem writeFlow_moves (a0 s) : Moves [.flow, .mem] s (writeFlow a0 s) := by
  unfold writeFlow
  split
  ·
    exact (Moves.refl _ s)
  ·
    extract_lets -merge -useContext -underBinder y0
    clear_value y0
    refine Moves.ite ?_ ?_
    ·
      exact (Moves.refl _ s)
    ·
      refine Moves.step ?_ (flowDelta_moves ..) rfl
      refine Moves.step ?_ (storeWritten_moves ..) rfl
      exact Moves.step (Moves.refl _ s) (flowPut_moves ..) rfl

theorem uncache_moves (a0 s) : Moves [.flow, .mem] s (uncache a0 s) := by
  unfold uncache
  extract_lets -merge -useContext -underBinder y0
  have hy0 : Moves [.flow, .mem] s y0 := by
    unfold y0
    refine Moves.foldl ?_ (fun t1 x2 ht1 => ?_)
    ·
      exact (Moves.refl _ s)
    ·
      exact Moves.step ht1 (writeFlow_moves ..) rfl
  clear_value y0
  exact Moves.step hy0 (flowMod_moves ..) rfl

theorem evict_moves (a0 a1 a2 s) : Moves [.flow, .mem] s (evict a0 a1 a2 s) := by
  induction a2 generalizing s with
  | zero => exact Moves.refl _ s
  | succ k ih =>
    unfold evict
    split
    · exact Moves.step (Moves.step (Moves.refl _ s) (uncache_moves ..) rfl) (ih _) (all_self _)
    · exact Moves.refl _ s

theorem touch_moves (a0 a1 s) : Moves [.tbl, .flow, .mem] s (touch a0 a1 s) := by
  unfold touch
  extract_lets -merge -useContext -underBinder y0 y1 y2 y3
  clear_value y0
  clear_value y1
  have hy2 : Moves [.tbl, .flow, .mem] s y2 := by
    unfold y2
    refine Moves.ite ?_ ?_
    ·
      refine Moves.step ?_ (countF_moves ..) rfl
      exact Moves.step (Moves.refl _ s) (uncache_moves ..) rfl
    ·
      exact (Moves.refl _ s)
  clear_value y2
  have hy3 : Moves [.tbl, .flow, .mem] s y3 := by
    unfold y3
    exact Moves.step hy2 (flowMod_moves ..) rfl
  clear_value y3
  exact Moves.step hy3 (evict_moves ..) rfl

theorem exportFlow_moves (a0 a1 s) : Moves [.tbl, .svc, .mem] s (exportFlow a0 a1 s) := by
  unfold exportFlow
  extract_lets -merge -useContext -underBinder y0 y1 y2 y3
  clear_value y0
  clear_value y1
  clear_value y2
  clear_value y3
  refine Moves.ite ?_ ?_
  ·
    exact (Moves.refl _ s)
  ·
    split
    ·
      rename_i v4 v5 e6
      have hv4 : Moves [.tbl, .svc, .mem] s v4 := by
        refine MovesAll.of_eq (has := hasFst) e6 rfl ?_
        refine MovesAll.ite ?_ ?_
        ·
          refine hasFst_mk ?_
          exact (Moves.refl _ s)
        ·
          exact MovesAll.step (Moves.refl _ s) (extItem_moves _ _ _ _ _ _ _) rfl
      refine Moves.ite ?_ ?_
      ·
        exact hv4
      ·
        exact Moves.step hv4 (countF_moves ..) rfl

theorem removeFlows_moves (a0 a1 a2 s) : Moves [.regs, .log, .tbl, .flow, .svc, .mem] s (removeFlows a0 a1 a2 s) := by
  unfold removeFlows
  extract_lets -merge -useContext -underBinder y0 y1 y2
  clear_value y0
  have hy1 : Moves [.regs, .log, .tbl, .flow, .svc, .mem] s y1 := by
    unfold y1
    exact Moves.step (Moves.refl _ s) (flowMod_moves ..) rfl
  clear_value y1
  have hy2 : Moves [.regs, .log, .tbl, .flow, .svc, .mem] s y2 := by
    unfold y2
    refine Moves.foldl ?_ (fun t3 x4 ht3 => ?_)
    ·
      refine Moves.foldl ?_ (fun t5 x6 ht5 => ?_)
      ·
        exact hy1
      ·
        exact Moves.step ht5 (storeWritten_moves ..) rfl
    ·
      refine Moves.step ?_ (exportFlow_moves ..) rfl
      refine Moves.ite ?_ ?_
      ·
        exact Moves.step ht3 (flowDelta_moves ..) rfl
      ·
        exact ht3
  clear_value y2
  exact Moves.step hy2 (flowLoadEvents_moves ..) rfl

theorem removeFlow_moves (a0 a1 a2 s) : Moves [.regs, .log, .tbl, .flow, .svc, .mem] s (removeFlow a0 a1 a2 s) := by
  unfold removeFlow
  exact Moves.step (Moves.refl _ s) (removeFlows_moves ..) rfl

theorem flowEcc_moves (a0 a1 s) : Moves [.regs, .log, .tbl, .flow, .svc, .mem] s (flowEcc a0 a1 s) := by
  unfold flowEcc
  extract_lets -merge -useContext -underBinder y0
  clear_value y0
  refine Moves.ite ?_ ?_
  ·
    refine Moves.step ?_ (raise_moves ..) rfl
    exact Moves.step (Moves.refl _ s) (storeWritten_moves ..) rfl
  ·
    refine Moves.step ?_ (removeFlows_moves ..) rfl
    refine Moves.step ?_ (raise_moves ..) rfl
    exact Moves.step (Moves.refl _ s) (countF_moves ..) rfl

theorem readFlow_moves (a0 s) : Moves [.regs, .log, .tbl, .flow, .svc, .mem] s (readFlow a0 s) := by
  unfold readFlow
  split
  ·
    refine Moves.ite ?_ ?_
    ·
      exact Moves.step (Moves.refl _ s) (flowEcc_moves ..) rfl
    ·
      exact (Moves.refl _ s)
  ·
    exact (Moves.refl _ s)

theorem changePeer_moves (a0 a1 a2 a3 a4 s) : Moves [.flow] s (changePeer a0 a1 a2 a3 a4 s) := by
  unfold changePeer
  split
  ·
    exact (Moves.refl _ s)
  ·
    extract_lets -merge -useContext -underBinder y0 y1 y2
    clear_value y0
    clear_value y1
    clear_value y2
    refine Moves.step ?_ (flowDelta_moves ..) rfl
    exact Moves.step (Moves.refl _ s) (flowPut_moves ..) rfl

theorem flowHit_moves (a0 a1 a2 a3 a4 a5 s) : MovesAll hasSnd2 [.tbl, .flow] s (flowHit a0 a1 a2 a3 a4 a5 s) := by
  unfold flowHit
  extract_lets -merge -useContext -underBinder y0 y1 y2
  clear_value y0
  clear_value y1
  clear_value y2
  refine MovesAll.ite ?_ ?_
  ·
    refine hasSnd2_mk ?_
    exact Moves.step (Moves.refl _ s) (countF_moves ..) rfl
  ·
    refine MovesAll.ite ?_ ?_
    ·
      refine hasSnd2_mk ?_
      exact Moves.step (Moves.refl _ s) (countF_moves ..) rfl
    ·
      split
      ·
        extract_lets -merge -useContext -underBinder y3 y4 y5 y6 y7
        clear_value y3
        clear_value y4
        have hy5 : Moves [.tbl, .flow] s y5 := by
          unfold y5
          exact Moves.step (Moves.refl _ s) (flowPut_moves ..) rfl
        clear_value y5
        clear_value y6
        have hy7 : Moves [.tbl, .flow] s y7 := by
          unfold y7
          refine Moves.ite ?_ ?_
          ·
            refine Moves.step ?_ (changePeer_moves ..) rfl
            exact Moves.step hy5 (flowDelta_moves ..) rfl
          ·
            exact hy5
        clear_value y7
        split
        ·
          refine hasSnd2_mk ?_
          exact hy7

theorem flowInsert_moves (a0 s) : MovesAll hasOptFst [.regs, .log, .flow, .mem] s (flowInsert a0 s) := by
  unfold flowInsert
  split
  ·
    exact hasOptFst_none
  ·
    rename_i v0 v1 e2
    have hv0 : Moves [.regs, .log, .flow, .mem] s v0 := by
      refine MovesAll.of_eq (has := hasOptFst) e2 ⟨_, rfl⟩ ?_
      exact MovesAll.step (Moves.refl _ s) (flowPlace_moves _ _) rfl
    refine hasOptFst_some ?_
    refine Moves.step ?_ (flowLoadEvents_moves ..) rfl
    refine Moves.step ?_ (storeWritten_moves ..) rfl
    exact Moves.step hv0 (flowMod_moves ..) rfl

theorem natExhausted_moves (a0 a1 a2 s) : Moves [.regs, .log, .tbl, .flow] s (natExhausted a0 a1 a2 s) := by
  unfold natExhausted
  split
  ·
    extract_lets -merge -useContext -underBinder y0
    have hy0 : Moves [.regs, .log, .tbl, .flow] s y0 := by
      unfold y0
      refine Moves.step ?_ (countF_moves ..) rfl
      exact Moves.step (Moves.refl _ s) (flowMod_moves ..) rfl
    clear_value y0
    refine Moves.ite ?_ ?_
    ·
      exact Moves.step hy0 (raise_moves ..) rfl
    ·
      exact hy0

theorem insertPair_moves (a0 a1 a2 a3 s) : MovesAll hasOptFst [.regs, .log, .flow, .mem] s (insertPair a0 a1 a2 a3 s) := by
  unfold insertPair
  split
  ·
    exact hasOptFst_none
  ·
    rename_i v0 v1 e2
    have hv0 : Moves [.regs, .log, .flow, .mem] s v0 := by
      refine MovesAll.of_eq (has := hasOptFst) e2 ⟨_, rfl⟩ ?_
      exact MovesAll.step (Moves.refl _ s) (flowInsert_moves _ _) rfl
    extract_lets -merge -useContext -underBinder y3 y4 y5
    clear_value y3
    clear_value y4
    clear_value y5
    split
    ·
      exact hasOptFst_none
    ·
      rename_i v6 v7 e8
      have hv6 : Moves [.regs, .log, .flow, .mem] s v6 := by
        refine MovesAll.of_eq (has := hasOptFst) e8 ⟨_, rfl⟩ ?_
        exact MovesAll.step hv0 (flowInsert_moves _ _) rfl
      refine hasOptFst_some ?_
      exact Moves.step hv6 (flowMod_moves ..) rfl

theorem flowCreate_moves (a0 a1 a2 a3 a4 s) : MovesAll hasOptFstSnd [.regs, .log, .tbl, .flow, .mem] s (flowCreate a0 a1 a2 a3 a4 s) := by
  unfold flowCreate
  extract_lets -merge -useContext -underBinder y0 y1 y2 y3 y4
  clear_value y0
  clear_value y1
  clear_value y2
  clear_value y3
  clear_value y4
  refine MovesAll.ite ?_ ?_
  ·
    refine hasOptFstSnd_mk ?_ ?_
    ·
      exact MovesAll.step (Moves.refl _ s) (flowInsert_moves _ _) rfl
    ·
      exact (Moves.refl _ s)
  ·
    split
    ·
      extract_lets -merge -useContext -underBinder y5
      clear_value y5
      split
      ·
        refine hasOptFstSnd_mk ?_ ?_
        ·
          exact hasOptFst_none
        ·
          exact Moves.step (Moves.refl _ s) (natExhausted_moves ..) rfl
      ·
        refine hasOptFstSnd_mk ?_ ?_
        ·
          exact MovesAll.step (Moves.refl _ s) (insertPair_moves _ _ _ _ _) rfl
        ·
          exact (Moves.refl _ s)

theorem flowNew_moves (a0 a1 a2 a3 s) : MovesAll hasSnd2 [.tbl, .flow, .mem] s (flowNew a0 a1 a2 a3 s) := by
  unfold flowNew
  split
  ·
    refine hasSnd2_mk ?_
    exact (Moves.refl _ s)
  ·
    extract_lets -merge -useContext -underBinder y0 y1
    have hy0 : Moves [.tbl, .flow, .mem] s y0 := by
      unfold y0
      exact Moves.step (Moves.refl _ s) (touch_moves ..) rfl
    clear_value y0
    have hy1 : Moves [.tbl, .flow, .mem] s y1 := by
      unfold y1
      refine Moves.foldl ?_ (fun t2 x3 ht2 => ?_)
      ·
        exact hy0
      ·
        split
        ·
          exact Moves.step ht2 (flowDelta_moves ..) rfl
        ·
          exact ht2
    clear_value y1
    split
    ·
      refine hasSnd2_mk ?_
      exact hy1

theorem flowMiss_moves (a0 a1 a2 a3 a4 a5 s) : MovesAll hasSnd2 [.regs, .log, .tbl, .flow, .mem] s (flowMiss a0 a1 a2 a3 a4 a5 s) := by
  unfold flowMiss
  extract_lets -merge -useContext -underBinder y0 y1
  clear_value y0 y1
  refine MovesAll.ite (hasSnd2_mk (Moves.step (Moves.refl _ s) (countF_moves ..) rfl)) ?_
  split
  · exact hasSnd2_mk (Moves.refl _ s)
  · split
    · rename_i v2 e3
      have hv2 : Moves [.regs, .log, .tbl, .flow, .mem] s v2 := (flowCreate_moves _ _ _ _ _ s v2 (.inr (by rw [e3]))).wider rfl
      exact hasSnd2_mk (Moves.step hv2 (countF_moves ..) rfl)
    · rename_i v4 v5 v6 e7
      have hv4 : Moves [.regs, .log, .tbl, .flow, .mem] s v4 := (flowCreate_moves _ _ _ _ _ s v4 (.inl ⟨v5, by rw [e7]⟩)).wider rfl
      exact MovesAll.step (Moves.step hv4 (countF_moves ..) rfl) (flowNew_moves _ _ _ _ _) rfl

theorem flowServe_moves (a0 a1 a2 a3 a4 a5 a6 s) : MovesAll hasSnd2 [.regs, .log, .tbl, .flow, .mem] s (flowServe a0 a1 a2 a3 a4 a5 a6 s) := by
  unfold flowServe
  split
  ·
    extract_lets -merge -useContext -underBinder y0
    have hy0 : Moves [.regs, .log, .tbl, .flow, .mem] s y0 := by
      unfold y0
      exact Moves.step (Moves.refl _ s) (touch_moves ..) rfl
    clear_value y0
    exact MovesAll.step hy0 (flowHit_moves _ _ _ _ _ _ _) rfl
  ·
    exact MovesAll.step (Moves.refl _ s) (flowMiss_moves _ _ _ _ _ _ _) rfl

theorem passAgain_moves (a0 s) : Moves [.buf] s (passAgain a0 s) := by
  unfold passAgain
  extract_lets -merge -useContext -underBinder y0
  clear_value y0
  exact Moves.step (m := [.buf]) (Moves.refl _ s) (Moves.leaf (by intro x hx; cases x <;> first | rfl | exact absurd (by decide) hx) rfl rfl rfl rfl) rfl

theorem takePacket_moves (a0 a1 s) : MovesAll hasOptSnd [.buf] s (takePacket a0 a1 s) := by
  unfold takePacket
  extract_lets -merge -useContext -underBinder mine fresh
  split
  · intro t ht
    obtain ⟨b, hb⟩ := ht
    simp only [Option.map_eq_some_iff, Prod.mk.injEq] at hb
    obtain ⟨_, _, _, rfl⟩ := hb
    exact Moves.leaf (by intro x hx; cases x <;> first | rfl | exact absurd (by decide) hx) rfl rfl rfl rfl
  · split
    · intro t ht
      obtain ⟨b, hb⟩ := ht
      simp only [Option.map_eq_some_iff, Prod.mk.injEq] at hb
      obtain ⟨_, _, _, rfl⟩ := hb
      exact Moves.leaf (by intro x hx; cases x <;> first | rfl | exact absurd (by decide) hx) rfl rfl rfl rfl
    · exact fun t h => by simp [hasOptSnd] at h

theorem fragDel_moves (a0 a1 s) : Moves [.tbl] s (fragDel a0 a1 s) := by
  unfold fragDel
  extract_lets -merge -useContext -underBinder y0
  clear_value y0
  exact Moves.step (m := [.tbl]) (Moves.refl _ s) (Moves.leaf (by intro x hx; cases x <;> first | rfl | exact absurd (by decide) hx) rfl rfl rfl rfl) rfl

theorem fragPut_moves (a0 s) : Moves [.tbl] s (fragPut a0 s) := by
  unfold fragPut
  extract_lets -merge -useContext -underBinder y0 y1 y2
  clear_value y0
  clear_value y1
  clear_value y2
  exact Moves.step (m := [.tbl]) (Moves.refl _ s) (Moves.leaf (by intro x hx; cases x <;> first | rfl | exact absurd (by decide) hx) rfl rfl rfl rfl) rfl

theorem fragRefused_moves (a0 s) : Moves [.regs, .log, .tbl] s (fragRefused a0 s) := by
  unfold fragRefused
  split
  ·
    extract_lets -merge -useContext -underBinder y0 y1
    clear_value y0
    have hy1 : Moves [.regs, .log, .tbl] s y1 := by
      unfold y1
      exact Moves.step (m := [.tbl]) (Moves.refl _ s) (Moves.leaf (by intro x hx; cases x <;> first | rfl | exact absurd (by decide) hx) rfl rfl rfl rfl) rfl
    clear_value y1
    refine Moves.ite ?_ ?_
    ·
      exact Moves.step hy1 (raise_moves ..) rfl
    ·
      exact hy1

theorem fragStep_moves (g x f k s) : MovesAll hasFragEnd [.out, .freeIx, .regs, .log, .ports, .tbl, .buf, .cry, .host] s (fragStep g x f k s) := by
  unfold fragStep
  extract_lets -merge -useContext -underBinder s1 k1 old s2
  have h1 : Moves [.out, .freeIx, .regs, .log, .ports, .tbl, .buf, .cry, .host] s s1 :=
    Moves.ite (Moves.refl _ _) (Moves.step (Moves.refl _ _) (countR_moves ..) rfl)
  have hp : ∀ {u e}, Moves [.out, .freeIx, .regs, .log, .ports, .tbl, .buf, .cry, .host] s u →
      Moves [.out, .freeIx, .regs, .log, .ports, .tbl, .buf, .cry, .host] s (fragPut e u) := fun h => Moves.step h (fragPut_moves ..) rfl
  have hc : ∀ {u g i n}, Moves [.out, .freeIx, .regs, .log, .ports, .tbl, .buf, .cry, .host] s u →
      Moves [.out, .freeIx, .regs, .log, .ports, .tbl, .buf, .cry, .host] s (countR g i n u) := fun h => Moves.step h (countR_moves ..) rfl
  have he : ∀ {u n k}, Moves [.out, .freeIx, .regs, .log, .ports, .tbl, .buf, .cry, .host] s u →
      Moves [.out, .freeIx, .regs, .log, .ports, .tbl, .buf, .cry, .host] s (toException n k u) := fun h => Moves.step h (toException_moves ..) rfl
  have hf : ∀ {u n}, Moves [.out, .freeIx, .regs, .log, .ports, .tbl, .buf, .cry, .host] s u →
      Moves [.out, .freeIx, .regs, .log, .ports, .tbl, .buf, .cry, .host] s (fragRefused n u) := fun h => Moves.step h (fragRefused_moves ..) rfl
  have hr : ∀ {u n}, Moves [.out, .freeIx, .regs, .log, .ports, .tbl, .buf, .cry, .host] s u →
      Moves [.out, .freeIx, .regs, .log, .ports, .tbl, .buf, .cry, .host] s (releasePacket n u) := fun h => Moves.step h (releasePacket_moves ..) rfl
  clear_value old s1
  refine MovesAll.ite ?_ ?_
  · have h2 : Moves [.out, .freeIx, .regs, .log, .ports, .tbl, .buf, .cry, .host] s s2 := by
      unfold s2
      split
      · exact hp h1
      · exact Moves.ite (hp h1) h1
    exact hasFragEnd_stop (he (hc h2))
  · split
    · split
      · exact hasFragEnd_go (hp h1)
      · exact MovesAll.ite (hasFragEnd_go (hp h1)) (hasFragEnd_go (hf (hc h1)))
    · split
      · exact MovesAll.ite (hasFragEnd_stop (hp (hc h1))) (hasFragEnd_stop (he (hf (hc h1))))
      · extract_lets -merge -useContext -underBinder e
        refine MovesAll.ite (MovesAll.ite (hasFragEnd_stop (hr (hp h1))) (hasFragEnd_go (hp h1))) (MovesAll.ite (hasFragEnd_stop (he (hp h1)))
          (MovesAll.ite (hasFragEnd_stop (hp (hc h1))) (hasFragEnd_stop (he (hf (hc (hp h1)))))))

theorem fragResolve_moves (a0 a1 a2 s) : Moves [.tbl, .buf] s (fragResolve a0 a1 a2 s) := by
  unfold fragResolve
  split
  ·
    exact (Moves.refl _ s)
  ·
    split
    ·
      exact (Moves.refl _ s)
    ·
      extract_lets -merge -useContext -underBinder y0
      have hy0 : Moves [.tbl, .buf] s y0 := by
        unfold y0
        refine Moves.step ?_ (fragPut_moves ..) rfl
        exact Moves.step (Moves.refl _ s) (countR_moves ..) rfl
      clear_value y0
      refine Moves.foldl ?_ (fun t1 x2 ht1 => ?_)
      ·
        exact hy0
      ·
        extract_lets -merge -useContext -underBinder y3
        clear_value y3
        exact Moves.step ht1 (passAgain_moves ..) rfl

theorem cryptoQueue_moves (a0 s) : Moves [.out, .ports, .tbl, .cry] s (cryptoQueue a0 s) := by
  unfold cryptoQueue
  extract_lets -merge -useContext -underBinder y0 y1 y2
  clear_value y0
  clear_value y1
  clear_value y2
  refine Moves.ite ?_ ?_
  ·
    refine Moves.step ?_ (releasePacket_moves ..) rfl
    exact Moves.step (Moves.refl _ s) (countC_moves ..) rfl
  ·
    exact Moves.step (m := [.cry]) (Moves.refl _ s) (Moves.leaf (by intro x hx; cases x <;> first | rfl | exact absurd (by decide) hx) rfl rfl rfl rfl) rfl

theorem recirculate_moves (a0 s) : Moves [.out, .freeIx, .ports, .tbl, .buf, .cry, .host] s (recirculate a0 s) := by
  unfold recirculate
  extract_lets -merge -useContext -underBinder y0
  clear_value y0
  refine Moves.ite ?_ ?_
  ·
    refine Moves.step ?_ (toException_moves ..) rfl
    exact Moves.step (Moves.refl _ s) (countA_moves ..) rfl
  ·
    refine Moves.step ?_ (passAgain_moves ..) rfl
    exact Moves.step (Moves.refl _ s) (countA_moves ..) rfl

theorem dispose_moves (a0 a1 s) : Moves [.out, .freeIx, .ports, .tbl, .buf, .cry, .host] s (dispose a0 a1 s) := by
  unfold dispose
  split
  ·
    refine Moves.step ?_ (releasePacket_moves ..) rfl
    exact Moves.step (Moves.refl _ s) (countA_moves ..) rfl
  ·
    exact Moves.step (Moves.refl _ s) (recirculate_moves ..) rfl
  ·
    exact Moves.step (Moves.refl _ s) (forwardPacket_moves ..) rfl

theorem finishPass_moves (a0 a1 a2 s) : Moves [.out, .freeIx, .ports, .tbl, .buf, .cry, .host] s (finishPass a0 a1 a2 s) := by
  unfold finishPass
  split
  ·
    extract_lets -merge -useContext -underBinder y0
    clear_value y0
    exact Moves.step (Moves.refl _ s) (cryptoQueue_moves ..) rfl
  ·
    refine Moves.ite ?_ ?_
    ·
      exact Moves.step (Moves.refl _ s) (dispose_moves ..) rfl
    ·
      exact Moves.step (Moves.refl _ s) (cryptoQueue_moves ..) rfl
  ·
    exact Moves.step (Moves.refl _ s) (dispose_moves ..) rfl

theorem afterFlow_moves (a0 a1 a2 a3 s) : Moves [.out, .freeIx, .ports, .tbl, .buf, .cry, .host] s (afterFlow a0 a1 a2 a3 s) := by
  unfold afterFlow
  split
  ·
    exact Moves.step (Moves.refl _ s) (finishPass_moves ..) rfl
  ·
    exact Moves.step (Moves.refl _ s) (releasePacket_moves ..) rfl
  ·
    exact Moves.step (Moves.refl _ s) (toException_moves ..) rfl

theorem missOverflow_moves (a0 a1 s) : Moves [.out, .freeIx, .regs, .log, .ports, .tbl, .buf, .cry, .flow, .host] s (missOverflow a0 a1 s) := by
  unfold missOverflow
  split
  ·
    extract_lets -merge -useContext -underBinder y0
    have hy0 : Moves [.out, .freeIx, .regs, .log, .ports, .tbl, .buf, .cry, .flow, .host] s y0 := by
      unfold y0
      refine Moves.step ?_ (countF_moves ..) rfl
      exact Moves.step (Moves.refl _ s) (flowMod_moves ..) rfl
    clear_value y0
    refine Moves.step ?_ (toException_moves ..) rfl
    refine Moves.ite ?_ ?_
    ·
      exact Moves.step hy0 (raise_moves ..) rfl
    ·
      exact hy0

theorem flowUnit_moves (a0 a1 a2 a3 a4 a5 a6 s) : Moves [.out, .freeIx, .regs, .log, .ports, .tbl, .buf, .cry, .flow, .host, .mem] s (flowUnit a0 a1 a2 a3 a4 a5 a6 s) := by
  unfold flowUnit
  extract_lets -merge -useContext -underBinder y0 y1
  clear_value y0
  clear_value y1
  split
  ·
    refine Moves.step ?_ (finishPass_moves ..) rfl
    exact Moves.step (Moves.refl _ s) (countF_moves ..) rfl
  ·
    extract_lets -merge -useContext -underBinder y2 y3 y4 y5 y6 y7
    have hy2 : Moves [.out, .freeIx, .regs, .log, .ports, .tbl, .buf, .cry, .flow, .host, .mem] s y2 := by
      unfold y2
      exact Moves.step (Moves.refl _ s) (countF_moves ..) rfl
    clear_value y2
    clear_value y3
    clear_value y4
    clear_value y5
    have hy6 : Moves [.out, .freeIx, .regs, .log, .ports, .tbl, .buf, .cry, .flow, .host, .mem] s y6 := by
      unfold y6
      exact Moves.step hy2 (countF_moves ..) rfl
    clear_value y6
    clear_value y7
    refine Moves.ite ?_ ?_
    ·
      split
      ·
        rename_i v8 v9 v10 e11
        have hv10 : Moves [.out, .freeIx, .regs, .log, .ports, .tbl, .buf, .cry, .flow, .host, .mem] s v10 := by
          refine MovesAll.of_eq (has := hasSnd2) e11 rfl ?_
          refine MovesAll.step ?_ (flowServe_moves _ _ _ _ _ _ _ _) rfl
          exact Moves.step hy2 (countF_moves ..) rfl
        exact Moves.step hv10 (afterFlow_moves ..) rfl
    ·
      refine Moves.ite ?_ ?_
      ·
        exact Moves.step hy6 (missOverflow_moves ..) rfl
      ·
        exact Moves.step hy6 (flowMod_moves ..) rfl

theorem endPass_moves (a0 a1 a2 s) : Moves [.out, .freeIx, .regs, .log, .ports, .tbl, .buf, .cry, .flow, .host, .mem] s (endPass a0 a1 a2 s) := by
  unfold endPass
  extract_lets -merge -useContext -underBinder y0 y1 y2 y3 y4
  clear_value y0
  clear_value y1
  have hy2 : Moves [.out, .freeIx, .regs, .log, .ports, .tbl, .buf, .cry, .flow, .host, .mem] s y2 := by
    unfold y2
    exact Moves.step (Moves.refl _ s) (fragResolve_moves ..) rfl
  clear_value y2
  clear_value y3
  clear_value y4
  split
  ·
    refine Moves.step ?_ (releasePacket_moves ..) rfl
    exact Moves.step hy2 (countPass_moves ..) rfl
  ·
    refine Moves.step ?_ (toException_moves ..) rfl
    exact Moves.step hy2 (countPass_moves ..) rfl
  ·
    extract_lets -merge -useContext -underBinder y5 y6
    clear_value y5
    clear_value y6
    refine Moves.ite ?_ ?_
    ·
      refine Moves.step ?_ (toException_moves ..) rfl
      refine Moves.step ?_ (countPass_moves ..) rfl
      exact Moves.step hy2 (countA_moves ..) rfl
    ·
      split
      ·
        rename_i v7 v8 e9
        have hv7 : Moves [.out, .freeIx, .regs, .log, .ports, .tbl, .buf, .cry, .flow, .host, .mem] s v7 := by
          refine MovesAll.of_eq (has := hasFst) e9 rfl ?_
          exact MovesAll.step hy2 (editPass_moves _ _ _) rfl
        extract_lets -merge -useContext -underBinder y10
        have hy10 : Moves [.out, .freeIx, .regs, .log, .ports, .tbl, .buf, .cry, .flow, .host, .mem] s y10 := by
          unfold y10
          exact Moves.step hv7 (countPass_moves ..) rfl
        clear_value y10
        refine Moves.ite ?_ ?_
        ·
          exact Moves.step hy10 (flowUnit_moves ..) rfl
        ·
          exact Moves.step hy10 (finishPass_moves ..) rfl

theorem stagePass_moves (a0 a1 a2 a3 s) : Moves [.out, .freeIx, .regs, .log, .ports, .tbl, .buf, .cry, .flow, .host, .mem] s (stagePass a0 a1 a2 a3 s) := by
  unfold stagePass
  split
  ·
    rename_i v0 v1 e2
    have hv0 : Moves [.out, .freeIx, .regs, .log, .ports, .tbl, .buf, .cry, .flow, .host, .mem] s v0 := by
      refine MovesAll.of_eq (has := hasFst) e2 rfl ?_
      refine MovesAll.stepRun ?_ (runStages_moves _ _ _ _) rfl
      refine hasFst_mk ?_
      exact (Moves.refl _ s)
    exact Moves.step hv0 (endPass_moves ..) rfl

theorem deepEnd_moves (a0 a1 a2 a3 s) : Moves [.out, .freeIx, .regs, .log, .ports, .tbl, .buf, .cry, .flow, .host, .mem] s (deepEnd a0 a1 a2 a3 s) := by
  unfold deepEnd
  extract_lets -merge -useContext -underBinder y0 y1
  clear_value y0
  have hy1 : Moves [.out, .freeIx, .regs, .log, .ports, .tbl, .buf, .cry, .flow, .host, .mem] s y1 := by
    unfold y1
    exact Moves.step (Moves.refl _ s) (countR_moves ..) rfl
  clear_value y1
  split
  ·
    exact Moves.step hy1 (releasePacket_moves ..) rfl
  ·
    exact Moves.step hy1 (stagePass_moves ..) rfl
  ·
    exact Moves.step hy1 (toException_moves ..) rfl

theorem afterParse_moves (a0 a1 a2 a3 a4 a5 s) : Moves [.out, .freeIx, .regs, .log, .ports, .tbl, .buf, .cry, .flow, .host, .mem] s (afterParse a0 a1 a2 a3 a4 a5 s) := by
  unfold afterParse
  extract_lets -merge -useContext -underBinder y0 y1
  clear_value y0
  clear_value y1
  split
  ·
    exact Moves.step (Moves.refl _ s) (stagePass_moves ..) rfl
  ·
    exact Moves.step (Moves.refl _ s) (toException_moves ..) rfl
  ·
    extract_lets -merge -useContext -underBinder y2 y3
    clear_value y2
    have hy3 : Moves [.out, .freeIx, .regs, .log, .ports, .tbl, .buf, .cry, .flow, .host, .mem] s y3 := by
      unfold y3
      exact Moves.step (Moves.refl _ s) (countR_moves ..) rfl
    clear_value y3
    split
    ·
      exact Moves.step hy3 (releasePacket_moves ..) rfl
    ·
      exact Moves.step hy3 (toException_moves ..) rfl
    ·
      exact Moves.step hy3 (stagePass_moves ..) rfl
  ·
    refine Moves.ite ?_ ?_
    ·
      refine Moves.step ?_ (passAgain_moves ..) rfl
      exact Moves.step (Moves.refl _ s) (countR_moves ..) rfl
    ·
      exact Moves.step (Moves.refl _ s) (deepEnd_moves ..) rfl

theorem parseRest_moves (a0 a1 a2 a3 a4 s) : Moves [.out, .freeIx, .regs, .log, .ports, .tbl, .buf, .cry, .flow, .host, .mem] s (parseRest a0 a1 a2 a3 a4 s) := by
  unfold parseRest
  extract_lets -merge -useContext -underBinder y0
  clear_value y0
  split
  ·
    split
    ·
      exact Moves.step (Moves.refl _ s) (afterParse_moves ..) rfl

theorem parseStop_moves (a0 a1 a2 a3 a4 s) : Moves [.out, .freeIx, .regs, .log, .ports, .tbl, .buf, .cry, .flow, .host, .mem] s (parseStop a0 a1 a2 a3 a4 s) := by
  unfold parseStop
  extract_lets -merge -useContext -underBinder y0
  clear_value y0
  split
  ·
    exact Moves.step (Moves.refl _ s) (afterParse_moves ..) rfl

theorem viaFrags_moves {l : List Part} {g : Nat} {x : Option L4At} {k : Packet} {s : State} {go : Packet → State → State}
    (h : ∀ k t, Moves l t (go k t)) (hb : ([.out, .freeIx, .regs, .log, .ports, .tbl, .buf, .cry, .host] : List Part).all l.contains = true := by rfl) : Moves l s (viaFrags g x k s go) := by
  unfold viaFrags
  split
  · exact h _ _
  · split
    · exact h _ _
    · refine Moves.ite (h _ _) ?_
      split
      · rename_i e
        exact (fragStep_moves _ _ _ _ _ _ (by rw [e]; rfl)).wider hb
      · rename_i e
        exact Moves.step ((fragStep_moves _ _ _ _ _ _ (by rw [e]; rfl)).wider hb) (h _ _) (all_self _)

theorem passOf_moves (a0 a1 a2 s) : Moves [.out, .freeIx, .regs, .log, .ports, .tbl, .buf, .cry, .flow, .host, .mem] s (passOf a0 a1 a2 s) := by
  unfold passOf
  extract_lets -merge -useContext -underBinder y0 y1
  clear_value y0
  have hy1 : Moves [.out, .freeIx, .regs, .log, .ports, .tbl, .buf, .cry, .flow, .host, .mem] s y1 := by
    unfold y1
    exact Moves.ite (Moves.step (Moves.refl _ s) (countR_moves ..) rfl) (Moves.refl _ s)
  clear_value y1
  refine Moves.ite (Moves.step hy1 (deepEnd_moves ..) rfl) ?_
  split
  · split
    exact Moves.step hy1 (afterParse_moves ..) rfl
  · extract_lets -merge -useContext -underBinder y2
    clear_value y2
    split
    extract_lets -merge -useContext -underBinder y3 y4
    clear_value y3 y4
    split
    · exact Moves.step (m := [.out, .freeIx, .regs, .log, .ports, .tbl, .buf, .cry, .flow, .host, .mem]) hy1 (viaFrags_moves fun k t => Moves.step (Moves.refl _ t) (parseStop_moves ..) rfl) rfl
    · exact Moves.step (m := [.out, .freeIx, .regs, .log, .ports, .tbl, .buf, .cry, .flow, .host, .mem]) hy1 (viaFrags_moves fun k t => Moves.step (Moves.refl _ t) (parseRest_moves ..) rfl) rfl

theorem execParsePass_moves (a0 a1 a2 s) : MovesAll hasNext [.out, .freeIx, .regs, .log, .cfg, .ports, .tbl, .buf, .cry, .flow, .host, .mem] s (execParsePass a0 a1 a2 s) := by
  unfold execParsePass
  refine hasNext_onElem ?_
  refine Moves.ite ?_ ?_
  ·
    exact (Moves.refl _ s)
  ·
    split
    ·
      exact (Moves.refl _ s)
    ·
      rename_i v0 v1 e2
      have hv1 : Moves [.out, .freeIx, .regs, .log, .cfg, .ports, .tbl, .buf, .cry, .flow, .host, .mem] s v1 := by
        refine MovesAll.of_eq (has := hasOptSnd) e2 ⟨_, rfl⟩ ?_
        exact MovesAll.step (Moves.refl _ s) (takePacket_moves _ _ _) rfl
      refine Moves.step ?_ (retireIdle_moves ..) rfl
      exact Moves.step hv1 (passOf_moves ..) rfl

theorem execFragmentHoldTimeout_moves (a0 a1 s) : MovesAll hasNext [.out, .freeIx, .regs, .log, .cfg, .ports, .tbl, .buf, .cry, .flow, .host] s (execFragmentHoldTimeout a0 a1 s) := by
  unfold execFragmentHoldTimeout
  refine hasNext_onElem ?_
  split
  ·
    exact (Moves.refl _ s)
  ·
    split
    ·
      exact (Moves.refl _ s)
    ·
      refine Moves.step ?_ (retireIdle_moves ..) rfl
      refine Moves.step ?_ (toException_moves ..) rfl
      refine Moves.step ?_ (countR_moves ..) rfl
      exact Moves.step (Moves.refl _ s) (fragPut_moves ..) rfl

theorem execFragmentEntryTimeout_moves (a0 a1 s) : MovesAll hasNext [.tbl] s (execFragmentEntryTimeout a0 a1 s) := by
  unfold execFragmentEntryTimeout
  refine hasNext_onElem ?_
  split
  ·
    exact (Moves.refl _ s)
  ·
    refine Moves.ite ?_ ?_
    ·
      refine Moves.step ?_ (countR_moves ..) rfl
      exact Moves.step (Moves.refl _ s) (fragDel_moves ..) rfl
    ·
      exact (Moves.refl _ s)

theorem serveParked_moves (a0 a1 s) : Moves [.out, .freeIx, .regs, .log, .ports, .tbl, .buf, .cry, .flow, .host, .mem] s (serveParked a0 a1 s) := by
  unfold serveParked
  extract_lets -merge -useContext -underBinder y0
  clear_value y0
  split
  ·
    extract_lets -merge -useContext -underBinder y1
    clear_value y1
    refine Moves.ite ?_ ?_
    ·
      exact Moves.step (Moves.refl _ s) (toException_moves ..) rfl
    ·
      split
      ·
        rename_i v2 v3 v4 e5
        have hv4 : Moves [.out, .freeIx, .regs, .log, .ports, .tbl, .buf, .cry, .flow, .host, .mem] s v4 := by
          refine MovesAll.of_eq (has := hasSnd2) e5 rfl ?_
          exact MovesAll.step (Moves.refl _ s) (flowServe_moves _ _ _ _ _ _ _ _) rfl
        exact Moves.step hv4 (afterFlow_moves ..) rfl

theorem execFlowMissService_moves (a0 a1 s) : MovesAll hasNext [.waiting, .out, .freeIx, .regs, .log, .cmd, .cfg, .power, .twin, .ports, .tbl, .buf, .cry, .flow, .host, .sto, .svc, .mbx, .mem] s (execFlowMissService a0 a1 s) := by
  unfold execFlowMissService
  refine hasNext_onElem ?_
  split
  ·
    exact (Moves.refl _ s)
  ·
    extract_lets -merge -useContext -underBinder y0 y1 y2 y3 y4
    clear_value y0
    clear_value y1
    have hy2 : Moves [.waiting, .out, .freeIx, .regs, .log, .cmd, .cfg, .power, .twin, .ports, .tbl, .buf, .cry, .flow, .host, .sto, .svc, .mbx, .mem] s y2 := by
      unfold y2
      exact Moves.step (Moves.refl _ s) (flowMod_moves ..) rfl
    clear_value y2
    have hy3 : Moves [.waiting, .out, .freeIx, .regs, .log, .cmd, .cfg, .power, .twin, .ports, .tbl, .buf, .cry, .flow, .host, .sto, .svc, .mbx, .mem] s y3 := by
      unfold y3
      split
      ·
        refine Moves.ite ?_ ?_
        ·
          exact Moves.step hy2 (countReads_moves ..) rfl
        ·
          exact hy2
      ·
        exact hy2
    clear_value y3
    have hy4 : Moves [.waiting, .out, .freeIx, .regs, .log, .cmd, .cfg, .power, .twin, .ports, .tbl, .buf, .cry, .flow, .host, .sto, .svc, .mbx, .mem] s y4 := by
      unfold y4
      split
      ·
        refine Moves.ite ?_ ?_
        ·
          split
          ·
            rename_i v5 v6 e7
            have hv6 : Moves [.waiting, .out, .freeIx, .regs, .log, .cmd, .cfg, .power, .twin, .ports, .tbl, .buf, .cry, .flow, .host, .sto, .svc, .mbx, .mem] s v6 := by
              refine MovesAll.of_eq (has := hasSnd) e7 rfl ?_
              exact MovesAll.step hy3 (drawFree_moves _) rfl
            refine Moves.step ?_ (flowEcc_moves ..) rfl
            exact Moves.step hv6 (memUe_moves ..) rfl
        ·
          exact hy3
      ·
        refine Moves.ite ?_ ?_
        ·
          exact Moves.step hy3 (readFlow_moves ..) rfl
        ·
          exact hy3
    clear_value y4
    refine Moves.step ?_ (retireIdle_moves ..) rfl
    refine Moves.foldl ?_ (fun t8 x9 ht8 => ?_)
    ·
      exact hy4
    ·
      exact Moves.step ht8 (serveParked_moves ..) rfl

theorem takeJob_moves (a0 a1 a2 s) : MovesAll hasOptSnd [.cry] s (takeJob a0 a1 a2 s) := by
  unfold takeJob
  extract_lets -merge -useContext -underBinder l mine
  refine MovesAll.ite (fun t h => by simp [hasOptSnd] at h) ?_
  split
  · intro t ht
    obtain ⟨b, hb⟩ := ht
    simp only [Option.map_eq_some_iff, Prod.mk.injEq] at hb
    obtain ⟨_, _, _, rfl⟩ := hb
    exact Moves.step (Moves.refl _ s) (cryMod_moves ..) rfl
  · exact fun t h => by simp [hasOptSnd] at h

theorem recordPoisoned_moves (a0 a1 s) : Moves [.regs, .log, .cry, .mem] s (recordPoisoned a0 a1 s) := by
  unfold recordPoisoned
  extract_lets -merge -useContext -underBinder y0
  refine Moves.ite ?_ ?_
  ·
    refine Moves.ite ?_ ?_
    ·
      exact Moves.step (m := [.mem]) (Moves.refl _ s) (Moves.leafMem (by intro x hx; cases x <;> first | rfl | exact absurd (by decide) hx) rfl rfl rfl rfl) rfl
    ·
      refine Moves.step ?_ (raise_moves ..) rfl
      exact Moves.step (Moves.refl _ s) (cryMod_moves ..) rfl
  ·
    exact Moves.step (Moves.refl _ s) (cryMod_moves ..) rfl

theorem execCryptoRecordFetch_moves (a0 s) : MovesAll hasNext [.out, .freeIx, .regs, .log, .cfg, .ports, .tbl, .buf, .cry, .flow, .mem] s (execCryptoRecordFetch a0 s) := by
  unfold execCryptoRecordFetch
  extract_lets -merge -useContext -underBinder y0
  clear_value y0
  refine hasNext_onElem ?_
  split
  ·
    exact (Moves.refl _ s)
  ·
    split
    ·
      exact (Moves.refl _ s)
    ·
      extract_lets -merge -useContext -underBinder y1 y2 y3 y4 y5
      clear_value y1
      have hy2 : Moves [.out, .freeIx, .regs, .log, .cfg, .ports, .tbl, .buf, .cry, .flow, .mem] s y2 := by
        unfold y2
        refine Moves.ite ?_ ?_
        ·
          exact Moves.step (Moves.refl _ s) (recordPoisoned_moves ..) rfl
        ·
          exact (Moves.refl _ s)
      clear_value y2
      have hy3 : Moves [.out, .freeIx, .regs, .log, .cfg, .ports, .tbl, .buf, .cry, .flow, .mem] s y3 := by
        unfold y3
        refine Moves.ite ?_ ?_
        ·
          exact hy2
        ·
          exact Moves.step hy2 (countReads_moves ..) rfl
      clear_value y3
      have hy4 : Moves [.out, .freeIx, .regs, .log, .cfg, .ports, .tbl, .buf, .cry, .flow, .mem] s y4 := by
        unfold y4
        exact Moves.step hy3 (countC_moves ..) rfl
      clear_value y4
      clear_value y5
      refine Moves.ite ?_ ?_
      ·
        refine Moves.step ?_ (retireIdle_moves ..) rfl
        refine Moves.step ?_ (releasePacket_moves ..) rfl
        refine Moves.step ?_ (countC_moves ..) rfl
        exact Moves.step (Moves.refl _ s) (cryMod_moves ..) rfl
      ·
        split
        ·
          rename_i v6 v7 e8
          have hv7 : Moves [.out, .freeIx, .regs, .log, .cfg, .ports, .tbl, .buf, .cry, .flow, .mem] s v7 := by
            refine MovesAll.of_eq (has := hasSnd) e8 rfl ?_
            refine MovesAll.ite ?_ ?_
            ·
              exact MovesAll.step hy4 (drawFree_moves _) rfl
            ·
              refine hasSnd_mk ?_
              exact hy4
          extract_lets -merge -useContext -underBinder y9
          clear_value y9
          exact Moves.step hv7 (cryMod_moves ..) rfl

theorem cryptoReturn_moves (a0 s) : Moves [.buf] s (cryptoReturn a0 s) := by
  unfold cryptoReturn
  extract_lets -merge -useContext -underBinder y0
  clear_value y0
  exact Moves.step (Moves.refl _ s) (passAgain_moves ..) rfl

theorem leaveCrypto_moves (a0 a1 s) : Moves [.out, .freeIx, .ports, .tbl, .buf, .cry, .host] s (leaveCrypto a0 a1 s) := by
  unfold leaveCrypto
  split
  ·
    exact Moves.step (Moves.refl _ s) (dispose_moves ..) rfl
  ·
    exact Moves.step (Moves.refl _ s) (dispose_moves ..) rfl

theorem saMod_moves (a0 a1 s) : Moves [.cry] s (saMod a0 a1 s) := by
  unfold saMod
  split
  ·
    exact Moves.step (Moves.refl _ s) (cryMod_moves ..) rfl
  ·
    exact (Moves.refl _ s)

theorem mirrorSa_moves (a0 s) : Moves [.out] s (mirrorSa a0 s) := by
  unfold mirrorSa
  split
  ·
    refine Moves.ite ?_ ?_
    ·
      exact Moves.step (Moves.refl _ s) (sendTwin_moves ..) rfl
    ·
      exact (Moves.refl _ s)
  ·
    exact (Moves.refl _ s)

theorem keyFault_moves (a0 a1 a2 s) : Moves [.regs, .log, .tbl] s (keyFault a0 a1 a2 s) := by
  unfold keyFault
  refine Moves.step ?_ (raise_moves ..) rfl
  exact Moves.step (Moves.refl _ s) (countC_moves ..) rfl

theorem saAdvance_moves (a0 a1 a2 s) : Moves [.out, .regs, .log, .cry] s (saAdvance a0 a1 a2 s) := by
  unfold saAdvance
  extract_lets -merge -useContext -underBinder y0 y1 y2 y3
  clear_value y0
  clear_value y1
  have hy2 : Moves [.out, .regs, .log, .cry] s y2 := by
    unfold y2
    exact Moves.step (Moves.refl _ s) (saMod_moves ..) rfl
  clear_value y2
  have hy3 : Moves [.out, .regs, .log, .cry] s y3 := by
    unfold y3
    refine Moves.ite ?_ ?_
    ·
      exact Moves.step hy2 (raise_moves ..) rfl
    ·
      exact hy2
  clear_value y3
  refine Moves.step ?_ (mirrorSa_moves ..) rfl
  refine Moves.ite ?_ ?_
  ·
    exact Moves.step hy3 (raise_moves ..) rfl
  ·
    exact hy3

theorem espEncrypt_moves (a0 a1 a2 s) : Moves [.out, .freeIx, .regs, .log, .ports, .tbl, .buf, .cry, .host] s (espEncrypt a0 a1 a2 s) := by
  unfold espEncrypt
  extract_lets -merge -useContext -underBinder y0
  clear_value y0
  split
  ·
    refine Moves.step ?_ (releasePacket_moves ..) rfl
    exact Moves.step (Moves.refl _ s) (countC_moves ..) rfl
  ·
    refine Moves.ite ?_ ?_
    ·
      refine Moves.step ?_ (releasePacket_moves ..) rfl
      exact Moves.step (Moves.refl _ s) (countC_moves ..) rfl
    ·
      refine Moves.ite ?_ ?_
      ·
        refine Moves.step ?_ (releasePacket_moves ..) rfl
        exact Moves.step (Moves.refl _ s) (countC_moves ..) rfl
      ·
        refine Moves.ite ?_ ?_
        ·
          refine Moves.step ?_ (releasePacket_moves ..) rfl
          refine Moves.step ?_ (keyFault_moves ..) rfl
          exact Moves.step (Moves.refl _ s) (saMod_moves ..) rfl
        ·
          refine Moves.ite ?_ ?_
          ·
            refine Moves.step ?_ (releasePacket_moves ..) rfl
            exact Moves.step (Moves.refl _ s) (countC_moves ..) rfl
          ·
            split
            ·
              rename_i v1 v2 e3
              have hv2 : Moves [.out, .freeIx, .regs, .log, .ports, .tbl, .buf, .cry, .host] s v2 := by
                refine MovesAll.of_eq (has := hasSnd) e3 rfl ?_
                exact MovesAll.step (Moves.refl _ s) (drawFree_moves _) rfl
              split
              ·
                extract_lets -merge -useContext -underBinder y4 y5
                have hy4 : Moves [.out, .freeIx, .regs, .log, .ports, .tbl, .buf, .cry, .host] s y4 := by
                  unfold y4
                  exact Moves.step hv2 (saAdvance_moves ..) rfl
                clear_value y4
                clear_value y5
                refine Moves.ite ?_ ?_
                ·
                  refine Moves.step ?_ (releasePacket_moves ..) rfl
                  exact Moves.step hy4 (countC_moves ..) rfl
                ·
                  refine Moves.step ?_ (leaveCrypto_moves ..) rfl
                  refine Moves.step ?_ (countC_moves ..) rfl
                  exact Moves.step hy4 (countC_moves ..) rfl

theorem execCryptoEncrypt_moves (a0 a1 s) : MovesAll hasNext [.out, .freeIx, .regs, .log, .cfg, .ports, .tbl, .buf, .cry, .flow, .host] s (execCryptoEncrypt a0 a1 s) := by
  unfold execCryptoEncrypt
  refine hasNext_onElem ?_
  split
  ·
    exact (Moves.refl _ s)
  ·
    rename_i v0 v1 e2
    have hv1 : Moves [.out, .freeIx, .regs, .log, .cfg, .ports, .tbl, .buf, .cry, .flow, .host] s v1 := by
      refine MovesAll.of_eq (has := hasOptSnd) e2 ⟨_, rfl⟩ ?_
      exact MovesAll.step (Moves.refl _ s) (takeJob_moves _ _ _ _) rfl
    refine Moves.step ?_ (retireIdle_moves ..) rfl
    exact Moves.step hv1 (espEncrypt_moves ..) rfl

theorem espDecrypt_moves (a0 a1 a2 a3 a4 s) : Moves [.out, .freeIx, .regs, .log, .ports, .tbl, .buf, .cry, .host] s (espDecrypt a0 a1 a2 a3 a4 s) := by
  unfold espDecrypt
  extract_lets -merge -useContext -underBinder y0 y1 y2
  clear_value y0
  clear_value y1
  have hy2 : Moves [.out, .freeIx, .regs, .log, .ports, .tbl, .buf, .cry, .host] s y2 := by
    unfold y2
    refine Moves.step ?_ (toException_moves ..) rfl
    exact Moves.step (Moves.refl _ s) (countC_moves ..) rfl
  clear_value y2
  split
  ·
    extract_lets -merge -useContext -underBinder y3 y4 y5 y6 y7 y8 y9 y10
    clear_value y3
    clear_value y4
    clear_value y5
    clear_value y6
    clear_value y7
    clear_value y8
    clear_value y9
    have hy10 : Moves [.out, .freeIx, .regs, .log, .ports, .tbl, .buf, .cry, .host] s y10 := by
      unfold y10
      refine Moves.step ?_ (mirrorSa_moves ..) rfl
      exact Moves.step (Moves.refl _ s) (saMod_moves ..) rfl
    clear_value y10
    refine Moves.ite ?_ ?_
    ·
      exact hy2
    ·
      refine Moves.ite ?_ ?_
      ·
        refine Moves.step ?_ (releasePacket_moves ..) rfl
        exact Moves.step (Moves.refl _ s) (countC_moves ..) rfl
      ·
        refine Moves.ite ?_ ?_
        ·
          refine Moves.step ?_ (releasePacket_moves ..) rfl
          refine Moves.step ?_ (keyFault_moves ..) rfl
          exact Moves.step (Moves.refl _ s) (saMod_moves ..) rfl
        ·
          refine Moves.ite ?_ ?_
          ·
            refine Moves.step ?_ (releasePacket_moves ..) rfl
            exact Moves.step (Moves.refl _ s) (countC_moves ..) rfl
          ·
            refine Moves.ite ?_ ?_
            ·
              refine Moves.step ?_ (releasePacket_moves ..) rfl
              exact Moves.step (Moves.refl _ s) (countC_moves ..) rfl
            ·
              refine Moves.ite ?_ ?_
              ·
                refine Moves.step ?_ (releasePacket_moves ..) rfl
                exact Moves.step (Moves.refl _ s) (countC_moves ..) rfl
              ·
                refine Moves.step ?_ (cryptoReturn_moves ..) rfl
                refine Moves.step ?_ (countC_moves ..) rfl
                exact Moves.step hy10 (countC_moves ..) rfl
  ·
    exact hy2

theorem execCryptoDecrypt_moves (a0 a1 a2 a3 s) : MovesAll hasNext [.out, .freeIx, .regs, .log, .cfg, .ports, .tbl, .buf, .cry, .flow, .host] s (execCryptoDecrypt a0 a1 a2 a3 s) := by
  unfold execCryptoDecrypt
  refine hasNext_onElem ?_
  split
  ·
    exact (Moves.refl _ s)
  ·
    rename_i v0 v1 e2
    have hv1 : Moves [.out, .freeIx, .regs, .log, .cfg, .ports, .tbl, .buf, .cry, .flow, .host] s v1 := by
      refine MovesAll.of_eq (has := hasOptSnd) e2 ⟨_, rfl⟩ ?_
      exact MovesAll.step (Moves.refl _ s) (takeJob_moves _ _ _ _) rfl
    refine Moves.step ?_ (retireIdle_moves ..) rfl
    exact Moves.step hv1 (espDecrypt_moves ..) rfl

theorem takeTls_moves (a0 a1 s) : MovesAll hasOptSnd [.cry] s (takeTls a0 a1 s) := by
  unfold takeTls
  refine MovesAll.ite (fun t h => by simp [hasOptSnd] at h) ?_
  intro t ht
  obtain ⟨b, hb⟩ := ht
  simp only [Option.map_eq_some_iff] at hb
  obtain ⟨⟨j, u⟩, hj, hu⟩ := hb
  simp only [Prod.mk.injEq] at hu
  obtain ⟨_, rfl⟩ := hu
  exact Moves.step (takeJob_moves _ _ _ _ u ⟨j, hj⟩) (cryMod_moves ..) rfl

theorem tlsCount_moves (a0 a1 a2 a3 a4 a5 s) : MovesAll hasSnd [.regs, .log] s (tlsCount a0 a1 a2 a3 a4 a5 s) := by
  unfold tlsCount
  extract_lets -merge -useContext -underBinder y0 y1
  clear_value y0
  clear_value y1
  refine hasSnd_mk ?_
  refine Moves.ite ?_ ?_
  ·
    exact Moves.step (Moves.refl _ s) (raise_moves ..) rfl
  ·
    exact (Moves.refl _ s)

theorem putHalf_moves (a0 a1 a2 a3 s) : Moves [.cry] s (putHalf a0 a1 a2 a3 s) := by
  unfold putHalf
  exact Moves.step (Moves.refl _ s) (cryMod_moves ..) rfl

theorem tlsStale_moves (a0 a1 a2 a3 s) : Moves [.out, .regs, .log, .ports, .tbl, .cry] s (tlsStale a0 a1 a2 a3 s) := by
  unfold tlsStale
  extract_lets -merge -useContext -underBinder y0 y1
  clear_value y0
  have hy1 : Moves [.out, .regs, .log, .ports, .tbl, .cry] s y1 := by
    unfold y1
    refine Moves.step ?_ (countC_moves ..) rfl
    exact Moves.step (Moves.refl _ s) (putHalf_moves ..) rfl
  clear_value y1
  refine Moves.step ?_ (releasePacket_moves ..) rfl
  refine Moves.ite ?_ ?_
  ·
    exact Moves.step hy1 (raise_moves ..) rfl
  ·
    exact hy1

theorem tlsTx_moves (a0 a1 a2 s) : Moves [.out, .freeIx, .regs, .log, .ports, .tbl, .buf, .cry, .host] s (tlsTx a0 a1 a2 s) := by
  unfold tlsTx
  extract_lets -merge -useContext -underBinder y0
  clear_value y0
  split
  ·
    exact Moves.step (Moves.refl _ s) (toException_moves ..) rfl
  ·
    refine Moves.ite ?_ ?_
    ·
      refine Moves.step ?_ (releasePacket_moves ..) rfl
      exact Moves.step (Moves.refl _ s) (countC_moves ..) rfl
    ·
      refine Moves.ite ?_ ?_
      ·
        refine Moves.step ?_ (releasePacket_moves ..) rfl
        refine Moves.step ?_ (keyFault_moves ..) rfl
        exact Moves.step (Moves.refl _ s) (putHalf_moves ..) rfl
      ·
        refine Moves.ite ?_ ?_
        ·
          refine Moves.step ?_ (releasePacket_moves ..) rfl
          exact Moves.step (Moves.refl _ s) (countC_moves ..) rfl
        ·
          split
          ·
            exact Moves.step (Moves.refl _ s) (tlsStale_moves ..) rfl
          ·
            extract_lets -merge -useContext -underBinder y1 y2 y3
            clear_value y1
            clear_value y2
            unfold y3
            refine Moves.ite ?_ ?_
            ·
              split
              ·
                split
                ·
                  rename_i v4 v5 e6
                  have hv5 : Moves [.out, .freeIx, .regs, .log, .ports, .tbl, .buf, .cry, .host] s v5 := by
                    refine MovesAll.of_eq (has := hasSnd) e6 rfl ?_
                    exact MovesAll.step (Moves.refl _ s) (tlsCount_moves _ _ _ _ _ _ _) rfl
                  refine Moves.step ?_ (leaveCrypto_moves ..) rfl
                  refine Moves.step ?_ (countC_moves ..) rfl
                  refine Moves.step ?_ (countC_moves ..) rfl
                  exact Moves.step hv5 (putHalf_moves ..) rfl
            ·
              split
              ·
                exact Moves.step (Moves.refl _ s) (leaveCrypto_moves ..) rfl
              ·
                exact Moves.step (Moves.refl _ s) (tlsStale_moves ..) rfl

theorem execTlsTxSegment_moves (a0 a1 s) : MovesAll hasNext [.out, .freeIx, .regs, .log, .cfg, .ports, .tbl, .buf, .cry, .flow, .host] s (execTlsTxSegment a0 a1 s) := by
  unfold execTlsTxSegment
  refine hasNext_onElem ?_
  split
  ·
    exact (Moves.refl _ s)
  ·
    rename_i v0 v1 e2
    have hv1 : Moves [.out, .freeIx, .regs, .log, .cfg, .ports, .tbl, .buf, .cry, .flow, .host] s v1 := by
      refine MovesAll.of_eq (has := hasOptSnd) e2 ⟨_, rfl⟩ ?_
      exact MovesAll.step (Moves.refl _ s) (takeTls_moves _ _ _) rfl
    refine Moves.step ?_ (retireIdle_moves ..) rfl
    exact Moves.step hv1 (tlsTx_moves ..) rfl

theorem tlsUnsync_moves (a0 a1 a2 a3 a4 s) : Moves [.regs, .log, .cry] s (tlsUnsync a0 a1 a2 a3 a4 s) := by
  unfold tlsUnsync
  refine Moves.step ?_ (raise_moves ..) rfl
  exact Moves.step (Moves.refl _ s) (putHalf_moves ..) rfl

theorem tlsRx_moves (a0 a1 a2 a3 a4 s) : Moves [.out, .freeIx, .regs, .log, .ports, .tbl, .buf, .cry, .host] s (tlsRx a0 a1 a2 a3 a4 s) := by
  unfold tlsRx
  extract_lets -merge -useContext -underBinder y0
  clear_value y0
  split
  ·
    exact Moves.step (Moves.refl _ s) (toException_moves ..) rfl
  ·
    refine Moves.ite ?_ ?_
    ·
      refine Moves.step ?_ (releasePacket_moves ..) rfl
      exact Moves.step (Moves.refl _ s) (countC_moves ..) rfl
    ·
      refine Moves.ite ?_ ?_
      ·
        refine Moves.step ?_ (releasePacket_moves ..) rfl
        refine Moves.step ?_ (keyFault_moves ..) rfl
        exact Moves.step (Moves.refl _ s) (putHalf_moves ..) rfl
      ·
        refine Moves.ite ?_ ?_
        ·
          exact Moves.step (Moves.refl _ s) (cryptoReturn_moves ..) rfl
        ·
          refine Moves.ite ?_ ?_
          ·
            refine Moves.step ?_ (cryptoReturn_moves ..) rfl
            exact Moves.step (Moves.refl _ s) (countC_moves ..) rfl
          ·
            split
            ·
              refine Moves.step ?_ (cryptoReturn_moves ..) rfl
              refine Moves.step ?_ (countC_moves ..) rfl
              exact Moves.step (Moves.refl _ s) (tlsUnsync_moves ..) rfl
            ·
              extract_lets -merge -useContext -underBinder y1 y2 y3
              clear_value y1
              clear_value y2
              clear_value y3
              refine Moves.ite ?_ ?_
              ·
                exact Moves.step (Moves.refl _ s) (cryptoReturn_moves ..) rfl
              ·
                refine Moves.ite ?_ ?_
                ·
                  refine Moves.step ?_ (cryptoReturn_moves ..) rfl
                  refine Moves.step ?_ (countC_moves ..) rfl
                  exact Moves.step (Moves.refl _ s) (tlsUnsync_moves ..) rfl
                ·
                  refine Moves.ite ?_ ?_
                  ·
                    refine Moves.step ?_ (cryptoReturn_moves ..) rfl
                    refine Moves.step ?_ (countC_moves ..) rfl
                    exact Moves.step (Moves.refl _ s) (tlsUnsync_moves ..) rfl
                  ·
                    split
                    ·
                      rename_i v4 v5 e6
                      have hv5 : Moves [.out, .freeIx, .regs, .log, .ports, .tbl, .buf, .cry, .host] s v5 := by
                        refine MovesAll.of_eq (has := hasSnd) e6 rfl ?_
                        exact MovesAll.step (Moves.refl _ s) (tlsCount_moves _ _ _ _ _ _ _) rfl
                      extract_lets -merge -useContext -underBinder y7 y8 y9
                      have hy7 : Moves [.out, .freeIx, .regs, .log, .ports, .tbl, .buf, .cry, .host] s y7 := by
                        unfold y7
                        refine Moves.step ?_ (countC_moves ..) rfl
                        refine Moves.step ?_ (countC_moves ..) rfl
                        exact Moves.step hv5 (countC_moves ..) rfl
                      clear_value y7
                      have hy8 : Moves [.out, .freeIx, .regs, .log, .ports, .tbl, .buf, .cry, .host] s y8 := by
                        unfold y8
                        refine Moves.ite ?_ ?_
                        ·
                          exact Moves.step hy7 (putHalf_moves ..) rfl
                        ·
                          exact Moves.step hy7 (tlsUnsync_moves ..) rfl
                      clear_value y8
                      clear_value y9
                      exact Moves.step hy8 (cryptoReturn_moves ..) rfl

theorem execTlsRxSegment_moves (a0 a1 a2 a3 s) : MovesAll hasNext [.out, .freeIx, .regs, .log, .cfg, .ports, .tbl, .buf, .cry, .flow, .host] s (execTlsRxSegment a0 a1 a2 a3 s) := by
  unfold execTlsRxSegment
  refine hasNext_onElem ?_
  split
  ·
    exact (Moves.refl _ s)
  ·
    rename_i v0 v1 e2
    have hv1 : Moves [.out, .freeIx, .regs, .log, .cfg, .ports, .tbl, .buf, .cry, .flow, .host] s v1 := by
      refine MovesAll.of_eq (has := hasOptSnd) e2 ⟨_, rfl⟩ ?_
      exact MovesAll.step (Moves.refl _ s) (takeTls_moves _ _ _) rfl
    refine Moves.step ?_ (retireIdle_moves ..) rfl
    exact Moves.step hv1 (tlsRx_moves ..) rfl

theorem wipe_moves (a0 s) : Moves [.out, .regs, .log, .host, .svc, .mem] s (wipe a0 s) := by
  unfold wipe
  extract_lets -merge -useContext -underBinder y0 y1
  clear_value y0
  clear_value y1
  split
  ·
    extract_lets -merge -useContext -underBinder y2 y3
    clear_value y2
    clear_value y3
    refine Moves.foldl ?_ (fun t4 x5 ht4 => ?_)
    ·
      exact (Moves.refl _ s)
    ·
      exact Moves.step ht4 (hostWrite_moves ..) rfl
  ·
    extract_lets -merge -useContext -underBinder y6
    clear_value y6
    refine Moves.foldl ?_ (fun t7 x8 ht7 => ?_)
    ·
      exact (Moves.refl _ s)
    ·
      exact Moves.step ht7 (memWrite_moves ..) rfl
  ·
    exact (Moves.refl _ s)

theorem importKey_moves (a0 a1 s) : MovesAll hasSnd [.freeIx, .regs, .log, .cry] s (importKey a0 a1 s) := by
  unfold importKey
  extract_lets -merge -useContext -underBinder y0 y1 y2 y3
  clear_value y0
  clear_value y1
  clear_value y2
  clear_value y3
  split
  ·
    refine hasSnd_mk ?_
    exact (Moves.refl _ s)
  ·
    refine MovesAll.ite ?_ ?_
    ·
      split
      ·
        rename_i v4 e5
        have hv4 : Moves [.freeIx, .regs, .log, .cry] s v4 := by
          refine MovesAll.of_eq (has := hasSnd) e5 rfl ?_
          exact MovesAll.step (Moves.refl _ s) (useKek_moves _ _) rfl
        refine hasSnd_mk ?_
        exact hv4
      ·
        rename_i v6 v7 e8
        have hv7 : Moves [.freeIx, .regs, .log, .cry] s v7 := by
          refine MovesAll.of_eq (has := hasSnd) e8 rfl ?_
          exact MovesAll.step (Moves.refl _ s) (useKek_moves _ _) rfl
        refine hasSnd_mk ?_
        exact hv7
    ·
      refine hasSnd_mk ?_
      exact (Moves.refl _ s)

theorem withKey_moves {l : List Part} (hb : ([.freeIx, .regs, .log, .cry] : List Part).all l.contains = true) {c : Cmd} {s : State} {f : KeyField}
    {done : Bytes → State → State} (h : ∀ y u, Moves l u (done y u)) : DoneMoves l s (withKey c f s done) := by
  unfold withKey
  split
  · rename_i e
    exact hasDone_reply ((importKey_moves _ _ _ _ (by rw [e]; rfl)).wider hb)
  · rename_i e
    exact hasDone_reply (Moves.step ((importKey_moves _ _ _ _ (by rw [e]; rfl)).wider hb) (h _ _) (all_self _))

theorem runKeyCmd_moves {l : List Part} {o : Op} {f : KeyField} {c : Cmd} {s : State} (h : ∀ c t, DoneMoves l t (o.body c t))
    (hb : ([.waiting, .out, .freeIx, .regs, .log, .cmd, .prot, .cry, .host, .svc, .mem] : List Part).all l.contains = true := by rfl) : Moves l s (runKeyCmd o f c s) := by
  have hz := Moves.refl l s
  have hr : ∀ c t, Moves l t (runCmd o c t) := fun c t => (runCmd_moves o c t (h c t)).wider (by
    rw [List.all_append, Bool.and_eq_true]; exact ⟨all_sub hb rfl, all_self l⟩)
  unfold runKeyCmd
  refine Moves.ite ((park_moves ..).wider (all_sub hb rfl)) ?_
  extract_lets -merge -useContext -underBinder t
  have ht : Moves l s t := by
    unfold t
    exact (wipe_moves ..).wider (all_sub hb rfl)
  clear_value t
  refine Moves.ite ?_ (Moves.step ht (hr ..) (all_self _))
  split
  · rename_i e
    exact Moves.step (Moves.step ht (importKey_moves _ _ _ _ (by rw [e]; rfl)) (all_sub hb rfl)) (answer_moves ..) (all_sub hb rfl)
  · rename_i e
    exact Moves.step (Moves.step ht (importKey_moves _ _ _ _ (by rw [e]; rfl)) (all_sub hb rfl)) (hr ..) (all_self _)

theorem opCryKekLoad_moves (c s) : DoneMoves [.freeIx, .regs, .log, .cry] s ((opCryKekLoad).body c s) := by
  unfold opCryKekLoad
  refine op_mk ?_
  extract_lets -merge -useContext -underBinder y0
  clear_value y0
  refine DoneMoves.ite ?_ ?_
  ·
    exact hasDone_refuse
  ·
    refine DoneMoves.ite ?_ ?_
    ·
      exact hasDone_refuse
    ·
      refine DoneMoves.step (m := [.freeIx, .regs, .log, .cry]) (Moves.refl _ s) (withKey_moves rfl (fun u1 u2 => ?_)) rfl
      exact Moves.step (Moves.refl _ u2) (cryMod_moves ..) rfl

theorem execCryKekLoad_moves (a0 s) : MovesAll hasNext [.waiting, .out, .freeIx, .regs, .log, .cmd, .prot, .cry, .host, .svc, .mem] s (execCryKekLoad a0 s) := by
  unfold execCryKekLoad
  exact hasNext_next (runKeyCmd_moves fun c t => DoneMoves.step (Moves.refl _ t) (opCryKekLoad_moves ..) rfl)

theorem putCak_moves (a0 a1 s) : Moves [.regs, .log, .ports, .cry] s (putCak a0 a1 s) := by
  unfold putCak
  refine Moves.step ?_ (mkaMod_moves ..) rfl
  refine Moves.step ?_ (mkaRestart_moves ..) rfl
  exact Moves.step (Moves.refl _ s) (secureLost_moves ..) rfl

theorem opCryCakSet_moves (c s) : DoneMoves [.freeIx, .regs, .log, .ports, .cry] s ((opCryCakSet).body c s) := by
  unfold opCryCakSet
  refine op_mk ?_
  extract_lets -merge -useContext -underBinder y0
  clear_value y0
  refine DoneMoves.ite ?_ ?_
  ·
    exact hasDone_refuse
  ·
    refine DoneMoves.ite ?_ ?_
    ·
      exact hasDone_refuse
    ·
      refine DoneMoves.step (m := [.freeIx, .regs, .log, .ports, .cry]) (Moves.refl _ s) (withKey_moves rfl (fun u1 u2 => ?_)) rfl
      refine Moves.foldl ?_ (fun t3 x4 ht3 => ?_)
      ·
        exact (Moves.refl _ u2)
      ·
        exact Moves.step ht3 (putCak_moves ..) rfl

theorem execCryCakSet_moves (a0 s) : MovesAll hasNext [.waiting, .out, .freeIx, .regs, .log, .cmd, .prot, .ports, .cry, .host, .svc, .mem] s (execCryCakSet a0 s) := by
  unfold execCryCakSet
  exact hasNext_next (runKeyCmd_moves fun c t => DoneMoves.step (Moves.refl _ t) (opCryCakSet_moves ..) rfl)

theorem opCryCakClear_moves (c s) : DoneMoves [.regs, .log, .ports, .cry] s ((opCryCakClear).body c s) := by
  unfold opCryCakClear
  refine op_mk ?_
  refine DoneMoves.ite ?_ ?_
  ·
    exact hasDone_refuse
  ·
    refine hasDone_reply ?_
    refine Moves.foldl ?_ (fun t0 x1 ht0 => ?_)
    ·
      exact (Moves.refl _ s)
    ·
      exact Moves.step ht0 (putCak_moves ..) rfl

theorem execCryCakClear_moves (a0 s) : MovesAll hasNext [.waiting, .out, .regs, .log, .cmd, .prot, .ports, .cry, .host, .svc] s (execCryCakClear a0 s) := by
  unfold execCryCakClear
  refine hasNext_next ?_
  exact Moves.step (Moves.refl _ s) (runCmd_moves _ _ _ (opCryCakClear_moves ..)) rfl

theorem opCryMkaRead_moves (c s) : DoneMoves [] s ((opCryMkaRead).body c s) := by
  unfold opCryMkaRead
  refine op_mk ?_
  extract_lets -merge -useContext -underBinder y0 y1
  clear_value y0
  clear_value y1
  refine DoneMoves.ite ?_ ?_
  ·
    exact hasDone_refuse
  ·
    refine hasDone_reply ?_
    exact (Moves.refl _ s)

theorem execCryMkaRead_moves (a0 s) : MovesAll hasNext [.waiting, .out, .regs, .log, .cmd, .prot, .host, .svc] s (execCryMkaRead a0 s) := by
  unfold execCryMkaRead
  refine hasNext_next ?_
  exact Moves.step (Moves.refl _ s) (runCmd_moves _ _ _ (opCryMkaRead_moves ..)) rfl

theorem opCryMkaRekey_moves (c s) : DoneMoves [.out, .freeIx, .regs, .log, .ports, .cry] s ((opCryMkaRekey).body c s) := by
  unfold opCryMkaRekey
  refine op_mk ?_
  extract_lets -merge -useContext -underBinder y0
  clear_value y0
  refine DoneMoves.ite ?_ ?_
  ·
    exact hasDone_refuse
  ·
    refine DoneMoves.ite ?_ ?_
    ·
      refine hasDone_reply ?_
      exact (Moves.refl _ s)
    ·
      refine hasDone_reply ?_
      refine Moves.ite ?_ ?_
      ·
        exact Moves.step (Moves.refl _ s) (distributeSak_moves ..) rfl
      ·
        exact Moves.step (Moves.refl _ s) (mkaSend_moves ..) rfl

theorem execCryMkaRekey_moves (a0 s) : MovesAll hasNext [.waiting, .out, .freeIx, .regs, .log, .cmd, .prot, .ports, .cry, .host, .svc] s (execCryMkaRekey a0 s) := by
  unfold execCryMkaRekey
  refine hasNext_next ?_
  exact Moves.step (Moves.refl _ s) (runCmd_moves _ _ _ (opCryMkaRekey_moves ..)) rfl

theorem opCrySaInstall_moves (a0) (c s) : DoneMoves [.freeIx, .regs, .log, .cry] s ((opCrySaInstall a0).body c s) := by
  unfold opCrySaInstall
  extract_lets -merge -useContext -underBinder src
  change DoneMoves _ s (src.body c s)
  unfold src
  refine op_mk ?_
  extract_lets -merge -useContext -underBinder y0 y1
  clear_value y0
  clear_value y1
  refine DoneMoves.ite ?_ ?_
  ·
    exact hasDone_refuse
  ·
    refine DoneMoves.ite ?_ ?_
    ·
      exact hasDone_refuse
    ·
      refine DoneMoves.ite ?_ ?_
      ·
        exact hasDone_refuse
      ·
        split
        ·
          exact hasDone_refuse
        ·
          refine DoneMoves.step (m := [.freeIx, .regs, .log, .cry]) (Moves.refl _ s) (withKey_moves rfl (fun u2 u3 => ?_)) rfl
          exact Moves.step (Moves.refl _ u3) (cryMod_moves ..) rfl

theorem execCrySaInstall_moves (a0 s) : MovesAll hasNext [.waiting, .out, .freeIx, .regs, .log, .cmd, .prot, .cry, .host, .svc, .mem] s (execCrySaInstall a0 s) := by
  unfold execCrySaInstall
  exact hasNext_next (runKeyCmd_moves fun c t => DoneMoves.step (Moves.refl _ t) (opCrySaInstall_moves ..) rfl)

theorem opCrySaRemove_moves (a0) (c s) : DoneMoves [.cry] s ((opCrySaRemove a0).body c s) := by
  unfold opCrySaRemove
  extract_lets -merge -useContext -underBinder src
  change DoneMoves _ s (src.body c s)
  unfold src
  refine op_mk ?_
  extract_lets -merge -useContext -underBinder y0
  clear_value y0
  refine DoneMoves.ite ?_ ?_
  ·
    exact hasDone_refuse
  ·
    refine DoneMoves.ite ?_ ?_
    ·
      exact hasDone_refuse
    ·
      refine hasDone_reply ?_
      exact Moves.step (Moves.refl _ s) (cryMod_moves ..) rfl

theorem execCrySaRemove_moves (a0 s) : MovesAll hasNext [.waiting, .out, .regs, .log, .cmd, .prot, .cry, .host, .svc] s (execCrySaRemove a0 s) := by
  unfold execCrySaRemove
  refine hasNext_next ?_
  exact Moves.step (Moves.refl _ s) (runCmd_moves _ _ _ (opCrySaRemove_moves ..)) rfl

theorem opCrySaRead_moves (c s) : DoneMoves [] s ((opCrySaRead).body c s) := by
  unfold opCrySaRead
  refine op_mk ?_
  refine DoneMoves.ite ?_ ?_
  ·
    exact hasDone_refuse
  ·
    split
    ·
      refine hasDone_reply ?_
      exact (Moves.refl _ s)
    ·
      refine hasDone_reply ?_
      exact (Moves.refl _ s)

theorem execCrySaRead_moves (a0 s) : MovesAll hasNext [.waiting, .out, .regs, .log, .cmd, .prot, .host, .svc] s (execCrySaRead a0 s) := by
  unfold execCrySaRead
  refine hasNext_next ?_
  exact Moves.step (Moves.refl _ s) (runCmd_moves _ _ _ (opCrySaRead_moves ..)) rfl

theorem opCryTlsInstall_moves (c s) : DoneMoves [.freeIx, .regs, .log, .cry] s ((opCryTlsInstall).body c s) := by
  unfold opCryTlsInstall
  refine op_mk ?_
  extract_lets -merge -useContext -underBinder y0
  clear_value y0
  refine DoneMoves.ite ?_ ?_
  ·
    exact hasDone_refuse
  ·
    refine DoneMoves.ite ?_ ?_
    ·
      exact hasDone_refuse
    ·
      split
      ·
        exact hasDone_refuse
      ·
        split
        ·
          exact hasDone_refuse
        ·
          refine DoneMoves.step (m := [.freeIx, .regs, .log, .cry]) (Moves.refl _ s) (withKey_moves rfl (fun u1 u2 => ?_)) rfl
          exact Moves.step (Moves.refl _ u2) (putHalf_moves ..) rfl

theorem execCryTlsInstall_moves (a0 s) : MovesAll hasNext [.waiting, .out, .freeIx, .regs, .log, .cmd, .prot, .cry, .host, .svc, .mem] s (execCryTlsInstall a0 s) := by
  unfold execCryTlsInstall
  exact hasNext_next (runKeyCmd_moves fun c t => DoneMoves.step (Moves.refl _ t) (opCryTlsInstall_moves ..) rfl)

theorem opCryTlsResync_moves (c s) : DoneMoves [.cry] s ((opCryTlsResync).body c s) := by
  unfold opCryTlsResync
  refine op_mk ?_
  refine DoneMoves.ite ?_ ?_
  ·
    exact hasDone_refuse
  ·
    split
    ·
      exact hasDone_refuse
    ·
      split
      ·
        exact hasDone_refuse
      ·
        refine hasDone_reply ?_
        exact Moves.step (Moves.refl _ s) (putHalf_moves ..) rfl

theorem execCryTlsResync_moves (a0 s) : MovesAll hasNext [.waiting, .out, .regs, .log, .cmd, .prot, .cry, .host, .svc] s (execCryTlsResync a0 s) := by
  unfold execCryTlsResync
  refine hasNext_next ?_
  exact Moves.step (Moves.refl _ s) (runCmd_moves _ _ _ (opCryTlsResync_moves ..)) rfl

theorem opCryTlsRemove_moves (c s) : DoneMoves [.cry] s ((opCryTlsRemove).body c s) := by
  unfold opCryTlsRemove
  refine op_mk ?_
  split
  ·
    exact hasDone_refuse
  ·
    extract_lets -merge -useContext -underBinder y0
    clear_value y0
    refine DoneMoves.ite ?_ ?_
    ·
      exact hasDone_refuse
    ·
      refine hasDone_reply ?_
      exact Moves.step (Moves.refl _ s) (cryMod_moves ..) rfl

theorem execCryTlsRemove_moves (a0 s) : MovesAll hasNext [.waiting, .out, .regs, .log, .cmd, .prot, .cry, .host, .svc] s (execCryTlsRemove a0 s) := by
  unfold execCryTlsRemove
  refine hasNext_next ?_
  exact Moves.step (Moves.refl _ s) (runCmd_moves _ _ _ (opCryTlsRemove_moves ..)) rfl

theorem opCryTlsRead_moves (c s) : DoneMoves [] s ((opCryTlsRead).body c s) := by
  unfold opCryTlsRead
  refine op_mk ?_
  refine DoneMoves.ite ?_ ?_
  ·
    exact hasDone_refuse
  ·
    split
    ·
      exact hasDone_refuse
    ·
      split
      ·
        refine hasDone_reply ?_
        exact (Moves.refl _ s)
      ·
        refine hasDone_reply ?_
        exact (Moves.refl _ s)

theorem execCryTlsRead_moves (a0 s) : MovesAll hasNext [.waiting, .out, .regs, .log, .cmd, .prot, .host, .svc] s (execCryTlsRead a0 s) := by
  unfold execCryTlsRead
  refine hasNext_next ?_
  exact Moves.step (Moves.refl _ s) (runCmd_moves _ _ _ (opCryTlsRead_moves ..)) rfl

theorem execChannelDelivery_moves (a0 a1 a2 a3 s) : MovesAll hasNext [.out, .regs, .log, .cfg, .ports, .tbl, .buf, .cry, .flow, .svc, .mem] s (execChannelDelivery a0 a1 a2 a3 s) := by
  unfold execChannelDelivery
  extract_lets -merge -useContext -underBinder y0
  clear_value y0
  refine hasNext_onElem ?_
  split
  ·
    exact (Moves.refl _ s)
  ·
    split
    ·
      extract_lets -merge -useContext -underBinder y1 y2
      have hy1 : Moves [.out, .regs, .log, .cfg, .ports, .tbl, .buf, .cry, .flow, .svc, .mem] s y1 := by
        unfold y1
        exact Moves.step (Moves.refl _ s) (queueSet_moves ..) rfl
      clear_value y1
      clear_value y2
      split
      ·
        extract_lets -merge -useContext -underBinder y3
        clear_value y3
        split
        ·
          rename_i v4 v5 e6
          have hv4 : Moves [.out, .regs, .log, .cfg, .ports, .tbl, .buf, .cry, .flow, .svc, .mem] s v4 := by
            refine MovesAll.of_eq (has := hasFst) e6 rfl ?_
            refine MovesAll.ite ?_ ?_
            ·
              refine hasFst_mk ?_
              exact hy1
            ·
              exact MovesAll.step hy1 (extItem_moves _ _ _ _ _ _ _) rfl
          extract_lets -merge -useContext -underBinder y7
          have hy7 : Moves [.out, .regs, .log, .cfg, .ports, .tbl, .buf, .cry, .flow, .svc, .mem] s y7 := by
            unfold y7
            split
            ·
              exact hv4
            ·
              exact Moves.step hv4 (countA_moves ..) rfl
          clear_value y7
          refine Moves.step ?_ (retireIdle_moves ..) rfl
          exact Moves.step hy7 (dropCopy_moves ..) rfl
    ·
      exact (Moves.refl _ s)

theorem bucketTake_moves (a0 a1 a2 a3 s) : Moves [.ports] s (bucketTake a0 a1 a2 a3 s) := by
  unfold bucketTake
  refine Moves.ite ?_ ?_
  ·
    exact (Moves.refl _ s)
  ·
    exact Moves.step (Moves.refl _ s) (portMod_moves ..) rfl

theorem egressDropped_moves (a0 a1 a2 a3 s) : Moves [.ports, .tbl] s (egressDropped a0 a1 a2 a3 s) := by
  unfold egressDropped
  extract_lets -merge -useContext -underBinder y0
  clear_value y0
  refine Moves.ite ?_ ?_
  ·
    exact (Moves.refl _ s)
  ·
    refine Moves.ite ?_ ?_
    ·
      exact Moves.step (Moves.refl _ s) (countQ_moves ..) rfl
    ·
      refine Moves.step ?_ (countQ_moves ..) rfl
      exact Moves.step (Moves.refl _ s) (countA_moves ..) rfl

theorem egressRewrite_moves (a0 a1 a2 a3 s) : MovesAll hasSnd [.out, .freeIx, .ports, .tbl, .buf, .cry, .host] s (egressRewrite a0 a1 a2 a3 s) := by
  unfold egressRewrite
  extract_lets -merge -useContext -underBinder y0
  clear_value y0
  split
  ·
    refine hasSnd_mk ?_
    exact (Moves.refl _ s)
  ·
    split
    ·
      refine hasSnd_mk ?_
      exact Moves.step (Moves.refl _ s) (countA_moves ..) rfl
    ·
      split
      ·
        rename_i v1 v2 e3
        have hv1 : Moves [.out, .freeIx, .ports, .tbl, .buf, .cry, .host] s v1 := by
          refine MovesAll.of_eq (has := hasFst) e3 rfl ?_
          refine MovesAll.stepRun ?_ (runPrims_moves _ _ _ _ _) rfl
          refine hasFst_mk ?_
          exact Moves.step (m := [.freeIx]) (Moves.refl _ s) (Moves.leafFree (by intro x hx; cases x <;> first | rfl | exact absurd (by decide) hx) rfl rfl (Nat.le_add_right _ _) rfl) rfl
        refine MovesAll.ite ?_ ?_
        ·
          refine hasSnd_mk ?_
          refine Moves.step ?_ (egressDropped_moves ..) rfl
          exact Moves.step hv1 (countPass_moves ..) rfl
        ·
          split
          ·
            rename_i v4 v5 e6
            have hv4 : Moves [.out, .freeIx, .ports, .tbl, .buf, .cry, .host] s v4 := by
              refine MovesAll.of_eq (has := hasFst) e6 rfl ?_
              exact MovesAll.step hv1 (editPass_moves _ _ _) rfl
            refine hasSnd_mk ?_
            exact Moves.step hv4 (countPass_moves ..) rfl

theorem ptpCorrect_moves (a0 a1 s) : MovesAll hasSnd [.ports] s (ptpCorrect a0 a1 s) := by
  unfold ptpCorrect
  extract_lets -merge -useContext -underBinder y0 y1
  clear_value y0
  clear_value y1
  refine MovesAll.ite ?_ ?_
  ·
    refine hasSnd_mk ?_
    exact (Moves.refl _ s)
  ·
    split
    ·
      refine hasSnd_mk ?_
      exact (Moves.refl _ s)
    ·
      extract_lets -merge -useContext -underBinder y2 y3 y4 y5 y6
      clear_value y2
      clear_value y3
      clear_value y4
      clear_value y5
      clear_value y6
      refine MovesAll.ite ?_ ?_
      ·
        refine hasSnd_mk ?_
        exact Moves.step (Moves.refl _ s) (portMod_moves ..) rfl
      ·
        refine hasSnd_mk ?_
        exact (Moves.refl _ s)

theorem macTransmit_moves (a0 a1 a2 a3 s) : Moves [.out, .freeIx, .regs, .log, .ports, .cry] s (macTransmit a0 a1 a2 a3 s) := by
  unfold macTransmit
  split
  ·
    rename_i v0 v1 e2
    have hv1 : Moves [.out, .freeIx, .regs, .log, .ports, .cry] s v1 := by
      refine MovesAll.of_eq (has := hasSnd) e2 rfl ?_
      exact MovesAll.step (Moves.refl _ s) (ptpCorrect_moves _ _ _) rfl
    extract_lets -merge -useContext -underBinder y3
    clear_value y3
    split
    ·
      exact Moves.step hv1 (countPort_moves ..) rfl
    ·
      extract_lets -merge -useContext -underBinder y4 y5
      clear_value y4
      clear_value y5
      split
      ·
        extract_lets -merge -useContext -underBinder y6 y7 y8
        have hy6 : Moves [.out, .freeIx, .regs, .log, .ports, .cry] s y6 := by
          unfold y6
          refine Moves.ite ?_ ?_
          ·
            exact Moves.step hv1 (countPort_moves ..) rfl
          ·
            exact hv1
        clear_value y6
        have hy7 : Moves [.out, .freeIx, .regs, .log, .ports, .cry] s y7 := by
          unfold y7
          exact Moves.step hy6 (secureSend_moves ..) rfl
        clear_value y7
        clear_value y8
        refine Moves.ite ?_ ?_
        ·
          exact hy7
        ·
          refine Moves.step ?_ (countQ_moves ..) rfl
          exact Moves.step hy7 (countQ_moves ..) rfl

theorem sendCopy_moves (a0 a1 a2 a3 a4 s) : Moves [.out, .freeIx, .regs, .log, .ports, .tbl, .buf, .cry, .host] s (sendCopy a0 a1 a2 a3 a4 s) := by
  unfold sendCopy
  refine Moves.ite ?_ ?_
  ·
    refine Moves.ite ?_ ?_
    ·
      exact Moves.step (Moves.refl _ s) (secCount_moves ..) rfl
    ·
      exact Moves.step (Moves.refl _ s) (countPort_moves ..) rfl
  ·
    refine Moves.ite ?_ ?_
    ·
      refine Moves.step ?_ (countPort_moves ..) rfl
      exact Moves.step (Moves.refl _ s) (sakFault_moves ..) rfl
    ·
      refine Moves.ite ?_ ?_
      ·
        exact Moves.step (Moves.refl _ s) (countQ_moves ..) rfl
      ·
        split
        ·
          rename_i v0 v1 e2
          have hv1 : Moves [.out, .freeIx, .regs, .log, .ports, .tbl, .buf, .cry, .host] s v1 := by
            refine MovesAll.of_eq (has := hasSnd) e2 rfl ?_
            exact MovesAll.step (Moves.refl _ s) (egressRewrite_moves _ _ _ _ _) rfl
          split
          ·
            exact hv1
          ·
            extract_lets -merge -useContext -underBinder y3 y4
            clear_value y3
            have hy4 : Moves [.out, .freeIx, .regs, .log, .ports, .tbl, .buf, .cry, .host] s y4 := by
              unfold y4
              refine Moves.step ?_ (bucketTake_moves ..) rfl
              exact Moves.step hv1 (bucketTake_moves ..) rfl
            clear_value y4
            exact Moves.step hy4 (macTransmit_moves ..) rfl

theorem portDequeue_moves (a0 a1 s) : Moves [.out, .freeIx, .regs, .log, .cfg, .ports, .tbl, .buf, .cry, .flow, .host] s (portDequeue a0 a1 s) := by
  unfold portDequeue
  split
  ·
    exact (Moves.refl _ s)
  ·
    extract_lets -merge -useContext -underBinder y0 y1 y2
    have hy0 : Moves [.out, .freeIx, .regs, .log, .cfg, .ports, .tbl, .buf, .cry, .flow, .host] s y0 := by
      unfold y0
      exact Moves.step (Moves.refl _ s) (queueSet_moves ..) rfl
    clear_value y0
    clear_value y1
    have hy2 : Moves [.out, .freeIx, .regs, .log, .cfg, .ports, .tbl, .buf, .cry, .flow, .host] s y2 := by
      unfold y2
      exact Moves.step hy0 (portMod_moves ..) rfl
    clear_value y2
    refine Moves.step ?_ (retireIdle_moves ..) rfl
    refine Moves.step ?_ (dropCopy_moves ..) rfl
    exact Moves.step hy2 (sendCopy_moves ..) rfl

theorem twinDequeue_moves (a0 s) : Moves [.out, .regs, .log, .cfg, .twin, .ports, .tbl, .buf, .cry, .flow] s (twinDequeue a0 s) := by
  unfold twinDequeue
  extract_lets -merge -useContext -underBinder y0
  clear_value y0
  split
  ·
    exact (Moves.refl _ s)
  ·
    extract_lets -merge -useContext -underBinder y1
    have hy1 : Moves [.out, .regs, .log, .cfg, .twin, .ports, .tbl, .buf, .cry, .flow] s y1 := by
      unfold y1
      exact Moves.step (Moves.refl _ s) (queueSet_moves ..) rfl
    clear_value y1
    split
    ·
      extract_lets -merge -useContext -underBinder y2 y3
      clear_value y2
      have hy3 : Moves [.out, .regs, .log, .cfg, .twin, .ports, .tbl, .buf, .cry, .flow] s y3 := by
        unfold y3
        refine Moves.ite ?_ ?_
        ·
          exact Moves.step hy1 (countCfg_moves ..) rfl
        ·
          refine Moves.ite ?_ ?_
          ·
            refine Moves.step ?_ (emit_moves ..) rfl
            exact Moves.step hy1 (countA_moves ..) rfl
          ·
            exact Moves.step hy1 (countTwin_moves ..) rfl
      clear_value y3
      refine Moves.step ?_ (retireIdle_moves ..) rfl
      exact Moves.step hy3 (dropCopy_moves ..) rfl
    ·
      exact hy1

theorem execEgressDequeue_moves (a0 a1 s) : MovesAll hasNext [.out, .freeIx, .regs, .log, .cfg, .twin, .ports, .tbl, .buf, .cry, .flow, .host] s (execEgressDequeue a0 a1 s) := by
  unfold execEgressDequeue
  refine MovesAll.ite ?_ ?_
  ·
    refine hasNext_onElem ?_
    refine Moves.ite ?_ ?_
    ·
      exact (Moves.refl _ s)
    ·
      exact Moves.step (Moves.refl _ s) (portDequeue_moves ..) rfl
  ·
    refine hasNext_onElem ?_
    exact Moves.step (Moves.refl _ s) (twinDequeue_moves ..) rfl

theorem execTwinPacketReceived_moves (a0 a1 a2 a3 a4 s) : MovesAll hasNext [.out, .freeIx, .ports, .tbl, .buf, .cry, .host] s (execTwinPacketReceived a0 a1 a2 a3 a4 s) := by
  unfold execTwinPacketReceived
  refine hasNext_onElem ?_
  refine Moves.ite ?_ ?_
  ·
    exact (Moves.refl _ s)
  ·
    refine Moves.ite ?_ ?_
    ·
      exact Moves.step (Moves.refl _ s) (countA_moves ..) rfl
    ·
      split
      ·
        rename_i v0 v1 e2
        have hv1 : Moves [.out, .freeIx, .ports, .tbl, .buf, .cry, .host] s v1 := by
          refine MovesAll.of_eq (has := hasSnd) e2 rfl ?_
          exact MovesAll.step (Moves.refl _ s) (drawFree_moves _) rfl
        extract_lets -merge -useContext -underBinder y3 y4
        clear_value y3
        clear_value y4
        refine Moves.ite ?_ ?_
        ·
          exact Moves.step hv1 (countA_moves ..) rfl
        ·
          refine MovesAll.get_snd ?_
          refine MovesAll.step ?_ (enqueue_moves _ _ _ _ _ _) rfl
          exact Moves.step hv1 (countA_moves ..) rfl

end Sys2Proof.Machine
end

