-- ==== Sys2Proof/Laws/Moves8.lean ====
section
/-! SUPPORT. What the operations of Machine/Flows, HostPackets, MacRx, Spares, StoCmds, Sys, TimeLog, Dispatch may change: one lemma `<operation>_moves` per operation. -/

set_option Elab.async false

namespace Sys2Proof.Machine

theorem sweepVisit_moves (a0 s) : Moves [.regs, .log, .tbl, .flow, .svc, .mem] s (sweepVisit a0 s) := by
  unfold sweepVisit
  extract_lets -merge -useContext -underBinder y0
  have hy0 : Moves [.regs, .log, .tbl, .flow, .svc, .mem] s y0 := by
    unfold y0
    split
    ·
      refine Moves.ite ?_ ?_
      ·
        exact Moves.step (Moves.refl _ s) (readFlow_moves ..) rfl
      ·
        exact (Moves.refl _ s)
    ·
      exact (Moves.refl _ s)
  clear_value y0
  split
  ·
    exact hy0
  ·
    refine Moves.ite ?_ ?_
    ·
      refine Moves.step ?_ (removeFlows_moves ..) rfl
      exact Moves.step hy0 (countF_moves ..) rfl
    ·
      exact hy0

theorem execFlowIdleSweep_moves (a0 s) : MovesAll hasNext [.regs, .log, .tbl, .flow, .svc, .mem] s (execFlowIdleSweep a0 s) := by
  unfold execFlowIdleSweep
  extract_lets -merge -useContext -underBinder y0 y1
  clear_value y0
  have hy1 : Moves [.regs, .log, .tbl, .flow, .svc, .mem] s y1 := by
    unfold y1
    exact Moves.step (Moves.refl _ s) (flowMod_moves ..) rfl
  clear_value y1
  refine hasNext_onElem ?_
  refine Moves.ite ?_ ?_
  ·
    exact (Moves.refl _ s)
  ·
    refine Moves.foldl ?_ (fun t2 x3 ht2 => ?_)
    ·
      exact hy1
    ·
      exact Moves.step ht2 (sweepVisit_moves ..) rfl

theorem execFlowWriteBack_moves (a0 s) : MovesAll hasNext [.flow, .mem] s (execFlowWriteBack a0 s) := by
  unfold execFlowWriteBack
  refine hasNext_onElem ?_
  refine Moves.foldl ?_ (fun t0 x1 ht0 => ?_)
  ·
    exact (Moves.refl _ s)
  ·
    exact Moves.step ht0 (writeFlow_moves ..) rfl

theorem linkPair_moves (a0 s) : Moves [.flow] s (linkPair a0 s) := by
  unfold linkPair
  split
  ·
    refine Moves.step ?_ (flowPut_moves ..) rfl
    exact Moves.step (Moves.refl _ s) (flowPut_moves ..) rfl
  ·
    exact Moves.step (Moves.refl _ s) (flowPut_moves ..) rfl
  ·
    exact (Moves.refl _ s)

theorem mergeFlow_moves (a0 a1 a2 s) : Moves [.regs, .log, .flow] s (mergeFlow a0 a1 a2 s) := by
  unfold mergeFlow
  extract_lets -merge -useContext -underBinder y0 y1 y2 y3 y4
  clear_value y0
  clear_value y1
  clear_value y2
  have hy3 : Moves [.regs, .log, .flow] s y3 := by
    unfold y3
    refine Moves.ite ?_ ?_
    ·
      exact (Moves.refl _ s)
    ·
      refine Moves.step ?_ (flowLoadEvents_moves ..) rfl
      exact Moves.step (Moves.refl _ s) (flowMod_moves ..) rfl
  clear_value y3
  have hy4 : Moves [.regs, .log, .flow] s y4 := by
    unfold y4
    exact Moves.step hy3 (flowPut_moves ..) rfl
  clear_value y4
  refine Moves.ite ?_ ?_
  ·
    exact Moves.step (Moves.refl _ s) (flowPut_moves ..) rfl
  ·
    refine Moves.ite ?_ ?_
    ·
      exact Moves.step (Moves.refl _ s) (flowPut_moves ..) rfl
    ·
      refine Moves.ite ?_ ?_
      ·
        exact (Moves.refl _ s)
      ·
        refine Moves.ite ?_ ?_
        ·
          exact hy4
        ·
          exact Moves.step hy4 (linkPair_moves ..) rfl

theorem execFlowDeltaMerge_moves (a0 a1 s) : MovesAll hasNext [.regs, .log, .tbl, .flow, .svc, .mem] s (execFlowDeltaMerge a0 a1 s) := by
  unfold execFlowDeltaMerge
  extract_lets -merge -useContext -underBinder y0 y1
  clear_value y0
  have hy1 : Moves [.regs, .log, .tbl, .flow, .svc, .mem] s y1 := by
    unfold y1
    exact Moves.step (Moves.refl _ s) (readFlow_moves ..) rfl
  clear_value y1
  refine hasNext_next ?_
  refine Moves.ite ?_ ?_
  ·
    exact (Moves.refl _ s)
  ·
    split
    ·
      refine Moves.ite ?_ ?_
      ·
        exact Moves.step hy1 (removeFlow_moves ..) rfl
      ·
        exact Moves.step hy1 (mergeFlow_moves ..) rfl
    ·
      refine Moves.ite ?_ ?_
      ·
        exact hy1
      ·
        split
        ·
          exact hy1
        ·
          rename_i v2 v3 e4
          have hv2 : Moves [.regs, .log, .tbl, .flow, .svc, .mem] s v2 := by
            refine MovesAll.of_eq (has := hasOptFst) e4 ⟨_, rfl⟩ ?_
            exact MovesAll.step hy1 (flowInsert_moves _ _) rfl
          refine Moves.ite ?_ ?_
          ·
            exact hv2
          ·
            exact Moves.step hv2 (linkPair_moves ..) rfl

theorem execFlowTwinLag_moves (a0 s) : MovesAll hasNext [.regs, .log, .flow] s (execFlowTwinLag a0 s) := by
  unfold execFlowTwinLag
  refine hasNext_next ?_
  refine Moves.ite ?_ ?_
  ·
    refine Moves.step ?_ (raise_moves ..) rfl
    exact Moves.step (Moves.refl _ s) (flowMod_moves ..) rfl
  ·
    exact (Moves.refl _ s)

theorem execFlowTwinResyncDone_moves (s) : MovesAll hasNext [.out, .freeIx, .regs, .log, .twin, .ports, .tbl, .cry, .flow] s (execFlowTwinResyncDone s) := by
  unfold execFlowTwinResyncDone
  extract_lets -merge -useContext -underBinder y0 y1 y2
  clear_value y0
  have hy1 : Moves [.out, .freeIx, .regs, .log, .twin, .ports, .tbl, .cry, .flow] s y1 := by
    unfold y1
    exact Moves.step (Moves.refl _ s) (emitAll_moves ..) rfl
  clear_value y1
  have hy2 : Moves [.out, .freeIx, .regs, .log, .twin, .ports, .tbl, .cry, .flow] s y2 := by
    unfold y2
    exact Moves.step hy1 (flowMod_moves ..) rfl
  clear_value y2
  refine hasNext_next ?_
  refine Moves.ite ?_ ?_
  ·
    exact (Moves.refl _ s)
  ·
    refine Moves.step ?_ (joinDone_moves ..) rfl
    exact Moves.step hy2 (raise_moves ..) rfl

theorem onFlow_moves {l : List Part} (c : Cmd) (s : State) (act : Flow → State → Done) (h : ∀ x t, DoneMoves l t (act x t))
    (hb : ([.regs, .log, .tbl, .flow, .svc, .mem] : List Part).all l.contains = true := by rfl) : DoneMoves l s (onFlow c s act) := by
  unfold onFlow
  extract_lets -merge -useContext -underBinder key
  clear_value key
  refine DoneMoves.ite hasDone_refuse ?_
  split
  · exact hasDone_refuse
  · extract_lets -merge -useContext -underBinder t
    have ht : Moves l s t := by
      unfold t
      exact (readFlow_moves ..).wider hb
    clear_value t
    split
    · exact hasDone_reply ht
    · exact DoneMoves.step ht (h _ _) (all_self _)

theorem opFlowInsert_moves (c s) : DoneMoves [.regs, .log, .flow, .mem] s ((opFlowInsert).body c s) := by
  unfold opFlowInsert
  extract_lets -merge -useContext -underBinder src
  change DoneMoves _ s (src.body c s)
  unfold src
  refine op_mk ?_
  extract_lets -merge -useContext -underBinder y0
  clear_value y0
  split
  ·
    extract_lets -merge -useContext -underBinder y1 y2
    clear_value y1
    clear_value y2
    refine DoneMoves.ite ?_ ?_
    ·
      exact hasDone_refuse
    ·
      refine DoneMoves.ite ?_ ?_
      ·
        exact hasDone_refuse
      ·
        split
        ·
          exact hasDone_refuse
        ·
          extract_lets -merge -useContext -underBinder y3
          have hy3 : MovesAll hasOptFst [.regs, .log, .flow, .mem] s y3 := by
            unfold y3
            refine MovesAll.ite ?_ ?_
            ·
              exact MovesAll.step (Moves.refl _ s) (insertPair_moves _ _ _ _ _) rfl
            ·
              exact MovesAll.step (Moves.refl _ s) (flowInsert_moves _ _) rfl
          clear_value y3
          refine DoneMoves.ite ?_ ?_
          ·
            exact hasDone_refuse
          ·
            revert hy3
            rcases y3 with _ | ⟨v4, v5⟩ <;> intro hy3
            · exact hasDone_refuse
            · have hv4 : Moves [.regs, .log, .flow, .mem] s v4 := hy3 _ ⟨_, rfl⟩
              dsimp -zeta only
              extract_lets -merge -useContext -underBinder y7 y8
              clear_value y7
              have hy8 : Moves [.regs, .log, .flow, .mem] s y8 := by
                refine Moves.ite (Moves.foldl hv4 fun t9 x10 ht9 => ?_) hv4
                split
                · exact Moves.step ht9 (flowDelta_moves ..) rfl
                · exact ht9
              clear_value y8
              exact hasDone_reply hy8

theorem execFlowInsert_moves (a0 s) : MovesAll hasNext [.waiting, .out, .regs, .log, .cmd, .prot, .flow, .host, .svc, .mem] s (execFlowInsert a0 s) := by
  unfold execFlowInsert
  refine hasNext_next ?_
  exact Moves.step (Moves.refl _ s) (runCmd_moves _ _ _ (opFlowInsert_moves ..)) rfl

theorem opFlowDelete_moves (c s) : DoneMoves [.regs, .log, .tbl, .flow, .svc, .mem] s ((opFlowDelete).body c s) := by
  unfold opFlowDelete
  extract_lets -merge -useContext -underBinder src
  change DoneMoves _ s (src.body c s)
  unfold src
  refine op_mk ?_
  exact onFlow_moves _ _ _ fun x t => hasDone_reply (Moves.step (Moves.refl _ t) (removeFlow_moves ..) rfl)

theorem execFlowDelete_moves (a0 s) : MovesAll hasNext [.waiting, .out, .regs, .log, .cmd, .prot, .tbl, .flow, .host, .svc, .mem] s (execFlowDelete a0 s) := by
  unfold execFlowDelete
  refine hasNext_next ?_
  exact Moves.step (Moves.refl _ s) (runCmd_moves _ _ _ (opFlowDelete_moves ..)) rfl

theorem opFlowRead_moves (c s) : DoneMoves [.regs, .log, .tbl, .flow, .svc, .mem] s ((opFlowRead).body c s) := by
  unfold opFlowRead
  refine op_mk (DoneMoves.ite hasDone_refuse (onFlow_moves _ _ _ fun x t => ?_))
  split
  split <;> exact hasDone_reply (Moves.refl _ t)

theorem execFlowRead_moves (a0 s) : MovesAll hasNext [.waiting, .out, .regs, .log, .cmd, .prot, .tbl, .flow, .host, .svc, .mem] s (execFlowRead a0 s) := by
  unfold execFlowRead
  refine hasNext_next ?_
  exact Moves.step (Moves.refl _ s) (runCmd_moves _ _ _ (opFlowRead_moves ..)) rfl

theorem opFlowModify_moves (c s) : DoneMoves [.regs, .log, .tbl, .flow, .svc, .mem] s ((opFlowModify).body c s) := by
  unfold opFlowModify
  extract_lets -merge -useContext -underBinder src
  change DoneMoves _ s (src.body c s)
  unfold src
  refine op_mk ?_
  extract_lets -merge -useContext -underBinder y0
  clear_value y0
  refine DoneMoves.ite hasDone_refuse (DoneMoves.ite hasDone_refuse (onFlow_moves _ _ _ fun x t => ?_))
  have hp : ∀ f, Moves [.regs, .log, .tbl, .flow, .svc, .mem] t (flowPut f t) := fun f => Moves.step (Moves.refl _ t) (flowPut_moves ..) rfl
  exact hasDone_reply (Moves.ite (Moves.step (hp _) (flowDelta_moves ..) rfl) (hp _))

theorem execFlowModify_moves (a0 s) : MovesAll hasNext [.waiting, .out, .regs, .log, .cmd, .prot, .tbl, .flow, .host, .svc, .mem] s (execFlowModify a0 s) := by
  unfold execFlowModify
  refine hasNext_next ?_
  exact Moves.step (Moves.refl _ s) (runCmd_moves _ _ _ (opFlowModify_moves ..)) rfl

theorem opFlowFlush_moves (c s) : DoneMoves [.flow] s ((opFlowFlush).body c s) := by
  unfold opFlowFlush
  refine op_mk ?_
  refine DoneMoves.ite ?_ ?_
  ·
    exact hasDone_refuse
  ·
    refine DoneMoves.ite ?_ ?_
    ·
      exact hasDone_refuse
    ·
      refine DoneMoves.ite ?_ ?_
      ·
        exact hasDone_refuse
      ·
        refine hasDone_accept ?_ (fun u => Moves.refl _ u)
        exact Moves.step (Moves.refl _ s) (flowMod_moves ..) rfl

theorem execFlowFlush_moves (a0 s) : MovesAll hasNext [.waiting, .out, .regs, .log, .cmd, .prot, .flow, .host, .svc] s (execFlowFlush a0 s) := by
  unfold execFlowFlush
  refine hasNext_next ?_
  exact Moves.step (Moves.refl _ s) (runCmd_moves _ _ _ (opFlowFlush_moves ..)) rfl

theorem execFlowFlushComplete_moves (s) : MovesAll hasNext [.out, .regs, .log, .cmd, .tbl, .flow, .host, .svc, .mem] s (execFlowFlushComplete s) := by
  unfold execFlowFlushComplete
  refine hasNext_next ?_
  split
  ·
    exact (Moves.refl _ s)
  ·
    extract_lets -merge -useContext -underBinder y0 y1 y2
    clear_value y0
    clear_value y1
    have hy2 : Moves [.out, .regs, .log, .cmd, .tbl, .flow, .host, .svc, .mem] s y2 := by
      unfold y2
      refine Moves.foldl ?_ (fun t3 x4 ht3 => ?_)
      ·
        exact Moves.step (Moves.refl _ s) (flowMod_moves ..) rfl
      ·
        exact Moves.step ht3 (removeFlow_moves ..) rfl
    clear_value y2
    exact Moves.step hy2 (finishKey_moves ..) rfl

theorem inject_moves (a0 a1 a2 a3 a4 s) : Moves [.buf] s (inject a0 a1 a2 a3 a4 s) := by
  unfold inject
  extract_lets -merge -useContext -underBinder y0 y1
  clear_value y0
  clear_value y1
  refine Moves.ite ?_ ?_
  ·
    exact (Moves.refl _ s)
  ·
    exact Moves.step (m := [.buf]) (Moves.refl _ s) (Moves.leaf (by intro x hx; cases x <;> first | rfl | exact absurd (by decide) hx) rfl rfl rfl rfl) rfl

theorem txDone_moves (a0 a1 a2 a3 a4 s) : Moves [.out, .regs, .log, .host] s (txDone a0 a1 a2 a3 a4 s) := by
  unfold txDone
  extract_lets -merge -useContext -underBinder y0 y1 y2
  clear_value y0
  clear_value y1
  have hy2 : Moves [.out, .regs, .log, .host] s y2 := by
    unfold y2
    exact Moves.step (Moves.refl _ s) (qpMod_moves ..) rfl
  clear_value y2
  exact Moves.step hy2 (writeCompletion_moves ..) rfl

theorem execHostTxFetch_moves (a0 a1 a2 a3 s) : MovesAll hasNext [.out, .regs, .log, .buf, .host] s (execHostTxFetch a0 a1 a2 a3 s) := by
  unfold execHostTxFetch
  extract_lets -merge -useContext -underBinder y0 y1 y2 y3 y4 y5 y6 y7
  clear_value y0
  clear_value y1
  have hy2 : Moves [.out, .regs, .log, .buf, .host] s y2 := by
    unfold y2
    exact Moves.step (Moves.refl _ s) (funcMod_moves ..) rfl
  clear_value y2
  clear_value y3
  clear_value y4
  clear_value y5
  clear_value y6
  have hy7 : Moves [.out, .regs, .log, .buf, .host] s y7 := by
    unfold y7
    exact Moves.step hy2 (inject_moves ..) rfl
  clear_value y7
  refine hasNext_onElem ?_
  refine Moves.ite ?_ ?_
  ·
    exact (Moves.refl _ s)
  ·
    refine Moves.ite ?_ ?_
    ·
      refine Moves.step ?_ (qpError_moves ..) rfl
      exact Moves.step hy2 (txDone_moves ..) rfl
    ·
      refine Moves.ite ?_ ?_
      ·
        exact hy2
      ·
        refine Moves.ite ?_ ?_
        ·
          refine Moves.step ?_ (qpFetch_moves ..) rfl
          exact Moves.step hy2 (txDone_moves ..) rfl
        ·
          refine Moves.step ?_ (qpFetch_moves ..) rfl
          refine Moves.step ?_ (txDone_moves ..) rfl
          refine Moves.step ?_ (countQp_moves ..) rfl
          exact Moves.step hy7 (countQp_moves ..) rfl

theorem rxFill_moves (q a0 a1 a2 s) : Moves [.out, .regs, .log, .host] s (rxFill q a0 a1 a2 s) := by
  induction a1 generalizing a2 s with
  | nil => exact Moves.refl _ s
  | cons c r ih =>
    unfold rxFill
    exact Moves.step (Moves.step (Moves.refl _ s) (hostWriteAs_moves ..) rfl) (ih _ _) rfl

theorem rxDeliver_moves (a0 a1 a2 a3 s) : Moves [.out, .regs, .log, .host] s (rxDeliver a0 a1 a2 a3 s) := by
  unfold rxDeliver
  extract_lets -merge -useContext -underBinder y0 y1 y2 y3 y4
  clear_value y0
  clear_value y1
  clear_value y2
  clear_value y3
  clear_value y4
  refine Moves.ite ?_ ?_
  ·
    exact Moves.step (Moves.refl _ s) (countQp_moves ..) rfl
  ·
    split
    ·
      extract_lets -merge -useContext -underBinder y5 y6 y7
      clear_value y5
      have hy6 : Moves [.out, .regs, .log, .host] s y6 := by
        unfold y6
        exact Moves.step (Moves.refl _ s) (rxFill_moves ..) rfl
      clear_value y6
      have hy7 : Moves [.out, .regs, .log, .host] s y7 := by
        unfold y7
        exact Moves.step hy6 (qpMod_moves ..) rfl
      clear_value y7
      split
      ·
        extract_lets -merge -useContext -underBinder y8
        clear_value y8
        refine Moves.step ?_ (writeCompletion_moves ..) rfl
        refine Moves.step ?_ (countQp_moves ..) rfl
        exact Moves.step hy7 (countQp_moves ..) rfl
    ·
      extract_lets -merge -useContext -underBinder y9 y10
      have hy9 : Moves [.out, .regs, .log, .host] s y9 := by
        unfold y9
        exact Moves.step (Moves.refl _ s) (qpMod_moves ..) rfl
      clear_value y9
      have hy10 : Moves [.out, .regs, .log, .host] s y10 := by
        unfold y10
        exact Moves.step hy9 (writeCompletion_moves ..) rfl
      clear_value y10
      refine Moves.ite ?_ ?_
      ·
        exact Moves.step hy10 (qpError_moves ..) rfl
      ·
        refine Moves.ite ?_ ?_
        ·
          exact Moves.step (Moves.refl _ s) (countQp_moves ..) rfl
        ·
          exact Moves.step (Moves.refl _ s) (countQp_moves ..) rfl

theorem execHostRxDelivery_moves (a0 a1 a2 a3 a4 s) : MovesAll hasNext [.out, .regs, .log, .cfg, .ports, .tbl, .buf, .cry, .flow, .host] s (execHostRxDelivery a0 a1 a2 a3 a4 s) := by
  unfold execHostRxDelivery
  extract_lets -merge -useContext -underBinder y0
  clear_value y0
  refine hasNext_onElem ?_
  split
  ·
    exact (Moves.refl _ s)
  ·
    split
    ·
      extract_lets -merge -useContext -underBinder y1 y2 y3 y4
      clear_value y1
      have hy2 : Moves [.out, .regs, .log, .cfg, .ports, .tbl, .buf, .cry, .flow, .host] s y2 := by
        unfold y2
        exact Moves.step (Moves.refl _ s) (backlogWidens_moves ..) rfl
      clear_value y2
      have hy3 : Moves [.out, .regs, .log, .cfg, .ports, .tbl, .buf, .cry, .flow, .host] s y3 := by
        unfold y3
        exact Moves.step hy2 (queueSet_moves ..) rfl
      clear_value y3
      have hy4 : Moves [.out, .regs, .log, .cfg, .ports, .tbl, .buf, .cry, .flow, .host] s y4 := by
        unfold y4
        refine Moves.ite ?_ ?_
        ·
          exact hy3
        ·
          refine Moves.ite ?_ ?_
          ·
            exact Moves.step hy3 (countQp_moves ..) rfl
          ·
            refine Moves.ite ?_ ?_
            ·
              exact Moves.step hy3 (countQp_moves ..) rfl
            ·
              exact Moves.step hy3 (rxDeliver_moves ..) rfl
      clear_value y4
      refine Moves.step ?_ (retireIdle_moves ..) rfl
      exact Moves.step hy4 (dropCopy_moves ..) rfl
    ·
      exact (Moves.refl _ s)

theorem headroomDrop_moves (a0 a1 s) : Moves [.regs, .log, .ports] s (headroomDrop a0 a1 s) := by
  unfold headroomDrop
  extract_lets -merge -useContext -underBinder y0 y1 y2 y3
  clear_value y0
  clear_value y1
  clear_value y2
  have hy3 : Moves [.regs, .log, .ports] s y3 := by
    unfold y3
    refine Moves.step ?_ (countPort_moves ..) rfl
    exact Moves.step (Moves.refl _ s) (portMod_moves ..) rfl
  clear_value y3
  refine Moves.ite ?_ ?_
  ·
    exact Moves.step hy3 (raise_moves ..) rfl
  ·
    exact hy3

theorem rxData_moves (a0 a1 a2 s) : Moves [.out, .regs, .log, .twin, .ports, .buf, .cry] s (rxData a0 a1 a2 s) := by
  unfold rxData
  extract_lets -merge -useContext -underBinder y0 y1
  clear_value y0
  clear_value y1
  refine Moves.ite ?_ ?_
  ·
    exact Moves.step (Moves.refl _ s) (countTwin_moves ..) rfl
  ·
    split
    ·
      extract_lets -merge -useContext -underBinder y2
      clear_value y2
      split
      ·
        extract_lets -merge -useContext -underBinder y3 y4 y5 y6 y7
        have hy3 : Moves [.out, .regs, .log, .twin, .ports, .buf, .cry] s y3 := by
          unfold y3
          refine Moves.ite ?_ ?_
          ·
            exact Moves.step (Moves.refl _ s) (countPort_moves ..) rfl
          ·
            exact (Moves.refl _ s)
        clear_value y3
        clear_value y4
        have hy5 : Moves [.out, .regs, .log, .twin, .ports, .buf, .cry] s y5 := by
          unfold y5
          refine Moves.ite ?_ ?_
          ·
            exact Moves.step hy3 (countPort_moves ..) rfl
          ·
            exact hy3
        clear_value y5
        clear_value y6
        clear_value y7
        refine Moves.ite ?_ ?_
        ·
          exact hy3
        ·
          split
          ·
            exact Moves.step hy5 (headroomDrop_moves ..) rfl
          ·
            extract_lets -merge -useContext -underBinder y8 y9 y10
            clear_value y8
            have hy9 : Moves [.out, .regs, .log, .twin, .ports, .buf, .cry] s y9 := by
              unfold y9
              refine Moves.step ?_ (fcCheck_moves ..) rfl
              exact Moves.step hy5 (useAdd_moves ..) rfl
            clear_value y9
            clear_value y10
            exact Moves.step (m := [.buf]) hy9 (Moves.leaf (by intro x hx; cases x <;> first | rfl | exact absurd (by decide) hx) rfl rfl rfl rfl) rfl

theorem rxControlled_moves (a0 a1 a2 s) : Moves [.out, .regs, .log, .twin, .ports, .buf, .cry] s (rxControlled a0 a1 a2 s) := by
  unfold rxControlled
  refine Moves.ite ?_ ?_
  ·
    exact (Moves.refl _ s)
  ·
    exact Moves.step (Moves.refl _ s) (rxData_moves ..) rfl

theorem rxAccepted_moves (a0 a1 a2 a3 a4 s) : Moves [.out, .regs, .log, .twin, .ports, .tbl, .buf, .cry] s (rxAccepted a0 a1 a2 a3 a4 s) := by
  unfold rxAccepted
  split
  · exact Moves.ite (Moves.step (Moves.refl _ s) (pfcReceived_moves ..) rfl)
      (Moves.ite (Moves.step (Moves.refl _ s) (pauseReceived_moves ..) rfl) (Moves.refl _ s))
  · exact Moves.step (Moves.refl _ s) (lldpReceived_moves ..) rfl
  · exact (Moves.refl _ s)
  · refine Moves.ite (Moves.step (Moves.refl _ s) (rxControlled_moves ..) rfl)
      (Moves.ite (Moves.step (Moves.refl _ s) (countPort_moves ..) rfl) (Moves.ite ?_ ?_))
    · exact Moves.step (Moves.step (Moves.refl _ s) (sakFault_moves ..) rfl) (countPort_moves ..) rfl
    · split
      · rename_i v0 v1 e2
        have hv1 := MovesAll.of_eq (has := hasSecEnd) e2 rfl (secReceive_moves _ _ _ _ _)
        exact Moves.step (Moves.step (Moves.refl _ _) hv1 rfl) (rxControlled_moves ..) rfl
      · rename_i v3 e4
        exact Moves.step (Moves.refl _ _) (MovesAll.of_eq (has := hasSecEnd) e4 rfl (secReceive_moves _ _ _ _ _)) rfl

theorem countLine_moves (a0 a1 s) : Moves [.ports] s (countLine a0 a1 s) := by
  unfold countLine
  refine Moves.step ?_ (countPort_moves ..) rfl
  refine Moves.step ?_ (countPort_moves ..) rfl
  exact Moves.step (Moves.refl _ s) (countPort_moves ..) rfl

theorem execFrameReceived_moves (a0 a1 a2 a3 a4 a5 a6 s) : MovesAll hasNext [.out, .regs, .log, .twin, .ports, .tbl, .buf, .cry] s (execFrameReceived a0 a1 a2 a3 a4 a5 a6 s) := by
  unfold execFrameReceived
  extract_lets -merge -useContext -underBinder y0 y1
  clear_value y0
  have hy1 : Moves [.out, .regs, .log, .twin, .ports, .tbl, .buf, .cry] s y1 := by
    unfold y1
    refine Moves.ite ?_ ?_
    ·
      exact (Moves.refl _ s)
    ·
      exact Moves.step (Moves.refl _ s) (countLine_moves ..) rfl
  clear_value y1
  refine hasNext_onPort ?_ ?_
  ·
    exact (Moves.refl _ s)
  ·
    refine Moves.ite ?_ ?_
    ·
      exact hy1
    ·
      refine Moves.ite ?_ ?_
      ·
        refine Moves.step ?_ (countPort_moves ..) rfl
        exact Moves.step hy1 (portMod_moves ..) rfl
      ·
        refine Moves.ite ?_ ?_
        ·
          exact Moves.step hy1 (countPort_moves ..) rfl
        ·
          refine Moves.ite ?_ ?_
          ·
            exact Moves.step hy1 (countPort_moves ..) rfl
          ·
            refine Moves.ite ?_ ?_
            ·
              exact Moves.step hy1 (countPort_moves ..) rfl
            ·
              refine Moves.step ?_ (rxAccepted_moves ..) rfl
              exact Moves.step hy1 (countRx_moves ..) rfl

theorem unitFaults_moves (a0 s) : Moves [.waiting, .out, .freeIx, .regs, .log, .cmd, .cfg, .boot, .power, .twin, .spare, .ports, .tbl, .buf, .cry, .flow, .host, .sto, .svc, .mbx, .mem, .cart, .age, .test] s (unitFaults a0 s) := by
  unfold unitFaults
  refine Moves.ite ?_ ?_
  ·
    refine Moves.step ?_ (cartFails_moves ..) rfl
    exact Moves.step (Moves.refl _ s) (faultUnit_moves ..) rfl
  ·
    exact Moves.step (Moves.refl _ s) (faultUnit_moves ..) rfl

theorem execUnitFault_moves (a0 s) : MovesAll hasNext [.waiting, .out, .freeIx, .regs, .log, .cmd, .cfg, .boot, .power, .twin, .spare, .ports, .tbl, .buf, .cry, .flow, .host, .sto, .svc, .mbx, .mem, .cart, .age, .test] s (execUnitFault a0 s) := by
  unfold execUnitFault
  refine hasNext_onElem ?_
  exact Moves.step (Moves.refl _ s) (unitFaults_moves ..) rfl

theorem execUnitHang_moves (a0 s) : MovesAll hasNext [.waiting, .out, .freeIx, .regs, .log, .cmd, .cfg, .boot, .power, .twin, .spare, .ports, .tbl, .buf, .cry, .flow, .host, .sto, .svc, .mbx, .mem, .cart, .age, .test] s (execUnitHang a0 s) := by
  unfold execUnitHang
  refine hasNext_onElem ?_
  exact Moves.step (Moves.refl _ s) (unitFaults_moves ..) rfl

theorem execGraftComplete_moves (a0 s) : MovesAll hasNext [.waiting, .out, .freeIx, .regs, .log, .cmd, .cfg, .spare, .ports, .tbl, .cry, .host, .sto, .svc, .mbx, .mem, .age, .test] s (execGraftComplete a0 s) := by
  unfold execGraftComplete
  refine hasNext_onElem ?_
  exact Moves.step (Moves.refl _ s) (graftDone_moves ..) rfl

theorem execGraftTimeout_moves (a0 s) : MovesAll hasNext [.waiting, .out, .freeIx, .regs, .log, .cmd, .cfg, .boot, .power, .twin, .spare, .ports, .tbl, .buf, .cry, .flow, .host, .sto, .svc, .mbx, .mem, .age, .test] s (execGraftTimeout a0 s) := by
  unfold execGraftTimeout
  refine hasNext_onElem ?_
  exact Moves.step (Moves.refl _ s) (graftFails_moves ..) rfl

theorem execElementLoss_moves (a0 s) : MovesAll hasNext [.waiting, .out, .freeIx, .regs, .log, .cmd, .cfg, .boot, .power, .twin, .spare, .ports, .tbl, .buf, .cry, .flow, .host, .sto, .svc, .mbx, .mem, .cart, .age, .test] s (execElementLoss a0 s) := by
  unfold execElementLoss
  refine hasNext_onElem ?_
  split
  ·
    exact Moves.step (Moves.refl _ s) (contain_moves ..) rfl
  ·
    exact Moves.step (Moves.refl _ s) (loseCluster_moves ..) rfl
  ·
    refine Moves.ite ?_ ?_
    ·
      exact Moves.step (Moves.refl _ s) (losePackage_moves ..) rfl
    ·
      exact Moves.step (Moves.refl _ s) (loseRegion_moves ..) rfl
  ·
    refine Moves.ite ?_ ?_
    ·
      exact Moves.step (Moves.refl _ s) (losePackage_moves ..) rfl
    ·
      exact Moves.step (Moves.refl _ s) (loseDie_moves ..) rfl
  ·
    exact Moves.step (Moves.refl _ s) (losePackage_moves ..) rfl

theorem execDieLinkQuarterFail_moves (a0 a1 s) : MovesAll hasNext [.waiting, .out, .freeIx, .regs, .log, .cmd, .cfg, .spare, .ports, .tbl, .buf, .cry, .flow, .host, .sto, .svc, .mbx, .mem, .test] s (execDieLinkQuarterFail a0 a1 s) := by
  unfold execDieLinkQuarterFail
  refine hasNext_onElem ?_
  refine Moves.ite ?_ ?_
  ·
    exact (Moves.refl _ s)
  ·
    exact Moves.step (Moves.refl _ s) (loseQuarter_moves ..) rfl

theorem opStoNqnSet_moves (c s) : DoneMoves [.sto] s ((opStoNqnSet).body c s) := by
  unfold opStoNqnSet
  extract_lets -merge -useContext -underBinder src
  change DoneMoves _ s (src.body c s)
  unfold src
  refine op_mk ?_
  extract_lets -merge -useContext -underBinder y0 y1
  clear_value y0
  clear_value y1
  refine DoneMoves.ite ?_ ?_
  ·
    exact hasDone_refuse
  ·
    refine DoneMoves.ite ?_ ?_
    ·
      exact hasDone_refuse
    ·
      refine hasDone_reply ?_
      exact Moves.step (Moves.refl _ s) (stoMod_moves ..) rfl

theorem execStoNqnSet_moves (a0 s) : MovesAll hasNext [.waiting, .out, .regs, .log, .cmd, .prot, .host, .sto, .svc] s (execStoNqnSet a0 s) := by
  unfold execStoNqnSet
  refine hasNext_next ?_
  exact Moves.step (Moves.refl _ s) (runCmd_moves _ _ _ (opStoNqnSet_moves ..)) rfl

theorem opStoPathAdd_moves (c s) : DoneMoves [.out, .freeIx, .buf, .sto] s ((opStoPathAdd).body c s) := by
  unfold opStoPathAdd
  refine op_mk ?_
  extract_lets -merge -useContext -underBinder y0 y1
  clear_value y0
  clear_value y1
  refine DoneMoves.ite ?_ ?_
  ·
    exact hasDone_refuse
  ·
    refine DoneMoves.ite ?_ ?_
    ·
      exact hasDone_refuse
    ·
      refine DoneMoves.ite ?_ ?_
      ·
        exact hasDone_refuse
      ·
        refine DoneMoves.ite ?_ ?_
        ·
          exact hasDone_refuse
        ·
          refine DoneMoves.ite ?_ ?_
          ·
            exact hasDone_refuse
          ·
            refine hasDone_reply ?_
            refine Moves.step ?_ (pathConnect_moves ..) rfl
            exact Moves.step (Moves.refl _ s) (stoMod_moves ..) rfl

theorem execStoPathAdd_moves (a0 s) : MovesAll hasNext [.waiting, .out, .freeIx, .regs, .log, .cmd, .prot, .buf, .host, .sto, .svc] s (execStoPathAdd a0 s) := by
  unfold execStoPathAdd
  refine hasNext_next ?_
  exact Moves.step (Moves.refl _ s) (runCmd_moves _ _ _ (opStoPathAdd_moves ..)) rfl

theorem opStoPathRemove_moves (c s) : DoneMoves [.sto] s ((opStoPathRemove).body c s) := by
  unfold opStoPathRemove
  refine op_mk ?_
  extract_lets -merge -useContext -underBinder y0
  clear_value y0
  refine DoneMoves.ite ?_ ?_
  ·
    exact hasDone_refuse
  ·
    refine DoneMoves.ite ?_ ?_
    ·
      exact hasDone_refuse
    ·
      refine DoneMoves.ite ?_ ?_
      ·
        exact hasDone_refuse
      ·
        refine hasDone_reply ?_
        exact Moves.step (Moves.refl _ s) (stoMod_moves ..) rfl

theorem execStoPathRemove_moves (a0 s) : MovesAll hasNext [.waiting, .out, .regs, .log, .cmd, .prot, .host, .sto, .svc] s (execStoPathRemove a0 s) := by
  unfold execStoPathRemove
  refine hasNext_next ?_
  exact Moves.step (Moves.refl _ s) (runCmd_moves _ _ _ (opStoPathRemove_moves ..)) rfl

theorem opStoNsAdd_moves (c s) : DoneMoves [.sto] s ((opStoNsAdd).body c s) := by
  unfold opStoNsAdd
  refine op_mk ?_
  extract_lets -merge -useContext -underBinder y0 y1 y2 y3 y4 y5
  clear_value y0
  clear_value y1
  clear_value y2
  clear_value y3
  clear_value y4
  clear_value y5
  refine DoneMoves.ite ?_ ?_
  ·
    exact hasDone_refuse
  ·
    refine DoneMoves.ite ?_ ?_
    ·
      exact hasDone_refuse
    ·
      refine DoneMoves.ite ?_ ?_
      ·
        exact hasDone_refuse
      ·
        refine DoneMoves.ite ?_ ?_
        ·
          exact hasDone_refuse
        ·
          refine hasDone_reply ?_
          exact Moves.step (Moves.refl _ s) (stoMod_moves ..) rfl

theorem execStoNsAdd_moves (a0 s) : MovesAll hasNext [.waiting, .out, .regs, .log, .cmd, .prot, .host, .sto, .svc] s (execStoNsAdd a0 s) := by
  unfold execStoNsAdd
  refine hasNext_next ?_
  exact Moves.step (Moves.refl _ s) (runCmd_moves _ _ _ (opStoNsAdd_moves ..)) rfl

theorem opStoNsRemove_moves (c s) : DoneMoves [.sto] s ((opStoNsRemove).body c s) := by
  unfold opStoNsRemove
  refine op_mk ?_
  extract_lets -merge -useContext -underBinder y0
  clear_value y0
  refine DoneMoves.ite ?_ ?_
  ·
    exact hasDone_refuse
  ·
    refine DoneMoves.ite ?_ ?_
    ·
      exact hasDone_refuse
    ·
      refine DoneMoves.ite ?_ ?_
      ·
        exact hasDone_refuse
      ·
        refine hasDone_reply ?_
        exact Moves.step (Moves.refl _ s) (stoMod_moves ..) rfl

theorem execStoNsRemove_moves (a0 s) : MovesAll hasNext [.waiting, .out, .regs, .log, .cmd, .prot, .host, .sto, .svc] s (execStoNsRemove a0 s) := by
  unfold execStoNsRemove
  refine hasNext_next ?_
  exact Moves.step (Moves.refl _ s) (runCmd_moves _ _ _ (opStoNsRemove_moves ..)) rfl

theorem opStoNsKey_moves (c s) : DoneMoves [.out, .freeIx, .regs, .log, .buf, .cry, .sto] s ((opStoNsKey).body c s) := by
  unfold opStoNsKey
  refine op_mk ?_
  extract_lets -merge -useContext -underBinder y0
  clear_value y0
  refine DoneMoves.ite ?_ ?_
  ·
    exact hasDone_refuse
  ·
    split
    ·
      exact hasDone_refuse
    ·
      refine DoneMoves.ite ?_ ?_
      ·
        exact hasDone_refuse
      ·
        split
        ·
          rename_i v1 v2 e3
          have hv2 : Moves [.out, .freeIx, .regs, .log, .buf, .cry, .sto] s v2 := by
            refine MovesAll.of_eq (has := hasSnd) e3 rfl ?_
            exact MovesAll.step (Moves.refl _ s) (importKey_moves _ _ _) rfl
          refine hasDone_reply ?_
          exact hv2
        ·
          rename_i v4 v5 e6
          have hv5 : Moves [.out, .freeIx, .regs, .log, .buf, .cry, .sto] s v5 := by
            refine MovesAll.of_eq (has := hasSnd) e6 rfl ?_
            exact MovesAll.step (Moves.refl _ s) (importKey_moves _ _ _) rfl
          extract_lets -merge -useContext -underBinder y7
          clear_value y7
          refine DoneMoves.ite ?_ ?_
          ·
            refine hasDone_reply ?_
            exact hv5
          ·
            refine DoneMoves.ite ?_ ?_
            ·
              refine hasDone_reply ?_
              exact hv5
            ·
              refine hasDone_reply ?_
              refine Moves.step ?_ (pumpNs_moves ..) rfl
              refine Moves.step ?_ (nsUnlock_moves ..) rfl
              exact Moves.step hv5 (stoMod_moves ..) rfl

theorem execStoNsKey_moves (a0 s) : MovesAll hasNext [.waiting, .out, .freeIx, .regs, .log, .cmd, .prot, .buf, .cry, .host, .sto, .svc, .mem] s (execStoNsKey a0 s) := by
  unfold execStoNsKey
  exact hasNext_next (runKeyCmd_moves fun c t => DoneMoves.step (Moves.refl _ t) (opStoNsKey_moves ..) rfl)

theorem tellChange_moves (a0 a1 s) : Moves [.out, .regs, .log, .host, .sto] s (tellChange a0 a1 s) := by
  unfold tellChange
  split
  ·
    exact Moves.step (Moves.refl _ s) (nsChanged_moves ..) rfl
  ·
    exact (Moves.refl _ s)

theorem opStoNsAttach_moves (c s) : DoneMoves [.out, .regs, .log, .host, .sto] s ((opStoNsAttach).body c s) := by
  unfold opStoNsAttach
  refine op_mk ?_
  extract_lets -merge -useContext -underBinder y0 y1 y2 y3
  clear_value y0
  clear_value y1
  clear_value y2
  clear_value y3
  refine DoneMoves.ite ?_ ?_
  ·
    exact hasDone_refuse
  ·
    refine DoneMoves.ite ?_ ?_
    ·
      exact hasDone_refuse
    ·
      split
      ·
        exact hasDone_refuse
      ·
        extract_lets -merge -useContext -underBinder y4 y5
        clear_value y4
        clear_value y5
        refine DoneMoves.ite ?_ ?_
        ·
          exact hasDone_refuse
        ·
          refine DoneMoves.ite ?_ ?_
          ·
            exact hasDone_refuse
          ·
            refine DoneMoves.ite ?_ ?_
            ·
              exact hasDone_refuse
            ·
              refine DoneMoves.ite ?_ ?_
              ·
                exact hasDone_refuse
              ·
                refine hasDone_reply ?_
                refine Moves.step ?_ (tellChange_moves ..) rfl
                exact Moves.step (Moves.refl _ s) (stoMod_moves ..) rfl

theorem execStoNsAttach_moves (a0 s) : MovesAll hasNext [.waiting, .out, .regs, .log, .cmd, .prot, .host, .sto, .svc] s (execStoNsAttach a0 s) := by
  unfold execStoNsAttach
  refine hasNext_next ?_
  exact Moves.step (Moves.refl _ s) (runCmd_moves _ _ _ (opStoNsAttach_moves ..)) rfl

theorem opStoNsDetach_moves (c s) : DoneMoves [.out, .regs, .log, .host, .sto] s ((opStoNsDetach).body c s) := by
  unfold opStoNsDetach
  refine op_mk ?_
  extract_lets -merge -useContext -underBinder y0
  clear_value y0
  refine DoneMoves.ite ?_ ?_
  ·
    exact hasDone_refuse
  ·
    split
    ·
      exact hasDone_refuse
    ·
      split
      ·
        exact hasDone_refuse
      ·
        refine DoneMoves.ite ?_ ?_
        ·
          exact hasDone_refuse
        ·
          refine hasDone_accept ?_ (fun u => Moves.refl _ u)
          refine Moves.step ?_ (tellChange_moves ..) rfl
          exact Moves.step (Moves.refl _ s) (stoMod_moves ..) rfl

theorem execStoNsDetach_moves (a0 s) : MovesAll hasNext [.waiting, .out, .regs, .log, .cmd, .prot, .host, .sto, .svc] s (execStoNsDetach a0 s) := by
  unfold execStoNsDetach
  refine hasNext_next ?_
  exact Moves.step (Moves.refl _ s) (runCmd_moves _ _ _ (opStoNsDetach_moves ..)) rfl

theorem execNsDetachComplete_moves (a0 a1 a2 s) : MovesAll hasNext [.out, .regs, .log, .cmd, .host, .sto, .svc] s (execNsDetachComplete a0 a1 a2 s) := by
  unfold execNsDetachComplete
  extract_lets -merge -useContext -underBinder y0
  clear_value y0
  refine hasNext_next ?_
  refine Moves.ite ?_ ?_
  ·
    exact (Moves.refl _ s)
  ·
    refine Moves.ite ?_ ?_
    ·
      exact (Moves.refl _ s)
    ·
      refine Moves.step ?_ (finishKey_moves ..) rfl
      exact Moves.step (Moves.refl _ s) (stoMod_moves ..) rfl

theorem opStoRead_moves (c s) : DoneMoves [] s ((opStoRead).body c s) := by
  unfold opStoRead
  refine op_mk ?_
  extract_lets -merge -useContext -underBinder y0
  clear_value y0
  refine DoneMoves.ite ?_ ?_
  ·
    exact hasDone_refuse
  ·
    refine DoneMoves.ite ?_ ?_
    ·
      split
      ·
        exact hasDone_refuse
      ·
        refine hasDone_reply ?_
        exact (Moves.refl _ s)
    ·
      split
      ·
        exact hasDone_refuse
      ·
        refine hasDone_reply ?_
        exact (Moves.refl _ s)

theorem execStoRead_moves (a0 s) : MovesAll hasNext [.waiting, .out, .regs, .log, .cmd, .prot, .host, .svc] s (execStoRead a0 s) := by
  unfold execStoRead
  refine hasNext_next ?_
  exact Moves.step (Moves.refl _ s) (runCmd_moves _ _ _ (opStoRead_moves ..)) rfl

theorem opSysNop_moves (c s) : DoneMoves [] s ((opSysNop).body c s) := by
  unfold opSysNop
  refine op_mk ?_
  refine hasDone_reply ?_
  exact (Moves.refl _ s)

theorem execSysNop_moves (a0 s) : MovesAll hasNext [.waiting, .out, .regs, .log, .cmd, .prot, .host, .svc] s (execSysNop a0 s) := by
  unfold execSysNop
  refine hasNext_next ?_
  exact Moves.step (Moves.refl _ s) (runCmd_moves _ _ _ (opSysNop_moves ..)) rfl

theorem opSysInfo_moves (c s) : DoneMoves [] s ((opSysInfo).body c s) := by
  unfold opSysInfo
  refine op_mk ?_
  refine hasDone_reply ?_
  exact (Moves.refl _ s)

theorem execSysInfo_moves (a0 s) : MovesAll hasNext [.waiting, .out, .regs, .log, .cmd, .prot, .host, .svc] s (execSysInfo a0 s) := by
  unfold execSysInfo
  refine hasNext_next ?_
  exact Moves.step (Moves.refl _ s) (runCmd_moves _ _ _ (opSysInfo_moves ..)) rfl

theorem opSysEpochRead_moves (c s) : DoneMoves [] s ((opSysEpochRead).body c s) := by
  unfold opSysEpochRead
  refine op_mk ?_
  refine hasDone_reply ?_
  exact (Moves.refl _ s)

theorem execSysEpochRead_moves (a0 s) : MovesAll hasNext [.waiting, .out, .regs, .log, .cmd, .prot, .host, .svc] s (execSysEpochRead a0 s) := by
  unfold execSysEpochRead
  refine hasNext_next ?_
  exact Moves.step (Moves.refl _ s) (runCmd_moves _ _ _ (opSysEpochRead_moves ..)) rfl

theorem opSysPathQuery_moves (c s) : DoneMoves [] s ((opSysPathQuery).body c s) := by
  unfold opSysPathQuery
  refine op_mk ?_
  extract_lets -merge -useContext -underBinder y0 y1
  clear_value y0
  clear_value y1
  refine hasDone_reply ?_
  exact (Moves.refl _ s)

theorem execSysPathQuery_moves (a0 s) : MovesAll hasNext [.waiting, .out, .regs, .log, .cmd, .prot, .host, .svc] s (execSysPathQuery a0 s) := by
  unfold execSysPathQuery
  refine hasNext_next ?_
  exact Moves.step (Moves.refl _ s) (runCmd_moves _ _ _ (opSysPathQuery_moves ..)) rfl

theorem opSysDrain_moves (c s) : DoneMoves [.out, .regs, .log, .cmd, .tbl, .host, .svc] s ((opSysDrain).body c s) := by
  unfold opSysDrain
  refine op_mk ?_
  extract_lets -merge -useContext -underBinder y0
  clear_value y0
  refine DoneMoves.ite ?_ ?_
  ·
    exact hasDone_refuse
  ·
    refine DoneMoves.ite ?_ ?_
    ·
      exact hasDone_refuse
    ·
      refine DoneMoves.ite ?_ ?_
      ·
        refine DoneMoves.ite ?_ ?_
        ·
          exact hasDone_refuse
        ·
          refine hasDone_accept ?_ (fun u => Moves.refl _ u)
          exact Moves.step (Moves.refl _ s) (drainPath_moves ..) rfl
      ·
        refine hasDone_accept ?_ ?_
        ·
          refine Moves.step ?_ (raise_moves ..) rfl
          exact Moves.step (Moves.refl _ s) (undrainPath_moves ..) rfl
        ·
          intro u1
          exact Moves.step (Moves.refl _ u1) (finishKey_moves ..) rfl

theorem execSysDrain_moves (a0 s) : MovesAll hasNext [.waiting, .out, .regs, .log, .cmd, .prot, .tbl, .host, .svc] s (execSysDrain a0 s) := by
  unfold execSysDrain
  refine hasNext_next ?_
  exact Moves.step (Moves.refl _ s) (runCmd_moves _ _ _ (opSysDrain_moves ..)) rfl

theorem execSysDrained_moves (a0 s) : MovesAll hasNext [.out, .regs, .log, .cmd, .host, .svc] s (execSysDrained a0 s) := by
  unfold execSysDrained
  refine hasNext_onElem ?_
  refine Moves.ite ?_ ?_
  ·
    refine Moves.step ?_ (finishKey_moves ..) rfl
    exact Moves.step (Moves.refl _ s) (raise_moves ..) rfl
  ·
    exact (Moves.refl _ s)

theorem opSysReset_moves (c s) : DoneMoves [.waiting, .out, .freeIx, .regs, .log, .cmd, .cfg, .prot, .boot, .power, .spare, .ports, .tbl, .buf, .cry, .flow, .host, .sto, .svc, .mbx, .mem, .test] s ((opSysReset).body c s) := by
  unfold opSysReset
  refine op_mk ?_
  extract_lets -merge -useContext -underBinder y0 y1 y2 y3
  clear_value y0
  clear_value y1
  clear_value y2
  clear_value y3
  refine DoneMoves.ite ?_ ?_
  ·
    exact hasDone_refuse
  ·
    refine DoneMoves.ite ?_ ?_
    ·
      exact hasDone_refuse
    ·
      refine DoneMoves.ite ?_ ?_
      ·
        exact hasDone_refuse
      ·
        refine DoneMoves.ite ?_ ?_
        ·
          exact hasDone_refuse
        ·
          refine DoneMoves.ite ?_ ?_
          ·
            refine DoneMoves.ite ?_ ?_
            ·
              exact hasDone_refuse
            ·
              refine hasDone_accept ?_ ?_
              ·
                exact (Moves.refl _ s)
              ·
                intro u4
                exact Moves.step (Moves.refl _ u4) (startDieRestart_moves ..) rfl
          ·
            refine hasDone_reply ?_
            exact Moves.step (Moves.refl _ s) (powerMod_moves ..) rfl

theorem execSysReset_moves (a0 s) : MovesAll hasNext [.waiting, .out, .freeIx, .regs, .log, .cmd, .cfg, .prot, .boot, .power, .spare, .ports, .tbl, .buf, .cry, .flow, .host, .sto, .svc, .mbx, .mem, .test] s (execSysReset a0 s) := by
  unfold execSysReset
  refine hasNext_next ?_
  exact Moves.step (Moves.refl _ s) (runCmd_moves _ _ _ (opSysReset_moves ..)) rfl

theorem opSysFwLoad_moves (c s) : DoneMoves [] s ((opSysFwLoad).body c s) := by
  unfold opSysFwLoad
  refine op_mk ?_
  extract_lets -merge -useContext -underBinder y0 y1 y2 y3
  clear_value y0
  clear_value y1
  clear_value y2
  clear_value y3
  refine DoneMoves.ite ?_ ?_
  ·
    exact hasDone_refuse
  ·
    refine DoneMoves.ite ?_ ?_
    ·
      exact hasDone_refuse
    ·
      refine DoneMoves.ite ?_ ?_
      ·
        refine hasDone_accept ?_ (fun u => Moves.refl _ u)
        exact (Moves.refl _ s)
      ·
        split
        ·
          exact hasDone_refuse
        ·
          refine hasDone_accept ?_ (fun u => Moves.refl _ u)
          exact (Moves.refl _ s)

theorem execSysFwLoad_moves (a0 s) : MovesAll hasNext [.waiting, .out, .regs, .log, .cmd, .prot, .host, .svc] s (execSysFwLoad a0 s) := by
  unfold execSysFwLoad
  refine hasNext_next ?_
  exact Moves.step (Moves.refl _ s) (runCmd_moves _ _ _ (opSysFwLoad_moves ..)) rfl

theorem execFwImageVerified_moves (a0 a1 a2 a3 a4 a5 a6 s) : MovesAll hasNext [.out, .regs, .log, .cmd, .boot, .host, .svc, .mem] s (execFwImageVerified a0 a1 a2 a3 a4 a5 a6 s) := by
  unfold execFwImageVerified
  refine hasNext_next ?_
  split
  ·
    exact (Moves.refl _ s)
  ·
    extract_lets -merge -useContext -underBinder y0 y1 y2 y3 y4 y5 y6 y7 y8 y9
    clear_value y0
    clear_value y1
    clear_value y2
    clear_value y3
    clear_value y4
    have hy5 : Moves [.out, .regs, .log, .cmd, .boot, .host, .svc, .mem] s y5 := by
      unfold y5
      refine Moves.ite ?_ ?_
      ·
        exact Moves.step (Moves.refl _ s) (countBulk_moves ..) rfl
      ·
        exact (Moves.refl _ s)
    clear_value y5
    clear_value y6
    clear_value y7
    clear_value y8
    clear_value y9
    refine Moves.ite ?_ ?_
    ·
      exact Moves.step (Moves.refl _ s) (finish_moves ..) rfl
    ·
      refine Moves.ite ?_ ?_
      ·
        split
        ·
          refine Moves.step ?_ (finish_moves ..) rfl
          exact Moves.step hy5 (imageMod_moves ..) rfl
      ·
        refine Moves.step ?_ (finish_moves ..) rfl
        exact Moves.step hy5 (imageMod_moves ..) rfl

theorem selectImage_moves (a0 s) : Moves [.out, .boot] s (selectImage a0 s) := by
  unfold selectImage
  extract_lets -merge -useContext -underBinder y0
  clear_value y0
  refine Moves.step ?_ (toFlash_moves ..) rfl
  exact Moves.step (Moves.refl _ s) (bootMod_moves _ _ (by first | rfl | (split <;> rfl)) (by first | rfl | (split <;> rfl))) rfl

theorem restartDies_moves (a0 s) : Moves [.waiting, .out, .freeIx, .regs, .log, .cmd, .cfg, .prot, .boot, .power, .twin, .spare, .ports, .tbl, .buf, .cry, .flow, .host, .sto, .svc, .mbx, .mem, .test] s (restartDies a0 s) := by
  unfold restartDies
  extract_lets -merge -useContext -underBinder y0 y1 y2
  clear_value y0
  clear_value y1
  clear_value y2
  refine Moves.ite ?_ ?_
  ·
    refine Moves.step ?_ (startHandover_moves ..) rfl
    exact Moves.step (Moves.refl _ s) (powerMod_moves ..) rfl
  ·
    split
    ·
      exact Moves.step (Moves.refl _ s) (activated_moves ..) rfl
    ·
      refine Moves.step ?_ (startDieRestart_moves ..) rfl
      exact Moves.step (Moves.refl _ s) (powerMod_moves ..) rfl

theorem opSysFwActivate_moves (c s) : DoneMoves [.waiting, .out, .freeIx, .regs, .time, .log, .cmd, .cfg, .prot, .boot, .power, .twin, .spare, .ports, .tbl, .buf, .cry, .flow, .host, .sto, .svc, .mbx, .mem, .cart, .age, .test, .therm] s ((opSysFwActivate).body c s) := by
  unfold opSysFwActivate
  refine op_mk ?_
  extract_lets -merge -useContext -underBinder y0 y1
  clear_value y0
  clear_value y1
  refine DoneMoves.ite ?_ ?_
  ·
    exact hasDone_refuse
  ·
    refine DoneMoves.ite ?_ ?_
    ·
      exact hasDone_refuse
    ·
      refine DoneMoves.ite ?_ ?_
      ·
        exact hasDone_refuse
      ·
        refine DoneMoves.ite ?_ ?_
        ·
          refine hasDone_accept ?_ ?_
          ·
            exact Moves.step (Moves.refl _ s) (selectImage_moves ..) rfl
          ·
            intro u2
            extract_lets -merge -useContext -underBinder y3
            have hy3 : Moves [.waiting, .out, .freeIx, .regs, .time, .log, .cmd, .cfg, .prot, .boot, .power, .twin, .spare, .ports, .tbl, .buf, .cry, .flow, .host, .sto, .svc, .mbx, .mem, .cart, .age, .test, .therm] u2 y3 := by
              unfold y3
              exact Moves.step (Moves.refl _ u2) (finishKey_moves ..) rfl
            clear_value y3
            refine Moves.ite ?_ ?_
            ·
              exact Moves.step hy3 (commandRestart_moves ..) rfl
            ·
              exact hy3
        ·
          refine DoneMoves.ite ?_ ?_
          ·
            refine hasDone_accept ?_ ?_
            ·
              exact Moves.step (Moves.refl _ s) (selectImage_moves ..) rfl
            ·
              intro u4
              exact Moves.step (Moves.refl _ u4) (finishKey_moves ..) rfl
          ·
            refine DoneMoves.ite ?_ ?_
            ·
              exact hasDone_refuse
            ·
              refine DoneMoves.ite ?_ ?_
              ·
                exact hasDone_refuse
              ·
                refine hasDone_accept ?_ ?_
                ·
                  exact Moves.step (Moves.refl _ s) (selectImage_moves ..) rfl
                ·
                  intro u5
                  exact Moves.step (Moves.refl _ u5) (restartDies_moves ..) rfl

theorem execSysFwActivate_moves (a0 s) : MovesAll hasNext [.waiting, .out, .freeIx, .regs, .time, .log, .cmd, .cfg, .prot, .boot, .power, .twin, .spare, .ports, .tbl, .buf, .cry, .flow, .host, .sto, .svc, .mbx, .mem, .cart, .age, .test, .therm] s (execSysFwActivate a0 s) := by
  unfold execSysFwActivate
  refine hasNext_next ?_
  exact Moves.step (Moves.refl _ s) (runCmd_moves _ _ _ (opSysFwActivate_moves ..)) rfl

theorem execBootMailboxWrite_moves (a0 a1 s) : MovesAll hasNext [.waiting, .boot] s (execBootMailboxWrite a0 a1 s) := by
  unfold execBootMailboxWrite
  extract_lets -merge -useContext -underBinder y0
  have hy0 : Moves [.waiting, .boot] s y0 := by
    unfold y0
    split
    ·
      exact Moves.step (Moves.refl _ s) (bootMod_moves _ _ (by first | rfl | (split <;> rfl)) (by first | rfl | (split <;> rfl))) rfl
    ·
      exact (Moves.refl _ s)
  clear_value y0
  refine hasNext_next ?_
  refine Moves.ite ?_ ?_
  ·
    exact (Moves.refl _ s)
  ·
    split
    ·
      refine Moves.ite ?_ ?_
      ·
        exact Moves.step hy0 (submit_moves ..) rfl
      ·
        exact hy0
    ·
      exact hy0

theorem opPortRead_moves (c s) : DoneMoves [.ports, .buf] s ((opPortRead).body c s) := by
  unfold opPortRead
  refine op_mk ?_
  extract_lets -merge -useContext -underBinder y0 y1 y2 y3
  clear_value y0
  clear_value y1
  clear_value y2
  clear_value y3
  refine DoneMoves.ite ?_ ?_
  ·
    exact hasDone_refuse
  ·
    refine DoneMoves.ite ?_ ?_
    ·
      exact hasDone_refuse
    ·
      refine hasDone_reply ?_
      refine Moves.foldl ?_ (fun t4 x5 ht4 => ?_)
      ·
        exact (Moves.refl _ s)
      ·
        exact Moves.step ht4 (areaRead_moves ..) rfl

theorem execPortRead_moves (a0 s) : MovesAll hasNext [.waiting, .out, .regs, .log, .cmd, .prot, .ports, .buf, .host, .svc] s (execPortRead a0 s) := by
  unfold execPortRead
  refine hasNext_next ?_
  exact Moves.step (Moves.refl _ s) (runCmd_moves _ _ _ (opPortRead_moves ..)) rfl

theorem portRestart_moves (a0 s) : Moves [.regs, .log, .ports, .tbl, .cry] s (portRestart a0 s) := by
  unfold portRestart
  refine Moves.ite ?_ ?_
  ·
    exact (Moves.refl _ s)
  ·
    split
    ·
      exact (Moves.refl _ s)
    ·
      exact Moves.step (Moves.refl _ s) (linkDown_moves ..) rfl
    ·
      exact Moves.step (Moves.refl _ s) (startSearch_moves ..) rfl

theorem opPortRestart_moves (c s) : DoneMoves [.regs, .log, .ports, .tbl, .cry] s ((opPortRestart).body c s) := by
  unfold opPortRestart
  refine op_mk ?_
  refine hasDone_reply ?_
  refine Moves.foldl ?_ (fun t0 x1 ht0 => ?_)
  ·
    exact (Moves.refl _ s)
  ·
    exact Moves.step ht0 (portRestart_moves ..) rfl

theorem execPortRestart_moves (a0 s) : MovesAll hasNext [.waiting, .out, .regs, .log, .cmd, .prot, .ports, .tbl, .cry, .host, .svc] s (execPortRestart a0 s) := by
  unfold execPortRestart
  refine hasNext_next ?_
  exact Moves.step (Moves.refl _ s) (runCmd_moves _ _ _ (opPortRestart_moves ..)) rfl

theorem opPortSnapshot_moves (c s) : DoneMoves [] s ((opPortSnapshot).body c s) := by
  unfold opPortSnapshot
  refine op_mk ?_
  extract_lets -merge -useContext -underBinder y0 y1 y2
  clear_value y0
  clear_value y1
  clear_value y2
  refine DoneMoves.ite ?_ ?_
  ·
    exact hasDone_refuse
  ·
    split
    ·
      exact hasDone_refuse
    ·
      refine hasDone_accept ?_ (fun u => Moves.refl _ u)
      exact (Moves.refl _ s)

theorem execPortSnapshot_moves (a0 s) : MovesAll hasNext [.waiting, .out, .regs, .log, .cmd, .prot, .host, .svc] s (execPortSnapshot a0 s) := by
  unfold execPortSnapshot
  refine hasNext_next ?_
  exact Moves.step (Moves.refl _ s) (runCmd_moves _ _ _ (opPortSnapshot_moves ..)) rfl

theorem execPortSnapshotComplete_moves (a0 a1 a2 s) : MovesAll hasNext [.out, .regs, .log, .cmd, .host, .svc, .mem] s (execPortSnapshotComplete a0 a1 a2 s) := by
  unfold execPortSnapshotComplete
  refine hasNext_next ?_
  split
  ·
    exact (Moves.refl _ s)
  ·
    extract_lets -merge -useContext -underBinder y0 y1 y2 y3
    clear_value y0
    clear_value y1
    clear_value y2
    clear_value y3
    exact Moves.step (Moves.refl _ s) (finishBuffer_moves ..) rfl

theorem opPortPartnerRead_moves (c s) : DoneMoves [.out, .freeIx, .regs, .log, .host, .svc, .mem] s ((opPortPartnerRead).body c s) := by
  unfold opPortPartnerRead
  refine op_mk ?_
  extract_lets -merge -useContext -underBinder y0
  clear_value y0
  refine DoneMoves.ite ?_ ?_
  ·
    exact hasDone_refuse
  ·
    split
    ·
      exact hasDone_refuse
    ·
      split
      ·
        split
        ·
          rename_i v1 v2 e3
          have hv2 : Moves [.out, .freeIx, .regs, .log, .host, .svc, .mem] s v2 := by
            refine MovesAll.of_eq (has := hasSnd) e3 rfl ?_
            exact MovesAll.step (Moves.refl _ s) (drawFree_moves _) rfl
          refine hasDone_reply ?_
          exact hv2
      ·
        refine DoneMoves.ite ?_ ?_
        ·
          exact hasDone_refuse
        ·
          split
          ·
            rename_i v4 e5
            have hv4 : Moves [.out, .freeIx, .regs, .log, .host, .svc, .mem] s v4 := by
              refine MovesAll.of_eq (has := hasOpt) e5 rfl ?_
              exact MovesAll.step (Moves.refl _ s) (bufferWrite_moves _ _ _ _ _) rfl
            refine hasDone_reply ?_
            exact hv4
          ·
            exact hasDone_refuse

theorem execPortPartnerRead_moves (a0 s) : MovesAll hasNext [.waiting, .out, .freeIx, .regs, .log, .cmd, .prot, .host, .svc, .mem] s (execPortPartnerRead a0 s) := by
  unfold execPortPartnerRead
  refine hasNext_next ?_
  exact Moves.step (Moves.refl _ s) (runCmd_moves _ _ _ (opPortPartnerRead_moves ..)) rfl

theorem holdover_moves (a0 s) : Moves [.regs, .time, .log] s (holdover a0 s) := by
  unfold holdover
  refine Moves.step ?_ (raise_moves ..) rfl
  exact Moves.step (Moves.refl _ s) (timeMod_moves ..) rfl

theorem execTkRefLoss_moves (s) : MovesAll hasNext [.regs, .time, .log] s (execTkRefLoss s) := by
  unfold execTkRefLoss
  extract_lets -merge -useContext -underBinder y0 y1
  clear_value y0
  have hy1 : Moves [.regs, .time, .log] s y1 := by
    unfold y1
    exact Moves.step (Moves.refl _ s) (timeMod_moves ..) rfl
  clear_value y1
  refine hasNext_next ?_
  refine Moves.ite ?_ ?_
  ·
    exact Moves.step hy1 (holdover_moves ..) rfl
  ·
    exact hy1

theorem execTkPpsLoss_moves (s) : MovesAll hasNext [.regs, .time, .log] s (execTkPpsLoss s) := by
  unfold execTkPpsLoss
  extract_lets -merge -useContext -underBinder y0 y1
  clear_value y0
  have hy1 : Moves [.regs, .time, .log] s y1 := by
    unfold y1
    exact Moves.step (Moves.refl _ s) (timeMod_moves ..) rfl
  clear_value y1
  refine hasNext_next ?_
  refine Moves.ite ?_ ?_
  ·
    exact Moves.step hy1 (holdover_moves ..) rfl
  ·
    exact hy1

theorem execPtpMasterLoss_moves (s) : MovesAll hasNext [.regs, .time, .log] s (execPtpMasterLoss s) := by
  unfold execPtpMasterLoss
  extract_lets -merge -useContext -underBinder y0 y1
  clear_value y0
  have hy1 : Moves [.regs, .time, .log] s y1 := by
    unfold y1
    exact Moves.step (Moves.refl _ s) (timeMod_moves ..) rfl
  clear_value y1
  refine hasNext_next ?_
  refine Moves.ite ?_ ?_
  ·
    exact Moves.step hy1 (holdover_moves ..) rfl
  ·
    exact hy1

theorem execTimeSourceReturn_moves (a0 a1 s) : MovesAll hasNext [.regs, .time, .log] s (execTimeSourceReturn a0 a1 s) := by
  unfold execTimeSourceReturn
  extract_lets -merge -useContext -underBinder y0
  have hy0 : Moves [.regs, .time, .log] s y0 := by
    unfold y0
    exact Moves.step (Moves.refl _ s) (timeMod_moves ..) rfl
  clear_value y0
  refine hasNext_next ?_
  refine Moves.ite ?_ ?_
  ·
    refine Moves.step ?_ (slewOffset_moves ..) rfl
    exact Moves.step hy0 (measured_moves ..) rfl
  ·
    exact hy0

theorem execTimeLockAchieved_moves (s) : MovesAll hasNext [.regs, .time, .log] s (execTimeLockAchieved s) := by
  unfold execTimeLockAchieved
  refine hasNext_next ?_
  refine Moves.ite ?_ ?_
  ·
    refine Moves.step ?_ (raise_moves ..) rfl
    exact Moves.step (Moves.refl _ s) (timeMod_moves ..) rfl
  ·
    exact (Moves.refl _ s)

theorem execTimeFlashWrite_moves (s) : MovesAll hasNext [.out, .flash] s (execTimeFlashWrite s) := by
  unfold execTimeFlashWrite
  refine hasNext_next ?_
  exact Moves.step (Moves.refl _ s) (writeTime_moves ..) rfl

theorem execPtpMessageReceived_moves (a0 a1 a2 a3 a4 a5 a6 s) : MovesAll hasNext [.regs, .time, .log, .ports, .flow] s (execPtpMessageReceived a0 a1 a2 a3 a4 a5 a6 s) := by
  unfold execPtpMessageReceived
  extract_lets -merge -useContext -underBinder y0
  have hy0 : Moves [.regs, .time, .log, .ports, .flow] s y0 := by
    unfold y0
    exact Moves.step (Moves.refl _ s) (timeMod_moves ..) rfl
  clear_value y0
  refine hasNext_onElem ?_
  refine Moves.ite ?_ ?_
  ·
    exact Moves.step (Moves.refl _ s) (portMod_moves ..) rfl
  ·
    refine Moves.ite ?_ ?_
    ·
      exact (Moves.refl _ s)
    ·
      refine Moves.ite ?_ ?_
      ·
        refine Moves.step ?_ (timeMod_moves ..) rfl
        exact Moves.step hy0 (stepTime_moves ..) rfl
      ·
        refine Moves.ite ?_ ?_
        ·
          refine Moves.step ?_ (slewOffset_moves ..) rfl
          exact Moves.step hy0 (measured_moves ..) rfl
        ·
          exact hy0

theorem execPortPtpTxtsRead_moves (a0 s) : MovesAll hasNext [.out, .ports] s (execPortPtpTxtsRead a0 s) := by
  unfold execPortPtpTxtsRead
  extract_lets -merge -useContext -underBinder y0
  clear_value y0
  refine hasNext_onElem ?_
  refine Moves.step ?_ (portRegRead_moves ..) rfl
  exact Moves.step (Moves.refl _ s) (emit_moves ..) rfl

theorem execLogAppend_moves (s) : MovesAll hasNext [.log, .svc, .mem] s (execLogAppend s) := by
  unfold execLogAppend
  refine hasNext_next ?_
  split
  ·
    exact (Moves.refl _ s)
  ·
    refine Moves.step ?_ (logAppend_moves ..) rfl
    exact Moves.step (Moves.refl _ s) (evlogMod_moves ..) rfl

theorem opLogRead_moves (c s) : DoneMoves [] s ((opLogRead).body c s) := by
  unfold opLogRead
  refine op_mk ?_
  extract_lets -merge -useContext -underBinder y0
  clear_value y0
  refine DoneMoves.ite ?_ ?_
  ·
    exact hasDone_refuse
  ·
    split
    ·
      exact hasDone_refuse
    ·
      refine hasDone_accept ?_ (fun u => Moves.refl _ u)
      exact (Moves.refl _ s)

theorem execLogRead_moves (a0 s) : MovesAll hasNext [.waiting, .out, .regs, .log, .cmd, .prot, .host, .svc] s (execLogRead a0 s) := by
  unfold execLogRead
  refine hasNext_next ?_
  exact Moves.step (Moves.refl _ s) (runCmd_moves _ _ _ (opLogRead_moves ..)) rfl

theorem execLogReadComplete_moves (a0 a1 a2 s) : MovesAll hasNext [.out, .regs, .log, .cmd, .host, .svc, .mem] s (execLogReadComplete a0 a1 a2 s) := by
  unfold execLogReadComplete
  refine hasNext_next ?_
  split
  ·
    exact (Moves.refl _ s)
  ·
    extract_lets -merge -useContext -underBinder y0
    clear_value y0
    split
    ·
      extract_lets -merge -useContext -underBinder y1 y2
      have hy1 : Moves [.out, .regs, .log, .cmd, .host, .svc, .mem] s y1 := by
        unfold y1
        exact Moves.step (Moves.refl _ s) (evlogMod_moves ..) rfl
      clear_value y1
      have hy2 : Moves [.out, .regs, .log, .cmd, .host, .svc, .mem] s y2 := by
        unfold y2
        refine Moves.ite ?_ ?_
        ·
          refine Moves.foldl ?_ (fun t3 x4 ht3 => ?_)
          ·
            exact hy1
          ·
            exact Moves.step ht3 (countReads_moves ..) rfl
        ·
          exact hy1
      clear_value y2
      exact Moves.step hy2 (finishBuffer_moves ..) rfl

theorem opLogTraceArm_moves (c s) : DoneMoves [.regs, .log] s ((opLogTraceArm).body c s) := by
  unfold opLogTraceArm
  refine op_mk ?_
  refine DoneMoves.ite ?_ ?_
  ·
    refine hasDone_reply ?_
    exact Moves.step (Moves.refl _ s) (evlogMod_moves ..) rfl
  ·
    refine DoneMoves.ite ?_ ?_
    ·
      refine hasDone_reply ?_
      exact Moves.step (Moves.refl _ s) (traceFreeze_moves ..) rfl
    ·
      exact hasDone_refuse

theorem execLogTraceArm_moves (a0 s) : MovesAll hasNext [.waiting, .out, .regs, .log, .cmd, .prot, .host, .svc] s (execLogTraceArm a0 s) := by
  unfold execLogTraceArm
  refine hasNext_next ?_
  exact Moves.step (Moves.refl _ s) (runCmd_moves _ _ _ (opLogTraceArm_moves ..)) rfl

theorem opLogTraceRead_moves (c s) : DoneMoves [] s ((opLogTraceRead).body c s) := by
  unfold opLogTraceRead
  refine op_mk ?_
  split
  ·
    exact hasDone_refuse
  ·
    refine hasDone_accept ?_ (fun u => Moves.refl _ u)
    exact (Moves.refl _ s)

theorem execLogTraceRead_moves (a0 s) : MovesAll hasNext [.waiting, .out, .regs, .log, .cmd, .prot, .host, .svc] s (execLogTraceRead a0 s) := by
  unfold execLogTraceRead
  refine hasNext_next ?_
  exact Moves.step (Moves.refl _ s) (runCmd_moves _ _ _ (opLogTraceRead_moves ..)) rfl

theorem execLogTraceReadComplete_moves (a0 a1 a2 s) : MovesAll hasNext [.out, .regs, .log, .cmd, .host, .svc, .mem] s (execLogTraceReadComplete a0 a1 a2 s) := by
  unfold execLogTraceReadComplete
  refine hasNext_next ?_
  split
  ·
    exact (Moves.refl _ s)
  ·
    extract_lets -merge -useContext -underBinder y0
    clear_value y0
    exact Moves.step (Moves.refl _ s) (finishBuffer_moves ..) rfl

theorem exec_moves (a0 s) : MovesAll hasNext [.waiting, .out, .freeIx, .regs, .time, .log, .cmd, .cfg, .prot, .boot, .power, .twin, .spare, .ports, .tbl, .buf, .cry, .flow, .host, .sto, .svc, .mbx, .mem, .cart, .age, .test, .therm, .flash] s (exec a0 s) := by
  unfold exec
  split
  ·
    exact MovesAll.step (Moves.refl _ s) (execSysNop_moves _ _) rfl
  ·
    exact MovesAll.step (Moves.refl _ s) (execSysInfo_moves _ _) rfl
  ·
    exact MovesAll.step (Moves.refl _ s) (execSysEpochRead_moves _ _) rfl
  ·
    exact MovesAll.step (Moves.refl _ s) (execSysPathQuery_moves _ _) rfl
  ·
    exact MovesAll.step (Moves.refl _ s) (execSysDrain_moves _ _) rfl
  ·
    exact MovesAll.step (Moves.refl _ s) (execSysReset_moves _ _) rfl
  ·
    exact MovesAll.step (Moves.refl _ s) (execSysFwLoad_moves _ _) rfl
  ·
    exact MovesAll.step (Moves.refl _ s) (execSysFwActivate_moves _ _) rfl
  ·
    exact MovesAll.step (Moves.refl _ s) (execCfgStage_moves _ _) rfl
  ·
    exact MovesAll.step (Moves.refl _ s) (execCfgFix_moves _ _) rfl
  ·
    exact MovesAll.step (Moves.refl _ s) (execCfgDiscard_moves _ _) rfl
  ·
    exact MovesAll.step (Moves.refl _ s) (execCfgWrite_moves _ _) rfl
  ·
    exact MovesAll.step (Moves.refl _ s) (execCfgOverlay_moves _ _) rfl
  ·
    exact MovesAll.step (Moves.refl _ s) (execCfgRead_moves _ _) rfl
  ·
    exact MovesAll.step (Moves.refl _ s) (execTblInsert_moves _ _) rfl
  ·
    exact MovesAll.step (Moves.refl _ s) (execTblDelete_moves _ _) rfl
  ·
    exact MovesAll.step (Moves.refl _ s) (execTblModify_moves _ _) rfl
  ·
    exact MovesAll.step (Moves.refl _ s) (execTblLookup_moves _ _) rfl
  ·
    exact MovesAll.step (Moves.refl _ s) (execTblProgramSet_moves _ _) rfl
  ·
    exact MovesAll.step (Moves.refl _ s) (execTblTemplateSet_moves _ _) rfl
  ·
    exact MovesAll.step (Moves.refl _ s) (execTblGroupSet_moves _ _) rfl
  ·
    exact MovesAll.step (Moves.refl _ s) (execTblLagSet_moves _ _) rfl
  ·
    exact MovesAll.step (Moves.refl _ s) (execTblCounterRead_moves _ _) rfl
  ·
    exact MovesAll.step (Moves.refl _ s) (execTblMeterSet_moves _ _) rfl
  ·
    exact MovesAll.step (Moves.refl _ s) (execPortRead_moves _ _) rfl
  ·
    exact MovesAll.step (Moves.refl _ s) (execPortRestart_moves _ _) rfl
  ·
    exact MovesAll.step (Moves.refl _ s) (execPortSnapshot_moves _ _) rfl
  ·
    exact MovesAll.step (Moves.refl _ s) (execPortPartnerRead_moves _ _) rfl
  ·
    exact MovesAll.step (Moves.refl _ s) (execCryKekLoad_moves _ _) rfl
  ·
    exact MovesAll.step (Moves.refl _ s) (execCryCakSet_moves _ _) rfl
  ·
    exact MovesAll.step (Moves.refl _ s) (execCryCakClear_moves _ _) rfl
  ·
    exact MovesAll.step (Moves.refl _ s) (execCryMkaRead_moves _ _) rfl
  ·
    exact MovesAll.step (Moves.refl _ s) (execCryMkaRekey_moves _ _) rfl
  ·
    exact MovesAll.step (Moves.refl _ s) (execCrySaInstall_moves _ _) rfl
  ·
    exact MovesAll.step (Moves.refl _ s) (execCrySaRemove_moves _ _) rfl
  ·
    exact MovesAll.step (Moves.refl _ s) (execCrySaRead_moves _ _) rfl
  ·
    exact MovesAll.step (Moves.refl _ s) (execCryTlsInstall_moves _ _) rfl
  ·
    exact MovesAll.step (Moves.refl _ s) (execCryTlsResync_moves _ _) rfl
  ·
    exact MovesAll.step (Moves.refl _ s) (execCryTlsRemove_moves _ _) rfl
  ·
    exact MovesAll.step (Moves.refl _ s) (execCryTlsRead_moves _ _) rfl
  ·
    exact MovesAll.step (Moves.refl _ s) (execFlowInsert_moves _ _) rfl
  ·
    exact MovesAll.step (Moves.refl _ s) (execFlowDelete_moves _ _) rfl
  ·
    exact MovesAll.step (Moves.refl _ s) (execFlowRead_moves _ _) rfl
  ·
    exact MovesAll.step (Moves.refl _ s) (execFlowModify_moves _ _) rfl
  ·
    exact MovesAll.step (Moves.refl _ s) (execFlowFlush_moves _ _) rfl
  ·
    exact MovesAll.step (Moves.refl _ s) (execVfQuery_moves _ _) rfl
  ·
    exact MovesAll.step (Moves.refl _ s) (execVfSuspend_moves _ _) rfl
  ·
    exact MovesAll.step (Moves.refl _ s) (execVfResume_moves _ _) rfl
  ·
    exact MovesAll.step (Moves.refl _ s) (execVfLogStart_moves _ _) rfl
  ·
    exact MovesAll.step (Moves.refl _ s) (execVfLogHarvest_moves _ _) rfl
  ·
    exact MovesAll.step (Moves.refl _ s) (execVfLogStop_moves _ _) rfl
  ·
    exact MovesAll.step (Moves.refl _ s) (execVfSave_moves _ _) rfl
  ·
    exact MovesAll.step (Moves.refl _ s) (execVfRestore_moves _ _) rfl
  ·
    exact MovesAll.step (Moves.refl _ s) (execDmaQpSet_moves _ _) rfl
  ·
    exact MovesAll.step (Moves.refl _ s) (execDmaQpStart_moves _ _) rfl
  ·
    exact MovesAll.step (Moves.refl _ s) (execDmaQpStop_moves _ _) rfl
  ·
    exact MovesAll.step (Moves.refl _ s) (execDmaQpFlush_moves _ _) rfl
  ·
    exact MovesAll.step (Moves.refl _ s) (execDmaQpRead_moves _ _) rfl
  ·
    exact MovesAll.step (Moves.refl _ s) (execDmaChAssign_moves _ _) rfl
  ·
    exact MovesAll.step (Moves.refl _ s) (execDmaChProgram_moves _ _) rfl
  ·
    exact MovesAll.step (Moves.refl _ s) (execDmaChEnable_moves _ _) rfl
  ·
    exact MovesAll.step (Moves.refl _ s) (execDmaChRead_moves _ _) rfl
  ·
    exact MovesAll.step (Moves.refl _ s) (execStoNqnSet_moves _ _) rfl
  ·
    exact MovesAll.step (Moves.refl _ s) (execStoPathAdd_moves _ _) rfl
  ·
    exact MovesAll.step (Moves.refl _ s) (execStoPathRemove_moves _ _) rfl
  ·
    exact MovesAll.step (Moves.refl _ s) (execStoNsAdd_moves _ _) rfl
  ·
    exact MovesAll.step (Moves.refl _ s) (execStoNsRemove_moves _ _) rfl
  ·
    exact MovesAll.step (Moves.refl _ s) (execStoNsAttach_moves _ _) rfl
  ·
    exact MovesAll.step (Moves.refl _ s) (execStoNsDetach_moves _ _) rfl
  ·
    exact MovesAll.step (Moves.refl _ s) (execStoNsKey_moves _ _) rfl
  ·
    exact MovesAll.step (Moves.refl _ s) (execStoRead_moves _ _) rfl
  ·
    exact MovesAll.step (Moves.refl _ s) (execSvcImageLoad_moves _ _) rfl
  ·
    exact MovesAll.step (Moves.refl _ s) (execSvcStart_moves _ _) rfl
  ·
    exact MovesAll.step (Moves.refl _ s) (execSvcStop_moves _ _) rfl
  ·
    exact MovesAll.step (Moves.refl _ s) (execSvcReplace_moves _ _) rfl
  ·
    exact MovesAll.step (Moves.refl _ s) (execSvcBedQuery_moves _ _) rfl
  ·
    exact MovesAll.step (Moves.refl _ s) (execSvcSlotRead_moves _ _) rfl
  ·
    exact MovesAll.step (Moves.refl _ s) (execDbgHalt_moves _ _) rfl
  ·
    exact MovesAll.step (Moves.refl _ s) (execDbgResume_moves _ _) rfl
  ·
    exact MovesAll.step (Moves.refl _ s) (execDbgAbandonMessage_moves _ _) rfl
  ·
    exact MovesAll.step (Moves.refl _ s) (execDbgObserve_moves _ _) rfl
  ·
    exact MovesAll.step (Moves.refl _ s) (execDbgReadReg_moves _ _) rfl
  ·
    exact MovesAll.step (Moves.refl _ s) (execDbgOpen_moves _ _) rfl
  ·
    exact MovesAll.step (Moves.refl _ s) (execDbgClose_moves _ _) rfl
  ·
    exact MovesAll.step (Moves.refl _ s) (execTestRun_moves _ _) rfl
  ·
    exact MovesAll.step (Moves.refl _ s) (execTestResult_moves _ _) rfl
  ·
    exact MovesAll.step (Moves.refl _ s) (execTestSchedule_moves _ _) rfl
  ·
    exact MovesAll.step (Moves.refl _ s) (execAgeReport_moves _ _) rfl
  ·
    exact MovesAll.step (Moves.refl _ s) (execAgeSheetRead_moves _ _) rfl
  ·
    exact MovesAll.step (Moves.refl _ s) (execAgeSheetTime_moves _ _) rfl
  ·
    exact MovesAll.step (Moves.refl _ s) (execCartRead_moves _ _) rfl
  ·
    exact MovesAll.step (Moves.refl _ s) (execCartPrepareSwap_moves _ _) rfl
  ·
    exact MovesAll.step (Moves.refl _ s) (execCartCancelSwap_moves _ _) rfl
  ·
    exact MovesAll.step (Moves.refl _ s) (execTwinStatus_moves _ _) rfl
  ·
    exact MovesAll.step (Moves.refl _ s) (execTwinWitnessSet_moves _ _) rfl
  ·
    exact MovesAll.step (Moves.refl _ s) (execTwinHandover_moves _ _) rfl
  ·
    exact MovesAll.step (Moves.refl _ s) (execLogRead_moves _ _) rfl
  ·
    exact MovesAll.step (Moves.refl _ s) (execLogTraceArm_moves _ _) rfl
  ·
    exact MovesAll.step (Moves.refl _ s) (execLogTraceRead_moves _ _) rfl
  ·
    exact MovesAll.step (Moves.refl _ s) (execUnitFault_moves _ _) rfl
  ·
    exact MovesAll.step (Moves.refl _ s) (execUnitHang_moves _ _) rfl
  ·
    exact MovesAll.step (Moves.refl _ s) (execGraftComplete_moves _ _) rfl
  ·
    exact MovesAll.step (Moves.refl _ s) (execGraftTimeout_moves _ _) rfl
  ·
    exact MovesAll.step (Moves.refl _ s) (execElementLoss_moves _ _) rfl
  ·
    exact MovesAll.step (Moves.refl _ s) (execDieLinkQuarterFail_moves _ _ _) rfl
  ·
    exact MovesAll.step (Moves.refl _ s) (execRateHuntTimeout_moves _ _) rfl
  ·
    exact MovesAll.step (Moves.refl _ s) (execReceiverLock_moves _ _ _) rfl
  ·
    exact MovesAll.step (Moves.refl _ s) (execCandidateDwellExpiry_moves _ _) rfl
  ·
    exact MovesAll.step (Moves.refl _ s) (execFecPartnerIdentified_moves _ _ _) rfl
  ·
    exact MovesAll.step (Moves.refl _ s) (execFecMismatchWaitExpiry_moves _ _) rfl
  ·
    exact MovesAll.step (Moves.refl _ s) (execLockHoldExpiry_moves _ _) rfl
  ·
    exact MovesAll.step (Moves.refl _ s) (execLockLost_moves _ _) rfl
  ·
    exact MovesAll.step (Moves.refl _ s) (execLinkFaultPersist_moves _ _) rfl
  ·
    exact MovesAll.step (Moves.refl _ s) (execHeldExpiry_moves _ _) rfl
  ·
    exact MovesAll.step (Moves.refl _ s) (execFrameReceived_moves _ _ _ _ _ _ _ _) rfl
  ·
    exact MovesAll.step (Moves.refl _ s) (execPfcRefreshTimer_moves _ _) rfl
  ·
    exact MovesAll.step (Moves.refl _ s) (execPfcFrameReceived_moves _ _ _ _) rfl
  ·
    exact MovesAll.step (Moves.refl _ s) (execPauseFrameReceived_moves _ _ _) rfl
  ·
    exact MovesAll.step (Moves.refl _ s) (execPauseTimeExpiry_moves _ _ _) rfl
  ·
    exact MovesAll.step (Moves.refl _ s) (execLldpFrameReceived_moves _ _ _) rfl
  ·
    exact MovesAll.step (Moves.refl _ s) (execLldpTransmitTimer_moves _ _) rfl
  ·
    exact MovesAll.step (Moves.refl _ s) (execDcbxAbsentTimeout_moves _ _) rfl
  ·
    exact MovesAll.step (Moves.refl _ s) (execLldpPartnerAgeout_moves _ _) rfl
  ·
    exact MovesAll.step (Moves.refl _ s) (execPortSyncOverflow_moves _ _ _) rfl
  ·
    exact MovesAll.step (Moves.refl _ s) (execMkpduReceived_moves _ _ _ _) rfl
  ·
    exact MovesAll.step (Moves.refl _ s) (execMkaHelloTimer_moves _ _) rfl
  ·
    exact MovesAll.step (Moves.refl _ s) (execMkaLifeExpiry_moves _ _ _) rfl
  ·
    exact MovesAll.step (Moves.refl _ s) (execParsePass_moves _ _ _ _) rfl
  ·
    exact MovesAll.step (Moves.refl _ s) (execFragmentHoldTimeout_moves _ _ _) rfl
  ·
    exact MovesAll.step (Moves.refl _ s) (execFragmentEntryTimeout_moves _ _ _) rfl
  ·
    exact MovesAll.step (Moves.refl _ s) (execChannelDelivery_moves _ _ _ _ _) rfl
  ·
    exact MovesAll.step (Moves.refl _ s) (execEgressDequeue_moves _ _ _) rfl
  ·
    exact MovesAll.step (Moves.refl _ s) (execTwinPacketReceived_moves _ _ _ _ _ _) rfl
  ·
    exact MovesAll.step (Moves.refl _ s) (execCryptoEncrypt_moves _ _ _) rfl
  ·
    exact MovesAll.step (Moves.refl _ s) (execCryptoDecrypt_moves _ _ _ _ _) rfl
  ·
    exact MovesAll.step (Moves.refl _ s) (execTlsTxSegment_moves _ _ _) rfl
  ·
    exact MovesAll.step (Moves.refl _ s) (execTlsRxSegment_moves _ _ _ _ _) rfl
  ·
    exact MovesAll.step (Moves.refl _ s) (execCryptoRecordFetch_moves _ _) rfl
  ·
    exact MovesAll.step (Moves.refl _ s) (execFlowMissService_moves _ _ _) rfl
  ·
    exact MovesAll.step (Moves.refl _ s) (execFlowIdleSweep_moves _ _) rfl
  ·
    exact MovesAll.step (Moves.refl _ s) (execFlowWriteBack_moves _ _) rfl
  ·
    exact MovesAll.step (Moves.refl _ s) (execFlowDeltaMerge_moves _ _ _) rfl
  ·
    exact MovesAll.step (Moves.refl _ s) (execFlowTwinLag_moves _ _) rfl
  ·
    exact MovesAll.step (Moves.refl _ s) (execFlowTwinResyncDone_moves _) rfl
  ·
    exact MovesAll.step (Moves.refl _ s) (execHostLinkTrained_moves _ _ _ _ _ _) rfl
  ·
    exact MovesAll.step (Moves.refl _ s) (execPerstAssert_moves _ _ _) rfl
  ·
    exact MovesAll.step (Moves.refl _ s) (execHotReset_moves _ _ _) rfl
  ·
    exact MovesAll.step (Moves.refl _ s) (execHostLinkLoss_moves _ _ _) rfl
  ·
    exact MovesAll.step (Moves.refl _ s) (execHostFatalError_moves _ _ _ _) rfl
  ·
    exact MovesAll.step (Moves.refl _ s) (execFunctionLevelReset_moves _ _) rfl
  ·
    exact MovesAll.step (Moves.refl _ s) (execFlrComplete_moves _ _) rfl
  ·
    exact MovesAll.step (Moves.refl _ s) (execBusMasterEnableClear_moves _ _) rfl
  ·
    exact MovesAll.step (Moves.refl _ s) (execBusMasterEnableSet_moves _ _) rfl
  ·
    exact MovesAll.step (Moves.refl _ s) (execCompletionTimeout_moves _ _ _) rfl
  ·
    exact MovesAll.step (Moves.refl _ s) (execHostCompletionReceived_moves _ _ _ _ _) rfl
  ·
    exact MovesAll.step (Moves.refl _ s) (execBar0UnsupportedAccess_moves _ _ _) rfl
  ·
    exact MovesAll.step (Moves.refl _ s) (execBar2Access_moves _ _ _ _ _) rfl
  ·
    exact MovesAll.step (Moves.refl _ s) (execWinCommit_moves _ _ _) rfl
  ·
    exact MovesAll.step (Moves.refl _ s) (execWinCommitComplete_moves _ _) rfl
  ·
    exact MovesAll.step (Moves.refl _ s) (execPfCqDb_moves _ _ _ _ _ _) rfl
  ·
    exact MovesAll.step (Moves.refl _ s) (execPfCqEnable_moves _ _ _ _ _ _) rfl
  ·
    exact MovesAll.step (Moves.refl _ s) (execPfCqDisable_moves _ _ _ _) rfl
  ·
    exact MovesAll.step (Moves.refl _ s) (execPfCqRqHead_moves _ _ _ _ _ _) rfl
  ·
    exact MovesAll.step (Moves.refl _ s) (execPfIntxCauseRead_moves _ _) rfl
  ·
    exact MovesAll.step (Moves.refl _ s) (execL0pNarrow_moves _ _ _) rfl
  ·
    exact MovesAll.step (Moves.refl _ s) (execAspmL1Entry_moves _ _ _) rfl
  ·
    exact MovesAll.step (Moves.refl _ s) (execPowerStateChange_moves _ _ _) rfl
  ·
    exact MovesAll.step (Moves.refl _ s) (execNumvfsWrite_moves _ _ _) rfl
  ·
    exact MovesAll.step (Moves.refl _ s) (execVfEnableSet_moves _ _) rfl
  ·
    exact MovesAll.step (Moves.refl _ s) (execVfEnableClear_moves _ _) rfl
  ·
    exact MovesAll.step (Moves.refl _ s) (execVfCtrlEnableSet_moves _ _) rfl
  ·
    exact MovesAll.step (Moves.refl _ s) (execVfCtrlEnableClear_moves _ _) rfl
  ·
    exact MovesAll.step (Moves.refl _ s) (execVfShutdownDone_moves _ _) rfl
  ·
    exact MovesAll.step (Moves.refl _ s) (execVfSuspendComplete_moves _ _) rfl
  ·
    exact MovesAll.step (Moves.refl _ s) (execVfLogHarvestComplete_moves _ _ _) rfl
  ·
    exact MovesAll.step (Moves.refl _ s) (execVfSaveComplete_moves _ _ _) rfl
  ·
    exact MovesAll.step (Moves.refl _ s) (execVfRestored_moves _ _ _ _) rfl
  ·
    exact MovesAll.step (Moves.refl _ s) (execQpDbTx_moves _ _ _ _) rfl
  ·
    exact MovesAll.step (Moves.refl _ s) (execQpDbRx_moves _ _ _ _) rfl
  ·
    exact MovesAll.step (Moves.refl _ s) (execQpDbCq_moves _ _ _ _) rfl
  ·
    exact MovesAll.step (Moves.refl _ s) (execHostTxFetch_moves _ _ _ _ _) rfl
  ·
    exact MovesAll.step (Moves.refl _ s) (execHostRxDelivery_moves _ _ _ _ _ _) rfl
  ·
    exact MovesAll.step (Moves.refl _ s) (execInterruptModerationTimer_moves _ _ _) rfl
  ·
    exact MovesAll.step (Moves.refl _ s) (execDmaQpFlushed_moves _ _ _) rfl
  ·
    exact MovesAll.step (Moves.refl _ s) (execDmaBeat_moves _ _) rfl
  ·
    exact MovesAll.step (Moves.refl _ s) (execDmaRequestLineAssert_moves _ _ _) rfl
  ·
    exact MovesAll.step (Moves.refl _ s) (execNvmeSqDoorbell_moves _ _ _ _) rfl
  ·
    exact MovesAll.step (Moves.refl _ s) (execNvmeCcEnable_moves _ _ _) rfl
  ·
    exact MovesAll.step (Moves.refl _ s) (execNvmeCcDisable_moves _ _ _) rfl
  ·
    exact MovesAll.step (Moves.refl _ s) (execNvmeCcShutdown_moves _ _ _) rfl
  ·
    exact MovesAll.step (Moves.refl _ s) (execNvmeIdentify_moves _ _ _ _) rfl
  ·
    exact MovesAll.step (Moves.refl _ s) (execNvmeGetLogPage_moves _ _ _ _) rfl
  ·
    exact MovesAll.step (Moves.refl _ s) (execNvmeSetFeatures_moves _ _ _) rfl
  ·
    exact MovesAll.step (Moves.refl _ s) (execNvmeGetFeatures_moves _ _ _) rfl
  ·
    exact MovesAll.step (Moves.refl _ s) (execNvmeCreateIoSq_moves _ _ _) rfl
  ·
    exact MovesAll.step (Moves.refl _ s) (execNvmeCreateIoCq_moves _ _ _) rfl
  ·
    exact MovesAll.step (Moves.refl _ s) (execNvmeDeleteIoSq_moves _ _ _) rfl
  ·
    exact MovesAll.step (Moves.refl _ s) (execNvmeDeleteIoCq_moves _ _ _) rfl
  ·
    exact MovesAll.step (Moves.refl _ s) (execNvmeAbort_moves _ _ _) rfl
  ·
    exact MovesAll.step (Moves.refl _ s) (execNvmeAsyncEventRequest_moves _ _ _) rfl
  ·
    exact MovesAll.step (Moves.refl _ s) (execNvmeRead_moves _ _ _ _ _) rfl
  ·
    exact MovesAll.step (Moves.refl _ s) (execNvmeWrite_moves _ _ _ _ _ _) rfl
  ·
    exact MovesAll.step (Moves.refl _ s) (execNvmeFlush_moves _ _ _ _) rfl
  ·
    exact MovesAll.step (Moves.refl _ s) (execNvmeWriteZeroes_moves _ _ _ _) rfl
  ·
    exact MovesAll.step (Moves.refl _ s) (execNvmeDatasetManagement_moves _ _ _ _ _) rfl
  ·
    exact MovesAll.step (Moves.refl _ s) (execNvmeCompare_moves _ _ _ _ _ _) rfl
  ·
    exact MovesAll.step (Moves.refl _ s) (execBedStorageSubmit_moves _ _ _) rfl
  ·
    exact MovesAll.step (Moves.refl _ s) (execTargetResponse_moves _ _ _ _ _ _ _) rfl
  ·
    exact MovesAll.step (Moves.refl _ s) (execStoPathUp_moves _ _ _) rfl
  ·
    exact MovesAll.step (Moves.refl _ s) (execPathConnectionError_moves _ _) rfl
  ·
    exact MovesAll.step (Moves.refl _ s) (execKeepAliveTimeout_moves _ _) rfl
  ·
    exact MovesAll.step (Moves.refl _ s) (execIoTimeout_moves _ _) rfl
  ·
    exact MovesAll.step (Moves.refl _ s) (execRoceRetryExhausted_moves _ _) rfl
  ·
    exact MovesAll.step (Moves.refl _ s) (execTargetFatalStatus_moves _ _) rfl
  ·
    exact MovesAll.step (Moves.refl _ s) (execPathReconnectTimer_moves _ _) rfl
  ·
    exact MovesAll.step (Moves.refl _ s) (execNamespaceHoldExpiry_moves _ _) rfl
  ·
    exact MovesAll.step (Moves.refl _ s) (execNsDetachComplete_moves _ _ _ _) rfl
  ·
    exact MovesAll.step (Moves.refl _ s) (execInstructionIssue_moves _ _ _) rfl
  ·
    exact MovesAll.step (Moves.refl _ s) (execChWr_moves _ _ _ _ _ _) rfl
  ·
    exact MovesAll.step (Moves.refl _ s) (execChWre_moves _ _ _ _ _ _) rfl
  ·
    exact MovesAll.step (Moves.refl _ s) (execChRdh_moves _ _ _ _ _) rfl
  ·
    exact MovesAll.step (Moves.refl _ s) (execChTry_moves _ _ _ _ _) rfl
  ·
    exact MovesAll.step (Moves.refl _ s) (execChRdw_moves _ _ _ _ _) rfl
  ·
    exact MovesAll.step (Moves.refl _ s) (execChAbt_moves _ _ _ _) rfl
  ·
    exact MovesAll.step (Moves.refl _ s) (execChCnt_moves _ _ _ _ _) rfl
  ·
    exact MovesAll.step (Moves.refl _ s) (execChFree_moves _ _ _ _ _) rfl
  ·
    exact MovesAll.step (Moves.refl _ s) (execLkAcq_moves _ _ _ _ _) rfl
  ·
    exact MovesAll.step (Moves.refl _ s) (execLkTry_moves _ _ _ _ _) rfl
  ·
    exact MovesAll.step (Moves.refl _ s) (execLkRel_moves _ _ _ _) rfl
  ·
    exact MovesAll.step (Moves.refl _ s) (execTmSet_moves _ _ _ _ _) rfl
  ·
    exact MovesAll.step (Moves.refl _ s) (execEcall_moves _ _ _) rfl
  ·
    exact MovesAll.step (Moves.refl _ s) (execEbreak_moves _ _ _) rfl
  ·
    exact MovesAll.step (Moves.refl _ s) (execSvcTimerExpiry_moves _ _ _) rfl
  ·
    exact MovesAll.step (Moves.refl _ s) (execLockLimitExpiry_moves _ _ _) rfl
  ·
    exact MovesAll.step (Moves.refl _ s) (execStallTimeout_moves _ _) rfl
  ·
    exact MovesAll.step (Moves.refl _ s) (execSvcLockRelease_moves _ _ _) rfl
  ·
    exact MovesAll.step (Moves.refl _ s) (execSvcThreadRun_moves _ _ _) rfl
  ·
    exact MovesAll.step (Moves.refl _ s) (execSvcChanEnable_moves _ _ _ _) rfl
  ·
    exact MovesAll.step (Moves.refl _ s) (execSvcChanDisable_moves _ _ _ _) rfl
  ·
    exact MovesAll.step (Moves.refl _ s) (execSvcReadySet_moves _ _) rfl
  ·
    exact MovesAll.step (Moves.refl _ s) (execSvcReadyClear_moves _ _) rfl
  ·
    exact MovesAll.step (Moves.refl _ s) (execStartTimeout_moves _ _) rfl
  ·
    exact MovesAll.step (Moves.refl _ s) (execStopGraceExpiry_moves _ _) rfl
  ·
    exact MovesAll.step (Moves.refl _ s) (execSvcCmdqDb_moves _ _ _) rfl
  ·
    exact MovesAll.step (Moves.refl _ s) (execSvcCmdqEnable_moves _ _ _) rfl
  ·
    exact MovesAll.step (Moves.refl _ s) (execSvcCmdqDisable_moves _ _ _) rfl
  ·
    exact MovesAll.step (Moves.refl _ s) (execSvcImageVerified_moves _ _ _ _ _) rfl
  ·
    exact MovesAll.step (Moves.refl _ s) (execOobCommandMessage_moves _ _ _) rfl
  ·
    exact MovesAll.step (Moves.refl _ s) (execTwinForwardedCommand_moves _ _ _ _ _ _ _) rfl
  ·
    exact MovesAll.step (Moves.refl _ s) (execSysDrained_moves _ _) rfl
  ·
    exact MovesAll.step (Moves.refl _ s) (execPackageRestartBegin_moves _) rfl
  ·
    exact MovesAll.step (Moves.refl _ s) (execFwImageVerified_moves _ _ _ _ _ _ _ _) rfl
  ·
    exact MovesAll.step (Moves.refl _ s) (execPrepareReceived_moves _ _) rfl
  ·
    exact MovesAll.step (Moves.refl _ s) (execPreparedReceived_moves _ _) rfl
  ·
    exact MovesAll.step (Moves.refl _ s) (execRefusedReceived_moves _ _ _ _) rfl
  ·
    exact MovesAll.step (Moves.refl _ s) (execCommitReceived_moves _ _) rfl
  ·
    exact MovesAll.step (Moves.refl _ s) (execCommittedReceived_moves _ _) rfl
  ·
    exact MovesAll.step (Moves.refl _ s) (execAbortReceived_moves _ _) rfl
  ·
    exact MovesAll.step (Moves.refl _ s) (execPrepareReplyTimeout_moves _) rfl
  ·
    exact MovesAll.step (Moves.refl _ s) (execStageTimeout_moves _) rfl
  ·
    exact MovesAll.step (Moves.refl _ s) (execEpochHoldExpiry_moves _ _) rfl
  ·
    exact MovesAll.step (Moves.refl _ s) (execTblReseedDone_moves _ _) rfl
  ·
    exact MovesAll.step (Moves.refl _ s) (execFlowFlushComplete_moves _) rfl
  ·
    exact MovesAll.step (Moves.refl _ s) (execDebugTokenExpiry_moves _ _) rfl
  ·
    exact MovesAll.step (Moves.refl _ s) (execHandoverDrained_moves _) rfl
  ·
    exact MovesAll.step (Moves.refl _ s) (execMbxSend_moves _ _ _) rfl
  ·
    exact MovesAll.step (Moves.refl _ s) (execMbxMsgRead_moves _ _ _ _) rfl
  ·
    exact MovesAll.step (Moves.refl _ s) (execMbxDbSet_moves _ _ _) rfl
  ·
    exact MovesAll.step (Moves.refl _ s) (execMbxDbClear_moves _ _ _) rfl
  ·
    exact MovesAll.step (Moves.refl _ s) (execMbxDbMaskWrite_moves _ _ _) rfl
  ·
    exact MovesAll.step (Moves.refl _ s) (execMemTrained_moves _ _) rfl
  ·
    exact MovesAll.step (Moves.refl _ s) (execPatrolScrubRead_moves _ _ _ _ _ _ _) rfl
  ·
    exact MovesAll.step (Moves.refl _ s) (execDimmThermalRead_moves _ _ _ _) rfl
  ·
    exact MovesAll.step (Moves.refl _ s) (execMemoryChannelFailure_moves _ _ _) rfl
  ·
    exact MovesAll.step (Moves.refl _ s) (execCartPresenceAssert_moves _ _ _) rfl
  ·
    exact MovesAll.step (Moves.refl _ s) (execCartChallengeResponse_moves _ _ _ _) rfl
  ·
    exact MovesAll.step (Moves.refl _ s) (execCartSettleTimeout_moves _ _) rfl
  ·
    exact MovesAll.step (Moves.refl _ s) (execCartRampStep_moves _ _) rfl
  ·
    exact MovesAll.step (Moves.refl _ s) (execCartLatchOpen_moves _ _) rfl
  ·
    exact MovesAll.step (Moves.refl _ s) (execCartPresenceOpen_moves _ _) rfl
  ·
    exact MovesAll.step (Moves.refl _ s) (execLaserFailure_moves _ _ _) rfl
  ·
    exact MovesAll.step (Moves.refl _ s) (execOpticalEngineFault_moves _ _ _) rfl
  ·
    exact MovesAll.step (Moves.refl _ s) (execCartBusSilence_moves _ _) rfl
  ·
    exact MovesAll.step (Moves.refl _ s) (execCartReplaceReminder_moves _ _) rfl
  ·
    exact MovesAll.step (Moves.refl _ s) (execGovernorScan_moves _ _ _ _) rfl
  ·
    exact MovesAll.step (Moves.refl _ s) (execGovernorRailStep_moves _ _) rfl
  ·
    exact MovesAll.step (Moves.refl _ s) (execRailMonitorCheck_moves _ _ _) rfl
  ·
    exact MovesAll.step (Moves.refl _ s) (execContactSheet_moves _ _) rfl
  ·
    exact MovesAll.step (Moves.refl _ s) (execScheduledExposure_moves _ _ _) rfl
  ·
    exact MovesAll.step (Moves.refl _ s) (execClaimRetryTimer_moves _ _) rfl
  ·
    exact MovesAll.step (Moves.refl _ s) (execExposureTestEnd_moves _ _ _ _ _ _ _) rfl
  ·
    exact MovesAll.step (Moves.refl _ s) (execReferenceCheck_moves _ _ _ _ _) rfl
  ·
    exact MovesAll.step (Moves.refl _ s) (execHeartbeatSend_moves _) rfl
  ·
    exact MovesAll.step (Moves.refl _ s) (execHeartbeatReceived_moves _ _ _ _ _) rfl
  ·
    exact MovesAll.step (Moves.refl _ s) (execHeartbeatMissed_moves _) rfl
  ·
    exact MovesAll.step (Moves.refl _ s) (execWitnessClaimResend_moves _) rfl
  ·
    exact MovesAll.step (Moves.refl _ s) (execWitnessReport_moves _) rfl
  ·
    exact MovesAll.step (Moves.refl _ s) (execWitnessGrant_moves _ _ _ _) rfl
  ·
    exact MovesAll.step (Moves.refl _ s) (execWitnessRefusal_moves _ _ _ _) rfl
  ·
    exact MovesAll.step (Moves.refl _ s) (execVerdictTimeout_moves _) rfl
  ·
    exact MovesAll.step (Moves.refl _ s) (execTwinWitnessLost_moves _ _) rfl
  ·
    exact MovesAll.step (Moves.refl _ s) (execLeaveMessageReceived_moves _) rfl
  ·
    exact MovesAll.step (Moves.refl _ s) (execTwinLaneFailure_moves _ _) rfl
  ·
    exact MovesAll.step (Moves.refl _ s) (execTwinLinkUp_moves _ _ _ _ _ _) rfl
  ·
    exact MovesAll.step (Moves.refl _ s) (execJoinConfigApplied_moves _ _ _ _) rfl
  ·
    exact MovesAll.step (Moves.refl _ s) (execJoinStateCopied_moves _ _) rfl
  ·
    exact MovesAll.step (Moves.refl _ s) (execLacpduReceived_moves _ _ _ _ _) rfl
  ·
    exact MovesAll.step (Moves.refl _ s) (execPwrOkRise_moves _ _ _ _) rfl
  ·
    exact MovesAll.step (Moves.refl _ s) (execPwrOkFall_moves _) rfl
  ·
    exact MovesAll.step (Moves.refl _ s) (execResetNAssert_moves _) rfl
  ·
    exact MovesAll.step (Moves.refl _ s) (execResetNRelease_moves _ _) rfl
  ·
    exact MovesAll.step (Moves.refl _ s) (execFabricBootWindowOpen_moves _ _) rfl
  ·
    exact MovesAll.step (Moves.refl _ s) (execProtCtrlLock_moves _ _) rfl
  ·
    exact MovesAll.step (Moves.refl _ s) (execBootWindowTimeout_moves _ _) rfl
  ·
    exact MovesAll.step (Moves.refl _ s) (execStartTestEnd_moves _ _ _ _) rfl
  ·
    exact MovesAll.step (Moves.refl _ s) (execFullService_moves _ _ _) rfl
  ·
    exact MovesAll.step (Moves.refl _ s) (execTwinAbsentAtStart_moves _) rfl
  ·
    exact MovesAll.step (Moves.refl _ s) (execShdnReqNAssert_moves _) rfl
  ·
    exact MovesAll.step (Moves.refl _ s) (execShutdownBedsStopped_moves _) rfl
  ·
    exact MovesAll.step (Moves.refl _ s) (execShutdownLasersDark_moves _) rfl
  ·
    exact MovesAll.step (Moves.refl _ s) (execDieRestartDrained_moves _ _) rfl
  ·
    exact MovesAll.step (Moves.refl _ s) (execDieRestartReady_moves _ _) rfl
  ·
    exact MovesAll.step (Moves.refl _ s) (execTkRefLoss_moves _) rfl
  ·
    exact MovesAll.step (Moves.refl _ s) (execTkPpsLoss_moves _) rfl
  ·
    exact MovesAll.step (Moves.refl _ s) (execPtpMasterLoss_moves _) rfl
  ·
    exact MovesAll.step (Moves.refl _ s) (execTimeSourceReturn_moves _ _ _) rfl
  ·
    exact MovesAll.step (Moves.refl _ s) (execTimeLockAchieved_moves _) rfl
  ·
    exact MovesAll.step (Moves.refl _ s) (execPtpMessageReceived_moves _ _ _ _ _ _ _ _) rfl
  ·
    exact MovesAll.step (Moves.refl _ s) (execTimeFlashWrite_moves _) rfl
  ·
    exact MovesAll.step (Moves.refl _ s) (execPortPtpTxtsRead_moves _ _) rfl
  ·
    exact MovesAll.step (Moves.refl _ s) (execLogAppend_moves _) rfl
  ·
    exact MovesAll.step (Moves.refl _ s) (execThermalReading_moves _ _ _ _) rfl
  ·
    exact MovesAll.step (Moves.refl _ s) (execFirmwareTrip_moves _ _ _) rfl
  ·
    exact MovesAll.step (Moves.refl _ s) (execHardwareTrip_moves _ _ _) rfl
  ·
    exact MovesAll.step (Moves.refl _ s) (execRegisterWrite_moves _ _ _ _) rfl
  ·
    exact MovesAll.step (Moves.refl _ s) (execLinkFaultDetected_moves _ _ _) rfl
  ·
    exact MovesAll.step (Moves.refl _ s) (execLinkFaultCleared_moves _ _ _) rfl
  ·
    exact MovesAll.step (Moves.refl _ s) (execPerstDeassert_moves _ _ _) rfl
  ·
    exact MovesAll.step (Moves.refl _ s) (execL0pPartnerRequest_moves _ _ _ _) rfl
  ·
    exact MovesAll.step (Moves.refl _ s) (execTwinLaneUp_moves _ _) rfl
  ·
    exact MovesAll.step (Moves.refl _ s) (execTwinReplyReceived_moves _ _ _ _ _ _) rfl
  ·
    exact MovesAll.step (Moves.refl _ s) (execTwinLacpInfoReceived_moves _ _ _ _) rfl
  ·
    exact MovesAll.step (Moves.refl _ s) (execTwinSaStateReceived_moves _ _ _ _) rfl
  ·
    exact MovesAll.step (Moves.refl _ s) (execOobEndpointLoss_moves _ _) rfl
  ·
    exact MovesAll.step (Moves.refl _ s) (execRegisterReadClear_moves _ _ _) rfl
  ·
    exact MovesAll.step (Moves.refl _ s) (execNvmeCqDoorbell_moves _ _ _ _) rfl
  ·
    exact MovesAll.step (Moves.refl _ s) (execCartBusRestored_moves _ _) rfl
  ·
    exact MovesAll.step (Moves.refl _ s) (execCartFatalFault_moves _ _) rfl
  ·
    exact MovesAll.step (Moves.refl _ s) (execLaneFault_moves _ _) rfl
  ·
    exact MovesAll.step (Moves.refl _ s) (execBootMailboxWrite_moves _ _ _) rfl
  ·
    exact MovesAll.step (Moves.refl _ s) (execPortSnapshotComplete_moves _ _ _ _) rfl
  ·
    exact MovesAll.step (Moves.refl _ s) (execAgeSheetReadComplete_moves _ _ _ _) rfl
  ·
    exact MovesAll.step (Moves.refl _ s) (execLogReadComplete_moves _ _ _ _) rfl
  ·
    exact MovesAll.step (Moves.refl _ s) (execLogTraceReadComplete_moves _ _ _ _) rfl

end Sys2Proof.Machine
end

