-- ==== Sys2Proof/Laws/Moves9.lean ====
section
/-! SUPPORT. What the operations of Machine/Pump, Step may change: one lemma `<operation>_moves` per operation. -/

set_option Elab.async false

namespace Sys2Proof.Machine

theorem dropPacket_moves (a0 s) : Moves [.waiting] s (dropPacket a0 s) := by
  unfold dropPacket
  exact Moves.step (m := [.waiting]) (Moves.refl _ s) (Moves.leaf (by intro x hx; cases x <;> first | rfl | exact absurd (by decide) hx) rfl rfl rfl rfl) rfl

theorem badOpcode_moves (a0 a1 s) : Moves [.out, .regs, .log, .host, .svc] s (badOpcode a0 a1 s) := by
  unfold badOpcode
  extract_lets -merge -useContext -underBinder y0 y1
  clear_value y0
  clear_value y1
  exact Moves.step (Moves.refl _ s) (sendReply_moves ..) rfl

theorem sendDeltas_moves (s) : Moves [.out, .flow, .mem] s (sendDeltas s) := by
  unfold sendDeltas
  extract_lets -merge -useContext -underBinder y0 y1 y2 y3
  clear_value y0
  clear_value y1
  clear_value y3
  refine Moves.ite ?_ ?_
  ·
    exact (Moves.refl _ s)
  ·
    refine Moves.ite ?_ ?_
    ·
      refine Moves.ite ?_ ?_
      ·
        exact (Moves.refl _ s)
      ·
        exact Moves.step (Moves.refl _ s) (flowMod_moves ..) rfl
    ·
      refine Moves.ite ?_ ?_
      ·
        exact Moves.step (m := [.flow, .mem]) (Moves.refl _ s) (Moves.leafMem (by intro x hx; cases x <;> first | rfl | exact absurd (by decide) hx) rfl rfl rfl rfl) rfl
      ·
        refine Moves.step ?_ (emitAll_moves ..) rfl
        exact Moves.step (Moves.refl _ s) (flowMod_moves ..) rfl

theorem litSecond_moves (a0 s) : Moves [.out, .cart] s (litSecond a0 s) := by
  unfold litSecond
  extract_lets -merge -useContext -underBinder y0 y1 y2 y3
  clear_value y0
  clear_value y1
  clear_value y2
  have hy3 : Moves [.out, .cart] s y3 := by
    unfold y3
    exact Moves.step (Moves.refl _ s) (slotMod_moves ..) rfl
  clear_value y3
  refine Moves.ite ?_ ?_
  ·
    exact (Moves.refl _ s)
  ·
    split
    ·
      exact hy3
    ·
      extract_lets -merge -useContext -underBinder y4
      clear_value y4
      refine Moves.ite ?_ ?_
      ·
        exact Moves.step hy3 (putLife_moves ..) rfl
      ·
        exact Moves.step hy3 (cartMod_moves ..) rfl

theorem reportDrops_moves (s) : Moves [.regs, .log] s (reportDrops s) := by
  unfold reportDrops
  refine Moves.ite ?_ ?_
  ·
    exact (Moves.refl _ s)
  ·
    refine Moves.step ?_ (raise_moves ..) rfl
    exact Moves.step (Moves.refl _ s) (evlogMod_moves ..) rfl

theorem newSecond_moves (s) : Moves [.out, .regs, .log, .cart] s (newSecond s) := by
  unfold newSecond
  refine Moves.step ?_ (reportDrops_moves ..) rfl
  refine Moves.foldl ?_ (fun t0 x1 ht0 => ?_)
  ·
    exact (Moves.refl _ s)
  ·
    exact Moves.step ht0 (litSecond_moves ..) rfl

theorem tick_moves (s) : Moves [.waiting, .out, .freeIx, .regs, .time, .log, .cmd, .cfg, .power, .tbl, .flow, .host, .sto, .svc, .mbx, .mem, .cart, .test] s (tick s) := by
  unfold tick
  extract_lets -merge -useContext -underBinder y0 y1 y2
  have hy0 : Moves [.waiting, .out, .freeIx, .regs, .time, .log, .cmd, .cfg, .power, .tbl, .flow, .host, .sto, .svc, .mbx, .mem, .cart, .test] s y0 := by
    unfold y0
    exact Moves.step (Moves.refl _ s) (timeMod_moves ..) rfl
  clear_value y0
  have hy1 : Moves [.waiting, .out, .freeIx, .regs, .time, .log, .cmd, .cfg, .power, .tbl, .flow, .host, .sto, .svc, .mbx, .mem, .cart, .test] s y1 := by
    unfold y1
    exact Moves.step hy0 (sendDeltas_moves ..) rfl
  clear_value y1
  have hy2 : Moves [.waiting, .out, .freeIx, .regs, .time, .log, .cmd, .cfg, .power, .tbl, .flow, .host, .sto, .svc, .mbx, .mem, .cart, .test] s y2 := by
    unfold y2
    refine Moves.ite ?_ ?_
    ·
      exact Moves.step hy1 (beginShutdown_moves ..) rfl
    ·
      exact hy1
  clear_value y2
  refine Moves.ite ?_ ?_
  ·
    exact Moves.step hy2 (newSecond_moves ..) rfl
  ·
    exact hy2

theorem State.withFetchWord_moves (s a1 a2) : Moves [.pending] s (State.withFetchWord s a1 a2) := by
  unfold State.withFetchWord
  split
  ·
    exact Moves.step (m := [.pending]) (Moves.refl _ s) (Moves.leaf (by intro x hx; cases x <;> first | rfl | exact absurd (by decide) hx) rfl rfl rfl rfl) rfl
  ·
    exact (Moves.refl _ s)

end Sys2Proof.Machine
end

