-- ==== Sys2Proof/Laws/Packets.lean ====
section
/-! SUPPORT. Every command packet of a defined opcode runs as its opcode's operation; one that carries a key, as a command whose queue memory is
wiped first (R205). -/

set_option Elab.async false

namespace Sys2Proof.Machine

theorem instrOf_runs {code : Nat} {c : Cmd} {i : Instr} (h : instrOf code c = some i) (s : State) :
    ∃ o : Op, o.code = code ∧ ((carriesKey code = false ∧ exec i s = .next (runCmd o c s)) ∨
      (carriesKey code = true ∧ ∃ f, exec i s = .next (runKeyCmd o f c s))) := by
  unfold instrOf at h
  split at h
  · cases h; exact ⟨opSysNop, rfl, .inl ⟨rfl, rfl⟩⟩
  · cases h; exact ⟨opSysInfo, rfl, .inl ⟨rfl, rfl⟩⟩
  · cases h; exact ⟨opSysEpochRead, rfl, .inl ⟨rfl, rfl⟩⟩
  · cases h; exact ⟨opSysPathQuery, rfl, .inl ⟨rfl, rfl⟩⟩
  · cases h; exact ⟨opSysDrain, rfl, .inl ⟨rfl, rfl⟩⟩
  · cases h; exact ⟨opSysReset, rfl, .inl ⟨rfl, rfl⟩⟩
  · cases h; exact ⟨opSysFwLoad, rfl, .inl ⟨rfl, rfl⟩⟩
  · cases h; exact ⟨opSysFwActivate, rfl, .inl ⟨rfl, rfl⟩⟩
  · cases h; exact ⟨opCfgStage, rfl, .inl ⟨rfl, rfl⟩⟩
  · cases h; exact ⟨opCfgFix, rfl, .inl ⟨rfl, rfl⟩⟩
  · cases h; exact ⟨opCfgDiscard, rfl, .inl ⟨rfl, rfl⟩⟩
  · cases h; exact ⟨opCfgWrite, rfl, .inl ⟨rfl, rfl⟩⟩
  · cases h; exact ⟨opCfgOverlay, rfl, .inl ⟨rfl, rfl⟩⟩
  · cases h; exact ⟨opCfgRead, rfl, .inl ⟨rfl, rfl⟩⟩
  · cases h; exact ⟨opTblInsert, rfl, .inl ⟨rfl, rfl⟩⟩
  · cases h; exact ⟨opTblDelete, rfl, .inl ⟨rfl, rfl⟩⟩
  · cases h; exact ⟨opTblModify, rfl, .inl ⟨rfl, rfl⟩⟩
  · cases h; exact ⟨opTblLookup, rfl, .inl ⟨rfl, rfl⟩⟩
  · cases h; exact ⟨opTblProgramSet, rfl, .inl ⟨rfl, rfl⟩⟩
  · cases h; exact ⟨opTblTemplateSet, rfl, .inl ⟨rfl, rfl⟩⟩
  · cases h; exact ⟨opTblGroupSet, rfl, .inl ⟨rfl, rfl⟩⟩
  · cases h; exact ⟨opTblLagSet, rfl, .inl ⟨rfl, rfl⟩⟩
  · cases h; exact ⟨opTblCounterRead, rfl, .inl ⟨rfl, rfl⟩⟩
  · cases h; exact ⟨opTblMeterSet, rfl, .inl ⟨rfl, rfl⟩⟩
  · cases h; exact ⟨opPortRead, rfl, .inl ⟨rfl, rfl⟩⟩
  · cases h; exact ⟨opPortRestart, rfl, .inl ⟨rfl, rfl⟩⟩
  · cases h; exact ⟨opPortSnapshot, rfl, .inl ⟨rfl, rfl⟩⟩
  · cases h; exact ⟨opPortPartnerRead, rfl, .inl ⟨rfl, rfl⟩⟩
  · cases h; exact ⟨opCryKekLoad, rfl, .inr ⟨rfl, _, rfl⟩⟩
  · cases h; exact ⟨opCryCakSet, rfl, .inr ⟨rfl, _, rfl⟩⟩
  · cases h; exact ⟨opCryCakClear, rfl, .inl ⟨rfl, rfl⟩⟩
  · cases h; exact ⟨opCryMkaRead, rfl, .inl ⟨rfl, rfl⟩⟩
  · cases h; exact ⟨opCryMkaRekey, rfl, .inl ⟨rfl, rfl⟩⟩
  · cases h; exact ⟨opCrySaInstall s, rfl, .inr ⟨rfl, _, rfl⟩⟩
  · cases h; exact ⟨opCrySaRemove s, rfl, .inl ⟨rfl, rfl⟩⟩
  · cases h; exact ⟨opCrySaRead, rfl, .inl ⟨rfl, rfl⟩⟩
  · cases h; exact ⟨opCryTlsInstall, rfl, .inr ⟨rfl, _, rfl⟩⟩
  · cases h; exact ⟨opCryTlsResync, rfl, .inl ⟨rfl, rfl⟩⟩
  · cases h; exact ⟨opCryTlsRemove, rfl, .inl ⟨rfl, rfl⟩⟩
  · cases h; exact ⟨opCryTlsRead, rfl, .inl ⟨rfl, rfl⟩⟩
  · cases h; exact ⟨opFlowInsert, rfl, .inl ⟨rfl, rfl⟩⟩
  · cases h; exact ⟨opFlowDelete, rfl, .inl ⟨rfl, rfl⟩⟩
  · cases h; exact ⟨opFlowRead, rfl, .inl ⟨rfl, rfl⟩⟩
  · cases h; exact ⟨opFlowModify, rfl, .inl ⟨rfl, rfl⟩⟩
  · cases h; exact ⟨opFlowFlush, rfl, .inl ⟨rfl, rfl⟩⟩
  · cases h; exact ⟨opVfQuery, rfl, .inl ⟨rfl, rfl⟩⟩
  · cases h; exact ⟨opVfSuspend, rfl, .inl ⟨rfl, rfl⟩⟩
  · cases h; exact ⟨opVfResume, rfl, .inl ⟨rfl, rfl⟩⟩
  · cases h; exact ⟨opVfLogStart, rfl, .inl ⟨rfl, rfl⟩⟩
  · cases h; exact ⟨opVfLogHarvest, rfl, .inl ⟨rfl, rfl⟩⟩
  · cases h; exact ⟨opVfLogStop, rfl, .inl ⟨rfl, rfl⟩⟩
  · cases h; exact ⟨opVfSave, rfl, .inl ⟨rfl, rfl⟩⟩
  · cases h; exact ⟨opVfRestore, rfl, .inl ⟨rfl, rfl⟩⟩
  · cases h; exact ⟨opDmaQpSet, rfl, .inl ⟨rfl, rfl⟩⟩
  · cases h; exact ⟨opDmaQpStart, rfl, .inl ⟨rfl, rfl⟩⟩
  · cases h; exact ⟨opDmaQpStop, rfl, .inl ⟨rfl, rfl⟩⟩
  · cases h; exact ⟨opDmaQpFlush, rfl, .inl ⟨rfl, rfl⟩⟩
  · cases h; exact ⟨opDmaQpRead, rfl, .inl ⟨rfl, rfl⟩⟩
  · cases h; exact ⟨opDmaChAssign, rfl, .inl ⟨rfl, rfl⟩⟩
  · cases h; exact ⟨opDmaChProgram, rfl, .inl ⟨rfl, rfl⟩⟩
  · cases h; exact ⟨opDmaChEnable, rfl, .inl ⟨rfl, rfl⟩⟩
  · cases h; exact ⟨opDmaChRead, rfl, .inl ⟨rfl, rfl⟩⟩
  · cases h; exact ⟨opStoNqnSet, rfl, .inl ⟨rfl, rfl⟩⟩
  · cases h; exact ⟨opStoPathAdd, rfl, .inl ⟨rfl, rfl⟩⟩
  · cases h; exact ⟨opStoPathRemove, rfl, .inl ⟨rfl, rfl⟩⟩
  · cases h; exact ⟨opStoNsAdd, rfl, .inl ⟨rfl, rfl⟩⟩
  · cases h; exact ⟨opStoNsRemove, rfl, .inl ⟨rfl, rfl⟩⟩
  · cases h; exact ⟨opStoNsAttach, rfl, .inl ⟨rfl, rfl⟩⟩
  · cases h; exact ⟨opStoNsDetach, rfl, .inl ⟨rfl, rfl⟩⟩
  · cases h; exact ⟨opStoNsKey, rfl, .inr ⟨rfl, _, rfl⟩⟩
  · cases h; exact ⟨opStoRead, rfl, .inl ⟨rfl, rfl⟩⟩
  · cases h; exact ⟨opSvcImageLoad, rfl, .inl ⟨rfl, rfl⟩⟩
  · cases h; exact ⟨opSvcStart, rfl, .inl ⟨rfl, rfl⟩⟩
  · cases h; exact ⟨opSvcStop, rfl, .inl ⟨rfl, rfl⟩⟩
  · cases h; exact ⟨opSvcReplace, rfl, .inl ⟨rfl, rfl⟩⟩
  · cases h; exact ⟨opSvcBedQuery, rfl, .inl ⟨rfl, rfl⟩⟩
  · cases h; exact ⟨opSvcSlotRead, rfl, .inl ⟨rfl, rfl⟩⟩
  · cases h; exact ⟨opTestRun, rfl, .inl ⟨rfl, rfl⟩⟩
  · cases h; exact ⟨opTestResult, rfl, .inl ⟨rfl, rfl⟩⟩
  · cases h; exact ⟨opTestSchedule, rfl, .inl ⟨rfl, rfl⟩⟩
  · cases h; exact ⟨opAgeReport, rfl, .inl ⟨rfl, rfl⟩⟩
  · cases h; exact ⟨opAgeSheetRead, rfl, .inl ⟨rfl, rfl⟩⟩
  · cases h; exact ⟨opAgeSheetTime, rfl, .inl ⟨rfl, rfl⟩⟩
  · cases h; exact ⟨opCartRead, rfl, .inl ⟨rfl, rfl⟩⟩
  · cases h; exact ⟨opCartPrepareSwap, rfl, .inl ⟨rfl, rfl⟩⟩
  · cases h; exact ⟨opCartCancelSwap, rfl, .inl ⟨rfl, rfl⟩⟩
  · cases h; exact ⟨opTwinStatus, rfl, .inl ⟨rfl, rfl⟩⟩
  · cases h; exact ⟨opTwinWitnessSet, rfl, .inl ⟨rfl, rfl⟩⟩
  · cases h; exact ⟨opTwinHandover, rfl, .inl ⟨rfl, rfl⟩⟩
  · cases h; exact ⟨opLogRead, rfl, .inl ⟨rfl, rfl⟩⟩
  · cases h; exact ⟨opLogTraceArm, rfl, .inl ⟨rfl, rfl⟩⟩
  · cases h; exact ⟨opLogTraceRead, rfl, .inl ⟨rfl, rfl⟩⟩
  · cases h; exact ⟨opDbgHalt, rfl, .inl ⟨rfl, rfl⟩⟩
  · cases h; exact ⟨opDbgResume, rfl, .inl ⟨rfl, rfl⟩⟩
  · cases h; exact ⟨opDbgAbandonMessage, rfl, .inl ⟨rfl, rfl⟩⟩
  · cases h; exact ⟨opDbgObserve, rfl, .inl ⟨rfl, rfl⟩⟩
  · cases h; exact ⟨opDbgReadReg, rfl, .inl ⟨rfl, rfl⟩⟩
  · cases h; exact ⟨opDbgOpen, rfl, .inl ⟨rfl, rfl⟩⟩
  · cases h; exact ⟨opDbgClose, rfl, .inl ⟨rfl, rfl⟩⟩
  · cases h

end Sys2Proof.Machine
end

