-- ==== Sys2Proof/Laws/Tab.lean ====
section
/-! SUPPORT. Tables: what a read gives after a write, a deletion or a change of one entry. -/

set_option Elab.async false

namespace Sys2Proof.Machine

@[simp] theorem tget_tput {α : Type} (t : Tab α) (k j : Nat) (v : α) : tget (tput t k v) j = if j = k then some v else tget t j := by
  induction t with
  | nil =>
    by_cases h : j = k
    · simp [tput, tget, h]
    · simp [tput, tget, h, Ne.symm h]
  | cons a r ih =>
    obtain ⟨i, x⟩ := a
    simp only [tput]
    split
    · by_cases h : j = k
      · simp [tget, h]
      · simp [tget, h, Ne.symm h]
    · split
      · rename_i h
        subst h
        by_cases h' : j = k
        · simp [tget, h']
        · simp [tget, h', Ne.symm h']
      · rename_i h1 h2
        by_cases h : i = j
        · subst h; simp [tget, Ne.symm h2]
        · simp [tget, h, ih]

@[simp] theorem tgetD_tput {α : Type} (t : Tab α) (k j : Nat) (v d : α) : tgetD (tput t k v) j d = if j = k then v else tgetD t j d := by
  simp only [tgetD, tget_tput]; split <;> rfl

@[simp] theorem tgetD_tmod {α : Type} (t : Tab α) (k j : Nat) (d : α) (f : α → α) :
    tgetD (tmod t k d f) j d = if j = k then f (tgetD t k d) else tgetD t j d := by
  simp [tmod]

@[simp] theorem tget_tdel {α : Type} (t : Tab α) (k j : Nat) : tget (tdel t k) j = if j = k then none else tget t j := by
  induction t with
  | nil => simp [tdel, tget]
  | cons a r ih =>
    obtain ⟨i, x⟩ := a
    simp only [tdel, List.filter_cons] at *
    by_cases h : i = k
    · subst h
      simp only [bne_self_eq_false, Bool.false_eq_true, if_false, ih, tget]
      by_cases h' : j = i
      · simp [h']
      · simp [h', Ne.symm h']
    · simp only [ne_eq, h, not_false_eq_true, bne_iff_ne, if_true, tget, ih]
      by_cases h' : i = j
      · subst h'; simp [h]
      · simp [h']

@[simp] theorem tget_tmap {α : Type} (t : Tab α) (f : Nat → α → α) (j : Nat) : tget (tmap t f) j = (tget t j).map (f j) := by
  induction t with
  | nil => rfl
  | cons a r ih =>
    obtain ⟨i, x⟩ := a
    simp only [tmap, List.map_cons, tget] at *
    split
    · rename_i h; subst h; rfl
    · exact ih

end Sys2Proof.Machine
end

