-- ==== Sys2Proof/Laws/Ports.lean ====
section
/-! SUPPORT. Ports: what a read of a port gives after a change of one; counting leaves all but the counters as they are. -/

set_option Elab.async false

namespace Sys2Proof.Machine

@[simp] theorem portGet_portMod (p q : Nat) (f : Port → Port) (s : State) :
    portGet (portMod p f s) q = if q = p then f (portGet s p) else portGet s q := by
  simp only [portGet, portMod, tgetD_tmod]

theorem countPort_port (p n k q : Nat) (s : State) : ∃ c, portGet (countPort p n k s) q = { portGet s q with cnt := c } := by
  simp only [countPort, portGet_portMod]
  split
  · rename_i h; subst h; exact ⟨_, rfl⟩
  · exact ⟨(portGet s q).cnt, rfl⟩

@[simp] theorem countPort_st (p n k q : Nat) (s : State) : (portGet (countPort p n k s) q).st = (portGet s q).st := by
  obtain ⟨c, h⟩ := countPort_port p n k q s; rw [h]

@[simp] theorem countLine_st (p q : Nat) (l : RxLine) (s : State) : (portGet (countLine p l s) q).st = (portGet s q).st := by
  simp [countLine]

end Sys2Proof.Machine
end

