-- ==== Sys2Proof/Laws/Run.lean ====
section
/-! SUPPORT. What a command packet that passes every check comes to, by how its opcode's execution ends. -/

set_option Elab.async false

namespace Sys2Proof.Machine

theorem run_accepted {o : Op} {c : Cmd} {s : State} (h : accepts o c s = true) :
    runCmd o c s = match o.body c s with
      | .refuse r => answer o c r s
      | .reply r t => replied o c r s t
      | .accept k t f => f (owing o c k s t)
      | .later k t => { t with cmd := { t.cmd with owed := t.cmd.owed ++
          [{ queue := c.queue, tag := c.tag.toNat, opcode := o.code, epoch := curEpoch s, key := k, accepted := false }] } } := by
  simp only [accepts, Bool.and_eq_true, Bool.not_eq_true', decide_eq_false_iff_not, Option.isNone_iff_eq_none, beq_iff_eq,
    Bool.or_eq_true] at h
  obtain ⟨⟨⟨⟨⟨⟨⟨h1, h2⟩, h3⟩, h4⟩, h5⟩, h6⟩, h7⟩, h8⟩ := h
  have h5' : (!c.staged && c.epoch != 0 && c.epoch.toNat != curEpoch s) = false := by
    rcases h5 with (h | h) | h
    · simp [h]
    · simp [h]
    · simp [h]
  have h9 : refusalOf o c (o.body c s) s = match o.body c s with | .refuse x => some x | _ => none := by
    unfold refusalOf
    rw [h6, h7]
    cases o.body c s <;> rfl
  unfold runCmd
  rw [if_neg h1, h2, h3, h4, h5', h9, h8]
  cases o.body c s with
  | reply r t =>
    by_cases hr : r.status = stOk <;> simp [hr, replied]
  | _ => rfl

theorem run_ends {o : Op} {c : Cmd} {s t : State} {b : Bytes} (h : accepts o c s = true) (hb : o.body c s = .ok b t) :
    (.next (runCmd o c s) : Res) = ends o c b s t := by
  rw [run_accepted h, hb]
  rfl

theorem run_starts {o : Op} {c : Cmd} {s t : State} {k : Nat} (h : accepts o c s = true) (hb : o.body c s = .accept k t) :
    (.next (runCmd o c s) : Res) = starts o c k s t := by
  rw [run_accepted h, hb]
  rfl

theorem run_startsThen {o : Op} {c : Cmd} {s t : State} {k : Nat} {f : State → State} (h : accepts o c s = true)
    (hb : o.body c s = .accept k t f) : (.next (runCmd o c s) : Res) = .next (f (owing o c k s t)) := by
  rw [run_accepted h, hb]

theorem runKey_accepted {o : Op} {f : KeyField} {c : Cmd} {s : State} (h : acceptsKey o c s = true) :
    accepts o c (wipe c s) = true ∧ runKeyCmd o f c s = runCmd o c (wipe c s) := by
  simp only [acceptsKey, Bool.and_eq_true, Bool.not_eq_true'] at h
  obtain ⟨h1, h2⟩ := h
  refine ⟨h2, ?_⟩
  have h3 : namesTwin c (wipe c s) = false := by
    simp only [accepts, Bool.and_eq_true, Bool.not_eq_true'] at h2
    exact h2.1.1.1.1.2
  simp [runKeyCmd, h1, h3]

/-- A command that carries a key and passes every check (R205, R435): its key field decides. -/
theorem run_key {o : Op} {f : KeyField} {c : Cmd} {s : State} {g : Bytes → State → State} (h : acceptsKey o c s = true)
    (hb : o.body c (wipe c s) = withKey c f (wipe c s) g) : (.next (runKeyCmd o f c s) : Res) =
      match importKey c f (wipe c s) with
      | (.inl r, t) => .next (replied o c r (wipe c s) t)
      | (.inr key, t) => ends o c [] (wipe c s) (g key t) := by
  obtain ⟨h1, h2⟩ := runKey_accepted (f := f) h
  rw [h2, run_accepted h1, hb, withKey]
  cases importKey c f (wipe c s) with
  | mk a t => cases a <;> rfl

end Sys2Proof.Machine
end

