-- ==== Sys2Proof/Laws/State.lean ====
section
/-! SUPPORT. What each update of the state leaves in each field: one lemma per field per update, each true by its definition. -/

set_option Elab.async false

namespace Sys2Proof.Machine

@[simp] theorem timeMod_pending (f s) : (timeMod f s).pending = s.pending := rfl
@[simp] theorem timeMod_waiting (f s) : (timeMod f s).waiting = s.waiting := rfl
@[simp] theorem timeMod_out (f s) : (timeMod f s).out = s.out := rfl
@[simp] theorem timeMod_freeIx (f s) : (timeMod f s).freeIx = s.freeIx := rfl
@[simp] theorem timeMod_regs (f s) : (timeMod f s).regs = s.regs := rfl
@[simp] theorem timeMod_time (f s) : (timeMod f s).time = f s.time := rfl
@[simp] theorem timeMod_log (f s) : (timeMod f s).log = s.log := rfl
@[simp] theorem timeMod_cmd (f s) : (timeMod f s).cmd = s.cmd := rfl
@[simp] theorem timeMod_cfg (f s) : (timeMod f s).cfg = s.cfg := rfl
@[simp] theorem timeMod_prot (f s) : (timeMod f s).prot = s.prot := rfl
@[simp] theorem timeMod_boot (f s) : (timeMod f s).boot = s.boot := rfl
@[simp] theorem timeMod_power (f s) : (timeMod f s).power = s.power := rfl
@[simp] theorem timeMod_twin (f s) : (timeMod f s).twin = s.twin := rfl
@[simp] theorem timeMod_spare (f s) : (timeMod f s).spare = s.spare := rfl
@[simp] theorem timeMod_ports (f s) : (timeMod f s).ports = s.ports := rfl
@[simp] theorem timeMod_tbl (f s) : (timeMod f s).tbl = s.tbl := rfl
@[simp] theorem timeMod_buf (f s) : (timeMod f s).buf = s.buf := rfl
@[simp] theorem timeMod_cry (f s) : (timeMod f s).cry = s.cry := rfl
@[simp] theorem timeMod_flow (f s) : (timeMod f s).flow = s.flow := rfl
@[simp] theorem timeMod_host (f s) : (timeMod f s).host = s.host := rfl
@[simp] theorem timeMod_sto (f s) : (timeMod f s).sto = s.sto := rfl
@[simp] theorem timeMod_svc (f s) : (timeMod f s).svc = s.svc := rfl
@[simp] theorem timeMod_mbx (f s) : (timeMod f s).mbx = s.mbx := rfl
@[simp] theorem timeMod_mem (f s) : (timeMod f s).mem = s.mem := rfl
@[simp] theorem timeMod_cart (f s) : (timeMod f s).cart = s.cart := rfl
@[simp] theorem timeMod_age (f s) : (timeMod f s).age = s.age := rfl
@[simp] theorem timeMod_test (f s) : (timeMod f s).test = s.test := rfl
@[simp] theorem timeMod_therm (f s) : (timeMod f s).therm = s.therm := rfl
@[simp] theorem timeMod_flash (f s) : (timeMod f s).flash = s.flash := rfl

@[simp] theorem evlogMod_pending (f s) : (evlogMod f s).pending = s.pending := rfl
@[simp] theorem evlogMod_waiting (f s) : (evlogMod f s).waiting = s.waiting := rfl
@[simp] theorem evlogMod_out (f s) : (evlogMod f s).out = s.out := rfl
@[simp] theorem evlogMod_freeIx (f s) : (evlogMod f s).freeIx = s.freeIx := rfl
@[simp] theorem evlogMod_regs (f s) : (evlogMod f s).regs = s.regs := rfl
@[simp] theorem evlogMod_time (f s) : (evlogMod f s).time = s.time := rfl
@[simp] theorem evlogMod_log (f s) : (evlogMod f s).log = f s.log := rfl
@[simp] theorem evlogMod_cmd (f s) : (evlogMod f s).cmd = s.cmd := rfl
@[simp] theorem evlogMod_cfg (f s) : (evlogMod f s).cfg = s.cfg := rfl
@[simp] theorem evlogMod_prot (f s) : (evlogMod f s).prot = s.prot := rfl
@[simp] theorem evlogMod_boot (f s) : (evlogMod f s).boot = s.boot := rfl
@[simp] theorem evlogMod_power (f s) : (evlogMod f s).power = s.power := rfl
@[simp] theorem evlogMod_twin (f s) : (evlogMod f s).twin = s.twin := rfl
@[simp] theorem evlogMod_spare (f s) : (evlogMod f s).spare = s.spare := rfl
@[simp] theorem evlogMod_ports (f s) : (evlogMod f s).ports = s.ports := rfl
@[simp] theorem evlogMod_tbl (f s) : (evlogMod f s).tbl = s.tbl := rfl
@[simp] theorem evlogMod_buf (f s) : (evlogMod f s).buf = s.buf := rfl
@[simp] theorem evlogMod_cry (f s) : (evlogMod f s).cry = s.cry := rfl
@[simp] theorem evlogMod_flow (f s) : (evlogMod f s).flow = s.flow := rfl
@[simp] theorem evlogMod_host (f s) : (evlogMod f s).host = s.host := rfl
@[simp] theorem evlogMod_sto (f s) : (evlogMod f s).sto = s.sto := rfl
@[simp] theorem evlogMod_svc (f s) : (evlogMod f s).svc = s.svc := rfl
@[simp] theorem evlogMod_mbx (f s) : (evlogMod f s).mbx = s.mbx := rfl
@[simp] theorem evlogMod_mem (f s) : (evlogMod f s).mem = s.mem := rfl
@[simp] theorem evlogMod_cart (f s) : (evlogMod f s).cart = s.cart := rfl
@[simp] theorem evlogMod_age (f s) : (evlogMod f s).age = s.age := rfl
@[simp] theorem evlogMod_test (f s) : (evlogMod f s).test = s.test := rfl
@[simp] theorem evlogMod_therm (f s) : (evlogMod f s).therm = s.therm := rfl
@[simp] theorem evlogMod_flash (f s) : (evlogMod f s).flash = s.flash := rfl

@[simp] theorem cfgMod_pending (f s) : (cfgMod f s).pending = s.pending := rfl
@[simp] theorem cfgMod_waiting (f s) : (cfgMod f s).waiting = s.waiting := rfl
@[simp] theorem cfgMod_out (f s) : (cfgMod f s).out = s.out := rfl
@[simp] theorem cfgMod_freeIx (f s) : (cfgMod f s).freeIx = s.freeIx := rfl
@[simp] theorem cfgMod_regs (f s) : (cfgMod f s).regs = s.regs := rfl
@[simp] theorem cfgMod_time (f s) : (cfgMod f s).time = s.time := rfl
@[simp] theorem cfgMod_log (f s) : (cfgMod f s).log = s.log := rfl
@[simp] theorem cfgMod_cmd (f s) : (cfgMod f s).cmd = s.cmd := rfl
@[simp] theorem cfgMod_cfg (f s) : (cfgMod f s).cfg = f s.cfg := rfl
@[simp] theorem cfgMod_prot (f s) : (cfgMod f s).prot = s.prot := rfl
@[simp] theorem cfgMod_boot (f s) : (cfgMod f s).boot = s.boot := rfl
@[simp] theorem cfgMod_power (f s) : (cfgMod f s).power = s.power := rfl
@[simp] theorem cfgMod_twin (f s) : (cfgMod f s).twin = s.twin := rfl
@[simp] theorem cfgMod_spare (f s) : (cfgMod f s).spare = s.spare := rfl
@[simp] theorem cfgMod_ports (f s) : (cfgMod f s).ports = s.ports := rfl
@[simp] theorem cfgMod_tbl (f s) : (cfgMod f s).tbl = s.tbl := rfl
@[simp] theorem cfgMod_buf (f s) : (cfgMod f s).buf = s.buf := rfl
@[simp] theorem cfgMod_cry (f s) : (cfgMod f s).cry = s.cry := rfl
@[simp] theorem cfgMod_flow (f s) : (cfgMod f s).flow = s.flow := rfl
@[simp] theorem cfgMod_host (f s) : (cfgMod f s).host = s.host := rfl
@[simp] theorem cfgMod_sto (f s) : (cfgMod f s).sto = s.sto := rfl
@[simp] theorem cfgMod_svc (f s) : (cfgMod f s).svc = s.svc := rfl
@[simp] theorem cfgMod_mbx (f s) : (cfgMod f s).mbx = s.mbx := rfl
@[simp] theorem cfgMod_mem (f s) : (cfgMod f s).mem = s.mem := rfl
@[simp] theorem cfgMod_cart (f s) : (cfgMod f s).cart = s.cart := rfl
@[simp] theorem cfgMod_age (f s) : (cfgMod f s).age = s.age := rfl
@[simp] theorem cfgMod_test (f s) : (cfgMod f s).test = s.test := rfl
@[simp] theorem cfgMod_therm (f s) : (cfgMod f s).therm = s.therm := rfl
@[simp] theorem cfgMod_flash (f s) : (cfgMod f s).flash = s.flash := rfl

@[simp] theorem bootMod_pending (f s) : (bootMod f s).pending = s.pending := rfl
@[simp] theorem bootMod_waiting (f s) : (bootMod f s).waiting = s.waiting := rfl
@[simp] theorem bootMod_out (f s) : (bootMod f s).out = s.out := rfl
@[simp] theorem bootMod_freeIx (f s) : (bootMod f s).freeIx = s.freeIx := rfl
@[simp] theorem bootMod_regs (f s) : (bootMod f s).regs = s.regs := rfl
@[simp] theorem bootMod_time (f s) : (bootMod f s).time = s.time := rfl
@[simp] theorem bootMod_log (f s) : (bootMod f s).log = s.log := rfl
@[simp] theorem bootMod_cmd (f s) : (bootMod f s).cmd = s.cmd := rfl
@[simp] theorem bootMod_cfg (f s) : (bootMod f s).cfg = s.cfg := rfl
@[simp] theorem bootMod_prot (f s) : (bootMod f s).prot = s.prot := rfl
@[simp] theorem bootMod_boot (f s) : (bootMod f s).boot = f s.boot := rfl
@[simp] theorem bootMod_power (f s) : (bootMod f s).power = s.power := rfl
@[simp] theorem bootMod_twin (f s) : (bootMod f s).twin = s.twin := rfl
@[simp] theorem bootMod_spare (f s) : (bootMod f s).spare = s.spare := rfl
@[simp] theorem bootMod_ports (f s) : (bootMod f s).ports = s.ports := rfl
@[simp] theorem bootMod_tbl (f s) : (bootMod f s).tbl = s.tbl := rfl
@[simp] theorem bootMod_buf (f s) : (bootMod f s).buf = s.buf := rfl
@[simp] theorem bootMod_cry (f s) : (bootMod f s).cry = s.cry := rfl
@[simp] theorem bootMod_flow (f s) : (bootMod f s).flow = s.flow := rfl
@[simp] theorem bootMod_host (f s) : (bootMod f s).host = s.host := rfl
@[simp] theorem bootMod_sto (f s) : (bootMod f s).sto = s.sto := rfl
@[simp] theorem bootMod_svc (f s) : (bootMod f s).svc = s.svc := rfl
@[simp] theorem bootMod_mbx (f s) : (bootMod f s).mbx = s.mbx := rfl
@[simp] theorem bootMod_mem (f s) : (bootMod f s).mem = s.mem := rfl
@[simp] theorem bootMod_cart (f s) : (bootMod f s).cart = s.cart := rfl
@[simp] theorem bootMod_age (f s) : (bootMod f s).age = s.age := rfl
@[simp] theorem bootMod_test (f s) : (bootMod f s).test = s.test := rfl
@[simp] theorem bootMod_therm (f s) : (bootMod f s).therm = s.therm := rfl
@[simp] theorem bootMod_flash (f s) : (bootMod f s).flash = s.flash := rfl

@[simp] theorem powerMod_pending (f s) : (powerMod f s).pending = s.pending := rfl
@[simp] theorem powerMod_waiting (f s) : (powerMod f s).waiting = s.waiting := rfl
@[simp] theorem powerMod_out (f s) : (powerMod f s).out = s.out := rfl
@[simp] theorem powerMod_freeIx (f s) : (powerMod f s).freeIx = s.freeIx := rfl
@[simp] theorem powerMod_regs (f s) : (powerMod f s).regs = s.regs := rfl
@[simp] theorem powerMod_time (f s) : (powerMod f s).time = s.time := rfl
@[simp] theorem powerMod_log (f s) : (powerMod f s).log = s.log := rfl
@[simp] theorem powerMod_cmd (f s) : (powerMod f s).cmd = s.cmd := rfl
@[simp] theorem powerMod_cfg (f s) : (powerMod f s).cfg = s.cfg := rfl
@[simp] theorem powerMod_prot (f s) : (powerMod f s).prot = s.prot := rfl
@[simp] theorem powerMod_boot (f s) : (powerMod f s).boot = s.boot := rfl
@[simp] theorem powerMod_power (f s) : (powerMod f s).power = f s.power := rfl
@[simp] theorem powerMod_twin (f s) : (powerMod f s).twin = s.twin := rfl
@[simp] theorem powerMod_spare (f s) : (powerMod f s).spare = s.spare := rfl
@[simp] theorem powerMod_ports (f s) : (powerMod f s).ports = s.ports := rfl
@[simp] theorem powerMod_tbl (f s) : (powerMod f s).tbl = s.tbl := rfl
@[simp] theorem powerMod_buf (f s) : (powerMod f s).buf = s.buf := rfl
@[simp] theorem powerMod_cry (f s) : (powerMod f s).cry = s.cry := rfl
@[simp] theorem powerMod_flow (f s) : (powerMod f s).flow = s.flow := rfl
@[simp] theorem powerMod_host (f s) : (powerMod f s).host = s.host := rfl
@[simp] theorem powerMod_sto (f s) : (powerMod f s).sto = s.sto := rfl
@[simp] theorem powerMod_svc (f s) : (powerMod f s).svc = s.svc := rfl
@[simp] theorem powerMod_mbx (f s) : (powerMod f s).mbx = s.mbx := rfl
@[simp] theorem powerMod_mem (f s) : (powerMod f s).mem = s.mem := rfl
@[simp] theorem powerMod_cart (f s) : (powerMod f s).cart = s.cart := rfl
@[simp] theorem powerMod_age (f s) : (powerMod f s).age = s.age := rfl
@[simp] theorem powerMod_test (f s) : (powerMod f s).test = s.test := rfl
@[simp] theorem powerMod_therm (f s) : (powerMod f s).therm = s.therm := rfl
@[simp] theorem powerMod_flash (f s) : (powerMod f s).flash = s.flash := rfl

@[simp] theorem twinMod_pending (f s) : (twinMod f s).pending = s.pending := rfl
@[simp] theorem twinMod_waiting (f s) : (twinMod f s).waiting = s.waiting := rfl
@[simp] theorem twinMod_out (f s) : (twinMod f s).out = s.out := rfl
@[simp] theorem twinMod_freeIx (f s) : (twinMod f s).freeIx = s.freeIx := rfl
@[simp] theorem twinMod_regs (f s) : (twinMod f s).regs = s.regs := rfl
@[simp] theorem twinMod_time (f s) : (twinMod f s).time = s.time := rfl
@[simp] theorem twinMod_log (f s) : (twinMod f s).log = s.log := rfl
@[simp] theorem twinMod_cmd (f s) : (twinMod f s).cmd = s.cmd := rfl
@[simp] theorem twinMod_cfg (f s) : (twinMod f s).cfg = s.cfg := rfl
@[simp] theorem twinMod_prot (f s) : (twinMod f s).prot = s.prot := rfl
@[simp] theorem twinMod_boot (f s) : (twinMod f s).boot = s.boot := rfl
@[simp] theorem twinMod_power (f s) : (twinMod f s).power = s.power := rfl
@[simp] theorem twinMod_twin (f s) : (twinMod f s).twin = f s.twin := rfl
@[simp] theorem twinMod_spare (f s) : (twinMod f s).spare = s.spare := rfl
@[simp] theorem twinMod_ports (f s) : (twinMod f s).ports = s.ports := rfl
@[simp] theorem twinMod_tbl (f s) : (twinMod f s).tbl = s.tbl := rfl
@[simp] theorem twinMod_buf (f s) : (twinMod f s).buf = s.buf := rfl
@[simp] theorem twinMod_cry (f s) : (twinMod f s).cry = s.cry := rfl
@[simp] theorem twinMod_flow (f s) : (twinMod f s).flow = s.flow := rfl
@[simp] theorem twinMod_host (f s) : (twinMod f s).host = s.host := rfl
@[simp] theorem twinMod_sto (f s) : (twinMod f s).sto = s.sto := rfl
@[simp] theorem twinMod_svc (f s) : (twinMod f s).svc = s.svc := rfl
@[simp] theorem twinMod_mbx (f s) : (twinMod f s).mbx = s.mbx := rfl
@[simp] theorem twinMod_mem (f s) : (twinMod f s).mem = s.mem := rfl
@[simp] theorem twinMod_cart (f s) : (twinMod f s).cart = s.cart := rfl
@[simp] theorem twinMod_age (f s) : (twinMod f s).age = s.age := rfl
@[simp] theorem twinMod_test (f s) : (twinMod f s).test = s.test := rfl
@[simp] theorem twinMod_therm (f s) : (twinMod f s).therm = s.therm := rfl
@[simp] theorem twinMod_flash (f s) : (twinMod f s).flash = s.flash := rfl

@[simp] theorem spareMod_pending (f s) : (spareMod f s).pending = s.pending := rfl
@[simp] theorem spareMod_waiting (f s) : (spareMod f s).waiting = s.waiting := rfl
@[simp] theorem spareMod_out (f s) : (spareMod f s).out = s.out := rfl
@[simp] theorem spareMod_freeIx (f s) : (spareMod f s).freeIx = s.freeIx := rfl
@[simp] theorem spareMod_regs (f s) : (spareMod f s).regs = s.regs := rfl
@[simp] theorem spareMod_time (f s) : (spareMod f s).time = s.time := rfl
@[simp] theorem spareMod_log (f s) : (spareMod f s).log = s.log := rfl
@[simp] theorem spareMod_cmd (f s) : (spareMod f s).cmd = s.cmd := rfl
@[simp] theorem spareMod_cfg (f s) : (spareMod f s).cfg = s.cfg := rfl
@[simp] theorem spareMod_prot (f s) : (spareMod f s).prot = s.prot := rfl
@[simp] theorem spareMod_boot (f s) : (spareMod f s).boot = s.boot := rfl
@[simp] theorem spareMod_power (f s) : (spareMod f s).power = s.power := rfl
@[simp] theorem spareMod_twin (f s) : (spareMod f s).twin = s.twin := rfl
@[simp] theorem spareMod_spare (f s) : (spareMod f s).spare = f s.spare := rfl
@[simp] theorem spareMod_ports (f s) : (spareMod f s).ports = s.ports := rfl
@[simp] theorem spareMod_tbl (f s) : (spareMod f s).tbl = s.tbl := rfl
@[simp] theorem spareMod_buf (f s) : (spareMod f s).buf = s.buf := rfl
@[simp] theorem spareMod_cry (f s) : (spareMod f s).cry = s.cry := rfl
@[simp] theorem spareMod_flow (f s) : (spareMod f s).flow = s.flow := rfl
@[simp] theorem spareMod_host (f s) : (spareMod f s).host = s.host := rfl
@[simp] theorem spareMod_sto (f s) : (spareMod f s).sto = s.sto := rfl
@[simp] theorem spareMod_svc (f s) : (spareMod f s).svc = s.svc := rfl
@[simp] theorem spareMod_mbx (f s) : (spareMod f s).mbx = s.mbx := rfl
@[simp] theorem spareMod_mem (f s) : (spareMod f s).mem = s.mem := rfl
@[simp] theorem spareMod_cart (f s) : (spareMod f s).cart = s.cart := rfl
@[simp] theorem spareMod_age (f s) : (spareMod f s).age = s.age := rfl
@[simp] theorem spareMod_test (f s) : (spareMod f s).test = s.test := rfl
@[simp] theorem spareMod_therm (f s) : (spareMod f s).therm = s.therm := rfl
@[simp] theorem spareMod_flash (f s) : (spareMod f s).flash = s.flash := rfl

@[simp] theorem cryMod_pending (f s) : (cryMod f s).pending = s.pending := rfl
@[simp] theorem cryMod_waiting (f s) : (cryMod f s).waiting = s.waiting := rfl
@[simp] theorem cryMod_out (f s) : (cryMod f s).out = s.out := rfl
@[simp] theorem cryMod_freeIx (f s) : (cryMod f s).freeIx = s.freeIx := rfl
@[simp] theorem cryMod_regs (f s) : (cryMod f s).regs = s.regs := rfl
@[simp] theorem cryMod_time (f s) : (cryMod f s).time = s.time := rfl
@[simp] theorem cryMod_log (f s) : (cryMod f s).log = s.log := rfl
@[simp] theorem cryMod_cmd (f s) : (cryMod f s).cmd = s.cmd := rfl
@[simp] theorem cryMod_cfg (f s) : (cryMod f s).cfg = s.cfg := rfl
@[simp] theorem cryMod_prot (f s) : (cryMod f s).prot = s.prot := rfl
@[simp] theorem cryMod_boot (f s) : (cryMod f s).boot = s.boot := rfl
@[simp] theorem cryMod_power (f s) : (cryMod f s).power = s.power := rfl
@[simp] theorem cryMod_twin (f s) : (cryMod f s).twin = s.twin := rfl
@[simp] theorem cryMod_spare (f s) : (cryMod f s).spare = s.spare := rfl
@[simp] theorem cryMod_ports (f s) : (cryMod f s).ports = s.ports := rfl
@[simp] theorem cryMod_tbl (f s) : (cryMod f s).tbl = s.tbl := rfl
@[simp] theorem cryMod_buf (f s) : (cryMod f s).buf = s.buf := rfl
@[simp] theorem cryMod_cry (f s) : (cryMod f s).cry = f s.cry := rfl
@[simp] theorem cryMod_flow (f s) : (cryMod f s).flow = s.flow := rfl
@[simp] theorem cryMod_host (f s) : (cryMod f s).host = s.host := rfl
@[simp] theorem cryMod_sto (f s) : (cryMod f s).sto = s.sto := rfl
@[simp] theorem cryMod_svc (f s) : (cryMod f s).svc = s.svc := rfl
@[simp] theorem cryMod_mbx (f s) : (cryMod f s).mbx = s.mbx := rfl
@[simp] theorem cryMod_mem (f s) : (cryMod f s).mem = s.mem := rfl
@[simp] theorem cryMod_cart (f s) : (cryMod f s).cart = s.cart := rfl
@[simp] theorem cryMod_age (f s) : (cryMod f s).age = s.age := rfl
@[simp] theorem cryMod_test (f s) : (cryMod f s).test = s.test := rfl
@[simp] theorem cryMod_therm (f s) : (cryMod f s).therm = s.therm := rfl
@[simp] theorem cryMod_flash (f s) : (cryMod f s).flash = s.flash := rfl

@[simp] theorem flowMod_pending (f s) : (flowMod f s).pending = s.pending := rfl
@[simp] theorem flowMod_waiting (f s) : (flowMod f s).waiting = s.waiting := rfl
@[simp] theorem flowMod_out (f s) : (flowMod f s).out = s.out := rfl
@[simp] theorem flowMod_freeIx (f s) : (flowMod f s).freeIx = s.freeIx := rfl
@[simp] theorem flowMod_regs (f s) : (flowMod f s).regs = s.regs := rfl
@[simp] theorem flowMod_time (f s) : (flowMod f s).time = s.time := rfl
@[simp] theorem flowMod_log (f s) : (flowMod f s).log = s.log := rfl
@[simp] theorem flowMod_cmd (f s) : (flowMod f s).cmd = s.cmd := rfl
@[simp] theorem flowMod_cfg (f s) : (flowMod f s).cfg = s.cfg := rfl
@[simp] theorem flowMod_prot (f s) : (flowMod f s).prot = s.prot := rfl
@[simp] theorem flowMod_boot (f s) : (flowMod f s).boot = s.boot := rfl
@[simp] theorem flowMod_power (f s) : (flowMod f s).power = s.power := rfl
@[simp] theorem flowMod_twin (f s) : (flowMod f s).twin = s.twin := rfl
@[simp] theorem flowMod_spare (f s) : (flowMod f s).spare = s.spare := rfl
@[simp] theorem flowMod_ports (f s) : (flowMod f s).ports = s.ports := rfl
@[simp] theorem flowMod_tbl (f s) : (flowMod f s).tbl = s.tbl := rfl
@[simp] theorem flowMod_buf (f s) : (flowMod f s).buf = s.buf := rfl
@[simp] theorem flowMod_cry (f s) : (flowMod f s).cry = s.cry := rfl
@[simp] theorem flowMod_flow (f s) : (flowMod f s).flow = f s.flow := rfl
@[simp] theorem flowMod_host (f s) : (flowMod f s).host = s.host := rfl
@[simp] theorem flowMod_sto (f s) : (flowMod f s).sto = s.sto := rfl
@[simp] theorem flowMod_svc (f s) : (flowMod f s).svc = s.svc := rfl
@[simp] theorem flowMod_mbx (f s) : (flowMod f s).mbx = s.mbx := rfl
@[simp] theorem flowMod_mem (f s) : (flowMod f s).mem = s.mem := rfl
@[simp] theorem flowMod_cart (f s) : (flowMod f s).cart = s.cart := rfl
@[simp] theorem flowMod_age (f s) : (flowMod f s).age = s.age := rfl
@[simp] theorem flowMod_test (f s) : (flowMod f s).test = s.test := rfl
@[simp] theorem flowMod_therm (f s) : (flowMod f s).therm = s.therm := rfl
@[simp] theorem flowMod_flash (f s) : (flowMod f s).flash = s.flash := rfl

@[simp] theorem stoMod_pending (f s) : (stoMod f s).pending = s.pending := rfl
@[simp] theorem stoMod_waiting (f s) : (stoMod f s).waiting = s.waiting := rfl
@[simp] theorem stoMod_out (f s) : (stoMod f s).out = s.out := rfl
@[simp] theorem stoMod_freeIx (f s) : (stoMod f s).freeIx = s.freeIx := rfl
@[simp] theorem stoMod_regs (f s) : (stoMod f s).regs = s.regs := rfl
@[simp] theorem stoMod_time (f s) : (stoMod f s).time = s.time := rfl
@[simp] theorem stoMod_log (f s) : (stoMod f s).log = s.log := rfl
@[simp] theorem stoMod_cmd (f s) : (stoMod f s).cmd = s.cmd := rfl
@[simp] theorem stoMod_cfg (f s) : (stoMod f s).cfg = s.cfg := rfl
@[simp] theorem stoMod_prot (f s) : (stoMod f s).prot = s.prot := rfl
@[simp] theorem stoMod_boot (f s) : (stoMod f s).boot = s.boot := rfl
@[simp] theorem stoMod_power (f s) : (stoMod f s).power = s.power := rfl
@[simp] theorem stoMod_twin (f s) : (stoMod f s).twin = s.twin := rfl
@[simp] theorem stoMod_spare (f s) : (stoMod f s).spare = s.spare := rfl
@[simp] theorem stoMod_ports (f s) : (stoMod f s).ports = s.ports := rfl
@[simp] theorem stoMod_tbl (f s) : (stoMod f s).tbl = s.tbl := rfl
@[simp] theorem stoMod_buf (f s) : (stoMod f s).buf = s.buf := rfl
@[simp] theorem stoMod_cry (f s) : (stoMod f s).cry = s.cry := rfl
@[simp] theorem stoMod_flow (f s) : (stoMod f s).flow = s.flow := rfl
@[simp] theorem stoMod_host (f s) : (stoMod f s).host = s.host := rfl
@[simp] theorem stoMod_sto (f s) : (stoMod f s).sto = f s.sto := rfl
@[simp] theorem stoMod_svc (f s) : (stoMod f s).svc = s.svc := rfl
@[simp] theorem stoMod_mbx (f s) : (stoMod f s).mbx = s.mbx := rfl
@[simp] theorem stoMod_mem (f s) : (stoMod f s).mem = s.mem := rfl
@[simp] theorem stoMod_cart (f s) : (stoMod f s).cart = s.cart := rfl
@[simp] theorem stoMod_age (f s) : (stoMod f s).age = s.age := rfl
@[simp] theorem stoMod_test (f s) : (stoMod f s).test = s.test := rfl
@[simp] theorem stoMod_therm (f s) : (stoMod f s).therm = s.therm := rfl
@[simp] theorem stoMod_flash (f s) : (stoMod f s).flash = s.flash := rfl

@[simp] theorem memMod_pending (f s) : (memMod f s).pending = s.pending := rfl
@[simp] theorem memMod_waiting (f s) : (memMod f s).waiting = s.waiting := rfl
@[simp] theorem memMod_out (f s) : (memMod f s).out = s.out := rfl
@[simp] theorem memMod_freeIx (f s) : (memMod f s).freeIx = s.freeIx := rfl
@[simp] theorem memMod_regs (f s) : (memMod f s).regs = s.regs := rfl
@[simp] theorem memMod_time (f s) : (memMod f s).time = s.time := rfl
@[simp] theorem memMod_log (f s) : (memMod f s).log = s.log := rfl
@[simp] theorem memMod_cmd (f s) : (memMod f s).cmd = s.cmd := rfl
@[simp] theorem memMod_cfg (f s) : (memMod f s).cfg = s.cfg := rfl
@[simp] theorem memMod_prot (f s) : (memMod f s).prot = s.prot := rfl
@[simp] theorem memMod_boot (f s) : (memMod f s).boot = s.boot := rfl
@[simp] theorem memMod_power (f s) : (memMod f s).power = s.power := rfl
@[simp] theorem memMod_twin (f s) : (memMod f s).twin = s.twin := rfl
@[simp] theorem memMod_spare (f s) : (memMod f s).spare = s.spare := rfl
@[simp] theorem memMod_ports (f s) : (memMod f s).ports = s.ports := rfl
@[simp] theorem memMod_tbl (f s) : (memMod f s).tbl = s.tbl := rfl
@[simp] theorem memMod_buf (f s) : (memMod f s).buf = s.buf := rfl
@[simp] theorem memMod_cry (f s) : (memMod f s).cry = s.cry := rfl
@[simp] theorem memMod_flow (f s) : (memMod f s).flow = s.flow := rfl
@[simp] theorem memMod_host (f s) : (memMod f s).host = s.host := rfl
@[simp] theorem memMod_sto (f s) : (memMod f s).sto = s.sto := rfl
@[simp] theorem memMod_svc (f s) : (memMod f s).svc = s.svc := rfl
@[simp] theorem memMod_mbx (f s) : (memMod f s).mbx = s.mbx := rfl
@[simp] theorem memMod_mem (f s) : (memMod f s).mem = f s.mem := rfl
@[simp] theorem memMod_cart (f s) : (memMod f s).cart = s.cart := rfl
@[simp] theorem memMod_age (f s) : (memMod f s).age = s.age := rfl
@[simp] theorem memMod_test (f s) : (memMod f s).test = s.test := rfl
@[simp] theorem memMod_therm (f s) : (memMod f s).therm = s.therm := rfl
@[simp] theorem memMod_flash (f s) : (memMod f s).flash = s.flash := rfl

@[simp] theorem cartMod_pending (f s) : (cartMod f s).pending = s.pending := rfl
@[simp] theorem cartMod_waiting (f s) : (cartMod f s).waiting = s.waiting := rfl
@[simp] theorem cartMod_out (f s) : (cartMod f s).out = s.out := rfl
@[simp] theorem cartMod_freeIx (f s) : (cartMod f s).freeIx = s.freeIx := rfl
@[simp] theorem cartMod_regs (f s) : (cartMod f s).regs = s.regs := rfl
@[simp] theorem cartMod_time (f s) : (cartMod f s).time = s.time := rfl
@[simp] theorem cartMod_log (f s) : (cartMod f s).log = s.log := rfl
@[simp] theorem cartMod_cmd (f s) : (cartMod f s).cmd = s.cmd := rfl
@[simp] theorem cartMod_cfg (f s) : (cartMod f s).cfg = s.cfg := rfl
@[simp] theorem cartMod_prot (f s) : (cartMod f s).prot = s.prot := rfl
@[simp] theorem cartMod_boot (f s) : (cartMod f s).boot = s.boot := rfl
@[simp] theorem cartMod_power (f s) : (cartMod f s).power = s.power := rfl
@[simp] theorem cartMod_twin (f s) : (cartMod f s).twin = s.twin := rfl
@[simp] theorem cartMod_spare (f s) : (cartMod f s).spare = s.spare := rfl
@[simp] theorem cartMod_ports (f s) : (cartMod f s).ports = s.ports := rfl
@[simp] theorem cartMod_tbl (f s) : (cartMod f s).tbl = s.tbl := rfl
@[simp] theorem cartMod_buf (f s) : (cartMod f s).buf = s.buf := rfl
@[simp] theorem cartMod_cry (f s) : (cartMod f s).cry = s.cry := rfl
@[simp] theorem cartMod_flow (f s) : (cartMod f s).flow = s.flow := rfl
@[simp] theorem cartMod_host (f s) : (cartMod f s).host = s.host := rfl
@[simp] theorem cartMod_sto (f s) : (cartMod f s).sto = s.sto := rfl
@[simp] theorem cartMod_svc (f s) : (cartMod f s).svc = s.svc := rfl
@[simp] theorem cartMod_mbx (f s) : (cartMod f s).mbx = s.mbx := rfl
@[simp] theorem cartMod_mem (f s) : (cartMod f s).mem = s.mem := rfl
@[simp] theorem cartMod_cart (f s) : (cartMod f s).cart = f s.cart := rfl
@[simp] theorem cartMod_age (f s) : (cartMod f s).age = s.age := rfl
@[simp] theorem cartMod_test (f s) : (cartMod f s).test = s.test := rfl
@[simp] theorem cartMod_therm (f s) : (cartMod f s).therm = s.therm := rfl
@[simp] theorem cartMod_flash (f s) : (cartMod f s).flash = s.flash := rfl

@[simp] theorem ageMod_pending (f s) : (ageMod f s).pending = s.pending := rfl
@[simp] theorem ageMod_waiting (f s) : (ageMod f s).waiting = s.waiting := rfl
@[simp] theorem ageMod_out (f s) : (ageMod f s).out = s.out := rfl
@[simp] theorem ageMod_freeIx (f s) : (ageMod f s).freeIx = s.freeIx := rfl
@[simp] theorem ageMod_regs (f s) : (ageMod f s).regs = s.regs := rfl
@[simp] theorem ageMod_time (f s) : (ageMod f s).time = s.time := rfl
@[simp] theorem ageMod_log (f s) : (ageMod f s).log = s.log := rfl
@[simp] theorem ageMod_cmd (f s) : (ageMod f s).cmd = s.cmd := rfl
@[simp] theorem ageMod_cfg (f s) : (ageMod f s).cfg = s.cfg := rfl
@[simp] theorem ageMod_prot (f s) : (ageMod f s).prot = s.prot := rfl
@[simp] theorem ageMod_boot (f s) : (ageMod f s).boot = s.boot := rfl
@[simp] theorem ageMod_power (f s) : (ageMod f s).power = s.power := rfl
@[simp] theorem ageMod_twin (f s) : (ageMod f s).twin = s.twin := rfl
@[simp] theorem ageMod_spare (f s) : (ageMod f s).spare = s.spare := rfl
@[simp] theorem ageMod_ports (f s) : (ageMod f s).ports = s.ports := rfl
@[simp] theorem ageMod_tbl (f s) : (ageMod f s).tbl = s.tbl := rfl
@[simp] theorem ageMod_buf (f s) : (ageMod f s).buf = s.buf := rfl
@[simp] theorem ageMod_cry (f s) : (ageMod f s).cry = s.cry := rfl
@[simp] theorem ageMod_flow (f s) : (ageMod f s).flow = s.flow := rfl
@[simp] theorem ageMod_host (f s) : (ageMod f s).host = s.host := rfl
@[simp] theorem ageMod_sto (f s) : (ageMod f s).sto = s.sto := rfl
@[simp] theorem ageMod_svc (f s) : (ageMod f s).svc = s.svc := rfl
@[simp] theorem ageMod_mbx (f s) : (ageMod f s).mbx = s.mbx := rfl
@[simp] theorem ageMod_mem (f s) : (ageMod f s).mem = s.mem := rfl
@[simp] theorem ageMod_cart (f s) : (ageMod f s).cart = s.cart := rfl
@[simp] theorem ageMod_age (f s) : (ageMod f s).age = f s.age := rfl
@[simp] theorem ageMod_test (f s) : (ageMod f s).test = s.test := rfl
@[simp] theorem ageMod_therm (f s) : (ageMod f s).therm = s.therm := rfl
@[simp] theorem ageMod_flash (f s) : (ageMod f s).flash = s.flash := rfl

@[simp] theorem testMod_pending (f s) : (testMod f s).pending = s.pending := rfl
@[simp] theorem testMod_waiting (f s) : (testMod f s).waiting = s.waiting := rfl
@[simp] theorem testMod_out (f s) : (testMod f s).out = s.out := rfl
@[simp] theorem testMod_freeIx (f s) : (testMod f s).freeIx = s.freeIx := rfl
@[simp] theorem testMod_regs (f s) : (testMod f s).regs = s.regs := rfl
@[simp] theorem testMod_time (f s) : (testMod f s).time = s.time := rfl
@[simp] theorem testMod_log (f s) : (testMod f s).log = s.log := rfl
@[simp] theorem testMod_cmd (f s) : (testMod f s).cmd = s.cmd := rfl
@[simp] theorem testMod_cfg (f s) : (testMod f s).cfg = s.cfg := rfl
@[simp] theorem testMod_prot (f s) : (testMod f s).prot = s.prot := rfl
@[simp] theorem testMod_boot (f s) : (testMod f s).boot = s.boot := rfl
@[simp] theorem testMod_power (f s) : (testMod f s).power = s.power := rfl
@[simp] theorem testMod_twin (f s) : (testMod f s).twin = s.twin := rfl
@[simp] theorem testMod_spare (f s) : (testMod f s).spare = s.spare := rfl
@[simp] theorem testMod_ports (f s) : (testMod f s).ports = s.ports := rfl
@[simp] theorem testMod_tbl (f s) : (testMod f s).tbl = s.tbl := rfl
@[simp] theorem testMod_buf (f s) : (testMod f s).buf = s.buf := rfl
@[simp] theorem testMod_cry (f s) : (testMod f s).cry = s.cry := rfl
@[simp] theorem testMod_flow (f s) : (testMod f s).flow = s.flow := rfl
@[simp] theorem testMod_host (f s) : (testMod f s).host = s.host := rfl
@[simp] theorem testMod_sto (f s) : (testMod f s).sto = s.sto := rfl
@[simp] theorem testMod_svc (f s) : (testMod f s).svc = s.svc := rfl
@[simp] theorem testMod_mbx (f s) : (testMod f s).mbx = s.mbx := rfl
@[simp] theorem testMod_mem (f s) : (testMod f s).mem = s.mem := rfl
@[simp] theorem testMod_cart (f s) : (testMod f s).cart = s.cart := rfl
@[simp] theorem testMod_age (f s) : (testMod f s).age = s.age := rfl
@[simp] theorem testMod_test (f s) : (testMod f s).test = f s.test := rfl
@[simp] theorem testMod_therm (f s) : (testMod f s).therm = s.therm := rfl
@[simp] theorem testMod_flash (f s) : (testMod f s).flash = s.flash := rfl

@[simp] theorem portMod_pending (p f s) : (portMod p f s).pending = s.pending := rfl
@[simp] theorem portMod_waiting (p f s) : (portMod p f s).waiting = s.waiting := rfl
@[simp] theorem portMod_out (p f s) : (portMod p f s).out = s.out := rfl
@[simp] theorem portMod_freeIx (p f s) : (portMod p f s).freeIx = s.freeIx := rfl
@[simp] theorem portMod_regs (p f s) : (portMod p f s).regs = s.regs := rfl
@[simp] theorem portMod_time (p f s) : (portMod p f s).time = s.time := rfl
@[simp] theorem portMod_log (p f s) : (portMod p f s).log = s.log := rfl
@[simp] theorem portMod_cmd (p f s) : (portMod p f s).cmd = s.cmd := rfl
@[simp] theorem portMod_cfg (p f s) : (portMod p f s).cfg = s.cfg := rfl
@[simp] theorem portMod_prot (p f s) : (portMod p f s).prot = s.prot := rfl
@[simp] theorem portMod_boot (p f s) : (portMod p f s).boot = s.boot := rfl
@[simp] theorem portMod_power (p f s) : (portMod p f s).power = s.power := rfl
@[simp] theorem portMod_twin (p f s) : (portMod p f s).twin = s.twin := rfl
@[simp] theorem portMod_spare (p f s) : (portMod p f s).spare = s.spare := rfl
@[simp] theorem portMod_ports (p f s) : (portMod p f s).ports = tmod s.ports p {} f := rfl
@[simp] theorem portMod_tbl (p f s) : (portMod p f s).tbl = s.tbl := rfl
@[simp] theorem portMod_buf (p f s) : (portMod p f s).buf = s.buf := rfl
@[simp] theorem portMod_cry (p f s) : (portMod p f s).cry = s.cry := rfl
@[simp] theorem portMod_flow (p f s) : (portMod p f s).flow = s.flow := rfl
@[simp] theorem portMod_host (p f s) : (portMod p f s).host = s.host := rfl
@[simp] theorem portMod_sto (p f s) : (portMod p f s).sto = s.sto := rfl
@[simp] theorem portMod_svc (p f s) : (portMod p f s).svc = s.svc := rfl
@[simp] theorem portMod_mbx (p f s) : (portMod p f s).mbx = s.mbx := rfl
@[simp] theorem portMod_mem (p f s) : (portMod p f s).mem = s.mem := rfl
@[simp] theorem portMod_cart (p f s) : (portMod p f s).cart = s.cart := rfl
@[simp] theorem portMod_age (p f s) : (portMod p f s).age = s.age := rfl
@[simp] theorem portMod_test (p f s) : (portMod p f s).test = s.test := rfl
@[simp] theorem portMod_therm (p f s) : (portMod p f s).therm = s.therm := rfl
@[simp] theorem portMod_flash (p f s) : (portMod p f s).flash = s.flash := rfl

@[simp] theorem mbxMod_pending (c f s) : (mbxMod c f s).pending = s.pending := rfl
@[simp] theorem mbxMod_waiting (c f s) : (mbxMod c f s).waiting = s.waiting := rfl
@[simp] theorem mbxMod_out (c f s) : (mbxMod c f s).out = s.out := rfl
@[simp] theorem mbxMod_freeIx (c f s) : (mbxMod c f s).freeIx = s.freeIx := rfl
@[simp] theorem mbxMod_regs (c f s) : (mbxMod c f s).regs = s.regs := rfl
@[simp] theorem mbxMod_time (c f s) : (mbxMod c f s).time = s.time := rfl
@[simp] theorem mbxMod_log (c f s) : (mbxMod c f s).log = s.log := rfl
@[simp] theorem mbxMod_cmd (c f s) : (mbxMod c f s).cmd = s.cmd := rfl
@[simp] theorem mbxMod_cfg (c f s) : (mbxMod c f s).cfg = s.cfg := rfl
@[simp] theorem mbxMod_prot (c f s) : (mbxMod c f s).prot = s.prot := rfl
@[simp] theorem mbxMod_boot (c f s) : (mbxMod c f s).boot = s.boot := rfl
@[simp] theorem mbxMod_power (c f s) : (mbxMod c f s).power = s.power := rfl
@[simp] theorem mbxMod_twin (c f s) : (mbxMod c f s).twin = s.twin := rfl
@[simp] theorem mbxMod_spare (c f s) : (mbxMod c f s).spare = s.spare := rfl
@[simp] theorem mbxMod_ports (c f s) : (mbxMod c f s).ports = s.ports := rfl
@[simp] theorem mbxMod_tbl (c f s) : (mbxMod c f s).tbl = s.tbl := rfl
@[simp] theorem mbxMod_buf (c f s) : (mbxMod c f s).buf = s.buf := rfl
@[simp] theorem mbxMod_cry (c f s) : (mbxMod c f s).cry = s.cry := rfl
@[simp] theorem mbxMod_flow (c f s) : (mbxMod c f s).flow = s.flow := rfl
@[simp] theorem mbxMod_host (c f s) : (mbxMod c f s).host = s.host := rfl
@[simp] theorem mbxMod_sto (c f s) : (mbxMod c f s).sto = s.sto := rfl
@[simp] theorem mbxMod_svc (c f s) : (mbxMod c f s).svc = s.svc := rfl
@[simp] theorem mbxMod_mbx (c f s) : (mbxMod c f s).mbx = tmod s.mbx c {} f := rfl
@[simp] theorem mbxMod_mem (c f s) : (mbxMod c f s).mem = s.mem := rfl
@[simp] theorem mbxMod_cart (c f s) : (mbxMod c f s).cart = s.cart := rfl
@[simp] theorem mbxMod_age (c f s) : (mbxMod c f s).age = s.age := rfl
@[simp] theorem mbxMod_test (c f s) : (mbxMod c f s).test = s.test := rfl
@[simp] theorem mbxMod_therm (c f s) : (mbxMod c f s).therm = s.therm := rfl
@[simp] theorem mbxMod_flash (c f s) : (mbxMod c f s).flash = s.flash := rfl

@[simp] theorem mkaMod_pending (p f s) : (mkaMod p f s).pending = s.pending := rfl
@[simp] theorem mkaMod_waiting (p f s) : (mkaMod p f s).waiting = s.waiting := rfl
@[simp] theorem mkaMod_out (p f s) : (mkaMod p f s).out = s.out := rfl
@[simp] theorem mkaMod_freeIx (p f s) : (mkaMod p f s).freeIx = s.freeIx := rfl
@[simp] theorem mkaMod_regs (p f s) : (mkaMod p f s).regs = s.regs := rfl
@[simp] theorem mkaMod_time (p f s) : (mkaMod p f s).time = s.time := rfl
@[simp] theorem mkaMod_log (p f s) : (mkaMod p f s).log = s.log := rfl
@[simp] theorem mkaMod_cmd (p f s) : (mkaMod p f s).cmd = s.cmd := rfl
@[simp] theorem mkaMod_cfg (p f s) : (mkaMod p f s).cfg = s.cfg := rfl
@[simp] theorem mkaMod_prot (p f s) : (mkaMod p f s).prot = s.prot := rfl
@[simp] theorem mkaMod_boot (p f s) : (mkaMod p f s).boot = s.boot := rfl
@[simp] theorem mkaMod_power (p f s) : (mkaMod p f s).power = s.power := rfl
@[simp] theorem mkaMod_twin (p f s) : (mkaMod p f s).twin = s.twin := rfl
@[simp] theorem mkaMod_spare (p f s) : (mkaMod p f s).spare = s.spare := rfl
@[simp] theorem mkaMod_ports (p f s) : (mkaMod p f s).ports = s.ports := rfl
@[simp] theorem mkaMod_tbl (p f s) : (mkaMod p f s).tbl = s.tbl := rfl
@[simp] theorem mkaMod_buf (p f s) : (mkaMod p f s).buf = s.buf := rfl
@[simp] theorem mkaMod_cry (p f s) : (mkaMod p f s).cry = { s.cry with mka := tmod s.cry.mka p {} f } := rfl
@[simp] theorem mkaMod_flow (p f s) : (mkaMod p f s).flow = s.flow := rfl
@[simp] theorem mkaMod_host (p f s) : (mkaMod p f s).host = s.host := rfl
@[simp] theorem mkaMod_sto (p f s) : (mkaMod p f s).sto = s.sto := rfl
@[simp] theorem mkaMod_svc (p f s) : (mkaMod p f s).svc = s.svc := rfl
@[simp] theorem mkaMod_mbx (p f s) : (mkaMod p f s).mbx = s.mbx := rfl
@[simp] theorem mkaMod_mem (p f s) : (mkaMod p f s).mem = s.mem := rfl
@[simp] theorem mkaMod_cart (p f s) : (mkaMod p f s).cart = s.cart := rfl
@[simp] theorem mkaMod_age (p f s) : (mkaMod p f s).age = s.age := rfl
@[simp] theorem mkaMod_test (p f s) : (mkaMod p f s).test = s.test := rfl
@[simp] theorem mkaMod_therm (p f s) : (mkaMod p f s).therm = s.therm := rfl
@[simp] theorem mkaMod_flash (p f s) : (mkaMod p f s).flash = s.flash := rfl

@[simp] theorem dieProtMod_pending (d f s) : (dieProtMod d f s).pending = s.pending := rfl
@[simp] theorem dieProtMod_waiting (d f s) : (dieProtMod d f s).waiting = s.waiting := rfl
@[simp] theorem dieProtMod_out (d f s) : (dieProtMod d f s).out = s.out := rfl
@[simp] theorem dieProtMod_freeIx (d f s) : (dieProtMod d f s).freeIx = s.freeIx := rfl
@[simp] theorem dieProtMod_regs (d f s) : (dieProtMod d f s).regs = s.regs := rfl
@[simp] theorem dieProtMod_time (d f s) : (dieProtMod d f s).time = s.time := rfl
@[simp] theorem dieProtMod_log (d f s) : (dieProtMod d f s).log = s.log := rfl
@[simp] theorem dieProtMod_cmd (d f s) : (dieProtMod d f s).cmd = s.cmd := rfl
@[simp] theorem dieProtMod_cfg (d f s) : (dieProtMod d f s).cfg = s.cfg := rfl
@[simp] theorem dieProtMod_prot (d f s) : (dieProtMod d f s).prot = { s.prot with dies := tmod s.prot.dies d {} f } := rfl
@[simp] theorem dieProtMod_boot (d f s) : (dieProtMod d f s).boot = s.boot := rfl
@[simp] theorem dieProtMod_power (d f s) : (dieProtMod d f s).power = s.power := rfl
@[simp] theorem dieProtMod_twin (d f s) : (dieProtMod d f s).twin = s.twin := rfl
@[simp] theorem dieProtMod_spare (d f s) : (dieProtMod d f s).spare = s.spare := rfl
@[simp] theorem dieProtMod_ports (d f s) : (dieProtMod d f s).ports = s.ports := rfl
@[simp] theorem dieProtMod_tbl (d f s) : (dieProtMod d f s).tbl = s.tbl := rfl
@[simp] theorem dieProtMod_buf (d f s) : (dieProtMod d f s).buf = s.buf := rfl
@[simp] theorem dieProtMod_cry (d f s) : (dieProtMod d f s).cry = s.cry := rfl
@[simp] theorem dieProtMod_flow (d f s) : (dieProtMod d f s).flow = s.flow := rfl
@[simp] theorem dieProtMod_host (d f s) : (dieProtMod d f s).host = s.host := rfl
@[simp] theorem dieProtMod_sto (d f s) : (dieProtMod d f s).sto = s.sto := rfl
@[simp] theorem dieProtMod_svc (d f s) : (dieProtMod d f s).svc = s.svc := rfl
@[simp] theorem dieProtMod_mbx (d f s) : (dieProtMod d f s).mbx = s.mbx := rfl
@[simp] theorem dieProtMod_mem (d f s) : (dieProtMod d f s).mem = s.mem := rfl
@[simp] theorem dieProtMod_cart (d f s) : (dieProtMod d f s).cart = s.cart := rfl
@[simp] theorem dieProtMod_age (d f s) : (dieProtMod d f s).age = s.age := rfl
@[simp] theorem dieProtMod_test (d f s) : (dieProtMod d f s).test = s.test := rfl
@[simp] theorem dieProtMod_therm (d f s) : (dieProtMod d f s).therm = s.therm := rfl
@[simp] theorem dieProtMod_flash (d f s) : (dieProtMod d f s).flash = s.flash := rfl

@[simp] theorem linkMod_pending (l h f s) : (linkMod l h f s).pending = s.pending := rfl
@[simp] theorem linkMod_waiting (l h f s) : (linkMod l h f s).waiting = s.waiting := rfl
@[simp] theorem linkMod_out (l h f s) : (linkMod l h f s).out = s.out := rfl
@[simp] theorem linkMod_freeIx (l h f s) : (linkMod l h f s).freeIx = s.freeIx := rfl
@[simp] theorem linkMod_regs (l h f s) : (linkMod l h f s).regs = s.regs := rfl
@[simp] theorem linkMod_time (l h f s) : (linkMod l h f s).time = s.time := rfl
@[simp] theorem linkMod_log (l h f s) : (linkMod l h f s).log = s.log := rfl
@[simp] theorem linkMod_cmd (l h f s) : (linkMod l h f s).cmd = s.cmd := rfl
@[simp] theorem linkMod_cfg (l h f s) : (linkMod l h f s).cfg = s.cfg := rfl
@[simp] theorem linkMod_prot (l h f s) : (linkMod l h f s).prot = s.prot := rfl
@[simp] theorem linkMod_boot (l h f s) : (linkMod l h f s).boot = s.boot := rfl
@[simp] theorem linkMod_power (l h f s) : (linkMod l h f s).power = s.power := rfl
@[simp] theorem linkMod_twin (l h f s) : (linkMod l h f s).twin = s.twin := rfl
@[simp] theorem linkMod_spare (l h f s) : (linkMod l h f s).spare = s.spare := rfl
@[simp] theorem linkMod_ports (l h f s) : (linkMod l h f s).ports = s.ports := rfl
@[simp] theorem linkMod_tbl (l h f s) : (linkMod l h f s).tbl = s.tbl := rfl
@[simp] theorem linkMod_buf (l h f s) : (linkMod l h f s).buf = s.buf := rfl
@[simp] theorem linkMod_cry (l h f s) : (linkMod l h f s).cry = s.cry := rfl
@[simp] theorem linkMod_flow (l h f s) : (linkMod l h f s).flow = s.flow := rfl
@[simp] theorem linkMod_host (l h f s) : (linkMod l h f s).host = { s.host with links := tmod s.host.links (linkKey l h) {} f } := rfl
@[simp] theorem linkMod_sto (l h f s) : (linkMod l h f s).sto = s.sto := rfl
@[simp] theorem linkMod_svc (l h f s) : (linkMod l h f s).svc = s.svc := rfl
@[simp] theorem linkMod_mbx (l h f s) : (linkMod l h f s).mbx = s.mbx := rfl
@[simp] theorem linkMod_mem (l h f s) : (linkMod l h f s).mem = s.mem := rfl
@[simp] theorem linkMod_cart (l h f s) : (linkMod l h f s).cart = s.cart := rfl
@[simp] theorem linkMod_age (l h f s) : (linkMod l h f s).age = s.age := rfl
@[simp] theorem linkMod_test (l h f s) : (linkMod l h f s).test = s.test := rfl
@[simp] theorem linkMod_therm (l h f s) : (linkMod l h f s).therm = s.therm := rfl
@[simp] theorem linkMod_flash (l h f s) : (linkMod l h f s).flash = s.flash := rfl

@[simp] theorem funcMod_pending (x f s) : (funcMod x f s).pending = s.pending := rfl
@[simp] theorem funcMod_waiting (x f s) : (funcMod x f s).waiting = s.waiting := rfl
@[simp] theorem funcMod_out (x f s) : (funcMod x f s).out = s.out := rfl
@[simp] theorem funcMod_freeIx (x f s) : (funcMod x f s).freeIx = s.freeIx := rfl
@[simp] theorem funcMod_regs (x f s) : (funcMod x f s).regs = s.regs := rfl
@[simp] theorem funcMod_time (x f s) : (funcMod x f s).time = s.time := rfl
@[simp] theorem funcMod_log (x f s) : (funcMod x f s).log = s.log := rfl
@[simp] theorem funcMod_cmd (x f s) : (funcMod x f s).cmd = s.cmd := rfl
@[simp] theorem funcMod_cfg (x f s) : (funcMod x f s).cfg = s.cfg := rfl
@[simp] theorem funcMod_prot (x f s) : (funcMod x f s).prot = s.prot := rfl
@[simp] theorem funcMod_boot (x f s) : (funcMod x f s).boot = s.boot := rfl
@[simp] theorem funcMod_power (x f s) : (funcMod x f s).power = s.power := rfl
@[simp] theorem funcMod_twin (x f s) : (funcMod x f s).twin = s.twin := rfl
@[simp] theorem funcMod_spare (x f s) : (funcMod x f s).spare = s.spare := rfl
@[simp] theorem funcMod_ports (x f s) : (funcMod x f s).ports = s.ports := rfl
@[simp] theorem funcMod_tbl (x f s) : (funcMod x f s).tbl = s.tbl := rfl
@[simp] theorem funcMod_buf (x f s) : (funcMod x f s).buf = s.buf := rfl
@[simp] theorem funcMod_cry (x f s) : (funcMod x f s).cry = s.cry := rfl
@[simp] theorem funcMod_flow (x f s) : (funcMod x f s).flow = s.flow := rfl
@[simp] theorem funcMod_host (x f s) : (funcMod x f s).host = { s.host with funcs := tmod s.host.funcs (fnKey x) {} f } := rfl
@[simp] theorem funcMod_sto (x f s) : (funcMod x f s).sto = s.sto := rfl
@[simp] theorem funcMod_svc (x f s) : (funcMod x f s).svc = s.svc := rfl
@[simp] theorem funcMod_mbx (x f s) : (funcMod x f s).mbx = s.mbx := rfl
@[simp] theorem funcMod_mem (x f s) : (funcMod x f s).mem = s.mem := rfl
@[simp] theorem funcMod_cart (x f s) : (funcMod x f s).cart = s.cart := rfl
@[simp] theorem funcMod_age (x f s) : (funcMod x f s).age = s.age := rfl
@[simp] theorem funcMod_test (x f s) : (funcMod x f s).test = s.test := rfl
@[simp] theorem funcMod_therm (x f s) : (funcMod x f s).therm = s.therm := rfl
@[simp] theorem funcMod_flash (x f s) : (funcMod x f s).flash = s.flash := rfl

@[simp] theorem dmaMod_pending (k f s) : (dmaMod k f s).pending = s.pending := rfl
@[simp] theorem dmaMod_waiting (k f s) : (dmaMod k f s).waiting = s.waiting := rfl
@[simp] theorem dmaMod_out (k f s) : (dmaMod k f s).out = s.out := rfl
@[simp] theorem dmaMod_freeIx (k f s) : (dmaMod k f s).freeIx = s.freeIx := rfl
@[simp] theorem dmaMod_regs (k f s) : (dmaMod k f s).regs = s.regs := rfl
@[simp] theorem dmaMod_time (k f s) : (dmaMod k f s).time = s.time := rfl
@[simp] theorem dmaMod_log (k f s) : (dmaMod k f s).log = s.log := rfl
@[simp] theorem dmaMod_cmd (k f s) : (dmaMod k f s).cmd = s.cmd := rfl
@[simp] theorem dmaMod_cfg (k f s) : (dmaMod k f s).cfg = s.cfg := rfl
@[simp] theorem dmaMod_prot (k f s) : (dmaMod k f s).prot = s.prot := rfl
@[simp] theorem dmaMod_boot (k f s) : (dmaMod k f s).boot = s.boot := rfl
@[simp] theorem dmaMod_power (k f s) : (dmaMod k f s).power = s.power := rfl
@[simp] theorem dmaMod_twin (k f s) : (dmaMod k f s).twin = s.twin := rfl
@[simp] theorem dmaMod_spare (k f s) : (dmaMod k f s).spare = s.spare := rfl
@[simp] theorem dmaMod_ports (k f s) : (dmaMod k f s).ports = s.ports := rfl
@[simp] theorem dmaMod_tbl (k f s) : (dmaMod k f s).tbl = s.tbl := rfl
@[simp] theorem dmaMod_buf (k f s) : (dmaMod k f s).buf = s.buf := rfl
@[simp] theorem dmaMod_cry (k f s) : (dmaMod k f s).cry = s.cry := rfl
@[simp] theorem dmaMod_flow (k f s) : (dmaMod k f s).flow = s.flow := rfl
@[simp] theorem dmaMod_host (k f s) : (dmaMod k f s).host = { s.host with chans := tmod s.host.chans k {} f } := rfl
@[simp] theorem dmaMod_sto (k f s) : (dmaMod k f s).sto = s.sto := rfl
@[simp] theorem dmaMod_svc (k f s) : (dmaMod k f s).svc = s.svc := rfl
@[simp] theorem dmaMod_mbx (k f s) : (dmaMod k f s).mbx = s.mbx := rfl
@[simp] theorem dmaMod_mem (k f s) : (dmaMod k f s).mem = s.mem := rfl
@[simp] theorem dmaMod_cart (k f s) : (dmaMod k f s).cart = s.cart := rfl
@[simp] theorem dmaMod_age (k f s) : (dmaMod k f s).age = s.age := rfl
@[simp] theorem dmaMod_test (k f s) : (dmaMod k f s).test = s.test := rfl
@[simp] theorem dmaMod_therm (k f s) : (dmaMod k f s).therm = s.therm := rfl
@[simp] theorem dmaMod_flash (k f s) : (dmaMod k f s).flash = s.flash := rfl

@[simp] theorem logMod_pending (k l s) : (logMod k l s).pending = s.pending := rfl
@[simp] theorem logMod_waiting (k l s) : (logMod k l s).waiting = s.waiting := rfl
@[simp] theorem logMod_out (k l s) : (logMod k l s).out = s.out := rfl
@[simp] theorem logMod_freeIx (k l s) : (logMod k l s).freeIx = s.freeIx := rfl
@[simp] theorem logMod_regs (k l s) : (logMod k l s).regs = s.regs := rfl
@[simp] theorem logMod_time (k l s) : (logMod k l s).time = s.time := rfl
@[simp] theorem logMod_log (k l s) : (logMod k l s).log = s.log := rfl
@[simp] theorem logMod_cmd (k l s) : (logMod k l s).cmd = s.cmd := rfl
@[simp] theorem logMod_cfg (k l s) : (logMod k l s).cfg = s.cfg := rfl
@[simp] theorem logMod_prot (k l s) : (logMod k l s).prot = s.prot := rfl
@[simp] theorem logMod_boot (k l s) : (logMod k l s).boot = s.boot := rfl
@[simp] theorem logMod_power (k l s) : (logMod k l s).power = s.power := rfl
@[simp] theorem logMod_twin (k l s) : (logMod k l s).twin = s.twin := rfl
@[simp] theorem logMod_spare (k l s) : (logMod k l s).spare = s.spare := rfl
@[simp] theorem logMod_ports (k l s) : (logMod k l s).ports = s.ports := rfl
@[simp] theorem logMod_tbl (k l s) : (logMod k l s).tbl = s.tbl := rfl
@[simp] theorem logMod_buf (k l s) : (logMod k l s).buf = s.buf := rfl
@[simp] theorem logMod_cry (k l s) : (logMod k l s).cry = s.cry := rfl
@[simp] theorem logMod_flow (k l s) : (logMod k l s).flow = s.flow := rfl
@[simp] theorem logMod_host (k l s) : (logMod k l s).host = { s.host with logs := tput s.host.logs k l } := rfl
@[simp] theorem logMod_sto (k l s) : (logMod k l s).sto = s.sto := rfl
@[simp] theorem logMod_svc (k l s) : (logMod k l s).svc = s.svc := rfl
@[simp] theorem logMod_mbx (k l s) : (logMod k l s).mbx = s.mbx := rfl
@[simp] theorem logMod_mem (k l s) : (logMod k l s).mem = s.mem := rfl
@[simp] theorem logMod_cart (k l s) : (logMod k l s).cart = s.cart := rfl
@[simp] theorem logMod_age (k l s) : (logMod k l s).age = s.age := rfl
@[simp] theorem logMod_test (k l s) : (logMod k l s).test = s.test := rfl
@[simp] theorem logMod_therm (k l s) : (logMod k l s).therm = s.therm := rfl
@[simp] theorem logMod_flash (k l s) : (logMod k l s).flash = s.flash := rfl

@[simp] theorem logDel_pending (k s) : (logDel k s).pending = s.pending := rfl
@[simp] theorem logDel_waiting (k s) : (logDel k s).waiting = s.waiting := rfl
@[simp] theorem logDel_out (k s) : (logDel k s).out = s.out := rfl
@[simp] theorem logDel_freeIx (k s) : (logDel k s).freeIx = s.freeIx := rfl
@[simp] theorem logDel_regs (k s) : (logDel k s).regs = s.regs := rfl
@[simp] theorem logDel_time (k s) : (logDel k s).time = s.time := rfl
@[simp] theorem logDel_log (k s) : (logDel k s).log = s.log := rfl
@[simp] theorem logDel_cmd (k s) : (logDel k s).cmd = s.cmd := rfl
@[simp] theorem logDel_cfg (k s) : (logDel k s).cfg = s.cfg := rfl
@[simp] theorem logDel_prot (k s) : (logDel k s).prot = s.prot := rfl
@[simp] theorem logDel_boot (k s) : (logDel k s).boot = s.boot := rfl
@[simp] theorem logDel_power (k s) : (logDel k s).power = s.power := rfl
@[simp] theorem logDel_twin (k s) : (logDel k s).twin = s.twin := rfl
@[simp] theorem logDel_spare (k s) : (logDel k s).spare = s.spare := rfl
@[simp] theorem logDel_ports (k s) : (logDel k s).ports = s.ports := rfl
@[simp] theorem logDel_tbl (k s) : (logDel k s).tbl = s.tbl := rfl
@[simp] theorem logDel_buf (k s) : (logDel k s).buf = s.buf := rfl
@[simp] theorem logDel_cry (k s) : (logDel k s).cry = s.cry := rfl
@[simp] theorem logDel_flow (k s) : (logDel k s).flow = s.flow := rfl
@[simp] theorem logDel_host (k s) : (logDel k s).host = { s.host with logs := tdel s.host.logs k } := rfl
@[simp] theorem logDel_sto (k s) : (logDel k s).sto = s.sto := rfl
@[simp] theorem logDel_svc (k s) : (logDel k s).svc = s.svc := rfl
@[simp] theorem logDel_mbx (k s) : (logDel k s).mbx = s.mbx := rfl
@[simp] theorem logDel_mem (k s) : (logDel k s).mem = s.mem := rfl
@[simp] theorem logDel_cart (k s) : (logDel k s).cart = s.cart := rfl
@[simp] theorem logDel_age (k s) : (logDel k s).age = s.age := rfl
@[simp] theorem logDel_test (k s) : (logDel k s).test = s.test := rfl
@[simp] theorem logDel_therm (k s) : (logDel k s).therm = s.therm := rfl
@[simp] theorem logDel_flash (k s) : (logDel k s).flash = s.flash := rfl

@[simp] theorem countQp_pending (x n k v s) : (countQp x n k v s).pending = s.pending := rfl
@[simp] theorem countQp_waiting (x n k v s) : (countQp x n k v s).waiting = s.waiting := rfl
@[simp] theorem countQp_out (x n k v s) : (countQp x n k v s).out = s.out := rfl
@[simp] theorem countQp_freeIx (x n k v s) : (countQp x n k v s).freeIx = s.freeIx := rfl
@[simp] theorem countQp_regs (x n k v s) : (countQp x n k v s).regs = s.regs := rfl
@[simp] theorem countQp_time (x n k v s) : (countQp x n k v s).time = s.time := rfl
@[simp] theorem countQp_log (x n k v s) : (countQp x n k v s).log = s.log := rfl
@[simp] theorem countQp_cmd (x n k v s) : (countQp x n k v s).cmd = s.cmd := rfl
@[simp] theorem countQp_cfg (x n k v s) : (countQp x n k v s).cfg = s.cfg := rfl
@[simp] theorem countQp_prot (x n k v s) : (countQp x n k v s).prot = s.prot := rfl
@[simp] theorem countQp_boot (x n k v s) : (countQp x n k v s).boot = s.boot := rfl
@[simp] theorem countQp_power (x n k v s) : (countQp x n k v s).power = s.power := rfl
@[simp] theorem countQp_twin (x n k v s) : (countQp x n k v s).twin = s.twin := rfl
@[simp] theorem countQp_spare (x n k v s) : (countQp x n k v s).spare = s.spare := rfl
@[simp] theorem countQp_ports (x n k v s) : (countQp x n k v s).ports = s.ports := rfl
@[simp] theorem countQp_tbl (x n k v s) : (countQp x n k v s).tbl = s.tbl := rfl
@[simp] theorem countQp_buf (x n k v s) : (countQp x n k v s).buf = s.buf := rfl
@[simp] theorem countQp_cry (x n k v s) : (countQp x n k v s).cry = s.cry := rfl
@[simp] theorem countQp_flow (x n k v s) : (countQp x n k v s).flow = s.flow := rfl
@[simp] theorem countQp_host (x n k v s) : (countQp x n k v s).host = { s.host with qpCnt := tadd s.host.qpCnt (qpCntKey s x n + k) v } := rfl
@[simp] theorem countQp_sto (x n k v s) : (countQp x n k v s).sto = s.sto := rfl
@[simp] theorem countQp_svc (x n k v s) : (countQp x n k v s).svc = s.svc := rfl
@[simp] theorem countQp_mbx (x n k v s) : (countQp x n k v s).mbx = s.mbx := rfl
@[simp] theorem countQp_mem (x n k v s) : (countQp x n k v s).mem = s.mem := rfl
@[simp] theorem countQp_cart (x n k v s) : (countQp x n k v s).cart = s.cart := rfl
@[simp] theorem countQp_age (x n k v s) : (countQp x n k v s).age = s.age := rfl
@[simp] theorem countQp_test (x n k v s) : (countQp x n k v s).test = s.test := rfl
@[simp] theorem countQp_therm (x n k v s) : (countQp x n k v s).therm = s.therm := rfl
@[simp] theorem countQp_flash (x n k v s) : (countQp x n k v s).flash = s.flash := rfl

@[simp] theorem clustMod_pending (n f s) : (clustMod n f s).pending = s.pending := rfl
@[simp] theorem clustMod_waiting (n f s) : (clustMod n f s).waiting = s.waiting := rfl
@[simp] theorem clustMod_out (n f s) : (clustMod n f s).out = s.out := rfl
@[simp] theorem clustMod_freeIx (n f s) : (clustMod n f s).freeIx = s.freeIx := rfl
@[simp] theorem clustMod_regs (n f s) : (clustMod n f s).regs = s.regs := rfl
@[simp] theorem clustMod_time (n f s) : (clustMod n f s).time = s.time := rfl
@[simp] theorem clustMod_log (n f s) : (clustMod n f s).log = s.log := rfl
@[simp] theorem clustMod_cmd (n f s) : (clustMod n f s).cmd = s.cmd := rfl
@[simp] theorem clustMod_cfg (n f s) : (clustMod n f s).cfg = s.cfg := rfl
@[simp] theorem clustMod_prot (n f s) : (clustMod n f s).prot = s.prot := rfl
@[simp] theorem clustMod_boot (n f s) : (clustMod n f s).boot = s.boot := rfl
@[simp] theorem clustMod_power (n f s) : (clustMod n f s).power = s.power := rfl
@[simp] theorem clustMod_twin (n f s) : (clustMod n f s).twin = s.twin := rfl
@[simp] theorem clustMod_spare (n f s) : (clustMod n f s).spare = s.spare := rfl
@[simp] theorem clustMod_ports (n f s) : (clustMod n f s).ports = s.ports := rfl
@[simp] theorem clustMod_tbl (n f s) : (clustMod n f s).tbl = s.tbl := rfl
@[simp] theorem clustMod_buf (n f s) : (clustMod n f s).buf = s.buf := rfl
@[simp] theorem clustMod_cry (n f s) : (clustMod n f s).cry = s.cry := rfl
@[simp] theorem clustMod_flow (n f s) : (clustMod n f s).flow = s.flow := rfl
@[simp] theorem clustMod_host (n f s) : (clustMod n f s).host = s.host := rfl
@[simp] theorem clustMod_sto (n f s) : (clustMod n f s).sto = s.sto := rfl
@[simp] theorem clustMod_svc (n f s) : (clustMod n f s).svc = { s.svc with clusters := tmod s.svc.clusters n {} f } := rfl
@[simp] theorem clustMod_mbx (n f s) : (clustMod n f s).mbx = s.mbx := rfl
@[simp] theorem clustMod_mem (n f s) : (clustMod n f s).mem = s.mem := rfl
@[simp] theorem clustMod_cart (n f s) : (clustMod n f s).cart = s.cart := rfl
@[simp] theorem clustMod_age (n f s) : (clustMod n f s).age = s.age := rfl
@[simp] theorem clustMod_test (n f s) : (clustMod n f s).test = s.test := rfl
@[simp] theorem clustMod_therm (n f s) : (clustMod n f s).therm = s.therm := rfl
@[simp] theorem clustMod_flash (n f s) : (clustMod n f s).flash = s.flash := rfl

@[simp] theorem bedMod_pending (b f s) : (bedMod b f s).pending = s.pending := rfl
@[simp] theorem bedMod_waiting (b f s) : (bedMod b f s).waiting = s.waiting := rfl
@[simp] theorem bedMod_out (b f s) : (bedMod b f s).out = s.out := rfl
@[simp] theorem bedMod_freeIx (b f s) : (bedMod b f s).freeIx = s.freeIx := rfl
@[simp] theorem bedMod_regs (b f s) : (bedMod b f s).regs = s.regs := rfl
@[simp] theorem bedMod_time (b f s) : (bedMod b f s).time = s.time := rfl
@[simp] theorem bedMod_log (b f s) : (bedMod b f s).log = s.log := rfl
@[simp] theorem bedMod_cmd (b f s) : (bedMod b f s).cmd = s.cmd := rfl
@[simp] theorem bedMod_cfg (b f s) : (bedMod b f s).cfg = s.cfg := rfl
@[simp] theorem bedMod_prot (b f s) : (bedMod b f s).prot = s.prot := rfl
@[simp] theorem bedMod_boot (b f s) : (bedMod b f s).boot = s.boot := rfl
@[simp] theorem bedMod_power (b f s) : (bedMod b f s).power = s.power := rfl
@[simp] theorem bedMod_twin (b f s) : (bedMod b f s).twin = s.twin := rfl
@[simp] theorem bedMod_spare (b f s) : (bedMod b f s).spare = s.spare := rfl
@[simp] theorem bedMod_ports (b f s) : (bedMod b f s).ports = s.ports := rfl
@[simp] theorem bedMod_tbl (b f s) : (bedMod b f s).tbl = s.tbl := rfl
@[simp] theorem bedMod_buf (b f s) : (bedMod b f s).buf = s.buf := rfl
@[simp] theorem bedMod_cry (b f s) : (bedMod b f s).cry = s.cry := rfl
@[simp] theorem bedMod_flow (b f s) : (bedMod b f s).flow = s.flow := rfl
@[simp] theorem bedMod_host (b f s) : (bedMod b f s).host = s.host := rfl
@[simp] theorem bedMod_sto (b f s) : (bedMod b f s).sto = s.sto := rfl
@[simp] theorem bedMod_svc (b f s) : (bedMod b f s).svc = { s.svc with beds := tmod s.svc.beds b {} f } := rfl
@[simp] theorem bedMod_mbx (b f s) : (bedMod b f s).mbx = s.mbx := rfl
@[simp] theorem bedMod_mem (b f s) : (bedMod b f s).mem = s.mem := rfl
@[simp] theorem bedMod_cart (b f s) : (bedMod b f s).cart = s.cart := rfl
@[simp] theorem bedMod_age (b f s) : (bedMod b f s).age = s.age := rfl
@[simp] theorem bedMod_test (b f s) : (bedMod b f s).test = s.test := rfl
@[simp] theorem bedMod_therm (b f s) : (bedMod b f s).therm = s.therm := rfl
@[simp] theorem bedMod_flash (b f s) : (bedMod b f s).flash = s.flash := rfl

@[simp] theorem queueSet_pending (k l s) : (queueSet k l s).pending = s.pending := rfl
@[simp] theorem queueSet_waiting (k l s) : (queueSet k l s).waiting = s.waiting := rfl
@[simp] theorem queueSet_out (k l s) : (queueSet k l s).out = s.out := rfl
@[simp] theorem queueSet_freeIx (k l s) : (queueSet k l s).freeIx = s.freeIx := rfl
@[simp] theorem queueSet_regs (k l s) : (queueSet k l s).regs = s.regs := rfl
@[simp] theorem queueSet_time (k l s) : (queueSet k l s).time = s.time := rfl
@[simp] theorem queueSet_log (k l s) : (queueSet k l s).log = s.log := rfl
@[simp] theorem queueSet_cmd (k l s) : (queueSet k l s).cmd = s.cmd := rfl
@[simp] theorem queueSet_cfg (k l s) : (queueSet k l s).cfg = s.cfg := rfl
@[simp] theorem queueSet_prot (k l s) : (queueSet k l s).prot = s.prot := rfl
@[simp] theorem queueSet_boot (k l s) : (queueSet k l s).boot = s.boot := rfl
@[simp] theorem queueSet_power (k l s) : (queueSet k l s).power = s.power := rfl
@[simp] theorem queueSet_twin (k l s) : (queueSet k l s).twin = s.twin := rfl
@[simp] theorem queueSet_spare (k l s) : (queueSet k l s).spare = s.spare := rfl
@[simp] theorem queueSet_ports (k l s) : (queueSet k l s).ports = s.ports := rfl
@[simp] theorem queueSet_tbl (k l s) : (queueSet k l s).tbl = s.tbl := rfl
@[simp] theorem queueSet_buf (k l s) : (queueSet k l s).buf = { s.buf with queues := if l.isEmpty then tdel s.buf.queues k else tput s.buf.queues k l } := rfl
@[simp] theorem queueSet_cry (k l s) : (queueSet k l s).cry = s.cry := rfl
@[simp] theorem queueSet_flow (k l s) : (queueSet k l s).flow = s.flow := rfl
@[simp] theorem queueSet_host (k l s) : (queueSet k l s).host = s.host := rfl
@[simp] theorem queueSet_sto (k l s) : (queueSet k l s).sto = s.sto := rfl
@[simp] theorem queueSet_svc (k l s) : (queueSet k l s).svc = s.svc := rfl
@[simp] theorem queueSet_mbx (k l s) : (queueSet k l s).mbx = s.mbx := rfl
@[simp] theorem queueSet_mem (k l s) : (queueSet k l s).mem = s.mem := rfl
@[simp] theorem queueSet_cart (k l s) : (queueSet k l s).cart = s.cart := rfl
@[simp] theorem queueSet_age (k l s) : (queueSet k l s).age = s.age := rfl
@[simp] theorem queueSet_test (k l s) : (queueSet k l s).test = s.test := rfl
@[simp] theorem queueSet_therm (k l s) : (queueSet k l s).therm = s.therm := rfl
@[simp] theorem queueSet_flash (k l s) : (queueSet k l s).flash = s.flash := rfl

@[simp] theorem slotMod_pending (x f s) : (slotMod x f s).pending = s.pending := rfl
@[simp] theorem slotMod_waiting (x f s) : (slotMod x f s).waiting = s.waiting := rfl
@[simp] theorem slotMod_out (x f s) : (slotMod x f s).out = s.out := rfl
@[simp] theorem slotMod_freeIx (x f s) : (slotMod x f s).freeIx = s.freeIx := rfl
@[simp] theorem slotMod_regs (x f s) : (slotMod x f s).regs = s.regs := rfl
@[simp] theorem slotMod_time (x f s) : (slotMod x f s).time = s.time := rfl
@[simp] theorem slotMod_log (x f s) : (slotMod x f s).log = s.log := rfl
@[simp] theorem slotMod_cmd (x f s) : (slotMod x f s).cmd = s.cmd := rfl
@[simp] theorem slotMod_cfg (x f s) : (slotMod x f s).cfg = s.cfg := rfl
@[simp] theorem slotMod_prot (x f s) : (slotMod x f s).prot = s.prot := rfl
@[simp] theorem slotMod_boot (x f s) : (slotMod x f s).boot = s.boot := rfl
@[simp] theorem slotMod_power (x f s) : (slotMod x f s).power = s.power := rfl
@[simp] theorem slotMod_twin (x f s) : (slotMod x f s).twin = s.twin := rfl
@[simp] theorem slotMod_spare (x f s) : (slotMod x f s).spare = s.spare := rfl
@[simp] theorem slotMod_ports (x f s) : (slotMod x f s).ports = s.ports := rfl
@[simp] theorem slotMod_tbl (x f s) : (slotMod x f s).tbl = s.tbl := rfl
@[simp] theorem slotMod_buf (x f s) : (slotMod x f s).buf = s.buf := rfl
@[simp] theorem slotMod_cry (x f s) : (slotMod x f s).cry = s.cry := rfl
@[simp] theorem slotMod_flow (x f s) : (slotMod x f s).flow = s.flow := rfl
@[simp] theorem slotMod_host (x f s) : (slotMod x f s).host = s.host := rfl
@[simp] theorem slotMod_sto (x f s) : (slotMod x f s).sto = s.sto := rfl
@[simp] theorem slotMod_svc (x f s) : (slotMod x f s).svc = s.svc := rfl
@[simp] theorem slotMod_mbx (x f s) : (slotMod x f s).mbx = s.mbx := rfl
@[simp] theorem slotMod_mem (x f s) : (slotMod x f s).mem = s.mem := rfl
@[simp] theorem slotMod_cart (x f s) : (slotMod x f s).cart = { s.cart with slots := tmod s.cart.slots x {} f } := rfl
@[simp] theorem slotMod_age (x f s) : (slotMod x f s).age = s.age := rfl
@[simp] theorem slotMod_test (x f s) : (slotMod x f s).test = s.test := rfl
@[simp] theorem slotMod_therm (x f s) : (slotMod x f s).therm = s.therm := rfl
@[simp] theorem slotMod_flash (x f s) : (slotMod x f s).flash = s.flash := rfl

@[simp] theorem memChMod_pending (c f s) : (memChMod c f s).pending = s.pending := rfl
@[simp] theorem memChMod_waiting (c f s) : (memChMod c f s).waiting = s.waiting := rfl
@[simp] theorem memChMod_out (c f s) : (memChMod c f s).out = s.out := rfl
@[simp] theorem memChMod_freeIx (c f s) : (memChMod c f s).freeIx = s.freeIx := rfl
@[simp] theorem memChMod_regs (c f s) : (memChMod c f s).regs = s.regs := rfl
@[simp] theorem memChMod_time (c f s) : (memChMod c f s).time = s.time := rfl
@[simp] theorem memChMod_log (c f s) : (memChMod c f s).log = s.log := rfl
@[simp] theorem memChMod_cmd (c f s) : (memChMod c f s).cmd = s.cmd := rfl
@[simp] theorem memChMod_cfg (c f s) : (memChMod c f s).cfg = s.cfg := rfl
@[simp] theorem memChMod_prot (c f s) : (memChMod c f s).prot = s.prot := rfl
@[simp] theorem memChMod_boot (c f s) : (memChMod c f s).boot = s.boot := rfl
@[simp] theorem memChMod_power (c f s) : (memChMod c f s).power = s.power := rfl
@[simp] theorem memChMod_twin (c f s) : (memChMod c f s).twin = s.twin := rfl
@[simp] theorem memChMod_spare (c f s) : (memChMod c f s).spare = s.spare := rfl
@[simp] theorem memChMod_ports (c f s) : (memChMod c f s).ports = s.ports := rfl
@[simp] theorem memChMod_tbl (c f s) : (memChMod c f s).tbl = s.tbl := rfl
@[simp] theorem memChMod_buf (c f s) : (memChMod c f s).buf = s.buf := rfl
@[simp] theorem memChMod_cry (c f s) : (memChMod c f s).cry = s.cry := rfl
@[simp] theorem memChMod_flow (c f s) : (memChMod c f s).flow = s.flow := rfl
@[simp] theorem memChMod_host (c f s) : (memChMod c f s).host = s.host := rfl
@[simp] theorem memChMod_sto (c f s) : (memChMod c f s).sto = s.sto := rfl
@[simp] theorem memChMod_svc (c f s) : (memChMod c f s).svc = s.svc := rfl
@[simp] theorem memChMod_mbx (c f s) : (memChMod c f s).mbx = s.mbx := rfl
@[simp] theorem memChMod_mem (c f s) : (memChMod c f s).mem = { s.mem with chans := tmod s.mem.chans c {} f } := rfl
@[simp] theorem memChMod_cart (c f s) : (memChMod c f s).cart = s.cart := rfl
@[simp] theorem memChMod_age (c f s) : (memChMod c f s).age = s.age := rfl
@[simp] theorem memChMod_test (c f s) : (memChMod c f s).test = s.test := rfl
@[simp] theorem memChMod_therm (c f s) : (memChMod c f s).therm = s.therm := rfl
@[simp] theorem memChMod_flash (c f s) : (memChMod c f s).flash = s.flash := rfl

@[simp] theorem nvmeMod_pending (x f s) : (nvmeMod x f s).pending = s.pending := rfl
@[simp] theorem nvmeMod_waiting (x f s) : (nvmeMod x f s).waiting = s.waiting := rfl
@[simp] theorem nvmeMod_out (x f s) : (nvmeMod x f s).out = s.out := rfl
@[simp] theorem nvmeMod_freeIx (x f s) : (nvmeMod x f s).freeIx = s.freeIx := rfl
@[simp] theorem nvmeMod_regs (x f s) : (nvmeMod x f s).regs = s.regs := rfl
@[simp] theorem nvmeMod_time (x f s) : (nvmeMod x f s).time = s.time := rfl
@[simp] theorem nvmeMod_log (x f s) : (nvmeMod x f s).log = s.log := rfl
@[simp] theorem nvmeMod_cmd (x f s) : (nvmeMod x f s).cmd = s.cmd := rfl
@[simp] theorem nvmeMod_cfg (x f s) : (nvmeMod x f s).cfg = s.cfg := rfl
@[simp] theorem nvmeMod_prot (x f s) : (nvmeMod x f s).prot = s.prot := rfl
@[simp] theorem nvmeMod_boot (x f s) : (nvmeMod x f s).boot = s.boot := rfl
@[simp] theorem nvmeMod_power (x f s) : (nvmeMod x f s).power = s.power := rfl
@[simp] theorem nvmeMod_twin (x f s) : (nvmeMod x f s).twin = s.twin := rfl
@[simp] theorem nvmeMod_spare (x f s) : (nvmeMod x f s).spare = s.spare := rfl
@[simp] theorem nvmeMod_ports (x f s) : (nvmeMod x f s).ports = s.ports := rfl
@[simp] theorem nvmeMod_tbl (x f s) : (nvmeMod x f s).tbl = s.tbl := rfl
@[simp] theorem nvmeMod_buf (x f s) : (nvmeMod x f s).buf = s.buf := rfl
@[simp] theorem nvmeMod_cry (x f s) : (nvmeMod x f s).cry = s.cry := rfl
@[simp] theorem nvmeMod_flow (x f s) : (nvmeMod x f s).flow = s.flow := rfl
@[simp] theorem nvmeMod_host (x f s) : (nvmeMod x f s).host = s.host := rfl
@[simp] theorem nvmeMod_sto (x f s) : (nvmeMod x f s).sto = { s.sto with nvme := tmod s.sto.nvme (fnKey x) {} f } := rfl
@[simp] theorem nvmeMod_svc (x f s) : (nvmeMod x f s).svc = s.svc := rfl
@[simp] theorem nvmeMod_mbx (x f s) : (nvmeMod x f s).mbx = s.mbx := rfl
@[simp] theorem nvmeMod_mem (x f s) : (nvmeMod x f s).mem = s.mem := rfl
@[simp] theorem nvmeMod_cart (x f s) : (nvmeMod x f s).cart = s.cart := rfl
@[simp] theorem nvmeMod_age (x f s) : (nvmeMod x f s).age = s.age := rfl
@[simp] theorem nvmeMod_test (x f s) : (nvmeMod x f s).test = s.test := rfl
@[simp] theorem nvmeMod_therm (x f s) : (nvmeMod x f s).therm = s.therm := rfl
@[simp] theorem nvmeMod_flash (x f s) : (nvmeMod x f s).flash = s.flash := rfl

@[simp] theorem countPort_pending (p n k s) : (countPort p n k s).pending = s.pending := rfl
@[simp] theorem countPort_waiting (p n k s) : (countPort p n k s).waiting = s.waiting := rfl
@[simp] theorem countPort_out (p n k s) : (countPort p n k s).out = s.out := rfl
@[simp] theorem countPort_freeIx (p n k s) : (countPort p n k s).freeIx = s.freeIx := rfl
@[simp] theorem countPort_regs (p n k s) : (countPort p n k s).regs = s.regs := rfl
@[simp] theorem countPort_time (p n k s) : (countPort p n k s).time = s.time := rfl
@[simp] theorem countPort_log (p n k s) : (countPort p n k s).log = s.log := rfl
@[simp] theorem countPort_cmd (p n k s) : (countPort p n k s).cmd = s.cmd := rfl
@[simp] theorem countPort_cfg (p n k s) : (countPort p n k s).cfg = s.cfg := rfl
@[simp] theorem countPort_prot (p n k s) : (countPort p n k s).prot = s.prot := rfl
@[simp] theorem countPort_boot (p n k s) : (countPort p n k s).boot = s.boot := rfl
@[simp] theorem countPort_power (p n k s) : (countPort p n k s).power = s.power := rfl
@[simp] theorem countPort_twin (p n k s) : (countPort p n k s).twin = s.twin := rfl
@[simp] theorem countPort_spare (p n k s) : (countPort p n k s).spare = s.spare := rfl
@[simp] theorem countPort_ports (p n k s) : (countPort p n k s).ports = tmod s.ports p {} (fun x => { x with cnt := tadd x.cnt n k }) := rfl
@[simp] theorem countPort_tbl (p n k s) : (countPort p n k s).tbl = s.tbl := rfl
@[simp] theorem countPort_buf (p n k s) : (countPort p n k s).buf = s.buf := rfl
@[simp] theorem countPort_cry (p n k s) : (countPort p n k s).cry = s.cry := rfl
@[simp] theorem countPort_flow (p n k s) : (countPort p n k s).flow = s.flow := rfl
@[simp] theorem countPort_host (p n k s) : (countPort p n k s).host = s.host := rfl
@[simp] theorem countPort_sto (p n k s) : (countPort p n k s).sto = s.sto := rfl
@[simp] theorem countPort_svc (p n k s) : (countPort p n k s).svc = s.svc := rfl
@[simp] theorem countPort_mbx (p n k s) : (countPort p n k s).mbx = s.mbx := rfl
@[simp] theorem countPort_mem (p n k s) : (countPort p n k s).mem = s.mem := rfl
@[simp] theorem countPort_cart (p n k s) : (countPort p n k s).cart = s.cart := rfl
@[simp] theorem countPort_age (p n k s) : (countPort p n k s).age = s.age := rfl
@[simp] theorem countPort_test (p n k s) : (countPort p n k s).test = s.test := rfl
@[simp] theorem countPort_therm (p n k s) : (countPort p n k s).therm = s.therm := rfl
@[simp] theorem countPort_flash (p n k s) : (countPort p n k s).flash = s.flash := rfl

@[simp] theorem countTwin_pending (n k s) : (countTwin n k s).pending = s.pending := rfl
@[simp] theorem countTwin_waiting (n k s) : (countTwin n k s).waiting = s.waiting := rfl
@[simp] theorem countTwin_out (n k s) : (countTwin n k s).out = s.out := rfl
@[simp] theorem countTwin_freeIx (n k s) : (countTwin n k s).freeIx = s.freeIx := rfl
@[simp] theorem countTwin_regs (n k s) : (countTwin n k s).regs = s.regs := rfl
@[simp] theorem countTwin_time (n k s) : (countTwin n k s).time = s.time := rfl
@[simp] theorem countTwin_log (n k s) : (countTwin n k s).log = s.log := rfl
@[simp] theorem countTwin_cmd (n k s) : (countTwin n k s).cmd = s.cmd := rfl
@[simp] theorem countTwin_cfg (n k s) : (countTwin n k s).cfg = s.cfg := rfl
@[simp] theorem countTwin_prot (n k s) : (countTwin n k s).prot = s.prot := rfl
@[simp] theorem countTwin_boot (n k s) : (countTwin n k s).boot = s.boot := rfl
@[simp] theorem countTwin_power (n k s) : (countTwin n k s).power = s.power := rfl
@[simp] theorem countTwin_twin (n k s) : (countTwin n k s).twin = { s.twin with cnt := tadd s.twin.cnt n k } := rfl
@[simp] theorem countTwin_spare (n k s) : (countTwin n k s).spare = s.spare := rfl
@[simp] theorem countTwin_ports (n k s) : (countTwin n k s).ports = s.ports := rfl
@[simp] theorem countTwin_tbl (n k s) : (countTwin n k s).tbl = s.tbl := rfl
@[simp] theorem countTwin_buf (n k s) : (countTwin n k s).buf = s.buf := rfl
@[simp] theorem countTwin_cry (n k s) : (countTwin n k s).cry = s.cry := rfl
@[simp] theorem countTwin_flow (n k s) : (countTwin n k s).flow = s.flow := rfl
@[simp] theorem countTwin_host (n k s) : (countTwin n k s).host = s.host := rfl
@[simp] theorem countTwin_sto (n k s) : (countTwin n k s).sto = s.sto := rfl
@[simp] theorem countTwin_svc (n k s) : (countTwin n k s).svc = s.svc := rfl
@[simp] theorem countTwin_mbx (n k s) : (countTwin n k s).mbx = s.mbx := rfl
@[simp] theorem countTwin_mem (n k s) : (countTwin n k s).mem = s.mem := rfl
@[simp] theorem countTwin_cart (n k s) : (countTwin n k s).cart = s.cart := rfl
@[simp] theorem countTwin_age (n k s) : (countTwin n k s).age = s.age := rfl
@[simp] theorem countTwin_test (n k s) : (countTwin n k s).test = s.test := rfl
@[simp] theorem countTwin_therm (n k s) : (countTwin n k s).therm = s.therm := rfl
@[simp] theorem countTwin_flash (n k s) : (countTwin n k s).flash = s.flash := rfl

@[simp] theorem countCfg_pending (n k s) : (countCfg n k s).pending = s.pending := rfl
@[simp] theorem countCfg_waiting (n k s) : (countCfg n k s).waiting = s.waiting := rfl
@[simp] theorem countCfg_out (n k s) : (countCfg n k s).out = s.out := rfl
@[simp] theorem countCfg_freeIx (n k s) : (countCfg n k s).freeIx = s.freeIx := rfl
@[simp] theorem countCfg_regs (n k s) : (countCfg n k s).regs = s.regs := rfl
@[simp] theorem countCfg_time (n k s) : (countCfg n k s).time = s.time := rfl
@[simp] theorem countCfg_log (n k s) : (countCfg n k s).log = s.log := rfl
@[simp] theorem countCfg_cmd (n k s) : (countCfg n k s).cmd = s.cmd := rfl
@[simp] theorem countCfg_cfg (n k s) : (countCfg n k s).cfg = { s.cfg with cnt := tadd s.cfg.cnt n k } := rfl
@[simp] theorem countCfg_prot (n k s) : (countCfg n k s).prot = s.prot := rfl
@[simp] theorem countCfg_boot (n k s) : (countCfg n k s).boot = s.boot := rfl
@[simp] theorem countCfg_power (n k s) : (countCfg n k s).power = s.power := rfl
@[simp] theorem countCfg_twin (n k s) : (countCfg n k s).twin = s.twin := rfl
@[simp] theorem countCfg_spare (n k s) : (countCfg n k s).spare = s.spare := rfl
@[simp] theorem countCfg_ports (n k s) : (countCfg n k s).ports = s.ports := rfl
@[simp] theorem countCfg_tbl (n k s) : (countCfg n k s).tbl = s.tbl := rfl
@[simp] theorem countCfg_buf (n k s) : (countCfg n k s).buf = s.buf := rfl
@[simp] theorem countCfg_cry (n k s) : (countCfg n k s).cry = s.cry := rfl
@[simp] theorem countCfg_flow (n k s) : (countCfg n k s).flow = s.flow := rfl
@[simp] theorem countCfg_host (n k s) : (countCfg n k s).host = s.host := rfl
@[simp] theorem countCfg_sto (n k s) : (countCfg n k s).sto = s.sto := rfl
@[simp] theorem countCfg_svc (n k s) : (countCfg n k s).svc = s.svc := rfl
@[simp] theorem countCfg_mbx (n k s) : (countCfg n k s).mbx = s.mbx := rfl
@[simp] theorem countCfg_mem (n k s) : (countCfg n k s).mem = s.mem := rfl
@[simp] theorem countCfg_cart (n k s) : (countCfg n k s).cart = s.cart := rfl
@[simp] theorem countCfg_age (n k s) : (countCfg n k s).age = s.age := rfl
@[simp] theorem countCfg_test (n k s) : (countCfg n k s).test = s.test := rfl
@[simp] theorem countCfg_therm (n k s) : (countCfg n k s).therm = s.therm := rfl
@[simp] theorem countCfg_flash (n k s) : (countCfg n k s).flash = s.flash := rfl

@[simp] theorem countR_pending (g n k s) : (countR g n k s).pending = s.pending := rfl
@[simp] theorem countR_waiting (g n k s) : (countR g n k s).waiting = s.waiting := rfl
@[simp] theorem countR_out (g n k s) : (countR g n k s).out = s.out := rfl
@[simp] theorem countR_freeIx (g n k s) : (countR g n k s).freeIx = s.freeIx := rfl
@[simp] theorem countR_regs (g n k s) : (countR g n k s).regs = s.regs := rfl
@[simp] theorem countR_time (g n k s) : (countR g n k s).time = s.time := rfl
@[simp] theorem countR_log (g n k s) : (countR g n k s).log = s.log := rfl
@[simp] theorem countR_cmd (g n k s) : (countR g n k s).cmd = s.cmd := rfl
@[simp] theorem countR_cfg (g n k s) : (countR g n k s).cfg = s.cfg := rfl
@[simp] theorem countR_prot (g n k s) : (countR g n k s).prot = s.prot := rfl
@[simp] theorem countR_boot (g n k s) : (countR g n k s).boot = s.boot := rfl
@[simp] theorem countR_power (g n k s) : (countR g n k s).power = s.power := rfl
@[simp] theorem countR_twin (g n k s) : (countR g n k s).twin = s.twin := rfl
@[simp] theorem countR_spare (g n k s) : (countR g n k s).spare = s.spare := rfl
@[simp] theorem countR_ports (g n k s) : (countR g n k s).ports = s.ports := rfl
@[simp] theorem countR_tbl (g n k s) : (countR g n k s).tbl = { s.tbl with rcnt := tadd s.tbl.rcnt (64 * g + n) k } := rfl
@[simp] theorem countR_buf (g n k s) : (countR g n k s).buf = s.buf := rfl
@[simp] theorem countR_cry (g n k s) : (countR g n k s).cry = s.cry := rfl
@[simp] theorem countR_flow (g n k s) : (countR g n k s).flow = s.flow := rfl
@[simp] theorem countR_host (g n k s) : (countR g n k s).host = s.host := rfl
@[simp] theorem countR_sto (g n k s) : (countR g n k s).sto = s.sto := rfl
@[simp] theorem countR_svc (g n k s) : (countR g n k s).svc = s.svc := rfl
@[simp] theorem countR_mbx (g n k s) : (countR g n k s).mbx = s.mbx := rfl
@[simp] theorem countR_mem (g n k s) : (countR g n k s).mem = s.mem := rfl
@[simp] theorem countR_cart (g n k s) : (countR g n k s).cart = s.cart := rfl
@[simp] theorem countR_age (g n k s) : (countR g n k s).age = s.age := rfl
@[simp] theorem countR_test (g n k s) : (countR g n k s).test = s.test := rfl
@[simp] theorem countR_therm (g n k s) : (countR g n k s).therm = s.therm := rfl
@[simp] theorem countR_flash (g n k s) : (countR g n k s).flash = s.flash := rfl

@[simp] theorem countA_pending (g n k s) : (countA g n k s).pending = s.pending := rfl
@[simp] theorem countA_waiting (g n k s) : (countA g n k s).waiting = s.waiting := rfl
@[simp] theorem countA_out (g n k s) : (countA g n k s).out = s.out := rfl
@[simp] theorem countA_freeIx (g n k s) : (countA g n k s).freeIx = s.freeIx := rfl
@[simp] theorem countA_regs (g n k s) : (countA g n k s).regs = s.regs := rfl
@[simp] theorem countA_time (g n k s) : (countA g n k s).time = s.time := rfl
@[simp] theorem countA_log (g n k s) : (countA g n k s).log = s.log := rfl
@[simp] theorem countA_cmd (g n k s) : (countA g n k s).cmd = s.cmd := rfl
@[simp] theorem countA_cfg (g n k s) : (countA g n k s).cfg = s.cfg := rfl
@[simp] theorem countA_prot (g n k s) : (countA g n k s).prot = s.prot := rfl
@[simp] theorem countA_boot (g n k s) : (countA g n k s).boot = s.boot := rfl
@[simp] theorem countA_power (g n k s) : (countA g n k s).power = s.power := rfl
@[simp] theorem countA_twin (g n k s) : (countA g n k s).twin = s.twin := rfl
@[simp] theorem countA_spare (g n k s) : (countA g n k s).spare = s.spare := rfl
@[simp] theorem countA_ports (g n k s) : (countA g n k s).ports = s.ports := rfl
@[simp] theorem countA_tbl (g n k s) : (countA g n k s).tbl = { s.tbl with acnt := tadd s.tbl.acnt (64 * g + n) k } := rfl
@[simp] theorem countA_buf (g n k s) : (countA g n k s).buf = s.buf := rfl
@[simp] theorem countA_cry (g n k s) : (countA g n k s).cry = s.cry := rfl
@[simp] theorem countA_flow (g n k s) : (countA g n k s).flow = s.flow := rfl
@[simp] theorem countA_host (g n k s) : (countA g n k s).host = s.host := rfl
@[simp] theorem countA_sto (g n k s) : (countA g n k s).sto = s.sto := rfl
@[simp] theorem countA_svc (g n k s) : (countA g n k s).svc = s.svc := rfl
@[simp] theorem countA_mbx (g n k s) : (countA g n k s).mbx = s.mbx := rfl
@[simp] theorem countA_mem (g n k s) : (countA g n k s).mem = s.mem := rfl
@[simp] theorem countA_cart (g n k s) : (countA g n k s).cart = s.cart := rfl
@[simp] theorem countA_age (g n k s) : (countA g n k s).age = s.age := rfl
@[simp] theorem countA_test (g n k s) : (countA g n k s).test = s.test := rfl
@[simp] theorem countA_therm (g n k s) : (countA g n k s).therm = s.therm := rfl
@[simp] theorem countA_flash (g n k s) : (countA g n k s).flash = s.flash := rfl

@[simp] theorem countC_pending (g n k s) : (countC g n k s).pending = s.pending := rfl
@[simp] theorem countC_waiting (g n k s) : (countC g n k s).waiting = s.waiting := rfl
@[simp] theorem countC_out (g n k s) : (countC g n k s).out = s.out := rfl
@[simp] theorem countC_freeIx (g n k s) : (countC g n k s).freeIx = s.freeIx := rfl
@[simp] theorem countC_regs (g n k s) : (countC g n k s).regs = s.regs := rfl
@[simp] theorem countC_time (g n k s) : (countC g n k s).time = s.time := rfl
@[simp] theorem countC_log (g n k s) : (countC g n k s).log = s.log := rfl
@[simp] theorem countC_cmd (g n k s) : (countC g n k s).cmd = s.cmd := rfl
@[simp] theorem countC_cfg (g n k s) : (countC g n k s).cfg = s.cfg := rfl
@[simp] theorem countC_prot (g n k s) : (countC g n k s).prot = s.prot := rfl
@[simp] theorem countC_boot (g n k s) : (countC g n k s).boot = s.boot := rfl
@[simp] theorem countC_power (g n k s) : (countC g n k s).power = s.power := rfl
@[simp] theorem countC_twin (g n k s) : (countC g n k s).twin = s.twin := rfl
@[simp] theorem countC_spare (g n k s) : (countC g n k s).spare = s.spare := rfl
@[simp] theorem countC_ports (g n k s) : (countC g n k s).ports = s.ports := rfl
@[simp] theorem countC_tbl (g n k s) : (countC g n k s).tbl = { s.tbl with ccnt := tadd s.tbl.ccnt (64 * g + n) k } := rfl
@[simp] theorem countC_buf (g n k s) : (countC g n k s).buf = s.buf := rfl
@[simp] theorem countC_cry (g n k s) : (countC g n k s).cry = s.cry := rfl
@[simp] theorem countC_flow (g n k s) : (countC g n k s).flow = s.flow := rfl
@[simp] theorem countC_host (g n k s) : (countC g n k s).host = s.host := rfl
@[simp] theorem countC_sto (g n k s) : (countC g n k s).sto = s.sto := rfl
@[simp] theorem countC_svc (g n k s) : (countC g n k s).svc = s.svc := rfl
@[simp] theorem countC_mbx (g n k s) : (countC g n k s).mbx = s.mbx := rfl
@[simp] theorem countC_mem (g n k s) : (countC g n k s).mem = s.mem := rfl
@[simp] theorem countC_cart (g n k s) : (countC g n k s).cart = s.cart := rfl
@[simp] theorem countC_age (g n k s) : (countC g n k s).age = s.age := rfl
@[simp] theorem countC_test (g n k s) : (countC g n k s).test = s.test := rfl
@[simp] theorem countC_therm (g n k s) : (countC g n k s).therm = s.therm := rfl
@[simp] theorem countC_flash (g n k s) : (countC g n k s).flash = s.flash := rfl

@[simp] theorem countF_pending (g n k s) : (countF g n k s).pending = s.pending := rfl
@[simp] theorem countF_waiting (g n k s) : (countF g n k s).waiting = s.waiting := rfl
@[simp] theorem countF_out (g n k s) : (countF g n k s).out = s.out := rfl
@[simp] theorem countF_freeIx (g n k s) : (countF g n k s).freeIx = s.freeIx := rfl
@[simp] theorem countF_regs (g n k s) : (countF g n k s).regs = s.regs := rfl
@[simp] theorem countF_time (g n k s) : (countF g n k s).time = s.time := rfl
@[simp] theorem countF_log (g n k s) : (countF g n k s).log = s.log := rfl
@[simp] theorem countF_cmd (g n k s) : (countF g n k s).cmd = s.cmd := rfl
@[simp] theorem countF_cfg (g n k s) : (countF g n k s).cfg = s.cfg := rfl
@[simp] theorem countF_prot (g n k s) : (countF g n k s).prot = s.prot := rfl
@[simp] theorem countF_boot (g n k s) : (countF g n k s).boot = s.boot := rfl
@[simp] theorem countF_power (g n k s) : (countF g n k s).power = s.power := rfl
@[simp] theorem countF_twin (g n k s) : (countF g n k s).twin = s.twin := rfl
@[simp] theorem countF_spare (g n k s) : (countF g n k s).spare = s.spare := rfl
@[simp] theorem countF_ports (g n k s) : (countF g n k s).ports = s.ports := rfl
@[simp] theorem countF_tbl (g n k s) : (countF g n k s).tbl = { s.tbl with fcnt := tadd s.tbl.fcnt (64 * g + n) k } := rfl
@[simp] theorem countF_buf (g n k s) : (countF g n k s).buf = s.buf := rfl
@[simp] theorem countF_cry (g n k s) : (countF g n k s).cry = s.cry := rfl
@[simp] theorem countF_flow (g n k s) : (countF g n k s).flow = s.flow := rfl
@[simp] theorem countF_host (g n k s) : (countF g n k s).host = s.host := rfl
@[simp] theorem countF_sto (g n k s) : (countF g n k s).sto = s.sto := rfl
@[simp] theorem countF_svc (g n k s) : (countF g n k s).svc = s.svc := rfl
@[simp] theorem countF_mbx (g n k s) : (countF g n k s).mbx = s.mbx := rfl
@[simp] theorem countF_mem (g n k s) : (countF g n k s).mem = s.mem := rfl
@[simp] theorem countF_cart (g n k s) : (countF g n k s).cart = s.cart := rfl
@[simp] theorem countF_age (g n k s) : (countF g n k s).age = s.age := rfl
@[simp] theorem countF_test (g n k s) : (countF g n k s).test = s.test := rfl
@[simp] theorem countF_therm (g n k s) : (countF g n k s).therm = s.therm := rfl
@[simp] theorem countF_flash (g n k s) : (countF g n k s).flash = s.flash := rfl

@[simp] theorem emit_pending (o s) : (emit o s).pending = s.pending := rfl
@[simp] theorem emit_waiting (o s) : (emit o s).waiting = s.waiting := rfl
@[simp] theorem emit_out (o s) : (emit o s).out = s.out ++ [o] := rfl
@[simp] theorem emit_freeIx (o s) : (emit o s).freeIx = s.freeIx := rfl
@[simp] theorem emit_regs (o s) : (emit o s).regs = s.regs := rfl
@[simp] theorem emit_time (o s) : (emit o s).time = s.time := rfl
@[simp] theorem emit_log (o s) : (emit o s).log = s.log := rfl
@[simp] theorem emit_cmd (o s) : (emit o s).cmd = s.cmd := rfl
@[simp] theorem emit_cfg (o s) : (emit o s).cfg = s.cfg := rfl
@[simp] theorem emit_prot (o s) : (emit o s).prot = s.prot := rfl
@[simp] theorem emit_boot (o s) : (emit o s).boot = s.boot := rfl
@[simp] theorem emit_power (o s) : (emit o s).power = s.power := rfl
@[simp] theorem emit_twin (o s) : (emit o s).twin = s.twin := rfl
@[simp] theorem emit_spare (o s) : (emit o s).spare = s.spare := rfl
@[simp] theorem emit_ports (o s) : (emit o s).ports = s.ports := rfl
@[simp] theorem emit_tbl (o s) : (emit o s).tbl = s.tbl := rfl
@[simp] theorem emit_buf (o s) : (emit o s).buf = s.buf := rfl
@[simp] theorem emit_cry (o s) : (emit o s).cry = s.cry := rfl
@[simp] theorem emit_flow (o s) : (emit o s).flow = s.flow := rfl
@[simp] theorem emit_host (o s) : (emit o s).host = s.host := rfl
@[simp] theorem emit_sto (o s) : (emit o s).sto = s.sto := rfl
@[simp] theorem emit_svc (o s) : (emit o s).svc = s.svc := rfl
@[simp] theorem emit_mbx (o s) : (emit o s).mbx = s.mbx := rfl
@[simp] theorem emit_mem (o s) : (emit o s).mem = s.mem := rfl
@[simp] theorem emit_cart (o s) : (emit o s).cart = s.cart := rfl
@[simp] theorem emit_age (o s) : (emit o s).age = s.age := rfl
@[simp] theorem emit_test (o s) : (emit o s).test = s.test := rfl
@[simp] theorem emit_therm (o s) : (emit o s).therm = s.therm := rfl
@[simp] theorem emit_flash (o s) : (emit o s).flash = s.flash := rfl

@[simp] theorem emitAll_pending (l s) : (emitAll l s).pending = s.pending := rfl
@[simp] theorem emitAll_waiting (l s) : (emitAll l s).waiting = s.waiting := rfl
@[simp] theorem emitAll_out (l s) : (emitAll l s).out = s.out ++ l := rfl
@[simp] theorem emitAll_freeIx (l s) : (emitAll l s).freeIx = s.freeIx := rfl
@[simp] theorem emitAll_regs (l s) : (emitAll l s).regs = s.regs := rfl
@[simp] theorem emitAll_time (l s) : (emitAll l s).time = s.time := rfl
@[simp] theorem emitAll_log (l s) : (emitAll l s).log = s.log := rfl
@[simp] theorem emitAll_cmd (l s) : (emitAll l s).cmd = s.cmd := rfl
@[simp] theorem emitAll_cfg (l s) : (emitAll l s).cfg = s.cfg := rfl
@[simp] theorem emitAll_prot (l s) : (emitAll l s).prot = s.prot := rfl
@[simp] theorem emitAll_boot (l s) : (emitAll l s).boot = s.boot := rfl
@[simp] theorem emitAll_power (l s) : (emitAll l s).power = s.power := rfl
@[simp] theorem emitAll_twin (l s) : (emitAll l s).twin = s.twin := rfl
@[simp] theorem emitAll_spare (l s) : (emitAll l s).spare = s.spare := rfl
@[simp] theorem emitAll_ports (l s) : (emitAll l s).ports = s.ports := rfl
@[simp] theorem emitAll_tbl (l s) : (emitAll l s).tbl = s.tbl := rfl
@[simp] theorem emitAll_buf (l s) : (emitAll l s).buf = s.buf := rfl
@[simp] theorem emitAll_cry (l s) : (emitAll l s).cry = s.cry := rfl
@[simp] theorem emitAll_flow (l s) : (emitAll l s).flow = s.flow := rfl
@[simp] theorem emitAll_host (l s) : (emitAll l s).host = s.host := rfl
@[simp] theorem emitAll_sto (l s) : (emitAll l s).sto = s.sto := rfl
@[simp] theorem emitAll_svc (l s) : (emitAll l s).svc = s.svc := rfl
@[simp] theorem emitAll_mbx (l s) : (emitAll l s).mbx = s.mbx := rfl
@[simp] theorem emitAll_mem (l s) : (emitAll l s).mem = s.mem := rfl
@[simp] theorem emitAll_cart (l s) : (emitAll l s).cart = s.cart := rfl
@[simp] theorem emitAll_age (l s) : (emitAll l s).age = s.age := rfl
@[simp] theorem emitAll_test (l s) : (emitAll l s).test = s.test := rfl
@[simp] theorem emitAll_therm (l s) : (emitAll l s).therm = s.therm := rfl
@[simp] theorem emitAll_flash (l s) : (emitAll l s).flash = s.flash := rfl

@[simp] theorem toFlash_pending (k i b s) : (toFlash k i b s).pending = s.pending := rfl
@[simp] theorem toFlash_waiting (k i b s) : (toFlash k i b s).waiting = s.waiting := rfl
@[simp] theorem toFlash_out (k i b s) : (toFlash k i b s).out = s.out ++ [.flash k i b] := rfl
@[simp] theorem toFlash_freeIx (k i b s) : (toFlash k i b s).freeIx = s.freeIx := rfl
@[simp] theorem toFlash_regs (k i b s) : (toFlash k i b s).regs = s.regs := rfl
@[simp] theorem toFlash_time (k i b s) : (toFlash k i b s).time = s.time := rfl
@[simp] theorem toFlash_log (k i b s) : (toFlash k i b s).log = s.log := rfl
@[simp] theorem toFlash_cmd (k i b s) : (toFlash k i b s).cmd = s.cmd := rfl
@[simp] theorem toFlash_cfg (k i b s) : (toFlash k i b s).cfg = s.cfg := rfl
@[simp] theorem toFlash_prot (k i b s) : (toFlash k i b s).prot = s.prot := rfl
@[simp] theorem toFlash_boot (k i b s) : (toFlash k i b s).boot = s.boot := rfl
@[simp] theorem toFlash_power (k i b s) : (toFlash k i b s).power = s.power := rfl
@[simp] theorem toFlash_twin (k i b s) : (toFlash k i b s).twin = s.twin := rfl
@[simp] theorem toFlash_spare (k i b s) : (toFlash k i b s).spare = s.spare := rfl
@[simp] theorem toFlash_ports (k i b s) : (toFlash k i b s).ports = s.ports := rfl
@[simp] theorem toFlash_tbl (k i b s) : (toFlash k i b s).tbl = s.tbl := rfl
@[simp] theorem toFlash_buf (k i b s) : (toFlash k i b s).buf = s.buf := rfl
@[simp] theorem toFlash_cry (k i b s) : (toFlash k i b s).cry = s.cry := rfl
@[simp] theorem toFlash_flow (k i b s) : (toFlash k i b s).flow = s.flow := rfl
@[simp] theorem toFlash_host (k i b s) : (toFlash k i b s).host = s.host := rfl
@[simp] theorem toFlash_sto (k i b s) : (toFlash k i b s).sto = s.sto := rfl
@[simp] theorem toFlash_svc (k i b s) : (toFlash k i b s).svc = s.svc := rfl
@[simp] theorem toFlash_mbx (k i b s) : (toFlash k i b s).mbx = s.mbx := rfl
@[simp] theorem toFlash_mem (k i b s) : (toFlash k i b s).mem = s.mem := rfl
@[simp] theorem toFlash_cart (k i b s) : (toFlash k i b s).cart = s.cart := rfl
@[simp] theorem toFlash_age (k i b s) : (toFlash k i b s).age = s.age := rfl
@[simp] theorem toFlash_test (k i b s) : (toFlash k i b s).test = s.test := rfl
@[simp] theorem toFlash_therm (k i b s) : (toFlash k i b s).therm = s.therm := rfl
@[simp] theorem toFlash_flash (k i b s) : (toFlash k i b s).flash = s.flash := rfl

@[simp] theorem submit_pending (l s) : (submit l s).pending = s.pending := rfl
@[simp] theorem submit_waiting (l s) : (submit l s).waiting = s.waiting ++ l := rfl
@[simp] theorem submit_out (l s) : (submit l s).out = s.out := rfl
@[simp] theorem submit_freeIx (l s) : (submit l s).freeIx = s.freeIx := rfl
@[simp] theorem submit_regs (l s) : (submit l s).regs = s.regs := rfl
@[simp] theorem submit_time (l s) : (submit l s).time = s.time := rfl
@[simp] theorem submit_log (l s) : (submit l s).log = s.log := rfl
@[simp] theorem submit_cmd (l s) : (submit l s).cmd = s.cmd := rfl
@[simp] theorem submit_cfg (l s) : (submit l s).cfg = s.cfg := rfl
@[simp] theorem submit_prot (l s) : (submit l s).prot = s.prot := rfl
@[simp] theorem submit_boot (l s) : (submit l s).boot = s.boot := rfl
@[simp] theorem submit_power (l s) : (submit l s).power = s.power := rfl
@[simp] theorem submit_twin (l s) : (submit l s).twin = s.twin := rfl
@[simp] theorem submit_spare (l s) : (submit l s).spare = s.spare := rfl
@[simp] theorem submit_ports (l s) : (submit l s).ports = s.ports := rfl
@[simp] theorem submit_tbl (l s) : (submit l s).tbl = s.tbl := rfl
@[simp] theorem submit_buf (l s) : (submit l s).buf = s.buf := rfl
@[simp] theorem submit_cry (l s) : (submit l s).cry = s.cry := rfl
@[simp] theorem submit_flow (l s) : (submit l s).flow = s.flow := rfl
@[simp] theorem submit_host (l s) : (submit l s).host = s.host := rfl
@[simp] theorem submit_sto (l s) : (submit l s).sto = s.sto := rfl
@[simp] theorem submit_svc (l s) : (submit l s).svc = s.svc := rfl
@[simp] theorem submit_mbx (l s) : (submit l s).mbx = s.mbx := rfl
@[simp] theorem submit_mem (l s) : (submit l s).mem = s.mem := rfl
@[simp] theorem submit_cart (l s) : (submit l s).cart = s.cart := rfl
@[simp] theorem submit_age (l s) : (submit l s).age = s.age := rfl
@[simp] theorem submit_test (l s) : (submit l s).test = s.test := rfl
@[simp] theorem submit_therm (l s) : (submit l s).therm = s.therm := rfl
@[simp] theorem submit_flash (l s) : (submit l s).flash = s.flash := rfl

@[simp] theorem dropPacket_pending (x s) : (dropPacket x s).pending = s.pending := rfl
@[simp] theorem dropPacket_waiting (x s) : (dropPacket x s).waiting = s.waiting.erase x := rfl
@[simp] theorem dropPacket_out (x s) : (dropPacket x s).out = s.out := rfl
@[simp] theorem dropPacket_freeIx (x s) : (dropPacket x s).freeIx = s.freeIx := rfl
@[simp] theorem dropPacket_regs (x s) : (dropPacket x s).regs = s.regs := rfl
@[simp] theorem dropPacket_time (x s) : (dropPacket x s).time = s.time := rfl
@[simp] theorem dropPacket_log (x s) : (dropPacket x s).log = s.log := rfl
@[simp] theorem dropPacket_cmd (x s) : (dropPacket x s).cmd = s.cmd := rfl
@[simp] theorem dropPacket_cfg (x s) : (dropPacket x s).cfg = s.cfg := rfl
@[simp] theorem dropPacket_prot (x s) : (dropPacket x s).prot = s.prot := rfl
@[simp] theorem dropPacket_boot (x s) : (dropPacket x s).boot = s.boot := rfl
@[simp] theorem dropPacket_power (x s) : (dropPacket x s).power = s.power := rfl
@[simp] theorem dropPacket_twin (x s) : (dropPacket x s).twin = s.twin := rfl
@[simp] theorem dropPacket_spare (x s) : (dropPacket x s).spare = s.spare := rfl
@[simp] theorem dropPacket_ports (x s) : (dropPacket x s).ports = s.ports := rfl
@[simp] theorem dropPacket_tbl (x s) : (dropPacket x s).tbl = s.tbl := rfl
@[simp] theorem dropPacket_buf (x s) : (dropPacket x s).buf = s.buf := rfl
@[simp] theorem dropPacket_cry (x s) : (dropPacket x s).cry = s.cry := rfl
@[simp] theorem dropPacket_flow (x s) : (dropPacket x s).flow = s.flow := rfl
@[simp] theorem dropPacket_host (x s) : (dropPacket x s).host = s.host := rfl
@[simp] theorem dropPacket_sto (x s) : (dropPacket x s).sto = s.sto := rfl
@[simp] theorem dropPacket_svc (x s) : (dropPacket x s).svc = s.svc := rfl
@[simp] theorem dropPacket_mbx (x s) : (dropPacket x s).mbx = s.mbx := rfl
@[simp] theorem dropPacket_mem (x s) : (dropPacket x s).mem = s.mem := rfl
@[simp] theorem dropPacket_cart (x s) : (dropPacket x s).cart = s.cart := rfl
@[simp] theorem dropPacket_age (x s) : (dropPacket x s).age = s.age := rfl
@[simp] theorem dropPacket_test (x s) : (dropPacket x s).test = s.test := rfl
@[simp] theorem dropPacket_therm (x s) : (dropPacket x s).therm = s.therm := rfl
@[simp] theorem dropPacket_flash (x s) : (dropPacket x s).flash = s.flash := rfl

@[simp] theorem park_pending (o c s) : (park o c s).pending = s.pending := rfl
@[simp] theorem park_waiting (o c s) : (park o c s).waiting = s.waiting ++ [(o.code, c)] := rfl
@[simp] theorem park_out (o c s) : (park o c s).out = s.out := rfl
@[simp] theorem park_freeIx (o c s) : (park o c s).freeIx = s.freeIx := rfl
@[simp] theorem park_regs (o c s) : (park o c s).regs = s.regs := rfl
@[simp] theorem park_time (o c s) : (park o c s).time = s.time := rfl
@[simp] theorem park_log (o c s) : (park o c s).log = s.log := rfl
@[simp] theorem park_cmd (o c s) : (park o c s).cmd = s.cmd := rfl
@[simp] theorem park_cfg (o c s) : (park o c s).cfg = s.cfg := rfl
@[simp] theorem park_prot (o c s) : (park o c s).prot = s.prot := rfl
@[simp] theorem park_boot (o c s) : (park o c s).boot = s.boot := rfl
@[simp] theorem park_power (o c s) : (park o c s).power = s.power := rfl
@[simp] theorem park_twin (o c s) : (park o c s).twin = s.twin := rfl
@[simp] theorem park_spare (o c s) : (park o c s).spare = s.spare := rfl
@[simp] theorem park_ports (o c s) : (park o c s).ports = s.ports := rfl
@[simp] theorem park_tbl (o c s) : (park o c s).tbl = s.tbl := rfl
@[simp] theorem park_buf (o c s) : (park o c s).buf = s.buf := rfl
@[simp] theorem park_cry (o c s) : (park o c s).cry = s.cry := rfl
@[simp] theorem park_flow (o c s) : (park o c s).flow = s.flow := rfl
@[simp] theorem park_host (o c s) : (park o c s).host = s.host := rfl
@[simp] theorem park_sto (o c s) : (park o c s).sto = s.sto := rfl
@[simp] theorem park_svc (o c s) : (park o c s).svc = s.svc := rfl
@[simp] theorem park_mbx (o c s) : (park o c s).mbx = s.mbx := rfl
@[simp] theorem park_mem (o c s) : (park o c s).mem = s.mem := rfl
@[simp] theorem park_cart (o c s) : (park o c s).cart = s.cart := rfl
@[simp] theorem park_age (o c s) : (park o c s).age = s.age := rfl
@[simp] theorem park_test (o c s) : (park o c s).test = s.test := rfl
@[simp] theorem park_therm (o c s) : (park o c s).therm = s.therm := rfl
@[simp] theorem park_flash (o c s) : (park o c s).flash = s.flash := rfl

@[simp] theorem dropOwed_pending (q t s) : (dropOwed q t s).pending = s.pending := rfl
@[simp] theorem dropOwed_waiting (q t s) : (dropOwed q t s).waiting = s.waiting := rfl
@[simp] theorem dropOwed_out (q t s) : (dropOwed q t s).out = s.out := rfl
@[simp] theorem dropOwed_freeIx (q t s) : (dropOwed q t s).freeIx = s.freeIx := rfl
@[simp] theorem dropOwed_regs (q t s) : (dropOwed q t s).regs = s.regs := rfl
@[simp] theorem dropOwed_time (q t s) : (dropOwed q t s).time = s.time := rfl
@[simp] theorem dropOwed_log (q t s) : (dropOwed q t s).log = s.log := rfl
@[simp] theorem dropOwed_cmd (q t s) : (dropOwed q t s).cmd = { s.cmd with owed := s.cmd.owed.filter fun o => !(o.queue == q && o.tag == t) } := rfl
@[simp] theorem dropOwed_cfg (q t s) : (dropOwed q t s).cfg = s.cfg := rfl
@[simp] theorem dropOwed_prot (q t s) : (dropOwed q t s).prot = s.prot := rfl
@[simp] theorem dropOwed_boot (q t s) : (dropOwed q t s).boot = s.boot := rfl
@[simp] theorem dropOwed_power (q t s) : (dropOwed q t s).power = s.power := rfl
@[simp] theorem dropOwed_twin (q t s) : (dropOwed q t s).twin = s.twin := rfl
@[simp] theorem dropOwed_spare (q t s) : (dropOwed q t s).spare = s.spare := rfl
@[simp] theorem dropOwed_ports (q t s) : (dropOwed q t s).ports = s.ports := rfl
@[simp] theorem dropOwed_tbl (q t s) : (dropOwed q t s).tbl = s.tbl := rfl
@[simp] theorem dropOwed_buf (q t s) : (dropOwed q t s).buf = s.buf := rfl
@[simp] theorem dropOwed_cry (q t s) : (dropOwed q t s).cry = s.cry := rfl
@[simp] theorem dropOwed_flow (q t s) : (dropOwed q t s).flow = s.flow := rfl
@[simp] theorem dropOwed_host (q t s) : (dropOwed q t s).host = s.host := rfl
@[simp] theorem dropOwed_sto (q t s) : (dropOwed q t s).sto = s.sto := rfl
@[simp] theorem dropOwed_svc (q t s) : (dropOwed q t s).svc = s.svc := rfl
@[simp] theorem dropOwed_mbx (q t s) : (dropOwed q t s).mbx = s.mbx := rfl
@[simp] theorem dropOwed_mem (q t s) : (dropOwed q t s).mem = s.mem := rfl
@[simp] theorem dropOwed_cart (q t s) : (dropOwed q t s).cart = s.cart := rfl
@[simp] theorem dropOwed_age (q t s) : (dropOwed q t s).age = s.age := rfl
@[simp] theorem dropOwed_test (q t s) : (dropOwed q t s).test = s.test := rfl
@[simp] theorem dropOwed_therm (q t s) : (dropOwed q t s).therm = s.therm := rfl
@[simp] theorem dropOwed_flash (q t s) : (dropOwed q t s).flash = s.flash := rfl

@[simp] theorem dropJoint_pending (q t s) : (dropJoint q t s).pending = s.pending := rfl
@[simp] theorem dropJoint_waiting (q t s) : (dropJoint q t s).waiting = s.waiting := rfl
@[simp] theorem dropJoint_out (q t s) : (dropJoint q t s).out = s.out := rfl
@[simp] theorem dropJoint_freeIx (q t s) : (dropJoint q t s).freeIx = s.freeIx := rfl
@[simp] theorem dropJoint_regs (q t s) : (dropJoint q t s).regs = s.regs := rfl
@[simp] theorem dropJoint_time (q t s) : (dropJoint q t s).time = s.time := rfl
@[simp] theorem dropJoint_log (q t s) : (dropJoint q t s).log = s.log := rfl
@[simp] theorem dropJoint_cmd (q t s) : (dropJoint q t s).cmd = { s.cmd with joint := s.cmd.joint.filter fun j => !(j.queue == q && j.tag == t) } := rfl
@[simp] theorem dropJoint_cfg (q t s) : (dropJoint q t s).cfg = s.cfg := rfl
@[simp] theorem dropJoint_prot (q t s) : (dropJoint q t s).prot = s.prot := rfl
@[simp] theorem dropJoint_boot (q t s) : (dropJoint q t s).boot = s.boot := rfl
@[simp] theorem dropJoint_power (q t s) : (dropJoint q t s).power = s.power := rfl
@[simp] theorem dropJoint_twin (q t s) : (dropJoint q t s).twin = s.twin := rfl
@[simp] theorem dropJoint_spare (q t s) : (dropJoint q t s).spare = s.spare := rfl
@[simp] theorem dropJoint_ports (q t s) : (dropJoint q t s).ports = s.ports := rfl
@[simp] theorem dropJoint_tbl (q t s) : (dropJoint q t s).tbl = s.tbl := rfl
@[simp] theorem dropJoint_buf (q t s) : (dropJoint q t s).buf = s.buf := rfl
@[simp] theorem dropJoint_cry (q t s) : (dropJoint q t s).cry = s.cry := rfl
@[simp] theorem dropJoint_flow (q t s) : (dropJoint q t s).flow = s.flow := rfl
@[simp] theorem dropJoint_host (q t s) : (dropJoint q t s).host = s.host := rfl
@[simp] theorem dropJoint_sto (q t s) : (dropJoint q t s).sto = s.sto := rfl
@[simp] theorem dropJoint_svc (q t s) : (dropJoint q t s).svc = s.svc := rfl
@[simp] theorem dropJoint_mbx (q t s) : (dropJoint q t s).mbx = s.mbx := rfl
@[simp] theorem dropJoint_mem (q t s) : (dropJoint q t s).mem = s.mem := rfl
@[simp] theorem dropJoint_cart (q t s) : (dropJoint q t s).cart = s.cart := rfl
@[simp] theorem dropJoint_age (q t s) : (dropJoint q t s).age = s.age := rfl
@[simp] theorem dropJoint_test (q t s) : (dropJoint q t s).test = s.test := rfl
@[simp] theorem dropJoint_therm (q t s) : (dropJoint q t s).therm = s.therm := rfl
@[simp] theorem dropJoint_flash (q t s) : (dropJoint q t s).flash = s.flash := rfl

@[simp] theorem memWrite_pending (s a b) : (memWrite s a b).pending = s.pending := rfl
@[simp] theorem memWrite_waiting (s a b) : (memWrite s a b).waiting = s.waiting := rfl
@[simp] theorem memWrite_out (s a b) : (memWrite s a b).out = s.out := rfl
@[simp] theorem memWrite_freeIx (s a b) : (memWrite s a b).freeIx = s.freeIx := rfl
@[simp] theorem memWrite_regs (s a b) : (memWrite s a b).regs = s.regs := rfl
@[simp] theorem memWrite_time (s a b) : (memWrite s a b).time = s.time := rfl
@[simp] theorem memWrite_log (s a b) : (memWrite s a b).log = s.log := rfl
@[simp] theorem memWrite_cmd (s a b) : (memWrite s a b).cmd = s.cmd := rfl
@[simp] theorem memWrite_cfg (s a b) : (memWrite s a b).cfg = s.cfg := rfl
@[simp] theorem memWrite_prot (s a b) : (memWrite s a b).prot = s.prot := rfl
@[simp] theorem memWrite_boot (s a b) : (memWrite s a b).boot = s.boot := rfl
@[simp] theorem memWrite_power (s a b) : (memWrite s a b).power = s.power := rfl
@[simp] theorem memWrite_twin (s a b) : (memWrite s a b).twin = s.twin := rfl
@[simp] theorem memWrite_spare (s a b) : (memWrite s a b).spare = s.spare := rfl
@[simp] theorem memWrite_ports (s a b) : (memWrite s a b).ports = s.ports := rfl
@[simp] theorem memWrite_tbl (s a b) : (memWrite s a b).tbl = s.tbl := rfl
@[simp] theorem memWrite_buf (s a b) : (memWrite s a b).buf = s.buf := rfl
@[simp] theorem memWrite_cry (s a b) : (memWrite s a b).cry = s.cry := rfl
@[simp] theorem memWrite_flow (s a b) : (memWrite s a b).flow = s.flow := rfl
@[simp] theorem memWrite_host (s a b) : (memWrite s a b).host = s.host := rfl
@[simp] theorem memWrite_sto (s a b) : (memWrite s a b).sto = s.sto := rfl
@[simp] theorem memWrite_mbx (s a b) : (memWrite s a b).mbx = s.mbx := rfl
@[simp] theorem memWrite_cart (s a b) : (memWrite s a b).cart = s.cart := rfl
@[simp] theorem memWrite_age (s a b) : (memWrite s a b).age = s.age := rfl
@[simp] theorem memWrite_test (s a b) : (memWrite s a b).test = s.test := rfl
@[simp] theorem memWrite_therm (s a b) : (memWrite s a b).therm = s.therm := rfl
@[simp] theorem memWrite_flash (s a b) : (memWrite s a b).flash = s.flash := rfl

@[simp] theorem memClear_pending (s a l) : (memClear s a l).pending = s.pending := rfl
@[simp] theorem memClear_waiting (s a l) : (memClear s a l).waiting = s.waiting := rfl
@[simp] theorem memClear_out (s a l) : (memClear s a l).out = s.out := rfl
@[simp] theorem memClear_freeIx (s a l) : (memClear s a l).freeIx = s.freeIx := rfl
@[simp] theorem memClear_regs (s a l) : (memClear s a l).regs = s.regs := rfl
@[simp] theorem memClear_time (s a l) : (memClear s a l).time = s.time := rfl
@[simp] theorem memClear_log (s a l) : (memClear s a l).log = s.log := rfl
@[simp] theorem memClear_cmd (s a l) : (memClear s a l).cmd = s.cmd := rfl
@[simp] theorem memClear_cfg (s a l) : (memClear s a l).cfg = s.cfg := rfl
@[simp] theorem memClear_prot (s a l) : (memClear s a l).prot = s.prot := rfl
@[simp] theorem memClear_boot (s a l) : (memClear s a l).boot = s.boot := rfl
@[simp] theorem memClear_power (s a l) : (memClear s a l).power = s.power := rfl
@[simp] theorem memClear_twin (s a l) : (memClear s a l).twin = s.twin := rfl
@[simp] theorem memClear_spare (s a l) : (memClear s a l).spare = s.spare := rfl
@[simp] theorem memClear_ports (s a l) : (memClear s a l).ports = s.ports := rfl
@[simp] theorem memClear_tbl (s a l) : (memClear s a l).tbl = s.tbl := rfl
@[simp] theorem memClear_buf (s a l) : (memClear s a l).buf = s.buf := rfl
@[simp] theorem memClear_cry (s a l) : (memClear s a l).cry = s.cry := rfl
@[simp] theorem memClear_flow (s a l) : (memClear s a l).flow = s.flow := rfl
@[simp] theorem memClear_host (s a l) : (memClear s a l).host = s.host := rfl
@[simp] theorem memClear_sto (s a l) : (memClear s a l).sto = s.sto := rfl
@[simp] theorem memClear_mbx (s a l) : (memClear s a l).mbx = s.mbx := rfl
@[simp] theorem memClear_cart (s a l) : (memClear s a l).cart = s.cart := rfl
@[simp] theorem memClear_age (s a l) : (memClear s a l).age = s.age := rfl
@[simp] theorem memClear_test (s a l) : (memClear s a l).test = s.test := rfl
@[simp] theorem memClear_therm (s a l) : (memClear s a l).therm = s.therm := rfl
@[simp] theorem memClear_flash (s a l) : (memClear s a l).flash = s.flash := rfl

@[simp] theorem drawFree_pending (s) : (drawFree s).2.pending = s.pending := rfl
@[simp] theorem drawFree_waiting (s) : (drawFree s).2.waiting = s.waiting := rfl
@[simp] theorem drawFree_out (s) : (drawFree s).2.out = s.out := rfl
@[simp] theorem drawFree_freeIx (s) : (drawFree s).2.freeIx = s.freeIx + 1 := rfl
@[simp] theorem drawFree_regs (s) : (drawFree s).2.regs = s.regs := rfl
@[simp] theorem drawFree_time (s) : (drawFree s).2.time = s.time := rfl
@[simp] theorem drawFree_log (s) : (drawFree s).2.log = s.log := rfl
@[simp] theorem drawFree_cmd (s) : (drawFree s).2.cmd = s.cmd := rfl
@[simp] theorem drawFree_cfg (s) : (drawFree s).2.cfg = s.cfg := rfl
@[simp] theorem drawFree_prot (s) : (drawFree s).2.prot = s.prot := rfl
@[simp] theorem drawFree_boot (s) : (drawFree s).2.boot = s.boot := rfl
@[simp] theorem drawFree_power (s) : (drawFree s).2.power = s.power := rfl
@[simp] theorem drawFree_twin (s) : (drawFree s).2.twin = s.twin := rfl
@[simp] theorem drawFree_spare (s) : (drawFree s).2.spare = s.spare := rfl
@[simp] theorem drawFree_ports (s) : (drawFree s).2.ports = s.ports := rfl
@[simp] theorem drawFree_tbl (s) : (drawFree s).2.tbl = s.tbl := rfl
@[simp] theorem drawFree_buf (s) : (drawFree s).2.buf = s.buf := rfl
@[simp] theorem drawFree_cry (s) : (drawFree s).2.cry = s.cry := rfl
@[simp] theorem drawFree_flow (s) : (drawFree s).2.flow = s.flow := rfl
@[simp] theorem drawFree_host (s) : (drawFree s).2.host = s.host := rfl
@[simp] theorem drawFree_sto (s) : (drawFree s).2.sto = s.sto := rfl
@[simp] theorem drawFree_svc (s) : (drawFree s).2.svc = s.svc := rfl
@[simp] theorem drawFree_mbx (s) : (drawFree s).2.mbx = s.mbx := rfl
@[simp] theorem drawFree_mem (s) : (drawFree s).2.mem = s.mem := rfl
@[simp] theorem drawFree_cart (s) : (drawFree s).2.cart = s.cart := rfl
@[simp] theorem drawFree_age (s) : (drawFree s).2.age = s.age := rfl
@[simp] theorem drawFree_test (s) : (drawFree s).2.test = s.test := rfl
@[simp] theorem drawFree_therm (s) : (drawFree s).2.therm = s.therm := rfl
@[simp] theorem drawFree_flash (s) : (drawFree s).2.flash = s.flash := rfl

@[simp] theorem drawRandom_pending (s) : (drawRandom s).2.pending = s.pending := rfl
@[simp] theorem drawRandom_waiting (s) : (drawRandom s).2.waiting = s.waiting := rfl
@[simp] theorem drawRandom_out (s) : (drawRandom s).2.out = s.out := rfl
@[simp] theorem drawRandom_freeIx (s) : (drawRandom s).2.freeIx = s.freeIx + 1 := rfl
@[simp] theorem drawRandom_regs (s) : (drawRandom s).2.regs = s.regs := rfl
@[simp] theorem drawRandom_time (s) : (drawRandom s).2.time = s.time := rfl
@[simp] theorem drawRandom_log (s) : (drawRandom s).2.log = s.log := rfl
@[simp] theorem drawRandom_cmd (s) : (drawRandom s).2.cmd = s.cmd := rfl
@[simp] theorem drawRandom_cfg (s) : (drawRandom s).2.cfg = s.cfg := rfl
@[simp] theorem drawRandom_prot (s) : (drawRandom s).2.prot = s.prot := rfl
@[simp] theorem drawRandom_boot (s) : (drawRandom s).2.boot = s.boot := rfl
@[simp] theorem drawRandom_power (s) : (drawRandom s).2.power = s.power := rfl
@[simp] theorem drawRandom_twin (s) : (drawRandom s).2.twin = s.twin := rfl
@[simp] theorem drawRandom_spare (s) : (drawRandom s).2.spare = s.spare := rfl
@[simp] theorem drawRandom_ports (s) : (drawRandom s).2.ports = s.ports := rfl
@[simp] theorem drawRandom_tbl (s) : (drawRandom s).2.tbl = s.tbl := rfl
@[simp] theorem drawRandom_buf (s) : (drawRandom s).2.buf = s.buf := rfl
@[simp] theorem drawRandom_cry (s) : (drawRandom s).2.cry = s.cry := rfl
@[simp] theorem drawRandom_flow (s) : (drawRandom s).2.flow = s.flow := rfl
@[simp] theorem drawRandom_host (s) : (drawRandom s).2.host = s.host := rfl
@[simp] theorem drawRandom_sto (s) : (drawRandom s).2.sto = s.sto := rfl
@[simp] theorem drawRandom_svc (s) : (drawRandom s).2.svc = s.svc := rfl
@[simp] theorem drawRandom_mbx (s) : (drawRandom s).2.mbx = s.mbx := rfl
@[simp] theorem drawRandom_mem (s) : (drawRandom s).2.mem = s.mem := rfl
@[simp] theorem drawRandom_cart (s) : (drawRandom s).2.cart = s.cart := rfl
@[simp] theorem drawRandom_age (s) : (drawRandom s).2.age = s.age := rfl
@[simp] theorem drawRandom_test (s) : (drawRandom s).2.test = s.test := rfl
@[simp] theorem drawRandom_therm (s) : (drawRandom s).2.therm = s.therm := rfl
@[simp] theorem drawRandom_flash (s) : (drawRandom s).2.flash = s.flash := rfl

end Sys2Proof.Machine
end

