-- ==== Sys2Proof/Tests/Slice0.lean ====
section
/-! SUPPORT. Tests. Each witness theorem (test_wit_…) shows a state and operands that meet the hypotheses of the obligation its name
points at, clause by clause. Then come ill-formed commands, which the checks refuse, and results that the spec's own examples give. -/

set_option Elab.async false
set_option maxRecDepth 10000

open Sys2Proof Sys2Proof.Machine

/-- The package in full service with every right of management firmware granted. -/
def wit : State := { State.reset with
  prot := { req := [(64, 0xFFFFFFFFFFFFFFFF)], dies := [(0, { ranges := [(0, (2 ^ 36 - 1) * 2 ^ 64 + 64 * 256 + 7)] })] }
  boot := { romDone := true, mgmtRuns := true } }
/-- A command packet of management firmware. -/
def cmd (w : Word) (slots : Nat) (p : Bytes) : Cmd :=
  { queue := .mgmt, tag := 1, target := w, epoch := 0, flags := 0, slots := slots, rsvd := 0, params := p, slotAt := 0 }
/-- Target words: the package, hub die, fabric die 1. -/
def pkgW : Word := 0x07FFFF00
def hubW : Word := 0x00FFFF00
def dieW : Word := 0x01FFFF00

def stagedCmd (w : Word) (slots : Nat) (p : Bytes) : Cmd := { cmd w slots p with flags := 4 }
/-- A stage of management firmware is open. -/
def witG : Stage := { owner := .mgmt, epoch := 2, tag := 1, layers := {}, frozen := false, last := 0 }
def witStage : State := { wit with cfg := { wit.cfg with stage := some witG } }
/-- A pair in the middle of a fix. -/
def witFix (committed : Bool) : State := { witStage with
  twin := { witStage.twin with state := .protectedSt }
  cfg := { witStage.cfg with
    fix := some { queue := .mgmt, tag := 1, startEpoch := 1, epoch := 2, ready := false, committed := committed }
    prepared := some ({ num := 2, tag := 1, words := [], stopped := none }, {})
    live := [{ num := 1, tag := 0, words := [], stopped := none }, { num := 0, tag := 3, words := [], stopped := some 0 }] } }
def witEntry : Entry := { table := 15, key := [], program := 0, data := [], born := none, died := none, hit := false, place := (0, 0), stash := false }
/-- Table 0 in the live configuration: 4 buckets from bank 0 on, 8-byte keys (R129). -/
def witTable (es : List Entry) : State := { wit with
  cfg := { wit.cfg with live := [{ num := 1, tag := 0, words := [(0x00C400000000, 5), (0x00C400000004, 8)], stopped := none }] }
  tbl := { wit.tbl with seeds := [(0, 0)], entries := es } }
def witEntry0 : Entry := { table := 0, key := List.replicate 8 0, program := 0, data := [], born := none, died := none, hit := true, place := (0, 0), stash := false }
/-- A command packet of queue 0 of the PF of pool 0 on link 0, and a state that grants it everything, with a KEK in slot 63. -/
def cmdPf (w : Word) (slots : Nat) (p : Bytes) : Cmd := { cmd w slots p with queue := .pf 0 0 0 0 }
def witDdrIn : State := { wit with mem := { wit.mem with trained := [0, 1] } }
def witPf : State := { wit with prot := { wit.prot with req := [(0, 0xFFFFFFFFFFFFFFFF), (64, 0xFFFFFFFFFFFFFFFF)] } }
def witDdrPf : State := { witPf with mem := { witPf.mem with trained := [0, 1] } }
/-- Port 1,023 UP with MACsec required and a CAK. -/
def witMka : State := { wit with
  cfg := { wit.cfg with live := [{ num := 1, tag := 0, words := [(portAddr 1023 0, 0x1007F)], stopped := none }] }
  ports := [(1023, { st := .up })]
  cry := { wit.cry with mka := [(1023, { cak := some ([], []) })] } }
/-- DDR5 in use, the twin up, and one flow of this package. -/
def witFKey : Bytes := List.replicate 40 0
def witEmptyFlow : State := { wit with
  mem := { trained := [0, 1, 2] }
  twin := { wit.twin with linkUp := true, version := 2 } }
def witF (k : Bytes) : Flow := { blankFlow k 0 with st := 3, index := 4 * (flowBuckets witEmptyFlow k).1 }
def witFlow : State := { witEmptyFlow with
  flow := { entries := [witF witFKey], flush := some (0, 0, 0), resync := true, miss := [(15, [])] } }
def witParked : Parked := { key := witFKey, op := 1, profile := 0, fromA := true, flags := 0, len := 64
                            pkt := { bytes := [], inPort := 0, epoch := 1, prio := 0, md := [] }, fwd := none, crypt := none }
/-- Every die in service, PF 0 of link 0 able to use host memory, port 1,023 with a partner. -/
def witRun : State := { witPf with
  boot := { witPf.boot with phase := [(0, .inService), (1, .inService), (2, .inService), (3, .inService), (4, .inService)] }
  host := { witPf.host with funcs := [(fnKey { link := 0, half := 0, pool := 0, num := 0 }, { bme := true })] }
  ports := [(1023, { partner := some { raw := [1, 2], at_ := 0, pfc := none, oro := none } })] }
/-- VF 1 of pool 0 of link 0 exists in a given state. -/
def witFnPf : Fn := { link := 0, half := 0, pool := 0, num := 0 }
def witFnVf : Fn := { witFnPf with num := 1 }
def witVf (st : VfState) : State := { witRun with host := { witRun.host with
  funcs := [(fnKey witFnPf, { bme := true, vfEnable := true, numVfs := 1 }), (fnKey witFnVf, { bme := true, vf := st, suspending := st == .shuttingDown })]
  logs := [(0, { fn := witFnVf, bitmap := 0, base := 0, len := 0x40000, live := [], snap := [], overflow := false, reported := false,
                 harvesting := st == .shuttingDown })] } }
/-- The reference word of that VF. -/
def vfRef : Bytes := le 4 (fnRef witFnVf)
/-- The PF of link 0 has queue pair 0 in a given state, with rings of 64 entries; channel 56 of engine 0 in a given state. -/
def witQp (q : Qp) : State := { witRun with host := { witRun.host with funcs := [(fnKey witFnPf, { bme := true, qps := [(0, q)] })] } }
def qpCtx : Bytes := List.replicate 24 0 ++ [0x66, 6, 0x10, 0, 0, 0, 0, 0]
def chProg : Bytes := List.replicate 8 0 ++ le 8 (1 + 8 * 256 + 64 * 65536 + 2 ^ 48) ++ List.replicate 8 0 ++
  le 8 4096 ++ le 8 (1 + 8 * 256 + 64 * 65536 + 2 ^ 48) ++ List.replicate 24 0
def witCh (d : DmaCh) : State := { witRun with host := { witRun.host with chans := [(chNo 0 56, d)] } }
/-- Two NQNs, path 0 CONNECTING, namespace 0 plain on path 0 in a given state, with given attachments. -/
def witPath : StoPath := { transport := 0, flags := 0, hostNqn := 0, subNqn := 1, conns := 1, depth := 2, inject := 0, remotePort := 4420
                           ioTimeout := 100, localAddr := [], remoteAddr := [], kato := 1, st := .connecting, liveConns := 0, attempts := 0
                           interval := 1, nextConn := 0, idents := [] }
def witNs (st : Nat) : Ns := { format := 0, flags := 0, paths := [0], remoteNsid := 1, hold := 0, st := st, capacity := 0, key := none, turn := 0 }
def witSto (st : Nat) (l : List Attach) : State := { witRun with
  cry := { witRun.cry with keks := [(1, { key := [] })] }
  sto := { witRun.sto with nqns := [(0, [1]), (1, [2])], paths := [(0, witPath)], nss := [(0, witNs st)], attach := l } }
def witAttach (detaching : Bool) : Attach := { ns := 0, who := .bed 0, nsid := 0, write := false, shared := false, detaching := detaching }
/-- Bed 0 on service cluster 0 with a window of 1 MiB, in a given state from slot 0; given cluster contents. -/
def witImage : Image := { service := 256, iface := 0, version := 1, minClusters := 1, flags := 0, startTimeout := 1, window0 := 1, entry := 0, body := [] }
def witBed (st : BedState) (c : Clust) : State := { witRun with
  cfg := { witRun.cfg with live := [{ num := 1, tag := 0, stopped := none, words :=
    [(bedAddr 0, 0x10100), (bedAddr 0 + 8, 0xFFFF0000), (bedAddr 0 + 36, 0x4000), (bedAddr 0 + 40, 1), (bedAddr 0 + 44, 7)] }] }
  svc := { witRun.svc with beds := [(0, { st := st, slot := some 0 })], images := [(0, witImage)], clusters := [(0, c)] } }
/-- A thread 1 of cluster 0 of the bed, and a session 1 of management in the life-cycle state RETURNED. -/
def witThread (th : Thread) : Clust := { threads := [(1, th)] }
def witDbg (c : Clust) : State :=
  let s := witBed .running c
  { s with boot := { s.boot with lifecycle := .returned, sessions := [(1, { queue := .mgmt, kind := 1, seq := 1, notAfter := 9 })] } }
/-- The path word of core 0 of cluster 0. -/
def coreW : Bytes := le 4 (pathOf (witDbg {}) (mkPlace (pDie (svcPlace 0)) (pRegion (svcPlace 0)) (pCluster (svcPlace 0)) 0)).toNat
/-- Slot 0 and its mate in given states with class 2 and all lasers working. -/
def witSlot (a b : SlotState) : State := { witRun with cart := { witRun.cart with
  slots := [(0, { st := a, presence := true, cls := 2, working := 0xFFFF, serial := 5 }), (1, { st := b, presence := true, cls := 2, working := 0xFFFF, serial := 6 })] } }
def slotW : Word := pathOf witRun (slotPlace 0)
/-- Unit 1 of cluster P0 of region 0 of die 1, and its path word. -/
def unitP : Nat := mkPlace 1 0 0 1
def unitW : Word := pathOf witRun unitP
/-- A twin pair in a given state with the link up. -/
def witTwin (st : TwinState) : State := { witRun with twin := { witRun.twin with
  paired := true, linkUp := true, version := 2, pairKey := [1], state := st, lanes := 0xFFFFFFFF } }
/-- Port 1,023 enabled at every rate with every FEC and PFC, in a given state. -/
def witPort (p : Port) : State := { witRun with
  cfg := { witRun.cfg with live := [{ num := 1, tag := 0, stopped := none, words :=
    [(portAddr 1023 0, 0x4807F), (portAddr 1023 0x008, 9600), (portAddr 1023 0x00C, 0xFF)] }] }
  ports := [(1023, p)] }
/-- A packet of port 1,023 that waits, and a state with the port UP, a packet stored and queued for it, and work for a crypto cluster. -/
def witPkt : Packet := { bytes := List.replicate 64 0, inPort := 1023, epoch := 1, prio := 0, md := le 2 1023 ++ List.replicate 62 0, arrived := 0, stamp := (0, 0) }
def witFlowing (d : Dest) (key : Nat) : State :=
  let s := witPort { st := .up, secured := true }
  { s with buf := { s.buf with fresh := [witPkt], store := [(7, { die := 4, pkt := witPkt, copies := 1, cells := 1, shared := 0 })]
                               queues := [(key, [{ id := 7, prog := none, dest := d, kind := .normal, cells := 1, shared := 0 }])] } }
def witJob (tls decrypt : Bool) : CryptJob := { pkt := witPkt, decrypt := decrypt, tls := tls, index := 3, link := 0, fwd := none }
def witSa (inbound : Bool) : Sa := { newSa (cmd pkgW 1 []) [] with inbound := inbound, seq := 0, window := 64, exhausted := false, keyFault := false, esn := false }
def witCry (j : CryptJob) (held : Bool) : State :=
  let s := witPort {}
  { s with cry := { s.cry with inputs := [(15, [j])], sas := [(3, witSa j.decrypt)]
                               holder := if held then [(3, 15)] else [] } }

theorem test_wit_sysReads :
    accepts opSysNop (cmd pkgW 1 []) wit = true ∧ accepts opSysInfo (cmd pkgW 1 []) wit = true ∧
    accepts opSysEpochRead (cmd pkgW 1 []) wit = true ∧
    (accepts opSysPathQuery (cmd 0x01027F00 1 []) wit = true ∧ isSpare (cmd 0x01027F00 1 []).place = true) ∧
    (accepts opSysPathQuery (cmd hubW 1 []) wit = true ∧ isSpare (cmd hubW 1 []).place = false) := by decide +kernel
theorem test_wit_sysActs :
    (let c := cmd dieW 1 [1, 1]; accepts opSysDrain c wit = true ∧ c.prm 0 1 = 1 ∧ c.prm 1 1 ≤ 1 ∧ bit (c.prm 1 1) 0 = true) ∧
    (let c := cmd dieW 1 [0, 1]; accepts opSysDrain c wit = true ∧ c.prm 0 1 = 0 ∧ c.prm 1 1 ≤ 1) ∧
    (let c := cmd dieW 1 [1, 1]; accepts opSysReset c wit = true ∧ levelOf c.place = .die ∧ pDie c.place ≠ 0 ∧ c.prm 0 1 = 1 ∧
      c.prm 1 1 ≤ 1 ∧ bit (c.prm 1 1) 0 = true ∧ wit.power.dieRestart = none) ∧
    (let c := cmd pkgW 1 [2, 1]; accepts opSysReset c wit = true ∧ levelOf c.place = .package ∧ c.prm 0 1 = 2 ∧ c.prm 1 1 ≤ 1 ∧
      bit (c.prm 1 1) 0 = true) ∧
    (let c := cmd pkgW 1 ([1, 1] ++ List.replicate 6 0 ++ le 8 0x400000000000 ++ le 4 64 ++ le 4 (0x2000000 - 64))
     accepts opSysFwLoad c wit = true ∧ c.prm 0 1 ≤ 1 ∧ c.prm 1 1 ≤ 1 ∧ c.prm 20 4 + c.prm 16 4 ≤ 0x2000000 ∧
      wit.boot.recovery = false ∧ c.prm 0 1 ≠ wit.boot.running ∧ bufferRefusal wit c.queue (c.prm 1 1) (c.prm 8 8) (c.prm 16 4) false = none) ∧
    (let c := cmd pkgW 1 [0, 0]; accepts opSysFwActivate c wit = true ∧ c.prm 0 1 ≤ 1 ∧ c.prm 1 1 = 0 ∧
      (fwImage wit (c.prm 0 1)).verified = true ∧ wit.boot.recovery = false) := by decide +kernel

theorem test_wit_cfgStage : (accepts opCfgStage (cmd pkgW 1 []) wit = true ∧ wit.cfg.stage = none ∧ (freeTagOf wit).isSome = true) ∧
    (accepts opCfgDiscard (cmd pkgW 1 []) witStage = true ∧ stageRefusal witStage (cmd pkgW 1 []) = none) ∧
    (accepts opCfgFix (cmd pkgW 1 []) witStage = true) := by decide +kernel
theorem test_wit_cfgWrite :
    let c := stagedCmd pkgW 16 (le 6 (0x00C000000000 + 2 ^ 47) ++ [64, 0] ++ le 2 4 ++ [0, 0] ++ le 4 1)
    let g := witG
    accepts opCfgWrite c witStage = true ∧ c.staged = true ∧ stageRefusal witStage c = none ∧ c.prm 6 1 ≤ 64 ∧ 4 ≤ c.prm 8 2 ∧
    c.prm 8 2 % 4 = 0 ∧ c.prm 0 6 % 2 ^ 47 % 4 = 0 ∧ (∀ k < c.prm 8 2 / 4, rwMask (c.prm 0 6 % 2 ^ 47 + 4 * k) ≠ 0) ∧
    slotRecords (writeWords (c.prm 6 1) (bit (c.prm 0 6) 47) (c.prm 8 2 / 4) (c.prm 0 6 % 2 ^ 47) (c.prmBytes 12 (c.prm 8 2)) g.layers)
      (c.prm 6 1) ≤ 2048 := by decide +kernel
theorem test_wit_cfgOverlay : ∀ a ∈ [0, 1, 2, 3],
    let c := stagedCmd pkgW 1 [63, a, 15]
    accepts opCfgOverlay c witStage = true ∧ c.staged = true ∧ stageRefusal witStage c = none ∧ c.prm 0 1 ≤ 63 ∧ c.prm 1 1 ≤ 3 ∧
    c.prm 2 1 ≤ 15 ∧ ((witG.layers.slots.filter fun e => e.2.active).length < 4) := by decide +kernel
theorem test_wit_cfgRead : ∀ v ∈ [0, 1, 2, 3],
    let c := cmd pkgW 1 (le 6 0x00C400000400 ++ [v, 64, 16])
    accepts opCfgRead c witStage = true ∧ c.prm 6 1 = v.toNat ∧ c.prm 7 1 ≤ 64 ∧ c.prm 8 1 = 16 ∧ c.prm 0 6 % 2 ^ 47 % 4 = 0 ∧
    (∀ a ∈ ((List.range (c.prm 8 1 / 4)).map fun k => c.prm 0 6 % 2 ^ 47 + 4 * k), inConfig a = true) ∧
    ¬ (bit (c.prm 0 6) 47 = true) ∧
    (c.prm 6 1 ≠ 0 → ∀ a ∈ ((List.range (c.prm 8 1 / 4)).map fun k => c.prm 0 6 % 2 ^ 47 + 4 * k), rwMask a ≠ 0) := by decide +kernel

theorem test_wit_fix : (witFix false).cfg.stage = some witG ∧ witG.epoch = 2 ∧
    fixRefusal (effective witG.layers) 2 (witFix false) = none := by decide +kernel
theorem test_wit_fix2 : ((witFix false).cfg.fix.map fun f => (f.epoch, f.committed, f.ready)) = some (2, false, false) ∧
    ((witFix true).cfg.fix.map fun f => (f.epoch, f.committed)) = some (2, true) ∧
    ((witFix false).cfg.prepared.map fun p => p.1.num) = some 2 ∧ fixesPaired (witFix false) = true ∧ witG.frozen = false ∧
    ((witFix false).cfg.live.getLast?.map fun x => x.num) = some 0 ∧ curEpoch (witFix false) ≠ 0 := by decide +kernel
theorem test_wit_reseed :
    (let s := { wit with tbl := { wit.tbl with reseed := [(15, { entry := witEntry, started := 0, queue := .mgmt, tag := 1, opcode := 0x0801 })] } }
     (tget s.tbl.reseed 15).isSome = true) := by decide +kernel

theorem test_wit_tblLookup :
    (let c := cmd pkgW 2 ([0, 1, 2, 0] ++ List.replicate 48 0)
     accepts opTblLookup c (witTable [witEntry0]) = true ∧ c.prm 1 1 ≤ 1 ∧ c.prm 2 1 ≤ 2 ∧ entryRefusal c (witTable [witEntry0]) = none ∧
     (lookupEntry (witTable [witEntry0]) (c.prm 0 1) (entryKey c (witTable [witEntry0]) 4) (opEpoch c (witTable [witEntry0]))).isSome = true ∧
     accepts opTblLookup c (witTable []) = true ∧ entryRefusal c (witTable []) = none ∧
     lookupEntry (witTable []) (c.prm 0 1) (entryKey c (witTable []) 4) (opEpoch c (witTable [])) = none) := by decide +kernel
theorem test_wit_tblDelete :
    (let c := cmd pkgW 2 ([0, 0, 0, 0] ++ List.replicate 48 0)
     let s := witTable [witEntry0]
     accepts opTblDelete c s = true ∧ entryRefusal c s = none ∧
     (lookupEntry s (c.prm 0 1) (entryKey c s 4) (opEpoch c s)) = some witEntry0 ∧ changeRoom (markDied witEntry0 (opEpoch c s) s.tbl.entries) = true) := by decide +kernel
theorem test_wit_tblInsert :
    (let c := cmd pkgW 2 ([0, 0] ++ le 2 4095 ++ List.replicate 80 0)
     let s := witTable []
     accepts opTblInsert c s = true ∧ c.prm 2 2 ≤ 4095 ∧ entryRefusal c s = none ∧ s.tbl.entries = [] ∧
     (let x := seedOf 0 (opState c s); (placeEntry (opWords c s) x.1 x.2.tbl.entries (newEntry c s)).any fun y =>
       changeRoom y.1) = true) := by decide +kernel
theorem test_wit_tblModify :
    (let c := cmd pkgW 2 ([0, 0] ++ le 2 4095 ++ List.replicate 80 0)
     let s := witTable [witEntry0]
     accepts opTblModify c s = true ∧ c.prm 2 2 ≤ 4095 ∧ entryRefusal c s = none ∧
     lookupEntry s (newEntry c s).table (newEntry c s).key (opEpoch c s) = some witEntry0 ∧
     (let x := seedOf 0 (opState c s)
      (placeEntry (opWords c s) x.1 x.2.tbl.entries (newEntry c s)).any fun y =>
        changeRoom (markDied witEntry0 (opEpoch c s) y.1)) = true) := by decide +kernel

theorem test_wit_tblStores :
    (let c := cmd pkgW 3 (le 2 4095 ++ [16, 0, 0, 0, 0, 0] ++ List.replicate 128 0)
     accepts opTblProgramSet c wit = true ∧ c.prm 0 2 ≤ 4095 ∧ 1 ≤ c.prm 2 1 ∧ c.prm 2 1 ≤ 16 ∧
     ((words64 (c.params.drop 8) (c.prm 2 1)).all fun w => primitiveOk w.toNat) = true ∧ opRefusal c wit = none ∧
     (setVersion wit (opEpoch c wit) (words64 (c.params.drop 8) (c.prm 2 1)) (tgetD wit.tbl.programs (c.prm 0 2) [])).isSome = true) ∧
    (let c := cmd pkgW 2 (le 2 4095 ++ List.replicate 6 0 ++ List.replicate 64 0 ++ [1, 0xFF, 0, 0xFF] ++ List.replicate 12 0)
     accepts opTblTemplateSet c wit = true ∧ c.prm 0 2 ≤ 4095 ∧ templateOk (c.prmBytes 8 80) = true ∧ opRefusal c wit = none ∧
     (setVersion wit (opEpoch c wit) (c.prmBytes 8 80) (tgetD wit.tbl.templates (c.prm 0 2) [])).isSome = true) := by decide +kernel
theorem test_wit_tblGroups :
    (let c := cmd pkgW 1 (le 2 65535 ++ le 2 1 ++ [0, 0, 1, 1] ++ le 8 4)
     accepts opTblGroupSet c wit = true ∧ c.staged = false ∧ c.prm 7 1 ≤ 1 ∧ c.prm 4 2 = 0 ∧ c.prm 6 1 = c.prm 2 2 ∧ 1 ≤ c.prm 6 1 ∧
     c.prm 6 1 ≤ 120 ∧ c.prm 2 2 ≤ 1024 ∧ opRefusal c wit = none ∧ ((words64 (c.params.drop 8) (c.prm 6 1)).all fun m => memberOk m.toNat) = true ∧
     (setVersion wit (opEpoch c wit) 0 (tgetD ([] : Tab (List (Version Nat))) (c.prm 0 2) [])).isSome = true) ∧
    (let c := cmd pkgW 1 (le 2 511 ++ [1, 0] ++ le 2 1023 ++ [1, 0])
     accepts opTblLagSet c wit = true ∧ c.prm 0 2 ≤ 511 ∧ c.prm 2 1 ≤ 16 ∧ (∀ k < c.prm 2 1, c.prm (7 + 4 * k) 1 = 0) ∧
     (∀ m ∈ lagMembers c.params (c.prm 2 1), m.1 ≤ 1023 ∧ m.2 ≤ 1) ∧ opRefusal c wit = none ∧
     (setVersion wit (opEpoch c wit) 0 (tgetD ([] : Tab (List (Version Nat))) (c.prm 0 2) [])).isSome = true) := by decide +kernel
theorem test_wit_tblGroupPart :
    let c := stagedCmd pkgW 1 (le 2 0 ++ le 2 1024 ++ le 2 1023 ++ [1, 1] ++ le 8 4)
    let v : Version Group := { born := some 2, died := none, val := { total := 1024, srcPrune := true, members := [] } }
    let s := { witStage with tbl := { witStage.tbl with groups := [(0, [v])] } }
    accepts opTblGroupSet c s = true ∧ c.staged = true ∧ c.prm 7 1 ≤ 1 ∧ 1 ≤ c.prm 6 1 ∧ c.prm 6 1 ≤ 120 ∧ c.prm 2 2 ≤ 1024 ∧
    c.prm 4 2 + c.prm 6 1 ≤ c.prm 2 2 ∧ opRefusal c s = none ∧
    (tgetD s.tbl.groups (c.prm 0 2) []).find? (fun v => v.born == some (opEpoch c s)) = some v ∧ v.val.total = c.prm 2 2 ∧
    v.val.srcPrune = bit (c.prm 7 1) 0 := by decide +kernel
theorem test_wit_tblCounters :
    (let c := cmd 0x010FFF00 1 (le 2 65535 ++ [1]); accepts opTblCounterRead c wit = true ∧ c.prm 2 1 ≤ 1) ∧
    (let c := cmd 0x010FFF00 1 (le 2 32767 ++ [0, 0] ++ le 32 (781250 * 4 + 781250 * 2 ^ 22))
     accepts opTblMeterSet c wit = true ∧ c.prm 0 2 ≤ 32767 ∧ fld (c.prm 4 32) 2 20 ≤ 781250 ∧ fld (c.prm 4 32) 22 20 ≤ 781250 ∧
     fld (c.prm 4 32) 90 166 = 0) := by decide +kernel

theorem test_wit_keks :
    let c := cmd pkgW 1 ([63, 1] ++ List.replicate 46 0)
    acceptsKey opCryKekLoad c wit = true ∧ fld (c.prm 1 1) 1 7 = 0 ∧ 1 ≤ c.prm 0 1 ∧ c.prm 0 1 ≤ 63 := by decide +kernel
theorem test_wit_caks :
    (let c := cmd pkgW 2 (le 2 0 ++ le 2 1024 ++ [1, 0, 32, 0] ++ List.replicate 72 0)
     acceptsKey opCryCakSet c wit = true ∧ fld (c.prm 4 1) 2 6 = 0 ∧ portRangeOk c = true ∧ 1 ≤ c.prm 6 1 ∧ c.prm 6 1 ≤ 32 ∧
     bit (c.prm 4 1) 1 = false ∧ (importKey c (cakField c) (wipe c wit)).1 = .inr (List.replicate 32 0)) ∧
    (let c := cmd pkgW 1 (le 2 1023 ++ le 2 1); accepts opCryCakClear c wit = true ∧ portRangeOk c = true) := by decide +kernel
theorem test_wit_sas :
    (let c := cmd pkgW 2 (le 4 (2 ^ 20 - 1) ++ [1, 8, 0, 0] ++ List.replicate 68 0)
     let u := wipe c witDdrIn
     acceptsKey (opCrySaInstall witDdrIn) c witDdrIn = true ∧ fld (c.prm 5 1) 5 3 = 0 ∧ saRange c = false ∧ thas u.cry.sas (c.prm 0 4) = false ∧
     ddr5Up u = true ∧ lineLost u (recordAddr (c.prm 0 4)) = false ∧
     (importKey c (saField c) u).1 = .inr (List.replicate 32 0)) := by decide +kernel
theorem test_wit_tls :
    (let c := cmdPf pkgW 2 ([0, 1, 0, 0] ++ le 4 (2 ^ 20 - 1) ++ List.replicate 64 0)
     let u := wipe c witDdrPf
     acceptsKey opCryTlsInstall c witDdrPf = true ∧ fld (c.prm 2 1) 2 6 = 0 ∧ c.prm 1 1 ≤ 1 ∧ bit (c.prm 2 1) 1 = false ∧
     tlsRefusal c = none ∧ ddr5Up u = true ∧ lineLost u (recordAddr (2 ^ 21 + tlsSession (c.prm 0 1) (c.prm 4 4))) = false ∧
     (importKey c (tlsField c) u).1 = .inr (List.replicate 16 0)) := by decide +kernel

theorem test_wit_mkaCmds :
    (let c := cmd pkgW 1 (le 2 1023); accepts opCryMkaRead c wit = true ∧ c.prm 0 2 < 1024) ∧
    (let c := cmd pkgW 1 (le 2 1023); accepts opCryMkaRekey c witMka = true ∧ c.prm 0 2 < 1024 ∧ runsMka witMka (c.prm 0 2) = true) := by decide +kernel
theorem test_wit_saCmds :
    let c := cmd pkgW 1 (le 4 (2 ^ 20 - 1))
    let s := { wit with cry := { wit.cry with sas := [(2 ^ 20 - 1, newSa c [])] } }
    accepts (opCrySaRemove s) c s = true ∧ c.prm 0 4 < 2 ^ 20 ∧ thas s.cry.sas (c.prm 0 4) = true ∧
    accepts opCrySaRead c s = true ∧ (tget s.cry.sas (c.prm 0 4)).isSome = true ∧
    accepts opCrySaRead c wit = true ∧ tget wit.cry.sas (c.prm 0 4) = none := by decide +kernel
theorem test_wit_tlsCmds :
    let c := cmdPf pkgW 1 ([0, 1, 0, 0] ++ le 4 (2 ^ 20 - 1) ++ List.replicate 12 0)
    let s := { witPf with cry := { wit.cry with tls := [(tlsKey 0 (2 ^ 20 - 1) 1, newHalf c [])] } }
    accepts opCryTlsResync c s = true ∧ c.prm 1 1 = 1 ∧ tlsRefusal c = none ∧
    (tget s.cry.tls (tlsKey (c.prm 0 1) (c.prm 4 4) 1)).isSome = true ∧ accepts opCryTlsRead c s = true ∧
    accepts opCryTlsRemove (cmdPf pkgW 1 ([0, 0, 0, 0] ++ le 4 (2 ^ 20 - 1))) s = true := by decide +kernel

theorem test_wit_flowInsert :
    let c := cmd pkgW 2 (witFKey ++ [8, 0, 15, 0] ++ List.replicate 26 0)
    accepts opFlowInsert c witEmptyFlow = true ∧ fld (c.prm 41 1) 3 5 = 0 ∧ keyReserved c = false ∧ 1 ≤ c.prm 40 1 ∧ c.prm 40 1 ≤ 8 ∧
    c.prm 42 1 ≤ 15 ∧ bit (c.prm 41 1) 2 = false ∧ engineRefusal witEmptyFlow (insertedFlow c witEmptyFlow).1.key = none ∧
    flowFind witEmptyFlow (insertedFlow c witEmptyFlow).1.key = none ∧
    (flowInsert (insertedFlow c witEmptyFlow).1 witEmptyFlow).isSome = true := by decide +kernel
theorem test_wit_flowInsertPair :
    let c := cmd pkgW 2 (List.replicate 36 0 ++ [17, 0, 0, 0] ++ [1, 5, 0, 0] ++ List.replicate 26 0)
    let x := insertedFlow c witEmptyFlow
    accepts opFlowInsert c witEmptyFlow = true ∧ fld (c.prm 41 1) 3 5 = 0 ∧ keyReserved c = false ∧ bit (c.prm 41 1) 2 = true ∧
    x.2.v6 = false ∧ x.2.proto = 17 ∧ engineRefusal witEmptyFlow x.1.key = none ∧ flowFind witEmptyFlow x.1.key = none ∧
    flowFind witEmptyFlow (replyKey (ofBe (c.prmBytes 52 4)) (c.prm 68 2) x.2) = none ∧
    (insertPair x.1 x.2 (ofBe (c.prmBytes 52 4)) (c.prm 68 2) witEmptyFlow).isSome = true := by decide +kernel
theorem test_wit_flowCmds :
    let c := cmd pkgW 1 (witFKey ++ [2, 1, 0, 0] ++ List.replicate 4 0)
    accepts opFlowDelete c witFlow = true ∧ accepts opFlowRead c witFlow = true ∧ accepts opFlowModify c witFlow = true ∧
    c.prm 40 1 ≤ 2 ∧ fld (c.prm 40 1) 3 5 = 0 ∧ bit (c.prm 40 1) 0 = false ∧ keyReserved c = false ∧
    engineRefusal witFlow (c.prmBytes 0 40) = none ∧ (flowFind witFlow (c.prmBytes 0 40)).isSome = true := by decide +kernel
theorem test_wit_flowFlush :
    let c := cmd pkgW 1 [0, 0, 2, 15]
    accepts opFlowFlush c witEmptyFlow = true ∧ fld (c.prm 2 1) 2 6 = 0 ∧ c.prm 3 1 ≤ 15 ∧ witEmptyFlow.flow.flush = none := by decide +kernel

theorem test_wit_flowMiss :
    let s := { witFlow with flow := { witFlow.flow with miss := [(15, [witParked])], cache := [(15, [4 * (flowBuckets witEmptyFlow witFKey).1])] } }
    (nextMiss s 15).isSome = true ∧ (nextMiss s 15).all (fun x => (flowFind s x.key).isSome) = true := by decide +kernel
def witMiss (l : List Parked) : State := { witFlow with flow := { witFlow.flow with miss := [(15, l)] } }
theorem test_wit_flowMissEcc :
    nextMiss (witMiss [witParked]) 15 = some witParked ∧ flowFind (witMiss []) witFKey = some (witF witFKey) ∧
    holderOf (witMiss []) (witF witFKey).index = none := by
  have e : flowFind (witMiss []) witFKey = some (witF witFKey) := by decide +kernel
  have h : holderOf (witMiss []) (witF witFKey).index = none := by decide +kernel
  have w : wantedKeys (witMiss [witParked]) witParked = [witFKey] := by decide +kernel
  have g : banksOut (witMiss []) (l0Place 15 116) = 0 := by decide +kernel
  have i : ∀ v, inSet (witMiss []) 15 v = [] := fun v => rfl
  have c : cacheTakes (witMiss []) 15 [witFKey] = true := by
    simp [cacheTakes, e, h, i, setWays, g]
  have m : tput (witMiss [witParked]).flow.miss 15 (([witParked].filter fun y => y.key != witParked.key) : List Parked) = [(15, [])] := by decide +kernel
  have q : tgetD (witMiss [witParked]).flow.miss 15 [] = [witParked] := by decide +kernel
  refine ⟨?_, e, h⟩
  simp only [nextMiss, q, List.find?_cons, m, w]
  simp only [show ({ witMiss [witParked] with flow := { (witMiss [witParked]).flow with miss := [(15, [])] } } : State) = witMiss [] from rfl, c]
theorem test_wit_flowEvents :
    ddr5Up witFlow = true ∧ outOfService witFlow (lookupPlace 2) = false ∧ twinSettled witFlow = true ∧ witFlow.flow.resync = true ∧
    witFlow.flow.flush.isSome = true ∧ (flowFind witFlow (recordFlow (List.replicate 128 0)).key).isSome = true ∧
    (let s := { witEmptyFlow with twin := { witEmptyFlow.twin with linkUp := true, version := 2 } }
     let b := List.replicate 44 0 ++ List.replicate 4 0xFF ++ List.replicate 80 0
     flowFind s (recordFlow b).key = none ∧ (flowInsert (recordFlow b) s).isSome = true ∧ (recordFlow b).peer = 0xFFFFFFFF) := by decide +kernel

theorem test_wit_portCmds :
    (let c := cmd 0x0438BF00 1 (le 2 4080 ++ [16])
     accepts opPortRead c witRun = true ∧ c.prm 0 2 % 4 = 0 ∧ c.prm 2 1 = 16 ∧ c.prm 0 2 + c.prm 2 1 ≤ 4096 ∧
     regionUp witRun (pDie c.place) (pRegion c.place) = true) ∧
    accepts opPortRestart (cmd 0x0438BF00 1 []) witRun = true ∧
    (let c := cmdPf pkgW 1 (le 2 1023 ++ le 2 1 ++ [2, 0, 0, 0] ++ le 8 64)
     accepts opPortSnapshot c witRun = true ∧ 1 ≤ c.prm 2 2 ∧ c.prm 0 2 + c.prm 2 2 ≤ 1024 ∧ c.prm 4 1 ≤ 2 ∧ c.prm 8 8 % 64 = 0 ∧
     c.prm 5 1 ≤ 1 ∧ bufferRefusal witRun c.queue (c.prm 5 1) (c.prm 8 8) (c.prm 2 2 * setBytes (c.prm 4 1)) true = none) := by decide +kernel
theorem test_wit_portPartner :
    let c := cmdPf 0x0438BF00 1 (List.replicate 16 0 ++ le 2 2)
    accepts opPortPartnerRead c witRun = true ∧ c.prm 0 1 ≤ 1 ∧
    bufferRefusal witRun c.queue (c.prm 0 1) (c.prm 8 8) (c.prm 16 2) true = none ∧
    (portGet witRun (macPort c.place)).partner.isSome = true ∧ (bufferWrite c.queue (c.prm 0 1) (c.prm 8 8) [1, 2] witRun).isSome = true ∧
    accepts opPortPartnerRead (cmdPf 0x0108BF00 1 (List.replicate 16 0 ++ le 2 2)) witRun = true ∧
    (portGet witRun (macPort (cmdPf 0x0108BF00 1 []).place)).partner = none := by decide +kernel

/-- A command of every opcode that replies ACCEPTED is owed at tag 1. -/
def witOwed (opcode key : Nat) : State := { wit with cmd := { wit.cmd with
  owed := [{ queue := .mgmt, tag := 1, opcode := opcode, epoch := 1, key := key, accepted := true }] } }
theorem test_wit_owed :
    Target.dieOrRegion.takes (place 0x01FFFF00) = true ∧ (owedBy (witOwed 5 (place 0x01FFFF00)) 0x0005 (place 0x01FFFF00)).isSome = true ∧
    (∀ o ∈ [0x0007, 0x0C03, 0x3002, 0x3C01, 0x3C03], (owedAt (witOwed o 0) o .mgmt 1).isSome = true) ∧
    wit.boot.lifecycle ≠ .retired ∧ { wit.boot with recovery := true }.lifecycle ≠ .retired := by decide +kernel

theorem test_wit_vfQuery : ∀ st ∈ [VfState.active, .stopped, .disabled],
    let c := cmdPf pkgW 1 (vfRef ++ List.replicate 28 0)
    let s := witVf st
    accepts opVfQuery c s = true ∧ refOk (c.prm 0 4) = true ∧ refFn (c.prm 0 4) = witFnVf ∧ halfExists s 0 0 = true ∧
    fnExists s witFnVf = true ∧ vfNamed c s = none := by decide +kernel
theorem test_wit_vfStates :
    let c := cmdPf pkgW 1 (vfRef ++ List.replicate 12 0 ++ le 4 (2 ^ 32 - 1) ++ List.replicate 12 0)
    (accepts opVfSuspend c (witVf .active) = true ∧ (funcOf (witVf .active) witFnVf).vf = .active ∧
      (funcOf (witVf .active) witFnVf).suspending = false) ∧
    (accepts opVfResume c (witVf .stopped) = true ∧ accepts opVfSave c (witVf .stopped) = true ∧
      (funcOf (witVf .stopped) witFnVf).vf = .stopped ∧ c.prm 8 8 % 64 = 0 ∧ imageLen (witVf .stopped) witFnVf ≤ c.prm 16 4) ∧
    (accepts opVfRestore c (witVf .disabled) = true ∧ (funcOf (witVf .disabled) witFnVf).vf = .disabled ∧
      (witVf .disabled).cmd.owed = []) := by decide +kernel
theorem test_wit_vfLogs :
    (let c := cmdPf pkgW 1 (vfRef ++ List.replicate 12 0 ++ le 8 0x40000 ++ le 8 (2 ^ 40))
     accepts opVfLogStart c (witVf .active) = true ∧ c.prm 8 8 % 4096 = 0 ∧ c.prm 16 8 % 0x40000 = 0 ∧ c.prm 24 8 % 0x40000 = 0 ∧
     c.prm 24 8 ≠ 0 ∧ c.prm 24 8 ≤ 2 ^ 40 ∧
     (let s := { witVf .active with host := { (witVf .active).host with logs := [] } }
      accepts opVfLogStart c s = true ∧ vfNamed c s = none ∧ logOf s witFnVf = none ∧
        ((List.range 16).find? fun k => !thas s.host.logs k) = some 0)) ∧
    (let c := cmdPf pkgW 1 vfRef
     accepts opVfLogHarvest c (witVf .active) = true ∧ accepts opVfLogStop c (witVf .active) = true ∧ vfNamed c (witVf .active) = none ∧
     logOf (witVf .active) witFnVf = some 0 ∧ ((tget (witVf .active).host.logs 0).any fun l => !l.harvesting) = true) := by decide +kernel

theorem test_wit_sriov :
    (fnExists witRun witFnPf = true ∧ (funcOf witRun witFnPf).vfEnable = false ∧ 128 ≤ totalVfs witRun witFnPf) ∧
    (fnExists (witVf .active) witFnVf = true ∧ bit (setBit (funcOf (witVf .active) witFnVf).ctrl 0) 0 = true ∧
      bit (clrBit (funcOf (witVf .active) witFnVf).ctrl 0) 0 = false ∧ (funcOf (witVf .active) witFnVf).vf = .active) ∧
    (let s := witVf .shuttingDown
     fnExists s witFnVf = true ∧ (funcOf s witFnVf).vf = .shuttingDown ∧ (funcOf s witFnVf).reads = [] ∧ (funcOf s witFnVf).qps = [] ∧
     (funcOf s witFnVf).bmePending = false ∧ (funcOf s witFnVf).enablePending = false ∧ (funcOf s witFnVf).suspending = true ∧
     logOf s witFnVf = some 0 ∧ ((tget s.host.logs 0).any fun l => l.harvesting) = true ∧
     (tget (hostWrite (dataFn s 0x1C05 witFnVf) 0 (bitmapBytes [] 0x40000) s).host.logs 0).isSome = true) := by decide +kernel
theorem test_wit_vfRestored :
    let v := witVf .disabled
    let s := { v with host := { v.host with funcs := [(fnKey witFnPf, { bme := true, vfEnable := true, numVfs := 128 })] }
                      cmd := { v.cmd with owed := [{ queue := .pf 0 0 0 0, tag := 1, opcode := 0x1C08, epoch := 1, key := fnKey witFnVf, accepted := true }] } }
    let b := vfImage s witFnVf
    fnExists s witFnVf = true ∧ (owedBy s 0x1C08 (fnKey witFnVf)).isSome = true ∧ rd b 0 4 = 0x4D56574C ∧ rd b 4 2 = 1 ∧
    rd b 12 4 = 32 + 64 * rd b 6 2 + 16 * rd b 8 2 + 64 ∧ (b.drop 32).length = 64 * rd b 6 2 + 16 * rd b 8 2 + 64 ∧
    rd b 6 2 = shareQ s witFnVf ∧ rd b 8 2 = shareV s witFnVf ∧ rd b 16 4 = crc32c 0xFFFFFFFF#32 (b.drop 32) := by decide +kernel

theorem test_wit_dmaQp :
    let c := cmdPf pkgW 1 (List.replicate 6 0)
    let x := cmdPf pkgW 2 (List.replicate 8 0 ++ qpCtx ++ List.replicate 14 0 ++ [1, 0] ++ List.replicate 16 0)
    accepts opDmaQpSet x (witQp {}) = true ∧ qpNamed x (witQp {}) = none ∧ ctxRefused (witQp {}) witFnPf (x.prmBytes 8 64) = false ∧
    accepts opDmaQpStart c (witQp {}) = true ∧ accepts opDmaQpStop c (witQp { st := 1 }) = true ∧
    accepts opDmaQpFlush c (witQp { st := 1 }) = true ∧ accepts opDmaQpRead c (witQp { st := 1 }) = true ∧
    qpNamed c (witQp {}) = none ∧ qpNamed c (witQp { st := 1 }) = none ∧ (qpOf (witQp { st := 1 }) witFnPf 0).st = 1 ∧
    refFn (c.prm 0 4) = witFnPf := by decide +kernel
theorem test_wit_dmaCh :
    let p (b : Bytes) := cmd pkgW 2 ([0, 56] ++ b)
    accepts opDmaChAssign (p [0, 0, 0, 0, 0, 0]) (witCh {}) = true ∧ chNamed 0 56 = true ∧ fnExists (witCh {}) witFnPf = true ∧
    accepts opDmaChProgram (p ([0, 0] ++ chProg)) (witCh {}) = true ∧
    (let s := witCh { prog := chProg, dirty := 0 }
     accepts opDmaChEnable (p [1, 0, 0]) s = true ∧ enableOk (dmaOf s 56) 1 = true ∧ chOwnedBy s .mgmt (dmaOf s 56) = true ∧
     accepts opDmaChRead (p []) s = true) ∧
    accepts opDmaChEnable (p [0, 0, 0]) (witCh { st := 2 }) = true ∧ chActive (dmaOf (witCh { st := 2 }) 56) = true := by decide +kernel

theorem test_wit_doorbells : fnExists (witQp {}) witFnPf = true ∧ dbActs (witQp {}) witFnPf 0 = true ∧
    (let s := witQp { st := 1, ctx := qpCtx, txTail := 1 }
     let ds := ([le 8 0 ++ le 2 64 ++ [1]] : List Bytes).map (fitTo 32)
     qpExists s witFnPf 0 = true ∧ txMay s witFnPf 0 = true ∧ (ds.findIdx fun d => bit (rd d 10 1) 0) < ds.length ∧
     (∀ d ∈ ds, txBad d = false) ∧ (ds.foldl (fun a d => a + rd d 8 2) 0) = 64) ∧
    (let s := witQp { st := 1, ctx := List.replicate 26 0 ++ [0x20], cqTail := 1, timer := true }
     qpIrqEn (qpOf s witFnPf 0) = true ∧ (qpOf s witFnPf 0).cqHead ≠ (qpOf s witFnPf 0).cqTail) ∧
    (qpExists (witQp { st := 3 }) witFnPf 0 = true ∧ (qpOf (witQp { st := 3 }) witFnPf 0).st = 3) ∧
    chosenChannel (witCh { prog := chProg, act := chProg, dirty := 0, st := 2 }) 0 = some 56 := by decide +kernel
theorem test_wit_hostRx :
    let k : Packet := { bytes := List.replicate 64 0, inPort := 1023, epoch := 1, prio := 0, md := List.replicate 64 0, arrived := 0, stamp := (0, 0) }
    let v := witQp { st := 1, ctx := qpCtx, rxTail := 1 }
    let s := { v with buf := { v.buf with store := [(7, { die := 1, pkt := k, copies := 1, cells := 1, shared := 0 })]
                                          queues := [(deliveryKey 1 0 0, [{ id := 7, prog := none, dest := .host witFnPf 0, kind := .normal, cells := 1, shared := 0 }])] } }
    queueGet s (deliveryKey 1 0 0) ≠ [] ∧ (storedOf s 7).isSome = true ∧
    (let t := queueSet (deliveryKey 1 0 0) [] (backlogWidens witFnPf s)
     qpExists t witFnPf 0 = true ∧ t.twin.state ≠ .fenced ∧ (qpOf t witFnPf 0).st = 1 ∧ fnRuns t witFnPf = true) := by decide +kernel

theorem test_wit_stoNames :
    let s := witSto 1 []
    let add := cmdPf pkgW 2 ([1, 0, 0, 0, 0, 1, 1, 0, 2, 0, 0, 0, 0, 0, 100, 0] ++ List.replicate 32 0 ++ [1, 0, 0, 0])
    accepts opStoNqnSet (cmdPf pkgW 1 [2, 1, 65]) s = true ∧ (s.sto.paths.all fun e => e.2.hostNqn != 2 && e.2.subNqn != 2) = true ∧
    accepts opStoPathAdd add s = true ∧ pathRange add = false ∧ thas s.sto.paths 1 = false ∧ connsUsed s + 2 ≤ 8192 ∧
    (let s := { s with sto := { s.sto with nss := [] } }
     accepts opStoPathRemove (cmdPf pkgW 1 [0, 0]) s = true ∧ thas s.sto.paths 0 = true) ∧
    accepts opStoRead (cmdPf pkgW 1 [0, 0, 0]) s = true ∧ accepts opStoRead (cmdPf pkgW 1 [1, 0, 0]) s = true ∧
    (tget s.sto.paths 0).isSome = true ∧ (tget s.sto.nss 0).isSome = true := by decide +kernel
theorem test_wit_stoNs :
    let s := witSto 1 []
    let add := cmdPf pkgW 1 ([1, 0, 0, 0, 0, 0] ++ List.replicate 6 0xFF ++ [1, 0, 0, 0, 0, 0])
    let att := cmdPf pkgW 1 [0, 0, 1, 0, 0, 0, 0, 0, 0, 0]
    let det := cmdPf pkgW 1 [0, 0, 1, 0, 0, 0, 0, 0]
    accepts opStoNsAdd add s = true ∧ nsPaths add = [0] ∧ isAttached s 1 = false ∧ accepts opStoNsRemove (cmdPf pkgW 1 [0, 0]) s = true ∧
    isAttached s 0 = false ∧ accepts opStoNsAttach att s = true ∧ attachWho att s = .inr (.bed 0) ∧ writerClash s 0 false = false ∧
    accepts opStoNsDetach det (witSto 1 [witAttach false]) = true ∧ attachWho det (witSto 1 [witAttach false]) = .inr (.bed 0) ∧
    ((witSto 1 [witAttach true]).sto.attach.any fun a => a.ns == 0 && a.who == .bed 0 && a.detaching) = true ∧
    acceptsKey opStoNsKey (cmdPf pkgW 2 ([0, 0, 1, 0] ++ List.replicate 72 0)) (witSto 4 []) = true ∧
    ((tget (wipe (cmdPf pkgW 2 ([0, 0, 1, 0] ++ List.replicate 72 0)) (witSto 4 [])).sto.nss 0).any fun n => n.st == 4) = true := by decide +kernel

theorem test_wit_svcImage :
    let s := witBed .loaded {}
    let d := le 4 0x5653574C ++ le 2 1 ++ le 2 256 ++ le 4 0 ++ le 4 1 ++ [1, 0, 1, 0] ++ List.replicate 142 0
    let v := { s with svc := { s.svc with loading := [(1, d)] } }
    accepts opSvcImageLoad (cmd pkgW 1 ([1, 1] ++ List.replicate 12 0 ++ [0x40, 0, 162, 0, 0, 0])) s = true ∧
    bufferRefusal s .mgmt 1 0x400000000000 162 false = none ∧ imageFormat d = true ∧ slotBusy v 1 = false ∧
    accepts opSvcStart (cmd pkgW 1 [0, 0, 0]) s = true ∧ bedFits (owing opSvcStart (cmd pkgW 1 [0, 0, 0]) 0 s s) 0 witImage = true ∧
    tget (owing opSvcStart (cmd pkgW 1 [0, 0, 0]) 0 s s).svc.images 0 = some witImage := by decide +kernel
theorem test_wit_svcRuns :
    let s := witBed .running {}
    accepts opSvcStop (cmd pkgW 1 [0]) s = true ∧ accepts opSvcReplace (cmd pkgW 1 [0, 0]) s = true ∧ (bedGet s 0).slot = some 0 ∧
    tget s.svc.images 0 = some witImage ∧ accepts opSvcBedQuery (cmd pkgW 1 [0]) s = true ∧ accepts opSvcSlotRead (cmd pkgW 1 [0]) s = true ∧
    (let t := clustMod 0 (fun c => { c with readyReg := true }) (witBed .starting {})
     bedOf t 0 = some 0 ∧ ((bedClusters t 0).all fun n => (clust t n).readyReg) = true ∧ bedGrafting t 0 = false) ∧
    (let t := clustMod 0 (fun c => { c with readyReg := false }) (witBed .stopping {})
     bedOf t 0 = some 0 ∧ (bedGet t 0).st = .stopping ∧ ((bedClusters t 0).all fun n => !(clust t n).readyReg) = true ∧ bedGrafting t 0 = false) := by decide +kernel

theorem test_wit_dbg :
    let c (slots : Nat) (b : Bytes) := cmd pkgW slots (coreW ++ [1] ++ b)
    let s := witDbg (witThread { st := .running })
    let h := witDbg (witThread { st := .halted, outbound := some (pkgW, 3, [0]) })
    accepts opDbgHalt (c 1 []) s = true ∧ dbgThread (c 1 []) s = some (0, 1) ∧ paramPathBad ((c 1 []).prm 0 4) s = false ∧ mayAlter s 1 0 1 = true ∧ (sessionOf s .mgmt).isSome = true ∧
    accepts opDbgResume (c 1 (List.replicate 11 0)) h = true ∧ accepts opDbgAbandonMessage (c 1 []) h = true ∧ dbgThread (c 1 []) h = some (0, 1) ∧
    stagedWords h 0 1 = some (3, 1, true) ∧ accepts opDbgObserve (c 1 []) s = true ∧ accepts opDbgReadReg (c 1 [5]) h = true ∧
    accepts opDbgClose (cmd pkgW 1 (le 4 1)) s = true ∧ thas s.boot.sessions 1 = true := by decide +kernel
theorem test_wit_dbgOpen :
    let tok := le 2 1 ++ [1, 1] ++ List.replicate 8 0 ++ le 4 9 ++ le 4 9 ++ List.replicate 100 0
    let c := cmd pkgW 3 (le 2 120 ++ tok)
    let s := witDbg {}
    accepts opDbgOpen c s = true ∧ c.prmBytes 2 120 = tok ∧ signerPermitted s 1 = true ∧ kindPermitted s 1 = true ∧ now32 s < 9 ∧
    s.boot.tokenSeq < 9 ∧ s.boot.sessions.length < 4 := by decide +kernel

theorem test_wit_clusterEvents :
    let s := witBed .running { timers := [(0, (3, 5))], locks := [(0, { holder := some (0, 1) })], cfg := 2 ^ 32
                               threads := [(1, { st := .blockedRead, object := 3 })], chans := [(3, { cfg := 1, readers := 2 }), (4, { cfg := 0x1000001 })] }
    tget (clust s 0).timers 0 = some (3, 5) ∧ (lockOf s 0 0).holder = some (0, 1) ∧ (lockOf s 0 0).notified = false ∧
    fld (clust s 0).cfg 32 24 ≠ 0 ∧ ((span 1 63).filter fun t => isBlocked (threadOf s 0 t).st) = [1] ∧
    ((span 1 63).all fun t => !canAct s 0 t) = true ∧ isStuck s 0 1 = true ∧ isStuck s 0 0 = false ∧ (clust s 0).stallSent = false ∧
    (threadOf s 0 2).st = .stopped ∧ bit (chanCfgBits (setBit 0 0)) 0 = true ∧ chEnabled (chanOf s 0 5) = false ∧
    chanFits (witBed .running {}) 0 5 (chanCfgBits (setBit 0 0)) = true ∧ bit (chanCfgBits (clrBit 1 0)) 0 = false ∧ chEnabled (chanOf s 0 3) = true ∧
    bit (setBit 0 0 % 2 ^ 56 - fld (setBit 0 0) 1 3 * 2) 0 = true ∧ bit (clust s 0).cmdq.cfg 0 = false ∧ queueBusy s (.bed 0) = 0 ∧
    bit (clrBit 1 0 % 2 ^ 56 - fld (clrBit 1 0) 1 3 * 2) 0 = false := by decide +kernel

theorem test_wit_threadInstructions :
    let th : Thread := { st := .running, regs := [(5, 3), (6, 2 ^ 10 + 3), (8, 1)], buf := some [1] }
    let s := witBed .running { threads := [(1, th)], locks := [(1, { holder := some (0, 1) })]
                               chans := [(3, { cfg := 0x10103, writers := 2, readers := 2, stage := some (1, [0]), held := [1],
                                               msgs := [{ bytes := [1], ext := false, buffer := none }] }), (0, { cfg := 0x100000013 })] }
    (threadOf s 0 1).st = .running ∧ opTarget s 0 (xv s 0 1 5) = some 0 ∧ xv s 0 1 5 % 256 = 3 ∧ chEnabled (chanOf s 0 3) = true ∧
    bit (chanOf s 0 3).writers 1 = true ∧ (threadOf s 0 1).abandoned ≠ some 3 ∧ (chanOf s 0 3).stage = some (1, [0]) ∧
    localMisuse s 0 1 (xv s 0 1 5) Chan.readers = none ∧ localMisuse s 0 1 (xv s 0 1 5 % 256) Chan.writers = none ∧ (chanOf s 0 3).msgs ≠ [] ∧
    (chanOf s 0 3).readersQ = [] ∧ xv s 0 1 8 % 256 ∈ (chanOf s 0 3).held ∧ bit (chanOf s 0 3).readers 1 = true ∧
    (threadOf s 0 1).buf = some [1] ∧ lockNamed s 0 (xv s 0 1 5) = some (0, 3) ∧ (lockOf s 0 3).holder = none ∧
    lockNamed s 0 (xv s 0 1 8) = some (0, 1) ∧ (lockOf s 0 1).holder = some (0, 1) ∧
    chEnabled (chanOf s 0 0) = true ∧ acceptsExt (chanOf s 0 0) 4 = true ∧
    lengthFits (2 ^ 8 * 9 + 3) 2 = true := by decide +kernel

theorem test_wit_threadsRun :
    let v := witBed .running { threads := [(1, { st := .running, pc := 0x400000000000, regs := [(5, 0x400000000100)] })] }
    let s := { v with mem := { v.mem with cells := [(0x400000000000, 0x33), (0x400000000002, 5)] } }
    (threadOf s 0 1).st = .running ∧ coreStill s (svcPlace 0) 0 = false ∧ mayFetch s 0 0x400000000000 2 = true ∧
    mayFetch s 0 0x400000000000 4 = true ∧ poisonHit s 0x400000000000 4 = none ∧ ofLe (memRead s 0x400000000000 2) % 4 = 3 ∧
    ofLe (memRead s 0x400000000002 2) % 4 ≠ 3 ∧ (expand (ofLe (memRead s 0x400000000002 2))).isSome = true ∧ iF7 0x33 = 0 ∧
    (loadForm (iF3 0x2A003)).isSome = true ∧ accessFault s 0 1 0x400000000100 4 0 3 = none ∧ svcRegAccess 0 1 0x400000000100 4 = none ∧
    accessFault s 0 1 0x400000000100 4 1 4 = none := by decide +kernel

theorem test_wit_care :
    (let s := { witRun with boot := { witRun.boot with lifecycle := .manufacturing } }
     accepts opTestRun (cmd unitW 1 [1]) s = true ∧ (exposureOf s unitP).isSome = false ∧ factoryState s = true ∧
     (cmd unitW 1 [1]).place = unitP ∧ levelOf unitP = .unit) ∧
    accepts opTestRun (cmd unitW 1 [1]) witRun = true ∧ factoryState witRun = false ∧ routeOf 1 unitP ≠ .none ∧
    (launchTest unitP 1 none witRun).isSome = true ∧ (launchTest unitP 1 none (owing opTestRun (cmd unitW 1 [1]) unitP witRun witRun)).isSome = true ∧
    accepts opTestResult (cmd unitW 1 [0, 0]) witRun = true ∧ accepts opTestSchedule (cmd pkgW 1 [7, 0]) witRun = true ∧
    accepts opAgeReport (cmd unitW 1 []) witRun = true ∧ isCartSlot unitP = false ∧ pCluster unitP < 24 ∧
    accepts opAgeSheetTime (cmd pkgW 1 [0, 0, 0, 0]) witRun = true := by decide +kernel
theorem test_wit_careReads :
    (let s := { witRun with age := { witRun.age with sheets := 1 } }
     let c := cmdPf pkgW 1 (List.replicate 16 0 ++ le 4 16384)
     accepts opAgeSheetRead c s = true ∧ c.prm 0 2 < s.age.sheets ∧ bufferRefusal s c.queue 0 0 16384 true = none) ∧
    (let s := witSlot .sharing .sharing
     let c := cmd slotW 1 []
     placeSlot c.place = 0 ∧ accepts opCartRead c s = true ∧ accepts opCartPrepareSwap c s = true ∧ partnerShort s 0 = false ∧
     accepts opCartCancelSwap c (witSlot .rampingDown .sharing) = true) := by decide +kernel

theorem test_wit_testAge :
    let s := { witRun with power := { witRun.power with fullService := true }, test := { witRun.test with retry := [unitP] } }
    levelOf unitP = .unit ∧ s.boot.lifecycle = .deployed ∧ scheduledTarget s unitP = unitP ∧ routeOf 1 unitP ≠ .drained ∧
    (let t := ((testedUnits unitP).filter hasRoute).foldl (fun s u => checkOverdue u s) s
     dark t unitP = false ∧ (launchTest unitP 1 (some 0) t).isSome = true) ∧ unitP ∈ s.test.retry ∧ (spareFor unitP).isSome = true ∧
    (∀ sp ∈ (spareFor unitP).toList, (ledger s sp).state ≠ .suspect) ∧
    (let e : Exposure := { target := unitW, kind := 3, spare := some 1, why := 0, bank := 0, begun := true, started := 0 }
     exposureOf { s with test := { s.test with running := [e] } } unitP = some e) := by decide +kernel
theorem test_wit_governor : ∀ w ∈ [0, 1, 2],
    let s := { witRun with age := { witRun.age with active := true, dies := [(1, { rail := 720, ceiling := 900, want := w })] } }
    hasDie 1 = true ∧ dieUp s 1 = true ∧ (dieAge s 1).awaiting = false ∧ (dieAge s 1).held = false ∧ (dieAge s 1).want = w ∧
    (dieAge s 1).rail = 720 ∧ (dieAge s 1).ceiling = 900 := by decide +kernel

theorem test_wit_cart :
    (slotOf witRun 0).presence = false ∧ (slotOf (witSlot .settling .empty) 0).st = .settling ∧
    (let s := witSlot .rampingDown .rampingUp
     (slotOf s 0).st = .rampingDown ∧ (slotOf s 0).step < 63 ∧ isRamping (slotOf s 1) = true ∧ dieUp s 1 = true) ∧
    (let s := witSlot .alone .settling
     let t := slotMod 0 (fun x => { x with working := clrBit x.working 3, lasers := tmod x.lasers 3 {} fun l => { l with failed := true } }) (setTarget 0 3 0 s)
     slotLit (slotOf s 0) = true ∧ (slotOf s 0).latch = false ∧ bit (slotOf s 0).working 3 = true ∧ lifeOf s 5 = none ∧ lifeOf t 5 = none ∧
     supplies (slotOf (rampBack 1 t) 1) = false ∧ (slotOf (replaceDue 0 0 (raiseSlot 0x3404 0 [3, 0] (rampBack 1 t))) 0).working ≠ 0) ∧
    (slotOf (witSlot .readyToRemove .alone) 0).presence = true ∧ (engineOf witRun 0).fault = false ∧
    (slotOf (slotMod 0 (fun x => { x with dueAt := some 0 }) witRun) 0).dueAt.isSome = true := by decide +kernel

theorem test_wit_twinLog :
    accepts opTwinStatus (cmd pkgW 1 []) { wit with twin := { wit.twin with hbAt := some 0 } } = true ∧
    accepts opTwinWitnessSet (cmd pkgW 1 (List.replicate 24 0)) wit = true ∧
    accepts opTwinHandover (cmd pkgW 1 [1]) (witTwin .protectedSt) = true ∧ (witTwin .protectedSt).twin.handover = 0 ∧
    accepts opTwinHandover (cmd pkgW 1 [0]) (witTwin .handedOver) = true ∧
    (let c := cmdPf pkgW 1 (List.replicate 8 0 ++ [1, 0] ++ List.replicate 14 0)
     accepts opLogRead c witPf = true ∧ bufferRefusal witPf c.queue 0 0 64 true = none) ∧
    (let c := cmdPf (pathOf wit (svcPlace 0)) 1 (List.replicate 16 0)
     accepts opLogTraceArm c witPf = true ∧ accepts opLogTraceRead c witPf = true ∧ bufferRefusal witPf c.queue 0 0 4096 true = none) ∧
    (let j : Joint := { queue := .mgmt, tag := 1, opcode := 0x3C02, epoch := 0, twinTag := 7, only := false, here := none, there := none, acceptedSent := false }
     (({ wit with cmd := { wit.cmd with joint := [j] } } : State).cmd.joint.find? fun j => j.twinTag == 7) = some j) := by decide +kernel

theorem test_wit_twinVerdicts : ∀ st ∈ [TwinState.protectedSt, .alone, .suspect, .handedOver],
    let v := witTwin st
    let s := { v with power := { v.power with fullService := true }, twin := { v.twin with claimOut := true, before := .protectedSt, witnessReachable := true } }
    s.twin.paired = true ∧ s.twin.linkUp = true ∧ s.twin.state = st ∧ s.power.fullService = true ∧ s.twin.hbAt = none ∧ s.twin.claimOut = true ∧
    s.twin.witSeen < 1 ∧ s.twin.witnessReachable = true ∧ s.twin.before = .protectedSt := by decide +kernel

theorem test_wit_twinLink :
    let s := witTwin .alone
    s.twin.lanes.getLsbD 0 = true ∧ ({ s with twin := { s.twin with lanes := 0 } } : State).twin.lanes.getLsbD 0 = false ∧ bit 2 1 = true ∧
    s.flash.package ≠ 1 ∧ s.twin.leads = false ∧ curEpoch s = 0 ∧ 2 ≤ s.twin.version ∧
    (let u := { s with ports := [(5, { st := .up })] }
     regionUp u (portDie 5) (portRegion 5) = true ∧ (portGet u 5).st = .up ∧ (portGet u 5).lacp = none ∧ twinSettled u = true) := by decide +kernel
theorem test_wit_saState : ∀ inbound ∈ [true, false],
    let a : Sa := { newSa (cmd pkgW 1 []) [] with inbound := inbound, seq := 0 }
    (tget ({ witRun with cry := { witRun.cry with sas := [(3, a)] } } : State).cry.sas 3) = some a ∧ a.inbound = inbound ∧ a.seq < 5 := by decide +kernel

theorem test_wit_faults :
    let sp := mkPlace 1 0 0 9
    let g (r : Bool) : Graft := { source := pathOf witRun (if r then sp else unitP), target := pathOf witRun (if r then unitP else sp), returning := r, healthy := false }
    let w (r : Bool) : State := { witRun with spare := { witRun.spare with grafts := [g r], ledger := [(sp, { state := .suspect, standsFor := unitW })] } }
    outOfService witRun unitP = false ∧ dieUp witRun 1 = true ∧ dark witRun unitP = false ∧ unitGraft witRun unitP = none ∧ dark witRun (mkPlace 1 0 17 3) = false ∧ unitGraft witRun (mkPlace 1 0 17 3) = none ∧ isSpare unitP = false ∧ isCartSlot unitP = false ∧ sparedUnit unitP = some sp ∧
    (claimSuspect sp unitP (cloche unitP witRun)).isSome = true ∧ (claimSuspect sp unitP (cloche unitP (setLedger sp .failed none witRun))).isNone = true ∧
    sparedUnit (mkPlace 1 0 17 3) = none ∧ isSpare (mkPlace 1 0 17 3) = false ∧ outOfService witRun (mkPlace 1 0 17 3) = false ∧
    isSpare sp = true ∧ graftOf (w false) sp = some (g false) ∧ place (g false).source.toNat = unitP ∧ (ledger (w false) sp).state = .suspect ∧
    graftOf (w true) sp = some (g true) ∧ place (g true).target.toNat = unitP ∧
    exposureOf (setLedger sp .free none (unclocheAll unitP (dropGraft sp (w true)))) unitP = none ∧ exposureOf (dropGraft sp (w false)) unitP = none ∧
    levelOf (regionPlace 1 0) = .region ∧ levelOf (diePlace 1) = .die ∧ levelOf (clusterPlace 1 0 0) = .cluster ∧
    levelOf (mkPlace 1 0 17 117) = .unit ∧ outOfService witRun (mkPlace 1 0 17 117) = false := by decide +kernel

theorem test_wit_link : ∀ st ∈ [LinkState.searching, .settling, .up, .held], ∀ w ∈ [true, false],
    let s := witPort { st := st, rate := 2, fecWait := w, localFault := w }
    regionUp s (portDie 1023) (portRegion 1023) = true ∧ (portGet s 1023).st = st ∧ (portGet s 1023).rate = 2 ∧ (portGet s 1023).fecWait = w ∧
    hasFault (portGet s 1023) = w ∧ (portGet s 1023).loopHeld = false ∧ (portGet s 1023).lock = none ∧ rateOn s 1023 3 = true ∧
    (let t := { s with cart := { s.cart with slots := [(14, { lasers := [(15, { target := 1280 })] })] } }
     laneDark t 1023 = false ∧ (portGet t 1023).st = st) ∧
    (portGet (witPort { lock := some 3 }) 1023).lock ≠ none := by decide +kernel

theorem test_wit_portFrames : ∀ w ∈ [true, false],
    let s := witPort { st := .up, loopHeld := w, syncRx := 1, syncTx := 2 }
    regionUp s (portDie 1023) (portRegion 1023) = true ∧ (portGet s 1023).st = .up ∧ (portGet (fcCheck 1023 s) 1023).st = .up ∧
    (portGet s 1023).loopHeld = w ∧ (portGet s 1023).dcbxAbsent = false ∧ ((portGet s 1023).partner.bind fun q => q.pfc) = none ∧
    (portGet s 1023).syncRx ≠ 0 ∧ (portGet s 1023).syncTx ≠ 0 ∧ maxFrame s 1023 = 9600 := by decide +kernel

theorem test_wit_passes :
    (let s := witFlowing (.port 1023 0) (voqKey 4 1023 0)
     pipeRuns s 15 3 = true ∧ (takePacket 15 3 s).isSome = true ∧ regionUp s (portDie 1023) (portRegion 1023) = true ∧ macUp s 1023 = true ∧
     (portPipe s 1023).isSome = true ∧ portOpen s 1023 = true ∧ usesSak s 1023 = false ∧ nowUs s ≤ 0 + holdUs s ∧ egressProg s 1023 1 none = none) ∧
    (let s := witPort {}
     let f (l : List (Packet × Nat)) : FragEntry := { region := 1, key := [1], st := 0, l4 := [], drop := false, held := l, touched := 0 }
     fragGet { s with tbl := { s.tbl with frags := [f [(witPkt, 0)]] } } 1 [1] = some (f [(witPkt, 0)]) ∧
     fragGet { s with tbl := { s.tbl with frags := [f []] } } 1 [1] = some (f [])) := by decide +kernel
theorem test_wit_schedule :
    let s := witFlowing (.port 1023 0) (voqKey 4 1023 0)
    let t := { s with cfg := { s.cfg with live := [{ num := 1, tag := 0, stopped := none, words := [(portAddr 1023 0, 0x4807F), (portAddr 1023 0x400, 1)] }] } }
    (schedule t 1023).isSome = true ∧ macUp t 1023 = true ∧ (portPipe t 1023).isSome = true := by decide +kernel
theorem test_wit_delivery :
    let w := pathOf witRun (svcPlace 0)
    let v := witFlowing (.chan 3 w) (deliveryKey 4 4 0)
    let s := { v with svc := { v.svc with clusters := [(0, { chans := [(3, { cfg := 0x10000003F03 + 4 * 15 })] })] } }
    (queueGet s (deliveryKey 4 4 0)).length = 1 ∧ svcIndex (place w.toNat) = 0 ∧ (storedOf s 7).isSome = true ∧
    (let t := queueSet (deliveryKey 4 4 0) [] s
     outOfService t (svcPlace 0) = false ∧ hasCluster (pDie (svcPlace 0)) (pRegion (svcPlace 0)) (pCluster (svcPlace 0)) = true ∧
     (extItem 0 3 1 0 witPkt.bytes (witPkt.md.take 32) t).2 = .delivered) := by decide +kernel
theorem test_wit_twinPacket (k : Nat) :
    let v := witTwin .protectedSt
    let s := { v with cfg := { v.cfg with live := [{ num := 1, tag := 0, stopped := none, words := [] }] }
                      tbl := { v.tbl with lags := [(2, [{ born := none, died := none, val := { members := [], table := List.replicate 256 5 } }])] } }
    twinSettled s = true ∧ 1 ∈ lookEpochs s ∧ lagAt s 1 2 = some { members := [], table := List.replicate 256 5 } ∧
    (List.replicate 256 5).getD (k % 256) 1024 < 1024 := by
  refine ⟨by decide, by decide, by decide, ?_⟩
  have h : k % 256 < 256 := Nat.mod_lt _ (by decide)
  simp only [List.getD_eq_getElem?_getD, List.getElem?_replicate, h]
  decide

theorem test_wit_mka : ∀ l ∈ [[({ sci := 1, priority := 0, suites := 0, heard := 0, pn := 0 } : MkaPeer)],
      [{ sci := 1, priority := 0, suites := 0, heard := 0, pn := 0 }, { sci := 2, priority := 0, suites := 0, heard := 0, pn := 0 }]],
    let s := { witMka with boot := witRun.boot, cry := { witMka.cry with mka := [(1023, { cak := some ([], []), peers := l })] } }
    regionUp s (portDie 1023) (portRegion 1023) = true ∧ (portGet s 1023).st = .up ∧ runsMka s 1023 = true ∧
    (mkaOf (mkaMod 1023 (fun m => { m with cnt := tadd m.cnt 20 1 }) s) 1023).cak ≠ none ∧
    runsMka (mkaMod 1023 (fun m => { m with cnt := tadd m.cnt 20 1 }) s) 1023 = true ∧ ((mkaOf s 1023).peers.any fun x => x.sci == 1) = true ∧
    ((mkaOf s 1023).peers.all fun x => x.sci == 1) = decide (l.length = 1) := by decide +kernel
theorem test_wit_crypto :
    (let s := { witCry (witJob false false) false with mem := { (witCry (witJob false false) false).mem with trained := [0, 1, 2] } }
     needsRecord s 15 = some 0 ∧ (thas s.cry.holder 3 = true ∨ ddr5Up s = true) ∧ (s.cry.holder.filter fun e => e.2 == 15).length < 4096) ∧
    (takeJob 15 false false (witCry (witJob false false) true)).isSome = true ∧ tget (witCry (witJob false false) true).cry.sas 3 = some (witSa false) := by decide +kernel
/-- An IPv4 packet with ESP payload of 40 bytes in transport mode. -/
def espPkt : Packet := { witPkt with bytes := List.replicate 12 0 ++ [8, 0, 0x45, 0, 0, 60] ++ List.replicate 16 0 ++ be 4 0 ++ be 4 1 ++ List.replicate 32 0 }
theorem test_wit_decrypt :
    let s := witCry { witJob false true with pkt := espPkt } true
    (takeJob 15 false true s).isSome = true ∧ ((takeJob 15 false true s).any fun e => (espAt e.2 espPkt) == some { v6 := false, ip := 14, l4 := 34, nhAt := 23, stop := 74 }) = true ∧
    34 + 34 ≤ 74 ∧ rdN espPkt.bytes 34 4 = (witSa true).spi ∧ replayOk (witSa true) (espSeq (witSa true) (rdN espPkt.bytes 38 4)) = true ∧
    (witSa true).inbound = true ∧ (witSa true).tunnel = false ∧ (witSa true).udpEncap = false ∧ rd (fitTo 8 (List.replicate 8 0)) 6 1 + 2 ≤ 8 := by decide +kernel
/-- A TCP segment of 3 bytes, with its headers recorded. -/
def tcpPkt : Packet := { witPkt with bytes := List.replicate 12 0 ++ [8, 0, 0x45, 0, 0, 43] ++ List.replicate 20 0 ++ be 4 9 ++ be 4 0 ++ [0x50, 0] ++ List.replicate 6 0 ++ [1, 2, 3]
                                     slots := [(3, (14, [])), (7, (34, []))] }
theorem test_wit_tlsSegments : ∀ d ∈ [false, true],
    let h : TlsHalf := { newHalf (cmd pkgW 1 []) [] with nextTcp := 9, st := 1, keyFault := false }
    let v := witCry { witJob true d with pkt := tcpPkt } true
    let s := { v with cry := { v.cry with tls := [(tlsKey 0 3 0, h), (tlsKey 0 3 1, h)], holder := [(2 ^ 21 + 3, 15)] } }
    (takeTls 15 d s).isSome = true ∧ ((segmentOf tcpPkt).any fun e => rdN tcpPkt.bytes (e.1.l4 + 4) 4 == h.nextTcp && decide (e.2.1 < e.2.2)) = true ∧
    (rxScan { h := h, ends := [] } [1, 2, 3] []).cause = 0 := by decide +kernel

/-- Link 0 up. -/
def witLink : State := { witRun with host := { witRun.host with links := [(0, { up := true, l0pEnable := true, l1Enable := true })] } }
theorem test_wit_hostLink :
    halfExists witLink 0 0 = true ∧ halfExists witLink 3 0 = true ∧ (linkOf witLink 0 0).up = true ∧ readsOut witLink 0 0 = 0 ∧
    linkQueued witLink 0 0 = false ∧ (linkOf witLink 0 0).l0pEnable = true ∧ (linkOf witLink 0 0).l1Enable = true ∧
    (linkFns witLink 0 0).any (doorbellOpen witLink) = false := by decide +kernel

/-- PF 0 of link 0 with a read outstanding, a reset under way, or a window onto memory at address 0. -/
def witPfFn (g : Func) : State := { witRun with host := { witRun.host with funcs := [(fnKey witFnPf, g)] } }
/-- The PFs of link 0 may read and write a page range of memory. -/
def witGrant (s : State) : State := { s with prot := { s.prot with dies := [(ownerDie 0x400000000000, { ranges :=
  [(0, 7 + 256 * pfCode witFnPf + 2 ^ 16 * 0x400000000 + 2 ^ 64 * 0x4FFFFFFFF)] })] } }
def witRead (st : Nat) : Read := { tag := 5, use := .channel 56, addr := 0, len := 64, st := st }
theorem test_wit_functionStates :
    fnExists (witPfFn {}) witFnPf = true ∧ fnExists (witPfFn {}) { witFnPf with link := 3, pool := 1 } = true ∧
    (funcOf (witPfFn {}) witFnPf).vf ≠ .shuttingDown ∧ (funcOf (witPfFn {}) witFnPf).bme = false ∧
    (funcOf (witPfFn { bme := true, reads := [witRead 0] }) witFnPf).bme = true ∧
    ((funcOf (witPfFn { bme := true, reads := [witRead 0] }) witFnPf).reads.filter fun r => r.st == 0).length = 1 ∧
    (funcOf (witPfFn { resetting := true }) witFnPf).resetting = true ∧ (funcOf (witPfFn { resetting := true }) witFnPf).vfDeferred = false := by decide +kernel
theorem test_wit_functionVf :
    let f : Fn := { witFnPf with num := 1 }
    let s := { witRun with host := { witRun.host with funcs := [(fnKey witFnPf, { vfEnable := true, numVfs := 1 }), (fnKey f, { vf := .shuttingDown })] } }
    let t := { witRun with host := { witRun.host with funcs := [(fnKey witFnPf, { vfDeferred := true }), (fnKey f, { resetting := true })] } }
    let u := funcMod f (fun g => { g with resetting := false, vf := .disabled }) t
    fnExists s f = true ∧ (funcOf s f).vf = .shuttingDown ∧ (funcOf t f).resetting = true ∧ (funcOf u (pfOf f)).vfDeferred = true ∧
    vfsResetting u f = false ∧ halfExists t f.link f.half = true := by decide +kernel

theorem test_wit_function :
    fnExists (witPfFn {}) witFnPf = true ∧ ((funcOf (witPfFn {}) witFnPf).reads.find? fun r => r.tag == 5) = none ∧
    ((funcOf (witPfFn { reads := [witRead 0] }) witFnPf).reads.find? fun r => r.tag == 5) = some (witRead 0) ∧
    ((funcOf (witPfFn { reads := [witRead 2] }) witFnPf).reads.find? fun r => r.tag == 5) = some (witRead 2) := by decide +kernel
theorem test_wit_window :
    let s := witGrant (witPfFn { active := [(0, 0x400000000007), (63, 0x400000000007)] })
    ∀ off ∈ [0, 63 * 2 ^ 24 + 2 ^ 24 - 64], let k := 2 ^ s.host.winLog2; let e := tgetD (funcOf s witFnPf).active (off / k) 0; let a := fld e 12 36 * 4096 + off % k
      bit e 0 = true ∧ bit e 1 = true ∧ bit e 2 = true ∧ off / k < 64 ∧ off / k = (off + 64 - 1) / k ∧ isMemory a 64 = true ∧
      rangeGrants s (pfCode witFnPf) a 64 false = true ∧ rangeGrants s (pfCode witFnPf) a 64 true = true ∧ poisonHit s a 64 = none ∧ poisonBlocks s a 64 = false := by decide +kernel
theorem test_wit_commit :
    let s := witGrant (witPfFn { shadow := [(0, 0x400000000007), (1, 0x400001000007)] })
    (funcOf s witFnPf).winBusy = false ∧ winRefuses s witFnPf (tgetD (funcOf s witFnPf).shadow 0 0) = false ∧
    (((List.range 64).filter fun n => bit 3 n).find? fun n => winRefuses s witFnPf (tgetD (funcOf s witFnPf).shadow n 0)) = none ∧
    (let t := witPfFn { shadow := [(1, 0x1007)] }
     (((List.range 64).filter fun n => bit 3 n).find? fun n => winRefuses t witFnPf (tgetD (funcOf t witFnPf).shadow n 0)) = some 1) := by decide +kernel

/-- Queue 15 of PF 0 of link 0, enabled with a ring of 16 slots. -/
def witCq (cfg tail : Nat) : State := witPfFn { bme := true, queues := [(15, { cfg := cfg, tail := tail })] }
theorem test_wit_queue :
    fnQueueOk witFnPf 15 = true ∧ fnExists (witCq 0x41 0) witFnPf = true ∧
    (let t := cqMod witFnPf 15 (fun c => { c with tail := 1 }) (witCq 0x41 0); let c := cqOf t witFnPf 15
     bit c.cfg 0 = true ∧ c.error = false ∧ (c.tail + 65536 - c.head) % 65536 = 1 ∧ cqSize c.cfg = 16 ∧ rqRoom c = true ∧ fnRuns t witFnPf = true ∧
     canIssue t witFnPf = true ∧ (ringTake (fnQueue witFnPf 15) 1 c.head (le 2 1 ++ List.replicate 8 0 ++ [1] ++ List.replicate 53 0) 1).2 = (1, false)) ∧
    (let t := cqMod witFnPf 15 (fun c => { c with tail := 17 }) (witCq 0x41 0); let c := cqOf t witFnPf 15
     cqSize c.cfg < (c.tail + 65536 - c.head) % 65536) ∧ cqRunning (witCq 0x40 1) witFnPf 15 = false ∧ cqCfgOk (witCq 0x40 1) witFnPf 0x40 = true ∧ cqCfgOk (witCq 0x41 1) witFnPf 0x40 = true ∧
    (let t := cqMod witFnPf 15 (fun c => { c with cfg := setBit (and32 0x40 0x3FFF3) 0, running := true, error := false, cause := 0 }) (witCq 0x40 1)
     let c := cqOf t witFnPf 15
     bit c.cfg 0 = true ∧ (c.tail + 65536 - c.head) % 65536 = 1 ∧ (ringTake (fnQueue witFnPf 15) 1 c.head (le 2 1 ++ List.replicate 8 0 ++ [1] ++ List.replicate 53 0) 1).2 = (1, false)) ∧
    (let t := cqMod witFnPf 15 (fun c => { c with rqHead := 5 }) (witCq 0x41 0)
     let u := flushReplies witFnPf 15 ((cqOf t witFnPf 15).backlog.length + 1) t
     (cqOf u witFnPf 15).tail = (cqOf u witFnPf 15).head ∧ (cqOf u witFnPf 15).head < 65536) ∧
    queueBusy witRun (.oob 3) < 16 ∧ 64 * slotsTaken (cmdOf (.oob 3) 0 (List.replicate 64 0)).2.slots ≤ 64 := by decide +kernel

/-- PF 1 of link 0 with a controller, memory trained, and namespace 0 attached to it. -/
def witCtl : Fn := { link := 0, half := 0, pool := 1, num := 0 }
def witAtt : Attach := { witAttach false with who := .controller witCtl, nsid := 1, write := true }
def witNvme (n : Nvme) : State := { witSto 1 [witAtt] with
  mem := { (witSto 1 []).mem with trained := [0, 1, 2, 3, 4, 5, 6, 7] }
  host := { (witSto 1 []).host with funcs := [(fnKey witCtl, { bme := true })] }
  sto := { (witSto 1 [witAtt]).sto with nvme := [(fnKey witCtl, n)] } }
def witReady : Nvme := { cc := 1, ready := true, sqs := [(0, { base := 0, size := 32, cq := 0, tail := 1, head := 0 }), (1, { base := 0, size := 32, cq := 1, tail := 1, head := 0 })]
                         cqs := [(0, { base := 0, size := 32, vector := 0, ien := true, tail := 0, head := 0, phase := true, since := 0, timer := false }),
                                 (1, { base := 0, size := 32, vector := 1, ien := true, tail := 0, head := 0, phase := true, since := 0, timer := false })] }
theorem test_wit_controller :
    isNvme (witNvme {}) witCtl = true ∧ ccEnabled (nvmeOf (witNvme {}) witCtl) = false ∧ ccEnabled (nvmeOf (witNvme witReady) witCtl) = true ∧
    (nvmeOf (witNvme witReady) witCtl).shst = 0 ∧ (tget (nvmeOf (witNvme witReady) witCtl).sqs 1).isSome = true ∧
    ((tget (nvmeOf (witNvme witReady) witCtl).cqs 1).any fun x => x.size == 32) = true ∧ bit 0x4001 0 = true ∧ fld 0x4001 14 2 = 1 ∧ fld 0x8001 14 2 = 2 := by decide +kernel

/-- A submission entry: opcode, namespace, dwords 10, 11 and 12. -/
def witEntry64 (opc nsid d10 d11 d12 : Nat) : Bytes :=
  [byte opc, 0] ++ le 2 9 ++ le 4 nsid ++ List.replicate 32 0 ++ le 4 d10 ++ le 4 d11 ++ le 4 d12 ++ List.replicate 12 0
theorem test_wit_admin :
    nvmeMay (witNvme witReady) witCtl 0 = true ∧
    (let t := takeEntry witCtl 0 (witNvme witReady)
     (∀ d ∈ [0, 1], fld (rd (witEntry64 6 1 d 0 0) 1 1) 6 2 = 0 ∧ enOpc (witEntry64 6 1 d 0 0) = 6 ∧ fld (enDw (witEntry64 6 1 d 0 0) 10) 0 8 = d ∧
       enNsid (witEntry64 6 1 d 0 0) = 1 ∧ (match dataSegs (nvmePage (nvmeOf t witCtl)) (witEntry64 6 1 d 0 0) [] identifyController.length with | .inr _ => true | .inl _ => false) = true) ∧
     attachOf t (.controller witCtl) 1 = some witAtt ∧ (tget t.sto.nss 0).isSome = true ∧ (identifyNs (witNs 1)).length = 4096 ∧
     hasIoQueue (nvmeOf t witCtl) = true ∧ hasIoQueue (nvmeOf (takeEntry witCtl 0 (witNvme { witReady with sqs := [(0, { base := 0, size := 32, cq := 0, tail := 1, head := 0 })], cqs := [] })) witCtl) = false ∧
     thas (nvmeOf t witCtl).cqs 2 = false ∧ thas (nvmeOf t witCtl).sqs 2 = false ∧ thas (nvmeOf t witCtl).cqs 1 = true ∧ thas (nvmeOf t witCtl).sqs 1 = true ∧
     2 ≤ shareQ t witCtl ∧ 1 < shareV t witCtl ∧ bit (enDw (witEntry64 5 0 (2 + 65536) (1 + 65536) 0) 11) 0 = true ∧
     fld (enDw (witEntry64 5 0 (2 + 65536 * 4095) (1 + 65536) 0) 10) 16 16 + 1 = 4096 ∧ rd (witEntry64 5 0 (2 + 65536) (1 + 65536) 0) 24 8 % nvmePage (nvmeOf t witCtl) = 0 ∧
     ((nvmeOf (takeEntry witCtl 0 (witNvme { witReady with sqs := [(0, { base := 0, size := 32, cq := 0, tail := 1, head := 0 })] })) witCtl).sqs.any fun x => x.2.cq == 1) = false) := by decide +kernel
theorem test_wit_abort :
    let c : StoCmd := { id := 0, who := .controller witCtl, sq := 1, cid := 9, ns := 0, opc := 1, ranges := [], path := 0, conn := 0, sent := false, unknown := false
                        orphan := false, entry := [], data := [], segs := [], md := 0 }
    let v := witNvme witReady
    let t := takeEntry witCtl 0 { v with sto := { v.sto with cmds := [c] } }
    ((t.sto.cmds.find? fun c => c.who == .controller witCtl && c.sq == 1 && c.cid == 9 && !c.sent && !c.unknown && !c.orphan).isSome) = true ∧
    ((t.sto.cmds.find? fun c => c.who == .controller witCtl && c.sq == 1 && c.cid == 8 && !c.sent && !c.unknown && !c.orphan).isNone) = true := by decide +kernel

theorem test_wit_nvmeQueues :
    nvmeMay (witNvme witReady) witCtl 0 = true ∧
    (let t := takeEntry witCtl 0 (witNvme witReady)
     thas (nvmeOf t witCtl).cqs 1 = true ∧ thas (nvmeOf t witCtl).sqs 1 = true ∧ enOpc (witEntry64 5 0 (2 + 65536) (1 + 65536) 0) = 5 ∧
     1 ≤ shareQ t witCtl ∧ enOpc (witEntry64 1 0 2 1 0) = 1 ∧ enOpc (witEntry64 0 0 1 0 0) = 0 ∧ enOpc (witEntry64 4 0 1 0 0) = 4) := by decide +kernel

theorem test_wit_io :
    nvmeMay (witNvme witReady) witCtl 1 = true ∧
    (let t := takeEntry witCtl 1 (witNvme witReady)
     ∀ o ∈ [0, 1, 2, 5, 8, 9], let e := witEntry64 o 1 0 0 0
       fitTo 64 e = e ∧ enOpc e = o ∧ nsFull (witNvme witReady) witCtl e = false ∧ attachOf t (.controller witCtl) (enNsid e) = some witAtt ∧
       (tget t.sto.nss 0).isSome = true ∧ nsShown t (witNs 1) = 1 ∧ dataLen (witNs 1) e ≤ 1048576 ∧
       (match hostSegs t witCtl e [] (witNs 1) with | .inr _ => true | .inl _ => false) = true) := by decide +kernel
theorem test_wit_bedRead :
    let v := witNvme witReady
    let s := { v with sto := { v.sto with attach := [witAttach false] }, svc := (witBed .running {}).svc }
    let e := witEntry64 2 1 0 0 0
    storageUp s = true ∧ attachOf s (.bed 0) (enNsid e) = some (witAttach false) ∧ nsShown s (witNs 1) = 1 := by decide +kernel
theorem test_wit_target : ∀ o ∈ [1, 2],
    let c : StoCmd := { id := 7, who := .controller witCtl, sq := 1, cid := 9, ns := 0, opc := o, ranges := [], path := 0, conn := 0, sent := true, unknown := false
                        orphan := false, entry := witEntry64 o 1 0 0 0, data := [], segs := [], md := 0 }
    let v := witNvme witReady
    let s := { v with sto := { v.sto with cmds := [c] } }
    (s.sto.cmds.find? fun c => c.id == 7 && c.sent) = some c ∧
    (match readData (witNs 1) c.entry [] [] with | .inl _ => true | .inr _ => false) = true := by decide +kernel

theorem test_wit_paths :
    tget (witNvme {}).sto.paths 0 = some witPath ∧ witPath.st ≠ .live ∧ storageUp (witNvme {}) = true ∧
    (let c : StoCmd := { id := 7, who := .controller witCtl, sq := 1, cid := 9, ns := 0, opc := 1, ranges := [], path := 0, conn := 0, sent := true, unknown := false
                         orphan := false, entry := [], data := [], segs := [], md := 0 }
     let s := { witNvme {} with sto := { (witNvme {}).sto with paths := [(0, { witPath with st := .live, transport := 1 })], cmds := [c], nss := [(1023, witNs 2)] } }
     (tget s.sto.paths 0).any (fun x => x.st == .live && x.transport == 1) = true ∧ pathSent s 0 ≠ 0 ∧ (tget s.sto.nss 1023).any (fun n => n.st == 2) = true) := by decide +kernel

/-- The ends of channels 16 and 31: management and the recovery key store, a bed and a PF. -/
def witMbx (m : Mbx) : State := { witRun with prot := { witRun.prot with mbx := [(16, mbxWord 64 71), (31, mbxWord 32 0)] }, mbx := [(16, m), (31, m)] }
theorem test_wit_mailbox : ∀ c ∈ [16, 31],
    (mbxSender (witMbx {}) c).isSome = true ∧ (mbxReceiver (witMbx {}) c).isSome = true ∧ (mbxOf (witMbx {}) c).recvReset = false ∧ (mbxOf (witMbx {}) c).full = false ∧
    (mbxOf (witMbx { full := true }) c).full = true ∧ (mbxOf (witMbx { recvReset := true }) c).recvReset = true := by decide +kernel

/-- Memory in use on three channels; its boot code has run. -/
def witDdr : State := { witRun with
  boot := { witRun.boot with romDone := true }
  mem := { witRun.mem with trained := [0, 1, 11], chans := [(0, { st := 1 }), (1, { st := 1 }), (11, { st := 1, hot := [(1, 2)] })] } }
theorem test_wit_memory :
    (let s := { witDdr with mem := { witDdr.mem with trained := [] } }; s.mem.trained = [] ∧ s.boot.romDone = true) ∧
    ddr5Up witDdr = true ∧ (memCh witDdr (channelAt witDdr 0x400000000000)).st = 1 ∧ (memCh witDdr 11).st = 1 ∧
    bit (tgetD (memCh witDdr 11).hot 1 0) 1 = true := by decide +kernel

/-- A power phase, and phases of the dies. -/
def witPower (f : PowerS → PowerS) (ph : List (Nat × DiePhase)) : State := { witRun with power := f { witRun.power with pwrOk := true }, boot := { witRun.boot with phase := ph, mgmtRuns := true } }
theorem test_wit_power :
    State.reset.power.pwrOk = false ∧ (witPower id []).power.pwrOk = true ∧ (witPower (fun p => { p with resetN := true }) []).power.resetN = true ∧
    (witPower (fun p => { p with resetN := false, shutdown := 0 }) []).power.resetN = false ∧ (witPower (fun p => { p with shutdown := 0 }) []).power.shutdown = 0 ∧
    diePhase (witPower id [(4, .inReset)]) 4 = .inReset ∧ ((span 1 4).all fun k => diePhase (witPower id [(4, .inReset)]) k != .windowOpen) = true ∧
    diePhase (witPower id [(0, .windowOpen)]) 0 = .windowOpen ∧ diePhase (witPower id [(4, .windowOpen)]) 4 = .windowOpen ∧
    diePhase (witPower id [(4, .starting)]) 4 = .starting ∧
    (let s := witPower (fun p => { p with fullService := false }) [(0, .inService)]; s.power.fullService = false ∧ dieUp s 0 = true ∧ s.boot.mgmtRuns = true) ∧
    (witPower (fun p => { p with shutdown := 3 }) []).power.shutdown = 3 ∧ (witPower (fun p => { p with shutdown := 5 }) []).power.shutdown = 5 ∧
    (witPower (fun p => { p with restartDue := some 3 }) []).power.restartDue = some 3 ∧
    (let s := witPower (fun p => { p with dieRestart := some 4 }) [(4, .draining)]; s.power.dieRestart = some 4 ∧ diePhase s 4 = .draining) ∧
    diePhase (witPower (fun p => { p with dieRestart := some 4 }) [(4, .copying)]) 4 = .copying := by decide +kernel
theorem test_wit_fullService :
    let s := { witPower (fun p => { p with fullService := false, cause := 1 }) [(0, .inService)] with therm := { witRun.therm with trip := none } }
    (reportTrip (raise 0x0005 g0Place [1, 0, 0, 0] s)).power.cause ≠ 4 := by decide +kernel

/-- A configured time source, with all references present, and port 1,023 a boundary port. -/
def witTime (src : Nat) (set : Bool) : State := { witRun with
  cfg := { witRun.cfg with live := [{ num := 1, tag := 0, stopped := none, words := [(portAddr 1023 0x140, 1), (cfgBase + 0x300, BitVec.ofNat 32 (src + 256 * 24))] }] }
  time := { witRun.time with refPresent := true, ppsPresent := true, masterPresent := true, todSet := set, locked := false }
  log := { witRun.log with intake := [{ code := 5, path := 0, words := [] }] } }

theorem test_wit_registers :
    fnExists witRun { witFnPf with link := 3, pool := 1 } = true ∧ wordAccess 2 4 = false ∧ wordAccess 0x1FFFF8 8 = true ∧
    (let a := portAddr 1023 0x20
     let s := { witRun with prot := { witRun.prot with dies := [(ownerDie a, { ranges := [(255, 7 + 2 ^ 16 * (a / 4096) + 2 ^ 64 * (a / 4096))] })] } }
     rangeGrants s 0 a 4 true = true ∧ rangeGrants s 0 a 4 false = true ∧ isAreaEvent a = true ∧ inBlock a svcBase (0x10000 * 85) = false ∧ a % 4 = 0 ∧ wordAccess a 4 = true ∧
     rangeGrants s 1 a 4 true = false ∧ rangeGrants s 1 a 4 false = false) := by decide +kernel
theorem test_wit_time : (∀ k ∈ [1, 2, 3], timeSource (witTime k true) = k ∧ refsPresent (witTime k true) = true) ∧
    (witTime 1 true).time.refPresent = true ∧ (witTime 2 true).time.ppsPresent = true ∧ (witTime 3 true).time.masterPresent = true ∧ timeLocked (witTime 1 true) = false ∧
    (witTime 1 true).log.intake.length = 1 ∧ fld (portNow (witTime 3 true) 1023 0x140) 0 2 = 1 ∧ fld (cfgNow (witTime 3 true) (cfgBase + 0x300)) 8 8 = 24 ∧
    (witTime 3 false).time.todSet = false ∧ (witTime 3 true).power.thermtrip = false := by decide +kernel

/-- A packet of queue 0 of the first PF waits. -/
def witWaits (code : Nat) (c : Cmd) : State := { witPf with waiting := [(code, c)] }
theorem test_wit_waits :
    (witWaits 1 (cmdPf pkgW 1 [])).pending = [] ∧ nextPacket witPf witPf.waiting [] = none ∧
    nextPacket (witWaits 1 (cmdPf pkgW 1 [])) [(1, cmdPf pkgW 1 [])] [] = some (1, cmdPf pkgW 1 []) ∧ instrOf 1 (cmdPf pkgW 1 []) = some (.sysNop (cmdPf pkgW 1 [])) ∧
    nextPacket (witWaits 0 (cmdPf pkgW 1 [])) [(0, cmdPf pkgW 1 [])] [] = some (0, cmdPf pkgW 1 []) ∧ instrOf 0 (cmdPf pkgW 1 []) = none ∧ (witWaits 0 (cmdPf pkgW 1 [])).power.shutdown < 3 ∧
    1 ≤ (cmdPf pkgW 1 []).slots ∧ (cmdPf pkgW 1 []).slots ≤ 16 ∧ fld (cmdPf pkgW 1 []).flags.toNat 4 4 = 0 ∧ (cmdPf pkgW 1 []).rsvd = 0 ∧ (cmdPf pkgW 1 []).staged = false := by decide +kernel

theorem test_wit_step : memOk State.reset ∧ (∃ t, step State.reset = .next t) ∧ (∃ t, step { State.reset with pending := [.tkRefLoss] } = .next t) :=
  ⟨rfl, ⟨_, rfl⟩, ⟨_, rfl⟩⟩

theorem test_wit_retired : { State.reset with boot := { State.reset.boot with lifecycle := .retired } }.boot.lifecycle = .retired := rfl

theorem test_wit_touched : Part.mem ∉ touched .tkRefLoss ∧ Part.ports ∉ touched (.mbxSend 0 0) ∧ (∃ t, exec .tkRefLoss State.reset = .next t) := by
  refine ⟨by decide, by decide, ⟨_, rfl⟩⟩

theorem test_wit_checks :
    witPf.power.shutdown < 3 ∧ witPf.boot.mgmtRuns = true ∧ witPf.twin.state ≠ .suspect ∧ witPf.boot.recovery = false ∧ (cmdPf pkgW 1 []).fence = false ∧
    instrOf 1 (cmdPf pkgW 1 []) = some (.sysNop (cmdPf pkgW 1 [])) ∧ tagInUse witPf (cmdPf pkgW 1 []).queue (cmdPf pkgW 1 []).tag.toNat = false ∧ queueCarries (cmdPf pkgW 1 []).queue 1 = true ∧
    grantsClass witPf (requester witPf (cmdPf pkgW 1 []).queue) 0 = true ∧ grantsClass { witPf with prot := { witPf.prot with req := [] } } (requester witPf (cmdPf pkgW 1 []).queue) 0 = false ∧
    tagInUse { witPf with cmd := { witPf.cmd with owed := [{ queue := (cmdPf pkgW 1 []).queue, tag := (cmdPf pkgW 1 []).tag.toNat, opcode := 1, epoch := 0, key := 0, accepted := true }] } }
      (cmdPf pkgW 1 []).queue (cmdPf pkgW 1 []).tag.toNat = true := by decide +kernel
theorem test_wit_vfNames : let c := { cmdPf pkgW 1 (le 4 0x300) with queue := .vf 0 0 0 1 }
    queueCarries c.queue 0x1C01 = true ∧ namesOwn c 0x1C01 = false ∧ queueCarries c.queue 0x1C02 = false := by decide +kernel

theorem test_wit_mailboxRules : ∀ c ∈ [16, 31],
    (mbxSender (witMbx {}) c).isSome = true ∧ (mbxOf (witMbx {}) c).recvReset = false ∧ (mbxOf (witMbx {}) c).full = false ∧
    (mbxOf (witMbx { full := true }) c).full = true := by decide +kernel

theorem test_wit_map : State.reset.boot.lifecycle = .deployed ∧
    (let s := { State.reset with boot := { State.reset.boot with imageA := { State.reset.boot.imageA with owner := { State.reset.boot.imageA.owner with ranges := [(1, [(0, 7 + 256 * 70)])] } } } }
     (0, rangeWritten s (7 + 256 * 70)) ∈ (dieProt (writeMap 1 s) 1).ranges ∧ fld (rangeWritten s (7 + 256 * 70)) 8 8 = 70) := by decide +kernel

theorem test_wit_endpoints :
    let x : Endpoint := (List.replicate 16 0, 65535); let y : Endpoint := (List.replicate 15 0 ++ [1], 0)
    x.1.length = 16 ∧ y.1.length = 16 ∧ x.2 < 65536 ∧ y.2 < 65536 ∧ ofBe (x.1 ++ be 2 x.2) ≤ ofBe (y.1 ++ be 2 y.2) := by decide +kernel

theorem test_wit_heldLock :
    let s := witBed .running { threads := [(1, { st := .running, regs := [(8, 1)] })], locks := [(1, { holder := some (0, 1) })] }
    (threadOf s 0 1).st = .running ∧ lockNamed s 0 (xv s 0 1 8) = some (0, 1) ∧ (lockOf s 0 1).holder = some (0, 1) := by decide +kernel

theorem test_wit_stores :
    let s := witGrant (witPfFn { active := [(0, 0x400000000007)] })
    let k := 2 ^ s.host.winLog2
    let e := tgetD (funcOf s witFnPf).active (0 / k) 0
    Memory.wf s.mem.cells = true ∧ fnExists s witFnPf = true ∧ bit e 0 = true ∧ bit e 2 = true ∧ 0 / k = (0 + 64 - 1) / k ∧ isMemory (fld e 12 36 * 4096 + 0 % k) 64 = true ∧
    rangeGrants s (pfCode witFnPf) (fld e 12 36 * 4096 + 0 % k) 64 true = true ∧ poisonBlocks s (fld e 12 36 * 4096 + 0 % k) 64 = false := by decide +kernel
theorem test_wit_logStore : memOk witDdr ∧ ddr5Up witDdr = true ∧ ∃ t, exec .logAppend witDdr = .next t := ⟨rfl, by decide, _, rfl⟩

/-- A command packet: a lost queue, slots that do not hold the parameters, a queue past 15, a VF 0, an out-of-band queue 4, a cluster 85 (R431, R438). -/
theorem test_refuses_cmd : ([
    .sysNop { cmd pkgW 1 (List.replicate 48 0) with queue := .lost .mgmt },
    .sysNop (cmd pkgW 256 (List.replicate 16368 0)),
    .sysNop (cmd pkgW 2 (List.replicate 48 0)),
    .sysNop { cmd pkgW 1 (List.replicate 48 0) with queue := .pf 0 0 0 16 },
    .sysNop { cmd pkgW 1 (List.replicate 48 0) with queue := .pf 4 0 0 0 },
    .sysNop { cmd pkgW 1 (List.replicate 48 0) with queue := .vf 0 0 0 0 },
    .sysNop { cmd pkgW 1 (List.replicate 48 0) with queue := .vf 0 0 0 129 },
    .sysNop { cmd pkgW 1 (List.replicate 48 0) with queue := .oob 4 },
    .sysNop { cmd pkgW 1 (List.replicate 48 0) with queue := .twin 2 },
    .sysNop { cmd pkgW 1 (List.replicate 48 0) with queue := .bed 85 }] : List Instr).all (fun i => !i.wf) = true := by decide +kernel

/-- An event of an element that no package has: units, spares, elements, die links (R5-R9). -/
theorem test_refuses_elements : ([
    .unitFault (diePlace 0),
    .unitFault (mkPlace 0 2 8 0),
    .graftComplete (mkPlace 1 0 0 0),
    .elementLoss (mkPlace 5 15 31 127),
    .dieLinkQuarterFail (mkPlace 1 0 17 116) 0,
    .dieLinkQuarterFail (mkPlace 1 0 17 117) 4,
    .sysDrained (mkPlace 7 15 31 127),
    .governorScan 5 [] 0,
    .scheduledExposure (mkPlace 7 15 31 127) 0,
    .referenceCheck (mkPlace 1 0 31 127) 0 true 0] : List Instr).all (fun i => !i.wf) = true := by decide +kernel

/-- An event of a port past 1,023, or with an operand out of its range (R11, R77-R110). -/
theorem test_refuses_ports : ([
    .rateHuntTimeout 1024,
    .receiverLock 1024 0,
    .receiverLock 0 8,
    .fecPartnerIdentified 0 8,
    .pfcFrameReceived 0 256 [0, 0, 0, 0, 0, 0, 0, 0],
    .pfcFrameReceived 0 0 [0],
    .pfcFrameReceived 0 0 [65536, 0, 0, 0, 0, 0, 0, 0],
    .pauseFrameReceived 0 65536,
    .pauseTimeExpiry 0 256,
    .portSyncOverflow 0 2,
    .linkFaultDetected 0 3,
    .mkaLifeExpiry 0 (2 ^ 64),
    .mkpduReceived 0 true { sci := 2 ^ 64, priority := 0, suites := 0, pn := 0, installed := none, sak := none },
    .mkpduReceived 0 true { sci := 0, priority := 256, suites := 0, pn := 0, installed := none, sak := none },
    .ptpMessageReceived 0 true 16 0 0 0 0] : List Instr).all (fun i => !i.wf) = true := by decide +kernel

/-- A pass, a queue or a packet from the twin out of range (R114, R158, R175, R606). -/
theorem test_refuses_packets : ([
    .parsePass 16 0 none,
    .parsePass 0 5 none,
    .fragmentHoldTimeout 16 [],
    .channelDelivery 0 0 0 false,
    .channelDelivery 5 0 0 false,
    .channelDelivery 1 128 0 false,
    .channelDelivery 1 0 8 false,
    .egressDequeue 1024 { keyOk := true, underrun := false },
    .egressDequeue 1029 { keyOk := true, underrun := false },
    .twinPacketReceived 512 0 none 0 [],
    .twinPacketReceived 0 8 none 0 [],
    .twinPacketReceived 0 0 (some 4096) 0 [],
    .hostRxDelivery 0 0 0 false [],
    .hostRxDelivery 1 4 0 false []] : List Instr).all (fun i => !i.wf) = true := by decide +kernel

/-- A flow event out of range (R233, R252, R259). -/
theorem test_refuses_flows : ([
    .flowIdleSweep 3,
    .flowDeltaMerge 0 [],
    .flowTwinLag (2 ^ 32)] : List Instr).all (fun i => !i.wf) = true := by decide +kernel

/-- A function that no package has, or one of the wrong kind (R270, R275, R302, R352, R438). -/
theorem test_refuses_functions : ([
    .hostLinkTrained 4 0 16 16 false,
    .hostLinkTrained 0 0 65 16 false,
    .hostLinkTrained 0 0 16 17 false,
    .perstAssert 0 2,
    .functionLevelReset { witFnPf with pool := 2 },
    .functionLevelReset { witFnPf with num := 129 },
    .bar2Access witFnVf 0 8 none,
    .pfCqDb witFnVf 1 0 [] true,
    .pfCqDb witFnPf 16 0 [] true,
    .pfCqDb witFnPf 0 65536 [] true,
    .pfCqEnable witFnPf 16 0 [] true,
    .pfCqRqHead witFnPf 0 65536 [] true,
    .vfCtrlEnableSet witFnPf,
    .qpDbTx witFnPf 512 0,
    .qpDbTx witFnPf 0 65536,
    .hostTxFetch witFnPf 512 [] [],
    .dmaBeat 32,
    .dmaRequestLineAssert 85 0,
    .dmaRequestLineAssert 0 16] : List Instr).all (fun i => !i.wf) = true := by decide +kernel

/-- A storage event of a function outside the storage pool, an entry that is not 64 bytes, a queue or path out of range (R352-R372). -/
theorem test_refuses_storage : ([
    .nvmeSqDoorbell witFnPf 0 0,
    .nvmeSqDoorbell { witFnPf with pool := 1 } 0 65536,
    .nvmeCqDoorbell { witFnPf with pool := 1 } 0 65536,
    .nvmeCcEnable { witFnPf with pool := 1 } (2 ^ 32),
    .nvmeIdentify { witFnPf with pool := 1 } [] [],
    .nvmeRead { witFnPf with pool := 1 } 0 (List.replicate 64 0) [],
    .bedStorageSubmit 32 (List.replicate 64 0),
    .bedStorageSubmit 0 [],
    .targetResponse 0 (2 ^ 32) 0 [] [] false,
    .targetResponse 0 0 65536 [] [] false,
    .stoPathUp 1024 [],
    .namespaceHoldExpiry 1024,
    .nsDetachComplete 0 (some 32) witFnPf,
    .nsDetachComplete 0 none witFnPf] : List Instr).all (fun i => !i.wf) = true := by decide +kernel

/-- A cluster, thread, register, bed, slot, channel or lock out of range (R380, R381, R399, R409, R414, R419). -/
theorem test_refuses_service : ([
    .instructionIssue 86 0,
    .instructionIssue 0 64,
    .chWr 0 0 32 0 0,
    .chWr 0 0 0 32 0,
    .chWr 0 0 0 0 32,
    .chRdh 0 0 0 32,
    .chAbt 0 0 32,
    .chFree 0 0 0 32,
    .svcTimerExpiry 85 0,
    .svcTimerExpiry 0 64,
    .lockLimitExpiry 0 1024,
    .stallTimeout 85,
    .svcChanEnable 0 256 0,
    .startTimeout 32,
    .svcCmdqDb 85 0,
    .svcCmdqDb 0 65536,
    .svcImageVerified 64 [] true true] : List Instr).all (fun i => !i.wf) = true := by decide +kernel

/-- A message, a forwarded command or a step of a command out of range (R437, R452, R468, R483, R488). -/
theorem test_refuses_commands : ([
    .oobCommandMessage 4 [],
    .twinForwardedCommand 65536 0 0 0 0 [],
    .twinForwardedCommand 0 65536 0 0 0 [],
    .twinForwardedCommand 0 0 256 0 0 [],
    .twinReplyReceived 65536 true 0 0 [],
    .fwImageVerified (.oob 4) 0 true [] true none [0, 0, 0, 0, 0],
    .fwImageVerified .mgmt 65536 true [] true none [0, 0, 0, 0, 0],
    .fwImageVerified .mgmt 0 true [] true none [],
    .fwImageVerified .mgmt 0 true [] true (some { req := [(256, 0)] }) [0, 0, 0, 0, 0],
    .fwImageVerified .mgmt 0 true [] true (some { req := [(3, 0), (3, 1)] }) [0, 0, 0, 0, 0],
    .fwImageVerified .mgmt 0 true [] true (some { req := [], ranges := [(5, [])] }) [0, 0, 0, 0, 0],
    .fwImageVerified .mgmt 0 true [] true (some { req := [], ranges := [(0, [(0, 2 ^ 128)])] }) [0, 0, 0, 0, 0],
    .portSnapshotComplete .mgmt 65536 true,
    .prepareReceived (2 ^ 32),
    .tblReseedDone 16,
    .mbxSend 32 1,
    .mbxSend 0 4097,
    .mbxMsgRead 32 0 8,
    .bootMailboxWrite none (some (65536, cmd pkgW 1 (List.replicate 48 0))),
    .bootMailboxWrite none (some (1, cmd pkgW 256 (List.replicate 16368 0)))] : List Instr).all (fun i => !i.wf) = true := by decide +kernel

/-- A memory, cartridge or laser event out of range (R495, R502-R507, R514). -/
theorem test_refuses_memory : ([
    .memTrained [],
    .patrolScrubRead 0x3FFFFFFFFFFF 0 0 0 0 false,
    .patrolScrubRead 0x500000000000 0 0 0 0 false,
    .patrolScrubRead 0x400000000000 3 0 0 0 false,
    .patrolScrubRead 0x400000000000 0 2 0 0 false,
    .dimmThermalRead 12 0 0,
    .dimmThermalRead 0 2 0,
    .memoryChannelFailure 12 1,
    .cartPresenceAssert 16 none,
    .laserFailure 16 0,
    .laserFailure 0 16] : List Instr).all (fun i => !i.wf) = true := by decide +kernel

/-- A twin, boot or time event out of range (R577-R600, R615-R653). -/
theorem test_refuses_twin : ([
    .heartbeatReceived (2 ^ 64) 0 0 [],
    .witnessGrant 3 0 true,
    .twinLaneFailure 32,
    .twinLinkUp 0 16 0 true none,
    .twinLinkUp 0 0 2 true none,
    .joinConfigApplied (2 ^ 32) [] [],
    .joinConfigApplied 0 [(2 ^ 47, 0)] [],
    .fabricBootWindowOpen 0,
    .protCtrlLock 5,
    .fullService (2 ^ 32) 0,
    .fullService 0 (2 ^ 32),
    .timeSourceReturn 0 0,
    .timeSourceReturn 4 0,
    .thermalReading 5 0 0,
    .thermalReading 40 0 0,
    .registerWrite (.bar0 witFnPf (2 ^ 26)) 8 0,
    .registerWrite (.bar0 witFnVf (2 ^ 22)) 8 0,
    .registerWrite (.pcie { witFnPf with link := 4 } .msixEnable) 1 0,
    .registerWrite (.poisoned { witFnPf with pool := 2 }) 8 0,
    .registerReadClear (.poisoned witFnPf) 8,
    .registerWrite (.internal 71 0) 8 0,
    .registerWrite (.internal 64 (2 ^ 47)) 8 0] : List Instr).all (fun i => !i.wf) = true := by decide +kernel

/-- Commands at the ends of the ranges are well formed. -/
theorem test_takes_bounds : ([
    .sysNop (cmd pkgW 1 (List.replicate 48 0)),
    .unitFault (macPlace 1023),
    .graftComplete (mkPlace 1 0 0 9),
    .elementLoss (diePlace 4),
    .rateHuntTimeout 1023,
    .receiverLock 0 7,
    .pfcFrameReceived 0 255 [65535, 0, 0, 0, 0, 0, 0, 0],
    .parsePass 15 4 none,
    .channelDelivery 4 127 7 true,
    .egressDequeue 1028 { keyOk := true, underrun := false },
    .flowIdleSweep 2,
    .functionLevelReset { witFnPf with link := 3, half := 1, pool := 1, num := 128 },
    .pfCqDb witFnPf 15 65535 [] true,
    .pfCqDb witFnVf 0 0 [] true,
    .nvmeSqDoorbell { witFnPf with pool := 1 } 0 65535,
    .instructionIssue 85 63,
    .svcTimerExpiry 84 63,
    .mbxSend 31 4096,
    .patrolScrubRead 0x4FFFFFFFFFFF 2 1 0 0 false,
    .laserFailure 15 15,
    .twinLinkUp 0 15 1 true none,
    .registerWrite (.internal 70 (2 ^ 47 - 1)) 8 0,
    .timeSourceReturn 3 0] : List Instr).all Instr.wf = true := by decide +kernel

/-- The worked example of R11 and R12: port 700 is port 60 of region 2 of F3, on engine 21 at lane 28, lit by slots 10 and 11. -/
theorem test_port_700 : portDie 700 = 3 ∧ portRegion 700 = 2 ∧ portG 700 = 10 ∧ macPlace 700 = mkPlace 3 2 17 60 ∧ macPort (macPlace 700) = 700 ∧
    700 / 32 = 21 ∧ slotPlace 10 = mkPlace 3 2 17 96 ∧ placeSlot (mkPlace 3 2 17 96) = 10 ∧ enginePlace 20 = mkPlace 3 2 17 64 := by decide +kernel

/-- The example of R515: laser 5 of pair 5 lights these ports. -/
theorem test_pair_5_laser_5 : pairPorts 5 5 = [645, 661, 677, 693, 709, 725, 741, 757] := by decide +kernel

/-- The example of R6: region 3 of every die matches; a region 4 matches nothing, and cluster 24 lies in hub region 1 alone. -/
theorem test_broadcast : levelOf (mkPlace 7 3 31 127) = .broadcast ∧ levelOf (mkPlace 7 4 31 127) = .absent ∧
    levelOf (mkPlace 0 1 24 127) = .cluster ∧ levelOf (mkPlace 1 1 24 127) = .absent ∧ levelOf packagePlace = .package := by decide +kernel

/-- The examples of R13: CFG_STAGE is 0x0401 and TBL_INSERT 0x0801. -/
theorem test_opcode_class : opClass 0x0401 = 1 ∧ opClass 0x0801 = 2 ∧ (0x0402 : Nat) = 1 * 0x400 + 2 := by decide

/-- The example of R305: with 40 VFs in a pool every function holds 32 queue pairs and 16 vectors. -/
theorem test_shares_40 :
    let s := { wit with host := { wit.host with funcs := [(fnKey { witFnPf with link := 1 }, { bme := true, vfEnable := true, numVfs := 40 })] } }
    shareQ s { witFnPf with link := 1 } = 32 ∧ shareV s { witFnPf with link := 1 } = 16 ∧
    shareQ s { witFnVf with link := 1 } = 32 ∧ shareQ wit witFnPf = 512 ∧ shareV wit witFnPf = 512 := by decide +kernel

/-- The number after 2^32 − 1 is 1 (R432). -/
theorem test_epoch_wraps : nextEpoch 0xFFFFFFFF = 1 ∧ nextEpoch 1 = 2 := by decide

/-- A cell holds 256 bytes, a 9,600-byte frame with its FCS 38 of them, a 64-byte frame one (R175, R101). -/
theorem test_cells : cellsOf 9596 = 38 ∧ cellsOf 60 = 1 ∧ cellsOf 252 = 1 ∧ cellsOf 253 = 2 := by decide

/-- The check values of the CRC-16 T10-DIF (R353) and of the CRC-32C (R680) over "123456789". -/
theorem test_crc : t10 [0x31, 0x32, 0x33, 0x34, 0x35, 0x36, 0x37, 0x38, 0x39] = 0xD0DB ∧
    crc32c 0xFFFFFFFF#32 [0x31, 0x32, 0x33, 0x34, 0x35, 0x36, 0x37, 0x38, 0x39] = 0xE3069283 := by decide +kernel

/-- The layout of a path word (R2): package B, die H, region 0, cluster 17, unit 5. -/
theorem test_path_fields : pSystem 0x38_08_8500 = 3 ∧ pPackage 0x38_08_8500 = 1 ∧ pDie 0x38_08_8500 = 0 ∧ pRegion 0x38_08_8500 = 0 ∧
    pCluster 0x38_08_8500 = 17 ∧ pUnit 0x38_08_8500 = 5 := by decide

/-- SYS_NOP from the front of the queue leaves the queue empty (R450, R465). -/
theorem test_step_nop : ∃ t, step { wit with pending := [.sysNop (cmd pkgW 1 [])] } = .next t ∧ t.pending = [] := ⟨_, rfl, by decide +kernel⟩
end

/-! The key of a connection (R239, R240): where its fields stand, the order of two endpoints, and that this order, being total and
antisymmetric on well-formed endpoints, gives both directions one key. -/

namespace Sys2Proof.Machine

/-! ## Slices of joined strings -/

/-- A slice that starts past the first of two strings is a slice of the second. -/
theorem slice_append_of_length_le {p : Bytes} {off : Nat} (h : p.length ≤ off) (r : Bytes) (len : Nat) :
    slice (p ++ r) off len = slice r (off - p.length) len := by
  simp only [slice, List.drop_append, List.drop_eq_nil_of_le h, List.nil_append]

/-- The slice from 0 with the first string's length is the first string. -/
theorem slice_append_zero {m : Bytes} {len : Nat} (h : m.length = len) (r : Bytes) : slice (m ++ r) 0 len = m := by
  subst h; simp [slice]

/-! ## The fields of the key (R239) -/

/-- The key whose endpoints already stand in order. -/
def keyLayout (a b : Endpoint) (proto : Nat) (v6 : Bool) (zone : Nat) : Bytes :=
  fitTo 16 a.1 ++ fitTo 16 b.1 ++ le 2 a.2 ++ le 2 b.2 ++ [byte proto, byte (b2n v6)] ++ le 2 zone

theorem keyA_keyLayout {a : Endpoint} (hl : a.1.length = 16) (hp : a.2 < 65536) (b : Endpoint) (proto : Nat) (v6 : Bool) (zone : Nat) :
    keyA (keyLayout a b proto v6 zone) = a := by
  have hport : ofLe (le 2 a.2) = a.2 := ofLe_le 2 a.2 hp
  simp [keyA, keyLayout, rd, slice_append_zero, slice_append_of_length_le, fitTo_self hl, hport, hl]

theorem keyB_keyLayout {b : Endpoint} (hl : b.1.length = 16) (hp : b.2 < 65536) (a : Endpoint) (proto : Nat) (v6 : Bool) (zone : Nat) :
    keyB (keyLayout a b proto v6 zone) = b := by
  have hport : ofLe (le 2 b.2) = b.2 := ofLe_le 2 b.2 hp
  simp [keyB, keyLayout, rd, slice_append_zero, slice_append_of_length_le, fitTo_self hl, hport, hl]

/-! ## The order of endpoints (R240) -/

theorem ofBe_append_port (a : Bytes) {p : Nat} (hp : p < 65536) : ofBe (a ++ be 2 p) = ofBe a * 65536 + p := by
  simp only [ofBe_append, ofBe_be 2 p hp, be_length, Nat.reducePow]

/-- The model's comparison is that of R240: address followed by port, as unsigned big-endian bytes. -/
theorem endBefore_iff {x y : Endpoint} (hx : x.2 < 65536) (hy : y.2 < 65536) :
    endBefore x y = true ↔ ofBe (x.1 ++ be 2 x.2) ≤ ofBe (y.1 ++ be 2 y.2) := by
  rw [ofBe_append_port x.1 hx, ofBe_append_port y.1 hy, endBefore, decide_eq_true_iff]

theorem endBefore_total (x y : Endpoint) : endBefore x y = true ∨ endBefore y x = true := by
  simpa only [endBefore, decide_eq_true_iff] using Nat.le_total _ _

/-- Endpoints that each stand before the other spell one number, so address and port agree. -/
theorem endBefore_antisymm {x y : Endpoint} (hl : x.1.length = y.1.length) (hx : x.2 < 65536) (hy : y.2 < 65536)
    (hxy : endBefore x y = true) (hyx : endBefore y x = true) : x = y := by
  simp only [endBefore, decide_eq_true_iff] at hxy hyx
  have haddr : ofBe x.1 = ofBe y.1 := by omega
  have hport : x.2 = y.2 := by omega
  exact Prod.ext (ofBe_inj hl haddr) hport

/-! ## One key for both directions -/

theorem flowKey_of_endBefore {x y : Endpoint} (h : endBefore x y = true) (proto : Nat) (v6 : Bool) (zone : Nat) :
    flowKey x y proto v6 zone = keyLayout x y proto v6 zone := by
  simp only [flowKey, keyLayout, h, if_true]

theorem flowKey_of_not_endBefore {x y : Endpoint} (h : endBefore x y = false) (proto : Nat) (v6 : Bool) (zone : Nat) :
    flowKey x y proto v6 zone = keyLayout y x proto v6 zone := by
  simp [flowKey, keyLayout, h]

/-- The reply puts the lower endpoint first too: where its own order holds as well, the two endpoints are one. -/
theorem flowKey_swap_of_endBefore {x y : Endpoint} (hl : x.1.length = y.1.length) (hx : x.2 < 65536) (hy : y.2 < 65536)
    (hxy : endBefore x y = true) (proto : Nat) (v6 : Bool) (zone : Nat) :
    flowKey y x proto v6 zone = flowKey x y proto v6 zone := by
  cases hyx : endBefore y x with
  | true => rw [endBefore_antisymm hl hx hy hxy hyx]
  | false => rw [flowKey_of_not_endBefore hyx, flowKey_of_endBefore hxy]

theorem flowKey_comm {x y : Endpoint} (hl : x.1.length = y.1.length) (hx : x.2 < 65536) (hy : y.2 < 65536)
    (proto : Nat) (v6 : Bool) (zone : Nat) : flowKey x y proto v6 zone = flowKey y x proto v6 zone := by
  rcases endBefore_total x y with h | h
  · exact (flowKey_swap_of_endBefore hl hx hy h proto v6 zone).symm
  · exact flowKey_swap_of_endBefore hl.symm hy hx h proto v6 zone

/-- Settles O57: the order of R240 is total and antisymmetric, so both directions put the same endpoint first; the fields of R239 then
give the two endpoints back. -/
theorem flowKeyHasOneForm : Obligations.FlowKeyHasOneForm := by
  intro x y proto v6 zone hxl hyl hx hy
  refine ⟨flowKey_comm (hxl.trans hyl.symm) hx hy proto v6 zone, fun hle => ?_⟩
  rw [flowKey_of_endBefore ((endBefore_iff hx hy).mpr hle)]
  exact ⟨keyA_keyLayout hxl hx y proto v6 zone, keyB_keyLayout hyl hy x proto v6 zone⟩

end Sys2Proof.Machine

/-! The locks of a service cluster: how a running thread issues its own instructions (R383), and what a request for a lock that its
caller holds answers (R399). -/

namespace Sys2Proof.Machine

/-! ## Issue of a thread's own instructions (R383) -/

/-- A running thread of any cluster but G0 takes the instruction's effect. -/
theorem customIssue_of_running {n t : Nat} {s : State} (hn : n < 85) (hrun : (threadOf s n t).st = .running) (f : State → State) :
    customIssue n t f s = f s := by
  have hg0 : n ≠ 85 := by omega
  simp [customIssue, hrun, hg0]

theorem isThread_of_lt {n t : Nat} (hn : n < 85) (ht : t < 64) : isThread n t = true := by
  simp [isThread, ht, Nat.le_of_lt hn]

/-- The issue of an instruction by a running thread that exists answers with the instruction's effect. -/
theorem onElem_customIssue_of_running {n t : Nat} {s : State} (hn : n < 85) (ht : t < 64) (hrun : (threadOf s n t).st = .running)
    (f : State → State) : onElem (isThread n t) (customIssue n t f s) = .next (f s) := by
  rw [isThread_of_lt hn ht, customIssue_of_running hn hrun]
  rfl

/-! ## Requests for a lock (R396, R399) -/

theorem exec_lkAcq (n t rd r1 : Nat) (s : State) :
    exec (.lkAcq n t rd r1) s = onElem (isThread n t) (customIssue n t (fun s => lockAcquire n t rd (xv s n t r1) true s) s) := rfl

theorem exec_lkTry (n t rd r1 : Nat) (s : State) :
    exec (.lkTry n t rd r1) s = onElem (isThread n t) (customIssue n t (fun s => lockAcquire n t rd (xv s n t r1) false s) s) := rfl

/-- Whether or not the request would wait, its caller's own lock answers with misuse detail 2. -/
theorem lockAcquire_of_holder {n t a m l : Nat} {s : State} (hname : lockNamed s n a = some (m, l))
    (hheld : (lockOf s m l).holder = some (n, t)) (rd : Nat) (wait : Bool) : lockAcquire n t rd a wait s = lockMisuse n t 2 s := by
  simp [lockAcquire, hname, hheld]

/-- Settles O58: a running thread's request reaches the lock unit, which finds the caller as the holder before it looks at whether
the request may wait. -/
theorem heldLockTwiceFaults : Obligations.HeldLockTwiceFaults := by
  intro n t rd r1 s m l hn ht hrun hname hheld
  rw [exec_lkAcq, exec_lkTry, onElem_customIssue_of_running hn ht hrun, onElem_customIssue_of_running hn ht hrun]
  simp only [lockAcquire_of_holder hname hheld, and_self]

end Sys2Proof.Machine

/-! The mailbox channels: which parts of a channel a signal, a send (R488), a read of the message (R489) and a reset of the sender end
(R492) move. -/

namespace Sys2Proof.Machine

/-! ## A channel after the operations of the mailbox unit -/

@[simp] theorem mbxOf_mbxMod_same (c : Nat) (f : Mbx → Mbx) (s : State) : mbxOf (mbxMod c f s) c = f (mbxOf s c) := by
  simp [mbxOf]

theorem mbxOf_congr {s t : State} (h : t.mbx = s.mbx) (c : Nat) : mbxOf t c = mbxOf s c := by
  simp only [mbxOf, h]

/-- A signal leaves by the host link, the bed or an output (R490), never through a channel. -/
@[simp] theorem mbxOf_signalReceiver (k cause c : Nat) (s : State) : mbxOf (signalReceiver k cause s) c = mbxOf s c :=
  mbxOf_congr ((signalReceiver_moves k cause s).keeps .mbx (by decide)) c

@[simp] theorem mbxOf_signalSender (k cause c : Nat) (s : State) : mbxOf (signalSender k cause s) c = mbxOf s c :=
  mbxOf_congr ((signalSender_moves k cause s).keeps .mbx (by decide)) c

@[simp] theorem mbxOf_emit (o : Out) (c : Nat) (s : State) : mbxOf (emit o s) c = mbxOf s c :=
  mbxOf_congr (emit_mbx o s) c

/-! ## A send (R488) -/

theorem exec_mbxSend_of_sender {c : Nat} {s : State} (hc : c < 32) (hends : (mbxSender s c).isSome = true) (len : Nat) :
    exec (.mbxSend c len) s = .next (mbxSend c len s) := by
  change execMbxSend c len s = _
  simp [execMbxSend, onElem, hc, hends]

theorem mbxSend_of_empty {c len : Nat} {s : State} (hrun : (mbxOf s c).recvReset = false) (h1 : 1 ≤ len) (h64 : len ≤ 64)
    (hempty : (mbxOf s c).full = false) :
    mbxSend c len s = signalReceiver c 1 (mbxMod c (fun m => { m with msg := fitTo len m.staging, full := true }) s) := by
  have h0 : len ≠ 0 := by omega
  have hle : ¬ 64 < len := by omega
  simp [mbxSend, hrun, hempty, h0, hle]

theorem mbxSend_of_refused {c len : Nat} {s : State} (hrun : (mbxOf s c).recvReset = false)
    (hbad : len = 0 ∨ 64 < len ∨ (mbxOf s c).full = true) :
    mbxSend c len s = signalSender c 4 (mbxMod c (fun m => { m with refused := true }) s) := by
  simp [mbxSend, hrun, or_assoc, hbad]

/-- Whether it is delivered, refused or aborted, a send leaves the sender's copy for the next message. -/
theorem mbxSend_staging (c len : Nat) (s : State) : (mbxOf (mbxSend c len s) c).staging = (mbxOf s c).staging := by
  simp only [mbxSend]
  split
  · simp
  · split <;> simp

/-! ## A read of the message (R489) -/

/-- The bytes of the delivered message leave on the internal bus, those past its length reading zero (R487). -/
def msgReadOut (c off len : Nat) (s : State) : State :=
  emit (.readValue (0x00CC00000000 + 0x100 * c + off) (rd (fitTo 64 (mbxOf s c).msg) off len)) s

@[simp] theorem mbxOf_msgReadOut (c off len k : Nat) (s : State) : mbxOf (msgReadOut c off len s) k = mbxOf s k :=
  mbxOf_emit ..

theorem exec_mbxMsgRead_of_covers {c off len : Nat} (hc : c < 32) (hoff : off ≤ 63) (hend : 63 < off + len) (s : State) :
    exec (.mbxMsgRead c off len) s = .next (mbxRead63 c (msgReadOut c off len s)) := by
  change execMbxMsgRead c off len s = _
  simp [execMbxMsgRead, msgReadOut, onElem, hc, hoff, hend]

theorem exec_mbxMsgRead_of_misses {c off len : Nat} (hc : c < 32) (hmiss : 63 < off ∨ off + len ≤ 63) (s : State) :
    exec (.mbxMsgRead c off len) s = .next (msgReadOut c off len s) := by
  have hmisses : ¬ (off ≤ 63 ∧ 63 < off + len) := by omega
  change execMbxMsgRead c off len s = _
  simp [execMbxMsgRead, msgReadOut, onElem, hc, hmisses]

theorem mbxRead63_of_full {c : Nat} {s : State} (hfull : (mbxOf s c).full = true) :
    mbxRead63 c s = signalSender c 3 (mbxMod c (fun m => { m with full := false }) s) := by
  simp only [mbxRead63, hfull, if_true]

@[simp] theorem mbxRead63_full (c : Nat) (s : State) : (mbxOf (mbxRead63 c s) c).full = false := by
  by_cases hfull : (mbxOf s c).full = true
  · simp [mbxRead63_of_full hfull]
  · simp [mbxRead63, hfull]

/-! ## A reset of the sender end (R492) -/

/-- The sender's own fields at their values after reset. -/
def senderCleared (c : Nat) (s : State) : State :=
  mbxMod c (fun m => { m with staging := [], refused := false, aborted := false, irqS := 0 }) s

theorem mbxResetSender_of_empty {c : Nat} {s : State} (hempty : (mbxOf s c).full = false) : mbxResetSender c s = senderCleared c s := by
  simp [mbxResetSender, senderCleared, hempty]

theorem mbxResetSender_of_full {c : Nat} {s : State} (hfull : (mbxOf s c).full = true) :
    mbxResetSender c s = signalReceiver c 6 (mbxMod c (fun m => { m with senderReset := true }) (senderCleared c s)) := by
  simp [mbxResetSender, senderCleared, hfull]

/-- The channel after the reset, empty or full: only `senderReset` depends on the message. -/
theorem mbxOf_mbxResetSender (c : Nat) (s : State) :
    mbxOf (mbxResetSender c s) c =
      { mbxOf s c with
        staging := [], refused := false, aborted := false, irqS := 0,
        senderReset := (mbxOf s c).full || (mbxOf s c).senderReset } := by
  cases hfull : (mbxOf s c).full with
  | false => simp [mbxResetSender_of_empty hfull, senderCleared]
  | true => simp [mbxResetSender_of_full hfull, senderCleared]

/-! ## The rules together -/

/-- Settles O55: each row is one change of the channel followed by a signal, and a signal leaves every channel as it is. -/
theorem mailboxRules : Obligations.MailboxRules := by
  refine ⟨fun c len s hc hends hrun => ?_, fun c off len s hc => ?_, ?_⟩
  · refine ⟨mbxSend c len s, exec_mbxSend_of_sender hc hends len, mbxSend_staging c len s, fun h1 h64 hempty => ?_, fun hbad => ?_⟩
    · simp [mbxSend_of_empty hrun h1 h64 hempty]
    · simp [mbxSend_of_refused hrun hbad]
  · by_cases hcovers : off ≤ 63 ∧ 63 < off + len
    · obtain ⟨hoff, hend⟩ := hcovers
      refine ⟨_, exec_mbxMsgRead_of_covers hc hoff hend s, fun _ _ => ⟨mbxRead63_full .., fun hfull => ?_⟩, fun hmiss => ?_⟩
      · rw [mbxRead63_of_full (by rwa [mbxOf_msgReadOut]), msgReadOut]
      · omega
    · refine ⟨_, exec_mbxMsgRead_of_misses hc (by omega) s, fun hoff hend => absurd ⟨hoff, hend⟩ hcovers, fun _ => ?_⟩
      rw [mbxOf_msgReadOut]
  · rintro c s _ rfl
    simp only [mbxOf_mbxResetSender, true_and]
    exact fun hfull => ⟨by simp [hfull], _, mbxResetSender_of_full hfull, rfl⟩

end Sys2Proof.Machine

/-! The protection map as boot code writes it (R617, R618): the table of requesters, the range entries of a die, and what DEPLOYED
takes from either. -/

namespace Sys2Proof.Machine

/-! ## The table of requesters -/

/-- A table that holds `f i` at each number of a list gives `f k` at a number of the list, and nothing elsewhere. -/
theorem tget_map_number {α : Type} (l : List Nat) (f : Nat → α) (k : Nat) :
    tget (l.map fun i => (i, f i)) k = if k ∈ l then some (f k) else none := by
  induction l with
  | nil => rfl
  | cons i r ih =>
    by_cases h : i = k
    · simp [tget, h]
    · simp [tget, h, Ne.symm h, ih]

theorem protReq_writeMap_hub (s : State) (c : Nat) : protReq (writeMap 0 s) c = if c < 256 then reqEntry s c else 0 := by
  change tgetD ((List.range 256).map fun i => (i, reqEntry s i)) c 0 = _
  rw [tgetD, tget_map_number]
  by_cases hc : c < 256 <;> simp [hc]

/-- A bit of a requester's entry on the hub die: past code 255 there is no entry, so none is set. -/
theorem bit_protReq_writeMap_hub (s : State) (c i : Nat) :
    bit (protReq (writeMap 0 s) c) i = (decide (c < 256) && bit (reqEntry s c) i) := by
  rw [protReq_writeMap_hub]
  by_cases hc : c < 256
  · simp [hc]
  · simp [hc, bit_eq_testBit]

/-- clear_import is bit 17. -/
theorem reqEntry_clearImport_of_deployed {s : State} (hd : s.boot.lifecycle = .deployed) (c : Nat) : bit (reqEntry s c) 17 = false := by
  by_cases hc : c < 32 <;> simp [reqEntry, hd, hc, bit_clrBit]

/-- secure_mailbox is bit 18. -/
theorem reqEntry_secureMailbox_of_deployed {s : State} (hd : s.boot.lifecycle = .deployed) {c : Nat} (hc : c < 32) :
    bit (reqEntry s c) 18 = false := by
  simp [reqEntry, hd, hc, bit_clrBit]

/-! ## The range entries of a die -/

theorem dieProt_writeMap_ranges (s : State) (d : Nat) :
    (dieProt (writeMap d s) d).ranges = tmap (tgetD (ownerOf s (mapImage s)).ranges d []) fun _ e => rangeWritten s e := by
  by_cases hd : d = 0 <;> simp [dieProt, writeMap, hd]

/-- Writing an entry invalid leaves the requester that it names. -/
theorem rangeWritten_code (s : State) (e : Nat) : fld (rangeWritten s e) 8 8 = fld e 8 8 := by
  simp only [rangeWritten]
  split
  · exact fld_clrBit_above e 0 8 8 (by decide)
  · rfl

theorem rangeWritten_invalid_of_deployed {s : State} (hd : s.boot.lifecycle = .deployed) {e : Nat} (hcode : fld e 8 8 = 70) :
    bit (rangeWritten s e) 0 = false := by
  simp [rangeWritten, hd, hcode, bit_clrBit]

/-- Every other entry stands as the owner wrote it: ends in order, a known code, and in DEPLOYED not that of the IEEE 1149.1 port. -/
theorem rangeWritten_of_allowed {s : State} {e : Nat} (hends : fld e 16 36 ≤ fld e 64 36) (hcode : fld e 8 8 ≤ 72)
    (hdeployed : s.boot.lifecycle = .deployed → fld e 8 8 ≠ 70) : rangeWritten s e = e := by
  have hclosed : ¬ (s.boot.lifecycle = .deployed ∧ fld e 8 8 = 70) := fun ⟨hd, hjtag⟩ => hdeployed hd hjtag
  simp [rangeWritten, codeKnown, Nat.not_lt.mpr hends, hcode, hclosed]

/-- The owner's other ranges stand on the die (R617, R618). -/
theorem writeMap_keeps_allowed_ranges {s : State} {d n e : Nat} (howner : tget (tgetD (ownerOf s (mapImage s)).ranges d []) n = some e)
    (hends : fld e 16 36 ≤ fld e 64 36) (hcode : fld e 8 8 ≤ 72) (hdeployed : s.boot.lifecycle = .deployed → fld e 8 8 ≠ 70) :
    tget (dieProt (writeMap d s) d).ranges n = some e := by
  rw [dieProt_writeMap_ranges, tget_tmap, howner, Option.map_some, rangeWritten_of_allowed hends hcode hdeployed]

/-- A package in DEPLOYED whose owner assigns on die 1 a page to the IEEE 1149.1 port and the next page to PF 0. -/
def twoRangesOwned : State := { State.reset with boot := { State.reset.boot with imageA := { State.reset.boot.imageA with
  owner := { State.reset.boot.imageA.owner with ranges := [(1, [(0, 7 + 256 * 70), (1, 7 + 2 ^ 16 + 2 ^ 64)])] } } } }

/-- Of the two ranges of `twoRangesOwned` the PF's stands. -/
theorem twoRangesOwned_keeps_pf : tget (dieProt (writeMap 1 twoRangesOwned) 1).ranges 1 = some (7 + 2 ^ 16 + 2 ^ 64) :=
  writeMap_keeps_allowed_ranges (by decide +kernel) (by decide) (by decide) fun _ => by decide

/-! ## The map of a die in DEPLOYED -/

/-- Settles O56: each entry on the die is one that boot code wrote, and in DEPLOYED it writes the bits that R618 names clear, whatever
the owner's entry holds. -/
theorem deployedMapIsClosed : Obligations.DeployedMapIsClosed := by
  refine ⟨fun s c hd => ?_, fun s d n r hd hmem hcode => ?_⟩
  · simp only [bit_protReq_writeMap_hub, reqEntry_clearImport_of_deployed hd, Bool.and_false, true_and]
    intro hc
    rw [reqEntry_secureMailbox_of_deployed hd hc, Bool.and_false]
  · rw [dieProt_writeMap_ranges] at hmem
    obtain ⟨⟨m, e⟩, -, hwritten⟩ := List.mem_map.mp hmem
    obtain ⟨rfl, rfl⟩ := Prod.mk.inj hwritten
    rw [rangeWritten_code] at hcode
    exact rangeWritten_invalid_of_deployed hd hcode

end Sys2Proof.Machine

/-! What a step moves (R415, R500, R612, R620): each row within the parts that `touched` lists for it, and what no step does. -/

namespace Sys2Proof.Machine

/-! ## The frame of a row -/

theorem MovesAll.wider {α : Type} {has : α → State → Prop} {l m : List Part} {s : State} {x : α} (h : MovesAll has m s x)
    (hm : m.all l.contains = true) : MovesAll has l s x :=
  fun t ht => (h t ht).wider hm

/-- Each row moves no part but those of its line in `touched`. -/
theorem exec_moves_touched (i : Instr) (s : State) : MovesAll hasNext (touched i) s (exec i s) := by
  cases i with
  | sysNop => exact .wider (execSysNop_moves _ _) rfl
  | sysInfo => exact .wider (execSysInfo_moves _ _) rfl
  | sysEpochRead => exact .wider (execSysEpochRead_moves _ _) rfl
  | sysPathQuery => exact .wider (execSysPathQuery_moves _ _) rfl
  | sysDrain => exact .wider (execSysDrain_moves _ _) rfl
  | sysReset => exact .wider (execSysReset_moves _ _) rfl
  | sysFwLoad => exact .wider (execSysFwLoad_moves _ _) rfl
  | sysFwActivate => exact .wider (execSysFwActivate_moves _ _) rfl
  | cfgStage => exact .wider (execCfgStage_moves _ _) rfl
  | cfgFix => exact .wider (execCfgFix_moves _ _) rfl
  | cfgDiscard => exact .wider (execCfgDiscard_moves _ _) rfl
  | cfgWrite => exact .wider (execCfgWrite_moves _ _) rfl
  | cfgOverlay => exact .wider (execCfgOverlay_moves _ _) rfl
  | cfgRead => exact .wider (execCfgRead_moves _ _) rfl
  | tblInsert => exact .wider (execTblInsert_moves _ _) rfl
  | tblDelete => exact .wider (execTblDelete_moves _ _) rfl
  | tblModify => exact .wider (execTblModify_moves _ _) rfl
  | tblLookup => exact .wider (execTblLookup_moves _ _) rfl
  | tblProgramSet => exact .wider (execTblProgramSet_moves _ _) rfl
  | tblTemplateSet => exact .wider (execTblTemplateSet_moves _ _) rfl
  | tblGroupSet => exact .wider (execTblGroupSet_moves _ _) rfl
  | tblLagSet => exact .wider (execTblLagSet_moves _ _) rfl
  | tblCounterRead => exact .wider (execTblCounterRead_moves _ _) rfl
  | tblMeterSet => exact .wider (execTblMeterSet_moves _ _) rfl
  | portRead => exact .wider (execPortRead_moves _ _) rfl
  | portRestart => exact .wider (execPortRestart_moves _ _) rfl
  | portSnapshot => exact .wider (execPortSnapshot_moves _ _) rfl
  | portPartnerRead => exact .wider (execPortPartnerRead_moves _ _) rfl
  | cryKekLoad => exact .wider (execCryKekLoad_moves _ _) rfl
  | cryCakSet => exact .wider (execCryCakSet_moves _ _) rfl
  | cryCakClear => exact .wider (execCryCakClear_moves _ _) rfl
  | cryMkaRead => exact .wider (execCryMkaRead_moves _ _) rfl
  | cryMkaRekey => exact .wider (execCryMkaRekey_moves _ _) rfl
  | crySaInstall => exact .wider (execCrySaInstall_moves _ _) rfl
  | crySaRemove => exact .wider (execCrySaRemove_moves _ _) rfl
  | crySaRead => exact .wider (execCrySaRead_moves _ _) rfl
  | cryTlsInstall => exact .wider (execCryTlsInstall_moves _ _) rfl
  | cryTlsResync => exact .wider (execCryTlsResync_moves _ _) rfl
  | cryTlsRemove => exact .wider (execCryTlsRemove_moves _ _) rfl
  | cryTlsRead => exact .wider (execCryTlsRead_moves _ _) rfl
  | flowInsert => exact .wider (execFlowInsert_moves _ _) rfl
  | flowDelete => exact .wider (execFlowDelete_moves _ _) rfl
  | flowRead => exact .wider (execFlowRead_moves _ _) rfl
  | flowModify => exact .wider (execFlowModify_moves _ _) rfl
  | flowFlush => exact .wider (execFlowFlush_moves _ _) rfl
  | vfQuery => exact .wider (execVfQuery_moves _ _) rfl
  | vfSuspend => exact .wider (execVfSuspend_moves _ _) rfl
  | vfResume => exact .wider (execVfResume_moves _ _) rfl
  | vfLogStart => exact .wider (execVfLogStart_moves _ _) rfl
  | vfLogHarvest => exact .wider (execVfLogHarvest_moves _ _) rfl
  | vfLogStop => exact .wider (execVfLogStop_moves _ _) rfl
  | vfSave => exact .wider (execVfSave_moves _ _) rfl
  | vfRestore => exact .wider (execVfRestore_moves _ _) rfl
  | dmaQpSet => exact .wider (execDmaQpSet_moves _ _) rfl
  | dmaQpStart => exact .wider (execDmaQpStart_moves _ _) rfl
  | dmaQpStop => exact .wider (execDmaQpStop_moves _ _) rfl
  | dmaQpFlush => exact .wider (execDmaQpFlush_moves _ _) rfl
  | dmaQpRead => exact .wider (execDmaQpRead_moves _ _) rfl
  | dmaChAssign => exact .wider (execDmaChAssign_moves _ _) rfl
  | dmaChProgram => exact .wider (execDmaChProgram_moves _ _) rfl
  | dmaChEnable => exact .wider (execDmaChEnable_moves _ _) rfl
  | dmaChRead => exact .wider (execDmaChRead_moves _ _) rfl
  | stoNqnSet => exact .wider (execStoNqnSet_moves _ _) rfl
  | stoPathAdd => exact .wider (execStoPathAdd_moves _ _) rfl
  | stoPathRemove => exact .wider (execStoPathRemove_moves _ _) rfl
  | stoNsAdd => exact .wider (execStoNsAdd_moves _ _) rfl
  | stoNsRemove => exact .wider (execStoNsRemove_moves _ _) rfl
  | stoNsAttach => exact .wider (execStoNsAttach_moves _ _) rfl
  | stoNsDetach => exact .wider (execStoNsDetach_moves _ _) rfl
  | stoNsKey => exact .wider (execStoNsKey_moves _ _) rfl
  | stoRead => exact .wider (execStoRead_moves _ _) rfl
  | svcImageLoad => exact .wider (execSvcImageLoad_moves _ _) rfl
  | svcStart => exact .wider (execSvcStart_moves _ _) rfl
  | svcStop => exact .wider (execSvcStop_moves _ _) rfl
  | svcReplace => exact .wider (execSvcReplace_moves _ _) rfl
  | svcBedQuery => exact .wider (execSvcBedQuery_moves _ _) rfl
  | svcSlotRead => exact .wider (execSvcSlotRead_moves _ _) rfl
  | dbgHalt => exact .wider (execDbgHalt_moves _ _) rfl
  | dbgResume => exact .wider (execDbgResume_moves _ _) rfl
  | dbgAbandonMessage => exact .wider (execDbgAbandonMessage_moves _ _) rfl
  | dbgObserve => exact .wider (execDbgObserve_moves _ _) rfl
  | dbgReadReg => exact .wider (execDbgReadReg_moves _ _) rfl
  | dbgOpen => exact .wider (execDbgOpen_moves _ _) rfl
  | dbgClose => exact .wider (execDbgClose_moves _ _) rfl
  | testRun => exact .wider (execTestRun_moves _ _) rfl
  | testResult => exact .wider (execTestResult_moves _ _) rfl
  | testSchedule => exact .wider (execTestSchedule_moves _ _) rfl
  | ageReport => exact .wider (execAgeReport_moves _ _) rfl
  | ageSheetRead => exact .wider (execAgeSheetRead_moves _ _) rfl
  | ageSheetTime => exact .wider (execAgeSheetTime_moves _ _) rfl
  | cartRead => exact .wider (execCartRead_moves _ _) rfl
  | cartPrepareSwap => exact .wider (execCartPrepareSwap_moves _ _) rfl
  | cartCancelSwap => exact .wider (execCartCancelSwap_moves _ _) rfl
  | twinStatus => exact .wider (execTwinStatus_moves _ _) rfl
  | twinWitnessSet => exact .wider (execTwinWitnessSet_moves _ _) rfl
  | twinHandover => exact .wider (execTwinHandover_moves _ _) rfl
  | logRead => exact .wider (execLogRead_moves _ _) rfl
  | logTraceArm => exact .wider (execLogTraceArm_moves _ _) rfl
  | logTraceRead => exact .wider (execLogTraceRead_moves _ _) rfl
  | unitFault => exact .wider (execUnitFault_moves _ _) rfl
  | unitHang => exact .wider (execUnitHang_moves _ _) rfl
  | graftComplete => exact .wider (execGraftComplete_moves _ _) rfl
  | graftTimeout => exact .wider (execGraftTimeout_moves _ _) rfl
  | elementLoss => exact .wider (execElementLoss_moves _ _) rfl
  | dieLinkQuarterFail => exact .wider (execDieLinkQuarterFail_moves _ _ _) rfl
  | rateHuntTimeout => exact .wider (execRateHuntTimeout_moves _ _) rfl
  | receiverLock => exact .wider (execReceiverLock_moves _ _ _) rfl
  | candidateDwellExpiry => exact .wider (execCandidateDwellExpiry_moves _ _) rfl
  | fecPartnerIdentified => exact .wider (execFecPartnerIdentified_moves _ _ _) rfl
  | fecMismatchWaitExpiry => exact .wider (execFecMismatchWaitExpiry_moves _ _) rfl
  | lockHoldExpiry => exact .wider (execLockHoldExpiry_moves _ _) rfl
  | lockLost => exact .wider (execLockLost_moves _ _) rfl
  | linkFaultPersist => exact .wider (execLinkFaultPersist_moves _ _) rfl
  | heldExpiry => exact .wider (execHeldExpiry_moves _ _) rfl
  | frameReceived => exact .wider (execFrameReceived_moves _ _ _ _ _ _ _ _) rfl
  | pfcRefreshTimer => exact .wider (execPfcRefreshTimer_moves _ _) rfl
  | pfcFrameReceived => exact .wider (execPfcFrameReceived_moves _ _ _ _) rfl
  | pauseFrameReceived => exact .wider (execPauseFrameReceived_moves _ _ _) rfl
  | pauseTimeExpiry => exact .wider (execPauseTimeExpiry_moves _ _ _) rfl
  | lldpFrameReceived => exact .wider (execLldpFrameReceived_moves _ _ _) rfl
  | lldpTransmitTimer => exact .wider (execLldpTransmitTimer_moves _ _) rfl
  | dcbxAbsentTimeout => exact .wider (execDcbxAbsentTimeout_moves _ _) rfl
  | lldpPartnerAgeout => exact .wider (execLldpPartnerAgeout_moves _ _) rfl
  | portSyncOverflow => exact .wider (execPortSyncOverflow_moves _ _ _) rfl
  | mkpduReceived => exact .wider (execMkpduReceived_moves _ _ _ _) rfl
  | mkaHelloTimer => exact .wider (execMkaHelloTimer_moves _ _) rfl
  | mkaLifeExpiry => exact .wider (execMkaLifeExpiry_moves _ _ _) rfl
  | parsePass => exact .wider (execParsePass_moves _ _ _ _) rfl
  | fragmentHoldTimeout => exact .wider (execFragmentHoldTimeout_moves _ _ _) rfl
  | fragmentEntryTimeout => exact .wider (execFragmentEntryTimeout_moves _ _ _) rfl
  | channelDelivery => exact .wider (execChannelDelivery_moves _ _ _ _ _) rfl
  | egressDequeue => exact .wider (execEgressDequeue_moves _ _ _) rfl
  | twinPacketReceived => exact .wider (execTwinPacketReceived_moves _ _ _ _ _ _) rfl
  | cryptoEncrypt => exact .wider (execCryptoEncrypt_moves _ _ _) rfl
  | cryptoDecrypt => exact .wider (execCryptoDecrypt_moves _ _ _ _ _) rfl
  | tlsTxSegment => exact .wider (execTlsTxSegment_moves _ _ _) rfl
  | tlsRxSegment => exact .wider (execTlsRxSegment_moves _ _ _ _ _) rfl
  | cryptoRecordFetch => exact .wider (execCryptoRecordFetch_moves _ _) rfl
  | flowMissService => exact .wider (execFlowMissService_moves _ _ _) rfl
  | flowIdleSweep => exact .wider (execFlowIdleSweep_moves _ _) rfl
  | flowWriteBack => exact .wider (execFlowWriteBack_moves _ _) rfl
  | flowDeltaMerge => exact .wider (execFlowDeltaMerge_moves _ _ _) rfl
  | flowTwinLag => exact .wider (execFlowTwinLag_moves _ _) rfl
  | flowTwinResyncDone => exact .wider (execFlowTwinResyncDone_moves _) rfl
  | hostLinkTrained => exact .wider (execHostLinkTrained_moves _ _ _ _ _ _) rfl
  | perstAssert => exact .wider (execPerstAssert_moves _ _ _) rfl
  | hotReset => exact .wider (execHotReset_moves _ _ _) rfl
  | hostLinkLoss => exact .wider (execHostLinkLoss_moves _ _ _) rfl
  | hostFatalError => exact .wider (execHostFatalError_moves _ _ _ _) rfl
  | functionLevelReset => exact .wider (execFunctionLevelReset_moves _ _) rfl
  | flrComplete => exact .wider (execFlrComplete_moves _ _) rfl
  | busMasterEnableClear => exact .wider (execBusMasterEnableClear_moves _ _) rfl
  | busMasterEnableSet => exact .wider (execBusMasterEnableSet_moves _ _) rfl
  | completionTimeout => exact .wider (execCompletionTimeout_moves _ _ _) rfl
  | hostCompletionReceived => exact .wider (execHostCompletionReceived_moves _ _ _ _ _) rfl
  | bar0UnsupportedAccess => exact .wider (execBar0UnsupportedAccess_moves _ _ _) rfl
  | bar2Access => exact .wider (execBar2Access_moves _ _ _ _ _) rfl
  | winCommit => exact .wider (execWinCommit_moves _ _ _) rfl
  | winCommitComplete => exact .wider (execWinCommitComplete_moves _ _) rfl
  | pfCqDb => exact .wider (execPfCqDb_moves _ _ _ _ _ _) rfl
  | pfCqEnable => exact .wider (execPfCqEnable_moves _ _ _ _ _ _) rfl
  | pfCqDisable => exact .wider (execPfCqDisable_moves _ _ _ _) rfl
  | pfCqRqHead => exact .wider (execPfCqRqHead_moves _ _ _ _ _ _) rfl
  | pfIntxCauseRead => exact .wider (execPfIntxCauseRead_moves _ _) rfl
  | l0pNarrow => exact .wider (execL0pNarrow_moves _ _ _) rfl
  | aspmL1Entry => exact .wider (execAspmL1Entry_moves _ _ _) rfl
  | powerStateChange => exact .wider (execPowerStateChange_moves _ _ _) rfl
  | numvfsWrite => exact .wider (execNumvfsWrite_moves _ _ _) rfl
  | vfEnableSet => exact .wider (execVfEnableSet_moves _ _) rfl
  | vfEnableClear => exact .wider (execVfEnableClear_moves _ _) rfl
  | vfCtrlEnableSet => exact .wider (execVfCtrlEnableSet_moves _ _) rfl
  | vfCtrlEnableClear => exact .wider (execVfCtrlEnableClear_moves _ _) rfl
  | vfShutdownDone => exact .wider (execVfShutdownDone_moves _ _) rfl
  | vfSuspendComplete => exact .wider (execVfSuspendComplete_moves _ _) rfl
  | vfLogHarvestComplete => exact .wider (execVfLogHarvestComplete_moves _ _ _) rfl
  | vfSaveComplete => exact .wider (execVfSaveComplete_moves _ _ _) rfl
  | vfRestored => exact .wider (execVfRestored_moves _ _ _ _) rfl
  | qpDbTx => exact .wider (execQpDbTx_moves _ _ _ _) rfl
  | qpDbRx => exact .wider (execQpDbRx_moves _ _ _ _) rfl
  | qpDbCq => exact .wider (execQpDbCq_moves _ _ _ _) rfl
  | hostTxFetch => exact .wider (execHostTxFetch_moves _ _ _ _ _) rfl
  | hostRxDelivery => exact .wider (execHostRxDelivery_moves _ _ _ _ _ _) rfl
  | interruptModerationTimer => exact .wider (execInterruptModerationTimer_moves _ _ _) rfl
  | dmaQpFlushed => exact .wider (execDmaQpFlushed_moves _ _ _) rfl
  | dmaBeat => exact .wider (execDmaBeat_moves _ _) rfl
  | dmaRequestLineAssert => exact .wider (execDmaRequestLineAssert_moves _ _ _) rfl
  | nvmeSqDoorbell => exact .wider (execNvmeSqDoorbell_moves _ _ _ _) rfl
  | nvmeCcEnable => exact .wider (execNvmeCcEnable_moves _ _ _) rfl
  | nvmeCcDisable => exact .wider (execNvmeCcDisable_moves _ _ _) rfl
  | nvmeCcShutdown => exact .wider (execNvmeCcShutdown_moves _ _ _) rfl
  | nvmeIdentify => exact .wider (execNvmeIdentify_moves _ _ _ _) rfl
  | nvmeGetLogPage => exact .wider (execNvmeGetLogPage_moves _ _ _ _) rfl
  | nvmeSetFeatures => exact .wider (execNvmeSetFeatures_moves _ _ _) rfl
  | nvmeGetFeatures => exact .wider (execNvmeGetFeatures_moves _ _ _) rfl
  | nvmeCreateIoSq => exact .wider (execNvmeCreateIoSq_moves _ _ _) rfl
  | nvmeCreateIoCq => exact .wider (execNvmeCreateIoCq_moves _ _ _) rfl
  | nvmeDeleteIoSq => exact .wider (execNvmeDeleteIoSq_moves _ _ _) rfl
  | nvmeDeleteIoCq => exact .wider (execNvmeDeleteIoCq_moves _ _ _) rfl
  | nvmeAbort => exact .wider (execNvmeAbort_moves _ _ _) rfl
  | nvmeAsyncEventRequest => exact .wider (execNvmeAsyncEventRequest_moves _ _ _) rfl
  | nvmeRead => exact .wider (execNvmeRead_moves _ _ _ _ _) rfl
  | nvmeWrite => exact .wider (execNvmeWrite_moves _ _ _ _ _ _) rfl
  | nvmeFlush => exact .wider (execNvmeFlush_moves _ _ _ _) rfl
  | nvmeWriteZeroes => exact .wider (execNvmeWriteZeroes_moves _ _ _ _) rfl
  | nvmeDatasetManagement => exact .wider (execNvmeDatasetManagement_moves _ _ _ _ _) rfl
  | nvmeCompare => exact .wider (execNvmeCompare_moves _ _ _ _ _ _) rfl
  | bedStorageSubmit => exact .wider (execBedStorageSubmit_moves _ _ _) rfl
  | targetResponse => exact .wider (execTargetResponse_moves _ _ _ _ _ _ _) rfl
  | stoPathUp => exact .wider (execStoPathUp_moves _ _ _) rfl
  | pathConnectionError => exact .wider (execPathConnectionError_moves _ _) rfl
  | keepAliveTimeout => exact .wider (execKeepAliveTimeout_moves _ _) rfl
  | ioTimeout => exact .wider (execIoTimeout_moves _ _) rfl
  | roceRetryExhausted => exact .wider (execRoceRetryExhausted_moves _ _) rfl
  | targetFatalStatus => exact .wider (execTargetFatalStatus_moves _ _) rfl
  | pathReconnectTimer => exact .wider (execPathReconnectTimer_moves _ _) rfl
  | namespaceHoldExpiry => exact .wider (execNamespaceHoldExpiry_moves _ _) rfl
  | nsDetachComplete => exact .wider (execNsDetachComplete_moves _ _ _ _) rfl
  | instructionIssue => exact .wider (execInstructionIssue_moves _ _ _) rfl
  | chWr => exact .wider (execChWr_moves _ _ _ _ _ _) rfl
  | chWre => exact .wider (execChWre_moves _ _ _ _ _ _) rfl
  | chRdh => exact .wider (execChRdh_moves _ _ _ _ _) rfl
  | chTry => exact .wider (execChTry_moves _ _ _ _ _) rfl
  | chRdw => exact .wider (execChRdw_moves _ _ _ _ _) rfl
  | chAbt => exact .wider (execChAbt_moves _ _ _ _) rfl
  | chCnt => exact .wider (execChCnt_moves _ _ _ _ _) rfl
  | chFree => exact .wider (execChFree_moves _ _ _ _ _) rfl
  | lkAcq => exact .wider (execLkAcq_moves _ _ _ _ _) rfl
  | lkTry => exact .wider (execLkTry_moves _ _ _ _ _) rfl
  | lkRel => exact .wider (execLkRel_moves _ _ _ _) rfl
  | tmSet => exact .wider (execTmSet_moves _ _ _ _ _) rfl
  | ecall => exact .wider (execEcall_moves _ _ _) rfl
  | ebreak => exact .wider (execEbreak_moves _ _ _) rfl
  | svcTimerExpiry => exact .wider (execSvcTimerExpiry_moves _ _ _) rfl
  | lockLimitExpiry => exact .wider (execLockLimitExpiry_moves _ _ _) rfl
  | stallTimeout => exact .wider (execStallTimeout_moves _ _) rfl
  | svcLockRelease => exact .wider (execSvcLockRelease_moves _ _ _) rfl
  | svcThreadRun => exact .wider (execSvcThreadRun_moves _ _ _) rfl
  | svcChanEnable => exact .wider (execSvcChanEnable_moves _ _ _ _) rfl
  | svcChanDisable => exact .wider (execSvcChanDisable_moves _ _ _ _) rfl
  | svcReadySet => exact .wider (execSvcReadySet_moves _ _) rfl
  | svcReadyClear => exact .wider (execSvcReadyClear_moves _ _) rfl
  | startTimeout => exact .wider (execStartTimeout_moves _ _) rfl
  | stopGraceExpiry => exact .wider (execStopGraceExpiry_moves _ _) rfl
  | svcCmdqDb => exact .wider (execSvcCmdqDb_moves _ _ _) rfl
  | svcCmdqEnable => exact .wider (execSvcCmdqEnable_moves _ _ _) rfl
  | svcCmdqDisable => exact .wider (execSvcCmdqDisable_moves _ _ _) rfl
  | svcImageVerified => exact .wider (execSvcImageVerified_moves _ _ _ _ _) rfl
  | oobCommandMessage => exact .wider (execOobCommandMessage_moves _ _ _) rfl
  | twinForwardedCommand => exact .wider (execTwinForwardedCommand_moves _ _ _ _ _ _ _) rfl
  | sysDrained => exact .wider (execSysDrained_moves _ _) rfl
  | packageRestartBegin => exact .wider (execPackageRestartBegin_moves _) rfl
  | fwImageVerified => exact .wider (execFwImageVerified_moves _ _ _ _ _ _ _ _) rfl
  | prepareReceived => exact .wider (execPrepareReceived_moves _ _) rfl
  | preparedReceived => exact .wider (execPreparedReceived_moves _ _) rfl
  | refusedReceived => exact .wider (execRefusedReceived_moves _ _ _ _) rfl
  | commitReceived => exact .wider (execCommitReceived_moves _ _) rfl
  | committedReceived => exact .wider (execCommittedReceived_moves _ _) rfl
  | abortReceived => exact .wider (execAbortReceived_moves _ _) rfl
  | prepareReplyTimeout => exact .wider (execPrepareReplyTimeout_moves _) rfl
  | stageTimeout => exact .wider (execStageTimeout_moves _) rfl
  | epochHoldExpiry => exact .wider (execEpochHoldExpiry_moves _ _) rfl
  | tblReseedDone => exact .wider (execTblReseedDone_moves _ _) rfl
  | flowFlushComplete => exact .wider (execFlowFlushComplete_moves _) rfl
  | debugTokenExpiry => exact .wider (execDebugTokenExpiry_moves _ _) rfl
  | handoverDrained => exact .wider (execHandoverDrained_moves _) rfl
  | mbxSend => exact .wider (execMbxSend_moves _ _ _) rfl
  | mbxMsgRead => exact .wider (execMbxMsgRead_moves _ _ _ _) rfl
  | mbxDbSet => exact .wider (execMbxDbSet_moves _ _ _) rfl
  | mbxDbClear => exact .wider (execMbxDbClear_moves _ _ _) rfl
  | mbxDbMaskWrite => exact .wider (execMbxDbMaskWrite_moves _ _ _) rfl
  | memTrained => exact .wider (execMemTrained_moves _ _) rfl
  | patrolScrubRead => exact .wider (execPatrolScrubRead_moves _ _ _ _ _ _ _) rfl
  | dimmThermalRead => exact .wider (execDimmThermalRead_moves _ _ _ _) rfl
  | memoryChannelFailure => exact .wider (execMemoryChannelFailure_moves _ _ _) rfl
  | cartPresenceAssert => exact .wider (execCartPresenceAssert_moves _ _ _) rfl
  | cartChallengeResponse => exact .wider (execCartChallengeResponse_moves _ _ _ _) rfl
  | cartSettleTimeout => exact .wider (execCartSettleTimeout_moves _ _) rfl
  | cartRampStep => exact .wider (execCartRampStep_moves _ _) rfl
  | cartLatchOpen => exact .wider (execCartLatchOpen_moves _ _) rfl
  | cartPresenceOpen => exact .wider (execCartPresenceOpen_moves _ _) rfl
  | laserFailure => exact .wider (execLaserFailure_moves _ _ _) rfl
  | opticalEngineFault => exact .wider (execOpticalEngineFault_moves _ _ _) rfl
  | cartBusSilence => exact .wider (execCartBusSilence_moves _ _) rfl
  | cartReplaceReminder => exact .wider (execCartReplaceReminder_moves _ _) rfl
  | governorScan => exact .wider (execGovernorScan_moves _ _ _ _) rfl
  | governorRailStep => exact .wider (execGovernorRailStep_moves _ _) rfl
  | railMonitorCheck => exact .wider (execRailMonitorCheck_moves _ _ _) rfl
  | contactSheet => exact .wider (execContactSheet_moves _ _) rfl
  | scheduledExposure => exact .wider (execScheduledExposure_moves _ _ _) rfl
  | claimRetryTimer => exact .wider (execClaimRetryTimer_moves _ _) rfl
  | exposureTestEnd => exact .wider (execExposureTestEnd_moves _ _ _ _ _ _ _) rfl
  | referenceCheck => exact .wider (execReferenceCheck_moves _ _ _ _ _) rfl
  | heartbeatSend => exact .wider (execHeartbeatSend_moves _) rfl
  | heartbeatReceived => exact .wider (execHeartbeatReceived_moves _ _ _ _ _) rfl
  | heartbeatMissed => exact .wider (execHeartbeatMissed_moves _) rfl
  | witnessClaimResend => exact .wider (execWitnessClaimResend_moves _) rfl
  | witnessReport => exact .wider (execWitnessReport_moves _) rfl
  | witnessGrant => exact .wider (execWitnessGrant_moves _ _ _ _) rfl
  | witnessRefusal => exact .wider (execWitnessRefusal_moves _ _ _ _) rfl
  | verdictTimeout => exact .wider (execVerdictTimeout_moves _) rfl
  | twinWitnessLost => exact .wider (execTwinWitnessLost_moves _ _) rfl
  | leaveMessageReceived => exact .wider (execLeaveMessageReceived_moves _) rfl
  | twinLaneFailure => exact .wider (execTwinLaneFailure_moves _ _) rfl
  | twinLinkUp => exact .wider (execTwinLinkUp_moves _ _ _ _ _ _) rfl
  | joinConfigApplied => exact .wider (execJoinConfigApplied_moves _ _ _ _) rfl
  | joinStateCopied => exact .wider (execJoinStateCopied_moves _ _) rfl
  | lacpduReceived => exact .wider (execLacpduReceived_moves _ _ _ _ _) rfl
  | pwrOkRise => exact .wider (execPwrOkRise_moves _ _ _ _) rfl
  | pwrOkFall => exact .wider (execPwrOkFall_moves _) rfl
  | resetNAssert => exact .wider (execResetNAssert_moves _) rfl
  | resetNRelease => exact .wider (execResetNRelease_moves _ _) rfl
  | fabricBootWindowOpen => exact .wider (execFabricBootWindowOpen_moves _ _) rfl
  | protCtrlLock => exact .wider (execProtCtrlLock_moves _ _) rfl
  | bootWindowTimeout => exact .wider (execBootWindowTimeout_moves _ _) rfl
  | startTestEnd => exact .wider (execStartTestEnd_moves _ _ _ _) rfl
  | fullService => exact .wider (execFullService_moves _ _ _) rfl
  | twinAbsentAtStart => exact .wider (execTwinAbsentAtStart_moves _) rfl
  | shdnReqNAssert => exact .wider (execShdnReqNAssert_moves _) rfl
  | shutdownBedsStopped => exact .wider (execShutdownBedsStopped_moves _) rfl
  | shutdownLasersDark => exact .wider (execShutdownLasersDark_moves _) rfl
  | dieRestartDrained => exact .wider (execDieRestartDrained_moves _ _) rfl
  | dieRestartReady => exact .wider (execDieRestartReady_moves _ _) rfl
  | tkRefLoss => exact .wider (execTkRefLoss_moves _) rfl
  | tkPpsLoss => exact .wider (execTkPpsLoss_moves _) rfl
  | ptpMasterLoss => exact .wider (execPtpMasterLoss_moves _) rfl
  | timeSourceReturn => exact .wider (execTimeSourceReturn_moves _ _ _) rfl
  | timeLockAchieved => exact .wider (execTimeLockAchieved_moves _) rfl
  | ptpMessageReceived => exact .wider (execPtpMessageReceived_moves _ _ _ _ _ _ _ _) rfl
  | timeFlashWrite => exact .wider (execTimeFlashWrite_moves _) rfl
  | portPtpTxtsRead => exact .wider (execPortPtpTxtsRead_moves _ _) rfl
  | logAppend => exact .wider (execLogAppend_moves _) rfl
  | thermalReading => exact .wider (execThermalReading_moves _ _ _ _) rfl
  | firmwareTrip => exact .wider (execFirmwareTrip_moves _ _ _) rfl
  | hardwareTrip => exact .wider (execHardwareTrip_moves _ _ _) rfl
  | registerWrite => exact .wider (execRegisterWrite_moves _ _ _ _) rfl
  | linkFaultDetected => exact .wider (execLinkFaultDetected_moves _ _ _) rfl
  | linkFaultCleared => exact .wider (execLinkFaultCleared_moves _ _ _) rfl
  | perstDeassert => exact .wider (execPerstDeassert_moves _ _ _) rfl
  | l0pPartnerRequest => exact .wider (execL0pPartnerRequest_moves _ _ _ _) rfl
  | twinLaneUp => exact .wider (execTwinLaneUp_moves _ _) rfl
  | twinReplyReceived => exact .wider (execTwinReplyReceived_moves _ _ _ _ _ _) rfl
  | twinLacpInfoReceived => exact .wider (execTwinLacpInfoReceived_moves _ _ _ _) rfl
  | twinSaStateReceived => exact .wider (execTwinSaStateReceived_moves _ _ _ _) rfl
  | oobEndpointLoss => exact .wider (execOobEndpointLoss_moves _ _) rfl
  | registerReadClear => exact .wider (execRegisterReadClear_moves _ _ _) rfl
  | nvmeCqDoorbell => exact .wider (execNvmeCqDoorbell_moves _ _ _ _) rfl
  | cartBusRestored => exact .wider (execCartBusRestored_moves _ _) rfl
  | cartFatalFault => exact .wider (execCartFatalFault_moves _ _) rfl
  | laneFault => exact .wider (execLaneFault_moves _ _) rfl
  | bootMailboxWrite => exact .wider (execBootMailboxWrite_moves _ _ _) rfl
  | portSnapshotComplete => exact .wider (execPortSnapshotComplete_moves _ _ _ _) rfl
  | ageSheetReadComplete => exact .wider (execAgeSheetReadComplete_moves _ _ _ _) rfl
  | logReadComplete => exact .wider (execLogReadComplete_moves _ _ _ _) rfl
  | logTraceReadComplete => exact .wider (execLogTraceReadComplete_moves _ _ _ _) rfl

/-- Settles O52: by the frame of each row. -/
theorem execMovesOnlyItsParts : Obligations.ExecMovesOnlyItsParts :=
  fun i s t x ht hx => (exec_moves_touched i s t ht).keeps x hx

/-! ## The frame of a step -/

/-- Every part of the state. -/
def everyPart : List Part :=
  [.pending, .waiting, .out, .freeIx, .regs, .time, .log, .cmd, .cfg, .prot, .boot, .power, .twin, .spare, .ports, .tbl, .buf, .cry, .flow,
    .host, .sto, .svc, .mbx, .mem, .cart, .age, .test, .therm, .flash]

theorem popFront_moves (r : List Instr) (s : State) : Moves everyPart s { s with pending := r } :=
  .leaf (fun x hx => absurd (by cases x <;> decide) hx) rfl rfl rfl rfl

/-- What runs on an empty queue: a tick, the row of a fetched packet, or the answer to an undefined opcode. -/
theorem idle_moves (s : State) : MovesAll hasNext everyPart s (idle s) := by
  unfold idle
  split
  · exact hasNext_next ((tick_moves s).wider rfl)
  · split
    · exact .step ((dropPacket_moves ..).wider rfl) (exec_moves _ _) rfl
    · exact hasNext_next (.step ((dropPacket_moves ..).wider rfl) (badOpcode_moves ..) rfl)

/-- Whatever is at the front of the queue, a step keeps the memory's form and takes nothing back. -/
theorem step_moves (s : State) : MovesAll hasNext everyPart s (step s) := by
  unfold step
  split
  · exact idle_moves s
  · exact .step (popFront_moves ..) (exec_moves _ _) rfl

/-- Settles O50: every write of the memory keeps its form, and so does every row, every packet and every tick. -/
theorem stepKeepsMemoryForm : Obligations.StepKeepsMemoryForm :=
  fun s t hs ht => (step_moves s t ht).mem hs

/-- Settles O51: no operation of a step shortens the outputs, lowers the fuses or the index of draws, or leaves RETIRED. -/
theorem stepTakesNothingBack : Obligations.StepTakesNothingBack := by
  intro s t ht
  have h := step_moves s t ht
  exact ⟨h.out, h.fuses, h.retired, h.free⟩

end Sys2Proof.Machine

/-! The outcome of a row (R20, R23): a next state, or the fault of an element that the package does not have. -/

namespace Sys2Proof.Machine

/-- The outcome is a next state or the fault of a missing element. -/
def Answers (r : Res) : Prop := (∃ t, r = .next t) ∨ r = .fault .noSuchElement

theorem answers_next (t : State) : Answers (.next t) := .inl ⟨t, rfl⟩

theorem answers_onElem (b : Bool) (t : State) : Answers (onElem b t) := by
  cases b
  · exact .inr rfl
  · exact answers_next t

theorem answers_onPort (p : Nat) (s t : State) : Answers (onPort p s t) := answers_onElem ..

theorem answers_onSlot (sl : Nat) (t : State) : Answers (onSlot sl t) := answers_onElem ..

theorem answers_fetch (opc : Nat) (f : Fn) (q : Nat) (entry : Bytes) (act : Bytes → State → State) (s : State) :
    Answers (fetch opc f q entry act s) := answers_onElem ..

theorem answers_hostIo (opc : Nat) (f : Fn) (q : Nat) (entry : Bytes) (act : Bytes → State → State) (s : State) :
    Answers (hostIo opc f q entry act s) := by
  unfold hostIo
  split
  · exact answers_onElem ..
  · split
    · exact answers_onElem ..
    · exact answers_fetch ..

theorem answers_egressDequeue (p : Nat) (tx : TxLine) (s : State) : Answers (execEgressDequeue p tx s) := by
  unfold execEgressDequeue
  split <;> exact answers_onElem ..

theorem answers_registerWrite (r : RegAt) (len v : Nat) (s : State) : Answers (execRegisterWrite r len v s) := by
  cases r with
  | bar0 | poisoned | pcie => exact answers_onElem ..
  | internal => exact answers_next _

theorem answers_registerReadClear (r : RegAt) (len : Nat) (s : State) : Answers (execRegisterReadClear r len s) := by
  cases r with
  | bar0 | poisoned | pcie => exact answers_onElem ..
  | internal => exact answers_next _

/-- Settles O53: a row is an answer outright, or one about an element that the package has or lacks. -/
theorem execAnswersOrNamesNothing : Obligations.ExecAnswersOrNamesNothing := by
  intro i s
  change Answers (exec i s)
  cases i with
  | sysNop | sysInfo | sysEpochRead | sysPathQuery | sysDrain | sysReset | sysFwLoad | sysFwActivate | cfgStage | cfgFix | cfgDiscard | cfgWrite
  | cfgOverlay | cfgRead | tblInsert | tblDelete | tblModify | tblLookup | tblProgramSet | tblTemplateSet | tblGroupSet | tblLagSet
  | tblCounterRead | tblMeterSet | portRead | portRestart | portSnapshot | portPartnerRead | cryKekLoad | cryCakSet | cryCakClear | cryMkaRead
  | cryMkaRekey | crySaInstall | crySaRemove | crySaRead | cryTlsInstall | cryTlsResync | cryTlsRemove | cryTlsRead | flowInsert | flowDelete
  | flowRead | flowModify | flowFlush | vfQuery | vfSuspend | vfResume | vfLogStart | vfLogHarvest | vfLogStop | vfSave | vfRestore | dmaQpSet
  | dmaQpStart | dmaQpStop | dmaQpFlush | dmaQpRead | dmaChAssign | dmaChProgram | dmaChEnable | dmaChRead | stoNqnSet | stoPathAdd
  | stoPathRemove | stoNsAdd | stoNsRemove | stoNsAttach | stoNsDetach | stoNsKey | stoRead | svcImageLoad | svcStart | svcStop | svcReplace
  | svcBedQuery | svcSlotRead | dbgHalt | dbgResume | dbgAbandonMessage | dbgObserve | dbgReadReg | dbgOpen | dbgClose | testRun | testResult
  | testSchedule | ageReport | ageSheetRead | ageSheetTime | cartRead | cartPrepareSwap | cartCancelSwap | twinStatus | twinWitnessSet
  | twinHandover | logRead | logTraceArm | logTraceRead | flowDeltaMerge | flowTwinLag | flowTwinResyncDone | completionTimeout
  | vfLogHarvestComplete | vfSaveComplete | targetResponse | stoPathUp | pathConnectionError | keepAliveTimeout | ioTimeout | roceRetryExhausted
  | targetFatalStatus | pathReconnectTimer | namespaceHoldExpiry | nsDetachComplete | twinForwardedCommand | packageRestartBegin
  | fwImageVerified | prepareReceived | preparedReceived | refusedReceived | commitReceived | committedReceived | abortReceived
  | prepareReplyTimeout | stageTimeout | epochHoldExpiry | flowFlushComplete | debugTokenExpiry | handoverDrained | memTrained | patrolScrubRead
  | contactSheet | exposureTestEnd | heartbeatSend | heartbeatReceived | heartbeatMissed | witnessClaimResend | witnessReport | witnessGrant
  | witnessRefusal | verdictTimeout | twinWitnessLost | leaveMessageReceived | twinLinkUp | joinConfigApplied | joinStateCopied | pwrOkRise
  | pwrOkFall | resetNAssert | resetNRelease | fullService | twinAbsentAtStart | shdnReqNAssert | shutdownBedsStopped | shutdownLasersDark
  | tkRefLoss | tkPpsLoss | ptpMasterLoss | timeSourceReturn | timeLockAchieved | timeFlashWrite | logAppend | twinReplyReceived
  | twinSaStateReceived | bootMailboxWrite | portSnapshotComplete | ageSheetReadComplete | logReadComplete | logTraceReadComplete =>
    exact answers_next _
  | unitFault | unitHang | graftComplete | graftTimeout | elementLoss | dieLinkQuarterFail | parsePass | fragmentHoldTimeout
  | fragmentEntryTimeout | channelDelivery | twinPacketReceived | cryptoEncrypt | cryptoDecrypt | tlsTxSegment | tlsRxSegment
  | cryptoRecordFetch | flowMissService | flowIdleSweep | flowWriteBack | hostLinkTrained | perstAssert | hotReset | hostLinkLoss
  | hostFatalError | functionLevelReset | flrComplete | busMasterEnableClear | busMasterEnableSet | hostCompletionReceived
  | bar0UnsupportedAccess | bar2Access | winCommit | winCommitComplete | pfCqDb | pfCqEnable | pfCqDisable | pfCqRqHead | pfIntxCauseRead
  | l0pNarrow | aspmL1Entry | powerStateChange | numvfsWrite | vfEnableSet | vfEnableClear | vfCtrlEnableSet | vfCtrlEnableClear
  | vfShutdownDone | vfSuspendComplete | vfRestored | qpDbTx | qpDbRx | qpDbCq | hostTxFetch | hostRxDelivery | interruptModerationTimer
  | dmaQpFlushed | dmaBeat | dmaRequestLineAssert | nvmeSqDoorbell | nvmeCcEnable | nvmeCcDisable | nvmeCcShutdown | bedStorageSubmit
  | instructionIssue | chWr | chWre | chRdh | chTry | chRdw | chAbt | chCnt | chFree | lkAcq | lkTry | lkRel | tmSet | ecall | ebreak
  | svcTimerExpiry | lockLimitExpiry | stallTimeout | svcLockRelease | svcThreadRun | svcChanEnable | svcChanDisable | svcReadySet
  | svcReadyClear | startTimeout | stopGraceExpiry | svcCmdqDb | svcCmdqEnable | svcCmdqDisable | svcImageVerified | oobCommandMessage
  | sysDrained | tblReseedDone | mbxSend | mbxMsgRead | mbxDbSet | mbxDbClear | mbxDbMaskWrite | dimmThermalRead | memoryChannelFailure
  | laserFailure | opticalEngineFault | governorScan | governorRailStep | railMonitorCheck | scheduledExposure | claimRetryTimer
  | referenceCheck | twinLaneFailure | fabricBootWindowOpen | protCtrlLock | bootWindowTimeout | startTestEnd | dieRestartDrained
  | dieRestartReady | ptpMessageReceived | portPtpTxtsRead | thermalReading | firmwareTrip | hardwareTrip | perstDeassert | l0pPartnerRequest
  | twinLaneUp | twinLacpInfoReceived | oobEndpointLoss | nvmeCqDoorbell | laneFault =>
    exact answers_onElem ..
  | rateHuntTimeout | receiverLock | candidateDwellExpiry | fecPartnerIdentified | fecMismatchWaitExpiry | lockHoldExpiry | lockLost
  | linkFaultPersist | heldExpiry | frameReceived | pfcRefreshTimer | pfcFrameReceived | pauseFrameReceived | pauseTimeExpiry
  | lldpFrameReceived | lldpTransmitTimer | dcbxAbsentTimeout | lldpPartnerAgeout | portSyncOverflow | mkpduReceived | mkaHelloTimer
  | mkaLifeExpiry | lacpduReceived | linkFaultDetected | linkFaultCleared =>
    exact answers_onPort ..
  | egressDequeue =>
    exact answers_egressDequeue ..
  | nvmeIdentify | nvmeGetLogPage | nvmeSetFeatures | nvmeGetFeatures | nvmeCreateIoSq | nvmeCreateIoCq | nvmeDeleteIoSq | nvmeDeleteIoCq
  | nvmeAbort | nvmeAsyncEventRequest =>
    exact answers_onElem ..
  | nvmeRead | nvmeWrite | nvmeFlush | nvmeWriteZeroes | nvmeDatasetManagement | nvmeCompare =>
    exact answers_hostIo ..
  | cartPresenceAssert | cartChallengeResponse | cartSettleTimeout | cartRampStep | cartLatchOpen | cartPresenceOpen | cartBusSilence
  | cartReplaceReminder | cartBusRestored | cartFatalFault =>
    exact answers_onSlot ..
  | registerWrite =>
    exact answers_registerWrite ..
  | registerReadClear =>
    exact answers_registerReadClear ..

end Sys2Proof.Machine

/-! The checks of a command packet (R434, R441, R442, R446): how the first of them that fails is answered. -/

namespace Sys2Proof.Machine

/-! ## Packets that start -/

/-- Nothing holds a packet back while management answers, no fence is asked for and the twin is not suspected (R434, R611, R682). -/
theorem mustWait_eq_false {o : Op} {c : Cmd} {s : State} (hmgmt : s.boot.mgmtRuns = true) (hfence : c.fence = false)
    (htwin : s.twin.state ≠ .suspect) : mustWait o c s = false := by
  simp [mustWait, hmgmt, hfence, htwin]

/-- The answer to a refusal of checks 1 to 6, counted where the protection map refused (R446, R616). -/
def refused (code : Nat) (c : Cmd) (r : Rep) (violates : Bool) (s : State) : State :=
  let t := sendReply c.queue c.tag.toNat code 0 (curEpoch s) r s
  if violates then violation 0 (requester s c.queue) 2 code t else t

theorem runCmd_of_rightsRefusal {o : Op} {c : Cmd} {s : State} {r : Rep} {v : Bool} (hup : s.power.shutdown < 3)
    (hstart : mustWait o c s = false) (hr : rightsRefusal o c s = some (r, v)) : runCmd o c s = refused o.code c r v s := by
  have hnot : ¬ 3 ≤ s.power.shutdown := by omega
  simp [runCmd, hnot, hstart, hr, refused, answer]

/-- A key's packet is checked after its queue memory is wiped, which moves nothing that decides whether it waits (R205). -/
theorem runKeyCmd_of_rightsRefusal {o : Op} {f : KeyField} {c : Cmd} {s : State} {r : Rep} {v : Bool} (hup : s.power.shutdown < 3)
    (hmgmt : s.boot.mgmtRuns = true) (hfence : c.fence = false) (htwin : s.twin.state ≠ .suspect)
    (hr : rightsRefusal o c (wipe c s) = some (r, v)) : runKeyCmd o f c s = refused o.code c r v (wipe c s) := by
  have hpower : (wipe c s).power = s.power := (wipe_moves c s).keeps .power (by decide)
  have hboot : (wipe c s).boot = s.boot := (wipe_moves c s).keeps .boot (by decide)
  have htw : (wipe c s).twin = s.twin := (wipe_moves c s).keeps .twin (by decide)
  have hwait : mustWait o c s = false := mustWait_eq_false hmgmt hfence htwin
  have hwait' : mustWait o c (wipe c s) = false := mustWait_eq_false (by rwa [hboot]) hfence (by rwa [htw])
  rw [← runCmd_of_rightsRefusal (by rwa [hpower]) hwait' hr]
  simp [runKeyCmd, hwait, hr]

/-- The packet of a defined opcode answers with the refusal that checks 1 to 6 find. -/
theorem exec_of_rightsRefusal {code : Nat} {c : Cmd} {i : Instr} {s : State} (hi : instrOf code c = some i) (hup : s.power.shutdown < 3)
    (hmgmt : s.boot.mgmtRuns = true) (hfence : c.fence = false) (htwin : s.twin.state ≠ .suspect) {r : Rep} {v : Bool}
    (hr : ∀ o : Op, o.code = code → rightsRefusal o c (checkedAt code c s) = some (r, v)) :
    exec i s = .next (refused code c r v (checkedAt code c s)) := by
  obtain ⟨o, rfl, ⟨hkey, hexec⟩ | ⟨hkey, f, hexec⟩⟩ := instrOf_runs hi s
  · have hat : checkedAt o.code c s = s := by simp [checkedAt, hkey]
    have hr' := hr o rfl
    rw [hat] at hr'
    rw [hexec, hat, runCmd_of_rightsRefusal hup (mustWait_eq_false hmgmt hfence htwin) hr']
  · have hat : checkedAt o.code c s = wipe c s := by simp [checkedAt, hkey]
    have hr' := hr o rfl
    rw [hat] at hr'
    rw [hexec, hat, runKeyCmd_of_rightsRefusal hup hmgmt hfence htwin hr']

/-! ## The checks in their order -/

section
variable {o : Op} {c : Cmd} {s : State}

theorem rightsRefusal_of_slots (h : c.slots = 0 ∨ 16 < c.slots) : rightsRefusal o c s = some (badParam dSlotCount, false) := by
  simp [rightsRefusal, h]

theorem rightsRefusal_of_reserved (h1 : 1 ≤ c.slots) (h16 : c.slots ≤ 16) (h : fld c.flags.toNat 4 4 ≠ 0 ∨ c.rsvd ≠ 0) :
    rightsRefusal o c s = some (badParam dReserved, false) := by
  have hslots : ¬ (c.slots = 0 ∨ 16 < c.slots) := by omega
  rcases h with h | h
  · simp [rightsRefusal, hslots, h]
  · simp only [rightsRefusal, Bool.or_eq_true, beq_iff_eq, decide_eq_true_eq, hslots, if_false, bne_iff_ne, h, ne_eq, not_false_eq_true, or_true,
      if_true]

variable (h1 : 1 ≤ c.slots) (h16 : c.slots ≤ 16) (hflags : fld c.flags.toNat 4 4 = 0) (hrsvd : c.rsvd = 0)
include h1 h16 hflags hrsvd

theorem rightsRefusal_of_staged (hst : c.staged = true) (hcfg : opClass o.code ≠ 1) (htbl : opClass o.code ≠ 2) :
    rightsRefusal o c s = some (badParam dReserved, false) := by
  have hslots : ¬ (c.slots = 0 ∨ 16 < c.slots) := by omega
  simp [rightsRefusal, hslots, hflags, hrsvd, hst, hcfg, htbl]

variable (hst : c.staged = false ∨ opClass o.code = 1 ∨ opClass o.code = 2)
include hst

theorem rightsRefusal_of_tagInUse (htag : tagInUse s c.queue c.tag.toNat = true) :
    rightsRefusal o c s = some (badParam dTagInUse, false) := by
  have hslots : ¬ (c.slots = 0 ∨ 16 < c.slots) := by omega
  have hstage : ¬ ((c.staged = true ∧ ¬ opClass o.code = 1) ∧ ¬ opClass o.code = 2) := by rintro ⟨⟨h, h'⟩, h''⟩; simp_all
  simp [rightsRefusal, hslots, hflags, hrsvd, hstage, htag]

variable (htag : tagInUse s c.queue c.tag.toNat = false)
include htag

theorem rightsRefusal_of_class (hcls : queueCarries c.queue o.code = false) : rightsRefusal o c s = some (denied dClass, false) := by
  have hslots : ¬ (c.slots = 0 ∨ 16 < c.slots) := by omega
  have hstage : ¬ ((c.staged = true ∧ ¬ opClass o.code = 1) ∧ ¬ opClass o.code = 2) := by rintro ⟨⟨h, h'⟩, h''⟩; simp_all
  simp [rightsRefusal, hslots, hflags, hrsvd, hstage, htag, hcls]

variable (hcls : queueCarries c.queue o.code = true) (hbed : ∀ n, origin c.queue ≠ .bed n) (hrec : s.boot.recovery = false)
include hcls hbed hrec

theorem rightsRefusal_of_protection (hgrant : grantsClass s (requester s c.queue) (opClass o.code) = false) :
    rightsRefusal o c s = some (denied dProtection, true) := by
  have hslots : ¬ (c.slots = 0 ∨ 16 < c.slots) := by omega
  have hstage : ¬ ((c.staged = true ∧ ¬ opClass o.code = 1) ∧ ¬ opClass o.code = 2) := by rintro ⟨⟨h, h'⟩, h''⟩; simp_all
  cases ho : origin c.queue with
  | bed n => exact absurd ho (hbed n)
  | _ => simp [rightsRefusal, hslots, hflags, hrsvd, hstage, htag, hcls, ho, hrec, hgrant]

theorem rightsRefusal_of_notOwn (hgrant : grantsClass s (requester s c.queue) (opClass o.code) = true)
    (hown : namesOwn c o.code = false) : rightsRefusal o c s = some (denied dNotOwn, false) := by
  have hslots : ¬ (c.slots = 0 ∨ 16 < c.slots) := by omega
  have hstage : ¬ ((c.staged = true ∧ ¬ opClass o.code = 1) ∧ ¬ opClass o.code = 2) := by rintro ⟨⟨h, h'⟩, h''⟩; simp_all
  cases ho : origin c.queue with
  | bed n => exact absurd ho (hbed n)
  | _ => simp [rightsRefusal, hslots, hflags, hrsvd, hstage, htag, hcls, ho, hrec, hgrant, hown]

end

/-- Settles O54: the checks stand in `rightsRefusal` in the order of R446, so the first that fails answers. -/
theorem firstFailingCheckAnswers : Obligations.FirstFailingCheckAnswers := by
  rintro code c i s t _ hi rfl hup hmgmt hfence htwin rfl
  have hrec : (checkedAt code c s).boot.recovery = s.boot.recovery := by
    unfold checkedAt
    split
    · exact congrArg _ ((wipe_moves c s).keeps .boot (by decide))
    · rfl
  have key {r : Rep} {v : Bool} (h : ∀ o : Op, o.code = code → rightsRefusal o c (checkedAt code c s) = some (r, v)) :=
    exec_of_rightsRefusal hi hup hmgmt hfence htwin h
  refine ⟨fun h => key (v := false) fun o _ => rightsRefusal_of_slots h, fun h1 h16 =>
    ⟨fun h => key (v := false) fun o _ => rightsRefusal_of_reserved h1 h16 h, fun hflags hrsvd =>
    ⟨fun hst hcfg htbl => key (v := false) ?_, fun hst =>
    ⟨fun htag => key (v := false) ?_, fun htag =>
    ⟨fun hcls => key (v := false) ?_, fun hcls hbed hr =>
    ⟨fun hgrant => key (v := true) ?_, fun hgrant hown => key (v := false) ?_⟩⟩⟩⟩⟩⟩
  all_goals rintro o rfl
  · exact rightsRefusal_of_staged h1 h16 hflags hrsvd hst hcfg htbl
  · exact rightsRefusal_of_tagInUse h1 h16 hflags hrsvd hst htag
  · exact rightsRefusal_of_class h1 h16 hflags hrsvd hst htag hcls
  · exact rightsRefusal_of_protection h1 h16 hflags hrsvd hst htag hcls hbed (hrec.trans hr) hgrant
  · exact rightsRefusal_of_notOwn h1 h16 hflags hrsvd hst htag hcls hbed (hrec.trans hr) hgrant hown

end Sys2Proof.Machine

/-! The empty queue (R434, R436, R446): which waiting packet starts, and what a step does with it. -/

namespace Sys2Proof.Machine

theorem step_of_empty {s : State} (h : s.pending = []) : step s = idle s := by
  rw [step, h]

/-- The packet that starts is the first of its queue: every queue passed over stays passed over. -/
theorem nextPacket_split (s : State) (l : List (Nat × Cmd)) (before : List QueueId) (code : Nat) (c : Cmd)
    (h : nextPacket s l before = some (code, c)) :
    ∃ p q, l = p ++ (code, c) :: q ∧ c.queue ∉ before ∧ packetWaits code c s = false ∧ p.all (fun x => x.2.queue != c.queue) = true := by
  induction l generalizing before with
  | nil => simp [nextPacket] at h
  | cons x r ih =>
    obtain ⟨k, d⟩ := x
    simp only [nextPacket] at h
    split at h
    · obtain ⟨p, q, hl, hbefore, hwaits, hp⟩ := ih (d.queue :: before) h
      rw [List.mem_cons, not_or] at hbefore
      exact ⟨(k, d) :: p, q, by rw [hl]; rfl, hbefore.2, hwaits, by simp [hp, Ne.symm hbefore.1]⟩
    · rename_i hstarts
      cases h
      simp only [Bool.or_eq_true, not_or, Bool.not_eq_true, List.contains_eq_mem, decide_eq_false_iff_not] at hstarts
      exact ⟨[], r, rfl, hstarts.1, hstarts.2, rfl⟩

/-- A packet that passes the checks before its opcode is looked up (R14, R446). -/
theorem badOpcode_of_checked {code : Nat} {c : Cmd} {s : State} (hup : s.power.shutdown < 3) (h1 : 1 ≤ c.slots) (h16 : c.slots ≤ 16)
    (hflags : fld c.flags.toNat 4 4 = 0) (hrsvd : c.rsvd = 0) (hst : c.staged = false) :
    badOpcode code c s = sendReply c.queue c.tag.toNat code 0 (curEpoch s) (rep stBadOpcode 0) s := by
  have hrunning : ¬ 3 ≤ s.power.shutdown := by omega
  have hslots : ¬ (c.slots = 0 ∨ 16 < c.slots) := by omega
  simp [badOpcode, hrunning, hslots, hflags, hrsvd, hst]

/-- Settles O48: an empty queue leaves the step to `idle`, which asks `nextPacket`. -/
theorem emptyQueueActs : Obligations.EmptyQueueActs := by
  refine ⟨fun s hempty hnone => ?_, fun s code c i hempty hnext hi => ?_,
    fun s code c hempty hnext hi hup h1 h16 hflags hrsvd hst => ?_, nextPacket_split⟩
  · rw [step_of_empty hempty, idle, hnone]
  · rw [step_of_empty hempty, idle, hnext]
    simp only [hi]
  · rw [step_of_empty hempty, idle, hnext]
    simp only [hi]
    rw [badOpcode_of_checked (s := dropPacket (code, c) s) hup h1 h16 hflags hrsvd hst]
    rfl

end Sys2Proof.Machine

/-! The memory as a map of bytes (R500): what a read gives after a write, a store through a BAR2 window (R284) and a log record (R658). -/

namespace Sys2Proof.Machine

/-! ## Reads after writes -/

@[simp] theorem memRead_length (s : State) (a n : Nat) : (memRead s a n).length = n := by simp [memRead, Memory.readAll]

theorem memRead_congr {s t : State} (h : t.mem.cells = s.mem.cells) (a n : Nat) : memRead t a n = memRead s a n := by
  simp only [memRead, h]

@[simp] theorem memWrite_cells (s : State) (a : Nat) (d : Bytes) : (memWrite s a d).mem.cells = Memory.writeAll s.mem.cells a d := rfl

theorem memRead_memWrite_same {s : State} (h : memOk s) (a : Nat) (d : Bytes) : memRead (memWrite s a d) a d.length = d := by
  refine List.ext_getElem (memRead_length ..) fun k hk hd => ?_
  simp [memRead, Memory.readAll, Memory.read_writeAll _ _ _ _ h, hd]

theorem memRead_memWrite_apart {s : State} (h : memOk s) {a b n : Nat} {d : Bytes} (hapart : b + n ≤ a ∨ a + d.length ≤ b) :
    memRead (memWrite s a d) b n = memRead s b n := by
  refine List.ext_getElem (by simp) fun k hk _ => ?_
  have hkn : k < n := by simpa using hk
  have hout : ¬ (a ≤ b + k ∧ b + k < a + d.length) := by omega
  simp [memRead, Memory.readAll, Memory.read_writeAll _ _ _ _ h, hout]

/-! ## A store through a BAR2 window (R284, R285) -/

/-- A granted write that lies in one valid window of memory stores at the address that the window and the offset give. -/
theorem exec_bar2Access_write {f : Fn} {off len : Nat} {d : Bytes} {s : State} {e k a : Nat} (hf : fnExists s f = true) (hpf : f.num = 0)
    (hk : k = 2 ^ s.host.winLog2) (he : e = tgetD (funcOf s f).active (off / k) 0) (hlen : 0 < d.length) (hvalid : bit e 0 = true)
    (hwin : off / k < 64) (hone : off / k = (off + d.length - 1) / k) (ha : a = fld e 12 36 * 4096 + off % k)
    (hmem : isMemory a d.length = true) (hwr : bit e 2 = true) (hgrant : rangeGrants s (pfCode f) a d.length true = true)
    (hpoison : poisonBlocks s a d.length = false) :
    exec (.bar2Access f off len (some d)) s = .next (memWrite s a d) := by
  subst hk he ha
  change execBar2Access f off len (some d) s = _
  have hne : d.length ≠ 0 := by omega
  have hin : ¬ 64 ≤ off / 2 ^ s.host.winLog2 := by omega
  simp [execBar2Access, onElem, hf, hpf, hne, hvalid, hin, ← hone, hwr, hgrant, hmem, hpoison, busWrite]

/-! ## A record of the log (R657, R658) -/

theorem recordBytes_length (r : LogRec) : (recordBytes r).length = 64 := by simp [recordBytes]

/-- A record of the ring in DDR5 stands in its own 64 bytes. -/
theorem memRead_logToDdr5_apart {s : State} (h : memOk s) {r : LogRec} {b n : Nat}
    (hapart : b + n ≤ logBase + 64 * (r.seq % 65536) ∨ logBase + 64 * (r.seq % 65536) + 64 ≤ b) :
    memRead (logToDdr5 r s) b n = memRead s b n := by
  have hstore : memRead (memWrite s (logBase + 64 * (r.seq % 65536)) (recordBytes r)) b n = memRead s b n :=
    memRead_memWrite_apart h (by rwa [recordBytes_length])
  simp only [logToDdr5]
  split <;> split <;> first | rfl | exact hstore

theorem memRead_logAppend_apart {s : State} (h : memOk s) (hup : ddr5Up s = true) (e : EvRec) {b n : Nat}
    (hapart : b + n ≤ logBase + 64 * (s.log.next % 65536) ∨ logBase + 64 * (s.log.next % 65536) + 64 ≤ b) :
    memRead (logAppend e s) b n = memRead s b n := by
  have hup' : ddr5Up (evlogMod (fun l => { l with next := (l.next + 1) % 2 ^ 64 }) s) = true := hup
  simp only [logAppend]
  rw [if_pos hup']
  exact memRead_logToDdr5_apart (by exact h) (by exact hapart)

/-- Settles O59: every store is one `memWrite`, and a `memWrite` is read back and touches no other byte. -/
theorem memoryHoldsWhatIsWritten : Obligations.MemoryHoldsWhatIsWritten := by
  refine ⟨fun s a d h => ⟨memRead_memWrite_same h a d, fun b n => memRead_memWrite_apart h⟩, ?_, ?_⟩
  · intro f off d s e a t h hf hpf he hlen hvalid hwr hwin hone ha hmem hgrant hpoison ht
    rw [exec_bar2Access_write hf hpf rfl he hlen hvalid hwin hone ha hmem hwr hgrant hpoison] at ht
    cases ht
    exact ⟨memRead_memWrite_same h a d, fun b n => memRead_memWrite_apart h⟩
  · intro s t b n h hup hapart ht
    change execLogAppend s = _ at ht
    cases ht
    split
    · rfl
    · exact memRead_logAppend_apart (s := evlogMod _ s) h hup _ hapart

end Sys2Proof.Machine

/-! The life cycle (R620, R621): a request is used up, and moves the state along a row of the table or not at all. -/

namespace Sys2Proof.Machine

/-- The rows of the table of R620. -/
theorem mem_transitions_of_lcAllowed {r : LcReq} (h : lcAllowed r = true) :
    (r.old, r.new) ∈ [(0, 1), (1, 2), (2, 3), (2, 4), (3, 4), (1, 5), (2, 5), (4, 5)] := by
  unfold lcAllowed at h
  split at h <;> simp_all

theorem lifeCode_lifeOfCode {n : Nat} (h : n ≤ 5) : lifeCode (lifeOfCode n) = n := by
  have hn : n = 0 ∨ n = 1 ∨ n = 2 ∨ n = 3 ∨ n = 4 ∨ n = 5 := by omega
  rcases hn with rfl | rfl | rfl | rfl | rfl | rfl <;> rfl

theorem raise_boot (code p : Nat) (w : List Nat) (s : State) : (raise code p w s).boot = s.boot :=
  (raise_moves code p w s).keeps .boot (by decide)

theorem randomBytes_boot (n : Nat) (s : State) : (randomBytes n s).2.boot = s.boot :=
  (randomBytes_moves n s).get_snd.keeps .boot (by decide)

/-- What a transition brings beside the fuse (R622): a KEK and owner keys at PROVISIONED, their erasure at RETURNED and RETIRED. -/
def lcBrings (r : LcReq) (s : State) : State :=
  if r.new == 2 then
    let drawn := randomBytes 24 { s with cry := { s.cry with keks := tput s.cry.keks 0 { key := r.kek } } }
    emit (.jtag drawn.1) (bootMod (fun b => { b with ownerKeys := true }) drawn.2)
  else if r.new == 4 || r.new == 5 then eraseOwner s
  else s

theorem lcBrings_life (r : LcReq) (s : State) :
    (lcBrings r s).boot.lifecycle = s.boot.lifecycle ∧ (lcBrings r s).boot.lcRequest = s.boot.lcRequest := by
  unfold lcBrings
  split
  · simp [bootMod, randomBytes_boot]
  · split <;> exact ⟨rfl, rfl⟩

/-- A request acts where it names the serial and the present state, is signed, and the table has its row for this signer. -/
theorem lcStep_of_request {s : State} {r : LcReq} (hr : s.boot.lcRequest = some r) :
    lcStep s = if r.serial && r.signed && r.old == lifeCode s.boot.lifecycle && lcAllowed r then
        raise 0x4005 b0Place [r.old, r.new] (lcBrings r (toFlash 8 0 [byte r.new]
          (bootMod (fun b => { b with lcRequest := none, lifecycle := lifeOfCode r.new }) s)))
      else bootMod (fun b => { b with lcRequest := none }) s := by
  simp only [lcStep, hr]
  rfl

/-- Settles O60: by the pending request and whether it acts. -/
theorem lifeCycleFollowsItsTable : Obligations.LifeCycleFollowsItsTable := by
  intro s
  cases hr : s.boot.lcRequest with
  | none => simp [lcStep, hr]
  | some r =>
    rw [lcStep_of_request hr]
    split
    · rename_i hacts
      simp only [Bool.and_eq_true, beq_iff_eq] at hacts
      obtain ⟨⟨⟨hserial, hsigned⟩, hold⟩, hallowed⟩ := hacts
      have hrow := mem_transitions_of_lcAllowed hallowed
      have hnew : r.new ≤ 5 := by simp at hrow; omega
      obtain ⟨hlife, hreq⟩ := lcBrings_life r (toFlash 8 0 [byte r.new]
        (bootMod (fun b => { b with lcRequest := none, lifecycle := lifeOfCode r.new }) s))
      rw [raise_boot, hlife, hreq]
      exact ⟨rfl, .inr ⟨r, rfl, hserial, hsigned, hold, lifeCode_lifeOfCode hnew, hrow⟩⟩
    · exact ⟨rfl, .inl rfl⟩

end Sys2Proof.Machine

/-! The rows of a mailbox channel (R488-R491) where the channel exists and has its ends. -/

namespace Sys2Proof.Machine

theorem mbxSend_of_recvReset {c : Nat} {s : State} (hreset : (mbxOf s c).recvReset = true) (len : Nat) :
    mbxSend c len s = signalSender c 5 (mbxMod c (fun m => { m with aborted := true }) s) := by
  simp [mbxSend, hreset]

theorem exec_mbxDbSet_of_sender {c : Nat} {s : State} (hc : c < 32) (hends : (mbxSender s c).isSome = true) (w : Word) :
    exec (.mbxDbSet c w) s = .next (mbxDbSet c w s) := by
  change execMbxDbSet c w s = _
  simp [execMbxDbSet, onElem, hc, hends]

theorem exec_mbxDbClear_of_receiver {c : Nat} {s : State} (hc : c < 32) (hends : (mbxReceiver s c).isSome = true) (w : Word) :
    exec (.mbxDbClear c w) s = .next (mbxDbClear c w s) := by
  change execMbxDbClear c w s = _
  simp [execMbxDbClear, onElem, hc, hends]

theorem exec_mbxDbMaskWrite_of_receiver {c : Nat} {s : State} (hc : c < 32) (hends : (mbxReceiver s c).isSome = true) (w : Word) :
    exec (.mbxDbMaskWrite c w) s = .next (mbxDbMask c w s) := by
  change execMbxDbMaskWrite c w s = _
  simp [execMbxDbMaskWrite, onElem, hc, hends]

/-- A read of an empty channel changes nothing. -/
theorem mbxRead63_of_empty {c : Nat} {s : State} (hempty : (mbxOf s c).full = false) : mbxRead63 c s = s := by
  simp [mbxRead63, hempty]

theorem exec_mbxMsgRead_of_nothing {c off len : Nat} {s : State} (hc : c < 32)
    (hno : 63 < off ∨ off + len ≤ 63 ∨ (mbxOf s c).full = false) : exec (.mbxMsgRead c off len) s = .next (msgReadOut c off len s) := by
  by_cases hmiss : 63 < off ∨ off + len ≤ 63
  · exact exec_mbxMsgRead_of_misses hc hmiss s
  · have hempty : (mbxOf s c).full = false := by
      rcases hno with h | h | h
      · exact absurd (.inl h) hmiss
      · exact absurd (.inr h) hmiss
      · exact h
    rw [exec_mbxMsgRead_of_covers hc (by omega) (by omega), mbxRead63_of_empty (by rwa [mbxOf_msgReadOut])]

/-- Settles O42: by the state of the channel that each row finds. -/
theorem mailboxesAct : Obligations.MailboxesAct := by
  refine ⟨fun c len s hc hends => ⟨fun hreset => ?_, fun hrun hbad => ?_, fun hrun h1 h64 hempty => ?_, ?_⟩,
    fun c off len s _ hc ht => ?_, fun c w s hc hends => ⟨exec_mbxDbClear_of_receiver hc hends w, ?_⟩⟩
  · rw [exec_mbxSend_of_sender hc hends, mbxSend_of_recvReset hreset]
  · rw [exec_mbxSend_of_sender hc hends, mbxSend_of_refused hrun hbad]
  · rw [exec_mbxSend_of_sender hc hends, mbxSend_of_empty hrun h1 h64 hempty]
  · rintro w _ rfl
    rw [exec_mbxDbSet_of_sender hc hends]
    simp [mbxDbSet]
  · rw [ht]
    refine ⟨fun hoff hend hfull => ?_, fun hno => exec_mbxMsgRead_of_nothing hc hno⟩
    rw [exec_mbxMsgRead_of_covers hc hoff hend, mbxRead63_of_full (by rwa [mbxOf_msgReadOut])]
    rfl
  · rintro _ rfl
    rw [exec_mbxDbMaskWrite_of_receiver hc hends]
    simp [mbxDbMask]

end Sys2Proof.Machine

/-! NVMe controllers (R354-R358, R370): their registers and doorbells, and an admin command fetched by a controller that may fetch. -/

namespace Sys2Proof.Machine

theorem onElem_true {b : Bool} (h : b = true) (t : State) : onElem b t = .next t := by rw [h]; rfl

/-! ## Registers and doorbells (R355-R358) -/

/-- Settles O37: each row by the condition on the controller that its clause names. -/
theorem nvmeControllerActs : Obligations.NvmeControllerActs := by
  refine ⟨fun f cc s hf hoff hon => ?_, fun f cc s hf hon => ⟨fun hoff => ?_, fun hbit hshn hst => ?_⟩,
    fun f q v s x hf hq hv hlt => ?_, fun f q v s x hf hq hv hlt => ?_⟩
  · change execNvmeCcEnable f cc s = _
    rw [execNvmeCcEnable, onElem_true hf]
    simp only [hoff, hon, Bool.not_true, Bool.or_false, Bool.false_eq_true, if_false]
    rfl
  · change execNvmeCcDisable f cc s = _
    rw [execNvmeCcDisable, onElem_true hf]
    simp [hoff, hon]
  · change execNvmeCcShutdown f cc s = _
    rw [execNvmeCcShutdown, onElem_true hf]
    rcases hshn with h | h <;> simp [hbit, hon, hst, h]
  · change execNvmeSqDoorbell f q v s = _
    rw [execNvmeSqDoorbell, onElem_true hf, hq]
    simp [Nat.mod_eq_of_lt hlt, hv]
  · change execNvmeCqDoorbell f q v s = _
    rw [execNvmeCqDoorbell, onElem_true hf, hq]
    simp [Nat.mod_eq_of_lt hlt, hv]

/-! ## Fetching -/

theorem isNvme_of_nvmeMay {s : State} {f : Fn} {q : Nat} (h : nvmeMay s f q = true) : isNvme s f = true := by
  simp only [nvmeMay, Bool.and_eq_true] at h
  exact h.1.1.1.1.1.1.1

/-- An entry of the row's own opcode, which the controller supports, is taken and acted on. -/
theorem fetch_of_may {f : Fn} {q : Nat} {entry : Bytes} {s : State} {opc : Nat} (hmay : nvmeMay s f q = true)
    (hops : opc ∈ (if q == 0 then adminOps else ioOps)) (hopc : enOpc (fitTo 64 entry) = opc) (act : Bytes → State → State) :
    fetch opc f q entry act s = .next (act (fitTo 64 entry) (takeEntry f q s)) := by
  rw [fetch, onElem_true (isNvme_of_nvmeMay hmay), hmay, hopc, List.contains_eq_mem, decide_eq_true hops]
  simp

section
variable {f : Fn} {entry list : Bytes} {s : State}

/-- An admin command without PRP or SGL bits that are reserved completes with what its body gives. -/
theorem admin_of_may {opc : Nat} (hmay : nvmeMay s f 0 = true) (hprp : fld (rd (fitTo 64 entry) 1 1) 6 2 = 0) (hops : opc ∈ adminOps)
    (hopc : enOpc (fitTo 64 entry) = opc) (body : Bytes → State → (Nat × Nat) × State) {dw0 st : Nat} {t : State}
    (hbody : body (fitTo 64 entry) (takeEntry f 0 s) = ((dw0, st), t)) :
    admin opc f entry body s = .next (nvmeComplete f 0 (enCid (fitTo 64 entry)) dw0 st t) := by
  rw [admin, fetch_of_may hmay hops hopc]
  simp [hprp, hbody]

theorem adminData_of_segs {e d : Bytes} {l : List (Nat × Nat)} (h : dataSegs (nvmePage (nvmeOf s f)) e list d.length = .inr l) :
    adminData f e list d s = ((0, 0), fillSegs f l d s) := by
  simp [adminData, h]

end

/-! ## Identity, logs, features and events (R354, R356, R357, R370) -/

/-- Settles O38: each command by the selector field that its clause gives. -/
theorem nvmeAdminCommandsAct : Obligations.NvmeAdminCommandsAct := by
  refine ⟨?_, ?_, ?_, ?_, ?_, ?_, ?_, ?_, ?_, ?_, ?_, ?_, ?_, ?_⟩
  · rintro f entry list s _ _ l hmay rfl hprp rfl hopc hcns hl
    change execNvmeIdentify f entry list s = _
    rw [execNvmeIdentify]
    exact admin_of_may hmay hprp (by decide) hopc _ (by simp [hcns, adminData_of_segs hl])
  · rintro f entry list s _ _ l a n hmay rfl hprp rfl hopc hcns hn0 hn ha hns hl
    have hin : ¬ 1024 < enNsid (fitTo 64 entry) := by omega
    change execNvmeIdentify f entry list s = _
    rw [execNvmeIdentify]
    exact admin_of_may hmay hprp (by decide) hopc _ (by simp [hcns, hn0, hin, ha, hns, adminData_of_segs hl])
  · rintro f entry list s _ _ l _ hmay rfl hprp rfl hopc hlid hrae rfl hl
    change execNvmeGetLogPage f entry list s = _
    rw [execNvmeGetLogPage]
    exact admin_of_may hmay hprp (by decide) hopc _ (by simp [hlid, hrae, adminData_of_segs hl])
  · rintro f entry list s _ _ l _ hmay rfl hprp rfl hopc hlid rfl hl
    change execNvmeGetLogPage f entry list s = _
    rw [execNvmeGetLogPage]
    exact admin_of_may hmay hprp (by decide) hopc _ (by simp [hlid, adminData_of_segs hl])
  · rintro f entry s _ _ hmay rfl hprp rfl hopc hsave hfid hnone
    change execNvmeSetFeatures f entry s = _
    rw [execNvmeSetFeatures]
    exact admin_of_may hmay hprp (by decide) hopc _ (by simp [hsave, hfid, hnone, queueCounts])
  · rintro f entry s _ _ hmay rfl hprp rfl hopc hsave hfid hsome
    change execNvmeSetFeatures f entry s = _
    rw [execNvmeSetFeatures]
    exact admin_of_may hmay hprp (by decide) hopc _ (by simp [hsave, hfid, hsome])
  · rintro f entry s _ _ hmay rfl hprp rfl hopc hsave hfid
    change execNvmeSetFeatures f entry s = _
    rw [execNvmeSetFeatures]
    exact admin_of_may hmay hprp (by decide) hopc _ (by simp [hsave, hfid])
  · rintro f entry s _ _ hmay rfl hprp rfl hopc hsave hfid
    change execNvmeSetFeatures f entry s = _
    rw [execNvmeSetFeatures]
    exact admin_of_may hmay hprp (by decide) hopc _ (by simp [hsave, hfid])
  · rintro f entry s _ _ hmay rfl hprp rfl hopc hsel hfid
    change execNvmeGetFeatures f entry s = _
    rw [execNvmeGetFeatures]
    exact admin_of_may hmay hprp (by decide) hopc _ (by simp [hsel, hfid, queueCounts])
  · rintro f entry s _ _ hmay rfl hprp rfl hopc hsel hfid
    change execNvmeGetFeatures f entry s = _
    rw [execNvmeGetFeatures]
    exact admin_of_may hmay hprp (by decide) hopc _ (by simp [hsel, hfid])
  · rintro f entry s _ _ hmay rfl hprp rfl hopc hsel hfid
    change execNvmeGetFeatures f entry s = _
    rw [execNvmeGetFeatures]
    exact admin_of_may hmay hprp (by decide) hopc _ (by simp [hsel, hfid])
  · rintro f entry s _ _ hmay rfl hprp rfl hopc hnone
    change execNvmeAbort f entry s = _
    rw [execNvmeAbort]
    exact admin_of_may hmay hprp (by decide) hopc _ (by simp only [hnone])
  · rintro f entry s _ _ c hmay rfl hprp rfl hopc hsome
    change execNvmeAbort f entry s = _
    rw [execNvmeAbort]
    exact admin_of_may hmay hprp (by decide) hopc _ (by simp only [hsome])
  · rintro f entry s _ _ hmay rfl hprp rfl hopc
    change execNvmeAsyncEventRequest f entry s = _
    rw [execNvmeAsyncEventRequest]
    exact fetch_of_may hmay (by decide) hopc _

/-! ## I/O queues (R354, R356) -/

theorem qidBad_eq_false {s : State} {f : Fn} {q : Nat} (h0 : q ≠ 0) (hshare : q ≤ shareQ s f) : qidBad s f q false = false := by
  simp [qidBad, h0, Nat.not_lt.mpr hshare]

/-- Settles O39: each command passes the checks of its queue number, size and form in their order. -/
theorem nvmeQueueCommandsAct : Obligations.NvmeQueueCommandsAct := by
  refine ⟨?_, ?_, ?_, ?_⟩
  · rintro f entry s _ _ _ _ _ hmay rfl hprp rfl hopc rfl h0 hshare rfl rfl h2 h4096 hpc hbase hfree hvec
    have hsize : ¬ (fld (enDw (fitTo 64 entry) 10) 16 16 + 1 < 2 ∨ 4096 < fld (enDw (fitTo 64 entry) 10) 16 16 + 1) := by omega
    have hv : ¬ shareV (takeEntry f 0 s) f ≤ fld (enDw (fitTo 64 entry) 11) 16 16 := by omega
    change execNvmeCreateIoCq f entry s = _
    rw [execNvmeCreateIoCq]
    exact admin_of_may hmay hprp (by decide) hopc _ (by
      simp only [hfree, qidBad_eq_false h0 hshare, Bool.or_eq_true, decide_eq_true_eq, hsize, hpc, hv, hbase]; rfl)
  · rintro f entry s _ _ _ _ _ hmay rfl hprp rfl hopc rfl h0 hshare rfl rfl h2 h4096 hpc hbase hfree hcq0 hcq
    have hsize : ¬ (fld (enDw (fitTo 64 entry) 10) 16 16 + 1 < 2 ∨ 4096 < fld (enDw (fitTo 64 entry) 10) 16 16 + 1) := by omega
    change execNvmeCreateIoSq f entry s = _
    rw [execNvmeCreateIoSq]
    exact admin_of_may hmay hprp (by decide) hopc _ (by
      simp only [hfree, qidBad_eq_false h0 hshare, Bool.or_eq_true, decide_eq_true_eq, hsize, hpc, hbase, hcq, beq_iff_eq, hcq0]; rfl)
  · rintro f entry s _ _ _ _ _ hmay rfl hprp rfl hopc rfl h0 hshare hused rfl rfl
    change execNvmeDeleteIoSq f entry s = _
    rw [execNvmeDeleteIoSq]
    exact admin_of_may hmay hprp (by decide) hopc _ (by simp only [hused, Bool.not_true, qidBad_eq_false h0 hshare]; rfl)
  · rintro f entry s _ _ _ hmay rfl hprp rfl hopc rfl h0 hshare hused hfree
    change execNvmeDeleteIoCq f entry s = _
    rw [execNvmeDeleteIoCq]
    exact admin_of_may hmay hprp (by decide) hopc _ (by simp only [hused, Bool.not_true, qidBad_eq_false h0 hshare, hfree]; rfl)

end Sys2Proof.Machine

/-! I/O commands of hosts and beds (R363-R375, R427), the answers of their targets (R369), and the paths that carry them (R359-R367). -/

namespace Sys2Proof.Machine

/-! ## A command that its namespace takes -/

/-- The command of an entry, as it is held before it has a number. -/
def newStoCmd (who : Submitter) (sq : Nat) (e : Bytes) (ns : Nat) (data : Bytes) (segs : List (Nat × Nat)) : StoCmd :=
  { id := 0, who := who, sq := sq, cid := enCid e, ns := ns, opc := enOpc e, ranges := rangesOf e data, path := 0, conn := 0
    sent := false, unknown := false, orphan := false, entry := e, data := [], segs := segs, md := rd e 16 8 }

/-- Only the ranges of Dataset Management stand in the command's data. -/
theorem rangesOf_data {e : Bytes} (h : enOpc e ≠ 9) (d : Bytes) : rangesOf e d = rangesOf e [] := by
  unfold rangesOf
  split <;> first | rfl | contradiction

section
variable {who : Submitter} {sq : Nat} {e : Bytes} {segs : Ns → Nat ⊕ List (Nat × Nat)} {s : State} {a : Attach} {n : Ns}
  {l : List (Nat × Nat)} (ha : attachOf s who (enNsid e) = some a) (hn : tget s.sto.nss a.ns = some n)
  (hst : nsShown s n = 1 ∨ nsShown s n = 2) (hl : segs n = .inr l)
include ha hn hst hl

/-- A Read, Flush or Write Zeroes is held as its entry says. -/
theorem ioCommand_without_data (hopc : enOpc e = 0 ∨ enOpc e = 2 ∧ dataLen n e ≤ 1048576 ∨ enOpc e = 8 ∧ a.write = true) :
    ioCommand who sq e segs none s = holdCmd (newStoCmd who sq e a.ns [] l) s := by
  have hserved : ¬ (¬ nsShown s n = 1 ∧ ¬ nsShown s n = 2) := by omega
  rcases hopc with h | ⟨h, hlen⟩ | ⟨h, hw⟩
  · simp [ioCommand, ha, hn, hserved, hl, h, ordered, newStoCmd]
  · simp [ioCommand, ha, hn, hserved, hl, h, ordered, newStoCmd, Nat.not_lt.mpr hlen]
  · simp [ioCommand, ha, hn, hserved, hl, h, ordered, newStoCmd, hw]

/-- A Dataset Management is held with its ranges. -/
theorem ioCommand_dataset (hopc : enOpc e = 9) (hw : a.write = true) (d : Bytes) :
    ioCommand who sq e segs (some d) s =
      holdCmd { newStoCmd who sq e a.ns d l with data := fitTo (16 * (fld (enDw e 10) 0 8 + 1)) d } s := by
  have hserved : ¬ (¬ nsShown s n = 1 ∧ ¬ nsShown s n = 2) := by omega
  simp [ioCommand, ha, hn, hserved, hl, hopc, ordered, newStoCmd, hw]

/-- A Write or Compare is held with the bytes made of the submitter's. -/
theorem ioCommand_with_data (hopc : enOpc e = 1 ∧ a.write = true ∨ enOpc e = 5) (hlen : dataLen n e ≤ 1048576) {d b : Bytes}
    (hb : writeData n e d = .inl b) :
    ioCommand who sq e segs (some d) s = holdCmd { newStoCmd who sq e a.ns [] l with data := b } s := by
  have hranges : rangesOf e d = rangesOf e [] := rangesOf_data (by omega) d
  have hserved : ¬ (¬ nsShown s n = 1 ∧ ¬ nsShown s n = 2) := by omega
  rcases hopc with ⟨h, hw⟩ | h
  · simp [ioCommand, ha, hn, hserved, hl, h, ordered, newStoCmd, hb, hranges, Nat.not_lt.mpr hlen, hw]
  · simp [ioCommand, ha, hn, hserved, hl, h, ordered, newStoCmd, hb, hranges, Nat.not_lt.mpr hlen]

end

/-! ## Entries of a host's submission queue -/

theorem hostIo_of_may {f : Fn} {q opc : Nat} {entry : Bytes} {s : State} (hq : q ≠ 0) (hmay : nvmeMay s f q = true)
    (hroom : nsFull s f entry = false) (hops : opc ∈ ioOps) (hopc : enOpc (fitTo 64 entry) = opc) (act : Bytes → State → State) :
    hostIo opc f q entry act s = .next (act (fitTo 64 entry) (takeEntry f q s)) := by
  have hq' : (q == 0) = false := by simpa using hq
  rw [hostIo, hq', hroom]
  exact fetch_of_may hmay (by rw [hq']; exact hops) hopc act

/-! ## The submissions of a bed (R427) -/

theorem bedStorageSubmit_read {b : Nat} {entry : Bytes} {s : State} {a : Attach} {n : Ns} {l : List (Nat × Nat)} (hb : b < 32)
    (hup : storageUp s = true) (hopc : enOpc (fitTo 64 entry) = 2) (ha : attachOf s (.bed b) (enNsid (fitTo 64 entry)) = some a)
    (hn : tget s.sto.nss a.ns = some n) (hl : bedSegs s b (fitTo 64 entry) n = .inr l) :
    execBedStorageSubmit b entry s = .next (ioCommand (.bed b) 0 (fitTo 64 entry) (fun _ => .inr l) none s) := by
  rw [execBedStorageSubmit, onElem_true (decide_eq_true hb)]
  simp [hup, hopc, ha, hn, hl, ioOps]

/-! ## The answers of targets (R369, R373) -/

section
variable {id dw0 st : Nat} {data plain : Bytes} {s : State} {c : StoCmd} (hc : (s.sto.cmds.find? fun c => c.id == id && c.sent) = some c)
include hc

theorem targetResponse_transport (hst : fld st 8 3 = 3) :
    execTargetResponse id dw0 st data plain false s = .next (pumpNs c.ns (stoMod (fun x => { x with cmds := x.cmds.map fun d =>
      if d.id == id then { d with sent := false, unknown := true } else d }) s)) := by
  simp [execTargetResponse, hc, hst]

theorem targetResponse_ends (hst : fld st 8 3 ≠ 3) (hopc : c.opc ≠ 2) :
    execTargetResponse id dw0 st data plain false s = .next (pumpNs c.ns (endCmd c dw0 (st % 2 ^ 15) s)) := by
  simp [execTargetResponse, hc, hst, hopc]

theorem targetResponse_read (hok : fld st 0 11 = 0) (hst : fld st 8 3 ≠ 3) (hopc : c.opc = 2) (hown : c.orphan = false) {n : Ns}
    (hn : tget s.sto.nss c.ns = some n) {d pi : Bytes} (hd : readData n c.entry data plain = .inl (d, pi)) :
    execTargetResponse id dw0 st data plain false s = .next (pumpNs c.ns
      (endCmd c dw0 (if (deliver c d pi s).1 then st % 2 ^ 15 else 0x06) (deliver c d pi s).2)) := by
  simp [execTargetResponse, hc, hst, hopc, hok, hown, hn, hd]

end

/-- Settles O40: an entry that may be fetched reaches `ioCommand`, which holds the command. -/
theorem storageCommandsAct : Obligations.StorageCommandsAct := by
  refine ⟨?_, ?_, fun id dw0 st data plain s c hc => ⟨targetResponse_transport hc, targetResponse_ends hc,
    fun n d pi hok hst hopc hown hn hd => targetResponse_read hc hok hst hopc hown hn hd⟩⟩
  · rintro f q entry list s _ _ a n _ hq hmay hroom rfl rfl ha hn hst rfl
    refine ⟨fun hopc => ?_, fun hopc hw => ?_, fun d hopc hw => ?_, fun l hlen hl =>
      ⟨fun hopc => ?_, fun d b hopc hw hb => ?_, fun d b hopc hb => ?_⟩⟩
    · change execNvmeFlush f q entry s = _
      rw [execNvmeFlush, hostIo_of_may hq hmay hroom (by decide) hopc, ioCommand_without_data ha hn hst rfl (.inl hopc)]
      rfl
    · change execNvmeWriteZeroes f q entry s = _
      rw [execNvmeWriteZeroes, hostIo_of_may hq hmay hroom (by decide) hopc, ioCommand_without_data ha hn hst rfl (.inr (.inr ⟨hopc, hw⟩))]
      rfl
    · change execNvmeDatasetManagement f q entry (some d) s = _
      rw [execNvmeDatasetManagement, hostIo_of_may hq hmay hroom (by decide) hopc, ioCommand_dataset ha hn hst rfl hopc hw]
      rfl
    · change execNvmeRead f q entry list s = _
      rw [execNvmeRead, hostIo_of_may hq hmay hroom (by decide) hopc, ioCommand_without_data ha hn hst hl (.inr (.inl ⟨hopc, hlen⟩))]
      rfl
    · change execNvmeWrite f q entry list (some d) s = _
      rw [execNvmeWrite, hostIo_of_may hq hmay hroom (by decide) hopc, ioCommand_with_data ha hn hst hl (.inl ⟨hopc, hw⟩) hlen hb]
      rfl
    · change execNvmeCompare f q entry list (some d) s = _
      rw [execNvmeCompare, hostIo_of_may hq hmay hroom (by decide) hopc, ioCommand_with_data ha hn hst hl (.inr hopc) hlen hb]
      rfl
  · rintro b entry s _ a n l hb hup rfl hopc ha hn hl hlen hst
    change execBedStorageSubmit b entry s = _
    rw [bedStorageSubmit_read hb hup hopc ha hn hl, ioCommand_without_data ha hn hst rfl (.inr (.inl ⟨hopc, hlen⟩)), newStoCmd, hopc]

/-! ## Paths (R360, R361, R364, R367) -/

/-- A LIVE path that goes down: its commands are of unknown outcome, and namespaces that lose their last path are HELD. -/
theorem pathDown_of_live {p : Nat} {s : State} {x : StoPath} (hx : tget s.sto.paths p = some x) (hlive : x.st = .live) (cause : Nat) :
    pathDown p cause s =
      let t := stoMod (fun y => { y with cmds := y.cmds.map fun c => if c.sent && c.path == p then { c with sent := false, unknown := true } else c })
        (raise 0x2402 (stoPlace p) [p, cause, pathSent s p]
          (pathMod p (fun x => { x with st := .down, liveConns := 0, attempts := 0, interval := 1 }) s))
      pumpAll (t.sto.nss.foldl (fun s e => if e.2.st == 1 && (livePaths s e.2).isEmpty then nsSet e.1 2 s else s) t) := by
  simp [pathDown, hx, hlive]

/-- Settles O41: by the state of the path or the namespace. -/
theorem storagePathEventsAct : Obligations.StoragePathEventsAct := by
  refine ⟨?_, ?_, ?_, ?_⟩
  · rintro p ids s x _ hx hst hup rfl
    change execStoPathUp p ids s = _
    simp [execStoPathUp, hx, hst, hup]
  · rintro p s x _ hx hlive rfl
    refine ⟨?_, ?_, fun hsent => ?_, fun hroce => ?_, ?_⟩
    · exact congrArg _ (pathDown_of_live hx hlive 1)
    · exact congrArg _ (pathDown_of_live hx hlive 2)
    · change execIoTimeout p s = _
      simp only [execIoTimeout, beq_iff_eq, hsent, if_false, pathDown_of_live hx hlive]
    · change execRoceRetryExhausted p s = _
      simp only [execRoceRetryExhausted, hx, hroce, beq_self_eq_true, if_true, pathDown_of_live hx hlive]
    · exact congrArg _ (pathDown_of_live hx hlive 5)
  · rintro p s x hx hst hup
    change execPathReconnectTimer p s = _
    simp [execPathReconnectTimer, hx, hst, hup]
  · rintro i s n hn hst
    change execNamespaceHoldExpiry i s = _
    simp [execNamespaceHoldExpiry, hn, hst]

end Sys2Proof.Machine

/-! Threads of a service cluster: the instructions of custom-0 on an own channel, lock or timer (R385-R399), the issue of an
instruction and the base instruction set (R383, R400, R406). -/

namespace Sys2Proof.Machine

/-! ## Staging words (R388) -/

/-- A thread that holds the staging area with a word in it writes the next: nothing in its way refuses or blocks it. -/
theorem chanWrite_of_staging {n t op rd a v : Nat} {s : State} {ws : List (BitVec 64)} (hown : opTarget s n a = some n)
    (hen : chEnabled (chanOf s n (a % 256)) = true) (hset : bit (chanOf s n (a % 256)).writers t = true)
    (hab : (threadOf s n t).abandoned ≠ some (a % 256)) (hst : (chanOf s n (a % 256)).stage = some (t, ws)) (hne : ws ≠ [])
    (hlen : ws.length < 8) (hfits : op = 1 → lengthFits a (ws.length + 1) = true) :
    chanWrite n t op rd a v s = settleAll n (a % 256) (stageWord n (a % 256) t { op := op, rd := rd, a := a, b := v } s) := by
  have h8 : ws.length ≠ 8 := by omega
  have hok : (op == 1 && !lengthFits a (ws.length + 1)) = false := by
    by_cases hop : op = 1 <;> simp [hop, hfits]
  simp [chanWrite, hown, writeLocal, hen, hset, hab, hst, hne, h8, hok]

/-! ## Locks and timers -/

theorem lockAcquire_of_free {n t rd a m l : Nat} {wait : Bool} {s : State} (hname : lockNamed s n a = some (m, l))
    (hfree : (lockOf s m l).holder = none) :
    lockAcquire n t rd a wait s = retire n t rd (if wait then 0 else 1) 4
      (lockMod m l (fun x => { x with holder := some (n, t), since := s.time.up, notified := false }) s) := by
  simp [lockAcquire, hname, hfree, result]

theorem lockTry_of_other {n t rd a m l : Nat} {h : Nat × Nat} {s : State} (hname : lockNamed s n a = some (m, l))
    (hheld : (lockOf s m l).holder = some h) (hother : h ≠ (n, t)) : lockAcquire n t rd a false s = retire n t rd 0 4 s := by
  simp [lockAcquire, hname, hheld, hother, result]

theorem timerSet_of_accepting {n t a v : Nat} {s : State}
    (hch : v ≠ 0 → chEnabled (chanOf s n (fld a 8 8)) = true ∧ acceptsExt (chanOf s n (fld a 8 8)) 4 = true) :
    timerSet n t a v s = retire n t 0 0 4 (clustMod n (fun c => { c with
      timers := if v = 0 then tdel c.timers (a % 64) else tput c.timers (a % 64) (fld a 8 8, s.time.up + min v (2 ^ 32 - 1)) }) s) := by
  by_cases hv : v = 0
  · simp [timerSet, hv, result]
  · obtain ⟨hen, hacc⟩ := hch hv
    simp [timerSet, hv, hen, hacc, result]

/-! ## Channel counts -/

/-- The instruction asks for the writer set only where the thread is no reader (assumption 18). -/
theorem chanCount_of_reader {n t rd a : Nat} {s : State} (hok : localMisuse s n t a Chan.readers = none)
    (hset : bit (chanOf s n (a % 256)).readers t = true) :
    chanCount n t rd a s = retire n t rd (BitVec.ofNat 64 (chanOf s n (a % 256)).msgs.length) 4 s := by
  have hok' : localMisuse s n t a (fun c => if bit c.readers t then c.readers else c.writers) = none := by
    simpa [localMisuse, hset] using hok
  simp [chanCount, hok', result]

/-! ## Issue (R383) -/

theorem isThread_of_le {n t : Nat} (hn : n ≤ 85) (ht : t < 64) : isThread n t = true := by
  simp [isThread, hn, ht]

theorem exec_instructionIssue_of_running {n t : Nat} {s : State} (hn : n ≤ 85) (ht : t < 64) (hrun : (threadOf s n t).st = .running)
    (hmoves : coreStill s (svcPlace n) (t / 8) = false) : exec (.instructionIssue n t) s = .next (issue n t s) := by
  change execInstructionIssue n t s = _
  rw [execInstructionIssue, onElem_true (isThread_of_le hn ht)]
  simp [hrun, hmoves]

theorem runWord_add {n t w len : Nat} {s : State} (hop : w % 128 = 0x33) (h7 : iF7 w = 0) :
    runWord n t w len s =
      retire n t (iRd w) (alu (iF3 w) false (regGet (threadOf s n t) (iRs1 w)) (regGet (threadOf s n t) (iRs2 w))) len s := by
  simp [runWord, hop, h7, result]

theorem runWord_load {n t w len k x : Nat} {sg : Bool} {s : State} (hop : w % 128 = 0x03) (hform : loadForm (iF3 w) = some (k, sg))
    (hx : x = (regGet (threadOf s n t) (iRs1 w) + immI w).toNat) (hok : accessFault s n t x k 0 3 = none)
    (hmem : svcRegAccess n t x k = none) :
    runWord n t w len s = countReads x k
      (retire n t (iRd w) (if sg then sext (8 * k) (ofLe (memRead s x k)) else BitVec.ofNat 64 (ofLe (memRead s x k))) len s) := by
  subst hx
  simp [-BitVec.toNat_add, runWord, hop, hform, hok, hmem, loadValue, loadEffect, result]

theorem runWord_store {n t w len k x : Nat} {s : State} (hop : w % 128 = 0x23) (h3 : iF3 w < 4) (hk : k = 2 ^ iF3 w)
    (hx : x = (regGet (threadOf s n t) (iRs1 w) + immS w).toNat) (hok : accessFault s n t x k 1 4 = none)
    (hmem : svcRegAccess n t x k = none) :
    runWord n t w len s =
      memWrite (retire n t 0 0 len s) x (le k ((regGet (threadOf s n t) (iRs2 w)).toNat % 2 ^ (8 * k))) := by
  subst hx hk
  have h4 : ¬ 4 ≤ iF3 w := by omega
  simp [-BitVec.toNat_add, runWord, hop, h4, hok, hmem, storeValue, result]

/-! ## The obligations -/

/-- Settles O20: each instruction of a running thread is its own row of the model with every refusing and blocking branch closed by
the premises. -/
theorem threadInstructionsAct : Obligations.ThreadInstructionsAct := by
  refine ⟨?_, ?_, ?_, ?_, ?_, ?_, ?_, ?_, ?_, ?_, ?_, ?_⟩
  · rintro n t rd r1 r2 s ch ws v hn ht hrun hown rfl rfl hen hset hab hst hne hlen
    change execChWr n t rd r1 r2 s = _
    rw [execChWr, onElem_customIssue_of_running hn ht hrun, 
      chanWrite_of_staging hown hen hset hab hst hne hlen (fun h => absurd h (by simp))]
    simp [stageWord, hst, hne]
  · rintro n t rd r1 r2 s ch ws v hn ht hrun hown rfl rfl hen hset hab hst hne hlen hfits
    change execChWre n t rd r1 r2 s = _
    rw [execChWre, onElem_customIssue_of_running hn ht hrun, 
      chanWrite_of_staging hown hen hset hab hst hne hlen (fun _ => hfits)]
    simp [stageWord, hst, hne]
  · rintro n t rd r1 s ch m r hn ht hrun hok rfl hmsg
    change execChRdh n t rd r1 s = _
    rw [execChRdh, onElem_customIssue_of_running hn ht hrun]
    simp [chanRead, hok, hmsg, result]
  · rintro n t rd r1 s ch hn ht hrun hok rfl hq
    change execChTry n t rd r1 s = _
    rw [execChTry, onElem_customIssue_of_running hn ht hrun]
    cases hm : (chanOf s n (xv s n t r1 % 256)).msgs with
    | nil => simp [chanTry, hok, hm, result]
    | cons m r => simp [chanTry, hok, hm, hq, result]
  · intro n t rd r1 s b hn ht hrun hbuf hin
    change execChRdw n t rd r1 s = _
    rw [execChRdw, onElem_customIssue_of_running hn ht hrun]
    simp [chanWord, hbuf, hin, result]
  · rintro n t r1 s ch ws hn ht hrun hown rfl hok hst
    change execChAbt n t r1 s = _
    rw [execChAbt, onElem_customIssue_of_running hn ht hrun]
    simp [chanAbort, hown, hok, hst, result]
  · intro n t rd r1 s hn ht hrun hok hset
    change execChCnt n t rd r1 s = _
    rw [execChCnt, onElem_customIssue_of_running hn ht hrun, chanCount_of_reader hok hset]
  · rintro n t r1 r2 s ch v hn ht hrun hok rfl rfl hheld
    change execChFree n t r1 r2 s = _
    rw [execChFree, onElem_customIssue_of_running hn ht hrun]
    simp [chanFree, hok, hheld, result]
  · intro n t rd r1 s m l hn ht hrun hname hfree
    change execLkAcq n t rd r1 s = _
    rw [execLkAcq, onElem_customIssue_of_running hn ht hrun, lockAcquire_of_free hname hfree]
    rfl
  · intro n t rd r1 s m l hn ht hrun hname hother
    change execLkTry n t rd r1 s = _
    rw [execLkTry, onElem_customIssue_of_running hn ht hrun]
    cases hheld : (lockOf s m l).holder with
    | none => rw [lockAcquire_of_free hname hheld]; rfl
    | some h => rw [lockTry_of_other hname hheld (fun e => hother (e ▸ hheld))]; rfl
  · intro n t r1 s m l hn ht hrun hname hheld
    change execLkRel n t r1 s = _
    rw [execLkRel, onElem_customIssue_of_running hn ht hrun]
    simp [lockRelease, hname, hheld, result]
  · rintro n t r1 r2 s k ch v hn ht hrun rfl rfl rfl hch
    change execTmSet n t r1 r2 s = _
    rw [execTmSet, onElem_customIssue_of_running hn ht hrun, timerSet_of_accepting hch]

/-- Settles O21: the fetch passes every check that the premises name, and the word's opcode selects its row. -/
theorem threadsRun : Obligations.ThreadsRun := by
  refine ⟨?_, ?_, ?_, ?_, ?_, ?_, ?_⟩
  · rintro n t s pc w hn ht hrun hmoves rfl heven hf2 hf4 hp2 hp4 hfull rfl
    rw [exec_instructionIssue_of_running hn ht hrun hmoves]
    simp [issue, heven, hf2, hf4, hp2, hp4, hfull]
  · rintro n t s pc w hn ht hrun hmoves rfl heven hf2 hp2 hshort hexp
    rw [exec_instructionIssue_of_running hn ht hrun hmoves]
    simp [issue, heven, hf2, hp2, hshort, hexp]
  · rintro n t w len s a b hop h7 rfl rfl
    exact runWord_add hop h7
  · intro n t w len s k sg x hop hform hx hok hmem
    exact runWord_load hop hform hx hok hmem
  · intro n t w len s k x hop h3 hk hx hok hmem
    exact runWord_store hop h3 hk hx hok hmem
  · intro n t s hn ht hrun
    change execEcall n t s = _
    rw [execEcall, onElem_true (isThread_of_le hn ht)]
    simp [hrun, ecall]
  · intro n t s hn ht hrun
    change execEbreak n t s = _
    rw [execEbreak, onElem_true (isThread_of_le hn ht)]
    simp only [hrun, beq_self_eq_true, if_true]
    rfl

end Sys2Proof.Machine

/-! The entry commands of the tables: TBL_INSERT, TBL_DELETE, TBL_MODIFY and TBL_LOOKUP (R143-R150, R457). -/

namespace Sys2Proof.Machine

/-- An insertion that a bucket or the stash takes ends with the place as its result (R457). -/
theorem insertEntry_of_new {w : Tab Word} {c : Cmd} {opcode : Nat} {e e' : Entry} {es : List Entry} {seed : Word} {s u : State}
    (hseed : seedOf e.table s = (seed, u)) (hplace : placeEntry w seed u.tbl.entries e = some (es, e')) (hroom : changeRoom es = true) :
    insertEntry w c opcode e none s = .ok (placeResult e')
      (loadEvents w e.table (stashUsed u.tbl.entries e.table).length (putEntries w e.table es u)) := by
  simp [insertEntry, hseed, hplace, hroom]

/-- A modification marks the version it replaces as dying: the one that a chain of moves carried along, wherever it stands now. -/
theorem insertEntry_of_old {w : Tab Word} {c : Cmd} {opcode x : Nat} {e e' o q : Entry} {es : List Entry} {seed : Word} {s u : State}
    (hborn : e.born = some x) (hseed : seedOf e.table s = (seed, u)) (hplace : placeEntry w seed u.tbl.entries e = some (es, e'))
    (hq : q = (es.find? fun y => y.table == e.table && y.key == o.key && y.born == o.born && y.died == o.died).getD o)
    (hroom : changeRoom (markDied q x es) = true) :
    insertEntry w c opcode e (some o) s = .ok (placeResult e')
      (loadEvents w e.table (stashUsed u.tbl.entries e.table).length (putEntries w e.table (markDied q x es) u)) := by
  cases hfind : es.find? fun y => y.table == e.table && y.key == o.key && y.born == o.born && y.died == o.died with
  | none =>
    rw [hfind, Option.getD_none] at hq
    subst hq
    simp [insertEntry, hborn, hseed, hplace, hfind, hroom]
  | some y =>
    rw [hfind, Option.getD_some] at hq
    subst hq
    simp [insertEntry, hborn, hseed, hplace, hfind, hroom]

/-- A staged command's arrival moves the stage alone. -/
theorem opState_tbl (c : Cmd) (s : State) : (opState c s).tbl = s.tbl := by
  cases h : c.staged <;> simp [opState, touchStage, h]

/-- Settles O4: no check refuses, so each command's body is the operation on the entries that the clause names. -/
theorem tableEntryCommandsAct : Obligations.TableEntryCommandsAct := by
  refine ⟨?_, ?_, ?_, ?_, ?_⟩
  · intro c s seed u es e h hprog hok hnew hseed hplace hroom
    change Host.Outcome.next (runCmd opTblInsert c s) = _
    refine run_ends h ?_
    rw [← insertEntry_of_new (c := c) (opcode := 0x0801) hseed hplace hroom]
    simpa [opTblInsert, mkOp, Nat.not_lt.mpr hprog, hok] using fun y hy hk hv => absurd ⟨hk, hv⟩ (hnew y hy)
  · intro c s e h hok hlook hroom
    change Host.Outcome.next (runCmd opTblDelete c s) = _
    refine run_ends h ?_
    simp [opTblDelete, mkOp, hok, hlook, hroom, opState_tbl]
  · intro c s o seed u es e q h hprog hok hlook hseed hplace hq hroom
    change Host.Outcome.next (runCmd opTblModify c s) = _
    refine run_ends h ?_
    rw [← insertEntry_of_old (c := c) (opcode := 0x0803) rfl hseed hplace hq hroom]
    simp [opTblModify, mkOp, Nat.not_lt.mpr hprog, hok, hlook]
  · intro c s e h h1 h2 hok hlook
    change Host.Outcome.next (runCmd opTblLookup c s) = _
    refine run_ends h ?_
    simp [opTblLookup, mkOp, Nat.not_lt.mpr h1, Nat.not_lt.mpr h2, hok, hlook]
  · intro c s h h1 h2 hok hlook
    change Host.Outcome.next (runCmd opTblLookup c s) = _
    refine run_ends h ?_
    simp [opTblLookup, mkOp, Nat.not_lt.mpr h1, Nat.not_lt.mpr h2, hok, hlook]

end Sys2Proof.Machine

/-! The CRY commands that carry a key (R205-R208, R217, R220, R224): the queue slots are wiped, then the key field decides. -/

namespace Sys2Proof.Machine

theorem recordRefusal_of_up {s : State} {r : Nat} (hup : ddr5Up s = true) (hline : lineLost s (recordAddr r) = false) :
    recordRefusal s r = none := by
  simp [recordRefusal, hup, hline]

/-- Settles O6: with its other fields in range each command's body is `withKey` of its key field, so `run_key` gives its two ends. -/
theorem keyCommandsAct : Obligations.KeyCommandsAct := by
  refine ⟨?_, ?_, ?_, ?_, ?_⟩
  · rintro c s u h hres h1 h63 rfl
    refine (run_key (f := kekField c) (g := fun key t => cryMod (fun x => { x with keks := tput x.keks (c.prm 0 1) { key := key } }) t)
      h ?_).trans ?_
    · simp [opCryKekLoad, mkOp, hres, Nat.ne_of_gt h1, Nat.not_lt.mpr h63]
    · simp only [kekField, keyBytes]
      generalize importKey c _ (wipe c s) = found
      obtain ⟨r | key, t⟩ := found <;> rfl
  · rintro c s u h hres hports h1 h32 hslot rfl
    refine (run_key (f := cakField c) (g := fun key t =>
      (span (c.prm 0 2) (c.prm 2 2)).foldl (fun s p => putCak p (some (key, c.prmBytes 8 (c.prm 6 1))) s) t) h ?_).trans ?_
    · simpa [opCryCakSet, mkOp, hres, hports, Nat.ne_of_gt h1, Nat.not_lt.mpr h32] using
        fun hw h64 => absurd (hslot hw) (Nat.not_le.mpr h64)
    · simp only [cakField, keyBytes]
      generalize importKey c _ (wipe c s) = found
      obtain ⟨r | key, t⟩ := found <;> rfl
  · intro c s h hports
    change Host.Outcome.next (runCmd opCryCakClear c s) = _
    refine run_ends h ?_
    simp [opCryCakClear, mkOp, hports]
  · rintro c s u h hres hrange rfl hfree hup hline
    refine (run_key (o := opCrySaInstall s) (f := saField c) (g := fun key t => cryMod (fun x => { x with
      sas := tput x.sas (c.prm 0 4) (newSa c (wrapKey x.tableKey key)), mirror := tdel x.mirror (c.prm 0 4)
      holder := tdel x.holder (c.prm 0 4) }) t) h ?_).trans ?_
    · simp [opCrySaInstall, mkOp, hres, hrange, hfree, recordRefusal_of_up hup hline]
    · simp only [saField, keyBytes]
      generalize importKey c _ (wipe c s) = found
      obtain ⟨r | key, t⟩ := found <;> rfl
  · rintro c s u h hres hhalf hslot hok rfl hup hline
    refine (run_key (f := tlsField c) (g := fun key t =>
      putHalf (c.prm 0 1) (c.prm 4 4) (c.prm 1 1) (newHalf c (wrapKey t.cry.tableKey key)) t) h ?_).trans ?_
    · have hkek : ¬ (bit (c.prm 2 1) 1 = true ∧ 63 < c.prm 3 1) := fun ⟨hw, h64⟩ => absurd (hslot hw) (Nat.not_le.mpr h64)
      simp [-Nat.reducePow, opCryTlsInstall, mkOp, hres, Nat.not_lt.mpr hhalf, hkek, hok, recordRefusal_of_up hup hline]
    · simp only [tlsField, keyBytes]
      generalize importKey c _ (wipe c s) = found
      obtain ⟨r | key, t⟩ := found <;> rfl

end Sys2Proof.Machine

/-! The flow store: the FLOW commands (R245, R248, R267) and its own events (R246-R252, R258, R262-R264, R266). -/

namespace Sys2Proof.Machine

/-! ## The commands -/

/-- A command on an entry that is there acts on it, read first. -/
theorem onFlow_of_found {c : Cmd} {s : State} {f : Flow} (act : Flow → State → Done) (hkey : keyReserved c = false)
    (hup : engineRefusal s (c.prmBytes 0 40) = none) (hfind : flowFind (readFlow (c.prmBytes 0 40) s) (c.prmBytes 0 40) = some f) :
    onFlow c s act = act f (readFlow (c.prmBytes 0 40) s) := by
  simp [onFlow, hkey, hup, hfind]

/-- Settles O8: with its fields in range and its engine in service, each command's body ends as the clause says. -/
theorem flowCommandsAct : Obligations.FlowCommandsAct := by
  refine ⟨?_, ?_, ?_, ?_, ?_, ?_⟩
  · rintro c s f t v u i h hflow hres hkey h1 h8 h15 hnat hup hnone hins hu
    change Host.Outcome.next (runCmd opFlowInsert c s) = _
    refine run_ends h (Eq.trans ?_ (congrArg _ hu.symm))
    cases hpeer : flowAt v i <;> simp [opFlowInsert, mkOp, hflow, hres, hkey, Nat.ne_of_gt h1, Nat.not_lt.mpr h8, Nat.not_lt.mpr h15,
      hnat, hup, hnone, hins, hpeer] <;> rfl
  · rintro c s f t v u i h hflow hres hkey h1 h8 h15 hnat hv4 hproto hup hnone hreply hins hu
    have hl4 : ¬ (t.proto ≠ 6 ∧ t.proto ≠ 17) := by omega
    change Host.Outcome.next (runCmd opFlowInsert c s) = _
    refine run_ends h (Eq.trans ?_ (congrArg _ hu.symm))
    cases hpeer : flowAt v i <;> simp [opFlowInsert, mkOp, hflow, hres, hkey, Nat.ne_of_gt h1, Nat.not_lt.mpr h8, Nat.not_lt.mpr h15,
      hnat, hv4, hl4, hup, hnone, hreply, hins, hpeer] <;> rfl
  · rintro c s f u h hkey hup rfl hfind
    change Host.Outcome.next (runCmd opFlowDelete c s) = _
    exact run_ends h (onFlow_of_found (fun f s => .ok [] (removeFlow 2 (tells c) f.index s)) hkey hup hfind)
  · rintro c s f u h hsel hkey hup rfl hfind
    change Host.Outcome.next (runCmd opFlowRead c s) = _
    refine run_ends h ?_
    have hcases : c.prm 40 1 = 0 ∨ c.prm 40 1 = 1 ∨ c.prm 40 1 = 2 := by omega
    rcases hcases with hp | hp | hp <;> simp [opFlowRead, mkOp, hp, onFlow_of_found _ hkey hup hfind]
  · rintro c s f u g h hres hdrop hkey hup rfl hfind rfl
    have hone : ¬ (bit (c.prm 40 1) 0 = true ∧ 1 < c.prm 41 1) := fun ⟨hb, h1⟩ => absurd (hdrop hb) (Nat.not_le.mpr h1)
    change Host.Outcome.next (runCmd opFlowModify c s) = _
    refine run_ends h ?_
    simp [opFlowModify, mkOp, hres, hone, onFlow_of_found _ hkey hup hfind]
  · intro c s h hres hprof hidle
    have h15 : ¬ (bit (c.prm 2 1) 1 = true ∧ 15 < c.prm 3 1) := fun ⟨hb, h15⟩ => absurd (hprof hb) (Nat.not_le.mpr h15)
    change Host.Outcome.next (runCmd opFlowFlush c s) = _
    refine run_starts h ?_
    simp [opFlowFlush, mkOp, hres, h15, hidle]
    rfl

/-! ## The events -/

/-- A read is counted in the memory, of which neither the directory nor a cache knows. -/
theorem flowFind_countReads (a n : Nat) (s : State) (key : Bytes) : flowFind (countReads a n s) key = flowFind s key := rfl

theorem holderOf_countReads (a n : Nat) (s : State) (i : Nat) : holderOf (countReads a n s) i = holderOf s i := rfl

theorem readFlow_of_absent {s : State} {key : Bytes} (h : flowFind s key = none) : readFlow key s = s := by
  simp [readFlow, h]

/-- Settles O9: every event finds its premises met and takes the branch that acts. -/
theorem flowEventsAct : Obligations.FlowEventsAct := by
  refine ⟨?_, ?_, ?_, ?_, ?_, ?_, ?_, ?_, ?_, ?_⟩
  · rintro g s x q t u hg hnext rfl rfl rfl
    change execFlowMissService g none s = _
    rw [execFlowMissService, onElem_true (decide_eq_true hg), hnext]
    rfl
  · rintro g s x q t u f restored hg hnext rfl rfl hfind hheld rfl
    change execFlowMissService g (some restored) s = _
    rw [execFlowMissService, onElem_true (decide_eq_true hg), hnext]
    simp [flowMod, hfind, hheld, flowFind_countReads, holderOf_countReads]
  · rintro e s l he hup hserves rfl
    change execFlowIdleSweep e s = _
    rw [execFlowIdleSweep, onElem_true (decide_eq_true he)]
    simp [hup, hserves]
    rfl
  · intro g s hg
    change execFlowWriteBack g s = _
    rw [execFlowWriteBack, onElem_true (decide_eq_true hg)]
  · rintro k b s t x htwin rfl hk hfind
    change execFlowDeltaMerge k b s = _
    simp [execFlowDeltaMerge, htwin, hfind, hk]
  · rintro b s t x htwin rfl hfind
    change execFlowDeltaMerge 1 b s = _
    simp [execFlowDeltaMerge, htwin, hfind]
  · rintro k b s u i htwin hk hnone hins
    change execFlowDeltaMerge k b s = _
    simp [execFlowDeltaMerge, htwin, readFlow_of_absent hnone, hnone, hk, hins]
  · intro ms s hms
    change execFlowTwinLag ms s = _
    simp [execFlowTwinLag, hms, flowMod]
  · rintro s l htwin hresync rfl
    change execFlowTwinResyncDone s = _
    simp [execFlowTwinResyncDone, htwin, hresync]
  · rintro s zone m prof t hflush rfl
    change execFlowFlushComplete s = _
    simp [execFlowFlushComplete, hflush]
    rfl

end Sys2Proof.Machine

/-! Command queues: the slots that a tail publishes are fetched, or the queue stops with a cause (R280, R281). -/

namespace Sys2Proof.Machine

theorem fnQueue_exists {f : Fn} {q : Nat} {s : State} (hfn : fnExists s f = true) (hq : fnQueueOk f q = true) :
    (fnExists s f && fnQueueOk f q) = true := by
  simp [hfn, hq]

theorem cqFetch_past_ring {f : Fn} {q : Nat} {data : Bytes} {ok : Bool} {s : State} (hon : bit (cqOf s f q).cfg 0 = true)
    (herr : (cqOf s f q).error = false)
    (hpast : cqSize (cqOf s f q).cfg < ((cqOf s f q).tail + 65536 - (cqOf s f q).head) % 65536) :
    cqFetch f q data ok s = cqError f q 1 s := by
  simp [cqFetch, hon, herr, hpast]

theorem cqFetch_of_none {f : Fn} {q : Nat} {data : Bytes} {ok : Bool} {s : State}
    (hzero : ((cqOf s f q).tail + 65536 - (cqOf s f q).head) % 65536 = 0) : cqFetch f q data ok s = s := by
  simp [cqFetch, hzero]

section
variable {f : Fn} {q : Nat} {data : Bytes} {s : State} (hon : bit (cqOf s f q).cfg 0 = true) (herr : (cqOf s f q).error = false)
  (hring : ((cqOf s f q).tail + 65536 - (cqOf s f q).head) % 65536 ≤ cqSize (cqOf s f q).cfg)
  (hsome : ((cqOf s f q).tail + 65536 - (cqOf s f q).head) % 65536 ≠ 0) (hroom : rqRoom (cqOf s f q) = true)
  (hruns : fnRuns s f = true) (hissue : canIssue s f = true)
include hon herr hring hsome hroom hruns hissue

theorem cqFetch_of_failed : cqFetch f q data false s = cqError f q 2 s := by
  simp [cqFetch, hon, herr, Nat.not_lt.mpr hring, hsome, hroom, hruns, hissue]

theorem cqFetch_of_read {l : List (Nat × Cmd)} {m : Nat}
    (htake : ringTake (fnQueue f q) (((cqOf s f q).tail + 65536 - (cqOf s f q).head) % 65536) (cqOf s f q).head data
      (((cqOf s f q).tail + 65536 - (cqOf s f q).head) % 65536) = (l, m, false)) :
    cqFetch f q data true s = submit l (cqMod f q (fun c => { c with head := (c.head + m) % 65536 }) s) := by
  simp [cqFetch, hon, herr, Nat.not_lt.mpr hring, hsome, hroom, hruns, hissue, htake]

end

/-- Settles O36: the doorbell, the enable and the reply head each end in the same fetch, whose branches the lemmas above name. -/
theorem commandQueuesFetch : Obligations.CommandQueuesFetch := by
  refine ⟨?_, ?_, ?_, ?_, ?_, ?_, ?_, ?_, ?_⟩
  · rintro f q tail data s t c hfn hq rfl rfl hon herr hpast
    change execPfCqDb f q tail data true s = _
    rw [execPfCqDb, onElem_true (fnQueue_exists hfn hq), cqFetch_past_ring hon herr hpast]
  · rintro f q tail data s t c n hfn hq rfl rfl hon herr rfl hring hsome hroom hruns hissue
    change execPfCqDb f q tail data false s = _
    rw [execPfCqDb, onElem_true (fnQueue_exists hfn hq), cqFetch_of_failed hon herr hring hsome hroom hruns hissue]
  · rintro f q tail data s t c n l m hfn hq rfl rfl hon herr rfl hring hsome hroom hruns hissue htake
    change execPfCqDb f q tail data true s = _
    rw [execPfCqDb, onElem_true (fnQueue_exists hfn hq), cqFetch_of_read hon herr hring hsome hroom hruns hissue htake]
  · rintro f q cfg data s t c hfn hq hoff hcfg rfl rfl hon herr hzero
    change execPfCqEnable f q cfg data true s = _
    rw [execPfCqEnable, onElem_true (fnQueue_exists hfn hq), if_neg (by simp [hoff, hcfg]), cqFetch_of_none hzero]
  · rintro f q cfg data s t c n l m hfn hq hoff hcfg rfl rfl hon herr rfl hring hsome hroom hruns hissue htake
    change execPfCqEnable f q cfg data true s = _
    rw [execPfCqEnable, onElem_true (fnQueue_exists hfn hq), if_neg (by simp [hoff, hcfg]),
      cqFetch_of_read hon herr hring hsome hroom hruns hissue htake]
  · intro f q cfg s hfn hq hon hcfg
    change execPfCqDisable f q cfg s = _
    rw [execPfCqDisable, onElem_true (fnQueue_exists hfn hq), if_pos (by simp [hon, hcfg])]
  · rintro f q i data ok s t u hfn hq rfl rfl hempty hhead
    change execPfCqRqHead f q i data ok s = _
    rw [execPfCqRqHead, onElem_true (fnQueue_exists hfn hq), cqFetch_of_none (by omega)]
  · intro q body s op c hq hcmd hplace hslots
    change execOobCommandMessage q body s = _
    rw [execOobCommandMessage, onElem_true (decide_eq_true hq)]
    simp [hcmd, Nat.not_le.mpr hplace, Nat.not_lt.mpr hslots]
  · intro op tag flags target epoch params s
    rfl

end Sys2Proof.Machine

/-! Packets on their way: passes and fragments (R151, R153), delivery (R175), egress (R186-R193), the twin's packets (R198). -/

namespace Sys2Proof.Machine

/-- An open port sends a copy that is not too old and that no egress program rewrites: its bits leave the two buckets. -/
theorem sendCopy_of_plain {tx : TxLine} {p q : Nat} {c : QCopy} {k : Packet} {s : State} (hopen : portOpen s p = true)
    (hregion : regionUp s (portDie p) (portRegion p) = true) (hplain : usesSak s p = false) (hfresh : nowUs s ≤ k.arrived + holdUs s)
    (hprog : egressProg s p k.epoch c.prog = none) :
    sendCopy tx p q c k s = macTransmit p q tx.underrun k (bucketTake p q (fld (qShape s p q) 0 16) (8 * (k.bytes.length + 24))
      (bucketTake p 8 (fld (portNow s p 0x038) 0 16) (8 * (k.bytes.length + 24)) s)) := by
  simp [sendCopy, hopen, hregion, hplain, Nat.not_lt.mpr hfresh, egressRewrite, hprog]

/-- A free value drawn changes no group's version. -/
theorem lagAt_drawFree (s : State) (x g : Nat) : lagAt (drawFree s).2 x g = lagAt s x g := rfl

/-- Settles O31: each event finds its packet and takes the branch that passes it on. -/
theorem packetPassesAct : Obligations.PacketPassesAct := by
  refine ⟨?_, ?_, ?_, ?_, ?_, ?_, ?_, ?_⟩
  · intro g n ecc s k t hg hn hruns htake
    change execParsePass g n ecc s = _
    rw [execParsePass, onElem_true (by simp [hg, hn])]
    simp [hruns, htake]
  · intro g key s e h r hg hget hheld
    change execFragmentHoldTimeout g key s = _
    rw [execFragmentHoldTimeout, onElem_true (decide_eq_true hg), hget]
    simp [hheld]
  · intro g key s e hg hget hheld
    change execFragmentEntryTimeout g key s = _
    rw [execFragmentEntryTimeout, onElem_true (decide_eq_true hg), hget]
    simp [hheld]
  · rintro d c prio exc s x r ch w st n t h1 h4 hc hprio hq hdest hst rfl rfl hkind hserves hcluster hdel
    change execChannelDelivery d c prio exc s = _
    rw [execChannelDelivery, onElem_true (by simp [h1, h4, hc, hprio])]
    simp [hq, hdest, hst, hkind, hserves, hcluster, hdel]
  · rintro p tx s q d c st def_ t hp hregion hup hmac hpipe hsched rfl
    change execEgressDequeue p tx s = _
    rw [execEgressDequeue, if_pos hp, onElem_true rfl, if_neg (by simp [hup, hmac, Option.isSome_iff_ne_none.mp hpipe]), portDequeue,
      hsched]
  · rintro tx p q c k s t hopen hregion hplain hfresh hprog rfl
    exact sendCopy_of_plain hopen hregion hplain hfresh hprog
  · intro p tx s h1 h4
    change execEgressDequeue p tx s = _
    rw [execEgressDequeue, if_neg (by omega), onElem_true (by simp [h1, h4])]
  · rintro g q prog epoch frame s v port k hg hq htwin hepoch hlag rfl hport rfl
    change execTwinPacketReceived g q prog epoch frame s = _
    rw [execTwinPacketReceived, onElem_true (by simp [hg, hq])]
    simp only [htwin, List.contains_iff_mem.mpr hepoch, Bool.not_true, Bool.false_eq_true, if_false, lagAt_drawFree, hlag,
      if_neg (Nat.not_le.mpr hport)]
    rfl

end Sys2Proof.Machine

/-! Memory channels: training, the scrub, heat and loss (R500-R511). -/

namespace Sys2Proof.Machine

/-- A scrub read of a channel in use is counted; its outcome corrects or poisons the line, and the last read of a pass is counted. -/
theorem exec_patrolScrubRead_of_up {a slot sub dev : Nat} {s : State} (hup : ddr5Up s = true) (hst : (memCh s (channelAt s a)).st = 1)
    (haddr : 0x400000000000 ≤ a) (outcome : Nat) (last : Bool) :
    exec (.patrolScrubRead a outcome slot sub dev last) s = .next (
      let t := countMem (channelAt s a) 0 1 s
      let u := if outcome == 1 then memCe a slot sub dev (countMem (channelAt s a) 5 1 (countMem (channelAt s a) 1 1 t))
        else if outcome == 2 then memUe a slot t else t
      if last then countMem (channelAt s a) 4 1 u else u) := by
  change execPatrolScrubRead a outcome slot sub dev last s = _
  simp only [execPatrolScrubRead]
  rw [if_neg (by simp [hup, hst, Nat.not_lt.mpr haddr])]

/-- Settles O43: each event is the model's own sequence of changes once its guard is met. -/
theorem memoryEventsAct : Obligations.MemoryEventsAct := by
  refine ⟨?_, ?_, ?_, ?_⟩
  · rintro chs s at_ cause present good used speed t u hnone hrom rfl rfl rfl rfl rfl rfl rfl rfl
    change execMemTrained chs s = _
    rw [execMemTrained, if_neg (by simp [hnone, hrom])]
  · rintro a slot sub dev s c t hup rfl hst haddr rfl
    simp [exec_patrolScrubRead_of_up hup hst haddr]
  · rintro c slot temp s halved t hc hslot rfl rfl
    change execDimmThermalRead c slot temp s = _
    rw [execDimmThermalRead, onElem_true (by simp [hc, hslot])]
  · rintro c k s act t hc hst rfl rfl
    change execMemoryChannelFailure c k s = _
    rw [execMemoryChannelFailure, onElem_true (decide_eq_true hc), loseChannel, if_neg (by simp [hst])]

end Sys2Proof.Machine

/-! Accesses to registers, over BAR0 and over the internal bus (R18, R278, R616, R619). -/

namespace Sys2Proof.Machine

theorem wordAccess_four {a : Nat} (h : a % 4 = 0) : wordAccess a 4 = true := by
  simp [wordAccess, h]

theorem wordAccess_eight {a : Nat} (h : a % 8 = 0) : wordAccess a 8 = true := by
  simp [wordAccess, h]

/-- A granted write of one word outside the service clusters' registers is one write by the access codes. -/
theorem exec_internalWrite_of_granted {code a v : Nat} {s : State} (hgrant : rangeGrants s code a 4 true = true) (halign : a % 4 = 0)
    (houtside : inBlock a svcBase (0x10000 * 85) = false) :
    exec (.registerWrite (.internal code a) 4 v) s = .next (intWrite code a (v % 2 ^ 32) s) := by
  change Host.Outcome.next (if !rangeGrants s code a 4 true then violation (ownerDie a) code 1 a s
    else if wordAccess a 4 then intWrites code a 4 v s else s) = _
  rw [hgrant, wordAccess_four halign, if_neg Bool.noConfusion, if_pos rfl, intWrites, houtside]
  rfl

/-- A BAR0 access that is neither 4 nor 8 aligned bytes. -/
theorem bar0_misaligned {f : Fn} {off len v : Nat} {s : State} (hfn : fnExists s f = true) (hbad : wordAccess off len = false) :
    exec (.registerWrite (.bar0 f off) len v) s = .next (reportAdvisory f aerUnsupported s) ∧
      exec (.registerReadClear (.bar0 f off) len) s = .next (complete f 1 [] s) := by
  constructor
  · change execRegisterWrite (.bar0 f off) len v s = _
    simp only [execRegisterWrite]
    rw [onElem_true hfn, hbad]
    rfl
  · change execRegisterReadClear (.bar0 f off) len s = _
    simp only [execRegisterReadClear]
    rw [onElem_true hfn, hbad]
    rfl

theorem bar0_word {f : Fn} {off v : Nat} {s : State} (hfn : fnExists s f = true) (halign : off % 4 = 0) :
    exec (.registerWrite (.bar0 f off) 4 v) s = .next (bar0Write f off (v % 2 ^ 32) s) ∧
      exec (.registerReadClear (.bar0 f off) 4) s =
        .next (bar0ReadEffect f off 4 (emit (.readValue off (bar0Word s f off)) (leaveL1 f.link f.half s))) := by
  constructor
  · change execRegisterWrite (.bar0 f off) 4 v s = _
    simp only [execRegisterWrite]
    rw [onElem_true hfn, wordAccess_four halign]
    rfl
  · change execRegisterReadClear (.bar0 f off) 4 s = _
    simp only [execRegisterReadClear]
    rw [onElem_true hfn, wordAccess_four halign]
    rfl

theorem bar0_twoWords {f : Fn} {off v : Nat} {s : State} (hfn : fnExists s f = true) (halign : off % 8 = 0) :
    exec (.registerWrite (.bar0 f off) 8 v) s =
      .next (bar0Write f (off + 4) (v / 2 ^ 32 % 2 ^ 32) (bar0Write f off (v % 2 ^ 32) s)) := by
  change execRegisterWrite (.bar0 f off) 8 v s = _
  simp only [execRegisterWrite]
  rw [onElem_true hfn, wordAccess_eight halign]
  rfl

/-- Settles O46: the protection map decides an internal access, the alignment a BAR0 access, and then the register's access codes act. -/
theorem registerAccessesAct : Obligations.RegisterAccessesAct := by
  refine ⟨?_, ?_, ?_, ?_, ?_⟩
  · intro f off len v s hfn
    refine ⟨bar0_misaligned hfn, bar0_word hfn, bar0_twoWords hfn, fun x => ?_⟩
    change execRegisterWrite (.pcie f x) len v s = _
    simp only [execRegisterWrite]
    rw [onElem_true hfn]
  · intro code a len v s hdenied
    change execRegisterWrite (.internal code a) len v s = _
    simp [execRegisterWrite, hdenied]
  · intro code a len s hdenied
    change execRegisterReadClear (.internal code a) len s = _
    simp [execRegisterReadClear, hdenied]
  · intro code a len s hgrant hword
    change execRegisterReadClear (.internal code a) len s = _
    simp [execRegisterReadClear, hgrant, hword]
  · refine fun code a v s hgrant halign => ⟨fun harea hv houtside => ?_, exec_internalWrite_of_granted hgrant halign⟩
    rw [exec_internalWrite_of_granted hgrant halign houtside, Nat.mod_eq_of_lt hv, intWrite, if_pos (by simp [harea])]
    rfl

end Sys2Proof.Machine

/-! MKA on a port (R209, R214, R216) and the work of a crypto cluster: records, ESP and TLS (R218-R221, R226-R230). -/

namespace Sys2Proof.Machine

/-! ## A port that takes events -/

theorem onPort_of_up {p : Nat} {s : State} (hp : p < 1024) (hup : regionUp s (portDie p) (portRegion p) = true) (t : State) :
    onPort p s t = .next (faultSignal p (sendsFault s p) t) := by
  simp [onPort, onElem, hp, hup]

/-! ## ESP (R218, R219) -/

theorem espEncrypt_of_ready {g : Nat} {j : CryptJob} {s : State} {a : Sa} (hsa : tget s.cry.sas j.index = some a)
    (hout : a.inbound = false) (hkey : a.keyFault = false) (hnum : a.exhausted = false) :
    espEncrypt g true j s =
      if 9600 < (espSeal (drawFree s).2 a a.seq (drawFree s).1 j.pkt).1.length + 4 then
        releasePacket j.pkt (countC g 9 1 (saAdvance g j.index a (drawFree s).2))
      else leaveCrypto { j.pkt with
          bytes := (espSeal (drawFree s).2 a a.seq (drawFree s).1 j.pkt).1, front := frontSealed a j.pkt.front } j.fwd
        (countC g 1 (espSeal (drawFree s).2 a a.seq (drawFree s).1 j.pkt).2 (countC g 0 1 (saAdvance g j.index a (drawFree s).2))) := by
  simp [espEncrypt, hsa, hout, hkey, hnum]

section
variable {g o n len : Nat} {plain pt inner : Bytes} {j : CryptJob} {s u : State} {a : Sa} {x : EspAt}
  (hsa : tget s.cry.sas j.index = some a) (hat : espAt s j.pkt = some x) (ho : o = x.l4 + (if a.udpEncap then 8 else 0))
  (hin : a.inbound = true) (hfits : o + 34 ≤ x.stop) (hspi : rdN j.pkt.bytes o 4 = a.spi) (hkey : a.keyFault = false)
  (hn : n = espSeq a (rdN j.pkt.bytes (o + 4) 4)) (hwin : replayOk a n = true) (hlen : len = x.stop - o - 32)
  (hpt : pt = fitTo len plain) (hpad : rd pt (len - 2) 1 + 2 ≤ len)
  (htun : a.tunnel = true → rd pt (len - 1) 1 = 4 ∨ rd pt (len - 1) 1 = 41)
include hsa hat ho hin hfits hspi hkey hn hwin hlen hpt hpad htun

/-- A packet that passes the window, the tag and the padding checks is opened. -/
theorem espDecrypt_of_good (hinner : inner = pt.take (len - 2 - rd pt (len - 2) 1))
    (hu : u = mirrorSa j.index (saMod j.index (fun a => replayAccept a n) s)) :
    espDecrypt g true true plain j s =
      cryptoReturn { j.pkt with bytes := espOpen a x (etherTypeAt u j.pkt x) j.pkt.bytes inner (rd pt (len - 1) 1) }
        (countC g 3 inner.length (countC g 2 1 u)) := by
  have h16 : ¬ x.stop < o + 16 := by omega
  have h34 : ¬ x.stop < o + 34 := by omega
  have hmode : ¬ ((a.tunnel = true ∧ ¬ rd pt (len - 1) 1 = 4) ∧ ¬ rd pt (len - 1) 1 = 41) :=
    fun ⟨⟨ht, h4⟩, h41⟩ => (htun ht).elim h4 h41
  simp [espDecrypt, hsa, hat, ← ho, ← hlen, ← hpt, ← hn, ← hinner, ← hu, hin, h16, h34, hspi, hkey, hwin, Nat.not_lt.mpr hpad, hmode]

end

/-! ## TLS (R226, R227) -/

theorem tlsTx_in_order {g lo hi : Nat} {j : CryptJob} {s u : State} {h h' c : TlsHalf} {x : IpAt} {data out : Bytes}
    (hhalf : tget s.cry.tls (tlsKey j.link j.index 0) = some h) (hkey : h.keyFault = false) (hst : h.st ≠ 4)
    (hseg : segmentOf j.pkt = some (x, lo, hi)) (hnext : rdN j.pkt.bytes (x.l4 + 4) 4 = h.nextTcp)
    (hdata : data = slice j.pkt.bytes lo (hi - lo)) (hout : txBytes (openHalf s h) data = (out, h'))
    (hcount : tlsCount g j.link j.index 0 data.length (sealHalf h h') s = (c, u)) :
    tlsTx g true j s = leaveCrypto { j.pkt with bytes := tcpFix x (splice j.pkt.bytes lo out) } j.fwd
      (countC g 12 data.length (countC g 11 (c.recSeq - h.recSeq) (putHalf j.link j.index 0 c u))) := by
  simp [tlsTx, hhalf, hkey, hst, hseg, hnext, ← hdata, hout, hcount]

theorem tlsRx_in_order {g lo hi : Nat} {plain : Bytes} {ends : List (Bool × Nat)} {j : CryptJob} {s u : State} {h c : TlsHalf} {x : IpAt}
    {data : Bytes} {r : RxScan} (hhalf : tget s.cry.tls (tlsKey j.link j.index 1) = some h) (hkey : h.keyFault = false) (hst : h.st = 1)
    (hseg : segmentOf j.pkt = some (x, lo, hi)) (hnext : rdN j.pkt.bytes (x.l4 + 4) 4 = h.nextTcp)
    (hdata : data = slice j.pkt.bytes lo (hi - lo)) (hsome : data ≠ []) (hr : r = rxScan { h := h, ends := ends } data plain)
    (hsync : r.cause = 0) (hcount : tlsCount g j.link j.index 1 r.taken r.h s = (c, u)) :
    tlsRx g true plain ends j s = cryptoReturn
      { j.pkt with bytes := tcpFix x (splice j.pkt.bytes lo r.out)
                   tls := (4 + 8 * b2n (r.failed == 0) + 16 * b2n (r.failed != 0), r.records, r.firstBad) }
      (putHalf j.link j.index 1 c (countC g 15 r.failed (countC g 14 r.taken (countC g 13 r.records u)))) := by
  simp [tlsRx, hhalf, hkey, hst, hseg, hnext, ← hdata, hsome, ← hr, hsync, hcount]

/-! ## Record caches (R221) -/

theorem countReads_cry (a n : Nat) (s : State) : (countReads a n s).cry = s.cry := rfl

/-- A record that a cache holds, or that DDR5 gives without poison, joins the cache of the region while that has room. -/
theorem recordFetch_of_room {g i r n : Nat} {s t : State} {j : CryptJob} (hg : g < 16) (hneeds : needsRecord s g = some i)
    (hjob : (tgetD s.cry.inputs g [])[i]? = some j) (hr : r = jobRecord j) (hn : n = if r < 2 ^ 21 then 256 else 512)
    (hread : thas s.cry.holder r = true ∨ (ddr5Up s = true ∧ poisonHit s (recordAddr r) n = none))
    (ht : t = if thas s.cry.holder r then s else countReads (recordAddr r) n s)
    (hroom : (t.cry.holder.filter fun e => e.2 == g).length < 4096) :
    exec (.cryptoRecordFetch g) s =
      .next (cryMod (fun c => { c with holder := tput s.cry.holder r g }) (countC g (if thas s.cry.holder r then 22 else 21) 1 t)) := by
  have hfull : ¬ 4096 ≤ (t.cry.holder.filter fun e => e.2 == g).length := Nat.not_le.mpr hroom
  change execCryptoRecordFetch g s = _
  rw [execCryptoRecordFetch, onElem_true (decide_eq_true hg), hneeds]
  cases hheld : thas s.cry.holder r with
  | true =>
    rw [if_pos hheld] at ht
    subst ht
    simp [hjob, ← hr, hheld, hfull]
  | false =>
    obtain ⟨hup, hclean⟩ := hread.resolve_left (by simp [hheld])
    rw [if_neg (by simp [hheld])] at ht
    subst ht
    rw [countReads_cry] at hfull
    simp [-Nat.reducePow, hjob, ← hr, hheld, ← hn, hup, hclean, hfull, countReads_cry]

/-- Settles O32: the MKA rows by the port's own checks, the crypto rows by the job at hand passing each of its checks. -/
theorem securityEventsAct : Obligations.SecurityEventsAct := by
  refine ⟨?_, ?_, ?_, ?_, ?_, ?_, ?_, ?_, ?_⟩
  · rintro p d s t hp hregion hup rfl hcak hruns
    change execMkpduReceived p true d s = _
    rw [execMkpduReceived, onPort_of_up hp hregion]
    simp [hup, hcak, hruns]
  · intro p s hp hregion hruns
    change execMkaHelloTimer p s = _
    rw [execMkaHelloTimer, onPort_of_up hp hregion, hruns]
    rfl
  · intro p sci s hp hregion hany hall
    have hnone : ((mkaOf s p).peers.filter fun x => x.sci != sci) = [] := by
      simpa [List.filter_eq_nil_iff] using hall
    change execMkaLifeExpiry p sci s = _
    rw [execMkaLifeExpiry, onPort_of_up hp hregion]
    simp [hany, hnone]
  · rintro p sci s l u t hp hregion hany rfl hl rfl rfl
    change execMkaLifeExpiry p sci s = _
    rw [execMkaLifeExpiry, onPort_of_up hp hregion]
    simp [hany, hl]
  · intro g s i j r n t hg hneeds hjob hr hn hread ht hroom
    exact recordFetch_of_room hg hneeds hjob hr hn hread ht hroom
  · rintro g s j t a u hg htake hsa hout hkey hnum rfl
    change execCryptoEncrypt g true s = _
    rw [execCryptoEncrypt, onElem_true (decide_eq_true hg), htake]
    simp only [espEncrypt_of_ready hsa hout hkey hnum]
  · intro g plain s j t a x o n len pt inner u hg htake hsa hat ho hin hfits hspi hkey hn hwin hlen hpt hpad htun hinner hu
    change execCryptoDecrypt g true true plain s = _
    rw [execCryptoDecrypt, onElem_true (decide_eq_true hg), htake]
    simp only [espDecrypt_of_good hsa hat ho hin hfits hspi hkey hn hwin hlen hpt hpad htun hinner hu]
  · intro g s j t h x lo hi data out h' c u hg htake hhalf hkey hst hseg hnext hdata hout hcount
    change execTlsTxSegment g true s = _
    rw [execTlsTxSegment, onElem_true (decide_eq_true hg), htake]
    simp only [tlsTx_in_order hhalf hkey hst hseg hnext hdata hout hcount]
  · rintro g plain ends s j t h x lo hi data r c u v hg htake hhalf hkey hst hseg hnext hdata hsome hr hsync hcount rfl
    change execTlsRxSegment g true plain ends s = _
    rw [execTlsRxSegment, onElem_true (decide_eq_true hg), htake]
    simp only [tlsRx_in_order hhalf hkey hst hseg hnext hdata hsome hr hsync hcount]

end Sys2Proof.Machine

/-! The SYS commands (R446-R453, R464, R606-R612). -/

namespace Sys2Proof.Machine

theorem twinByte_eq (s : State) :
    twinByte s = if s.twin.state = .alone then 0 else if twinProtected s then 1 else 2 := by
  simp [twinByte]

/-- A command that interrupts needs its force flag or a twin that covers (R452). -/
theorem not_uncovered {force covered : Bool} (h : force = true ∨ covered = true) : ¬ (force = false ∧ covered = false) := by
  rintro ⟨hforce, hcovered⟩
  simp [hforce, hcovered] at h

/-- Settles O1: no check refuses, so each body ends, or is accepted, as the clause says. -/
theorem sysCommandsAct : Obligations.SysCommandsAct := by
  refine ⟨?_, ?_, ?_, ?_, ?_, ?_, ?_, ?_, ?_, ?_, ?_⟩
  · intro c s h
    exact run_ends (o := opSysNop) h rfl
  · intro c s h
    rw [← twinByte_eq]
    exact run_ends (o := opSysInfo) h rfl
  · intro c s h
    refine run_ends (o := opSysEpochRead) h ?_
    cases hst : s.cfg.stage <;> simp [opSysEpochRead, mkOp, hst]
  · intro c s h hspare
    refine run_ends (o := opSysPathQuery) h ?_
    simp [opSysPathQuery, mkOp, hspare]
  · intro c s h hspare
    refine run_ends (o := opSysPathQuery) h ?_
    simp [opSysPathQuery, mkOp, hspare]
  · intro c s h hon hres hcover
    have hcov := not_uncovered hcover
    refine run_starts (o := opSysDrain) h ?_
    simp [opSysDrain, mkOp, hon, Nat.not_lt.mpr hres, hcov]
  · intro c s h hoff hres
    refine run_startsThen (o := opSysDrain) (f := fun s => finishKey 0x0005 (c.place + 2 ^ 27) (repOk []) s) h ?_
    simp [opSysDrain, mkOp, hoff, Nat.not_lt.mpr hres]
  · intro c s h hdie hfabric hkind hres hcover hidle
    have hcov := not_uncovered hcover
    refine run_startsThen (o := opSysReset) h ?_
    simp [opSysReset, mkOp, hdie, hfabric, hkind, Nat.not_lt.mpr hres, hcov, hidle]
  · intro c s h hkind hres hcover
    have hcov := not_uncovered hcover
    refine run_ends (o := opSysReset) h ?_
    rcases hkind with hkind | ⟨hkind, hlevel, hhub⟩
    · simp [opSysReset, mkOp, hkind, Nat.not_lt.mpr hres, hcov]
      rfl
    · simp [opSysReset, mkOp, hkind, Nat.not_lt.mpr hres, hcov, hlevel, hhub]
      rfl
  · intro c s h hi hspace hend hrec hrun hbuf
    refine run_starts (o := opSysFwLoad) h ?_
    simp [opSysFwLoad, mkOp, Nat.not_lt.mpr hi, Nat.not_lt.mpr hspace, Nat.not_lt.mpr hend, hrec, hrun, hbuf]
  · intro c s h hi hflags hver hrec
    have hstays : bit (c.prm 1 1) 0 = false := by rw [hflags]; rfl
    have hres : ¬ 1 < c.prm 1 1 := by omega
    refine run_startsThen (o := opSysFwActivate) (f := fun s => finishKey 0x0008 (c.prm 0 1) (repOk []) s) h ?_
    simp [opSysFwActivate, mkOp, Nat.not_lt.mpr hi, hres, hstays, hver, hrec]

end Sys2Proof.Machine

/-! The CFG commands (R454-R456, R464-R473). -/

namespace Sys2Proof.Machine

/-! ## Reads (R455) -/

section
variable {c : Cmd} {s : State} {l : List Nat} (hview : c.prm 6 1 ≤ 3) (hlayer : 2 ≤ c.prm 6 1 → c.prm 7 1 ≤ 64)
  (hlen : c.prm 8 1 = 4 ∨ c.prm 8 1 = 8 ∨ c.prm 8 1 = 16) (halign : c.prm 0 6 % 2 ^ 47 % 4 = 0)
  (hl : l = (List.range (c.prm 8 1 / 4)).map fun k => c.prm 0 6 % 2 ^ 47 + 4 * k) (hin : ∀ a ∈ l, inConfig a = true)
  (hmasks : bit (c.prm 0 6) 47 = true → 2 ≤ c.prm 6 1 ∧ c.prm 7 1 ≠ 0) (hrw : c.prm 6 1 ≠ 0 → ∀ a ∈ l, rwMask a ≠ 0)

include hview hlayer hlen halign in
/-- The fields of a read are in range. -/
theorem cfgRead_inRange : (decide (3 < c.prm 6 1) || (decide (2 ≤ c.prm 6 1) && decide (64 < c.prm 7 1)) ||
    (c.prm 8 1 != 4 && c.prm 8 1 != 8 && c.prm 8 1 != 16) || c.prm 0 6 % 2 ^ 47 % 4 != 0) = false := by
  have hlong : ¬ (2 ≤ c.prm 6 1 ∧ 64 < c.prm 7 1) := fun ⟨h2, h64⟩ => absurd (hlayer h2) (Nat.not_le.mpr h64)
  rcases hlen with hn | hn | hn <;> simp [-Nat.reducePow, hn, Nat.not_lt.mpr hview, halign] <;> omega

include hl hin hmasks hrw in
/-- A read names words of the configuration, in a view that they have. -/
theorem cfgRead_named : (!(((List.range (c.prm 8 1 / 4)).map fun k => c.prm 0 6 % 2 ^ 47 + 4 * k).all inConfig) ||
    (bit (c.prm 0 6) 47 && (decide (c.prm 6 1 < 2) || c.prm 7 1 == 0)) ||
    (c.prm 6 1 != 0 && ((List.range (c.prm 8 1 / 4)).map fun k => c.prm 0 6 % 2 ^ 47 + 4 * k).any fun x => rwMask x == 0)) = false := by
  rw [← hl]
  have hall : l.all inConfig = true := List.all_eq_true.mpr hin
  have hview' : (bit (c.prm 0 6) 47 && (decide (c.prm 6 1 < 2) || c.prm 7 1 == 0)) = false := by
    cases hb : bit (c.prm 0 6) 47 with
    | false => rfl
    | true =>
      obtain ⟨h2, h0⟩ := hmasks hb
      simp [Nat.not_lt.mpr h2, h0]
  have hany : (c.prm 6 1 != 0 && l.any fun x => rwMask x == 0) = false := by
    by_cases h0 : c.prm 6 1 = 0
    · simp [h0]
    · simpa [h0] using hrw h0
  rw [hall, hview', hany]
  rfl

end

/-! ## Overlays (R466) -/

theorem opCfgOverlay_of_stage {c : Cmd} {s : State} {g : Stage} {o : OvSlot} (hstaged : c.staged = true) (hok : stageRefusal s c = none)
    (hg : s.cfg.stage = some g) (hk : c.prm 0 1 ≤ 63) (hact : c.prm 1 1 ≤ 3) (hprio : c.prm 1 1 = 1 → c.prm 2 1 ≤ 15)
    (ho : o = tgetD g.layers.slots (c.prm 0 1) {})
    (hroom : c.prm 1 1 = 2 → o.active = true ∨ (g.layers.slots.filter fun e => e.2.active).length < 4) :
    opCfgOverlay.body c s = .ok [] (touchStage { s with cfg := { s.cfg with stage := some { g with layers := { g.layers with
      slots := tput g.layers.slots (c.prm 0 1) (if c.prm 1 1 = 0 then {} else if c.prm 1 1 = 1 then { o with prio := c.prm 2 1 }
        else { o with active := decide (c.prm 1 1 = 2) }) } } } }) := by
  subst ho
  have hcases : c.prm 1 1 = 0 ∨ c.prm 1 1 = 1 ∨ c.prm 1 1 = 2 ∨ c.prm 1 1 = 3 := by omega
  rcases hcases with ha | ha | ha | ha
  · simp [opCfgOverlay, mkOp, hstaged, hok, hg, Nat.not_lt.mpr hk, ha]
    rfl
  · simp [opCfgOverlay, mkOp, hstaged, hok, hg, Nat.not_lt.mpr hk, ha, Nat.not_lt.mpr (hprio ha)]
    rfl
  · have hfree : ¬ ((tgetD g.layers.slots (c.prm 0 1) {}).active = false ∧
        4 ≤ (g.layers.slots.filter fun e => e.2.active).length) := by
      rintro ⟨hoff, hfull⟩
      rcases hroom ha with hon | hless
      · simp [hoff] at hon
      · omega
    simp [opCfgOverlay, mkOp, hstaged, hok, hg, Nat.not_lt.mpr hk, ha, hfree]
    rfl
  · simp [opCfgOverlay, mkOp, hstaged, hok, hg, Nat.not_lt.mpr hk, ha]
    rfl

/-- Settles O2: the stage, where a command needs one, is the queue's own and takes it; each body then ends as the clause says. -/
theorem cfgCommandsStage : Obligations.CfgCommandsStage := by
  refine ⟨?_, ?_, ?_, ?_, ?_, ?_⟩
  · intro c s t h hnone htag
    refine run_ends (o := opCfgStage) h ?_
    simp [opCfgStage, mkOp, hnone, htag]
    rfl
  · intro c s h hok
    refine run_ends (o := opCfgDiscard) h ?_
    simp [opCfgDiscard, mkOp, hok]
  · intro c s h hok hlink
    refine run_startsThen (o := opCfgFix) h ?_
    simp [opCfgFix, mkOp, hok, hlink]
  · rintro c s g l h hstaged hok hg hlayer h4 h996 hwords hmasks halign hrw rfl hroom
    refine run_ends (o := opCfgWrite) h ?_
    have hrange : (decide (64 < c.prm 6 1) || decide (c.prm 8 2 < 4) || decide (996 < c.prm 8 2) || c.prm 8 2 % 4 != 0 ||
        c.prm 0 6 % 2 ^ 47 % 4 != 0) = false := by
      simp [-Nat.reducePow, Nat.not_lt.mpr hlayer, Nat.not_lt.mpr h4, Nat.not_lt.mpr h996, hwords, halign]
    have hpath : ((bit (c.prm 0 6) 47 && c.prm 6 1 == 0) ||
        (List.range (c.prm 8 2 / 4)).any fun k => rwMask (c.prm 0 6 % 2 ^ 47 + 4 * k) == 0) = false := by
      have hbase : (bit (c.prm 0 6) 47 && c.prm 6 1 == 0) = false := by simpa using hmasks
      rw [hbase, Bool.false_or, List.any_eq_false]
      exact fun k hk => by simpa using hrw k (List.mem_range.mp hk)
    simp only [opCfgWrite, mkOp, hstaged, hrange, hpath, hok, hg, Bool.not_true, Bool.false_eq_true, if_false,
      if_neg (Nat.not_lt.mpr hroom)]
    rfl
  · intro c s g o h hstaged hok hg hk hact hprio ho hroom
    exact run_ends (o := opCfgOverlay) h (opCfgOverlay_of_stage hstaged hok hg hk hact hprio ho hroom)
  · intro c s l h hview hlayer hlen halign hl hin hmasks hrw
    have hrange := cfgRead_inRange hview hlayer hlen halign
    have hnamed := cfgRead_named hl hin hmasks hrw
    refine ⟨fun hv => run_ends (o := opCfgRead) h ?_, fun g hv hg => run_ends (o := opCfgRead) h ?_,
      fun hv => run_ends (o := opCfgRead) h ?_, fun hv => run_ends (o := opCfgRead) h ?_⟩
    · simp only [opCfgRead, mkOp, hrange, hnamed, Bool.false_eq_true, if_false]
      simp only [hv, ← hl]
    · simp only [opCfgRead, mkOp, hrange, hnamed, Bool.false_eq_true, if_false]
      simp only [hv, ← hl, hg]
    · simp only [opCfgRead, mkOp, hrange, hnamed, Bool.false_eq_true, if_false]
      simp only [hv, ← hl]
    · simp only [opCfgRead, mkOp, hrange, hnamed, Bool.false_eq_true, if_false]
      cases hst : s.cfg.stage <;> simp [-Nat.reducePow, hv, ← hl]

end Sys2Proof.Machine

/-! The two-phase fix, its messages and timeouts, and the end of a reseed (R139, R471-R482). -/

namespace Sys2Proof.Machine

theorem dropPrepared_prepared (s : State) : (dropPrepared s).cfg.prepared = none := by
  cases h : s.cfg.prepared with
  | none => simp [dropPrepared, h]
  | some p =>
    simp only [dropPrepared, h]
    rfl

/-- Settles O3: each message finds the fix, the stage or the prepared epoch that it names. -/
theorem epochMessagesAct : Obligations.EpochMessagesAct := by
  refine ⟨?_, ?_, ?_, ?_, ?_, ?_, ?_, ?_, ?_, ?_⟩
  · rintro e s t g rfl hg rfl hok
    change execPrepareReceived g.epoch s = .next (sendTwin (.prepared g.epoch) (toFlash 1 g.epoch [] (freezeStage true (cfgMod (fun x =>
      { x with prepared := some ({ num := g.epoch, tag := g.tag, words := effective g.layers, stopped := none }, g.layers) })
      (restage s)))))
    simp [execPrepareReceived, hg, hok]
  · rintro e s f hfix rfl hopen
    change execPreparedReceived f.epoch s = _
    simp [execPreparedReceived, hfix, hopen]
  · rintro e noTag a s f hfix rfl hopen
    change execRefusedReceived f.epoch noTag a s = _
    simp [execRefusedReceived, hfix, hopen]
  · rintro e s p l hprep rfl
    change execCommitReceived p.num s = _
    simp [execCommitReceived, hprep]
  · rintro e s f hfix rfl hcommitted
    change execCommittedReceived f.epoch s = _
    simp [execCommittedReceived, hfix, hcommitted]
  · rintro e s p l hprep rfl
    refine ⟨?_, dropPrepared_prepared s⟩
    change execAbortReceived p.num s = _
    simp [execAbortReceived, hprep]
  · intro s f hfix hready hopen hpaired
    change execPrepareReplyTimeout s = _
    simp [execPrepareReplyTimeout, hfix, hready, hopen, hpaired]
  · intro s g hg hfree
    change execStageTimeout s = _
    simp [execStageTimeout, hg, hfree]
  · rintro e s x hlast rfl hold
    change execEpochHoldExpiry x.num s = _
    simp [execEpochHoldExpiry, hlast, hold]
  · intro t s r ht hreseed
    change execTblReseedDone t s = _
    rw [execTblReseedDone, onElem_true (decide_eq_true ht), hreseed]

end Sys2Proof.Machine

/-! The TBL commands on programs, templates, groups, counters and meters (R158-R170, R177, R181, R195). -/

namespace Sys2Proof.Machine

/-- A version slot is free: the new version takes the store's place in the state in which the command acts. -/
theorem storeVersion_of_room {α : Type} {c : Cmd} {s : State} {l l' : List (Version α)} {v : α} {put : List (Version α) → State → State}
    (h : setVersion s (opEpoch c s) v l = some l') : storeVersion c s l v put = .ok [] (put l' (opState c s)) := by
  simp [storeVersion, h]

theorem memberOk_reserved {m : Nat} (h : memberOk m = true) : fld m 58 6 = 0 := by
  rw [memberOk, Bool.and_eq_true, beq_iff_eq] at h
  exact h.1

section
variable {c : Cmd} {s : State} {ms : List (BitVec 64)} (hres : c.prm 7 1 ≤ 1) (hms : ms = words64 (c.params.drop 8) (c.prm 6 1))
  (h1 : 1 ≤ c.prm 6 1) (h120 : c.prm 6 1 ≤ 120) (htotal : c.prm 2 2 ≤ 1024) (hpart : c.prm 4 2 + c.prm 6 1 ≤ c.prm 2 2)
  (hwhole : c.staged = false → c.prm 4 2 = 0 ∧ c.prm 6 1 = c.prm 2 2) (hok : ∀ m ∈ ms, memberOk m.toNat = true)
  (hopen : opRefusal c s = none)
include hres hms h1 h120 htotal hpart hwhole hok hopen

/-- The checks of a multicast group's members pass; the version of the command's own epoch decides what the command does. -/
theorem opTblGroupSet_body {l : List (Version Group)} (hl : l = tgetD s.tbl.groups (c.prm 0 2) []) :
    opTblGroupSet.body c s =
      let put := fun (l : List (Version Group)) (s : State) => { s with tbl := { s.tbl with groups := tput s.tbl.groups (c.prm 0 2) l } }
      match (if c.staged then l.find? fun v => v.born == some (opEpoch c s) else none) with
      | some v =>
        if v.val.total != c.prm 2 2 || v.val.srcPrune != bit (c.prm 7 1) 0 then .refuse (badParam dPartMismatch)
        else .ok [] (put (l.map fun y => if y.born == v.born then
          { y with val := { v.val with members := putMembers (c.prm 4 2) ms v.val.members } } else y) (opState c s))
      | none => storeVersion c s l { total := c.prm 2 2, srcPrune := bit (c.prm 7 1) 0, members := putMembers (c.prm 4 2) ms [] } put := by
  have hrange : (c.prm 2 2 == 0 || decide (1024 < c.prm 2 2) || c.prm 6 1 == 0 || decide (120 < c.prm 6 1) ||
      decide (c.prm 2 2 < c.prm 4 2 + c.prm 6 1)) = false := by
    simp
    omega
  have hall : (!c.staged && (c.prm 4 2 != 0 || c.prm 6 1 != c.prm 2 2)) = false := by
    cases hst : c.staged with
    | true => rfl
    | false => simpa using hwhole hst
  have hrsvd : (ms.any fun m => fld m.toNat 58 6 != 0) = false :=
    List.any_eq_false.mpr fun m hm => by simp [memberOk_reserved (hok m hm)]
  have hmembers : (ms.all fun m => memberOk m.toNat) = true := List.all_eq_true.mpr hok
  simp only [opTblGroupSet, mkOp, ← hms, hrange, hall, hrsvd, hmembers, hopen, ← hl, if_neg (Nat.not_lt.mpr hres), Bool.not_true,
    Bool.false_eq_true, if_false] <;> rfl

end

/-- Settles O5: what the command names is well formed and a slot is free, so the store takes its new version; counters and meters are
read and written in place. -/
theorem tableStoreCommandsAct : Obligations.TableStoreCommandsAct := by
  refine ⟨?_, ?_, ?_, ?_, ?_, ?_, ?_⟩
  · intro c s l h hi h1 h16 hprims hok hroom
    refine run_ends (o := opTblProgramSet) h ?_
    have hall : ((words64 (c.params.drop 8) (c.prm 2 1)).all fun w => primitiveOk w.toNat) = true := List.all_eq_true.mpr hprims
    have h0 : c.prm 2 1 ≠ 0 := by omega
    simp only [opTblProgramSet, mkOp, hall, hok, storeVersion_of_room hroom, opState_tbl]
    simp [Nat.not_lt.mpr hi, h0, Nat.not_lt.mpr h16]
  · intro c s l h hi hform hok hroom
    refine run_ends (o := opTblTemplateSet) h ?_
    simp [opTblTemplateSet, mkOp, Nat.not_lt.mpr hi, hform, hok, storeVersion_of_room hroom, opState_tbl]
  · rintro c s l ms g h hres hms h1 h120 htotal hpart hwhole hmembers hok hnew rfl hroom
    have hfind : (if c.staged then (tgetD s.tbl.groups (c.prm 0 2) []).find? fun v => v.born == some (opEpoch c s) else none) = none := by
      cases hst : c.staged with
      | false => rfl
      | true => simpa using hnew hst
    refine run_ends (o := opTblGroupSet) h ?_
    rw [opTblGroupSet_body hres hms h1 h120 htotal hpart hwhole hmembers hok rfl, hfind]
    simp only [storeVersion_of_room hroom, opState_tbl]
  · rintro c s l ms v h hst hres hms h1 h120 htotal hpart hmembers hok hl hfind hsame hprune
    refine run_ends (o := opTblGroupSet) h ?_
    rw [opTblGroupSet_body hres hms h1 h120 htotal hpart (fun hno => absurd (hst.symm.trans hno) Bool.noConfusion) hmembers hok hl,
      if_pos hst, hfind]
    simp [hsame, hprune, opState_tbl]
  · rintro c s l ms h rfl hi h16 hrsvd hmembers hok hroom
    have hzero : ((List.range (c.prm 2 1)).any fun k => c.prm (7 + 4 * k) 1 != 0) = false :=
      List.any_eq_false.mpr fun k hk => by simpa using hrsvd k (List.mem_range.mp hk)
    have hports : ((lagMembers c.params (c.prm 2 1)).any fun m => decide (1023 < m.1) || decide (1 < m.2)) = false :=
      List.any_eq_false.mpr fun m hm => by simpa using hmembers m hm
    refine run_ends (o := opTblLagSet) h ?_
    simp only [opTblLagSet, mkOp, hzero, hports, hok, storeVersion_of_room hroom, opState_tbl]
    simp [Nat.not_lt.mpr hi, Nat.not_lt.mpr h16]
  · intro c s p b h hres hread
    refine run_ends (o := opTblCounterRead) h ?_
    have hbit : bit (c.prm 2 1) 0 = decide (c.prm 2 1 = 1) := by
      rcases Nat.le_one_iff_eq_zero_or_eq_one.mp hres with hflag | hflag <;> rw [hflag] <;> rfl
    simp [opTblCounterRead, mkOp, hread, Nat.not_lt.mpr hres, hbit]
  · intro c s h hi hcir hpir hrsvd
    refine run_ends (o := opTblMeterSet) h ?_
    simp [opTblMeterSet, mkOp, Nat.not_lt.mpr hi, Nat.not_lt.mpr hcir, Nat.not_lt.mpr hpir, hrsvd]

end Sys2Proof.Machine

/-! The CRY commands that read, remove, resynchronise and rekey (R208, R216, R217, R224-R229). -/

namespace Sys2Proof.Machine

/-- Settles O7: what each command names is there, so its body answers or removes it. -/
theorem cryReadsAndRemovals : Obligations.CryReadsAndRemovals := by
  refine ⟨?_, ?_, ?_, ?_, ?_, ?_, ?_, ?_⟩
  · intro c s h hport
    refine run_ends (o := opCryMkaRead) h ?_
    simp [opCryMkaRead, mkOp, Nat.not_le.mpr hport]
  · intro c s h hport hruns
    refine run_ends (o := opCryMkaRekey) h ?_
    simp [opCryMkaRekey, mkOp, Nat.not_le.mpr hport, hruns]
  · intro c s h hi hsa
    refine run_ends (o := opCrySaRemove s) h ?_
    simp only [opCrySaRemove, mkOp, if_neg (Nat.not_le.mpr hi), hsa, Bool.not_true, Bool.false_eq_true, if_false]
    rfl
  · intro c s a h hi hsa
    refine run_ends (o := opCrySaRead) h ?_
    simp only [opCrySaRead, mkOp, if_neg (Nat.not_le.mpr hi), hsa]
    rfl
  · intro c s h hi hsa
    refine run_ends (o := opCrySaRead) h ?_
    simp only [opCrySaRead, mkOp, if_neg (Nat.not_le.mpr hi), hsa]
  · intro c s t h hhalf hok htls
    refine run_ends (o := opCryTlsResync) h ?_
    simp [opCryTlsResync, mkOp, hhalf, hok, htls]
  · intro c s h hok hsome
    have hheld : ¬ (thas s.cry.tls (tlsKey (c.prm 0 1) (c.prm 4 4) 0) = false ∧
        thas s.cry.tls (tlsKey (c.prm 0 1) (c.prm 4 4) 1) = false) := by
      rintro ⟨h0, h1⟩
      simp [h0, h1] at hsome
    refine run_ends (o := opCryTlsRemove) h ?_
    simp [opCryTlsRemove, mkOp, hok, hheld]
    rfl
  · intro c s t h hhalf hok htls
    refine run_ends (o := opCryTlsRead) h ?_
    simp [opCryTlsRead, mkOp, Nat.not_lt.mpr hhalf, hok, htls]

end Sys2Proof.Machine

/-! The PORT commands (R460, R461) and the completions of commands that replied ACCEPTED (R436, R452, R461, R558, R613, R659, R662). -/

namespace Sys2Proof.Machine

/-- Settles O10: the ports and the buffer that a command names take it. -/
theorem portCommandsAct : Obligations.PortCommandsAct := by
  refine ⟨?_, ?_, ?_, ?_, ?_⟩
  · rintro c s l h halign hlen hend hup rfl
    have hwidth : (c.prm 2 1 == 4 || c.prm 2 1 == 8 || c.prm 2 1 == 16) = true := by
      rcases hlen with hn | hn | hn <;> simp [hn]
    refine run_ends (o := opPortRead) h ?_
    simp only [opPortRead, mkOp, halign, hwidth, macServes, hup]
    simp [Nat.not_lt.mpr hend]
  · intro c s h
    exact run_ends (o := opPortRestart) h rfl
  · intro c s h h1 hend hset halign hspace hbuf
    have h0 : c.prm 2 2 ≠ 0 := by omega
    refine run_starts (o := opPortSnapshot) h ?_
    simp [opPortSnapshot, mkOp, h0, Nat.not_lt.mpr hend, Nat.not_lt.mpr hset, halign, Nat.not_lt.mpr hspace, hbuf]
  · intro c s x t h hspace hbuf hpartner hfits hwrite
    refine run_ends (o := opPortPartnerRead) h ?_
    simp [opPortPartnerRead, mkOp, Nat.not_lt.mpr hspace, hbuf, hpartner, Nat.not_lt.mpr hfits, hwrite]
  · intro c s h hspace hbuf hpartner
    refine run_ends (o := opPortPartnerRead) h ?_
    simp [opPortPartnerRead, mkOp, Nat.not_lt.mpr hspace, hbuf, hpartner]

/-- Settles O11: the command that is owed at the queue and tag is found, and what its key says is done. -/
theorem owedCommandsComplete : Obligations.OwedCommandsComplete := by
  refine ⟨?_, ?_, ?_, ?_, ?_, ?_, ?_, ?_, ?_⟩
  · intro p s hp howed
    change execSysDrained p s = _
    rw [execSysDrained, onElem_true hp, if_pos howed]
  · intro q tag data oo ow dg s o howed
    change execFwImageVerified q tag false data oo ow dg s = _
    simp [execFwImageVerified, howed]
  · rintro q tag data oo ow dg s o w d t x howed rfl rfl rfl rfl
    change execFwImageVerified q tag true data oo ow dg s = _
    simp only [execFwImageVerified, howed]
    simp only [beq_iff_eq]
    rfl
  · intro q tag ok s o howed
    change execPortSnapshotComplete q tag ok s = _
    simp only [execPortSnapshotComplete, howed]
  · intro q tag ok s o howed
    change execAgeSheetReadComplete q tag ok s = _
    simp only [execAgeSheetReadComplete, howed]
  · rintro q tag ok s o b skipped m first t u howed rfl hrecords rfl rfl
    change execLogReadComplete q tag ok s = _
    simp only [execLogReadComplete, howed, hrecords]
    rfl
  · rintro q tag ok s o b howed rfl
    change execLogTraceReadComplete q tag ok s = _
    simp only [execLogTraceReadComplete, howed]
  · intro r s hlc
    change execBootMailboxWrite (some r) none s = _
    simp [execBootMailboxWrite, hlc, bootMod]
  · intro op c s hlc hrec
    change execBootMailboxWrite none (some (op, c)) s = _
    simp [execBootMailboxWrite, hlc, hrec, submit]

end Sys2Proof.Machine

/-! Virtual functions: the VF commands (R309-R323), the SR-IOV registers (R302-R304) and the ends of their activities (R310-R321). -/

namespace Sys2Proof.Machine

/-! ## The commands -/

/-- A command that owes its one reply (R436) leaves only what it owes. -/
theorem run_later {o : Op} {c : Cmd} {s t : State} {k : Nat} (h : accepts o c s = true) (hb : o.body c s = .later k t) :
    runCmd o c s = { t with cmd := { t.cmd with owed := t.cmd.owed ++
      [{ queue := c.queue, tag := c.tag.toNat, opcode := o.code, epoch := curEpoch s, key := k, accepted := false }] } } := by
  rw [run_accepted h, hb]

/-- Settles O12: the function that a command names is in the state that the command needs. -/
theorem vfCommandsAct : Obligations.VfCommandsAct := by
  refine ⟨?_, ?_, ?_, ?_, ?_, ?_, ?_, ?_⟩
  · rintro c s f h href rfl hhalf hnum hfn
    refine run_ends (o := opVfQuery) h ?_
    simp [opVfQuery, mkOp, href, hhalf, Nat.not_lt.mpr hnum, hfn]
  · rintro c s f h hnamed rfl hvf hst hfree
    refine congrArg Host.Outcome.next (run_later (o := opVfSuspend) (k := fnKey (refFn (c.prm 0 4))) h ?_)
    simp [opVfSuspend, mkOp, hnamed, hvf, hst, hfree]
  · rintro c s f t h hnamed rfl hvf hst rfl
    refine run_ends (o := opVfResume) h ?_
    simp [opVfResume, mkOp, hnamed, hvf, hst]
  · rintro c s f k h hnamed rfl hbitmap hbase hlen hsome hmax hnone hfree
    refine run_ends (o := opVfLogStart) h ?_
    simp [-Nat.reducePow, opVfLogStart, mkOp, hnamed, hbitmap, hbase, hlen, hsome, Nat.not_lt.mpr hmax, hnone, hfree]
  · rintro c s k l h hnamed hlog hl hfree
    refine run_starts (o := opVfLogHarvest) h ?_
    simp [opVfLogHarvest, mkOp, hnamed, hlog, hl, hfree]
  · rintro c s k l h hnamed hlog hl hfree
    refine run_ends (o := opVfLogStop) h ?_
    simp [opVfLogStop, mkOp, hnamed, hlog, hl, hfree]
  · rintro c s f t h hnamed rfl halign hvf hst hfits rfl
    refine run_startsThen (o := opVfSave) (f := fun t =>
      hostWrite ((queueFn c.queue).getD (pfOf (refFn (c.prm 0 4)))) (c.prm 8 8) (vfImage t (refFn (c.prm 0 4))) t) h ?_
    simp [opVfSave, mkOp, hnamed, halign, hvf, hst, Nat.not_lt.mpr hfits]
  · rintro c s f h hnamed rfl hvf hst hnone
    refine run_starts (o := opVfRestore) h ?_
    simpa [opVfRestore, mkOp, hnamed, hvf, hst] using hnone

/-! ## The events -/

theorem isPf_of {f : Fn} {s : State} (hfn : fnExists s f = true) (hnum : f.num = 0) : (fnExists s f && f.num == 0) = true := by
  simp [hfn, hnum]

theorem isVf_of {f : Fn} {s : State} (hfn : fnExists s f = true) (hnum : f.num ≠ 0) : (fnExists s f && f.num != 0) = true := by
  simp [hfn, hnum]

/-- Settles O13: the function takes the write, or its activity is the one that ends. -/
theorem vfEventsAct : Obligations.VfEventsAct := by
  refine ⟨?_, ?_, ?_, ?_, ?_, ?_, ?_, ?_, ?_, ?_, ?_⟩
  · intro f n s hfn hpf hclear hmax
    change execNumvfsWrite f n s = _
    rw [execNumvfsWrite, onElem_true (isPf_of hfn hpf), if_neg (by simp [hclear, hmax])]
  · intro f s hfn hpf hclear
    change execVfEnableSet f s = _
    rw [execVfEnableSet, onElem_true (isPf_of hfn hpf), if_neg (by simp [hclear])]
  · intro f s hfn hpf
    change execVfEnableClear f s = _
    rw [execVfEnableClear, onElem_true (isPf_of hfn hpf)]
  · rintro f s t hfn hvf hset rfl
    change execVfCtrlEnableSet f s = _
    rw [execVfCtrlEnableSet, onElem_true (isVf_of hfn hvf)]
    simp [vfCtrlWrite, hset]
  · rintro f s t hfn hvf hclear hst rfl
    change execVfCtrlEnableClear f s = _
    rw [execVfCtrlEnableClear, onElem_true (isVf_of hfn hvf)]
    simp [vfCtrlWrite, hclear, hst]
  · rintro f s t u again hfn hvf hst hreads rfl rfl rfl
    change execVfShutdownDone f s = _
    rw [execVfShutdownDone, onElem_true (isVf_of hfn hvf)]
    simp [hst, hreads]
  · intro f s hfn hvf hsus
    change execVfSuspendComplete f s = _
    rw [execVfSuspendComplete, onElem_true (isVf_of hfn hvf), if_pos hsus]
  · intro f s k l hlog hl hharv
    change execVfLogHarvestComplete f false s = _
    simp [execVfLogHarvestComplete, hlog, hl, hharv]
  · rintro f s k l t l' v hlog hl hharv rfl rfl hl'
    change execVfLogHarvestComplete f true s = _
    simp [execVfLogHarvestComplete, hlog, hl, hharv, hl']
  · intro f ok s
    rfl
  · rintro f b s q v hfn hvf howed rfl rfl hmagic hversion hsize hlen hcrc hq hv
    change execVfRestored f b true s = _
    rw [execVfRestored, onElem_true (isVf_of hfn hvf)]
    simp only [Option.isNone_eq_false_iff.mpr howed, hmagic, hversion, hsize, hlen, hcrc, ← hq, ← hv, bne_self_eq_false, Bool.or_self,
      Bool.not_true, Bool.false_eq_true, if_false]

end Sys2Proof.Machine

/-! Queue pairs and channels: the DMA commands (R329-R349) and what their doorbells, packets and beats do (R326-R347). -/

namespace Sys2Proof.Machine

/-! ## The commands -/

theorem enableOk_chEnable {k w : Nat} {s : State} (h : enableOk (dmaOf s k) w = true) :
    chEnable k w s = dmaMod k (fun d => { d with
      ctrl := setBit w 0, act := d.prog, st := if bit w 3 then 1 else 2, count := 0, hold := [], srcPos := 0, landed := []
      merge := [], burst := 0 }) s := by
  simp [chEnable, h]

/-- Settles O14: the queue pair or channel exists, is the submitter's and stands in the state that the command needs. -/
theorem dmaCommandsAct : Obligations.DmaCommandsAct := by
  refine ⟨?_, ?_, ?_, ?_, ?_, ?_, ?_, ?_, ?_, ?_⟩
  · rintro c s f n h hnamed rfl rfl hpool hctx hst
    refine run_ends (o := opDmaQpSet) h ?_
    simp [opDmaQpSet, mkOp, hnamed, hpool, hctx, hst]
  · rintro c s f n h hnamed rfl rfl hruns hst
    have hshut : ¬ (¬ (refFn (c.prm 0 4)).num = 0 ∧ (funcOf s (refFn (c.prm 0 4))).vf = .shuttingDown) :=
      fun ⟨hvf, hdown⟩ => hruns.elim hvf fun hup => hup hdown
    refine run_ends (o := opDmaQpStart) h ?_
    simp [opDmaQpStart, mkOp, hnamed, hshut, hst]
  · rintro c s f n h hnamed rfl rfl hst
    refine run_ends (o := opDmaQpStop) h ?_
    simp [opDmaQpStop, mkOp, hnamed, hst]
  · rintro c s f n h hnamed rfl rfl
    refine run_starts (o := opDmaQpFlush) h ?_
    simp [opDmaQpFlush, mkOp, hnamed]
  · rintro c s h hnamed
    refine run_ends (o := opDmaQpRead) h ?_
    simp [opDmaQpRead, mkOp, hnamed]
  · rintro c s e ch f h hqueue rfl rfl hnamed hkind href rfl hfn hlink hhalf hidle hst
    have hplace : ¬ (isBifurcated s (refFn (c.prm 4 4)).link = true ∧ ¬ (refFn (c.prm 4 4)).half = c.prm 0 1 % 8 / 4) :=
      fun ⟨hbif, hother⟩ => hother (hhalf hbif)
    rw [hlink] at hplace
    refine run_ends (o := opDmaChAssign) h ?_
    rcases hst with hst | hst <;> simp [opDmaChAssign, mkOp, hqueue, hnamed, hkind, href, hfn, hlink, hplace, hst]
  · rintro c s e ch h rfl rfl hnamed hown
    refine run_ends (o := opDmaChProgram) h ?_
    simp [opDmaChProgram, mkOp, hnamed, hown]
  · rintro c s e ch w d h rfl rfl hnamed rfl hown rfl hrun hok
    refine run_ends (o := opDmaChEnable) h ?_
    simp [-Nat.reducePow, opDmaChEnable, mkOp, hnamed, hown, hrun, hok, enableOk_chEnable hok]
  · rintro c s e ch h rfl rfl hnamed hown hstop hact
    refine run_ends (o := opDmaChEnable) h ?_
    simp [-Nat.reducePow, opDmaChEnable, mkOp, hnamed, hown, hstop, hact]
  · rintro c s e ch h rfl rfl hnamed hown
    refine run_ends (o := opDmaChRead) h ?_
    simp [opDmaChRead, mkOp, hnamed, hown]

/-! ## The events -/

/-- Settles O15: each event finds its queue pair, packet or channel and takes the branch that serves it. -/
theorem dmaEventsAct : Obligations.DmaEventsAct := by
  refine ⟨?_, ?_, ?_, ?_, ?_, ?_, ?_, ?_, ?_⟩
  · rintro f n i s t hfn hacts rfl
    change execQpDbTx f n i s = _
    rw [execQpDbTx, onElem_true hfn, if_neg (by simp [hacts])]
  · rintro f n i s t hfn hacts rfl
    change execQpDbRx f n i s = _
    rw [execQpDbRx, onElem_true hfn, if_neg (by simp [hacts])]
  · rintro f n i s t hfn hacts rfl
    change execQpDbCq f n i s = _
    rw [execQpDbCq, onElem_true hfn, if_neg (by simp [hacts])]
  · rintro f n descs data s ds pk len t hqp hpool hmay hds heop hgood hpk hlen hmin hmax rfl
    have hbad : ds.findIdx txBad = ds.length := List.findIdx_eq_length.mpr hgood
    have hfn : fnExists s f = true := (Bool.and_eq_true_iff.mp hqp).1
    have hshort : ¬ len < 14 := Nat.not_lt.mpr hmin
    have hlong : ¬ 9596 < len := Nat.not_lt.mpr hmax
    change execHostTxFetch f n descs data s = _
    rw [execHostTxFetch, onElem_true hfn, if_neg (by simp [hqp, hpool, hmay])]
    simp only [← hds, ← hpk, ← hlen, hbad]
    simp [Nat.ne_of_lt heop, hshort, hlong]
  · rintro d link prio exc descs s x r f n st t h1 h4 hlink hprio hq hdest hst rfl hqp hpool htwin hqst hruns hd3 hbme
    change execHostRxDelivery d link prio exc descs s = _
    rw [execHostRxDelivery, onElem_true (by simp [h1, h4, hlink, hprio])]
    have hlive : (backlogWidens f s).twin.state ≠ .fenced := htwin
    simp [hq, hdest, hst, hqp, hpool, hlive, hqst, hruns, hd3, hbme]
  · intro f n s hqp hpool htimer hirq hunread
    change execInterruptModerationTimer f n s = _
    rw [execInterruptModerationTimer, onElem_true (by simp [hqp])]
    simp [hpool, htimer, hirq, hunread]
  · rintro f n s nTx nRx t u hqp hst rfl rfl rfl rfl
    change execDmaQpFlushed f n s = _
    rw [execDmaQpFlushed, onElem_true hqp, if_neg (by simp [hst])]
  · rintro e s c t he hchosen rfl
    change execDmaBeat e s = _
    rw [execDmaBeat, onElem_true (decide_eq_true he), hchosen]
  · rintro n line s t hn hline rfl
    change execDmaRequestLineAssert n line s = _
    rw [execDmaRequestLineAssert, onElem_true (by simp [hn, hline])]

end Sys2Proof.Machine

/-! The STO commands on names, paths, namespaces and attachments (R359-R376). -/

namespace Sys2Proof.Machine

/-- A command that replies by itself (R435), whatever its status. -/
theorem run_replies {o : Op} {c : Cmd} {s t : State} {r : Rep} (h : accepts o c s = true) (hb : o.body c s = .reply r t) :
    runCmd o c s = replied o c r s t := by
  rw [run_accepted h, hb]

/-! ## Namespace keys (R376) -/

section
variable {c : Cmd} {s t : State} {n : Ns} {key : Bytes} (hi : c.prm 0 2 < 1024) (hslot : c.prm 2 1 ≤ 63)
  (hns : tget s.sto.nss (c.prm 0 2) = some n) (hlocked : n.st = 4)
include hi hslot hns hlocked

theorem stoNsKey_of_refused {r : Rep} (hkey : importKey c (nsField c) s = (.inl r, t)) : opStoNsKey.body c s = .reply r t := by
  simp [opStoNsKey, mkOp, Nat.not_le.mpr hi, Nat.not_lt.mpr hslot, hns, hlocked, hkey]

theorem stoNsKey_of_equalHalves (hkey : importKey c (nsField c) s = (.inr key, t)) (heq : key.take 32 = key.drop 32) :
    opStoNsKey.body c s = .reply (badParam 0) t := by
  simp [opStoNsKey, mkOp, Nat.not_le.mpr hi, Nat.not_lt.mpr hslot, hns, hlocked, hkey, heq]

theorem stoNsKey_of_mismatch {check : Bytes} (hkey : importKey c (nsField c) s = (.inr key, t)) (hne : key.take 32 ≠ key.drop 32)
    (hvalue : cipher (key.take 32 ++ List.replicate 16 0) 8 = check)
    (hcheck : thas t.sto.checks (c.prm 0 2) = true ∧ tget t.sto.checks (c.prm 0 2) ≠ some check) :
    opStoNsKey.body c s = .reply (badParam dKeyMismatch) t := by
  simp only [opStoNsKey, mkOp, hns, hlocked, hkey, hvalue]
  simp [Nat.not_le.mpr hi, Nat.not_lt.mpr hslot, hne, hcheck]

theorem stoNsKey_of_agreed {check : Bytes} (hkey : importKey c (nsField c) s = (.inr key, t)) (hne : key.take 32 ≠ key.drop 32)
    (hvalue : cipher (key.take 32 ++ List.replicate 16 0) 8 = check)
    (hcheck : ¬ (thas t.sto.checks (c.prm 0 2) = true ∧ tget t.sto.checks (c.prm 0 2) ≠ some check)) :
    opStoNsKey.body c s = .ok [] (pumpNs (c.prm 0 2) (nsUnlock (c.prm 0 2) key
      (stoMod (fun x => { x with checks := tput x.checks (c.prm 0 2) check }) t))) := by
  simp only [opStoNsKey, mkOp, hns, hlocked, hkey, hvalue]
  simp only [ne_eq] at hcheck
  simp [Nat.not_le.mpr hi, Nat.not_lt.mpr hslot, hne, hcheck]

end

/-- A detachment ends when it was begun (`p`) and no command of its submitter is open (`q`). -/
theorem detached_of_ended {p q : Bool} {s t : State} (hp : p = true) (hq : q = false) :
    (if !p then s else if q then s else t) = t := by
  simp [hp, hq]

/-- Settles O16: the names, paths and namespaces that a command needs are there, and nothing uses what it would take away. -/
theorem stoCommandsAct : Obligations.StoCommandsAct := by
  refine ⟨?_, ?_, ?_, ?_, ?_, ?_, ?_, ?_, ?_, ?_, ?_⟩
  · rintro c s h hsome hmax hfree
    have hunused : (s.sto.paths.any fun e => e.2.hostNqn == c.prm 0 1 || e.2.subNqn == c.prm 0 1) = false :=
      List.any_eq_false.mpr fun e he => by simpa using hfree e he
    refine run_ends (o := opStoNqnSet) h ?_
    simp only [opStoNqnSet, mkOp, hunused]
    simp [hsome, Nat.not_lt.mpr hmax]
  · rintro c s p h hres hrange rfl hfree hhost hsub hroom
    refine run_ends (o := opStoPathAdd) h ?_
    simp [opStoPathAdd, mkOp, hres, hrange, hfree, hhost, hsub, Nat.not_lt.mpr hroom]
  · rintro c s p h rfl hp hpath hunused
    have hfree : (s.sto.nss.any fun e => e.2.paths.contains (c.prm 0 2)) = false :=
      List.any_eq_false.mpr fun e he => by simpa using hunused e he
    refine run_ends (o := opStoPathRemove) h ?_
    simp only [opStoPathRemove, mkOp, hfree]
    simp [Nat.not_le.mpr hp, hpath]
  · rintro c s i n ds h hres rfl hi hformat hhold hpaths hattach rfl rfl
    have hin : ((nsPaths c).any fun p => decide (1024 ≤ p)) = false :=
      List.any_eq_false.mpr fun p hp => by
        obtain ⟨hlow, -⟩ := Bool.and_eq_true_iff.mp (List.all_eq_true.mp hpaths p hp)
        simpa using hlow
    have hthere : ((nsPaths c).any fun p => !thas s.sto.paths p) = false :=
      List.any_eq_false.mpr fun p hp => by
        obtain ⟨-, hhas⟩ := Bool.and_eq_true_iff.mp (List.all_eq_true.mp hpaths p hp)
        simp [hhas]
    refine run_ends (o := opStoNsAdd) h ?_
    simp only [opStoNsAdd, mkOp, hres, hin, hthere, hattach]
    simp [Nat.not_le.mpr hi, Nat.not_lt.mpr hformat, Nat.not_lt.mpr hhold]
  · rintro c s i h rfl hi hns hattach
    refine run_ends (o := opStoNsRemove) h ?_
    simp [opStoNsRemove, mkOp, Nat.not_le.mpr hi, hns, hattach]
  · rintro c s i who host nsid h hres rfl hi hwho rfl rfl hnsid hns hfree hclash
    have hnum : (c.prm 2 1 == 0 && (c.prm 8 2 == 0 || decide (1024 < c.prm 8 2))) = false := by
      cases hhost : c.prm 2 1 == 0 with
      | false => rfl
      | true =>
        obtain ⟨h0, hmax⟩ := hnsid hhost
        simp [h0, hmax]
    refine run_ends (o := opStoNsAttach) h ?_
    simp only [opStoNsAttach, mkOp, hwho, hnum, hfree, hclash, hns, hres]
    simp [Nat.not_le.mpr hi]
  · rintro c s i who a h rfl hi hwho hfind hstays
    refine run_starts (o := opStoNsDetach) h ?_
    simp [opStoNsDetach, mkOp, Nat.not_le.mpr hi, hwho, hfind, hstays]
  · rintro i who f s w rfl hdetaching hdone
    exact congrArg _ (detached_of_ended hdetaching hdone)
  · rintro c s u i n h rfl hi hslot rfl hns hlocked
    obtain ⟨hacc, hrun⟩ := runKey_accepted (f := nsField c) h
    change Host.Outcome.next (runKeyCmd opStoNsKey (nsField c) c s) = _
    rw [hrun]
    rcases hkey : importKey c (nsField c) (wipe c s) with ⟨r | key, t⟩
    · rw [run_replies hacc (stoNsKey_of_refused hi hslot hns hlocked hkey)]
      simp only [nsField] at hkey
      simp only [hkey]
    · by_cases heq : key.take 32 = key.drop 32
      · rw [run_replies hacc (stoNsKey_of_equalHalves hi hslot hns hlocked hkey heq)]
        simp only [nsField] at hkey
        simp only [hkey, if_pos heq]
      · by_cases hcheck : thas t.sto.checks (c.prm 0 2) = true ∧
          tget t.sto.checks (c.prm 0 2) ≠ some (cipher (key.take 32 ++ List.replicate 16 0) 8)
        · rw [run_replies hacc (stoNsKey_of_mismatch hi hslot hns hlocked hkey heq rfl hcheck)]
          simp only [nsField] at hkey
          simp only [hkey, if_neg heq, if_pos hcheck]
        · rw [run_ends hacc (stoNsKey_of_agreed hi hslot hns hlocked hkey heq rfl hcheck)]
          simp only [nsField] at hkey
          simp only [hkey, if_neg heq, if_neg hcheck]
          rfl
  · rintro c s i x h hkind rfl hi hpath
    refine run_ends (o := opStoRead) h ?_
    simp [opStoRead, mkOp, hkind, Nat.not_le.mpr hi, hpath]
  · rintro c s i n h hkind rfl hi hns
    refine run_ends (o := opStoRead) h ?_
    simp [opStoRead, mkOp, hkind, Nat.not_le.mpr hi, hns]

end Sys2Proof.Machine

/-! The SVC commands (R418-R424, R429) and what carries a bed's start and stop on (R420, R421). -/

namespace Sys2Proof.Machine

theorem startBed_of_fits {b slot : Nat} {keep : Bool} {i : Image} {s : State} (himage : tget s.svc.images slot = some i)
    (hfits : bedFits s b i = true) : startBed b slot keep s = some (launchBed b slot keep i s) := by
  simp [startBed, himage, hfits]

/-- A bed that the device stops fails with the cause, unless the cause and its record let it start again. -/
theorem deviceStop_of_timeout {b : Nat} {s : State} (hst : (bedGet s b).st = .starting) :
    deviceStop b 1 s = stopBed b (.fail 1) false (bedMod b (fun x => { x with failCause := 1 }) (finishStart b (aborted 0) s)) := by
  simp [deviceStop, hst]

theorem bedReady_of_starting {b : Nat} {s : State} (hst : (bedGet s b).st = .starting) (hgraft : bedGrafting s b = false)
    (hall : ((bedClusters s b).all fun n => (clust s n).readyReg) = true) :
    bedReady b s = finishStart b (repOk []) (dirChanged (setBed b .running s)) := by
  simp only [bedReady, hst, hgraft, hall]
  rfl

theorem bedQuiet_of_stopping {b : Nat} {s : State} (hst : (bedGet s b).st = .stopping) (hgraft : bedGrafting s b = false)
    (hall : ((bedClusters s b).all fun n => !(clust s n).readyReg) = true) : bedQuiet b s = bedStopped b s := by
  simp only [bedQuiet, hst, hgraft, hall]
  rfl

/-- The body of SVC_START starts the bed once it has replied ACCEPTED, or ends without a place for it. -/
theorem opSvcStart_of_image {c : Cmd} {s : State} {i : Image} (hflags : c.prm 2 1 ≤ 1) (hb : c.prm 0 1 < 32) (hslot : c.prm 1 1 < 64)
    (himage : tget s.svc.images (c.prm 1 1) = some i) (hidle : bedBusyState (bedGet s (c.prm 0 1)).st = false) :
    opSvcStart.body c s = .accept (c.prm 0 1) s fun t =>
      (startBed (c.prm 0 1) (c.prm 1 1) (c.prm 2 1 == 1) t).getD (finishKey 0x2802 (c.prm 0 1) (noResource 0) t) := by
  simp only [opSvcStart, mkOp, if_neg (Nat.not_lt.mpr hflags), thas, himage, hidle]
  simp only [Nat.not_le.mpr hb, Nat.not_le.mpr hslot, decide_false, Bool.or_self, Bool.false_eq_true, if_false, Option.isSome_some,
    Bool.not_true]
  congr 1
  funext t
  cases startBed (c.prm 0 1) (c.prm 1 1) (c.prm 2 1 == 1) t <;> rfl

theorem opSvcReplace_of_running {c : Cmd} {s : State} {i j : Image} {k : Nat} (hb : c.prm 0 1 < 32) (hslot : c.prm 1 1 < 64)
    (himage : tget s.svc.images (c.prm 1 1) = some i) (hold : (bedGet s (c.prm 0 1)).slot = some k) (hj : tget s.svc.images k = some j)
    (hsame : j.service = i.service) (hst : (bedGet s (c.prm 0 1)).st = .running) :
    opSvcReplace.body c s = .accept (c.prm 0 1) s fun t => stopBed (c.prm 0 1) (.replace (c.prm 1 1)) true t := by
  simp only [opSvcReplace, mkOp, himage, hold, Option.bind_some, hj, hsame, hst]
  simp [Nat.not_le.mpr hb, Nat.not_le.mpr hslot]

/-- Settles O17: the slot and the bed that a command names are in the state that it needs, and so is the bed that a row carries on. -/
theorem svcCommandsAct : Obligations.SvcCommandsAct := by
  refine ⟨?_, ?_, ?_, ?_, ?_, ?_, ?_, ?_, ?_, ?_, ?_⟩
  · rintro c s slot d h rfl hslot hspace hfree hbuf rfl
    refine run_starts (o := opSvcImageLoad) h ?_
    simp [opSvcImageLoad, mkOp, Nat.not_le.mpr hslot, Nat.not_lt.mpr hspace, hfree, hbuf]
  · rintro slot data s d t hslot hload rfl hform hfloor hfree
    change execSvcImageVerified slot data true true s = _
    rw [execSvcImageVerified, onElem_true (decide_eq_true hslot), hload]
    simp only [hform, hfree, if_neg (Nat.not_lt.mpr hfloor), Bool.not_true, Bool.false_eq_true, if_false]
  · rintro c s b slot i h hflags rfl hb rfl hslot himage hidle hfits hkept
    refine (run_startsThen (o := opSvcStart) h (opSvcStart_of_image hflags hb hslot himage hidle)).trans ?_
    rw [startBed_of_fits hkept hfits]
    rfl
  · rintro c s b h rfl hb hst
    refine run_startsThen (o := opSvcStop) (f := fun s => stopBed (c.prm 0 1) .stop true s) h ?_
    simp [opSvcStop, mkOp, Nat.not_le.mpr hb, hst]
  · rintro c s b slot i k j h rfl hb rfl hslot himage hold hj hsame hst
    exact run_startsThen (o := opSvcReplace) h (opSvcReplace_of_running hb hslot himage hold hj hsame hst)
  · rintro c s b x i h rfl hb rfl rfl
    refine run_ends (o := opSvcBedQuery) h ?_
    exact if_neg (Nat.not_le.mpr hb)
  · rintro c s h hslot
    refine run_ends (o := opSvcSlotRead) h ?_
    simp only [opSvcSlotRead, mkOp, if_neg (Nat.not_le.mpr hslot)]
    cases tget s.svc.images (c.prm 0 1) <;> rfl
  · rintro n s b t hn rfl hbed hst hall hgraft
    change execSvcReadySet n s = _
    rw [execSvcReadySet, onElem_true (decide_eq_true hn)]
    simp only [readySet, hbed, bedReady_of_starting hst hgraft hall]
  · rintro n s b t hn rfl hbed hst hall hgraft
    change execSvcReadyClear n s = _
    rw [execSvcReadyClear, onElem_true (decide_eq_true hn)]
    simp only [readyClear, hbed, bedQuiet_of_stopping hst hgraft hall]
  · intro b s hb hst hgraft
    change execStartTimeout b s = _
    rw [execStartTimeout, onElem_true (decide_eq_true hb), if_pos (by simp [hst, hgraft]), deviceStop_of_timeout hst]
  · intro b s hb hst hgraft
    change execStopGraceExpiry b s = _
    rw [execStopGraceExpiry, onElem_true (decide_eq_true hb), if_pos (by simp [hst, hgraft])]

end Sys2Proof.Machine

/-! The DBG commands and the sessions' ends (R406-R411, R623-R625), and the rows of a service cluster's registers and timers
(R393-R405, R426). -/

namespace Sys2Proof.Machine

/-! ## Debug commands -/

/-- A DBG command of an open session on a thread that the session may alter does what its opcode says. -/
theorem mkDbg_body {code len n t : Nat} {zeros : List (Nat × Nat)} {alters : Bool} {body : Nat → Nat → Cmd → State → Done} {c : Cmd}
    {s : State} {x : Session} (hsession : sessionOf s c.queue = some x) (hpath : paramPathBad (c.prm 0 4) s = false)
    (hthread : dbgThread c s = some (n, t)) (hright : alters = true → mayAlter s x.kind n t = true) :
    (mkDbg code len zeros alters body).body c s = body n t c s := by
  have hallowed : (alters && !mayAlter s x.kind n t) = false := by
    cases alters with
    | false => rfl
    | true => simp [hright rfl]
  simp only [mkDbg, mkOp, hsession, hpath, hthread, hallowed, Bool.false_eq_true, if_false]

theorem run_refused {o : Op} {c : Cmd} {s : State} {r : Rep} (h : accepts o c s = true) (hb : o.body c s = .refuse r) :
    runCmd o c s = answer o c r s := by
  rw [run_accepted h, hb]

section
variable {c : Cmd} {s : State} {tok : Bytes} (htok : tok = c.prmBytes 2 120) (hlen : c.prm 0 2 = 120) (hversion : rd tok 0 2 = 1)
  (hrsvd : rd tok 20 4 = 0) (hsigner : signerPermitted s (rd tok 3 1) = true)
include htok hlen hversion hrsvd hsigner

theorem opDbgOpen_of_bad (hbad : ¬ (Config.verifies (16 + rd tok 3 1) tok = true ∧ rd tok 4 8 = Config.packageSerial.toNat)) :
    opDbgOpen.body c s = .refuse (denied dSignature) := by
  simp only [opDbgOpen, mkOp, ← htok, hlen, hversion, hrsvd, hsigner]
  by_cases hv : Config.verifies (16 + rd tok 3 1) tok = true
  · have hserial : rd tok 4 8 ≠ Config.packageSerial.toNat := fun hs => hbad ⟨hv, hs⟩
    simp [hserial]
  · simp [hv]

theorem opDbgOpen_of_good (hgood : Config.verifies (16 + rd tok 3 1) tok = true ∧ rd tok 4 8 = Config.packageSerial.toNat)
    (hkind : kindPermitted s (rd tok 2 1) = true) (hlive : now32 s < rd tok 12 4) (hnew : s.boot.tokenSeq < rd tok 16 4)
    (hroom : s.boot.sessions.length < 4) :
    opDbgOpen.body c s = .ok (le 4 s.boot.nextSession) (raise 0x4006 b0Place [s.boot.nextSession, rd tok 2 1, rd tok 16 4]
      (toFlash 9 0 (le 4 (rd tok 16 4)) { s with boot := { s.boot with
        sessions := tput s.boot.sessions s.boot.nextSession
          { queue := c.queue, kind := rd tok 2 1, seq := rd tok 16 4, notAfter := rd tok 12 4 }
        nextSession := s.boot.nextSession + 1, tokenSeq := rd tok 16 4 } })) := by
  obtain ⟨hv, hserial⟩ := hgood
  simp only [opDbgOpen, mkOp, ← htok, hlen, hversion, hrsvd, hsigner, hv, hserial, hkind]
  simp [Nat.not_le.mpr hlive, Nat.not_le.mpr hnew, Nat.not_le.mpr hroom]

end

/-- Settles O18: the queue holds a session and the thread is as the command needs it; sessions end through one operation. -/
theorem dbgCommandsAct : Obligations.DbgCommandsAct := by
  refine ⟨?_, ?_, ?_, ?_, ?_, ?_, ?_, ?_, ?_⟩
  · intro c s x n t h hsession hpath hthread hright hrun
    refine run_ends (o := opDbgHalt) h ((mkDbg_body hsession hpath hthread fun _ => hright).trans ?_)
    cases stagedWords s n t <;> simp [hrun, thCode]
  · intro c s x n t h hsession hpath hthread hright hhalted hflags
    refine run_ends (o := opDbgResume) h ((mkDbg_body hsession hpath hthread fun _ => hright).trans ?_)
    simp [hhalted, Nat.not_lt.mpr hflags]
  · rintro c s x n t ch k remote u h hsession hpath hthread hright hhalted hstaged rfl
    refine run_ends (o := opDbgAbandonMessage) h ((mkDbg_body hsession hpath hthread fun _ => hright).trans ?_)
    simp [hhalted, hstaged]
  · rintro c s x n t th h hsession hpath hthread rfl
    exact run_ends (o := opDbgObserve) h (mkDbg_body hsession hpath hthread Bool.noConfusion)
  · intro c s x n t h hsession hpath hthread hright hsome hreg hhalted
    refine run_ends (o := opDbgReadReg) h ((mkDbg_body hsession hpath hthread fun _ => hright).trans ?_)
    simp [hhalted, hsome, Nat.not_le.mpr hreg]
  · rintro c s tok x h htok hlen hversion hrsvd hsigner hkind hlive hnew hroom rfl
    by_cases hgood : Config.verifies (16 + rd tok 3 1) tok = true ∧ rd tok 4 8 = Config.packageSerial.toNat
    · rw [if_pos hgood]
      exact run_ends (o := opDbgOpen) h (opDbgOpen_of_good htok hlen hversion hrsvd hsigner hgood hkind hlive hnew hroom)
    · rw [if_neg hgood]
      exact congrArg Host.Outcome.next (run_refused (o := opDbgOpen) h (opDbgOpen_of_bad htok hlen hversion hrsvd hsigner hgood))
  · intro c s x h hsession hown
    refine run_ends (o := opDbgClose) h ?_
    simp [opDbgClose, mkOp, hsession, hown]
  · intro k s hopen
    change Host.Outcome.next (closeSession k 2 s) = _
    rw [closeSession, if_neg (by simp [hopen])]
  · intro q s hq
    change execOobEndpointLoss q s = _
    rw [execOobEndpointLoss, onElem_true (decide_eq_true hq)]

/-! ## Clusters -/

/-- Settles O19: each row finds its timer, lock, channel or queue in the state that it needs. -/
theorem clusterEventsAct : Obligations.ClusterEventsAct := by
  refine ⟨?_, ?_, ?_, ?_, ?_, ?_, ?_, ?_, ?_, ?_⟩
  · intro n k s ch e hn hk htimer
    change execSvcTimerExpiry n k s = _
    rw [execSvcTimerExpiry, onElem_true (by simp [hn, hk]), htimer]
  · rintro n l s m t u v hn hl hheld hquiet hlimit rfl rfl
    change execLockLimitExpiry n l s = _
    rw [execLockLimitExpiry, onElem_true (by simp [hn, hl])]
    simp only [hheld]
    rw [if_neg (by simp [hquiet, hlimit])]
  · rintro n s l hn rfl hsome hfirst hnone hall hsup
    have hact : ((span 1 63).any fun t => canAct s n t) = false := List.any_eq_false.mpr fun t ht => by simp [hnone t ht]
    have hstuck : (((span 1 63).filter fun t => isBlocked (threadOf s n t).st).all fun t => isStuck s n t) = true :=
      List.all_eq_true.mpr hall
    have hblocked : ((span 1 63).filter fun t => isBlocked (threadOf s n t).st).isEmpty = false := by simpa using hsome
    change execStallTimeout n s = _
    rw [execStallTimeout, onElem_true (decide_eq_true hn)]
    simp only [hfirst, hblocked, hact, hstuck, hsup]
    rfl
  · intro n l s hn hl hheld
    change execSvcLockRelease n l s = _
    rw [execSvcLockRelease, onElem_true (by simp [hn, hl]), forceLock, if_pos hheld]
  · intro n t s hn ht hst
    change execSvcThreadRun n t s = _
    rw [execSvcThreadRun, onElem_true (by simp [hn, ht])]
    rcases hst with hst | hst <;> simp [threadRun, hst]
  · rintro n ch cfg s v hn hch rfl hon hoff hfits
    change execSvcChanEnable n ch cfg s = _
    rw [execSvcChanEnable, onElem_true (by simp [hn]; omega)]
    simp [chanCfgWrite, Nat.ne_of_lt hch, hoff, hon, hfits]
  · rintro n ch cfg s v hn hch rfl hclear hon
    change execSvcChanDisable n ch cfg s = _
    rw [execSvcChanDisable, onElem_true (by simp [hn]; omega)]
    simp [chanCfgWrite, Nat.ne_of_lt hch, hclear, hon]
  · intro n tail s hn
    change execSvcCmdqDb n tail s = _
    rw [execSvcCmdqDb, onElem_true (decide_eq_true hn)]
    rfl
  · rintro n cfg s v hn rfl hon hoff hdrained
    have hfree : ¬ ((clust s n).cmdq.running = true ∧ 0 < queueBusy s (.bed n)) := by
      rintro ⟨hrun, hbusy⟩
      rcases hdrained with hstop | hzero
      · simp [hrun] at hstop
      · omega
    change execSvcCmdqEnable n cfg s = _
    rw [execSvcCmdqEnable, onElem_true (decide_eq_true hn)]
    simp only [cmdqCfg, hon, hoff, if_true]
    rw [if_neg (by simpa using hfree)]
  · rintro n cfg s v hn rfl hclear
    change execSvcCmdqDisable n cfg s = _
    rw [execSvcCmdqDisable, onElem_true (decide_eq_true hn)]
    simp only [cmdqCfg, hclear, Bool.false_eq_true, if_false]
    rfl

end Sys2Proof.Machine

/-! The TEST, AGE and CART commands (R526-R537, R558, R569, R575) and the events of self-test and of the ageing governor. -/

namespace Sys2Proof.Machine

/-! ## The commands -/

/-- In a factory state TEST_RUN begins the exposure once it has replied ACCEPTED; an array test takes a bank of its own choice. -/
theorem opTestRun_of_factory {c : Cmd} {s : State} (h1 : 1 ≤ c.prm 0 1) (h4 : c.prm 0 1 ≤ 4) (hlevel : levelOf c.place ≠ .region)
    (hfactory : factoryState s = true) (hfree : (exposureOf s c.place).isSome = false) :
    opTestRun.body c s = .accept c.place s fun t =>
      addExposure c.place (c.prm 0 1) none (if c.prm 0 1 == 2 then someBank c.place t else (0, t)).1 true 0
        (if c.prm 0 1 == 2 then someBank c.place t else (0, t)).2 := by
  have h0 : c.prm 0 1 ≠ 0 := by omega
  simp only [opTestRun, mkOp, hfactory, hfree]
  simp [h0, Nat.not_lt.mpr h4, hlevel]

theorem opTestRun_of_route {c : Cmd} {s t : State} (h1 : 1 ≤ c.prm 0 1) (h4 : c.prm 0 1 ≤ 4) (hlevel : levelOf c.place ≠ .region)
    (hfactory : factoryState s = false) (hroute : routeOf (c.prm 0 1) c.place ≠ .none)
    (hlaunch : launchTest c.place (c.prm 0 1) none s = some t) :
    opTestRun.body c s = .accept c.place s fun t => (launchTest c.place (c.prm 0 1) none t).getD t := by
  have h0 : c.prm 0 1 ≠ 0 := by omega
  simp [opTestRun, mkOp, h0, Nat.not_lt.mpr h4, hlevel, hfactory, hroute, hlaunch]

/-- Settles O22: no field, state or partner stands against the command. -/
theorem careCommandsAct : Obligations.CareCommandsAct := by
  refine ⟨?_, ?_, ?_, ?_, ?_, ?_, ?_, ?_, ?_, ?_⟩
  · rintro c s p h rfl h1 h4 hlevel hfactory hfree
    exact run_startsThen (o := opTestRun) h (opTestRun_of_factory h1 h4 hlevel hfactory hfree)
  · rintro c s p k t u h rfl rfl h1 h4 hlevel hfactory hroute hlaunch hlaunch'
    refine (run_startsThen (o := opTestRun) h (opTestRun_of_route h1 h4 hlevel hfactory hroute hlaunch)).trans ?_
    rw [hlaunch', Option.getD_some]
  · intro c s h h7
    refine run_ends (o := opTestResult) h ?_
    simp only [opTestResult, mkOp, if_neg (Nat.not_lt.mpr h7)]
    cases (tgetD s.test.records c.place [])[c.prm 0 2]? <;> rfl
  · rintro c s d h rfl h1 h365
    have h0 : c.prm 0 2 ≠ 0 := by omega
    refine run_ends (o := opTestSchedule) h ?_
    by_cases hp : levelOf c.place = .package <;> simp [opTestSchedule, mkOp, h0, Nat.not_lt.mpr h365, hp]
  · rintro c s p h rfl hslot hlevel hmem
    have hdimm : (levelOf c.place == .unit && decide (24 ≤ pCluster c.place) && decide (pCluster c.place ≤ 26) &&
        decide (pUnit c.place < 4)) = false := by
      by_cases hu : levelOf c.place = .unit
      · have hlow : ¬ 24 ≤ pCluster c.place := Nat.not_le.mpr (hmem hu)
        simp [hlow]
      · simp [hu]
    refine run_ends (o := opAgeReport) h ?_
    simp only [opAgeReport, mkOp, hslot, hdimm]
    simp [hlevel]
  · intro c s h hmax hheld hlen hbuf
    refine run_starts (o := opAgeSheetRead) h ?_
    simp [opAgeSheetRead, mkOp, Nat.not_lt.mpr hmax, Nat.not_le.mpr hheld, Nat.not_lt.mpr hlen, hbuf]
  · intro c s h hday
    refine run_ends (o := opAgeSheetTime) h ?_
    simp [opAgeSheetTime, mkOp, Nat.not_lt.mpr hday]
  · rintro c s sl x h rfl rfl
    exact run_ends (o := opCartRead) h rfl
  · rintro c s sl h rfl hbus hmate hst hshort
    refine run_starts (o := opCartPrepareSwap) h ?_
    simp [opCartPrepareSwap, mkOp, hbus, hmate, hst, hshort]
  · rintro c s sl h rfl hst
    refine run_startsThen (o := opCartCancelSwap) h ?_
    rcases hst with hst | hst <;> simp [opCartCancelSwap, mkOp, hst]

/-! ## The events -/

/-- A scheduled exposure of a unit that carries no work, or of a spare, takes its route. -/
theorem runScheduled_of_route {p b : Nat} {s u : State} (hlife : s.boot.lifecycle = .deployed) (hfull : s.power.fullService = true)
    (htarget : scheduledTarget s p = p)
    (hlit : dark (((testedUnits p).filter hasRoute).foldl (fun s u => checkOverdue u s) s) p = false ∨ isSpare p = true)
    (hroute : routeOf 1 p ≠ .none) (hundrained : routeOf 1 p ≠ .drained) (hcluster : pCluster p ≠ 17)
    (hlaunch : launchTest p 1 (some b) (((testedUnits p).filter hasRoute).foldl (fun s u => checkOverdue u s) s) = some u) :
    runScheduled p b s = testMod (fun t => { t with retry := t.retry.filter (· != p) }) u := by
  have hworks : ¬ (dark (((testedUnits p).filter hasRoute).foldl (fun s u => checkOverdue u s) s) p = true ∧ isSpare p = false) := by
    rintro ⟨hdark, hunit⟩
    rcases hlit with hlit | hspare
    · simp [hdark] at hlit
    · simp [hunit] at hspare
  simp [runScheduled, hlife, hfull, htarget, hcluster, hroute, hundrained, hworks, hlaunch]

theorem ledger_testMod (f : TestS → TestS) (s : State) (sp : Nat) : ledger (testMod f s) sp = ledger s sp := rfl

/-- Settles O23: each event finds its exposure, claim or die in the state that it needs. -/
theorem testAgeEventsAct : Obligations.TestAgeEventsAct := by
  refine ⟨?_, ?_, ?_, ?_, ?_, ?_, ?_, ?_, ?_⟩
  · rintro p b s t u hlevel hlife hfull htarget rfl hlit hroute hundrained hcluster hlaunch
    change execScheduledExposure p b s = _
    rw [execScheduledExposure, onElem_true (by simp [hlevel]), runScheduled_of_route hlife hfull htarget hlit hroute hundrained hcluster
      hlaunch]
  · intro p s sp hlevel hretry hspare hclaimed
    change execClaimRetryTimer p s = _
    rw [execClaimRetryTimer, onElem_true (by simp [hlevel]), if_neg (by simp [hretry])]
    simp [hspare, ledger_testMod, hclaimed]
  · intro p pass n fails second cause s e he hbegun hopen hkind hwhy hspare
    obtain ⟨sp, hsp⟩ := Option.isSome_iff_exists.mp hspare
    change execExposureTestEnd p pass n fails second cause s = _
    simp [execExposureTestEnd, he, hbegun, hopen, hkind, hwhy, hsp]
  · intro p mon light dev s hlevel
    change execReferenceCheck p mon light dev s = _
    rw [execReferenceCheck, onElem_true (by rcases hlevel with h | h <;> simp [h])]
  · rintro d l z s t hdie hactive hup rfl hnone
    change execGovernorScan d l z s = _
    rw [execGovernorScan, onElem_true hdie, if_neg (by simp [hactive, hup])]
    have hbad : ∀ live : CanaryRead → Bool, (l.filter live).filter (fun r => guardFault (pruneWaiting (takeReads d l z s)) d r.unit) = [] :=
      fun live => List.filter_eq_nil_iff.mpr fun r hr => by simp [(hnone r (List.mem_of_mem_filter hr)).1]
    have hneed : ∀ live : CanaryRead → Bool, (l.filter live).filter (fun r => inServiceUnit (pruneWaiting (takeReads d l z s)) r.unit &&
        needs (pruneWaiting (takeReads d l z s)) d r.unit) = [] :=
      fun live => List.filter_eq_nil_iff.mpr fun r hr => by simp [(hnone r (List.mem_of_mem_filter hr)).2]
    simp only [hbad, hneed, List.foldl_nil, List.isEmpty_nil, if_true]
  · intro d s hdie hactive hsettled hfree hwant hroom
    change execGovernorRailStep d s = _
    rw [execGovernorRailStep, onElem_true hdie]
    simp [hactive, hsettled, hfree, hwant, hroom]
  · intro d s hdie hactive hsettled hfree hwant hroom
    change execGovernorRailStep d s = _
    rw [execGovernorRailStep, onElem_true hdie]
    simp [hactive, hsettled, hfree, hwant, hroom]
  · rintro d mv s x t hdie rfl hlow hhigh hwant rfl
    have hnear : ¬ ((dieAge s d).rail + 10 < mv ∨ mv + 10 < (dieAge s d).rail) := by omega
    change execRailMonitorCheck d mv s = _
    rw [execRailMonitorCheck, onElem_true hdie]
    simp [hnear, hwant]
  · intro i s
    exact ⟨_, rfl⟩

end Sys2Proof.Machine

/-! The cartridges, their lasers and the optical engines (R517-R534). -/

namespace Sys2Proof.Machine

/-- A ramp moves when its die is up and it does not wait for a slot that settles. -/
theorem rampMoves {s : State} {sl : Nat} (hst : (slotOf s sl).st = .rampingDown ∨ ((slotOf s sl).st = .rampingUp ∧ s.power.fullService = true))
    (hup : dieUp s (sl / 4 + 1) = true) :
    (!isRamping (slotOf s sl) || !dieUp s (sl / 4 + 1) ||
      ((slotOf s sl).st == .rampingUp && (slotOf s (mateSlot sl)).st == .settling && !s.power.fullService)) = false := by
  rcases hst with hst | ⟨hst, hfull⟩
  · simp [isRamping, hst, hup]
  · simp [isRamping, hst, hup, hfull]

/-- Settles O24: the slot stands in the state that each event needs. -/
theorem cartEventsAct : Obligations.CartEventsAct := by
  refine ⟨?_, ?_, ?_, ?_, ?_, ?_, ?_, ?_, ?_, ?_, ?_, ?_, ?_⟩
  · rintro sl serial s t hsl hempty rfl
    constructor
    · change execCartPresenceAssert sl (some (serial, true)) s = _
      rw [execCartPresenceAssert, onSlot, onElem_true (by simp [hsl]), if_neg (by simp [hempty])]
      rfl
    · change execCartPresenceAssert sl (some (serial, false)) s = _
      rw [execCartPresenceAssert, onSlot, onElem_true (by simp [hsl]), if_neg (by simp [hempty])]
      rfl
  · intro sl k s hsl hst hlow hhigh
    have hcls : k.cls ≠ 0 := by omega
    constructor
    · change execCartChallengeResponse sl true k s = _
      rw [execCartChallengeResponse, onSlot, onElem_true (by simp [hsl])]
      simp [hst, hcls, Nat.not_lt.mpr hhigh]
    · change execCartChallengeResponse sl false k s = _
      rw [execCartChallengeResponse, onSlot, onElem_true (by simp [hsl])]
      simp [hst]
  · intro sl s hsl hst
    change execCartSettleTimeout sl s = _
    rw [execCartSettleTimeout, onSlot, onElem_true (by simp [hsl]), if_pos (by simp [hst])]
  · rintro sl s t hsl hst hstep hmate hup rfl
    change execCartRampStep sl s = _
    rw [execCartRampStep, onSlot, onElem_true (by simp [hsl])]
    have hmore : (slotOf s sl).step + 1 < 64 := by omega
    simp only [rampMoves hst hup, hmate, hmore, Bool.false_eq_true, if_false, if_true]
  · intro sl s hsl hlit hlatch
    change execCartLatchOpen sl s = _
    rw [execCartLatchOpen, onSlot, onElem_true (by simp [hsl]), if_pos (by simp [hlit, hlatch])]
  · intro sl s hsl hpresence hst
    have hdark : slotLit (slotOf s sl) = false := by simp [slotLit, hst]
    change execCartPresenceOpen sl s = _
    rw [execCartPresenceOpen, onSlot, onElem_true (by simp [hsl])]
    simp [hpresence, hdark, hst]
  · rintro sl j s t hsl hj hworks hlit hlife rfl hmate hlife' hleft
    change execLaserFailure sl j s = _
    rw [execLaserFailure, onElem_true (by simp [hsl, hj])]
    simp [hworks, hlit, hlife', hmate, hleft, b2n]
  · intro sl s hsl hlit
    change execCartFatalFault sl s = _
    rw [execCartFatalFault, onSlot, onElem_true (by simp [hsl]), if_pos (by simp [hlit])]
  · rintro e c s t he hfault rfl
    change execOpticalEngineFault e c s = _
    rw [execOpticalEngineFault, onElem_true (by simp [he])]
    simp [engineFault, hfault]
  · intro p s hp
    change execLaneFault p s = _
    rw [execLaneFault, onElem_true (by simp [hp])]
  · intro sl s hsl hlit hbus
    change execCartBusSilence sl s = _
    rw [execCartBusSilence, onSlot, onElem_true (by simp [hsl]), if_pos (by simp [hlit, hbus])]
  · intro sl s hsl
    change execCartBusRestored sl s = _
    rw [execCartBusRestored, onSlot, onElem_true (by simp [hsl])]
  · intro sl s hsl hdue
    change execCartReplaceReminder sl s = _
    rw [execCartReplaceReminder, onSlot, onElem_true (by simp [hsl]), if_pos hdue]

end Sys2Proof.Machine

/-! The TWIN and LOG commands and joint commands (R448, R449, R598, R604, R659, R662), and what makes or ends a verdict about
the twin (R591-R600, R639). -/

namespace Sys2Proof.Machine

/-! ## Commands -/

/-- A verdict newer than those seen is taken in, whatever it says. -/
theorem takeVerdict_of_new {path seq : Nat} {s : State} (hnew : s.twin.witSeen < seq) (hreachable : s.twin.witnessReachable = true) :
    takeVerdict path seq true s =
      some (twinMod (fun t => { t with witSeen := seq, witnessPath := path % 4, witnessReachable := true }) s) := by
  simp [takeVerdict, Nat.not_le.mpr hnew, hreachable]

/-- Settles O25: the command's field and the twin's state let it through; a reply of the twin finds its joint command. -/
theorem twinLogCommandsAct : Obligations.TwinLogCommandsAct := by
  refine ⟨?_, ?_, ?_, ?_, ?_, ?_, ?_, ?_, ?_, ?_, ?_⟩
  · intro c s a h hheard
    refine run_ends (o := opTwinStatus) h ?_
    simp [opTwinStatus, mkOp, hheard]
  · intro c s h hkind hports
    refine run_ends (o := opTwinWitnessSet) h ?_
    have hgood : ¬ (c.prm 0 1 = 1 ∧ (1023 < c.prm 4 2 ∨ 1023 < c.prm 6 2)) := by
      rintro ⟨h1, hbad⟩
      have := hports h1
      omega
    simp [opTwinWitnessSet, mkOp, Nat.not_lt.mpr hkind, hgood]
  · intro c s h hgive hst hidle
    refine run_startsThen (o := opTwinHandover) h ?_
    simp [opTwinHandover, mkOp, hgive, hst, hidle]
  · intro c s h htake hst
    refine run_startsThen (o := opTwinHandover) h ?_
    simp [opTwinHandover, mkOp, htake, hst]
  · intro s hover hst
    change execHandoverDrained s = _
    simp only [execHandoverDrained, hover, hst, beq_self_eq_true, Bool.and_self, if_true]
  · rintro c s n h rfl h1 hmax hbuf
    have h0 : c.prm 8 2 ≠ 0 := by omega
    refine run_starts (o := opLogRead) h ?_
    simp [opLogRead, mkOp, h0, Nat.not_lt.mpr hmax, hbuf]
  · intro c s h harm
    refine run_ends (o := opLogTraceArm) h ?_
    simp [opLogTraceArm, mkOp, harm]
  · intro c s h hfreeze
    refine run_ends (o := opLogTraceArm) h ?_
    simp [opLogTraceArm, mkOp, hfreeze]
  · intro c s h hbuf
    refine run_starts (o := opLogTraceRead) h ?_
    simp [opLogTraceRead, mkOp, hbuf]
  · rintro tag status detail result s j t hj hfirst rfl
    change execTwinReplyReceived tag true status detail result s = _
    simp [execTwinReplyReceived, hj, hfirst]
  · intro tag status detail result s j hj hop
    change execTwinReplyReceived tag false status detail result s = _
    simp [execTwinReplyReceived, hj, hop]

/-! ## Verdicts -/

/-- Settles O26: the pairing, the link and the state of the twin are what each event needs. -/
theorem twinVerdictsAct : Obligations.TwinVerdictsAct := by
  refine ⟨?_, ?_, ?_, ?_, ?_, ?_, ?_, ?_, ?_, ?_, ?_⟩
  · rintro s l hpaired hlink rfl
    change execHeartbeatSend s = _
    rw [execHeartbeatSend, if_neg (by simp [hpaired, hlink])]
  · rintro seq st ep lost s t hpaired hlink rfl hst hbefore
    change execHeartbeatReceived seq st ep lost s = _
    rw [execHeartbeatReceived, if_neg (by simp [hpaired, hlink])]
    simp [hst, hbefore]
  · intro seq st ep lost s hpaired hlink hst
    change execHeartbeatReceived seq st ep lost s = _
    rw [execHeartbeatReceived, if_neg (by simp [hpaired, hlink]), if_neg (by simp [hst])]
  · intro s hpaired hst
    change execHeartbeatMissed s = _
    rcases hst with hst | hst <;> simp [execHeartbeatMissed, hpaired, hst]
  · intro s hpaired hfull hst hnever
    change execTwinAbsentAtStart s = _
    rw [execTwinAbsentAtStart, if_pos (by simp [hpaired, hfull, hst, hnever])]
  · intro s hst hclaim
    change execWitnessClaimResend s = _
    rw [execWitnessClaimResend, if_pos (by simp [hst, hclaim])]
  · intro s hpaired
    change execWitnessReport s = _
    rw [execWitnessReport, if_pos hpaired]
  · intro path seq s hst hnew hreachable
    constructor
    · change execWitnessGrant path seq true s = _
      simp [execWitnessGrant, takeVerdict_of_new hnew hreachable, hst]
    · change execWitnessRefusal path seq true s = _
      simp [execWitnessRefusal, takeVerdict_of_new hnew hreachable, hst]
  · intro s hst
    change execVerdictTimeout s = _
    rw [execVerdictTimeout, if_pos (by simp [hst])]
  · intro path s
    rfl
  · intro s hpaired halone hsole
    change execLeaveMessageReceived s = _
    rw [execLeaveMessageReceived, if_neg (by simp [hpaired, halone, hsole])]

end Sys2Proof.Machine

/-! The twin link, joins, LACP and SA state (R222, R586-R590, R598, R599, R683), and faults, grafts and losses (R29-R51, R194,
R582-R585). -/

namespace Sys2Proof.Machine

/-! ## The twin link -/

theorem raise_flash (code p : Nat) (w : List Nat) (s : State) : (raise code p w s).flash = s.flash :=
  (raise_moves code p w s).keeps .flash (by decide)

/-- Settles O27: the link, the step of the join and the records are as each event needs them. -/
theorem twinLinkActs : Obligations.TwinLinkActs := by
  refine ⟨?_, ?_, ?_, ?_, ?_, ?_, ?_, ?_, ?_, ?_⟩
  · intro k s hk hlane
    change execTwinLaneUp k s = _
    rw [execTwinLaneUp, onElem_true (by simp [hk]), if_neg (by simp [hlane])]
  · intro k s hk hlane
    change execTwinLaneFailure k s = _
    rw [execTwinLaneFailure, onElem_true (by simp [hk]), if_pos hlane]
  · rintro v system package s u hpaired hlink hv rfl hpackage rfl
    change execTwinLinkUp v s.flash.system package true none s = _
    rw [execTwinLinkUp, if_neg (by simp [hpaired, hlink])]
    simp [hv, raise_flash, hpackage]
  · rintro e base slots s t hstep hleads rfl
    change execJoinConfigApplied e base slots s = _
    rw [execJoinConfigApplied, if_neg (by simp [hstep]), if_pos hleads]
  · rintro e base slots s l t hstep hleads rfl hepoch rfl
    change execJoinConfigApplied e base slots s = _
    rw [execJoinConfigApplied, if_neg (by simp [hstep]), if_neg (by simp [hleads])]
    simp only [hepoch, beq_self_eq_true, if_true] <;> rfl
  · rintro objs s t hstep rfl
    change execJoinStateCopied objs s = _
    rw [execJoinStateCopied, if_neg (by simp [hstep])]
    by_cases hleads : s.twin.leads = true
    · simp only [hleads, if_true]
    · by_cases hversion : s.twin.version < 2
      · simp only [hleads, hversion, Bool.false_eq_true, if_false, if_true]
      · simp only [hleads, hversion, Bool.false_eq_true, if_false]
  · rintro p system key port s t hp hregion hup hnew hsettled rfl
    change execLacpduReceived p system key port s = _
    rw [execLacpduReceived, onPort_of_up hp hregion, if_neg (by simp [hup])]
    have hstill : twinSettled (portMod p (fun x => { x with lacp := some (system, key, port) }) s) = true := hsettled
    have htell : ((portGet s p).lacp != some (system, key, port) &&
        twinSettled (portMod p (fun x => { x with lacp := some (system, key, port) }) s)) = true := by
      simp [hnew, hstill]
    simp only [htell, if_true]
  · intro p system key s hp
    change execTwinLacpInfoReceived p system key s = _
    rw [execTwinLacpInfoReceived, onElem_true (by simp [hp])]
  · intro sa seq seen s a hversion hsa hinbound hnew
    change execTwinSaStateReceived sa seq seen s = _
    simp [execTwinSaStateReceived, Nat.not_lt.mpr hversion, hsa, hinbound, hnew]
  · intro sa seq seen s a hversion hsa hout
    change execTwinSaStateReceived sa seq seen s = _
    simp [execTwinSaStateReceived, Nat.not_lt.mpr hversion, hsa, hout]

/-! ## Faults and grafts -/

theorem faultUnit_of_lit {p : Nat} {s : State} (hup : dieUp s (pDie p) = true) (hlit : dark s p = false) :
    faultUnit p s = faultAny p s := by
  simp only [faultUnit, hup, hlit, Bool.not_true, Bool.or_self, Bool.false_eq_true, if_false]

section
variable {p sp : Nat} {s : State} (hlevel : levelOf p = .unit) (hin : outOfService s p = false) (hwork : isSpare p = false)
  (hfree : unitGraft s p = none)
include hlevel hin hwork hfree

theorem faultAny_of_uncovered (hspare : sparedUnit p = none) : faultAny p s = contain p s := by
  simp [faultAny, hlevel, hwork, hfree, hin, hspare]

theorem faultAny_of_claimed {t : State} (hspare : sparedUnit p = some sp) (hclaim : claimSuspect sp p (cloche p s) = some t) :
    faultAny p s = beginGraft p sp false false t := by
  simp [faultAny, hlevel, hwork, hfree, hin, hspare, hclaim]

theorem faultAny_of_unclaimed (hspare : sparedUnit p = some sp) (hclaim : claimSuspect sp p (cloche p s) = none) :
    faultAny p s = escalate (clusterOf p) (cloche p s) := by
  simp [faultAny, hlevel, hwork, hfree, hin, hspare, hclaim]

end

/-- The fault of a lit unit outside a cartridge slot. -/
theorem execUnitFault_of_lit {p : Nat} {s : State} (hlevel : levelOf p = .unit) (hup : dieUp s (pDie p) = true) (hlit : dark s p = false)
    (hslot : isCartSlot p = false) : execUnitFault p s = .next (faultAny p s) := by
  rw [execUnitFault, onElem_true (by simp [hlevel]), unitFaults, if_neg (by simp [hslot]), faultUnit_of_lit hup hlit]

/-- Settles O28: the place and its graft decide who takes the work. -/
theorem faultsAndGraftsAct : Obligations.FaultsAndGraftsAct := by
  refine ⟨?_, ?_, ?_, ?_, ?_, ?_, ?_, ?_, ?_, ?_, ?_, ?_⟩
  · intro p s hlevel
    rfl
  · intro p sp s t hlevel hin hup hlit hwork hfree hslot hspare hclaim
    exact (execUnitFault_of_lit hlevel hup hlit hslot).trans (congrArg _ (faultAny_of_claimed hlevel hin hwork hfree hspare hclaim))
  · intro p sp s hlevel hin hup hlit hwork hfree hslot hspare hclaim
    exact (execUnitFault_of_lit hlevel hup hlit hslot).trans (congrArg _ (faultAny_of_unclaimed hlevel hin hwork hfree hspare hclaim))
  · intro p s hlevel hin hup hlit hwork hfree hspare
    change execUnitFault p s = _
    rw [execUnitFault, onElem_true (by simp [hlevel]), unitFaults, faultUnit_of_lit hup hlit,
      faultAny_of_uncovered hlevel hin hwork hfree hspare]
    simp only [hup, hin, Bool.not_false, Bool.and_true]
  · rintro sp g s who hsp hg hforward rfl hunit hcluster hsuspect
    have hsuspect' : (ledger (dropGraft sp s) sp).state = .suspect := hsuspect
    change execGraftComplete sp s = _
    rw [execGraftComplete, onElem_true hsp]
    simp [graftDone, graftEnds, hg, hforward, hunit, hcluster, hsuspect']
  · rintro sp g s who t hsp hg hreturn rfl hunit hcluster rfl hclosed
    change execGraftComplete sp s = _
    rw [execGraftComplete, onElem_true hsp]
    simp [graftDone, graftEnds, hg, hreturn, hunit, hcluster, hclosed]
  · rintro sp g s who hsp hg hforward hill rfl hunit hclosed
    change execGraftTimeout sp s = _
    rw [execGraftTimeout, onElem_true hsp]
    simp [graftFails, hg, hforward, hill, hunit, hclosed]
  · intro p s hlevel hdie
    change execElementLoss p s = _
    rw [execElementLoss, onElem_true (by simp [hlevel])]
    simp [hlevel, hdie]
  · intro p s hlevel hdie
    change execElementLoss p s = _
    rw [execElementLoss, onElem_true (by simp [hlevel])]
    simp [hlevel, hdie]
  · intro p s hlevel
    change execElementLoss p s = _
    rw [execElementLoss, onElem_true (by simp [hlevel])]
    simp [hlevel]
  · intro p s hlevel
    change execElementLoss p s = _
    rw [execElementLoss, onElem_true (by simp [hlevel])]
    simp [hlevel]
  · intro p n s hlevel hcluster hquarter hin
    change execDieLinkQuarterFail p n s = _
    rw [execDieLinkQuarterFail, onElem_true (by simp [hlevel, hcluster, hquarter]), if_neg (by simp [hin])]

end Sys2Proof.Machine

/-! A port: its link from SEARCHING to UP and down again (R73-R80), and the frames and timers of a port that is UP (R71, R83-R93,
R101-R108, R113). -/

namespace Sys2Proof.Machine

/-! ## The link -/

/-- Settles O29: the port stands in the state that each event needs. -/
theorem linkEventsAct : Obligations.LinkEventsAct := by
  refine ⟨?_, ?_, ?_, ?_, ?_, ?_, ?_, ?_, ?_, ?_, ?_⟩
  · intro p s hp hregion hst
    change execRateHuntTimeout p s = _
    rw [execRateHuntTimeout, onPort_of_up hp hregion, if_pos (by simp [hst])]
  · intro p r s hp hregion hst hrate hlit
    change execReceiverLock p r s = _
    rw [execReceiverLock, onPort_of_up hp hregion, if_pos (by simp [hst, hrate, hlit])]
  · intro p s hp hregion hst hlock
    change execCandidateDwellExpiry p s = _
    rw [execCandidateDwellExpiry, onPort_of_up hp hregion, if_pos (by simp [hst, hlock])]
  · intro p f s hp hregion hst hrate hf
    change execFecPartnerIdentified p f s = _
    rw [execFecPartnerIdentified, onPort_of_up hp hregion]
    simp [hst, hrate, hf]
  · intro p s hp hregion hst hwait
    change execFecMismatchWaitExpiry p s = _
    rw [execFecMismatchWaitExpiry, onPort_of_up hp hregion, if_pos (by simp [hst, hwait])]
  · intro p s hp hregion hst hlock hgood hfec
    change execLockHoldExpiry p s = _
    rw [execLockHoldExpiry, onPort_of_up hp hregion]
    simp [hst, Option.isSome_iff_ne_none.mpr hlock, hgood, hfec]
  · intro p s hp hregion hst
    change execLockLost p s = _
    rw [execLockLost, onPort_of_up hp hregion, hst]
  · intro p s hp hregion hst hfault
    change execLinkFaultPersist p s = _
    rw [execLinkFaultPersist, onPort_of_up hp hregion]
    simp only [hst, hfault, beq_self_eq_true, Bool.and_self, if_true]
  · intro p s hp hregion hst hloop
    change execHeldExpiry p s = _
    rw [execHeldExpiry, onPort_of_up hp hregion, if_pos (by simp [hst, hloop])]
  · intro p k s hp hregion hk
    change execLinkFaultDetected p k s = _
    rw [execLinkFaultDetected, onPort_of_up hp hregion]
    have hkind : k = 0 ∨ k = 1 ∨ k = 2 := by omega
    rcases hkind with rfl | rfl | rfl <;> simp
  · intro p k s hp hregion hk
    change execLinkFaultCleared p k s = _
    rw [execLinkFaultCleared, onPort_of_up hp hregion]
    have hkind : k = 0 ∨ k = 1 ∨ k = 2 := by omega
    rcases hkind with rfl | rfl | rfl <;> simp

/-! ## Frames -/

/-- Settles O30: the port is UP, or the timer's condition holds; the counters of the line leave the link as it is. -/
theorem portFramesAct : Obligations.PortFramesAct := by
  refine ⟨?_, ?_, ?_, ?_, ?_, ?_, ?_, ?_, ?_, ?_, ?_⟩
  · rintro p b line o k i plain s n t hp hregion hst rfl rfl
    change execFrameReceived p b line o k i plain s = _
    rw [execFrameReceived, onPort_of_up hp hregion]
    have hon : (LinkState.up == .disabled) = false := by decide
    simp only [hst, hon, Bool.false_eq_true, if_false, countLine_st, bne_self_eq_false, Bool.not_eq_true']
  · rintro p s t hp hregion rfl hst
    change execPfcRefreshTimer p s = _
    rw [execPfcRefreshTimer, onPort_of_up hp hregion]
    simp only [hst, beq_self_eq_true, if_true]
  · intro p v l s hp hregion hst
    change execPfcFrameReceived p v l s = _
    rw [execPfcFrameReceived, onPort_of_up hp hregion, if_pos (by simp [hst])]
  · intro p time s hp hregion hst
    change execPauseFrameReceived p time s = _
    rw [execPauseFrameReceived, onPort_of_up hp hregion, if_pos (by simp [hst])]
  · intro p m s hp hregion
    exact onPort_of_up hp hregion _
  · intro p raw s hp hregion hon
    change execLldpFrameReceived p raw s = _
    rw [execLldpFrameReceived, onPort_of_up hp hregion]
    rcases hon with hst | hloop
    · simp [hst]
    · simp [hloop]
  · intro p s hp hregion hst
    change execLldpTransmitTimer p s = _
    rw [execLldpTransmitTimer, onPort_of_up hp hregion, if_pos (by simp [hst])]
  · intro p s hp hregion hst hfirst hnone
    change execDcbxAbsentTimeout p s = _
    rw [execDcbxAbsentTimeout, onPort_of_up hp hregion]
    simp only [hst, hfirst, hnone, beq_self_eq_true, Option.isNone_none, Bool.not_false, Bool.and_self, if_true]
  · rintro p s t hp hregion rfl
    exact onPort_of_up hp hregion _
  · intro p s hp hregion hlost
    change execPortSyncOverflow p 1 s = _
    rw [execPortSyncOverflow, onPort_of_up hp hregion]
    simp [hlost]
  · intro p s hp hregion hlost
    change execPortSyncOverflow p 2 s = _
    rw [execPortSyncOverflow, onPort_of_up hp hregion]
    simp [hlost]

end Sys2Proof.Machine

/-! The host links and their functions: training, loss and power of a link, resets, power states and Bus Master Enable of a function,
and what a host reads and writes in its BARs (R273-R304). -/

namespace Sys2Proof.Machine

/-! ## Links -/

/-- Settles O33: the half of the link exists and is in the state that each event needs. -/
theorem hostLinkEventsAct : Obligations.HostLinkEventsAct := by
  refine ⟨?_, ?_, ?_, ?_, ?_, ?_, ?_, ?_, ?_⟩
  · rintro link half rate width flit s low t hhalf rfl rfl
    change execHostLinkTrained link half rate width flit s = _
    rw [execHostLinkTrained, onElem_true hhalf]
  · intro link half s hhalf
    exact onElem_true hhalf _
  · intro link half s hhalf
    exact onElem_true hhalf _
  · intro link half s hhalf
    exact onElem_true hhalf _
  · intro link half s hhalf
    exact onElem_true hhalf _
  · intro link half status s hhalf
    exact onElem_true hhalf _
  · intro link half s hhalf hup hl0p hreads
    change execL0pNarrow link half s = _
    rw [execL0pNarrow, onElem_true hhalf]
    simp [hup, hl0p, hreads]
  · intro link half b s hhalf hup hl0p
    change execL0pPartnerRequest link half b s = _
    rw [execL0pPartnerRequest, onElem_true hhalf]
    simp [hup, hl0p]
  · intro link half s hhalf hup hl1 hreads hqueued hdoor
    change execAspmL1Entry link half s = _
    rw [execAspmL1Entry, onElem_true hhalf]
    simp only [hup, hl1, hreads, hqueued, hdoor, beq_self_eq_true, Bool.not_false, Bool.and_self, if_true]

/-! ## Functions -/

theorem flrInRange {f : Fn} {s : State} (hhalf : halfExists s f.link f.half = true) (hpool : f.pool < 2) (hnum : f.num ≤ 128) :
    (halfExists s f.link f.half && decide (f.pool < 2) && decide (f.num ≤ 128)) = true := by
  simp [hhalf, hpool, hnum]

/-- Settles O34: the function exists, and its state decides what a reset's end, a power state or Bus Master Enable brings. -/
theorem functionEventsAct : Obligations.FunctionEventsAct := by
  refine ⟨?_, ?_, ?_, ?_, ?_, ?_, ?_, ?_, ?_⟩
  · rintro f s t hf rfl
    change execFunctionLevelReset f s = _
    rw [execFunctionLevelReset, onElem_true hf]
    simp only [flr, beq_iff_eq]
  · rintro f s t hhalf hpool hnum hreset rfl hdeferred
    change execFlrComplete f s = _
    rw [execFlrComplete, onElem_true (flrInRange hhalf hpool hnum), if_neg (by simp [hreset])]
    simp only [beq_iff_eq, hdeferred, Bool.false_and, Bool.false_eq_true, if_false]
  · rintro f s t hhalf hpool hnum hvf hreset rfl hdeferred hlast
    have hnz : f.num ≠ 0 := by omega
    change execFlrComplete f s = _
    rw [execFlrComplete, onElem_true (flrInRange hhalf hpool hnum), if_neg (by simp [hreset])]
    simp only [beq_iff_eq, hnz, hdeferred, hlast, Bool.not_false, Bool.and_self, if_false, if_true]
  · intro f s hf
    exact onElem_true hf _
  · intro f s hf
    exact onElem_true hf _
  · intro f s hf hrun
    change execBusMasterEnableSet f s = _
    rw [execBusMasterEnableSet, onElem_true hf, if_neg (by simpa using hrun.resolve_left), setBme]
  · intro f s hf hvf hst
    change execBusMasterEnableSet f s = _
    rw [execBusMasterEnableSet, onElem_true hf, if_pos (by simp [hvf, hst])]
  · intro f s hf hbme
    change execBusMasterEnableClear f s = _
    rw [execBusMasterEnableClear, onElem_true hf]
    simp [hbme]
  · rintro f s n t u hf hbme rfl rfl rfl
    change execBusMasterEnableClear f s = _
    rw [execBusMasterEnableClear, onElem_true hf]
    simp only [hbme, Bool.not_true, Bool.false_eq_true, if_false]

/-! ## Reads and accesses -/

/-- A granted read that lies in one valid window of memory completes with the bytes at the address that the window and the offset
give (R284, R285). -/
theorem exec_bar2Access_read {f : Fn} {off len : Nat} {s : State} {e k a : Nat} (hf : fnExists s f = true) (hpf : f.num = 0)
    (hk : k = 2 ^ s.host.winLog2) (he : e = tgetD (funcOf s f).active (off / k) 0) (hlen : 0 < len) (hvalid : bit e 0 = true)
    (hwin : off / k < 64) (hone : off / k = (off + len - 1) / k) (ha : a = fld e 12 36 * 4096 + off % k)
    (hmem : isMemory a len = true) (hrd : bit e 1 = true) (hgrant : rangeGrants s (pfCode f) a len false = true)
    (hpoison : poisonHit s a len = none) :
    exec (.bar2Access f off len none) s =
      .next (countReads a len (toHost f (.completion (linkKey f.link f.half) 0 (memRead s a len)) s)) := by
  subst hk he ha
  change execBar2Access f off len none s = _
  have hne : len ≠ 0 := by omega
  have hin : ¬ 64 ≤ off / 2 ^ s.host.winLog2 := by omega
  simp [execBar2Access, onElem, hf, hpf, hne, hvalid, hin, ← hone, hrd, hgrant, hmem, hpoison, busRead, complete]

/-- Two changes of a function that agree on its present registers do the same. -/
theorem funcMod_congr {f : Fn} {s : State} {F G : Func → Func} (h : F (funcOf s f) = G (funcOf s f)) : funcMod f F s = funcMod f G s := by
  simp only [funcOf] at h
  simp only [funcMod, tmod, h]

section
variable {f : Fn} {s : State} (hf : fnExists s f = true) (hpf : f.num = 0) (hidle : (funcOf s f).winBusy = false)
include hf hpf hidle

/-- A commit that selects a refused window takes none of them. -/
theorem exec_winCommit_refused {mask n : Nat}
    (hbad : (((List.range 64).filter fun n => bit mask n).find? fun n => winRefuses s f (tgetD (funcOf s f).shadow n 0)) = some n) :
    exec (.winCommit f mask) s = .next (funcMod f (fun g => { g with winRefused := true, winFirst := n }) s) := by
  change execWinCommit f mask s = _
  rw [execWinCommit, onElem_true (by simp [hf, hpf])]
  simp only [hidle, hbad, Bool.false_eq_true, if_false]

theorem exec_winCommit_taken {mask : Nat}
    (hgood : (((List.range 64).filter fun n => bit mask n).find? fun n => winRefuses s f (tgetD (funcOf s f).shadow n 0)) = none) :
    exec (.winCommit f mask) s = .next (funcMod f (fun g => { g with
      winBusy := true, winRefused := false, winFirst := 0
      active := ((List.range 64).filter fun n => bit mask n).foldl (fun a n => tput a n (tgetD (funcOf s f).shadow n 0)) g.active }) s) := by
  change execWinCommit f mask s = _
  rw [execWinCommit, onElem_true (by simp [hf, hpf])]
  simp only [hidle, hgood, Bool.false_eq_true, if_false]
  exact congrArg _ (funcMod_congr rfl)

end

/-- Settles O35: the tag finds its read, and the access its window. -/
theorem functionAccessesAct : Obligations.FunctionAccessesAct := by
  refine ⟨?_, ?_, ?_, ?_, ?_, ?_, ?_, ?_, ?_, ?_, ?_, ?_, ?_, ?_⟩
  · rintro f tag s r t hr hlive rfl
    change execCompletionTimeout f tag s = _
    simp [execCompletionTimeout, hr, hlive, aerNonFatal, aerTimeout]
  · intro f tag s r hr hdead
    change execCompletionTimeout f tag s = _
    simp [execCompletionTimeout, hr, hdead]
  · intro f tag s r data hf hr hlive
    change execHostCompletionReceived f tag 3 data s = _
    rw [execHostCompletionReceived, onElem_true hf]
    simp [hr, hlive, readDone, aerNonFatal, aerPoisoned]
  · intro f tag s r data k hf hr hlive huse
    change execHostCompletionReceived f tag 0 data s = _
    rw [execHostCompletionReceived, onElem_true hf]
    simp [hr, hlive, readDone, huse]
  · intro f tag status s r data hf hr hdead
    change execHostCompletionReceived f tag status data s = _
    rw [execHostCompletionReceived, onElem_true hf]
    simp [hr, hdead]
  · intro f tag status s data hf hnone
    change execHostCompletionReceived f tag status data s = _
    rw [execHostCompletionReceived, onElem_true hf, hnone]
    rfl
  · intro f s hf
    exact onElem_true hf _
  · intro f s hf
    exact onElem_true hf _
  · intro f off len s k e a hf hpf hk he hlen hvalid hwin hone ha hmem hrd hgrant hpoison
    exact exec_bar2Access_read hf hpf hk he hlen hvalid hwin hone ha hmem hrd hgrant hpoison
  · intro f off len d s k e a hf hpf hk he hlen hvalid hwin hone ha hmem hwr hgrant hpoison
    exact exec_bar2Access_write hf hpf hk he hlen hvalid hwin hone ha hmem hwr hgrant hpoison
  · rintro f s t hf hpf rfl
    change execPfIntxCauseRead f s = _
    rw [execPfIntxCauseRead, onElem_true (by simp [hf, hpf])]
  · intro f s hf hpf
    exact onElem_true (by simp [hf, hpf]) _
  · intro f mask s hf hpf hidle hgood
    refine exec_winCommit_taken hf hpf hidle (List.find?_eq_none.mpr fun n hn => ?_)
    obtain ⟨hlt, hbit⟩ := List.mem_filter.mp hn
    simp [hgood n (List.mem_range.mp hlt) hbit]
  · intro f mask s n hf hpf hidle hbad
    exact exec_winCommit_refused hf hpf hidle hbad

end Sys2Proof.Machine

/-! Power pins, starts, full service, shutdown and restarts (R425, R452, R453, R610-R646); time, the log and heat (R568, R648-R658,
R674-R679); the step and the reset state. -/

namespace Sys2Proof.Machine

/-! ## Power -/

theorem fullService_idle {s : State} (hmgmt : s.boot.mgmtRuns = true) (hfull : s.power.fullService = false) (hup : dieUp s 0 = true) :
    (!s.boot.mgmtRuns || s.power.fullService || !dieUp s 0) = false := by
  simp [hmgmt, hfull, hup]

theorem windowFree {s : State} (hshut : ((span 1 4).all fun k => diePhase s k != .windowOpen) = true) :
    ((span 1 4).any fun k => diePhase s k == .windowOpen) = false := by
  simpa [List.any_eq_false, List.all_eq_true] using hshut

/-- Settles O44: the pins, the phase of the die and the stage of the shutdown are as each row needs them. -/
theorem powerRowsAct : Obligations.PowerRowsAct := by
  refine ⟨?_, ?_, ?_, ?_, ?_, ?_, ?_, ?_⟩
  · rintro ref rst shdn s t hoff rfl
    change execPwrOkRise ref rst shdn s = _
    rw [execPwrOkRise, if_neg (by simp [hoff])]
  · intro s hok
    refine ⟨?_, fun hreset => ?_, fun hreset b => ?_, ?_⟩
    · change execPwrOkFall s = _
      rw [execPwrOkFall, if_neg (by simp [hok])]
    · change execResetNAssert s = _
      rw [execResetNAssert, if_pos (by simp [hok, hreset])]
    · change execResetNRelease b s = _
      rw [execResetNRelease, if_neg (by simp [hreset])]
      simp only [powerMod, hok, if_true]
    · rintro hrun t rfl
      change execShdnReqNAssert s = _
      simp only [execShdnReqNAssert, powerMod, hok, hrun, fixRuns]
      by_cases hfull : s.power.fullService = true <;> simp [hfull]
  · intro d s h1 h4 hmgmt hphase hshut
    change execFabricBootWindowOpen d s = _
    rw [execFabricBootWindowOpen, onElem_true (by simp [h1, h4])]
    simp only [hmgmt, hphase, windowFree hshut, beq_self_eq_true, Bool.not_false, Bool.and_self, if_true]
  · rintro d s t h4 hphase rfl
    constructor
    · change execProtCtrlLock d s = _
      rw [execProtCtrlLock, onElem_true (by simp [h4])]
      simp [hphase]
    · change execBootWindowTimeout d s = _
      rw [execBootWindowTimeout, onElem_true (by simp [h4])]
      simp [hphase]
  · intro d fails s t h4 hphase
    constructor
    · change execStartTestEnd d fails false s = _
      rw [execStartTestEnd, onElem_true (by simp [h4])]
      simp [hphase]
    · rintro rfl
      change execStartTestEnd d fails true s = _
      rw [execStartTestEnd, onElem_true (by simp [h4])]
      simp only [hphase, beq_self_eq_true, Bool.not_true, Bool.false_eq_true, if_false, if_true, beq_iff_eq]
  · rintro a b s t u v hmgmt hfull hup rfl rfl rfl hcause
    change execFullService a b s = _
    rw [execFullService, if_neg (by simp [fullService_idle hmgmt hfull hup])]
    simp only [beq_iff_eq, hcause, if_false]
  · intro s t u v
    refine ⟨?_, fun hstage => ?_, fun c hdue hready => ?_⟩
    · intro hstage ht hu hv
      change execShutdownBedsStopped s = _
      rw [execShutdownBedsStopped, if_neg (by simp [hstage]), hv, hu, ht]
    · change execShutdownLasersDark s = _
      rw [execShutdownLasersDark, if_neg (by simp [hstage])]
    · change execPackageRestartBegin s = _
      simp [execPackageRestartBegin, hdue, hready]
  · intro d s t h1 h4 hdie
    refine ⟨fun hphase => ?_, ?_⟩
    · change execDieRestartDrained d s = _
      rw [execDieRestartDrained, onElem_true (by simp [h1, h4]), if_pos (by simp [hdie, hphase])]
    · intro hphase ht
      change execDieRestartReady d s = _
      rw [execDieRestartReady, onElem_true (by simp [h1, h4]), if_pos (by simp [hdie, hphase])]
      simp only [beq_iff_eq, ← ht]
      cases t.power.restartList <;> rfl

/-! ## Time, the log and heat -/

/-- Settles O45: the time source is the one whose reference changes, and the element exists. -/
theorem timeLogThermalEventsAct : Obligations.TimeLogThermalEventsAct := by
  refine ⟨?_, ?_, ?_, ?_⟩
  · intro s
    refine ⟨fun hwas hsource => ?_, fun hwas hsource => ?_, fun hwas hsource => ?_, fun off hsource => ?_, ?_, ?_, fun href hlock => ?_, rfl,
      fun e r hl => ?_⟩
    · have hsource' : timeSource (timeMod (fun t => { t with refPresent := false }) s) ≠ 0 := hsource
      change execTkRefLoss s = _
      simp [execTkRefLoss, hwas, hsource']
      rfl
    · have hsource' : timeSource (timeMod (fun t => { t with ppsPresent := false }) s) = 2 := hsource
      change execTkPpsLoss s = _
      simp [execTkPpsLoss, hwas, hsource']
      rfl
    · have hsource' : timeSource (timeMod (fun t => { t with masterPresent := false }) s) = 3 := hsource
      change execPtpMasterLoss s = _
      simp [execPtpMasterLoss, hwas, hsource']
      rfl
    · change execTimeSourceReturn 1 off s = _
      simp [execTimeSourceReturn]
    · rintro off t hsource rfl
      have hsource' : timeSource (timeMod (fun t => { t with ppsPresent := true }) s) = 2 := hsource
      change execTimeSourceReturn 2 off s = _
      simp [execTimeSourceReturn, hsource']
    · rintro off t hsource rfl
      have hsource' : timeSource (timeMod (fun t => { t with masterPresent := true }) s) = 3 := hsource
      change execTimeSourceReturn 3 off s = _
      simp [execTimeSourceReturn, hsource']
    · change execTimeLockAchieved s = _
      rw [execTimeLockAchieved, if_pos (by simp [href, hlock])]
    · change execLogAppend s = _
      rw [execLogAppend, hl]
  · rintro p domain sec ns off s t hp hmode rfl rfl
    refine ⟨fun hset => ?_, fun hset hsource => ?_⟩
    · change execPtpMessageReceived p true 0 _ sec ns off s = _
      rw [execPtpMessageReceived, onElem_true (by simp [hp])]
      simp [hmode, hset]
    · have hsource' : timeSource (timeMod (fun t => { t with masterPresent := true }) s) = 3 := hsource
      change execPtpMessageReceived p true 0 _ sec ns off s = _
      rw [execPtpMessageReceived, onElem_true (by simp [hp])]
      simp [hmode, hset, hsource']
  · intro p s hp
    exact onElem_true (by simp [hp]) _
  · intro n temp w s
    refine ⟨fun hn => ?_, fun hlow hhigh => ?_, fun hn hcool => ⟨?_, ?_⟩⟩
    · change execThermalReading n temp w s = _
      rw [execThermalReading, onElem_true (by simp [hn]), if_neg (by omega)]
    · change execThermalReading n temp w s = _
      rw [execThermalReading, onElem_true (by simp [hlow, hhigh]), if_pos hlow]
    · change execFirmwareTrip n temp s = _
      rw [execFirmwareTrip, onElem_true (by simp [hn]), if_neg (by simp [hcool])]
    · change execHardwareTrip n temp s = _
      rw [execHardwareTrip, onElem_true (by simp [hn]), if_neg (by simp [hcool])]

/-! ## The step and the reset state -/

/-- Settles O47: `step` of a waiting command is `exec` of it. -/
theorem stepRunsFront : Obligations.StepRunsFront := by
  intro c r s
  rfl

/-- Settles O49: the reset state is written out, and its tables are empty. -/
theorem resetState : Obligations.ResetState := by
  exact ⟨rfl, rfl, rfl, rfl, rfl, rfl, rfl, fun _ => rfl, rfl, rfl, rfl, rfl, rfl, fun _ _ => rfl, fun _ => rfl, rfl, rfl, rfl, rfl⟩

end Sys2Proof.Machine
